-- ==== Sys2Proof/Word.lean ====
section
/-! DEFINITION. The word types of the device: bytes, 32-bit registers, 64-bit quantities and 128-bit lines.
Registers are 32 bits wide (R9); a 64-bit quantity occupies two of them (R10); a core register holds 128 bits (R293). -/

namespace Sys2Proof

/-- One byte. -/
abbrev Byte := BitVec 8
/-- One BAR 0 register (R9). -/
abbrev Word := BitVec 32
/-- A 64-bit quantity: the GAC value (R27), a register pair (R10), an address of a core. -/
abbrev DWord := BitVec 64
/-- A 128-bit core register value (R293). -/
abbrev QWord := BitVec 128

end Sys2Proof
end

