-- ==== Sys2Proof/Syntax.lean ====
section
/-! DEFINITION. The commands of the block: one constructor per row of the table of operations and events, with the
operands that come from outside the device (a slot the host wrote, a frame on a lane, a register access, an instruction
of a control core). -/

namespace Sys2Proof

/-- A command slot as the device reads it (Table CUL-2), with the contents of the input buffers its PARAMS name, in the
order of the opcode's listing, and the place of poisoned data met while reading them (R190). -/
structure Slot where
  ring : Fin 256
  own : Byte
  ver : Byte
  flags : BitVec 16
  len : BitVec 16
  tag : Word
  handle : Word
  cycle : BitVec 64
  params : List Byte
  bufs : List (List Byte)
  poison : Option Word
deriving DecidableEq, Repr

/-- A PTP message as Aeduf's PTP function receives it (R37, R39): its type, sequence number and domain, the port
identity it names, the clockClass of an Announce, and, where it yields one, the servo offset in ns or the link delay in
2^-8 ns. `twoStep` says that Aeduf answers a request in two-step form (Table GAC-2 allows both). -/
structure PtpMsg where
  kind : Nat
  seq : BitVec 16
  domain : Byte
  src : BitVec 80
  clockClass : Byte
  offset : Option Int
  twoStep : Bool
deriving DecidableEq, Repr

/-- The PTP messages the device sends at an interval of their own. -/
inductive PtpKind where
  | sync | announce | pdelayReq
deriving DecidableEq, Repr

/-- Why a lane in UP fails (Table LNE-4). -/
inductive LinkCause where
  | lock | hiBer | localFault | remoteFault | anRestart
deriving DecidableEq, Repr

/-- What a read of an SRAM codeword meets: its index, the flips of its stored symbols (0 to 31 data, 32 to 37 check), the
region and index of the codeword read in its place where the access went astray (R186), and the flips of the three
copies of its poison mark (R189). What the decoder makes of it is the model's concern. -/
structure EccHit where
  cw : BitVec 24
  syms : List (Fin 38 × Byte)
  astray : Option (Byte × BitVec 24)
  marks : BitVec 3
deriving DecidableEq, Repr

/-- What a read of a Grove line brings back other than it was written: flips of its 64 stored bytes (0 to 63) and of its
side record (64 to 79), and a CXL poison indication (R169, R187). -/
structure LineErr where
  flips : List (Fin 80 × Byte)
  poison : Bool
deriving DecidableEq, Repr

/-- What a lane's receiver has counted since the last frame: FEC codewords corrected and uncorrectable, and errored
blocks, a received LPI block among them (R126, Table LNE-15). -/
structure PcsCount where
  corr : Nat
  uncorr : Nat
  blocks : Nat
deriving DecidableEq, Repr

/-- A badge in the reader's field (R432): its UID, and whether bit 5 of its last SAK announces ISO/IEC 14443-4. -/
structure Badge where
  uid : List Byte
  iso : Bool
deriving DecidableEq, Repr

/-- The exchange that an applet makes with a badge while it answers (R433): the UID it names, its C-APDU, and what the
badge does: whether it wakes and is selected, its ATS, the WTXM of each S(WTX) it sends, and its R-APDU (none: the
exchange fails). -/
structure BadgeRun where
  uid : List Byte
  capdu : List Byte
  awake : Bool
  ats : List Byte
  wtx : List Byte
  rapdu : Option (List Byte)
deriving DecidableEq, Repr

/-- What the published encodings of GOOSE and IEC 62351-6 yield for a frame: the sequence value, whether it lies within
the parse window, and the authentication extension: key identifier, whether it is an HMAC, its IV and its MAC. -/
structure GooseInfo where
  seq : Option (BitVec 64)
  early : Bool
  ext : Option (Word × Bool × List Byte × List Byte)
deriving DecidableEq, Repr

/-- A DMA descriptor that reads with OWN 0x01 (Table DMA-1). -/
structure DmaRaw where
  op : Byte
  flags : BitVec 16
  len : Word
  src : BitVec 64
  dst : BitVec 64
  value : Word
  tag : Word
deriving DecidableEq, Repr

/-- What the engine reads outside the device for a transfer: the bytes of a Culvert source and of a Culvert second
operand, the offset at which either read fails (a PCIe error, or CXL data that carries poison), and what the decoder finds
of the codewords of shared SRAM that it reads (R188). -/
structure DmaFeed where
  src : List Byte
  dst : List Byte
  badSrc : Option Nat
  badDst : Option Nat
  ecc : List EccHit
deriving DecidableEq, Repr

/-- Who makes an access on the register bus: host software through BAR 0 and BAR 2, or a control pair. -/
inductive Bus where
  | host
  | core (pair : Fin 5)
deriving DecidableEq, Repr

/-- What comes from outside the device with an access of the host or of a control core, where the access needs it: the
bytes that a read of the Culvert window returns (none: a PCIe error), that what is read carries poison or that a
register's two copies disagree (R25, R187), what the decoder of stored data finds on the codewords read (R188), the
descriptors that the device finds owned in a DMA ring, how far an abort lets a transfer go and its bytes, the raw
samples of the noise cell, and that the PCIe link is in L1.2. -/
structure AccIn where
  host : Option (List Byte)
  bad : Bool
  ecc : List EccHit
  descs : List DmaRaw
  blocks : BitVec 17
  feed : DmaFeed
  samples : List Word
  l12 : Bool
deriving DecidableEq, Repr

/-- The issue of an instruction: the pair, and what the decoder of stored data finds of the codewords that it fetches
(R188, R302). -/
structure Issue where
  pair : Fin 5
  ecc : List EccHit
deriving DecidableEq, Repr

/-- The number of the pair. -/
def Issue.val (k : Issue) : Nat := k.pair.val

/-- A card as its identification finds it (R436): whether it answers, its capacity in blocks, and the modes of Table
CRD-7 that it supports, and of these the ones whose switch is verified, a bit each. -/
structure CardId where
  ok : Bool
  blocks : Word
  modes : BitVec 16
  good : BitVec 16
deriving DecidableEq, Repr

/-- How the transfers of a card command end: all done; a failure whose retries are spent; no response to a command and
its retries; or the card removed, at a block or with none in transfer (R437, R438). -/
inductive CardStop where
  | done
  | spent
  | silent (block : Word)
  | lost (block : Word)
deriving DecidableEq, Repr

/-- What a card command reads from the card: both copies of the record, each a header block and the data that follow,
the failures counted, how the transfers end, and the target copy as it is read back (R437 to R442). -/
structure CardRun where
  copyA : List Byte
  copyB : List Byte
  fails : Word
  stop : CardStop
  back : List Byte
deriving DecidableEq, Repr

/-- The exchange of an APDU with the smart card: its response, a protocol failure, or a removal (R446). -/
inductive ScdRun where
  | answer (resp : List Byte)
  | failed
  | lost
deriving DecidableEq, Repr

/-- What a smart card shows at its activation (R445, R446): the answers to reset at class C and at class B that came
within the times of R445, whether it confirms PPS, and whether the T=1 link comes up. -/
structure ScdId where
  atrC : Option (List Byte)
  atrB : Option (List Byte)
  pps : Bool
  linkUp : Bool
deriving DecidableEq, Repr

/-- The SecY that an MKA exchange serves: that of a direct port, of an extender lane, or of the twin link (R98, R278). -/
inductive MkaSecy where
  | port (p : Fin 32)
  | lane (k : Fin 32)
  | twin
deriving DecidableEq, Repr

/-- What an MKPDU comes to in Aeduf (R99): a live peer; a SAK, its salt and its key number for an association number and
a key slot, with the directions it is installed in, their SSCIs, and whether its SA is in use from now on or waits for a
planned rollover; a SAK retired; or a rollover of the SecY's slots (R114, R116). -/
inductive MkaAct where
  | hello
  | sak (an : Fin 4) (slot : BitVec 15) (key salt : List Byte) (id : Word) (rx tx inUse : Bool) (ssciRx ssciTx : Word)
  | retire (an : Fin 4)
  | roll (old new : BitVec 15) (grace : Byte) (cycle : BitVec 40)
deriving DecidableEq, Repr

/-- What a GDOI message comes to in Aeduf (R100): a group key for a slot under its SPI, with 256-bit keys or not; the
activation of a slot; or a rollover. -/
inductive GdoiAct where
  | load (slot : BitVec 15) (long : Bool) (key : List Byte) (spi : Word)
  | activate (slot : BitVec 15)
  | roll (old new : BitVec 15) (grace : Byte) (fold : Bool) (cycle : BitVec 40)
deriving DecidableEq, Repr

/-- What a command that ends later meets outside the device when it executes: its card run, its smart-card run, a card
credential, what an applet answers and the exchange it makes with a badge, and how many runs of a public-key operation
a fault spoils (R24). -/
structure ExtIn where
  card : CardRun
  scd : ScdRun
  cred : Option (List Byte)
  reply : List Byte
  badge : Option BadgeRun
  faults : Fin 3
deriving DecidableEq, Repr


/-- One command of the block: one row of the table of operations and events. -/
inductive Instr where
  /-- ANGLE_ZERO (R16): The GAC angle wraps to 0 and the cycle number increments; every change scheduled for the cycle takes effect in the fixed order. -/
  | angleZero
  /-- SLUICE_ENTRY (R80): The angle reaches START of a schedule entry and the port's gates change as the entry gives. -/
  | sluiceEntry (port : Fin 1024) (tx : Bool)
  /-- KAT_DONE (R155): A known-answer test finishes or is abandoned and the core returns to the pool or is retired. -/
  | katDone (pass : Option Bool)
  /-- MREF_EDGE (R31): A rising edge on an enabled MREF input is filtered, timestamped and fed to input validity and the loop. -/
  | mrefEdge (n : Fin 3) (rise : Nat) (high : Nat)
  /-- MREF_TIMEOUT (R32): An MREF input sees no accepted edge for 1.5 periods and becomes invalid. -/
  | mrefTimeout (n : Fin 3)
  /-- ACQUISITION_COMPLETE (R41): The phase error stays below 0.5 degrees for 16 cycles and the GAC enters a locked state. -/
  | acquisitionComplete
  /-- HOLDOVER_EXPIRE (R41): HOLD_LEFT reaches 0 at angle 0 and the GAC enters NOMINAL or FREE and starts its slew. -/
  | holdoverExpire
  /-- PHASOR_TIMEOUT (R36): Five cycles pass without an accepted phasor estimate and the phasor reference becomes invalid. -/
  | phasorTimeout
  /-- PTP_LOCK (R39): The servo offset holds within 100 ns for 16 seconds and PTP becomes locked. -/
  | ptpLock
  /-- SYNC_TIMEOUT (R39): No Sync arrives for three expected intervals and PTP lock is lost. -/
  | syncTimeout
  /-- PTP_MESSAGE_RX (R479): A PTP message is consumed or copied to Aeduf's PTP function and the servo and BMCA act on it. -/
  | ptpMessageRx (lane : Fin 32) (msg : PtpMsg)
  /-- PTP_TX_INTERVAL (R37): A PTP message interval expires and Aeduf sends its PTP message. -/
  | ptpTxInterval (lane : Fin 32) (kind : PtpKind) (twoStep : Bool)
  /-- PPS_IN_EDGE (R37): An edge on PPS_IN serves as phase reference and applies a pending CMD_GAC_TAI_SET. -/
  | ppsInEdge
  /-- PPS_OUT_PULSE (R39): At each TAI second boundary PPS_OUT rises for WIDTH microseconds. -/
  | ppsOutPulse
  /-- FRAME_RX (R57): A frame arriving on a lane is parsed, identified, looked up once, gated, duplicate-checked, budgeted and admitted. -/
  | frameRx (lane : Fin 32) (wire : List Byte) (fcsOk : Bool) (cells : BitVec 8) (goose : Option GooseInfo) (ecc : Option EccHit) (pcs : PcsCount)
  /-- GROVE_FILL_RETURN (R172): A Grove fill returns, is checked and placed in Copse, and the frames waiting on it proceed. -/
  | groveFillReturn (fill : Nat) (errs : List (Fin 8 × LineErr))
  /-- MISS_TIMEOUT (R58): A frame waits 8 microseconds on a Copse miss and is dropped and counted in MISS_TMO. -/
  | missTimeout (frame : Nat)
  /-- FRAME_VERDICT (R106): The frame's MACsec, tag, replay and poison checks conclude and its verdict passes or fails. -/
  | frameVerdict (frame : Nat) (agree : Bool) (cells key : Option EccHit)
  /-- EGRESS_HANDOVER (R83): A frame of classes 0-6 with a passed verdict and open ingress gate enters its egress queues. -/
  | egressHandover (port : Fin 1025) (cls : Fin 7)
  /-- EGRESS_TX_START (R84): An egress lane chooses and starts its next transmission, taking a PN and protecting the copy. -/
  | egressTxStart (lane : Fin 32)
  /-- EGRESS_FCS (R108): The FCS of a cut-through Dike copy falls due and is sent correct or stomped. -/
  | egressFcs (lane : Fin 32)
  /-- EGRESS_TX_END (R89): A transmission ends and the Dike charge is subtracted from the egress budget. -/
  | egressTxEnd (lane : Fin 32)
  /-- MM_VERIFY_TIMER (R88): The verify interval expires and the MAC merge sublayer sends its next verify frame. -/
  | mmVerifyTimer (lane : Fin 32)
  /-- MM_VERIFY_RX (R88): A verify response arrives and preemption becomes active on the lane. -/
  | mmVerifyRx (lane : Fin 32)
  /-- CAL_FRAME_RX (R149): A calibration frame is consumed and its pad-strobe measurement is filtered. -/
  | calFrameRx (lane : Fin 32)
  /-- PDELAY_INTERVAL (R153): The peer delay interval elapses without a PDELAY turn and Pdelay_Req is sent as class 6. -/
  | pdelayInterval (lane : Fin 32)
  /-- LLDP_RX (R133): An LLDP frame is consumed; a Port Extension TLV on an extender lane starts the extender's announcement. -/
  | lldpRx (lane : Fin 32) (preempt portExt : Bool)
  /-- LLDP_TTL_EXPIRE (R138): An extender's LLDP TTL expires and its contexts go to HELD. -/
  | lldpTtlExpire (lane : Fin 32)
  /-- MKA_RX (R99): An EAPOL frame for MKA is consumed and Aeduf runs MKA, installing SAKs and binding SAs. -/
  | mkaRx (secy : MkaSecy) (act : MkaAct)
  /-- MKA_PEER_TIMEOUT (R138): No live MKA peer is seen within its life time and the extender is LOST. -/
  | mkaPeerTimeout (lane : Fin 32)
  /-- EXT_BACKOFF_END (R138): An announced extender's back-off ends and the device sends OFFER. -/
  | extBackoffEnd (lane : Fin 32)
  /-- HANDSHAKE_RETRY (R136): The 100 ms retry timer of OFFER or CONFIRM expires and the message is resent or the handshake fails. -/
  | handshakeRetry (link : Fin 33)
  /-- OFFER_RX (R278): An OFFER arrives and the receiving twin device answers with ACCEPT or REJECT. -/
  | offerRx (link : Fin 33) (payload : List Byte)
  /-- ACCEPT_RX (R136): An ACCEPT is verified and the device sends CONFIRM or REJECT. -/
  | acceptRx (link : Fin 33) (payload : List Byte)
  /-- CONFIRM_RX (R278): A CONFIRM arrives at the twin device that sent ACCEPT and it answers DONE. -/
  | confirmRx (link : Fin 33) (payload : List Byte)
  /-- DONE_RX (R137): A DONE with a matching confirmation installs the lane CAK and starts MKA. -/
  | doneRx (link : Fin 33) (payload : List Byte)
  /-- REJECT_RX (R136): A REJECT ends the handshake with its cause. -/
  | rejectRx (link : Fin 33) (payload : List Byte)
  /-- EXT_HOLD_EXPIRE (R140): The hold timer of a lost extender expires and its HELD contexts are quarantined. -/
  | extHoldExpire (lane : Fin 32)
  /-- REFCLK_LOSS (R125): A reference clock input stops or leaves tolerance for 10 microseconds and its lanes go DOWN. -/
  | refclkLoss (n : Fin 4)
  /-- REFCLK_RESTORED (R125): A reference clock has been good for 1 ms and its lanes may leave DOWN. -/
  | refclkRestored (n : Fin 4)
  /-- SIGNAL_DETECT (R130): Signal is present on a DOWN lane and CDR and PCS acquisition start. -/
  | signalDetect (lane : Fin 34)
  /-- SIGNAL_LOSS (R130): Signal is lost on a lane and it leaves ALIGN or UP for DOWN. -/
  | signalLoss (lane : Fin 34)
  /-- LINK_FAULT (R130): Loss of lock, hi_ber, a received fault or an AN restart takes an UP lane DOWN. -/
  | linkFault (lane : Fin 34) (cause : LinkCause)
  /-- LANE_UP (R130): A lane held qualified for UP_HOLD enters UP and starts MAC merge verification and LLDP. -/
  | laneUp (lane : Fin 34) (speed : Fin 3)
  /-- ALIGN_TIMEOUT (R130): A lane not qualified within 500 ms returns to DOWN. -/
  | alignTimeout (lane : Fin 34)
  /-- SWEEP_LINE (R192): Sweep reads and decodes its next SRAM or Grove line and writes back a correction. -/
  | sweepLine (first second : Option EccHit) (line : Option LineErr) (cxl : Bool)
  /-- CXL_LINK_DOWN (R183): A CXL link leaves L0 other than by command and the device holding Grove is lost. -/
  | cxlLinkDown (link : Fin 2)
  /-- CXL_READ_TIMEOUT (R183): A CXL.mem read stays unanswered for 50 microseconds and the device is lost. -/
  | cxlReadTimeout (link : Fin 2)
  /-- CXL_FATAL_ERROR (R183): A memory device reports a fatal error and is lost. -/
  | cxlFatalError (link : Fin 2)
  /-- CXL_DEVICE_TRAINED (R182): A Type 3 device trains after stage B5 and is enumerated but left unmapped. -/
  | cxlDeviceTrained (link : Fin 2) (cap : Fin 65537) (gt32 : Bool)
  /-- GROVE_BUILD_DONE (R180): The last Grove line is written empty and Grove becomes SERVING. -/
  | groveBuildDone
  /-- GROVE_MIGRATE_BUCKET (R181): The migration walk copies one old-region bucket into the new region, or fails. -/
  | groveMigrateBucket
  /-- GROVE_REGION_SWITCH (R181): At the first angle 0 after the walk ends the new region takes over. -/
  | groveRegionSwitch
  /-- NEG_ENTRY_EXPIRE (R174): A NEGATIVE Copse entry reaches NEG_TTL angle-0 crossings and becomes FREE. -/
  | negEntryExpire (way : Fin 131328)
  /-- STATIC_ENTRY_FREE (R178): Static entries dropped by the new set become FREE 1 microsecond after the swap. -/
  | staticEntryFree
  /-- KEY_GRACE_END (R115): A rollover's grace ends at angle 0 and the old slot folds, empties or stays EXHAUSTED. -/
  | keyGraceEnd (slot : BitVec 15)
  /-- CUL_WIN_CTL_WRITE (R199): A write of CUL_WIN_CTL.EN registers or releases the Culvert window. -/
  | culWinCtlWrite (value : Word)
  /-- FUNCTION_LEVEL_RESET (R201): A PCIe function level reset causes the window loss. -/
  | functionLevelReset
  /-- HOST_LINK_DOWN (R201): A hot reset or link down of the host port causes the window loss. -/
  | hostLinkDown
  /-- BUS_MASTER_CHANGE (R201): Bus Master Enable is cleared or set, stalling or resuming Culvert accesses. -/
  | busMasterChange (on : Bool) (descs : List (Fin 64 × DmaRaw))
  /-- CRING_ENABLE (R202): Setting a command ring's EN checks it and resets HEAD and TAIL. -/
  | cringEnable (r : Fin 256) (value : Word)
  /-- CRING_DISABLE (R218): Clearing a command ring's EN stops it and closes its sessions. -/
  | cringDisable (r : Fin 256) (value : Word)
  /-- ERING_ENABLE (R202): Setting an event ring's EN checks it, resets its indices and arms its vector. -/
  | eringEnable (e : Fin 64) (value : Word)
  /-- ERING_DISABLE (R202): Clearing an event ring's EN stops it. -/
  | eringDisable (e : Fin 64) (value : Word)
  /-- CRING_DOORBELL (R203): A command ring doorbell advances TAIL and the device starts taking owned slots. -/
  | cringDoorbell (r : Fin 256) (value : Word)
  /-- SLOT_READ_ERROR (R207): A slot read completes with a PCIe error or poisoned TLP and the ring goes to ERROR. -/
  | slotReadError (r : Fin 256)
  /-- ERING_DOORBELL (R203): An event ring doorbell advances HEAD, re-arms the vector and releases held events. -/
  | eringDoorbell (e : Fin 64) (value : Word)
  /-- ASYNC_COMPLETION (R211): An ASYNC command ends and its completion entry is placed on the event ring. -/
  | asyncCompletion (r : Fin 256) (idx : BitVec 16) (x : ExtIn)
  /-- AT_CYCLE_EXECUTE (R212): A pending AT_CYCLE command is checked in full and executed after step 4 at its cycle. -/
  | atCycleExecute (x : ExtIn)
  /-- SESSION_IDLE_EXPIRE (R218): A session sees no command for its idle limit and closes. -/
  | sessionIdleExpire (n : Fin 64)
  /-- OPKEY_LOCK_EXPIRE (R216): The 3,000-cycle lockout of an operator key ends. -/
  | opkeyLockExpire (k : BitVec 16)
  /-- CMD_UNDEFINED (R229): A slot with an undefined VER or opcode is refused with BAD_OPCODE. -/
  | cmdUndefined (slot : Slot) (opc : BitVec 16)
  /-- CMD_DEV_INFO (R238): Returns identity, stage, service, GAC state, versions and configuration sequence. -/
  | cmdDevInfo (sl : Slot)
  /-- CMD_DEV_SESSION_CHALLENGE (R215): Returns a 32-byte nonce and challenge identifier for one ring. -/
  | cmdDevSessionChallenge (sl : Slot)
  /-- CMD_DEV_SESSION_OPEN (R215): Verifies the signed challenge and optional card credential and opens a role session. -/
  | cmdDevSessionOpen (sl : Slot) (card : Option (List Byte))
  /-- CMD_DEV_SESSION_CLOSE (R218): Closes the calling session. -/
  | cmdDevSessionClose (sl : Slot)
  /-- CMD_DEV_OPKEY_ENROL (R238): Enrols a P-384 operator key for a role at a key index. -/
  | cmdDevOpkeyEnrol (sl : Slot)
  /-- CMD_DEV_OPKEY_REVOKE (R238): Revokes an operator key and closes the sessions it opened. -/
  | cmdDevOpkeyRevoke (sl : Slot)
  /-- CMD_DEV_STATUS (R238): Returns domain states, tamper level, cores in service and open sessions. -/
  | cmdDevStatus (slot : Slot)
  /-- CMD_CFG_STAGE (R266): Reads and checks an image and fills the shadow configuration set. -/
  | cmdCfgStage (sl : Slot)
  /-- CMD_CFG_COMMIT (R269): Programs the staged image into the target slot and schedules the swap at cycle N. -/
  | cmdCfgCommit (sl : Slot)
  /-- CFG_COMMIT_RECORD (R269): At angle 0 of cycle N-1 the body is checked and the commit record programmed. -/
  | cfgCommitRecord
  /-- DRAIN_PHASE_END (R272): A drain phase's queues empty or its 1,000 microseconds run out and the next phase or the change follows. -/
  | drainPhaseEnd
  /-- CMD_CFG_ABORT (R267): Discards the staged shadow set. -/
  | cmdCfgAbort (sl : Slot)
  /-- CMD_CFG_READ (R239): Reads a section of the active or shadow set into a buffer. -/
  | cmdCfgRead (sl : Slot)
  /-- CMD_CFG_STATUS (R239): Returns sequences, pending cycle, shadow state and active digest. -/
  | cmdCfgStatus (sl : Slot)
  /-- CMD_KEY_LOAD (R341): Unwraps key material under a wrap slot into an EMPTY slot. -/
  | cmdKeyLoad (sl : Slot)
  /-- CMD_KEY_DERIVE (R338): Derives a key from the root or a SHARED slot into an EMPTY slot. -/
  | cmdKeyDerive (sl : Slot)
  /-- CMD_KEY_ACTIVATE (R240): Moves a LOADED slot to ACTIVE. -/
  | cmdKeyActivate (sl : Slot)
  /-- CMD_KEY_ROLLOVER (R114): Schedules a planned rollover from an ACTIVE to a LOADED slot at cycle N. -/
  | cmdKeyRollover (sl : Slot)
  /-- CMD_KEY_ARM (R240): Records a LOADED slot as a slot's successor. -/
  | cmdKeyArm (sl : Slot)
  /-- CMD_KEY_LIMIT (R240): Sets the usage limit and warning threshold of a LOADED slot. -/
  | cmdKeyLimit (sl : Slot)
  /-- CMD_KEY_DELETE (R240): Clears an EXHAUSTED slot to EMPTY. -/
  | cmdKeyDelete (sl : Slot)
  /-- CMD_KEY_ZEROIZE (R237): Zeroizes a range of slots without waiting for holders. -/
  | cmdKeyZeroize (sl : Slot)
  /-- CMD_KEY_CLEAR (R240): Returns a ZEROIZED slot to EMPTY. -/
  | cmdKeyClear (sl : Slot)
  /-- CMD_KEY_SLOT_READ (R240): Returns the slot view words of one slot. -/
  | cmdKeySlotRead (sl : Slot)
  /-- CMD_PORT_STATUS (R241): Returns a port's identity, lane, SecY, cells and schedule state. -/
  | cmdPortStatus (slot : Slot)
  /-- CMD_PORT_COUNTERS (R241): Copies a block of a port's counters to a buffer. -/
  | cmdPortCounters (slot : Slot)
  /-- CMD_PORT_EXT_STATUS (R241): Returns an extender lane's state, failures and identity digest. -/
  | cmdPortExtStatus (slot : Slot)
  /-- CMD_PORT_EXT_FREE (R138): Returns QUARANTINED contexts to FREE. -/
  | cmdPortExtFree (slot : Slot)
  /-- CMD_PORT_EXT_RELEASE (R241): Quarantines every HELD context of a lost extender's lane at once. -/
  | cmdPortExtRelease (slot : Slot)
  /-- CMD_GAC_STATUS (R241): Returns GAC status, frequency, phase error, PTP status and angle-0 data. -/
  | cmdGacStatus (slot : Slot)
  /-- CMD_GAC_PHASOR (R36): Submits a phasor estimate used as that cycle's phase error if accepted. -/
  | cmdGacPhasor (slot : Slot)
  /-- CMD_GAC_TAI_SET (R241): Sets TAI seconds to take effect at the next PPS_IN edge. -/
  | cmdGacTaiSet (slot : Slot)
  /-- CMD_GROVE_INSERT (R175): Places a new entry in Grove, or in Copse as PINNED. -/
  | cmdGroveInsert (slot : Slot)
  /-- CMD_GROVE_UPDATE (R242): Replaces an entry's action fields, keeping or resetting frame state. -/
  | cmdGroveUpdate (slot : Slot)
  /-- CMD_GROVE_DELETE (R176): Removes an entry via a NEGATIVE Copse entry and an empty Grove line. -/
  | cmdGroveDelete (slot : Slot)
  /-- CMD_GROVE_PIN (R176): Moves an entry from Grove into Copse as PINNED. -/
  | cmdGrovePin (slot : Slot)
  /-- CMD_GROVE_UNPIN (R176): Moves a PINNED entry back to Grove. -/
  | cmdGroveUnpin (slot : Slot)
  /-- CMD_GROVE_LOOKUP (R242): Returns the entry for a key with its current frame state and location. -/
  | cmdGroveLookup (slot : Slot)
  /-- CMD_GROVE_COUNTER_READ (R73): Reads a range of stream counter sets into a buffer. -/
  | cmdGroveCounterRead (slot : Slot)
  /-- CMD_GROVE_LINE_CLEAR (R170): Writes a Grove line as an empty entry, clearing its poison. -/
  | cmdGroveLineClear (slot : Slot)
  /-- CMD_GROVE_MEM_ADD (R182): Maps a hot-added Type 3 device. -/
  | cmdGroveMemAdd (slot : Slot)
  /-- CMD_GROVE_REBUILD (R180): Builds an empty Grove from LOST or ABSENT. -/
  | cmdGroveRebuild (slot : Slot)
  /-- CMD_CIQ_SUBMIT (R243): Places one cipher request on a cipher request queue. -/
  | cmdCiqSubmit (sl : Slot)
  /-- CMD_CIQ_STATUS (R243): Returns queue depths and blocks served. -/
  | cmdCiqStatus (sl : Slot)
  /-- CMD_PKE_SIGN (R244): Signs a message or digest with a stored private key. -/
  | cmdPkeSign (sl : Slot) (faults : Fin 3)
  /-- CMD_PKE_VERIFY (R244): Verifies a signature under a supplied public key. -/
  | cmdPkeVerify (sl : Slot) (faults : Fin 3)
  /-- CMD_PKE_ECDH (R366): Computes an ECDH shared value into a SHARED slot. -/
  | cmdPkeEcdh (sl : Slot) (faults : Fin 3)
  /-- CMD_PKE_KEYGEN (R357): Generates a private key into head and continuation slots and returns its public key. -/
  | cmdPkeKeygen (sl : Slot) (faults : Fin 3)
  /-- CMD_PKE_PUBKEY (R244): Returns the public key of a stored private key. -/
  | cmdPkePubkey (sl : Slot) (faults : Fin 3)
  /-- CMD_ATT_STATEMENT (R345): Writes a signed attestation statement. -/
  | cmdAttStatement (sl : Slot)
  /-- CMD_ATT_CERT (R343): Returns the identity certificate. -/
  | cmdAttCert (sl : Slot)
  /-- CMD_NVA_READ (R245): Reads NV sector contents into a buffer. -/
  | cmdNvaRead (sl : Slot)
  /-- CMD_NVA_PROGRAM (R245): Programs erased words of a host-writable sector with restore. -/
  | cmdNvaProgram (sl : Slot)
  /-- CMD_NVA_ERASE (R245): Erases up to 16 host-writable sectors with restore. -/
  | cmdNvaErase (sl : Slot)
  /-- CMD_NVA_PROTECT (R386): Sets write-protect bits of sectors. -/
  | cmdNvaProtect (sl : Slot)
  /-- CMD_NVA_STATUS (R245): Returns remapped sectors, spares and the booted image slot. -/
  | cmdNvaStatus (sl : Slot)
  /-- CMD_NVA_IMAGE_LOAD (R245): Writes a signed Aeduf image to the slot that did not boot. -/
  | cmdNvaImageLoad (sl : Slot)
  /-- CMD_FLD_STATUS (R246): Returns field mode, tag state, field presence and UID. -/
  | cmdFldStatus (sl : Slot)
  /-- CMD_FLD_MODE (R246): Sets the field interface to off, tag or reader. -/
  | cmdFldMode (sl : Slot)
  /-- CMD_FLD_READER_POLL (R432): Raises the reader field and selects up to 8 tags by anticollision. -/
  | cmdFldReaderPoll (sl : Slot) (ext : Bool) (badges : List Badge) (errs : Nat)
  /-- CMD_CRD_RECORD_READ (R441): Returns the valid copy of a card record with the higher SEQ. -/
  | cmdCrdRecordRead (sl : Slot) (run : CardRun)
  /-- CMD_CRD_RECORD_WRITE (R442): Writes the target copy of a card record and reads it back. -/
  | cmdCrdRecordWrite (sl : Slot) (run : CardRun)
  /-- CMD_CRD_BUNDLE_STAGE (R443): Stages a signed bundle held in a card record. -/
  | cmdCrdBundleStage (sl : Slot) (run : CardRun)
  /-- CMD_SCD_STATUS (R246): Returns smart-card presence, class, protocol and ATR. -/
  | cmdScdStatus (sl : Slot)
  /-- CMD_SCD_APDU (R246): Exchanges a C-APDU and R-APDU with the smart card. -/
  | cmdScdApdu (sl : Slot) (run : ScdRun)
  /-- CMD_TMP_STATUS (R247): Returns the response in force, active sensors and tamper log head. -/
  | cmdTmpStatus (sl : Slot)
  /-- CMD_LOG_TAMPER_READ (R404): Returns tamper log entries by index. -/
  | cmdLogTamperRead (sl : Slot)
  /-- CMD_LOG_BLAZE_READ (R196): Returns the Blaze log. -/
  | cmdLogBlazeRead (sl : Slot)
  /-- CMD_LOG_BLAZE_CLEAR (R196): Removes the first n Blaze log entries. -/
  | cmdLogBlazeClear (sl : Slot)
  /-- CMD_TMP_RELEASE (R401): Acknowledges or lifts the tamper response in force. -/
  | cmdTmpRelease (sl : Slot)
  /-- CMD_TMP_BREACH (R247): Asserts the Breach line and replies once the root area is erased. -/
  | cmdTmpBreach (sl : Slot)
  /-- CMD_TWN_STATUS (R247): Returns twin role, link, agreements and peer configuration. -/
  | cmdTwnStatus (sl : Slot)
  /-- CMD_TWN_TAKEOVER (R286): Requests a hitless exchange of LEAD and FOLLOW. -/
  | cmdTwnTakeover (sl : Slot)
  /-- CMD_PLD_STATUS (R247): Returns Polder identity, members, leader and last beacon. -/
  | cmdPldStatus (sl : Slot)
  /-- CMD_PLD_JOIN (R276): Verifies and stores a membership credential. -/
  | cmdPldJoin (sl : Slot) (card : Option (List Byte))
  /-- CMD_PLD_LEAVE (R289): Erases the credential and stops every Polder function. -/
  | cmdPldLeave (sl : Slot)
  /-- CMD_PLD_KEY_SCHEDULE (R290): At the leader, schedules a group rollover carried in beacons. -/
  | cmdPldKeySchedule (sl : Slot)
  /-- CMD_APP_LOAD (R329): Verifies and stores a signed applet image. -/
  | cmdAppLoad (sl : Slot)
  /-- CMD_APP_START (R330): Assigns resources and starts an applet on an application pair. -/
  | cmdAppStart (sl : Slot)
  /-- CMD_APP_STOP (R330): Stops an applet, aborting its channels and clearing its memory. -/
  | cmdAppStop (sl : Slot)
  /-- CMD_APP_DELETE (R330): Erases an applet from the applet store. -/
  | cmdAppDelete (sl : Slot)
  /-- CMD_APP_LIST (R247): Lists the stored applets. -/
  | cmdAppList (sl : Slot)
  /-- CMD_APP_MSG (R328): Passes a message to an applet and returns its answer. -/
  | cmdAppMsg (sl : Slot) (reply : List Byte) (badge : Option BadgeRun)
  /-- CMD_DIAG_ECHO (R247): Returns its parameters unchanged. -/
  | cmdDiagEcho (slot : Slot)
  /-- CMD_DIAG_KAT (R247): Runs a known-answer test on a named core at the next KAT turn. -/
  | cmdDiagKat (slot : Slot)
  /-- CMD_DIAG_RNG_HEALTH (R379): Returns the random bit source status and failure counts. -/
  | cmdDiagRngHealth (sl : Slot)
  /-- DMA_ENABLE (R250): Setting DMA_CTL_n.EN checks the ring and resets its indices. -/
  | dmaEnable (n : Fin 64) (comp : BitVec 16) (value : Word)
  /-- DMA_DISABLE (R257): Clearing DMA_CTL_n.EN discards the active and shadow sets. -/
  | dmaDisable (n : Fin 64) (comp : BitVec 16) (value : Word)
  /-- DMA_ABORT (R257): ABORT ends the active descriptor at its next 256-byte boundary and halts the channel. -/
  | dmaAbort (n : Fin 64) (comp : BitVec 16) (blocks : BitVec 17) (feed : DmaFeed)
  /-- DMA_DOORBELL (R250): A write of DMA_DOORBELL_n advances TAIL and the channel fetches owned descriptors. -/
  | dmaDoorbell (n : Fin 64) (comp : BitVec 16) (tail : BitVec 16) (descs : List DmaRaw)
  /-- DMA_COPY (R254): A COPY descriptor moves LEN bytes and is written back. -/
  | dmaCopy (n : Fin 64) (feed : DmaFeed) (next : List DmaRaw)
  /-- DMA_FILL (R254): A FILL descriptor writes VALUE over LEN bytes and is written back. -/
  | dmaFill (n : Fin 64) (next : List DmaRaw)
  /-- DMA_COMPARE (R254): A COMPARE descriptor compares two ranges and is written back. -/
  | dmaCompare (n : Fin 64) (feed : DmaFeed) (next : List DmaRaw)
  /-- KEY_WINDOW_STAGE (R340): A write to the key slot window stages material, salt or key identifier. -/
  | keyWindowStage (slot : BitVec 15) (off : Fin 20) (value : Word)
  /-- KEY_WINDOW_COMMIT (R340): A write of the CTL word commits the staged slot or refuses it. -/
  | keyWindowCommit (slot : BitVec 15) (value : Word)
  /-- KDF_TO_WORK (R334): KEY_KDF_CTL GO with DEST 0 starts a derivation into KEY_WORK. -/
  | kdfToWork (value : Word)
  /-- KDF_TO_FLD (R426): KEY_KDF_CTL GO with DEST 1 derives field session keys from a SHARED slot. -/
  | kdfToFld (value : Word)
  /-- KEY_DERIVE_DONE (R337): A derivation completes and its output is in its destination. -/
  | keyDeriveDone
  /-- KEY_MOVE_SLOT (R337): KEY_MOVE with DEST 0 writes KEY_WORK into an EMPTY slot and clears KEY_WORK. -/
  | keyMoveSlot (value : Word)
  /-- KEY_MOVE_PKE (R365): KEY_MOVE with DEST 1 writes the scalar into the PKE private-key register. -/
  | keyMovePke (value : Word)
  /-- KEY_WORK_CLEAR (R337): KEY_MOVE.CLEAR clears KEY_WORK without a move. -/
  | keyWorkClear (value : Word)
  /-- ROOT_ERASE_DONE (R346): The root area is erased and checked erased. -/
  | rootEraseDone
  /-- SLOT_OVERWRITE_DONE (R346): Every slot's material has been overwritten and ZEROIZE_DONE is set. -/
  | slotOverwriteDone
  /-- CIQ_DESCRIPTOR_SUBMIT (R349): The 16th word written to CIQ_SUBMIT_q enqueues a cipher request. -/
  | ciqDescriptorSubmit (q : Fin 4) (value : Word)
  /-- CIQ_REQUEST_START (R350): A core with capacity starts the head request of the highest queue. -/
  | ciqRequestStart (core : Fin 12) (aad inp tag : List Byte) (key : Option EccHit)
  /-- CIQ_REQUEST_DONE (R352): A cipher request ends and its completion is written. -/
  | ciqRequestDone (core : Fin 12) (poison : Option Nat) (agree : Bool) (ecc : List EccHit)
  /-- CIQ_CRING_HEAD_WRITE (R355): Aeduf advances the completion ring HEAD and a waiting completion is written. -/
  | ciqCringHeadWrite (head : BitVec 16)
  /-- PKE_JOB_SUBMIT (R363): The 16th word written to PKE_SUBMIT enqueues a job. -/
  | pkeJobSubmit (value : Word) (owner : BitVec 16)
  /-- PKE_YIELD_POINT (R363): A running job reaches a yield point and may be suspended for a shorter job. -/
  | pkeYieldPoint
  /-- PKE_JOB_DONE (R362): A job's runs end and are compared; the result is released or the job restarts. -/
  | pkeJobDone (fault : Bool) (msg key sig : List Byte) (ecc : List EccHit)
  /-- PKE_CRING_HEAD_WRITE (R368): Aeduf advances the PKE completion ring HEAD and a waiting completion is written. -/
  | pkeCringHeadWrite (head : BitVec 16)
  /-- RNG_INSTANTIATE (R375): A cell has passed and three blocks are conditioned, and the DRBG is instantiated. -/
  | rngInstantiate (cells : BitVec 4) (raw : List (Fin 4 × Word))
  /-- RNG_CELL_FAIL (R372): A health test fails and the cell retries or is retired. -/
  | rngCellFail (cells : BitVec 4) (test : Fin 5)
  /-- RNG_CELL_RETURN (R372): A retrying cell passes 4,096 samples and returns to service. -/
  | rngCellReturn (k : Fin 4) (raw : List (Fin 4 × Word))
  /-- RNG_RESEED (R374): The request count or 64th angle 0 is reached and the DRBG reseeds. -/
  | rngReseed (raw : List (Fin 4 × Word))
  /-- RNG_BLOCK_TIMEOUT (R377): No cell is in service for 100 microseconds and the source is BLOCKED. -/
  | rngBlockTimeout
  /-- RNG_TEST_ENTER (R377): RNG_TEST.EN written 1 puts the source into TEST. -/
  | rngTestEnter (value : Word)
  /-- RNG_TEST_EXIT (R377): RNG_TEST.EN written 0 discards the raw buffer and restarts the source. -/
  | rngTestExit (value : Word)
  /-- RNG_DATA_READ (R377): A read of RNG_DATA takes 32 bits of DRBG output, or 0 with poison. -/
  | rngDataRead (host : Bool)
  /-- RNG_RAW_READ (R378): A read of RNG_RAW removes the oldest raw word in TEST. -/
  | rngRawRead (host : Bool) (samples : List Word)
  /-- NVA_PROGRAM_START (R382): NVA_OP GO with KIND PROGRAM checks and starts a word program. -/
  | nvaProgramStart (restore : Bool) (sector : Fin 4096)
  /-- NVA_ERASE_START (R388): NVA_OP GO with KIND ERASE journals and starts a sector erase. -/
  | nvaEraseStart (restore : Bool) (sector : Fin 4096)
  /-- NV_OP_DONE (R383): An NV program or erase completes its verification and ends. -/
  | nvOpDone (fail : Option Nat)
  /-- SENSOR_ALARM (R396): A continuous sensor crosses its limit and its response acts. -/
  | sensorAlarm (k : Fin 3) (fails : Bool) (data : Byte)
  /-- BERM_SAMPLE (R396): The Berm samples the sampled sensors in index order. -/
  | bermSample (fails : BitVec 8) (vbat : BitVec 12)
  /-- TMP_LEVEL_WRITE (R398): A write of TMP_LEVEL stores each sensor's response, raised to its floor. -/
  | tmpLevelWrite (value : Word)
  /-- SUPPLY_DIP (R118): VDD_CORE falls below its warning level; GCM outputs are poisoned and PKE, NV and domain work pause. -/
  | supplyDip
  /-- DIP_RECOVERY (R403): VDD_CORE rises back above its warning level. -/
  | dipRecovery
  /-- DIP_SETTLED (R392): One microsecond after recovery, PKE jobs restart, NV operations verify and restore, and paused work resumes. -/
  | dipSettled (exact : Bool)
  /-- MAIN_POWER_LOSS (R405): Main power fails and the Berm moves to the backup cell. -/
  | mainPowerLoss (vbat strong : Bool)
  /-- DOMAIN_SLEEP_REQUEST (R409): PWR_CTL_d GO checks a request to leave ON and accepts or refuses it. -/
  | domainSleepRequest (d : Fin 25) (value : Word) (l12 : Bool)
  /-- DOMAIN_ENTER_DONE (R410): A domain completes its work, saves its registers and enters its target state. -/
  | domainEnterDone (d : Fin 25)
  /-- DOMAIN_WAKE (R411): A wake trigger starts a domain leaving RETENTION or OFF. -/
  | domainWake (d : Fin 25) (det : Option (Fin 4 × Bool))
  /-- PWR_WAKE_WRITE (R411): Host or core sets PWR_WAKE bits to wake domains. -/
  | pwrWakeWrite (value : Word)
  /-- DOMAIN_READY (R412): A woken domain has its registers restored and active set written, and stalled accesses complete. -/
  | domainReady (d : Fin 25) (lost : List (BitVec 26)) (fails : BitVec 12) (x : AccIn)
  /-- DOMAIN_WAKE_TIMEOUT (R413): A domain not ready within its limit is stuck and its stalled accesses fail. -/
  | domainWakeTimeout (d : Fin 25)
  /-- FIELD_PRESENT (R431): An external field appears at the antenna and the FIELD domain wakes or runs on harvested power. -/
  | fieldPresent (strong : Bool)
  /-- FIELD_LOST (R422): The field stays below threshold for 100 microseconds and the session ends. -/
  | fieldLost
  /-- REQA (R419): A REQA frame is answered with ATQA. -/
  | reqa
  /-- WUPA (R419): A WUPA frame is answered with ATQA, including from HALT. -/
  | wupa
  /-- ANTICOLLISION (R419): An ANTICOLLISION frame is answered with the cascade level's UID bits. -/
  | anticollision (level : Fin 3) (known : List Bool)
  /-- SELECT (R419): A SELECT frame completes a cascade level with SAK. -/
  | select (level : Fin 3) (id : List Byte)
  /-- HLTA (R422): HLTA puts the tag in HALT. -/
  | hlta
  /-- RATS (R420): RATS is answered with ATS and the tag enters OPEN. -/
  | rats
  /-- PPS (R418): A PPS request sets the bit rates. -/
  | pps (dri dsi : Fin 4)
  /-- S_DESELECT (R422): S(DESELECT) clears session keys and ends the session. -/
  | sDeselect
  /-- FLD_WTX_SEND (R420): An operation exceeding FWT is covered by an S(WTX) request. -/
  | fldWtxSend
  /-- GET_IDENTITY (R424): Returns the 72-byte identity record. -/
  | getIdentity (p1 p2 : Byte) (data : List Byte)
  /-- GET_CERT (R423): Returns up to 128 bytes of the identity certificate. -/
  | getCert (p1 p2 : Byte) (data : List Byte)
  /-- GET_ATTEST (R424): Returns an attestation statement without applet list. -/
  | getAttest (p1 p2 : Byte) (data : List Byte)
  /-- SEAL_INIT (R425): Checks the reader's point and answers with the device's ephemeral point and signature. -/
  | sealInit (p1 p2 : Byte) (data : List Byte)
  /-- SEAL_FINISH (R426): Verifies operator signature and confirmation and enters SECURED. -/
  | sealFinish (p1 p2 : Byte) (data : List Byte)
  /-- MBX_READ (R423): Reads field mailbox words. -/
  | mbxRead (p1 p2 : Byte) (data : List Byte) (le : BitVec 9)
  /-- MBX_PROGRAM (R428): Programs erased field mailbox words. -/
  | mbxProgram (p1 p2 : Byte) (data : List Byte) (good : Bool)
  /-- MBX_ERASE (R423): Erases field mailbox sectors. -/
  | mbxErase (p1 p2 : Byte) (data : List Byte) (good : Bool)
  /-- APDU_UNSUPPORTED (R423): An APDU with another CLA or INS is answered 0x6E00 or 0x6D00. -/
  | apduUnsupported (cla ins : Byte)
  /-- MAILBOX_PROCESS (R429): Aeduf verifies and applies inbound mailbox records, writes results and erases the inbound area. -/
  | mailboxProcess
  /-- CARD_INSERT (R436): A card becomes present and is identified and raised to its highest verified bus mode. -/
  | cardInsert (card : CardId)
  /-- CARD_REMOVE (R438): The card is lost, its power removed and a running command ends with CARD_LOST. -/
  | cardRemove (block : Option Word)
  /-- SCD_INSERT (R445): A smart card becomes present and is activated, its ATR read and protocol chosen. -/
  | scdInsert (card : ScdId)
  /-- SCD_REMOVE (R446): SCD_PRES_N high for 100 microseconds deactivates the smart card. -/
  | scdRemove
  /-- TWIN_HELLO_SEND (R279): At each eighth of a cycle a HELLO is sent on both twin lanes. -/
  | twinHelloSend
  /-- HELLO_RX (R283): A HELLO is applied for version, configuration, key digest and role agreement. -/
  | helloRx (payload : List Byte) (ok : Bool)
  /-- TIME_RX (R282): A TIME message is used to judge GAC agreement and rank. -/
  | timeRx (payload : List Byte) (ok : Bool)
  /-- REPLAY_RX (R281): A mirrored replay window is merged into the local entry. -/
  | replayRx (payload : List Byte) (ok : Bool)
  /-- READY_RX (R285): A peer's READY for a withheld TWIN command is recorded. -/
  | readyRx (payload : List Byte) (ok : Bool)
  /-- ROLE_RX (R286): A ROLE message announces a takeover. -/
  | roleRx (payload : List Byte) (ok : Bool)
  /-- LEADSTATE_RX (R280): The peer's Polder leader state is held. -/
  | leadstateRx (payload : List Byte) (ok : Bool)
  /-- TWIN_PEER_LOST (R279): Four HELLOs are missing or both lanes leave UP, and the FOLLOW claims LEAD. -/
  | twinPeerLost
  /-- TWIN_READY_DEADLINE (R285): At 180 degrees of cycle N-2 a withheld TWIN command proceeds or fails with PEER_MISMATCH. -/
  | twinReadyDeadline (cycle : BitVec 40)
  /-- TWIN_TAKEOVER_EFFECT (R286): At angle 0 of the announced cycle LEAD and FOLLOW exchange roles. -/
  | twinTakeoverEffect
  /-- PEER_REF_CLEAR (R282): After 16 cycles within 1 microsecond the FOLLOW returns to its own reference. -/
  | peerRefClear
  /-- TWIN_MISMATCH_REPEAT (R283): Every 3,000 cycles of version disagreement PEER_MISMATCH is set again. -/
  | twinMismatchRepeat
  /-- KEY_DIFF_DETECT (R280): Key digests differ for 2 consecutive cycles and KEY_DIFF is set. -/
  | keyDiffDetect
  /-- BEACON_SEND (R288): The leader sends a signed BEACON at a cycle multiple of BEACON_INT. -/
  | beaconSend
  /-- BEACON_RX (R288): A BEACON is verified and aligns the cycle number and starts its key schedules. -/
  | beaconRx (payload : List Byte)
  /-- REPORT_SEND (R288): A member sends its signed REPORT every 16 beacon intervals. -/
  | reportSend
  /-- REPORT_RX (R288): A REPORT is verified and the sender's identity key learned and member counted. -/
  | reportRx (payload : List Byte)
  /-- LEADER_TIMEOUT (R289): A leader-capable member without beacons waits its turn and becomes leader. -/
  | leaderTimeout
  /-- POWER_ON (R451): Main supplies rise and every domain except BERM is reset. -/
  | powerOn
  /-- RAIL_RESET (R451): A core, SRAM or IO rail falls and every domain except BERM is reset. -/
  | railReset (sram : Bool)
  /-- SERDES_RAIL_RESET (R450): VDDA_SERDES falls and the SerDes domains reset and restart. -/
  | serdesRailReset
  /-- IO33_RAIL_RESET (R450): VDD_IO33 falls and the CARD and FIELD domains reset. -/
  | io33RailReset
  /-- PERST (R450): PERST_N asserted resets the HOST domain as a window loss. -/
  | perst
  /-- ROOT_RESTART (R452): The root pair, Aeduf channels, RNG and write-protect bits reset and boot ROM runs B2. -/
  | rootRestart (cardA cardB : List Byte)
  /-- ROOT_RESUME (R452): Restarted Aeduf answers pending slots, closes sessions and resumes MKA and GDOI. -/
  | rootResume
  /-- WATCHDOG_EXPIRE (R453): The root watchdog reaches 0 and raises ROOT_RESTART. -/
  | watchdogExpire (cardA cardB : List Byte)
  /-- WATCHDOG_KICK (R453): A write of 0x0000_5AA5 to RST_WDT_KICK reloads the watchdog. -/
  | watchdogKick (value : Word)
  /-- STAGE_B1 (R454): Rails and REFCLK_SYS are good and ROOT, KEYS and NVA come ON. -/
  | stageB1
  /-- STAGE_B2 (R454): Boot ROM processes the journal, handles the root, starts the RNG and boots Aeduf. -/
  | stageB2 (cardA cardB : List Byte)
  /-- STAGE_B3 (R274): Aeduf loads the active set, places static entries and starts serving commands. -/
  | stageB3
  /-- STAGE_B4 (R454): Pipelines, cipher and Tracts come ON and reduced service begins. -/
  | stageB4 (fails : BitVec 12)
  /-- STAGE_B5 (R454): CXL comes ON, links train and Grove is built, or the stage completes with Grove ABSENT. -/
  | stageB5 (present : BitVec 2) (late : Bool)
  /-- STAGE_B6 (R457): Extenders are enrolled or 10 s pass and full service may begin. -/
  | stageB6 (late : Bool)
  /-- STAGE_B7 (R454): The Twin is synchronised with agreements set. -/
  | stageB7
  /-- DEV_IRQ_SET_WRITE (R327): A write of DEV_IRQ_SET_k makes a software source pending. -/
  | devIrqSetWrite (pair : Fin 5) (src : Fin 16)
  /-- PAIR_START (R331): DEV_PAIR_CTL_k.START lets an application pair leave its held state. -/
  | pairStart (pair : Fin 5)
  /-- PAIR_RESET (R301): DEV_PAIR_CTL_k.RESET resets an application pair. -/
  | pairReset (pair : Fin 5)
  /-- INTERRUPT_TAKE (R327): Between instructions the highest enabled pending source above CUR is taken. -/
  | interruptTake (pair : Fin 5)
  /-- LOCKSTEP_MISMATCH (R317): Main and checker outputs differ, the pair halts and QUIESCE is raised. -/
  | lockstepMismatch (pair : Fin 5)
  /-- ADD (R305): Adds two registers modulo 2^64. -/
  | add (pair : Issue) (rd rs1 rs2 : Fin 16)
  /-- SUB (R305): Subtracts two registers modulo 2^64. -/
  | sub (pair : Issue) (rd rs1 rs2 : Fin 16)
  /-- AND (R305): Bitwise AND of two registers. -/
  | and (pair : Issue) (rd rs1 rs2 : Fin 16)
  /-- OR (R305): Bitwise OR of two registers. -/
  | or (pair : Issue) (rd rs1 rs2 : Fin 16)
  /-- XOR (R305): Bitwise XOR of two registers. -/
  | xor (pair : Issue) (rd rs1 rs2 : Fin 16)
  /-- SHL (R305): Shifts left by a register amount. -/
  | shl (pair : Issue) (rd rs1 rs2 : Fin 16)
  /-- SHR (R305): Shifts logically right by a register amount. -/
  | shr (pair : Issue) (rd rs1 rs2 : Fin 16)
  /-- SAR (R305): Shifts arithmetically right by a register amount. -/
  | sar (pair : Issue) (rd rs1 rs2 : Fin 16)
  /-- SLT (R305): Sets 1 if signed less than. -/
  | slt (pair : Issue) (rd rs1 rs2 : Fin 16)
  /-- SLTU (R305): Sets 1 if unsigned less than. -/
  | sltu (pair : Issue) (rd rs1 rs2 : Fin 16)
  /-- MUL (R305): Low 64 bits of the product. -/
  | mul (pair : Issue) (rd rs1 rs2 : Fin 16)
  /-- MULHU (R305): High 64 bits of the unsigned product. -/
  | mulhu (pair : Issue) (rd rs1 rs2 : Fin 16)
  /-- MULHS (R305): High 64 bits of the signed product. -/
  | mulhs (pair : Issue) (rd rs1 rs2 : Fin 16)
  /-- DIVU (R306): Unsigned quotient, defined for a zero divisor. -/
  | divu (pair : Issue) (rd rs1 rs2 : Fin 16)
  /-- DIVS (R306): Signed quotient, defined for zero and overflow. -/
  | divs (pair : Issue) (rd rs1 rs2 : Fin 16)
  /-- REMU (R306): Unsigned remainder. -/
  | remu (pair : Issue) (rd rs1 rs2 : Fin 16)
  /-- REMS (R306): Signed remainder. -/
  | rems (pair : Issue) (rd rs1 rs2 : Fin 16)
  /-- ADDI (R305): Adds a sign-extended immediate. -/
  | addi (pair : Issue) (rd rs1 : Fin 16) (imm : BitVec 12)
  /-- ANDI (R305): AND with a sign-extended immediate. -/
  | andi (pair : Issue) (rd rs1 : Fin 16) (imm : BitVec 12)
  /-- ORI (R305): OR with a sign-extended immediate. -/
  | ori (pair : Issue) (rd rs1 : Fin 16) (imm : BitVec 12)
  /-- XORI (R305): XOR with a sign-extended immediate. -/
  | xori (pair : Issue) (rd rs1 : Fin 16) (imm : BitVec 12)
  /-- SHLI (R305): Shifts left by an immediate. -/
  | shli (pair : Issue) (rd rs1 : Fin 16) (imm : BitVec 6)
  /-- SHRI (R305): Shifts logically right by an immediate. -/
  | shri (pair : Issue) (rd rs1 : Fin 16) (imm : BitVec 6)
  /-- SARI (R305): Shifts arithmetically right by an immediate. -/
  | sari (pair : Issue) (rd rs1 : Fin 16) (imm : BitVec 6)
  /-- SLTI (R305): Signed compare with an immediate. -/
  | slti (pair : Issue) (rd rs1 : Fin 16) (imm : BitVec 12)
  /-- SLTUI (R305): Unsigned compare with an immediate. -/
  | sltui (pair : Issue) (rd rs1 : Fin 16) (imm : BitVec 12)
  /-- LI (R305): Loads a sign-extended 22-bit immediate. -/
  | li (pair : Issue) (rd : Fin 16) (imm : BitVec 22)
  /-- LIS (R305): Shifts the register left 22 bits and ORs in an immediate. -/
  | lis (pair : Issue) (rd : Fin 16) (imm : BitVec 22)
  /-- LD (R307): Loads data or a capability through an authorising capability. -/
  | ld (pair : Issue) (rt rb : Fin 16) (mode size : Fin 8) (low : BitVec 12) (x : AccIn)
  /-- ST (R307): Stores data or a capability, setting or clearing granule tags. -/
  | st (pair : Issue) (rt rb : Fin 16) (mode size : Fin 8) (low : BitVec 12) (x : AccIn)
  /-- LEA (R305): Forms an address into a capability without access. -/
  | lea (pair : Issue) (rt rb : Fin 16) (mode size : Fin 8) (low : BitVec 12)
  /-- CAS (R307): Atomically compares and swaps a doubleword. -/
  | cas (pair : Issue) (rd rs1 rs2 : Fin 16) (x : AccIn)
  /-- SWAP (R307): Atomically exchanges a doubleword. -/
  | swap (pair : Issue) (rd rs1 rs2 : Fin 16) (x : AccIn)
  /-- AMOADD (R307): Atomically fetches and adds a doubleword. -/
  | amoadd (pair : Issue) (rd rs1 rs2 : Fin 16) (x : AccIn)
  /-- MCPY (R307): Copies one element between two post-incremented capabilities. -/
  | mcpy (pair : Issue) (rd rs1 : Fin 16) (size : Fin 5) (x y : AccIn)
  /-- BCOND (R305): Branches if the condition holds. -/
  | bcond (pair : Issue) (cond : Fin 6) (rs1 rs2 : Fin 16) (off : BitVec 15)
  /-- JMP (R305): Jumps by an offset. -/
  | jmp (pair : Issue) (off : BitVec 26)
  /-- CALL (R309): Pushes a sealed return capability and jumps by an offset. -/
  | call (pair : Issue) (off : BitVec 26) (x : AccIn)
  /-- JR (R305): Jumps to a capability register. -/
  | jr (pair : Issue) (rs1 : Fin 16)
  /-- CALLR (R309): Pushes a sealed return and jumps to a capability register. -/
  | callr (pair : Issue) (rs1 : Fin 16) (x : AccIn)
  /-- RET (R309): Pops and checks the sealed return capability. -/
  | ret (pair : Issue) (x : AccIn)
  /-- CSRR (R300): Reads a special register under SYS. -/
  | csrr (pair : Issue) (rd : Fin 16) (sel : BitVec 8)
  /-- CSRW (R300): Writes a special register or MPU register under SYS. -/
  | csrw (pair : Issue) (rs : Fin 16) (sel : BitVec 8)
  /-- SCALL (R312): Enters the monitor through scentry, swapping stacks. -/
  | scall (pair : Issue)
  /-- SRET (R312): Returns from an SCALL body. -/
  | sret (pair : Issue)
  /-- RETX (R312): Pops and checks an exception frame and resumes. -/
  | retx (pair : Issue) (x : AccIn)
  /-- FENCE (R308): Waits until every earlier access has completed. -/
  | fence (pair : Issue)
  /-- WFI (R327): Waits until an interrupt is taken. -/
  | wfi (pair : Issue)
  /-- EBREAK (R319): Raises BREAK. -/
  | ebreak (pair : Issue)
  /-- REP (R314): Repeats the next instruction up to 16 times indivisibly. -/
  | rep (pair : Issue) (n : Fin 16) (word : Word) (xs : List (AccIn × AccIn))
  /-- REPI (R315): Checks c13 and starts an interruptible repeat of the next instruction. -/
  | repi (pair : Issue) (word : Word)
  /-- REPI_ITERATION (R315): One iteration of a REPI sequence executes and decrements c13. -/
  | repiIteration (pair : Fin 5) (x y : AccIn)
  /-- ILLEGAL_INSTRUCTION (R304): An undefined encoding raises ILLEGAL. -/
  | illegalInstruction (pair : Issue) (word : Word)
  /-- CMV (R310): Copies a register with its tag. -/
  | cmv (pair : Issue) (rd rs1 : Fin 16)
  /-- CADDR (R298): Sets a capability's address, keeping the tag if representable. -/
  | caddr (pair : Issue) (rd rs1 rs2 : Fin 16)
  /-- CDROP (R310): Removes permissions from a capability. -/
  | cdrop (pair : Issue) (rd rs1 rs2 : Fin 16)
  /-- CCLIP (R311): Narrows bounds to a length, widened to whole units. -/
  | cclip (pair : Issue) (rd rs1 rs2 : Fin 16)
  /-- CCLIPX (R311): Narrows bounds exactly or clears the tag. -/
  | cclipx (pair : Issue) (rd rs1 rs2 : Fin 16)
  /-- CBIND (R311): Seals a capability with an authorised software type. -/
  | cbind (pair : Issue) (rd rs1 rs2 : Fin 16)
  /-- CUNBIND (R311): Unseals a capability under an authorised type range. -/
  | cunbind (pair : Issue) (rd rs1 rs2 : Fin 16)
  /-- CSTRIP (R310): Clears a register's tag. -/
  | cstrip (pair : Issue) (rd rs1 : Fin 16)
  /-- CWITHIN (R310): Tests whether one capability lies within another. -/
  | cwithin (pair : Issue) (rd rs1 rs2 : Fin 16)
  /-- CSAME (R310): Tests two capabilities for equality. -/
  | csame (pair : Issue) (rd rs1 rs2 : Fin 16)
  /-- CINSP (R310): Extracts a selected field of a capability. -/
  | cinsp (pair : Issue) (rd rs1 : Fin 16) (sel : BitVec 12)
  /-- CADDI (R298): Adds an immediate to a capability's address. -/
  | caddi (pair : Issue) (rd rs1 : Fin 16) (imm : BitVec 12)
  /-- REGISTER_WRITE (R11): A write to a register without a row of its own sets, clears or discards fields by access code. -/
  | registerWrite (agent : Bus) (addr : BitVec 26) (bytes : Fin 17) (value : Word) (x : AccIn)
  /-- REGISTER_READ (R11): A read of a register whose read has behaviour of its own: an RC field returns and clears, a low half latches its high half, and a control register's two copies are compared. -/
  | registerRead (agent : Bus) (addr : BitVec 26) (bytes : Fin 17) (x : AccIn)
  /-- TWIN_PAIRING_RETRY (R286): One second after a failed twin handshake in PAIRING, the device starts the handshake again. -/
  | twinPairingRetry
  /-- GDOI_MESSAGE_RX (R100): A GDOI message for IEC 62351-9 group keying reaches Aeduf, which loads or schedules group keys from it. -/
  | gdoiMessageRx (act : GdoiAct)
  /-- LLDP_TX_INTERVAL (R88): The LLDP transmit interval of an UP lane expires and the device sends its LLDPDU, with the Additional Ethernet Capabilities TLV. -/
  | lldpTxInterval (lane : Fin 32)
  /-- MKA_TX_INTERVAL (R99): The MKA transmit interval expires and Aeduf sends its MKPDU on a SecY, distributing SAKs when it is key server. -/
  | mkaTxInterval (secy : MkaSecy) (gen : Option (Fin 4 × BitVec 15))
deriving DecidableEq, Repr

end Sys2Proof
end

