-- ==== Sys2Proof/Decode.lean ====
section
/-! DEFINITION. The words of the table of commands. Every row of the table gives its command operands and no bits, so no
word spells a command. -/

namespace Sys2Proof

/-- The command that a word of `nbits` bits spells by the table of operations and events: none. -/
def decodeTableWord (nbits w : Nat) : Option Instr :=
  match nbits, w with
  | _, _ => none

end Sys2Proof
end

