-- ==== Sys2Proof/Machine/Bits.lean ====
section
/-! DEFINITION. Bit fields, byte order and list-of-byte helpers shared by every block (R5, R6, R7). -/

namespace Sys2Proof.Machine

/-- Field [lo+w-1:lo] of a number (R5). -/
def bitsOf (v lo w : Nat) : Nat := (v >>> lo) % 2 ^ w

/-- Bit `i` of a number. -/
def bitAt (v i : Nat) : Bool := v.testBit i

/-- The number with field [lo+w-1:lo] replaced. -/
def putBits (v lo w x : Nat) : Nat :=
  v - (bitsOf v lo w <<< lo) + ((x % 2 ^ w) <<< lo)

/-- Little-endian bytes to a number (R6). -/
def leNat : List Byte → Nat
  | [] => 0
  | b :: t => b.toNat + 256 * leNat t

/-- Big-endian bytes to a number (R7). -/
def beNat (bs : List Byte) : Nat := bs.foldl (fun a b => 256 * a + b.toNat) 0

/-- `n` little-endian bytes of a number. -/
def toLe : Nat → Nat → List Byte
  | 0, _ => []
  | n + 1, v => BitVec.ofNat 8 v :: toLe n (v / 256)

/-- `n` big-endian bytes of a number. -/
def toBe (n v : Nat) : List Byte := (toLe n v).reverse

/-- Byte `i` of a list, 0 beyond its end. -/
def byteAt (bs : List Byte) (i : Nat) : Byte := bs.getD i 0

/-- `n` bytes from offset `i`, padded with 0 beyond the end. -/
def sliceB (bs : List Byte) (i n : Nat) : List Byte := (List.range n).map (fun j => byteAt bs (i + j))

/-- A little-endian field of `n` bytes at offset `i`. -/
def leAt (bs : List Byte) (i n : Nat) : Nat := leNat (sliceB bs i n)

/-- A big-endian field of `n` bytes at offset `i`. -/
def beAt (bs : List Byte) (i n : Nat) : Nat := beNat (sliceB bs i n)

/-- A list of bytes as long as `n`, cut or padded with 0. -/
def fitB (n : Nat) (bs : List Byte) : List Byte := sliceB bs 0 n

/-- One bit as a number. -/
def b2n (b : Bool) : Nat := if b then 1 else 0

/-- A list in which position `i` holds `v`; unchanged where there is no such position. -/
def setL {α : Type} (l : List α) (i : Nat) (v : α) : List α := l.set i v

/-- Rounding half away from zero of a quotient of naturals (the "round" of the manual's pseudocode). -/
def roundDiv (a b : Nat) : Nat := (2 * a + b) / (2 * b)

/-- Ceiling of a quotient. -/
def ceilDiv (a b : Nat) : Nat := (a + b - 1) / b

/-- A signed value saturated to `w` bits, as its two's complement number. -/
def satInt (w : Nat) (x : Int) : BitVec w :=
  if x < -(2 ^ (w - 1) : Int) then BitVec.ofInt w (-(2 ^ (w - 1) : Int))
  else if x ≥ (2 ^ (w - 1) : Int) then BitVec.ofInt w ((2 ^ (w - 1) : Int) - 1)
  else BitVec.ofInt w x

/-- One bit of the CRC-32 of IEEE 802.3, least significant bit first. -/
def crcBit (c : Word) : Word := if c &&& 1 = 1 then (c >>> 1) ^^^ 0xEDB88320 else c >>> 1

/-- One byte of it. -/
def crcByte (c : Word) (b : Byte) : Word := (List.range 8).foldl (fun c _ => crcBit c) (c ^^^ b.zeroExtend 32)

/-- CRC-32 of a message under the IEEE 802.3 polynomial. -/
def crc32 (m : List Byte) : Word := ~~~(m.foldl crcByte 0xFFFFFFFF)

/-- The positions from `lo` to `hi` (not including it). -/
def rangeFrom (lo n : Nat) : List Nat := (List.range n).map (· + lo)

end Sys2Proof.Machine
end

