-- ==== Sys2Proof/Config.lean ====
section
/-! DEFINITION. The open values of the device. Every constant here is opaque and has no body: it stands for a value the
manual does not state (a random number, a loop filter's output, an undefined byte) or for a published algorithm whose
values the manual does not restate (AES, SHA-2, ECDSA). Nothing can be proved about which value it is, so
a theorem that mentions one holds for every value. -/

namespace Sys2Proof.Config

/-- The n-th free value: a number the manual leaves open. The model applies it to the counter State.free, so that each
open value is a fresh one. Log entry 1. -/
opaque freeNat (n : Nat) : Nat

/-- Byte `i` of the n-th request to the DRBG under its seed material of three conditioned blocks (R374): CTR_DRBG of
SP 800-90A is not restated by the manual. -/
opaque rngByte (seed : List Byte) (n i : Nat) : Byte
/-- Byte `i` of the block that the conditioner makes of 16 raw words of one cell: AES-256 CBC-MAC under the fixed key of
the boot ROM, which the manual does not give (R373). -/
opaque cbcMacByte (raw : List (BitVec 32)) (i : Nat) : Byte

/-- Byte `i` of SHA-256 of a message (FIPS 180-4). -/
opaque sha256Byte (m : List Byte) (i : Nat) : Byte
/-- Byte `i` of SHA-384 of a message (FIPS 180-4). -/
opaque sha384Byte (m : List Byte) (i : Nat) : Byte
/-- Byte `i` of a cipher operation's output: operation code, key, IV, additional data and input (R342, R351). -/
opaque cipherByte (op : Nat) (key iv aad input : List Byte) (i : Nat) : Byte
/-- Byte `i` of an authentication tag: operation code, key, IV, additional data and input (R351). -/
opaque macByte (op : Nat) (key iv aad input : List Byte) (i : Nat) : Byte
/-- The unwrapped bytes of a KWP ciphertext under a key, or none where the unwrap fails (R240, SP 800-38F). -/
opaque kwpUnwrap (key wrapped : List Byte) : Option (List Byte)
/-- The wrapped bytes of a key under a key (KWP). -/
opaque kwpByte (key plain : List Byte) (i : Nat) : Byte
/-- A signature verifies: algorithm code (Table CMD-11), public key, message, signature. -/
opaque sigVerify (alg : Nat) (pub msg sig : List Byte) : Bool
/-- Byte `i` of a signature: algorithm code, private key, message, nonce source. -/
opaque sigByte (alg : Nat) (priv msg : List Byte) (n i : Nat) : Byte
/-- A public point is on its curve, not the point at infinity and in range (R359). -/
opaque pointOk (alg : Nat) (pub : List Byte) : Bool
/-- Byte `i` of the public key of a private key. -/
opaque pubByte (alg : Nat) (priv : List Byte) (i : Nat) : Byte
/-- Byte `i` of an ECDH shared value. -/
opaque ecdhByte (alg : Nat) (priv peer : List Byte) (i : Nat) : Byte
/-- The placement hash of a match key under the per-boot hash key (R166). -/
opaque groveHash (key : Nat) (which : Nat) (m : Nat) : Nat
/-- Byte `i` of AES-256-XTS of a line under KG_ENC and a tweak (R168). -/
opaque xtsByte (key tweak plain : List Byte) (i : Nat) : Byte
/-- Byte `i` of the decryption of a line that is not one the device stored (R169). -/
opaque xtsPlainByte (key tweak stored : List Byte) (i : Nat) : Byte
/-- Byte `i` of AES-256-CMAC under KG_MAC (R168). -/
opaque cmacByte (key msg : List Byte) (i : Nat) : Byte

/-- The frequency (µHz) the proportional-integral loop puts out: the bandwidth code, the frequency applied, the phase
error of the cycle, and the free counter (R33: the manual gives the bandwidth and not the gains). -/
opaque loopFilter (bw freq : Nat) (err : Int) (n : Nat) : Nat
/-- The frequency (µHz) measured from a mains period of 2^-16 ns, of TAI while PTP is locked and of TBCLK otherwise
(R30, R41: how periods are averaged is not given). -/
opaque measuredFreq (span n : Nat) : Nat
/-- The size (µHz) of the pull toward the source phase during acquisition, before its limit (R41). -/
opaque acqPull (err : Int) (n : Nat) : Nat
/-- The rate correction of the PTP servo, in parts per 10^12 (R30, R37: the servo runs in Aeduf and is not given). -/
opaque servoRate (n : Nat) : Int
/-- The device's own clockClass when it is grandmaster (Table GAC-5: the value is not given). -/
opaque ownClass : BitVec 8
/-- The clockIdentity of the device in PTP messages (R37: not given). -/
opaque clockId : BitVec 64
/-- Byte `i` of the Announce fields that PTP's data sets hold and the manual does not: UTC offset to timeSource. -/
opaque announceByte (i : Nat) : Byte
/-- Byte `i` of the values of the ALTERNATE_TIME_OFFSET_INDICATOR and IEEE_C37_238 TLVs of an Announce (R37). -/
opaque tlvByte (i : Nat) : Byte
/-- The source address of the frames that the device itself sends on a lane (R149: not given). -/
opaque portMac (lane : Nat) : BitVec 48
/-- The fixed pad-to-ball delay of a lane's transmit or receive pad, in 2^-8 ns, which the factory info block holds at a
place the manual does not give (R151). -/
opaque padBall (lane : Nat) (tx : Bool) : Int

/-- The verdict on a signature under Octyth's firmware key, which the boot ROM holds (R455: the key is not given). -/
opaque firmwareSig (msg sig : List Byte) : Bool

/-- Byte `a` of the boot ROM (Table ISA-5: its contents are not given). -/
opaque romByte (a : Nat) : Byte

end Sys2Proof.Config
end

