-- ==== Sys2Proof/Machine/Map.lean ====
section
/-! DEFINITION. Sparse tables: the one shape in which the model holds registers, counters, slots, table entries and
memories. A table lists (key, value) pairs in ONE canonical form: keys strictly rising, and no listed value equal to
what an unlisted key reads as, so that equal tables are equal data. -/

namespace Sys2Proof.Machine

/-- A sparse table: (key, value) pairs, keys strictly rising, none at its default. -/
abbrev Tbl (α : Type) := List (Nat × α)

/-- What key `k` reads as: the listed value, or the default of that key. -/
def Tbl.get {α : Type} (d : Nat → α) : Tbl α → Nat → α
  | [], k => d k
  | (k', v) :: t, k => if k = k' then v else Tbl.get d t k

/-- Place a pair that no listed key equals, keeping the order. -/
def Tbl.insert {α : Type} : Tbl α → Nat → α → Tbl α
  | [], k, v => [(k, v)]
  | (k', v') :: t, k, v => if k < k' then (k, v) :: (k', v') :: t else (k', v') :: Tbl.insert t k v

/-- Write key `k`; writing the default removes the entry. -/
def Tbl.set {α : Type} [DecidableEq α] (d : Nat → α) (t : Tbl α) (k : Nat) (v : α) : Tbl α :=
  let r := t.filter (fun e => decide (e.1 ≠ k))
  if v = d k then r else Tbl.insert r k v

/-- Return a range of keys to their defaults. -/
def Tbl.clear {α : Type} (t : Tbl α) (p : Nat → Bool) : Tbl α := t.filter (fun e => !p e.1)

/-- Every key listed is above `lo` and rises, and no value listed is the default. -/
def Tbl.wfFrom {α : Type} [DecidableEq α] (d : Nat → α) : Option Nat → Tbl α → Bool
  | _, [] => true
  | lo, (k, v) :: t => (match lo with | none => true | some l => decide (l < k)) && !(decide (v = d k)) && Tbl.wfFrom d (some k) t

/-- The canonical form. -/
def Tbl.wf {α : Type} [DecidableEq α] (d : Nat → α) (t : Tbl α) : Bool := Tbl.wfFrom d none t

/-- The keys of `n` consecutive places from `a` with `f` written to each. -/
def Tbl.setAll {α : Type} [DecidableEq α] (d : Nat → α) (t : Tbl α) : List Nat → (Nat → α) → Tbl α
  | [], _ => t
  | k :: ks, f => Tbl.setAll d (Tbl.set d t k (f k)) ks f

end Sys2Proof.Machine
end

