-- ==== Sys2Proof/Machine/DevTypes.lean ====
section
/-! DEFINITION. The records of applets, the field interface and the card ports (R328 to R330, R418 to R448). -/

namespace Sys2Proof.Machine

/-- An applet (Tables EXC-7 and EXC-8): state 0 LOADED, 1 RUNNING, 2 STOPPED, 3 FAULTED; the place of its image in the
applet store; its header; the pair it was started on (0 to 3 for CC0 to CC3), its channels, its shared SRAM, and where its code
and its data with stack lie; the cause of its fault. -/
structure App where
  st : Nat
  sector : Nat
  sectors : Nat
  len : Nat
  digest : List Byte
  codeLen : Nat
  dataLen : Nat
  bssLen : Nat
  stackLen : Nat
  entry : Nat
  dmaCh : Nat
  dmaEp : Nat
  irqMask : Nat
  sramLen : Nat
  core : Nat
  chans : List Nat
  sram : Nat
  mem : Nat
  dmem : Nat
  ecause : BitVec 64
  eval : BitVec 64
deriving DecidableEq, Repr

/-- The field seal handshake after SEAL_INIT (R425): the reader's nonce, the device's, the reader's point, the device's
ephemeral scalar and the transcript up to and without its first signature. -/
structure FldSeal where
  nonceR : List Byte
  nonceD : List Byte
  qR : List Byte
  eph : List Byte
  script : List Byte
deriving DecidableEq, Repr

/-- The field interface beside its registers (R418 to R434): READY or ACTIVE was reached from HALT; the cascade level
in hand; the UID of the factory info block; the handshake; the SEQ of the last protected command; the role of the
SECURED session; the bit rate device to reader; mailbox processing is owed. -/
structure FieldIf where
  star : Bool
  level : Nat
  uid : List Byte
  hs : Option FldSeal
  seq : Nat
  role : Nat
  rateTx : Nat
  mbxDue : Bool
deriving DecidableEq, Repr

/-- The card ports beside their registers (R435 to R447): card power is removed (R438, R439). -/
structure Crd where
  off : Bool
deriving DecidableEq, Repr

end Sys2Proof.Machine
end

