-- ==== Sys2Proof/Machine/NetTypes.lean ====
section
/-! DEFINITION. The records of the frame path: Grove entries, Copse and Grove, frames in the Basin and their egress
copies, Sluice schedules, lanes, extenders and their contexts, calibration, and configuration sets. -/

namespace Sys2Proof.Machine

/-! ### Grove entries (Table FPA-3) -/

/-- A Grove entry: MATCH (24 bytes, Table FPA-2), ACTION, TC, FLAGS (Table FPA-4), VERSION, KEY_SLOT, EGRESS, COUNTER,
the replay window and the PRP and HSR window. -/
structure GrvEntry where
  mtch : List Byte
  action : Nat
  tc : Nat
  flags : Nat
  version : Nat
  keySlot : Nat
  egress : Nat
  counter : Nat
  replayBase : Nat
  replayWin : Nat
  seqBase : Nat
  seqLast : Nat
  seqWin : Nat
deriving DecidableEq, Repr

/-- Copse entry states (Table GRV-5); FREE is the absence of an entry. -/
inductive CpsState where
  | clean | dirty | negative | locked | pinned | shadow
deriving DecidableEq, Repr

/-- A Copse way in use (R171): its state, reference bit, entry, Grove index of the line it copies, the angle-0
crossings a NEGATIVE entry still has, the fills it is held for (R176), and the configuration epochs it serves:
`since` from, `upto` before (R178; the set bit of a static entry is `upto`). -/
structure CpsWay where
  st : CpsState
  ref : Bool
  entry : GrvEntry
  line : Option Nat
  ttl : Nat
  hold : List Nat
  since : Nat
  upto : Option Nat
deriving DecidableEq, Repr

/-- A Grove line (R165, R168): the entry it was written from, its line version and poison; its 64 stored bytes, and the
CHECK and MAC of its side record (Table GRV-3), as they were written, and the flips that the memory has made in them
since: bytes 0 to 63 of the line, then 0 to 15 of the record. -/
structure GrvLine where
  entry : GrvEntry
  lver : Nat
  poison : Bool
  stored : List Byte
  check : List Byte
  mac : List Byte
  flips : List (Nat × Byte)
deriving DecidableEq, Repr

/-- An outstanding fill (R57, R58): number, pipeline, matched key bytes, the region it reads and its candidate buckets
there, the tick of its issue, and the configuration epoch of the frame that opened it. -/
structure Fill where
  id : Nat
  pipe : Nat
  key : List Byte
  region : Nat
  b0 : Nat
  b1 : Nat
  tick : Nat
  epoch : Nat
deriving DecidableEq, Repr

/-- A CXL link with its Type 3 device (R161, R162, R182): present, trained, at 32 GT/s, mapped, awaiting
CMD_GROVE_MEM_ADD, capacity in MiB, holding Grove lines (R163, R183). -/
structure CxlLink where
  present : Bool
  trained : Bool
  gt32 : Bool
  mapped : Bool
  awaiting : Bool
  cap : Nat
  holds : Bool
deriving DecidableEq, Repr

/-- A migration (R181): next old bucket, the new bucket count, whether the walk has ended, and whether an angle 0 has come
since then. -/
structure Migration where
  bucket : Nat
  toK : Nat
  walked : Bool
  due : Bool
deriving DecidableEq, Repr

/-- Grove, Copse and the CXL links beside their registers (R161 to R184). A hash key stands as the number its drawn bytes
make. -/
structure Grove where
  copseKey : Nat
  hashKey : Nat
  newKey : Nat
  kgEnc : Option (List Byte)
  kgMac : Option (List Byte)
  /-- Lines by region x 2^24 + entry index; an unlisted line is empty with LVER 0. -/
  lines : Tbl GrvLine
  /-- Ways 0 to 131,071 are the buckets, 131,072 to 131,327 the stash. -/
  copse : Tbl (Option CpsWay)
  /-- The hand of each Copse bucket (R173). -/
  hands : Tbl Nat
  fills : List Fill
  nextFill : Nat
  links : List CxlLink
  mig : Option Migration
  /-- The links train for Grove to be built: stage B5, or a change of IL2 under DRAIN (Table CFG-5). -/
  atB5 : Bool
deriving DecidableEq, Repr

/-! ### Frames -/

/-- The configuration in force when a frame's first bit arrived (R17): the port's registers and its ingress gates. -/
structure PortCfg where
  ctl : Word
  pcp : Word
  adm : Word
  host : Word
  vid : Word
  /-- FPX_SECY_CTL of the SecY the frame arrived on. -/
  secy : Word
  gates : Nat
deriving DecidableEq, Repr

/-- How a verdict comes out: passed, or the first failing condition of R106. -/
inductive Verdict where
  | pass | fcs | auth | replay | poison
deriving DecidableEq, Repr

/-- Where a frame stands: waiting on a Copse miss, in its ingress admission queue, or handed over. -/
inductive FrmPhase where
  | waiting (fill : Nat)
  | admitted
  | handed
deriving DecidableEq, Repr

/-- Where an egress copy stands: in its queue, under transmission, or preempted. -/
inductive CopyPhase where
  | queued | sending | preempted
deriving DecidableEq, Repr

/-- One egress copy: port, queue, order of entry, phase, whether it waits for the verdict (R107) or is cut through, its
bytes as sent without FCS, the key slot that protects it and the core its cipher job runs on, the result of the FCS when
it has been decided, and what has been counted of it. -/
structure FCopy where
  port : Nat
  cls : Nat
  ord : Nat
  phase : CopyPhase
  stored : Bool
  bytes : List Byte
  slot : Option Nat
  core : Nat
  /-- The first bit's tick, of the copy or of its fragment under transmission, and the octets of the frame, FCS included,
  that earlier fragments carried (R87). -/
  start : Nat
  sent : Nat
  fcs : Option Bool
  /-- The class 7 gate was seen closed, or open, with the copy at the head of its queue (R86). -/
  waited : Bool
  cutShort : Bool
  /-- A gate closing during the transmission has been counted (R85). -/
  overrun : Bool
  /-- A frame of the device itself, sent as it stands on its lane: no E-tag and no SecTAG (R149, R153). -/
  raw : Bool
  /-- Its cipher output met a supply dip while it was under way (R118). -/
  spoilt : Bool
deriving DecidableEq, Repr

/-- What the parser reads of a GOOSE or SV payload with its IEC 62351-6 extension (R50, R100, R103): whether it is SV, its
APPID and length; the sequence value and whether it lies within the parse window; and the extension's key identifier, IV
and MAC, with the MAC's algorithm. -/
structure Goose where
  sv : Bool
  appid : Nat
  len : Nat
  seq : Option (BitVec 64)
  early : Bool
  ext : Option (Word × Bool × List Byte × List Byte)
deriving DecidableEq, Repr

/-- A frame in the Basin. -/
structure Frame where
  id : Nat
  lane : Nat
  port : Nat
  /-- As received, destination address to the last byte before the FCS; then without SecTAG, ICV and E-tag. -/
  wire : List Byte
  bytes : List Byte
  /-- A fault of R54: bad FCS or over length. -/
  fault : Bool
  /-- Cipher work of the frame has met a supply dip (R118), and the core its ingress cipher job runs on (R104). -/
  dipped : Bool
  core : Nat
  /-- The entry it was looked up in carried poison. -/
  poison : Bool
  gac : BitVec 64
  tick : Nat
  epoch : Nat
  cfg : PortCfg
  key : List Byte
  entry : Option GrvEntry
  goose : Option Goose
  /-- The SecY the frame arrived on (its register base), where RX_EN is set, and whether it carried a SecTAG. -/
  secy : Option Nat
  tagged : Bool
  cls : Nat
  held : Bool
  phase : FrmPhase
  own : Nat
  shared : Nat
  short : Bool
  /-- Order of admission. -/
  ord : Nat
  verdict : Option Verdict
  /-- The transmission of a copy has begun (R72). -/
  begun : Bool
  /-- Copy to the host receive path with its REASON, and the copy to Aeduf. -/
  host : Option Nat
  toAeduf : Bool
  /-- Counted in DISCARDS of its stream (R73). -/
  counted : Bool
  copies : List FCopy
deriving DecidableEq, Repr

/-- A Sync that passed in two-step form (R479): source port identity, sequence, domain, egress port and the correction
its Follow_Up takes, in 2^-16 ns. -/
structure SyncCorr where
  src : List Byte
  seq : Nat
  domain : Nat
  port : Nat
  corr : Int
deriving DecidableEq, Repr

/-- The frame path beside its registers: frames in the Basin, numbers given so far, host deliveries of this cycle by
port (R65), ports that have demoted or stomped in this cycle, and the state of PTP corrections. -/
structure FPath where
  frames : List Frame
  nextId : Nat
  nextOrd : Nat
  hostCount : Tbl Nat
  demoted : Bool
  stomped : Bool
  syncs : List SyncCorr
  /-- The ticks at which each GCM core will have served the Dike blocks, and all blocks, queued on it (R104). -/
  cores : List (Nat × Nat)
deriving DecidableEq, Repr

/-! ### Sluice schedules -/

/-- A schedule (R78): SLU_ENTRY and SLU_EATTR words in order. -/
abbrev Sched := List (Word × Word)

/-- The banks of the SLU block (R94): schedules by 2 x port + direction, and the shadow values of the CFG and BUDGET
registers by address. -/
structure Slu where
  act : Tbl Sched
  shd : Tbl Sched
  shdRegs : Tbl Word
deriving DecidableEq, Repr

/-! ### Lanes and extenders -/

/-- A lane beside its registers: woken by its detector; verify frames sent; the partner advertises preemption; LOW_STARVE
reported since preemption was lost; the port served last per class, none before the first (R84); a loss of the reference
clock; calibration frames still to be sent in this Clearing, and their sequence number; a Pdelay_Req to be sent in it;
the turn has been counted as skipped (R148); its Clearing has begun and its task waits for the frame under way (R147). -/
structure Lane where
  woken : Bool
  verifies : Nat
  partner : Bool
  starved : Bool
  rr : List (Option Nat)
  noClock : Bool
  calLeft : Nat
  calSeq : Nat
  pdReq : Bool
  skipped : Bool
  taskDue : Bool
deriving DecidableEq, Repr

/-- A context of the extended pool (Table LNE-10): state, lane, E-CID and identity digest of its extender. -/
structure Ctx where
  st : Nat
  lane : Nat
  ecid : Nat
  ident : List Byte
deriving DecidableEq, Repr

/-- The extender of a lane (Tables LNE-9 to LNE-11): state, back-off in seconds for the next announcement, the running
handshake (session, nonce and ephemeral private key as drawn, messages so far, sends), the peer's identity, the E-CIDs
and contexts of this ACCEPT with those taken from the pool, the tick at which the hold timer ends, the keys derived, the CAK slot, and the
SAKs installed. -/
structure Extender where
  st : Nat
  backoff : Nat
  session : Nat
  nonce : List Byte
  eph : List Byte
  offer : List Byte
  accept : List Byte
  confirm : List Byte
  sends : Nat
  ident : List Byte
  taken : List Nat
  reused : List Nat
  hold : Nat
  km : List Byte
  cakSlot : Option Nat
  cak : List Byte
  ckn : List Byte
  rxSak : Bool
  txSak : Bool
deriving DecidableEq, Repr

/-! ### Live calibration -/

/-- A filter of R152: measurements accepted since it started, consecutive outliers, and the sum behind the running mean. -/
structure CalFilter where
  n : Nat
  outl : Nat
  sum : Int
deriving DecidableEq, Repr

/-- The calibration of a lane: next task, the filters of the transmit offset, receive offset and link delay, whether a
TS_LOOP turn awaits its receive measurement, whether a Pdelay_Req is due, and the receiver's adaptation: its CTLE gain,
DFE taps 1 to 8 and the tick up to which they have adapted (R154). -/
structure CalLane where
  tx : CalFilter
  rx : CalFilter
  dly : CalFilter
  turn : Bool
  due : Bool
  ctle : Nat
  dfe : List Int
  adapted : Nat
deriving DecidableEq, Repr

/-- Device-wide calibration state: cycle count of each core's last test, the core under test with its lane (none for a
host test), cycle count of the last test start, a GAC check in this cycle, and the mark of KAT_STALE. -/
structure Cal where
  lanes : Tbl CalLane
  tested : List Nat
  testing : Option (Nat × Option Nat)
  lastStart : Nat
  gacDone : Bool
  stale : Bool
deriving DecidableEq, Repr

/-! ### Configuration sets (R263, R264) -/

/-- A PORTS record: KEY and its seven registers. -/
structure PortRec where
  key : Nat
  regs : List Word
deriving DecidableEq, Repr

/-- A SLUICES record. -/
structure SluRec where
  key : Nat
  dir : Nat
  cfg : Word
  budget : Word
  ents : Sched
deriving DecidableEq, Repr

/-- A decoded configuration set. Absent sections are none or empty. -/
structure CfgSet where
  seq : Nat
  digest : List Byte
  len : Nat
  gac : Option (List Word)
  device : Option (List Word)
  evmap : List Byte
  idle : Nat
  policy : Nat
  lanes : List (List Word)
  trust : List (List Byte)
  ports : List PortRec
  sluices : List SluRec
  portsets : Tbl Nat
  flood : Tbl Nat
  statics : List GrvEntry
  allow : List (Nat × Nat × Nat)
  alarm : List Byte
  /-- The bytes of the sections by TYPE, as CMD_CFG_READ gives them. -/
  raw : List (Nat × List Byte)
deriving DecidableEq, Repr

/-- The set on which a device without a valid slot runs: every section absent (R274). -/
def CfgSet.defaults : CfgSet :=
  { seq := 0, digest := [], len := 0, gac := none, device := none, evmap := [], idle := 3000, policy := 0, lanes := [], trust := [],
    ports := [], sluices := [], portsets := [], flood := [], statics := [], allow := [], alarm := [], raw := [] }

/-- The shadow set: the set, whether it was staged with DRAIN, the session that holds it, the lanes whose MODE, FEC or
EXT it changes, whether it changes GRV_CTL.IL2 or BKT_LOG2, and the card record it came from (R443). -/
structure Shadow where
  set : CfgSet
  drain : Bool
  holder : Nat
  lanes : List Nat
  il2 : Bool
  bkt : Bool
  buf : Nat × Nat
  card : Option Nat
deriving DecidableEq, Repr

/-- A commit in progress (R269): cycle N, the image as read again, whether its program has been asked for and has ended,
and whether the record has been programmed. -/
structure Commit where
  cycle : Nat
  image : List Byte
  asked : Bool
  body : Bool
  recorded : Bool
deriving DecidableEq, Repr

/-- A drain in progress (R272): phase, lanes whose change waits for it, and whether it changes the CXL topology. -/
structure Drain where
  phase : Nat
  lanes : List Nat
  il2 : Bool
deriving DecidableEq, Repr

/-- Configuration sets beside their registers: the active set, the sets before it that frames in the Basin still follow
(R17) with their numbers, the shadow, the commit, the drain, and the number of the set in force. -/
structure Cfg where
  active : CfgSet
  older : List (Nat × CfgSet)
  shadow : Option Shadow
  commit : Option Commit
  drain : Option Drain
  epoch : Nat
  /-- Lanes that a drain restarted and that have not yet returned to UP: their ports wait for the new settings (R272). -/
  waitUp : List Nat
deriving DecidableEq, Repr

/-! ### Bring-up -/

/-- The boot report (R459): entries not yet written, oldest first, as class, source code, bit and DATA; whether the ring
of class POWER has been enabled since the reset; and the entries made so far. -/
structure Boot where
  report : List (Nat × Nat × Nat × Nat)
  open_ : Bool
  count : Nat
  /-- Full service has been reached since stage B1 (R458). -/
  full : Bool
  /-- The tick at which the root watchdog last started (R453). -/
  wdtAt : Nat
  /-- The boot ROM of a ROOT_RESTART has not yet started Aeduf: it holds stage B2 (R402, R452, R456). -/
  atRom : Bool
deriving DecidableEq, Repr

/-! ### Twins and Polders -/

/-- The handshake of the twin link (R278, R134 to R136): phase (0 none, 1 OFFER sent, 2 ACCEPT sent, 3 CONFIRM sent),
session, nonce, ephemeral private key, the messages of the transcript, sends, the peer's identity key and the key material. -/
structure TwinHs where
  phase : Nat
  session : Nat
  eph : List Byte
  offer : List Byte
  accept : List Byte
  confirm : List Byte
  sends : Nat
  peerPub : List Byte
  km : List Byte
deriving DecidableEq, Repr

/-- The last HELLO of the peer (Table TWN-2). -/
structure Hello where
  role : Nat
  rank : Nat
  ver : Nat
  step : Nat
  cfgSeq : Nat
  cfgDigest : List Byte
  keyDigest : List Byte
  id : List Byte
deriving DecidableEq, Repr

/-- A READY: opcode, cycle and digest (Table TWN-2). -/
structure Ready where
  opc : Nat
  cycle : Nat
  digest : List Byte
deriving DecidableEq, Repr

/-- A schedule of a beacon (Table TWN-6). -/
structure PldSched where
  group : Nat
  oldId : Nat
  newId : Nat
  cycle : Nat
  grace : Nat
  fold : Bool
deriving DecidableEq, Repr

/-- A member as its last valid REPORT shows it (R288): credential, identity key, and the cycle count of the report. -/
structure PldMember where
  cred : List Byte
  pub : List Byte
  seen : Nat
deriving DecidableEq, Repr

/-- The twin link and the Polder beside their registers (R276 to R292). -/
structure Twin where
  /-- The states of the lanes TL0 and TL1 (Table LNE-3). -/
  tl : List Nat
  hs : TwinHs
  /-- Identity digest and key of the peer, its credential where its ACCEPT gave one, and the CAK of the link. -/
  peerDigest : List Byte
  peerPub : List Byte
  peerCred : List Byte
  cak : List Byte
  /-- SEQ of the next message, and the SEQs kept since the link was keyed (R277). -/
  txSeq : Nat
  rxSeen : List Nat
  /-- The SAKs installed on the link SecY (R278). -/
  rxSak : Bool
  txSak : Bool
  peer : Option Hello
  /-- READYs received, and those owed by withheld commands. -/
  readies : List Ready
  /-- The takeover: the cycle at whose angle 0 it takes effect, and whether it has been agreed. -/
  takeover : Option (Nat × Bool)
  /-- The last TIME received: cycle, T1, T2, and the receiver's count at its receipt; and the T1 and T2 of the last TIME sent. -/
  time : Option (Nat × Nat × Nat × Nat)
  sent : Option (Nat × Nat)
  /-- Consecutive cycles within 1 us while PEER_REF is set, and consecutive cycles with a key difference. -/
  close : Nat
  keyDiff : Nat
  /-- The membership credential (R276) and the first AUTH_PUB accepted. -/
  cred : Option (List Byte)
  authPub : Option (List Byte)
  members : Tbl (Option PldMember)
  /-- The leader whose beacon was last accepted, and the cycle count of that acceptance. -/
  leaderIdx : Option Nat
  lastBeacon : Nat
  /-- T_M of the last beacon accepted, ns. -/
  lastTm : Nat
  /-- Schedules pending at the leader, or held from the last beacon, and those already handled. -/
  scheds : List PldSched
  handled : List PldSched
  nextSeq : Nat
  /-- The role held before the link was keyed again: 0 none, 1 LEAD, 2 FOLLOW (Table TWN-5). -/
  claim : Nat
  /-- The twin peer has sent LEADSTATE as Polder leader (Table TWN-3). -/
  peerLeads : Bool
deriving DecidableEq, Repr

end Sys2Proof.Machine
end

