-- ==== Sys2Proof/Machine/Regs.lean ====
section
/-! DEFINITION. The register map of BAR 0 and BAR 2 (R226, R228): one row per register or register array, with its
address, its access codes (Table SCO-5, R11) and its reset value (R14), and one name per register and per field.
Addresses are BAR 0 offsets; BAR 2 stands at 0x100_0000 above them. A register marked live is computed when it is
read and holds nothing of its own. -/

namespace Sys2Proof.Machine

/-- One row of the register map: `count` registers `stride` bytes apart from `base`; the masks say which bits carry
each access code; `reset` is what an unlisted register reads as. -/
structure RegDesc where
  base : Nat
  stride : Nat
  count : Nat
  rw : Word
  w1c : Word
  w1s : Word
  rc : Word
  wo : Word
  reset : Word
deriving DecidableEq, Repr

/-- A field of a register: its register's address, its lowest bit and its width. -/
structure Fld where
  addr : Nat
  lo : Nat
  w : Nat
deriving DecidableEq, Repr

/-- The row covers the address. -/
def RegDesc.has (d : RegDesc) (a : Nat) : Bool :=
  if a < d.base then false
  else if d.count ≤ 1 then a = d.base
  else ((a - d.base) % d.stride = 0) && ((a - d.base) / d.stride < d.count)

/-- The rows of the window at 0x0_0000. -/
def regRows0 : List RegDesc := [
  ⟨0, 0, 1, 0, 0, 0, 0, 0, 0⟩,
  ⟨4, 0, 1, 0, 0, 0, 0, 0, 0x1024A100⟩,
  ⟨8, 0, 1, 0, 0, 0, 0, 0, 0⟩,
  ⟨0xC, 0, 1, 0, 0, 0, 0, 0, 0⟩,
  ⟨0x10, 4, 4, 0xFFFFFFFF, 0, 0, 0, 0, 0⟩,
  ⟨0x1000, 4, 1280, 0x8000000F, 0, 0, 0, 0, 0⟩,
  ⟨0x3000, 4, 40, 0, 0xFFFFFFFF, 0, 0, 0, 0⟩,
  ⟨0x3100, 4, 5, 0x1F, 0, 0, 0, 0, 0⟩,
  ⟨0x3120, 4, 5, 0, 0, 0, 0, 0xF, 0⟩,
  ⟨0x3140, 4, 5, 0, 0, 0, 0, 0, 0⟩,
  ⟨0x3200, 0x10, 5, 0, 0, 3, 0, 0, 0⟩,
  ⟨0x3204, 0x10, 5, 0, 0, 0, 0, 0, 0⟩,
  ⟨0x3208, 0x10, 5, 0, 0, 0, 0, 0, 0⟩]

/-- The rows of the window at 0x1_0000. -/
def regRows1 : List RegDesc := [
  ⟨0x10400, 0, 1, 0, 0, 0, 0, 0, 0⟩,
  ⟨0x10404, 0, 1, 0, 0, 0, 0, 0, 0⟩,
  ⟨0x10408, 0, 1, 0, 0x1F, 0, 0, 0, 0⟩,
  ⟨0x1040C, 0, 1, 0x1F, 0, 0, 0, 0, 0xE⟩,
  ⟨0x10410, 0, 1, 0, 0, 0x1FFFFFF, 0, 0, 0⟩,
  ⟨0x10500, 4, 25, 0x3000000, 0, 0, 0, 0x80000000, 0x2000000⟩,
  ⟨0x10600, 4, 25, 0, 0, 0, 0, 0, 0⟩,
  ⟨0x10000, 0, 1, 0, 0, 0, 0, 0, 0x20000001⟩,
  ⟨0x10004, 0, 1, 0, 0xFFFFFFFF, 0, 0, 0, 0⟩,
  ⟨0x10008, 0, 1, 0, 0, 0, 0, 0, 0⟩,
  ⟨0x1000C, 0, 1, 0, 0, 0, 0, 0, 0⟩,
  ⟨0x10010, 0, 1, 0, 0, 0, 0, 0, 0x80000000⟩,
  ⟨0x10014, 0, 1, 0x8000FFFF, 0, 0, 0, 0, 0x3E8⟩,
  ⟨0x10018, 0, 1, 0, 0, 0, 0, 0xFFFFFFFF, 0⟩,
  ⟨0x1001C, 0, 1, 0, 0x1F, 0, 0, 0, 0⟩,
  ⟨0x10020, 0, 1, 0x1F, 0, 0, 0, 0, 0x1F⟩,
  ⟨0x10024, 0, 1, 0, 0, 0, 0, 0, 0⟩]

/-- The rows of the window at 0x2_0000. -/
def regRows2 : List RegDesc := [
  ⟨0x20000, 0, 1, 0xFD73, 0, 0, 0, 0, 0x2470⟩,
  ⟨0x20004, 0, 1, 0, 0, 0, 0, 0, 0⟩,
  ⟨0x20008, 0, 1, 0, 0, 0, 0, 0, 0⟩,
  ⟨0x2000C, 0, 1, 0, 0, 0, 0, 0, 0⟩,
  ⟨0x20010, 0, 1, 0, 0, 0, 0, 0, 0x2FAF080⟩,
  ⟨0x20014, 0, 1, 0, 0, 0, 0, 0, 0⟩,
  ⟨0x20018, 0, 1, 0, 0, 0, 0, 0, 0⟩,
  ⟨0x2001C, 0, 1, 0, 0, 0, 0, 0, 0⟩,
  ⟨0x20020, 0, 1, 0, 0, 0, 0, 0, 0⟩,
  ⟨0x20024, 0, 1, 0, 0, 0, 0, 0, 0⟩,
  ⟨0x20030, 4, 3, 0xFFFFFF, 0, 0, 0, 0, 0⟩,
  ⟨0x2003C, 0, 1, 0x7FF, 0, 0, 0, 0, 0x1F4⟩,
  ⟨0x20040, 0, 1, 0, 0, 0, 0, 0, 0⟩,
  ⟨0x20044, 0, 1, 0, 0, 0, 0, 0, 0⟩,
  ⟨0x20048, 0, 1, 0, 0, 0, 0, 0, 0⟩,
  ⟨0x2004C, 0, 1, 0, 0, 0, 0, 0, 0⟩,
  ⟨0x20050, 0, 1, 0, 0, 0, 0, 0, 0⟩,
  ⟨0x20054, 0, 1, 0, 0, 0, 0, 0, 0⟩,
  ⟨0x20058, 0, 1, 0, 0, 0, 0, 0, 0⟩,
  ⟨0x2005C, 0, 1, 0, 0, 0, 0, 0, 0⟩,
  ⟨0x20060, 0, 1, 0, 0x7F, 0, 0, 0, 0⟩,
  ⟨0x20064, 0, 1, 0x7F, 0, 0, 0, 0, 0x7F⟩,
  ⟨0x20080, 0, 1, 0, 0, 0, 0, 0, 0⟩,
  ⟨0x20084, 0, 1, 0, 0, 0, 0, 0, 0⟩,
  ⟨0x20088, 0, 1, 0, 0, 0, 0, 0, 0⟩,
  ⟨0x2008C, 0, 1, 0, 0, 0, 0, 0, 0xFF00⟩,
  ⟨0x20090, 0, 1, 0, 0, 0, 0, 0, 0⟩,
  ⟨0x20094, 0, 1, 0xFFF3, 0, 0, 0, 0, 0x640⟩]

/-- The rows of the window at 0x3_0000. -/
def regRows3 : List RegDesc := [
  ⟨0x30000, 0, 1, 0, 0xF, 0, 0, 0, 0⟩,
  ⟨0x30004, 0, 1, 0xF, 0, 0, 0, 0, 0xF⟩,
  ⟨0x30008, 0, 1, 0, 0, 0, 0, 0, 0xF⟩,
  ⟨0x30100, 0x20, 32, 0xFFC0FF03, 0, 0, 0, 0, 0x19C00A00⟩,
  ⟨0x30104, 0x20, 32, 0, 0, 0, 0, 0, 0x20080000⟩,
  ⟨0x30108, 0x20, 32, 0, 0, 0, 0, 0, 0⟩,
  ⟨0x3010C, 0x20, 32, 0, 0, 0, 0, 0, 0⟩,
  ⟨0x30110, 0x20, 32, 0, 0, 0, 0, 0, 0⟩,
  ⟨0x30114, 0x20, 32, 0, 0, 0, 0, 0, 0⟩,
  ⟨0x30118, 0x20, 32, 0, 0, 0, 0, 0, 0⟩]

/-- The rows of the window at 0x4_0000. -/
def regRows4 : List RegDesc := [
  ⟨0x40000, 0, 1, 0, 0x7F, 0, 0, 0, 0⟩,
  ⟨0x40004, 0, 1, 0x7F, 0, 0, 0, 0, 0x7F⟩,
  ⟨0x40008, 0, 1, 0x3FF, 0, 0, 0, 0, 0x1E⟩,
  ⟨0x40100, 0x10, 32, 0, 0, 0, 0, 0, 0⟩,
  ⟨0x40104, 0x10, 32, 0, 0, 0, 0, 0, 0⟩,
  ⟨0x40108, 0x10, 32, 0, 0, 0, 0, 0, 0⟩,
  ⟨0x4010C, 0x10, 32, 0, 0, 0, 0, 0, 0⟩]

/-- The rows of the window at 0x5_0000. -/
def regRows5 : List RegDesc := [
  ⟨0x50000, 0, 1, 0x800103FF, 0, 0, 0, 0, 0⟩,
  ⟨0x50004, 0, 1, 0, 7, 0, 0, 0, 0⟩,
  ⟨0x50008, 0, 1, 7, 0, 0, 0, 0, 7⟩,
  ⟨0x50100, 8, 64, 0, 0, 0, 0, 0, 0⟩,
  ⟨0x50104, 8, 64, 0, 0, 0, 0, 0, 0⟩,
  ⟨0x50400, 8, 32, 0xFF3, 0, 0, 0, 0, 0xA1⟩,
  ⟨0x50404, 8, 32, 0, 0, 0, 0, 0, 0⟩,
  ⟨0x50500, 4, 32, 0, 0, 0, 0, 0, 0⟩]

/-- The rows of the window at 0x6_0000. -/
def regRows6 : List RegDesc := [
  ⟨0x60000, 0, 1, 0, 0, 0, 0, 0, 0xFFF⟩,
  ⟨0x60004, 0, 1, 0, 0x3FF, 0, 0, 0, 0⟩,
  ⟨0x60008, 0, 1, 0x3FF, 0, 0, 0, 0, 0x3FF⟩,
  ⟨0x61000, 0x200, 32, 0xFFFF0000, 0, 0, 0, 0, 0xB300000⟩,
  ⟨0x61004, 0x200, 32, 0xFFFFFFFF, 0, 0, 0, 0, 0⟩,
  ⟨0x61008, 0x200, 32, 0xFFFFFFFF, 0, 0, 0, 0, 0⟩,
  ⟨0x6100C, 0x200, 32, 0xFFFFFFFF, 0, 0, 0, 0, 0⟩,
  ⟨0x61010, 0x200, 32, 0xFFFFFFFF, 0, 0, 0, 0, 0⟩,
  ⟨0x61014, 0x200, 32, 0xFFFFFFFF, 0, 0, 0, 0, 0⟩,
  ⟨0x61040, 0x200, 32, 0x80007FFF, 0, 0, 0, 0, 0⟩,
  ⟨0x61044, 0x200, 32, 0xFFFFFFFF, 0, 0, 0, 0, 0⟩,
  ⟨0x61048, 0x200, 32, 0xFFFFFFFF, 0, 0, 0, 0, 0⟩,
  ⟨0x6104C, 0x200, 32, 0xFFFFFFFF, 0, 0, 0, 0, 0⟩,
  ⟨0x61050, 0x200, 32, 0, 0, 0, 0, 0, 0⟩,
  ⟨0x61054, 0x200, 32, 0, 0, 0, 0, 0, 0⟩,
  ⟨0x61060, 0x200, 32, 0x80007FFF, 0, 0, 0, 0, 0⟩,
  ⟨0x61064, 0x200, 32, 0xFFFFFFFF, 0, 0, 0, 0, 0⟩,
  ⟨0x61068, 0x200, 32, 0xFFFFFFFF, 0, 0, 0, 0, 0⟩,
  ⟨0x6106C, 0x200, 32, 0xFFFFFFFF, 0, 0, 0, 0, 0⟩,
  ⟨0x61070, 0x200, 32, 0, 0, 0, 0, 0, 0⟩,
  ⟨0x61074, 0x200, 32, 0, 0, 0, 0, 0, 0⟩,
  ⟨0x61080, 0x200, 32, 0x80007FFF, 0, 0, 0, 0, 0⟩,
  ⟨0x61084, 0x200, 32, 0xFFFFFFFF, 0, 0, 0, 0, 0⟩,
  ⟨0x61088, 0x200, 32, 0xFFFFFFFF, 0, 0, 0, 0, 0⟩,
  ⟨0x6108C, 0x200, 32, 0xFFFFFFFF, 0, 0, 0, 0, 0⟩,
  ⟨0x61090, 0x200, 32, 0, 0, 0, 0, 0, 0⟩,
  ⟨0x61094, 0x200, 32, 0, 0, 0, 0, 0, 0⟩,
  ⟨0x610A0, 0x200, 32, 0x80007FFF, 0, 0, 0, 0, 0⟩,
  ⟨0x610A4, 0x200, 32, 0xFFFFFFFF, 0, 0, 0, 0, 0⟩,
  ⟨0x610A8, 0x200, 32, 0xFFFFFFFF, 0, 0, 0, 0, 0⟩,
  ⟨0x610AC, 0x200, 32, 0xFFFFFFFF, 0, 0, 0, 0, 0⟩,
  ⟨0x610B0, 0x200, 32, 0, 0, 0, 0, 0, 0⟩,
  ⟨0x610B4, 0x200, 32, 0, 0, 0, 0, 0, 0⟩,
  ⟨0x610C0, 0x200, 32, 0x80007FFF, 0, 0, 0, 0, 0⟩,
  ⟨0x610C4, 0x200, 32, 0xFFFFFFFF, 0, 0, 0, 0, 1⟩,
  ⟨0x610C8, 0x200, 32, 0xFFFFFFFF, 0, 0, 0, 0, 0⟩,
  ⟨0x610CC, 0x200, 32, 0xFFFFFFFF, 0, 0, 0, 0, 0⟩,
  ⟨0x610E0, 0x200, 32, 0x80007FFF, 0, 0, 0, 0, 0⟩,
  ⟨0x610E4, 0x200, 32, 0xFFFFFFFF, 0, 0, 0, 0, 1⟩,
  ⟨0x610E8, 0x200, 32, 0xFFFFFFFF, 0, 0, 0, 0, 0⟩,
  ⟨0x610EC, 0x200, 32, 0xFFFFFFFF, 0, 0, 0, 0, 0⟩,
  ⟨0x61100, 0x200, 32, 0x80007FFF, 0, 0, 0, 0, 0⟩,
  ⟨0x61104, 0x200, 32, 0xFFFFFFFF, 0, 0, 0, 0, 1⟩,
  ⟨0x61108, 0x200, 32, 0xFFFFFFFF, 0, 0, 0, 0, 0⟩,
  ⟨0x6110C, 0x200, 32, 0xFFFFFFFF, 0, 0, 0, 0, 0⟩,
  ⟨0x61120, 0x200, 32, 0x80007FFF, 0, 0, 0, 0, 0⟩,
  ⟨0x61124, 0x200, 32, 0xFFFFFFFF, 0, 0, 0, 0, 1⟩,
  ⟨0x61128, 0x200, 32, 0xFFFFFFFF, 0, 0, 0, 0, 0⟩,
  ⟨0x6112C, 0x200, 32, 0xFFFFFFFF, 0, 0, 0, 0, 0⟩]

/-- The rows of the window at 0x7_0000. -/
def regRows7 : List RegDesc := [
  ⟨0x70000, 0, 1, 0x800000FF, 0, 0, 0, 0, 0x80000008⟩,
  ⟨0x70004, 0, 1, 0, 0, 0, 0, 0, 0⟩,
  ⟨0x70008, 0, 1, 0x3FFFE0, 0, 0, 0, 0, 0⟩,
  ⟨0x7000C, 0, 1, 0xFFFF, 0, 0, 0, 0, 0⟩,
  ⟨0x70010, 4, 4, 0, 0, 0, 0, 0, 0⟩,
  ⟨0x70020, 0, 1, 0, 0, 0, 0, 0, 0⟩,
  ⟨0x70024, 0, 1, 0, 0, 0, 0, 0, 0⟩,
  ⟨0x70100, 0x40, 4, 0, 0, 0, 0, 0xFFFFFFFF, 0⟩]

/-- The rows of the window at 0x8_0000. -/
def regRows8 : List RegDesc := [
  ⟨0x80100, 0, 1, 0x7FFF, 0, 0, 0, 0, 0⟩,
  ⟨0x80104, 0, 1, 0, 0, 0, 0, 0, 0⟩,
  ⟨0x80108, 0, 1, 0, 0, 0, 0, 0, 0⟩,
  ⟨0x8010C, 0, 1, 0, 0, 0, 0, 0, 0⟩,
  ⟨0x80110, 0, 1, 0, 0, 0, 0, 0, 0⟩,
  ⟨0x80114, 0, 1, 0, 0, 0, 0, 0, 0⟩,
  ⟨0x80118, 0, 1, 0, 0, 0, 0, 0, 0⟩,
  ⟨0x8011C, 0, 1, 0, 0, 0, 0, 0, 0⟩,
  ⟨0x80120, 0, 1, 0, 0, 0, 0, 0, 0⟩,
  ⟨0x80124, 0, 1, 0, 0, 0, 0, 0, 0⟩,
  ⟨0x80128, 0, 1, 0, 0, 0, 0, 0, 0⟩,
  ⟨0x8012C, 0, 1, 0, 0, 0, 0, 0, 0⟩,
  ⟨0x80000, 0, 1, 0, 0, 0, 0, 0, 0⟩,
  ⟨0x80004, 0, 1, 0, 0x3F, 0, 0, 0, 0⟩,
  ⟨0x80008, 0, 1, 0x3F, 0, 0, 0, 0, 0x3F⟩,
  ⟨0x80010, 0, 1, 0, 0, 0, 0, 0xE07F7FFF, 0⟩,
  ⟨0x80014, 0, 1, 0x3FFFFF, 0, 0, 0, 0, 0⟩,
  ⟨0x80018, 0, 1, 0x1FF, 0, 0, 0, 0, 0⟩,
  ⟨0x80020, 0, 1, 0, 0, 0, 0, 0xE01F7FFF, 0⟩,
  ⟨0x80024, 0, 1, 0, 0, 0, 0, 0xFFFFFFFF, 0⟩,
  ⟨0x80028, 0, 1, 0, 0, 0, 0, 0, 0⟩,
  ⟨0x8002C, 0, 1, 0, 0, 0, 0, 0, 0⟩,
  ⟨0x80030, 0, 1, 0, 0, 0, 0, 0, 0⟩]

/-- The rows of the window at 0x9_0000. -/
def regRows9 : List RegDesc := [
  ⟨0x90000, 0, 1, 0x800000FF, 0, 0, 0, 0, 0x80000006⟩,
  ⟨0x90004, 0, 1, 0, 0, 0, 0, 0, 0⟩,
  ⟨0x90008, 0, 1, 0, 7, 0, 0, 0, 0⟩,
  ⟨0x9000C, 0, 1, 7, 0, 0, 0, 0, 7⟩,
  ⟨0x90010, 0, 1, 0x3FFFF0, 0, 0, 0, 0, 0⟩,
  ⟨0x90014, 0, 1, 0xFFFF, 0, 0, 0, 0, 0⟩,
  ⟨0x90018, 0, 1, 0, 0, 0, 0, 0, 0⟩,
  ⟨0x9001C, 0, 1, 0, 0, 0, 0, 0, 0⟩,
  ⟨0x90100, 0, 1, 0, 0, 0, 0, 0xFFFFFFFF, 0⟩]

/-- The rows of the window at 0xA_0000. -/
def regRowsA : List RegDesc := [
  ⟨0xA0000, 0, 1, 0, 0, 0, 0, 0, 0⟩,
  ⟨0xA0004, 0, 1, 0, 0xF, 0, 0, 0, 0⟩,
  ⟨0xA0008, 0, 1, 0xF, 0, 0, 0, 0, 0xF⟩,
  ⟨0xA000C, 0, 1, 0, 0, 0, 0, 0, 0⟩,
  ⟨0xA0010, 0, 1, 0, 0, 0, 0, 0, 0⟩,
  ⟨0xA0014, 0, 1, 0, 0, 0, 0, 0, 0⟩,
  ⟨0xA0020, 0, 1, 0x80000003, 0, 0, 0, 0, 0⟩,
  ⟨0xA0024, 0, 1, 0, 0, 0, 0, 0, 0⟩,
  ⟨0xA0028, 0, 1, 0, 0, 0, 0, 0, 0⟩,
  ⟨0xA0040, 4, 4, 0, 0, 0, 0, 0, 0⟩]

/-- The rows of the window at 0xB_0000. -/
def regRowsB : List RegDesc := [
  ⟨0xB0000, 0, 1, 0x1F0003, 0, 0, 0, 0, 0x160003⟩,
  ⟨0xB0004, 0, 1, 0, 0, 0, 0, 0, 0⟩,
  ⟨0xB0008, 0, 1, 0, 0x7F, 0, 0, 0, 0⟩,
  ⟨0xB000C, 0, 1, 0x7F, 0, 0, 0, 0, 0x7F⟩,
  ⟨0xB0010, 0, 1, 0, 0, 0, 0, 0, 0⟩,
  ⟨0xB0014, 0, 1, 0, 0, 0, 0, 0, 0⟩,
  ⟨0xB0018, 0, 1, 0, 0, 0, 0, 0, 0⟩,
  ⟨0xB001C, 0, 1, 0, 0, 0, 0xFFFFFFFF, 0, 0⟩,
  ⟨0xB0020, 0, 1, 0, 0, 0, 0, 0, 0⟩,
  ⟨0xB0024, 0, 1, 0, 0, 0, 0, 0, 0⟩,
  ⟨0xB0028, 0, 1, 0, 0, 0, 0, 0, 0⟩,
  ⟨0xB002C, 0, 1, 0, 0, 0, 0, 0, 0⟩,
  ⟨0xB0030, 0, 1, 0, 0, 0, 0, 0, 0⟩,
  ⟨0xB0034, 4, 2, 0, 0, 0, 0, 0, 0⟩,
  ⟨0xB0100, 0, 1, 0xFF, 0, 0, 0, 0, 4⟩,
  ⟨0xB0104, 0, 1, 0, 0, 0, 0, 0, 0⟩,
  ⟨0xB0108, 0, 1, 0, 0, 0, 0, 0, 0⟩,
  ⟨0xB0110, 0, 1, 0, 0, 0, 0, 0, 0⟩,
  ⟨0xB0114, 0, 1, 0, 0, 0, 0, 0, 0⟩,
  ⟨0xB0118, 0, 1, 0, 0, 0, 0, 0, 0⟩,
  ⟨0xB011C, 0, 1, 0, 0, 0, 0, 0, 0⟩,
  ⟨0xB0120, 0, 1, 0, 0, 0, 0, 0, 0⟩,
  ⟨0xB0124, 0, 1, 0, 0, 0, 0, 0, 0⟩,
  ⟨0xB0128, 0, 1, 0, 0, 0, 0, 0, 0⟩,
  ⟨0xB012C, 0, 1, 0, 0, 0, 0, 0, 0⟩]

/-- The rows of the window at 0xC_0000. -/
def regRowsC : List RegDesc := [
  ⟨0xC0000, 0, 1, 0, 7, 0, 0, 0, 0⟩,
  ⟨0xC0004, 0, 1, 7, 0, 0, 0, 0, 7⟩,
  ⟨0xC0008, 0, 1, 0, 0, 0, 0, 0, 0⟩,
  ⟨0xC000C, 0, 1, 0, 0, 0, 0, 0, 0⟩,
  ⟨0xC0100, 8, 14, 0, 0, 0, 0, 0, 0⟩,
  ⟨0xC0104, 8, 14, 0, 0, 0, 0, 0, 0⟩,
  ⟨0xC0200, 0, 1, 3, 0, 0, 0, 0, 3⟩,
  ⟨0xC0204, 0, 1, 0xFFFF, 0, 0, 0, 0, 0x400⟩,
  ⟨0xC0208, 0, 1, 0xFFFF, 0, 0, 0, 0, 0x1000⟩,
  ⟨0xC020C, 0, 1, 0, 0, 0, 0, 0, 0⟩,
  ⟨0xC0210, 0, 1, 0, 0, 0, 0, 0, 0⟩,
  ⟨0xC0214, 0, 1, 0, 0, 0, 0, 0, 0⟩,
  ⟨0xC0218, 0, 1, 0, 0, 0, 0, 0, 0⟩,
  ⟨0xC021C, 0, 1, 0, 0, 0, 0, 0, 0⟩,
  ⟨0xC0220, 0, 1, 0, 3, 0, 0, 0, 0⟩,
  ⟨0xC0224, 0, 1, 3, 0, 0, 0, 0, 1⟩,
  ⟨0xC0400, 0, 1, 0, 0, 0, 0, 0, 0⟩,
  ⟨0xC0404, 0, 1, 0, 0, 0, 0, 0, 0⟩,
  ⟨0xC0500, 0x10, 32, 0, 0, 0, 0, 0, 0⟩,
  ⟨0xC0504, 0x10, 32, 0, 0, 0, 0, 0, 0⟩,
  ⟨0xC0508, 0x10, 32, 0, 0, 0, 0, 0, 0⟩,
  ⟨0xC050C, 0x10, 32, 0, 0, 0, 0, 0, 0⟩]

/-- The rows of the window at 0xD_0000. -/
def regRowsD : List RegDesc := [
  ⟨0xD0000, 0, 1, 1, 0, 0, 0, 0, 0⟩,
  ⟨0xD0004, 0, 1, 0xFFFFFFFF, 0, 0, 0, 0, 0⟩,
  ⟨0xD0008, 0, 1, 0xFFFFFFFF, 0, 0, 0, 0, 0⟩,
  ⟨0xD000C, 0, 1, 0x1F, 0, 0, 0, 0, 0x14⟩,
  ⟨0xD0010, 0, 1, 0, 0, 0, 0, 0, 0⟩,
  ⟨0xD0014, 0, 1, 0, 7, 0, 0, 0, 0⟩,
  ⟨0xD0018, 0, 1, 0, 0, 0, 0, 0, 0⟩,
  ⟨0xD001C, 0, 1, 0, 0, 0, 0, 0, 0⟩,
  ⟨0xD0020, 4, 16, 0xBF, 0, 0, 0, 0, 0x80⟩,
  ⟨0xD1000, 0x10, 256, 0x3FFFFF80, 0, 0, 0, 0, 0⟩,
  ⟨0xD1004, 0x10, 256, 0xF03F000F, 0, 0, 0, 0, 0⟩,
  ⟨0xD1008, 0x10, 256, 0, 0, 0, 0, 0, 0⟩,
  ⟨0xD100C, 0x10, 256, 0, 0, 0, 0, 0, 0⟩,
  ⟨0xD3000, 0x20, 64, 0x3FFFFFE0, 0, 0, 0, 0, 0⟩,
  ⟨0xD3004, 0x20, 64, 0xE000000F, 0, 0, 0, 0, 0⟩,
  ⟨0xD3008, 0x20, 64, 0x3FFFF800, 0, 0, 0, 0, 0⟩,
  ⟨0xD300C, 0x20, 64, 0, 0, 0, 0, 0, 0⟩,
  ⟨0xD3010, 0x20, 64, 0, 0, 0, 0, 0, 0⟩,
  ⟨0xD3014, 0x20, 64, 0, 0, 0, 0, 0, 0⟩,
  ⟨0xD3018, 0x20, 64, 0, 0, 0, 0, 0, 0⟩]

/-- The rows of the window at 0xE_0000. -/
def regRowsE : List RegDesc := [
  ⟨0xE0000, 0, 1, 0, 0, 0, 0, 0, 0⟩,
  ⟨0xE0004, 0, 1, 0, 0, 0, 0, 0, 0⟩,
  ⟨0xE1000, 0x40, 64, 0xB000000F, 0, 0x40000000, 0, 0, 0x20000000⟩,
  ⟨0xE1004, 0x40, 64, 0x3FFFFFE0, 0, 0, 0, 0, 0⟩,
  ⟨0xE1008, 0x40, 64, 0, 0, 0, 0, 0xFFFF, 0⟩,
  ⟨0xE100C, 0x40, 64, 0, 0, 0, 0, 0, 0⟩,
  ⟨0xE1010, 0x40, 64, 0, 0, 0, 0, 0, 0⟩,
  ⟨0xE1014, 0x40, 64, 0, 0, 0, 0, 0, 0⟩,
  ⟨0xE1018, 0x40, 64, 0, 0, 0, 0, 0, 0⟩,
  ⟨0xE101C, 0x40, 64, 0, 0, 0, 0, 0, 0⟩,
  ⟨0xE1020, 0x40, 64, 0x800FFFFF, 0, 0, 0, 0, 0xFFFFF⟩,
  ⟨0xE1024, 0x40, 64, 0x3FFFC0, 0, 0, 0, 0, 0⟩,
  ⟨0xE1028, 0x40, 64, 0x7FFFC0, 0, 0, 0, 0, 0⟩]

/-- The rows of the window at 0xF_0000. -/
def regRowsF : List RegDesc := [
  ⟨0xF0000, 0, 1, 0, 0, 0, 0, 0, 0⟩,
  ⟨0xF0004, 0, 1, 0, 0x1F, 0, 0, 0, 0⟩,
  ⟨0xF0008, 0, 1, 0x1F, 0, 0, 0, 0, 0x1F⟩,
  ⟨0xF0010, 0, 1, 0, 0, 0, 0, 0, 0⟩,
  ⟨0xF0014, 0, 1, 0, 0, 0, 0, 0, 0⟩,
  ⟨0xF0018, 0, 1, 0, 0, 0, 0, 0, 0⟩,
  ⟨0xF001C, 0, 1, 0, 0, 0, 0, 0, 0⟩,
  ⟨0xF0020, 0, 1, 0, 0, 0, 0, 0, 0⟩,
  ⟨0xF0024, 0, 1, 0, 0, 0, 0, 0, 0⟩,
  ⟨0xF0028, 0, 1, 0, 0, 0, 0, 0, 0⟩,
  ⟨0xF002C, 0, 1, 0, 0, 0, 0, 0, 0⟩,
  ⟨0xF0030, 0, 1, 0, 0, 0, 0, 0, 0⟩]

/-- The rows of the window at 0x10_0000. -/
def regRows10 : List RegDesc := [
  ⟨0x100000, 0, 1, 1, 0, 0, 0, 0, 1⟩,
  ⟨0x100004, 0, 1, 0, 0, 0, 0, 0, 0⟩,
  ⟨0x100008, 0, 1, 0, 0x3FF, 0, 0, 0, 0⟩,
  ⟨0x10000C, 0, 1, 0x3FF, 0, 0, 0, 0, 0x3FF⟩,
  ⟨0x100010, 0, 1, 0, 0, 0, 0, 0, 0⟩,
  ⟨0x100014, 0, 1, 0, 0, 0, 0, 0, 0⟩,
  ⟨0x100018, 0, 1, 0, 0, 0, 0, 0, 0⟩,
  ⟨0x100020, 0, 1, 0, 0, 0, 0, 0, 0⟩,
  ⟨0x100024, 0, 1, 0, 0, 0, 0, 0, 0⟩,
  ⟨0x100028, 0, 1, 0, 0, 0, 0, 0, 0⟩,
  ⟨0x10002C, 0, 1, 0, 0, 0, 0, 0, 0⟩,
  ⟨0x100030, 0, 1, 0, 0, 0, 0, 0, 0⟩]

/-- The rows of the window at 0x11_0000. -/
def regRows11 : List RegDesc := [
  ⟨0x110000, 0, 1, 0x7FFF0000, 0, 0, 0, 0x80000000, 0⟩,
  ⟨0x110004, 0, 1, 0xFFF01FF, 0, 0, 0, 0, 0⟩,
  ⟨0x110008, 0, 1, 0, 0, 0, 0, 0, 0⟩,
  ⟨0x11000C, 0, 1, 0, 0, 0, 0, 0, 0⟩,
  ⟨0x110010, 0, 1, 0, 0xFF, 0, 0, 0, 0⟩,
  ⟨0x110014, 0, 1, 0xFF, 0, 0, 0, 0, 0xFE⟩,
  ⟨0x110018, 0, 1, 0, 0, 0, 0, 0, 0⟩,
  ⟨0x11001C, 0, 1, 0, 0, 0, 0, 0, 0⟩,
  ⟨0x110100, 4, 128, 0, 0, 0xFFFFFFFF, 0, 0, 0⟩]

/-- The rows of the window at 0x12_0000. -/
def regRows12 : List RegDesc := [
  ⟨0x120000, 0, 1, 0, 0, 0, 0, 0, 0⟩,
  ⟨0x120004, 0, 1, 0, 0x3F, 0, 0, 0, 0⟩,
  ⟨0x120008, 0, 1, 0x3F, 0, 0, 0, 0, 0x3F⟩,
  ⟨0x12000C, 0, 1, 0x3F, 0, 0, 0, 0, 1⟩,
  ⟨0x120010, 0, 1, 0xFFFFFF, 0, 0, 0, 0, 0x92461A⟩,
  ⟨0x120014, 0, 1, 0, 0, 0, 0, 0, 0x920002⟩,
  ⟨0x120018, 0, 1, 0, 0xFF, 0, 0, 0, 0⟩,
  ⟨0x12001C, 0, 1, 0, 0, 0, 0, 0, 0⟩,
  ⟨0x120020, 0, 1, 0, 0, 0, 0, 0, 0⟩,
  ⟨0x120024, 0, 1, 0, 0, 0, 0, 0, 0⟩,
  ⟨0x120028, 0, 1, 0, 0, 0, 0, 0, 0⟩,
  ⟨0x12002C, 0, 1, 0, 0, 0, 0, 0, 0⟩]

/-- The rows of the window at 0x13_0000. -/
def regRows13 : List RegDesc := [
  ⟨0x130000, 0, 1, 0xF8000000, 0, 0, 0, 0, 0x70000000⟩,
  ⟨0x130004, 0, 1, 0, 0, 0, 0, 0, 0⟩,
  ⟨0x130008, 0, 1, 0, 0xFF, 0, 0, 0, 0⟩,
  ⟨0x13000C, 0, 1, 0xFF, 0, 0, 0, 0, 0xFC⟩,
  ⟨0x130010, 0, 1, 7, 0, 0, 0, 0, 0⟩,
  ⟨0x130014, 0, 1, 0, 0, 0, 0, 0, 0⟩,
  ⟨0x130018, 0, 1, 0, 0, 0, 0, 0, 0⟩,
  ⟨0x13001C, 0, 1, 0xFF, 0, 0, 0, 0, 0x64⟩,
  ⟨0x130020, 0, 1, 0, 0, 0, 0, 0, 0⟩,
  ⟨0x130024, 0, 1, 0, 0, 0, 0, 0, 0⟩,
  ⟨0x130028, 0, 1, 0, 0, 0, 0, 0, 0⟩]

/-- The rows of the window at 0x14_0000. -/
def regRows14 : List RegDesc := [
  ⟨0x140000, 0, 1, 0xFF800000, 0, 0, 0, 0, 0xAD000000⟩,
  ⟨0x140004, 0, 1, 0, 0, 0, 0, 0, 0⟩,
  ⟨0x140008, 0, 1, 0, 0xF, 0, 0, 0, 0⟩,
  ⟨0x14000C, 0, 1, 0xF, 0, 0, 0, 0, 0xF⟩,
  ⟨0x140010, 0, 1, 0, 0, 0, 0, 0, 0⟩,
  ⟨0x140014, 0, 1, 0, 0, 0, 0, 0, 0⟩,
  ⟨0x140018, 0, 1, 0, 0, 0, 0, 0, 0⟩,
  ⟨0x140100, 0, 1, 0x80000007, 0, 0, 0, 0, 0x80000003⟩,
  ⟨0x140104, 0, 1, 0, 0, 0, 0, 0, 0⟩,
  ⟨0x140108, 0, 1, 0, 0xF, 0, 0, 0, 0⟩,
  ⟨0x14010C, 0, 1, 0xF, 0, 0, 0, 0, 0xF⟩,
  ⟨0x140120, 4, 9, 0, 0, 0, 0, 0, 0⟩]

/-- The rows of the window at 0x15_0000. -/
def regRows15 : List RegDesc := [
  ⟨0x150000, 0, 1, 0, 0x7F, 0, 0, 0, 0⟩,
  ⟨0x150004, 0, 1, 0x7F, 0, 0, 0, 0, 0x7F⟩,
  ⟨0x150008, 0, 1, 0x800000FF, 0, 0, 0, 0, 0x80000001⟩,
  ⟨0x15000C, 0, 1, 0, 0, 0, 0, 0, 0⟩,
  ⟨0x150010, 0, 1, 0, 0, 0, 0, 0, 0⟩,
  ⟨0x150014, 0, 1, 0, 0, 0, 0, 0, 0⟩,
  ⟨0x150018, 0, 1, 0, 0, 0, 0, 0, 0⟩,
  ⟨0x15001C, 0, 1, 0, 0, 0, 0, 0, 0⟩,
  ⟨0x150100, 0x10, 32, 0xFFFFFF1F, 0, 0, 0, 0, 0x14101F⟩,
  ⟨0x150104, 0x10, 32, 0, 0, 0, 0, 0, 0⟩,
  ⟨0x150108, 0x10, 32, 0, 0, 0, 0, 0, 0⟩,
  ⟨0x15010C, 0x10, 32, 0, 0, 0, 0, 0, 0⟩]

/-- The rows of the window at 0x20_0000. -/
def regRows20 : List RegDesc := [
  ⟨0x200000, 0x800, 1024, 0xFFFFFFFF, 0, 0, 0, 0, 0x85F20000⟩,
  ⟨0x200004, 0x800, 1024, 0x7FFFFFF, 0, 0, 0, 0, 0xDAC688⟩,
  ⟨0x200008, 0x800, 1024, 0xFFFF0007, 0, 0, 0, 0, 0x200003⟩,
  ⟨0x20000C, 0x800, 1024, 0xFF00FFFF, 0, 0, 0, 0, 0x14000100⟩,
  ⟨0x200010, 0x800, 1024, 0xFFF, 0, 0, 0, 0, 1⟩,
  ⟨0x200014, 0x800, 1024, 0, 0, 0, 0, 0, 0⟩,
  ⟨0x200080, 0x800, 1024, 0x8000007F, 0, 0, 0, 0, 0⟩,
  ⟨0x200084, 0x800, 1024, 0x8000007F, 0, 0, 0, 0, 0⟩,
  ⟨0x200088, 0x800, 1024, 0xFFFFFFFF, 0, 0, 0, 0, 0⟩,
  ⟨0x20008C, 0x800, 1024, 0xFFFFFFFF, 0, 0, 0, 0, 0⟩,
  ⟨0x200090, 0x800, 1024, 0, 0, 0, 0, 0, 0⟩,
  ⟨0x200094, 0x800, 1024, 0, 0, 0, 0, 0, 0⟩,
  ⟨0x200098, 0x800, 1024, 0, 0, 0, 0, 0, 0xFF000000⟩,
  ⟨0x20009C, 0x800, 1024, 0, 0, 0, 0, 0, 0xFF000000⟩,
  ⟨0x2000A0, 0x800, 1024, 0, 0, 0, 0, 0, 0⟩,
  ⟨0x2000A4, 0x800, 1024, 0, 0, 0, 0xFFFFFFFF, 0, 0⟩,
  ⟨0x200180, 0x800, 1024, 0xFFFF0000, 0, 0, 0, 0, 0xB300000⟩,
  ⟨0x200184, 0x800, 1024, 0xFFFFFFFF, 0, 0, 0, 0, 0⟩,
  ⟨0x200188, 0x800, 1024, 0xFFFFFFFF, 0, 0, 0, 0, 0⟩,
  ⟨0x20018C, 0x800, 1024, 0xFFFFFFFF, 0, 0, 0, 0, 0⟩,
  ⟨0x200190, 0x800, 1024, 0xFFFFFFFF, 0, 0, 0, 0, 0⟩,
  ⟨0x200194, 0x800, 1024, 0xFFFFFFFF, 0, 0, 0, 0, 0⟩,
  ⟨0x2001C0, 0x800, 1024, 0x80007FFF, 0, 0, 0, 0, 0⟩,
  ⟨0x2001C4, 0x800, 1024, 0xFFFFFFFF, 0, 0, 0, 0, 0⟩,
  ⟨0x2001C8, 0x800, 1024, 0xFFFFFFFF, 0, 0, 0, 0, 0⟩,
  ⟨0x2001CC, 0x800, 1024, 0xFFFFFFFF, 0, 0, 0, 0, 0⟩,
  ⟨0x2001D0, 0x800, 1024, 0, 0, 0, 0, 0, 0⟩,
  ⟨0x2001D4, 0x800, 1024, 0, 0, 0, 0, 0, 0⟩,
  ⟨0x2001E0, 0x800, 1024, 0x80007FFF, 0, 0, 0, 0, 0⟩,
  ⟨0x2001E4, 0x800, 1024, 0xFFFFFFFF, 0, 0, 0, 0, 0⟩,
  ⟨0x2001E8, 0x800, 1024, 0xFFFFFFFF, 0, 0, 0, 0, 0⟩,
  ⟨0x2001EC, 0x800, 1024, 0xFFFFFFFF, 0, 0, 0, 0, 0⟩,
  ⟨0x2001F0, 0x800, 1024, 0, 0, 0, 0, 0, 0⟩,
  ⟨0x2001F4, 0x800, 1024, 0, 0, 0, 0, 0, 0⟩,
  ⟨0x200200, 0x800, 1024, 0x80007FFF, 0, 0, 0, 0, 0⟩,
  ⟨0x200204, 0x800, 1024, 0xFFFFFFFF, 0, 0, 0, 0, 0⟩,
  ⟨0x200208, 0x800, 1024, 0xFFFFFFFF, 0, 0, 0, 0, 0⟩,
  ⟨0x20020C, 0x800, 1024, 0xFFFFFFFF, 0, 0, 0, 0, 0⟩,
  ⟨0x200210, 0x800, 1024, 0, 0, 0, 0, 0, 0⟩,
  ⟨0x200214, 0x800, 1024, 0, 0, 0, 0, 0, 0⟩,
  ⟨0x200220, 0x800, 1024, 0x80007FFF, 0, 0, 0, 0, 0⟩,
  ⟨0x200224, 0x800, 1024, 0xFFFFFFFF, 0, 0, 0, 0, 0⟩,
  ⟨0x200228, 0x800, 1024, 0xFFFFFFFF, 0, 0, 0, 0, 0⟩,
  ⟨0x20022C, 0x800, 1024, 0xFFFFFFFF, 0, 0, 0, 0, 0⟩,
  ⟨0x200230, 0x800, 1024, 0, 0, 0, 0, 0, 0⟩,
  ⟨0x200234, 0x800, 1024, 0, 0, 0, 0, 0, 0⟩,
  ⟨0x200240, 0x800, 1024, 0x80007FFF, 0, 0, 0, 0, 0⟩,
  ⟨0x200244, 0x800, 1024, 0xFFFFFFFF, 0, 0, 0, 0, 1⟩,
  ⟨0x200248, 0x800, 1024, 0xFFFFFFFF, 0, 0, 0, 0, 0⟩,
  ⟨0x20024C, 0x800, 1024, 0xFFFFFFFF, 0, 0, 0, 0, 0⟩,
  ⟨0x200260, 0x800, 1024, 0x80007FFF, 0, 0, 0, 0, 0⟩,
  ⟨0x200264, 0x800, 1024, 0xFFFFFFFF, 0, 0, 0, 0, 1⟩,
  ⟨0x200268, 0x800, 1024, 0xFFFFFFFF, 0, 0, 0, 0, 0⟩,
  ⟨0x20026C, 0x800, 1024, 0xFFFFFFFF, 0, 0, 0, 0, 0⟩,
  ⟨0x200280, 0x800, 1024, 0x80007FFF, 0, 0, 0, 0, 0⟩,
  ⟨0x200284, 0x800, 1024, 0xFFFFFFFF, 0, 0, 0, 0, 1⟩,
  ⟨0x200288, 0x800, 1024, 0xFFFFFFFF, 0, 0, 0, 0, 0⟩,
  ⟨0x20028C, 0x800, 1024, 0xFFFFFFFF, 0, 0, 0, 0, 0⟩,
  ⟨0x2002A0, 0x800, 1024, 0x80007FFF, 0, 0, 0, 0, 0⟩,
  ⟨0x2002A4, 0x800, 1024, 0xFFFFFFFF, 0, 0, 0, 0, 1⟩,
  ⟨0x2002A8, 0x800, 1024, 0xFFFFFFFF, 0, 0, 0, 0, 0⟩,
  ⟨0x2002AC, 0x800, 1024, 0xFFFFFFFF, 0, 0, 0, 0, 0⟩,
  ⟨0x200600, 0x800, 1024, 0, 0, 0, 0, 0, 0⟩,
  ⟨0x200680, 0x800, 32, 0, 0, 0, 0, 0, 0⟩,
  ⟨0x200684, 0x800, 32, 0, 0, 0, 0, 0, 0⟩,
  ⟨0x200688, 0x800, 32, 0, 0, 0, 0, 0, 0⟩,
  ⟨0x20068C, 0x800, 32, 0, 0, 0, 0, 0, 0⟩,
  ⟨0x200690, 0x800, 32, 0xFFFFFFFF, 0, 0, 0, 0, 0⟩,
  ⟨0x200694, 0x800, 32, 0, 0, 0, 0, 0, 0⟩]

/-- The rows of the window at 0x100_0000. -/
def regRows100 : List RegDesc := [
  ⟨0x1008000, 0x10, 512, 0xFFFFFFFF, 0, 0, 0, 0, 0⟩,
  ⟨0x1008004, 0x10, 512, 0xFFFFFFFF, 0, 0, 0, 0, 0⟩,
  ⟨0x1008008, 0x10, 512, 0xFFFFFFFF, 0, 0, 0, 0, 0⟩,
  ⟨0x100800C, 0x10, 512, 1, 0, 0, 0, 0, 1⟩,
  ⟨0x100A000, 4, 16, 0, 0, 0, 0, 0, 0⟩]

/-- The row that describes an address, where one does. -/
def regDesc (a : Nat) : Option RegDesc :=
  let rows := match a / 0x10000 with
    | 0x0 => regRows0
    | 0x1 => regRows1
    | 0x2 => regRows2
    | 0x3 => regRows3
    | 0x4 => regRows4
    | 0x5 => regRows5
    | 0x6 => regRows6
    | 0x7 => regRows7
    | 0x8 => regRows8
    | 0x9 => regRows9
    | 0xA => regRowsA
    | 0xB => regRowsB
    | 0xC => regRowsC
    | 0xD => regRowsD
    | 0xE => regRowsE
    | 0xF => regRowsF
    | 0x10 => regRows10
    | 0x11 => regRows11
    | 0x12 => regRows12
    | 0x13 => regRows13
    | 0x14 => regRows14
    | 0x15 => regRows15
    | 0x20 => regRows20
    | 0x100 => regRows100
    | n => if 0x20 ≤ n ∧ n < 0x40 then regRows20 else []
  rows.find? (fun d => d.has a)

/-- What a register reads as when nothing has been written to it since its reset (R14). -/
def regReset (a : Nat) : Word := match regDesc a with | some d => d.reset | none => 0

/-! Register addresses. -/
namespace R
def GAC_CTL : Nat := 0x20000
def GAC_STATUS : Nat := 0x20004
def GAC_NOW_LO : Nat := 0x20008
def GAC_NOW_HI : Nat := 0x2000C
def GAC_FREQ : Nat := 0x20010
def GAC_FREQ_HOLD : Nat := 0x20014
def GAC_PHERR : Nat := 0x20018
def GAC_PHERR_RMS : Nat := 0x2001C
def GAC_INCR_LO : Nat := 0x20020
def GAC_INCR_HI : Nat := 0x20024
/-- 02_grid_angle_clock.md R48 -/
def GAC_MREF_OFS (i : Nat) : Nat := 0x20030 + 4 * i
def GAC_RELOCK_DF : Nat := 0x2003C
def GAC_ZERO_SEQ : Nat := 0x20040
def GAC_ZERO_CYC_LO : Nat := 0x20044
def GAC_ZERO_CYC_HI : Nat := 0x20048
def GAC_ZERO_SEC_LO : Nat := 0x2004C
def GAC_ZERO_SEC_HI : Nat := 0x20050
def GAC_ZERO_NS : Nat := 0x20054
def GAC_ZERO_FRAC : Nat := 0x20058
def GAC_STEP : Nat := 0x2005C
def GAC_EVT : Nat := 0x20060
def GAC_EVT_EN : Nat := 0x20064
def GAC_TAI_NS : Nat := 0x20080
def GAC_TAI_SEC_LO : Nat := 0x20084
def GAC_TAI_SEC_HI : Nat := 0x20088
def GAC_PTP_STATUS : Nat := 0x2008C
def GAC_PTP_OFS : Nat := 0x20090
def GAC_PPS_CTL : Nat := 0x20094
/-- 03_frame_path.md R75 -/
def LNE_PORT_CTL (i : Nat) : Nat := 0x200000 + 0x800 * i
/-- 03_frame_path.md R75 -/
def LNE_PORT_PCPMAP (i : Nat) : Nat := 0x200004 + 0x800 * i
/-- 03_frame_path.md R75 -/
def LNE_PORT_ADM (i : Nat) : Nat := 0x200008 + 0x800 * i
/-- 03_frame_path.md R75 -/
def LNE_PORT_HOST (i : Nat) : Nat := 0x20000C + 0x800 * i
/-- 03_frame_path.md R75 -/
def LNE_PORT_VID (i : Nat) : Nat := 0x200010 + 0x800 * i
/-- 03_frame_path.md R75 -/
def LNE_PORT_CELLS (i : Nat) : Nat := 0x200014 + 0x800 * i
def SLU_WIN_SEL : Nat := 0x50000
def SLU_EVT : Nat := 0x50004
def SLU_EVT_EN : Nat := 0x50008
/-- 04_sluices_dike_class.md R95 -/
def SLU_ENTRY (i : Nat) : Nat := 0x50100 + 8 * i
/-- 04_sluices_dike_class.md R95 -/
def SLU_EATTR (i : Nat) : Nat := 0x50104 + 8 * i
/-- 04_sluices_dike_class.md R95 -/
def SLU_MM_CTL (i : Nat) : Nat := 0x50400 + 8 * i
/-- 04_sluices_dike_class.md R95 -/
def SLU_MM_STS (i : Nat) : Nat := 0x50404 + 8 * i
/-- 04_sluices_dike_class.md R95 -/
def SLU_MM_FRAG (i : Nat) : Nat := 0x50500 + 4 * i
/-- 04_sluices_dike_class.md R96 -/
def SLU_RX_CFG (i : Nat) : Nat := 0x200080 + 0x800 * i
/-- 04_sluices_dike_class.md R96 -/
def SLU_TX_CFG (i : Nat) : Nat := 0x200084 + 0x800 * i
/-- 04_sluices_dike_class.md R96 -/
def SLU_RX_BUDGET (i : Nat) : Nat := 0x200088 + 0x800 * i
/-- 04_sluices_dike_class.md R96 -/
def SLU_TX_BUDGET (i : Nat) : Nat := 0x20008C + 0x800 * i
/-- 04_sluices_dike_class.md R96 -/
def SLU_RX_LEFT (i : Nat) : Nat := 0x200090 + 0x800 * i
/-- 04_sluices_dike_class.md R96 -/
def SLU_TX_LEFT (i : Nat) : Nat := 0x200094 + 0x800 * i
/-- 04_sluices_dike_class.md R96 -/
def SLU_RX_STATE (i : Nat) : Nat := 0x200098 + 0x800 * i
/-- 04_sluices_dike_class.md R96 -/
def SLU_TX_STATE (i : Nat) : Nat := 0x20009C + 0x800 * i
/-- 04_sluices_dike_class.md R96 -/
def SLU_TX_DIKEQ (i : Nat) : Nat := 0x2000A0 + 0x800 * i
/-- 04_sluices_dike_class.md R96 -/
def SLU_LAT_MAX (i : Nat) : Nat := 0x2000A4 + 0x800 * i
def KEY_SLOT_SEL : Nat := 0x80100
def KEY_SLOT_CTL : Nat := 0x80104
def KEY_SLOT_ID : Nat := 0x80108
def KEY_SLOT_SUCC : Nat := 0x8010C
def KEY_SLOT_USE_LO : Nat := 0x80110
def KEY_SLOT_USE_HI : Nat := 0x80114
def KEY_SLOT_LIMIT_LO : Nat := 0x80118
def KEY_SLOT_LIMIT_HI : Nat := 0x8011C
def KEY_SLOT_WARN_LO : Nat := 0x80120
def KEY_SLOT_WARN_HI : Nat := 0x80124
def KEY_SLOT_ROLL_LO : Nat := 0x80128
def KEY_SLOT_ROLL_HI : Nat := 0x8012C
def FPX_CORE_STS : Nat := 0x60000
def FPX_EVT : Nat := 0x60004
def FPX_EVT_EN : Nat := 0x60008
/-- 05_frame_protection.md R120 -/
def FPX_LANE_SECY_CTL (i : Nat) : Nat := 0x61000 + 0x200 * i
/-- 05_frame_protection.md R120 -/
def FPX_LANE_TX_SCI_LO (i : Nat) : Nat := 0x61004 + 0x200 * i
/-- 05_frame_protection.md R120 -/
def FPX_LANE_TX_SCI_HI (i : Nat) : Nat := 0x61008 + 0x200 * i
/-- 05_frame_protection.md R120 -/
def FPX_LANE_RX_SCI_LO (i : Nat) : Nat := 0x6100C + 0x200 * i
/-- 05_frame_protection.md R120 -/
def FPX_LANE_RX_SCI_HI (i : Nat) : Nat := 0x61010 + 0x200 * i
/-- 05_frame_protection.md R120 -/
def FPX_LANE_RX_WINDOW (i : Nat) : Nat := 0x61014 + 0x200 * i
/-- 05_frame_protection.md R120 -/
def FPX_LANE_RX_AN0_CTL (i : Nat) : Nat := 0x61040 + 0x200 * i
/-- 05_frame_protection.md R120 -/
def FPX_LANE_RX_AN0_LPN_LO (i : Nat) : Nat := 0x61044 + 0x200 * i
/-- 05_frame_protection.md R120 -/
def FPX_LANE_RX_AN0_LPN_HI (i : Nat) : Nat := 0x61048 + 0x200 * i
/-- 05_frame_protection.md R120 -/
def FPX_LANE_RX_AN0_SSCI (i : Nat) : Nat := 0x6104C + 0x200 * i
/-- 05_frame_protection.md R120 -/
def FPX_LANE_RX_AN0_HPN_LO (i : Nat) : Nat := 0x61050 + 0x200 * i
/-- 05_frame_protection.md R120 -/
def FPX_LANE_RX_AN0_HPN_HI (i : Nat) : Nat := 0x61054 + 0x200 * i
/-- 05_frame_protection.md R120 -/
def FPX_LANE_RX_AN1_CTL (i : Nat) : Nat := 0x61060 + 0x200 * i
/-- 05_frame_protection.md R120 -/
def FPX_LANE_RX_AN1_LPN_LO (i : Nat) : Nat := 0x61064 + 0x200 * i
/-- 05_frame_protection.md R120 -/
def FPX_LANE_RX_AN1_LPN_HI (i : Nat) : Nat := 0x61068 + 0x200 * i
/-- 05_frame_protection.md R120 -/
def FPX_LANE_RX_AN1_SSCI (i : Nat) : Nat := 0x6106C + 0x200 * i
/-- 05_frame_protection.md R120 -/
def FPX_LANE_RX_AN1_HPN_LO (i : Nat) : Nat := 0x61070 + 0x200 * i
/-- 05_frame_protection.md R120 -/
def FPX_LANE_RX_AN1_HPN_HI (i : Nat) : Nat := 0x61074 + 0x200 * i
/-- 05_frame_protection.md R120 -/
def FPX_LANE_RX_AN2_CTL (i : Nat) : Nat := 0x61080 + 0x200 * i
/-- 05_frame_protection.md R120 -/
def FPX_LANE_RX_AN2_LPN_LO (i : Nat) : Nat := 0x61084 + 0x200 * i
/-- 05_frame_protection.md R120 -/
def FPX_LANE_RX_AN2_LPN_HI (i : Nat) : Nat := 0x61088 + 0x200 * i
/-- 05_frame_protection.md R120 -/
def FPX_LANE_RX_AN2_SSCI (i : Nat) : Nat := 0x6108C + 0x200 * i
/-- 05_frame_protection.md R120 -/
def FPX_LANE_RX_AN2_HPN_LO (i : Nat) : Nat := 0x61090 + 0x200 * i
/-- 05_frame_protection.md R120 -/
def FPX_LANE_RX_AN2_HPN_HI (i : Nat) : Nat := 0x61094 + 0x200 * i
/-- 05_frame_protection.md R120 -/
def FPX_LANE_RX_AN3_CTL (i : Nat) : Nat := 0x610A0 + 0x200 * i
/-- 05_frame_protection.md R120 -/
def FPX_LANE_RX_AN3_LPN_LO (i : Nat) : Nat := 0x610A4 + 0x200 * i
/-- 05_frame_protection.md R120 -/
def FPX_LANE_RX_AN3_LPN_HI (i : Nat) : Nat := 0x610A8 + 0x200 * i
/-- 05_frame_protection.md R120 -/
def FPX_LANE_RX_AN3_SSCI (i : Nat) : Nat := 0x610AC + 0x200 * i
/-- 05_frame_protection.md R120 -/
def FPX_LANE_RX_AN3_HPN_LO (i : Nat) : Nat := 0x610B0 + 0x200 * i
/-- 05_frame_protection.md R120 -/
def FPX_LANE_RX_AN3_HPN_HI (i : Nat) : Nat := 0x610B4 + 0x200 * i
/-- 05_frame_protection.md R120 -/
def FPX_LANE_TX_AN0_CTL (i : Nat) : Nat := 0x610C0 + 0x200 * i
/-- 05_frame_protection.md R120 -/
def FPX_LANE_TX_AN0_NPN_LO (i : Nat) : Nat := 0x610C4 + 0x200 * i
/-- 05_frame_protection.md R120 -/
def FPX_LANE_TX_AN0_NPN_HI (i : Nat) : Nat := 0x610C8 + 0x200 * i
/-- 05_frame_protection.md R120 -/
def FPX_LANE_TX_AN0_SSCI (i : Nat) : Nat := 0x610CC + 0x200 * i
/-- 05_frame_protection.md R120 -/
def FPX_LANE_TX_AN1_CTL (i : Nat) : Nat := 0x610E0 + 0x200 * i
/-- 05_frame_protection.md R120 -/
def FPX_LANE_TX_AN1_NPN_LO (i : Nat) : Nat := 0x610E4 + 0x200 * i
/-- 05_frame_protection.md R120 -/
def FPX_LANE_TX_AN1_NPN_HI (i : Nat) : Nat := 0x610E8 + 0x200 * i
/-- 05_frame_protection.md R120 -/
def FPX_LANE_TX_AN1_SSCI (i : Nat) : Nat := 0x610EC + 0x200 * i
/-- 05_frame_protection.md R120 -/
def FPX_LANE_TX_AN2_CTL (i : Nat) : Nat := 0x61100 + 0x200 * i
/-- 05_frame_protection.md R120 -/
def FPX_LANE_TX_AN2_NPN_LO (i : Nat) : Nat := 0x61104 + 0x200 * i
/-- 05_frame_protection.md R120 -/
def FPX_LANE_TX_AN2_NPN_HI (i : Nat) : Nat := 0x61108 + 0x200 * i
/-- 05_frame_protection.md R120 -/
def FPX_LANE_TX_AN2_SSCI (i : Nat) : Nat := 0x6110C + 0x200 * i
/-- 05_frame_protection.md R120 -/
def FPX_LANE_TX_AN3_CTL (i : Nat) : Nat := 0x61120 + 0x200 * i
/-- 05_frame_protection.md R120 -/
def FPX_LANE_TX_AN3_NPN_LO (i : Nat) : Nat := 0x61124 + 0x200 * i
/-- 05_frame_protection.md R120 -/
def FPX_LANE_TX_AN3_NPN_HI (i : Nat) : Nat := 0x61128 + 0x200 * i
/-- 05_frame_protection.md R120 -/
def FPX_LANE_TX_AN3_SSCI (i : Nat) : Nat := 0x6112C + 0x200 * i
/-- 05_frame_protection.md R121 -/
def FPX_SECY_CTL (i : Nat) : Nat := 0x200180 + 0x800 * i
/-- 05_frame_protection.md R121 -/
def FPX_TX_SCI_LO (i : Nat) : Nat := 0x200184 + 0x800 * i
/-- 05_frame_protection.md R121 -/
def FPX_TX_SCI_HI (i : Nat) : Nat := 0x200188 + 0x800 * i
/-- 05_frame_protection.md R121 -/
def FPX_RX_SCI_LO (i : Nat) : Nat := 0x20018C + 0x800 * i
/-- 05_frame_protection.md R121 -/
def FPX_RX_SCI_HI (i : Nat) : Nat := 0x200190 + 0x800 * i
/-- 05_frame_protection.md R121 -/
def FPX_RX_WINDOW (i : Nat) : Nat := 0x200194 + 0x800 * i
/-- 05_frame_protection.md R121 -/
def FPX_RX_AN0_CTL (i : Nat) : Nat := 0x2001C0 + 0x800 * i
/-- 05_frame_protection.md R121 -/
def FPX_RX_AN0_LPN_LO (i : Nat) : Nat := 0x2001C4 + 0x800 * i
/-- 05_frame_protection.md R121 -/
def FPX_RX_AN0_LPN_HI (i : Nat) : Nat := 0x2001C8 + 0x800 * i
/-- 05_frame_protection.md R121 -/
def FPX_RX_AN0_SSCI (i : Nat) : Nat := 0x2001CC + 0x800 * i
/-- 05_frame_protection.md R121 -/
def FPX_RX_AN0_HPN_LO (i : Nat) : Nat := 0x2001D0 + 0x800 * i
/-- 05_frame_protection.md R121 -/
def FPX_RX_AN0_HPN_HI (i : Nat) : Nat := 0x2001D4 + 0x800 * i
/-- 05_frame_protection.md R121 -/
def FPX_RX_AN1_CTL (i : Nat) : Nat := 0x2001E0 + 0x800 * i
/-- 05_frame_protection.md R121 -/
def FPX_RX_AN1_LPN_LO (i : Nat) : Nat := 0x2001E4 + 0x800 * i
/-- 05_frame_protection.md R121 -/
def FPX_RX_AN1_LPN_HI (i : Nat) : Nat := 0x2001E8 + 0x800 * i
/-- 05_frame_protection.md R121 -/
def FPX_RX_AN1_SSCI (i : Nat) : Nat := 0x2001EC + 0x800 * i
/-- 05_frame_protection.md R121 -/
def FPX_RX_AN1_HPN_LO (i : Nat) : Nat := 0x2001F0 + 0x800 * i
/-- 05_frame_protection.md R121 -/
def FPX_RX_AN1_HPN_HI (i : Nat) : Nat := 0x2001F4 + 0x800 * i
/-- 05_frame_protection.md R121 -/
def FPX_RX_AN2_CTL (i : Nat) : Nat := 0x200200 + 0x800 * i
/-- 05_frame_protection.md R121 -/
def FPX_RX_AN2_LPN_LO (i : Nat) : Nat := 0x200204 + 0x800 * i
/-- 05_frame_protection.md R121 -/
def FPX_RX_AN2_LPN_HI (i : Nat) : Nat := 0x200208 + 0x800 * i
/-- 05_frame_protection.md R121 -/
def FPX_RX_AN2_SSCI (i : Nat) : Nat := 0x20020C + 0x800 * i
/-- 05_frame_protection.md R121 -/
def FPX_RX_AN2_HPN_LO (i : Nat) : Nat := 0x200210 + 0x800 * i
/-- 05_frame_protection.md R121 -/
def FPX_RX_AN2_HPN_HI (i : Nat) : Nat := 0x200214 + 0x800 * i
/-- 05_frame_protection.md R121 -/
def FPX_RX_AN3_CTL (i : Nat) : Nat := 0x200220 + 0x800 * i
/-- 05_frame_protection.md R121 -/
def FPX_RX_AN3_LPN_LO (i : Nat) : Nat := 0x200224 + 0x800 * i
/-- 05_frame_protection.md R121 -/
def FPX_RX_AN3_LPN_HI (i : Nat) : Nat := 0x200228 + 0x800 * i
/-- 05_frame_protection.md R121 -/
def FPX_RX_AN3_SSCI (i : Nat) : Nat := 0x20022C + 0x800 * i
/-- 05_frame_protection.md R121 -/
def FPX_RX_AN3_HPN_LO (i : Nat) : Nat := 0x200230 + 0x800 * i
/-- 05_frame_protection.md R121 -/
def FPX_RX_AN3_HPN_HI (i : Nat) : Nat := 0x200234 + 0x800 * i
/-- 05_frame_protection.md R121 -/
def FPX_TX_AN0_CTL (i : Nat) : Nat := 0x200240 + 0x800 * i
/-- 05_frame_protection.md R121 -/
def FPX_TX_AN0_NPN_LO (i : Nat) : Nat := 0x200244 + 0x800 * i
/-- 05_frame_protection.md R121 -/
def FPX_TX_AN0_NPN_HI (i : Nat) : Nat := 0x200248 + 0x800 * i
/-- 05_frame_protection.md R121 -/
def FPX_TX_AN0_SSCI (i : Nat) : Nat := 0x20024C + 0x800 * i
/-- 05_frame_protection.md R121 -/
def FPX_TX_AN1_CTL (i : Nat) : Nat := 0x200260 + 0x800 * i
/-- 05_frame_protection.md R121 -/
def FPX_TX_AN1_NPN_LO (i : Nat) : Nat := 0x200264 + 0x800 * i
/-- 05_frame_protection.md R121 -/
def FPX_TX_AN1_NPN_HI (i : Nat) : Nat := 0x200268 + 0x800 * i
/-- 05_frame_protection.md R121 -/
def FPX_TX_AN1_SSCI (i : Nat) : Nat := 0x20026C + 0x800 * i
/-- 05_frame_protection.md R121 -/
def FPX_TX_AN2_CTL (i : Nat) : Nat := 0x200280 + 0x800 * i
/-- 05_frame_protection.md R121 -/
def FPX_TX_AN2_NPN_LO (i : Nat) : Nat := 0x200284 + 0x800 * i
/-- 05_frame_protection.md R121 -/
def FPX_TX_AN2_NPN_HI (i : Nat) : Nat := 0x200288 + 0x800 * i
/-- 05_frame_protection.md R121 -/
def FPX_TX_AN2_SSCI (i : Nat) : Nat := 0x20028C + 0x800 * i
/-- 05_frame_protection.md R121 -/
def FPX_TX_AN3_CTL (i : Nat) : Nat := 0x2002A0 + 0x800 * i
/-- 05_frame_protection.md R121 -/
def FPX_TX_AN3_NPN_LO (i : Nat) : Nat := 0x2002A4 + 0x800 * i
/-- 05_frame_protection.md R121 -/
def FPX_TX_AN3_NPN_HI (i : Nat) : Nat := 0x2002A8 + 0x800 * i
/-- 05_frame_protection.md R121 -/
def FPX_TX_AN3_SSCI (i : Nat) : Nat := 0x2002AC + 0x800 * i
def LNE_EVT : Nat := 0x30000
def LNE_EVT_EN : Nat := 0x30004
def LNE_REFCLK_STS : Nat := 0x30008
/-- 06_lanes_extenders.md R143 -/
def LNE_LANE_CTL (i : Nat) : Nat := 0x30100 + 0x20 * i
/-- 06_lanes_extenders.md R143 -/
def LNE_LANE_STS (i : Nat) : Nat := 0x30104 + 0x20 * i
/-- 06_lanes_extenders.md R143 -/
def LNE_LANE_FEC_CORR (i : Nat) : Nat := 0x30108 + 0x20 * i
/-- 06_lanes_extenders.md R143 -/
def LNE_LANE_FEC_UNCORR (i : Nat) : Nat := 0x3010C + 0x20 * i
/-- 06_lanes_extenders.md R143 -/
def LNE_LANE_ERR_BLOCK (i : Nat) : Nat := 0x30110 + 0x20 * i
/-- 06_lanes_extenders.md R143 -/
def LNE_LANE_LINK_DOWNS (i : Nat) : Nat := 0x30114 + 0x20 * i
/-- 06_lanes_extenders.md R143 -/
def LNE_LANE_WAKE_FALSE (i : Nat) : Nat := 0x30118 + 0x20 * i
/-- 06_lanes_extenders.md R144 -/
def EXT_PORT_ID (i : Nat) : Nat := 0x200600 + 0x800 * i
def EXT_EVT : Nat := 0x40000
def EXT_EVT_EN : Nat := 0x40004
def EXT_HOLD : Nat := 0x40008
/-- 06_lanes_extenders.md R144 -/
def EXT_LANE_STS (i : Nat) : Nat := 0x40100 + 0x10 * i
/-- 06_lanes_extenders.md R144 -/
def EXT_LANE_ID (i : Nat) : Nat := 0x40104 + 0x10 * i
/-- 06_lanes_extenders.md R144 -/
def EXT_LANE_FAIL (i : Nat) : Nat := 0x40108 + 0x10 * i
/-- 06_lanes_extenders.md R144 -/
def EXT_LANE_DROP (i : Nat) : Nat := 0x4010C + 0x10 * i
def CAL_EVT : Nat := 0x150000
def CAL_EVT_EN : Nat := 0x150004
def CAL_KAT_CTL : Nat := 0x150008
def CAL_KAT_STS : Nat := 0x15000C
def CAL_KAT_PASS : Nat := 0x150010
def CAL_KAT_ABORT : Nat := 0x150014
def CAL_GAC_CHK : Nat := 0x150018
def CAL_GAC_CHK_CNT : Nat := 0x15001C
/-- 07_live_calibration.md R159 -/
def CAL_LANE_CTL (i : Nat) : Nat := 0x150100 + 0x10 * i
/-- 07_live_calibration.md R159 -/
def CAL_LANE_STS (i : Nat) : Nat := 0x150104 + 0x10 * i
/-- 07_live_calibration.md R159 -/
def CAL_LANE_SKIP (i : Nat) : Nat := 0x150108 + 0x10 * i
/-- 07_live_calibration.md R159 -/
def CAL_LANE_EYE (i : Nat) : Nat := 0x15010C + 0x10 * i
/-- 07_live_calibration.md R160 -/
def CAL_TS_TX_OFS (i : Nat) : Nat := 0x200680 + 0x800 * i
/-- 07_live_calibration.md R160 -/
def CAL_TS_RX_OFS (i : Nat) : Nat := 0x200684 + 0x800 * i
/-- 07_live_calibration.md R160 -/
def CAL_TS_STS (i : Nat) : Nat := 0x200688 + 0x800 * i
/-- 07_live_calibration.md R160 -/
def CAL_LINK_DELAY (i : Nat) : Nat := 0x20068C + 0x800 * i
/-- 07_live_calibration.md R160 -/
def CAL_DELAY_ASYM (i : Nat) : Nat := 0x200690 + 0x800 * i
/-- 07_live_calibration.md R160 -/
def CAL_PDELAY_NOCLR (i : Nat) : Nat := 0x200694 + 0x800 * i
def GRV_CTL : Nat := 0xB0000
def GRV_STATUS : Nat := 0xB0004
def GRV_EVT : Nat := 0xB0008
def GRV_EVT_EN : Nat := 0xB000C
def GRV_ENTRIES : Nat := 0xB0010
def GRV_ERR_ENTRY : Nat := 0xB0014
def GRV_CXL_STS : Nat := 0xB0018
def GRV_FILL_LAT_MAX : Nat := 0xB001C
def GRV_FILLS_LO : Nat := 0xB0020
def GRV_FILLS_HI : Nat := 0xB0024
def GRV_WB_LO : Nat := 0xB0028
def GRV_WB_HI : Nat := 0xB002C
def GRV_MAC_FAIL_CNT : Nat := 0xB0030
/-- 08_grove_cxl_memory.md R184 -/
def GRV_CXL_CAP (i : Nat) : Nat := 0xB0034 + 4 * i
def CPS_CTL : Nat := 0xB0100
def CPS_PINNED : Nat := 0xB0104
def CPS_STATUS : Nat := 0xB0108
def CPS_HITS_LO : Nat := 0xB0110
def CPS_HITS_HI : Nat := 0xB0114
def CPS_MISSES_LO : Nat := 0xB0118
def CPS_MISSES_HI : Nat := 0xB011C
def CPS_NEG_HITS_LO : Nat := 0xB0120
def CPS_NEG_HITS_HI : Nat := 0xB0124
def CPS_NOFILL : Nat := 0xB0128
def CPS_WB_LOST : Nat := 0xB012C
def ECC_EVT : Nat := 0xC0000
def ECC_EVT_EN : Nat := 0xC0004
def ECC_UNC_ADDR_LO : Nat := 0xC0008
def ECC_UNC_ADDR_HI : Nat := 0xC000C
/-- 09_stored_data_integrity.md R197 -/
def ECC_CORR (i : Nat) : Nat := 0xC0100 + 8 * i
/-- 09_stored_data_integrity.md R197 -/
def ECC_UNCORR (i : Nat) : Nat := 0xC0104 + 8 * i
def SWP_CTL : Nat := 0xC0200
def SWP_SRAM_RATE : Nat := 0xC0204
def SWP_CXL_RATE : Nat := 0xC0208
def SWP_SRAM_POS : Nat := 0xC020C
def SWP_CXL_POS : Nat := 0xC0210
def SWP_CARRY : Nat := 0xC0214
def SWP_PASSES : Nat := 0xC0218
def SWP_MISSED : Nat := 0xC021C
def SWP_EVT : Nat := 0xC0220
def SWP_EVT_EN : Nat := 0xC0224
def BLZ_STATUS : Nat := 0xC0400
def BLZ_LOST : Nat := 0xC0404
/-- 09_stored_data_integrity.md R197 -/
def BLZ_ADDR_LO (i : Nat) : Nat := 0xC0500 + 0x10 * i
/-- 09_stored_data_integrity.md R197 -/
def BLZ_ADDR_HI (i : Nat) : Nat := 0xC0504 + 0x10 * i
/-- 09_stored_data_integrity.md R197 -/
def BLZ_CYC_LO (i : Nat) : Nat := 0xC0508 + 0x10 * i
/-- 09_stored_data_integrity.md R197 -/
def BLZ_CYC_HI (i : Nat) : Nat := 0xC050C + 0x10 * i
def CUL_WIN_CTL : Nat := 0xD0000
def CUL_WIN_BASE_LO : Nat := 0xD0004
def CUL_WIN_BASE_HI : Nat := 0xD0008
def CUL_WIN_SIZE : Nat := 0xD000C
def CUL_STATUS : Nat := 0xD0010
def CUL_ERR : Nat := 0xD0014
def CUL_ERR_INFO : Nat := 0xD0018
def CUL_EV_UNMAPPED : Nat := 0xD001C
/-- 10_culvert_interface.md R224 -/
def CUL_EVMAP (i : Nat) : Nat := 0xD0020 + 4 * i
/-- 10_culvert_interface.md R224 -/
def CUL_CRING_BASE (i : Nat) : Nat := 0xD1000 + 0x10 * i
/-- 10_culvert_interface.md R224 -/
def CUL_CRING_CTL (i : Nat) : Nat := 0xD1004 + 0x10 * i
/-- 10_culvert_interface.md R224 -/
def CUL_CRING_IDX (i : Nat) : Nat := 0xD1008 + 0x10 * i
/-- 10_culvert_interface.md R224 -/
def CUL_CRING_STS (i : Nat) : Nat := 0xD100C + 0x10 * i
/-- 10_culvert_interface.md R224 -/
def CUL_ERING_BASE (i : Nat) : Nat := 0xD3000 + 0x20 * i
/-- 10_culvert_interface.md R224 -/
def CUL_ERING_CTL (i : Nat) : Nat := 0xD3004 + 0x20 * i
/-- 10_culvert_interface.md R224 -/
def CUL_ERING_BUF (i : Nat) : Nat := 0xD3008 + 0x20 * i
/-- 10_culvert_interface.md R224 -/
def CUL_ERING_IDX (i : Nat) : Nat := 0xD300C + 0x20 * i
/-- 10_culvert_interface.md R224 -/
def CUL_ERING_LOST (i : Nat) : Nat := 0xD3010 + 0x20 * i
/-- 10_culvert_interface.md R224 -/
def CUL_RX_DROP (i : Nat) : Nat := 0xD3014 + 0x20 * i
/-- 10_culvert_interface.md R224 -/
def CUL_ERING_STS (i : Nat) : Nat := 0xD3018 + 0x20 * i
def DEV_ID : Nat := 0
def DEV_VER : Nat := 4
def DEV_AEDUF_VER : Nat := 8
def DEV_STATE : Nat := 0xC
/-- 10_culvert_interface.md R227 -/
def DEV_SCRATCH (i : Nat) : Nat := 0x10 + 4 * i
/-- 10_culvert_interface.md R228 -/
def MSIX_ADDR_LO (i : Nat) : Nat := 0x1008000 + 0x10 * i
/-- 10_culvert_interface.md R228 -/
def MSIX_ADDR_HI (i : Nat) : Nat := 0x1008004 + 0x10 * i
/-- 10_culvert_interface.md R228 -/
def MSIX_DATA (i : Nat) : Nat := 0x1008008 + 0x10 * i
/-- 10_culvert_interface.md R228 -/
def MSIX_CTL (i : Nat) : Nat := 0x100800C + 0x10 * i
/-- 10_culvert_interface.md R228 -/
def MSIX_PBA (i : Nat) : Nat := 0x100A000 + 4 * i
def DMA_HALTED_LO : Nat := 0xE0000
def DMA_HALTED_HI : Nat := 0xE0004
/-- 12_dma_engine.md R261 -/
def DMA_CTL (i : Nat) : Nat := 0xE1000 + 0x40 * i
/-- 12_dma_engine.md R261 -/
def DMA_RING_BASE (i : Nat) : Nat := 0xE1004 + 0x40 * i
/-- 12_dma_engine.md R261 -/
def DMA_DOORBELL (i : Nat) : Nat := 0xE1008 + 0x40 * i
/-- 12_dma_engine.md R261 -/
def DMA_RING_IDX (i : Nat) : Nat := 0xE100C + 0x40 * i
/-- 12_dma_engine.md R261 -/
def DMA_STS (i : Nat) : Nat := 0xE1010 + 0x40 * i
/-- 12_dma_engine.md R261 -/
def DMA_ACT_DONE (i : Nat) : Nat := 0xE1014 + 0x40 * i
/-- 12_dma_engine.md R261 -/
def DMA_ACT_IDX (i : Nat) : Nat := 0xE1018 + 0x40 * i
/-- 12_dma_engine.md R261 -/
def DMA_COUNT (i : Nat) : Nat := 0xE101C + 0x40 * i
/-- 12_dma_engine.md R261 -/
def DMA_GRANT (i : Nat) : Nat := 0xE1020 + 0x40 * i
/-- 12_dma_engine.md R261 -/
def DMA_SRAM_LO (i : Nat) : Nat := 0xE1024 + 0x40 * i
/-- 12_dma_engine.md R261 -/
def DMA_SRAM_HI (i : Nat) : Nat := 0xE1028 + 0x40 * i
def CFG_STATUS : Nat := 0xF0000
def CFG_EVT : Nat := 0xF0004
def CFG_EVT_EN : Nat := 0xF0008
def CFG_ACTIVE_SEQ_LO : Nat := 0xF0010
def CFG_ACTIVE_SEQ_HI : Nat := 0xF0014
def CFG_PEND_CYCLE_LO : Nat := 0xF0018
def CFG_PEND_CYCLE_HI : Nat := 0xF001C
def CFG_SEQ_A_LO : Nat := 0xF0020
def CFG_SEQ_A_HI : Nat := 0xF0024
def CFG_SEQ_B_LO : Nat := 0xF0028
def CFG_SEQ_B_HI : Nat := 0xF002C
def CFG_SWAPS : Nat := 0xF0030
def TWN_CTL : Nat := 0x100000
def TWN_STATUS : Nat := 0x100004
def TWN_EVT : Nat := 0x100008
def TWN_EVT_EN : Nat := 0x10000C
def TWN_OFS : Nat := 0x100010
def TWN_LINK_STS : Nat := 0x100014
def TWN_PEER_ID : Nat := 0x100018
def TWN_PLD_STATUS : Nat := 0x100020
def TWN_PLD_ID : Nat := 0x100024
def TWN_PLD_SEQ : Nat := 0x100028
def TWN_PLD_CYC_LO : Nat := 0x10002C
def TWN_PLD_CYC_HI : Nat := 0x100030
/-- 16_exceptions_capabilities_mpu.md R331 -/
def DEV_IRQ_CFG (i : Nat) : Nat := 0x1000 + 4 * i
/-- 16_exceptions_capabilities_mpu.md R331 -/
def DEV_IRQ_PEND (i : Nat) : Nat := 0x3000 + 4 * i
/-- 16_exceptions_capabilities_mpu.md R331 -/
def DEV_IRQ_CUR (i : Nat) : Nat := 0x3100 + 4 * i
/-- 16_exceptions_capabilities_mpu.md R331 -/
def DEV_IRQ_SET (i : Nat) : Nat := 0x3120 + 4 * i
/-- 16_exceptions_capabilities_mpu.md R331 -/
def DEV_IRQ_STS (i : Nat) : Nat := 0x3140 + 4 * i
/-- 16_exceptions_capabilities_mpu.md R331 -/
def DEV_PAIR_CTL (i : Nat) : Nat := 0x3200 + 0x10 * i
/-- 16_exceptions_capabilities_mpu.md R331 -/
def DEV_PAIR_STS (i : Nat) : Nat := 0x3204 + 0x10 * i
/-- 16_exceptions_capabilities_mpu.md R331 -/
def DEV_PAIR_CAUSE (i : Nat) : Nat := 0x3208 + 0x10 * i
def KEY_STATUS : Nat := 0x80000
def KEY_EVT : Nat := 0x80004
def KEY_EVT_EN : Nat := 0x80008
def KEY_KDF_CTL : Nat := 0x80010
def KEY_KDF_ADDR : Nat := 0x80014
def KEY_KDF_LEN : Nat := 0x80018
def KEY_MOVE : Nat := 0x80020
def KEY_MOVE_ID : Nat := 0x80024
def KEY_WIN_STS : Nat := 0x80028
def KEY_WIN_DROP : Nat := 0x8002C
def KEY_ROOT_STS : Nat := 0x80030
def CIQ_CTL : Nat := 0x70000
def CIQ_STS : Nat := 0x70004
def CIQ_CRING_BASE : Nat := 0x70008
def CIQ_CRING_IDX : Nat := 0x7000C
/-- 17_keys_attestation.md R355 -/
def CIQ_DEPTH (i : Nat) : Nat := 0x70010 + 4 * i
def CIQ_BLOCKS_LO : Nat := 0x70020
def CIQ_BLOCKS_HI : Nat := 0x70024
/-- 17_keys_attestation.md R355 -/
def CIQ_SUBMIT (i : Nat) : Nat := 0x70100 + 0x40 * i
def PKE_CTL : Nat := 0x90000
def PKE_STS : Nat := 0x90004
def PKE_EVT : Nat := 0x90008
def PKE_EVT_EN : Nat := 0x9000C
def PKE_CRING_BASE : Nat := 0x90010
def PKE_CRING_IDX : Nat := 0x90014
def PKE_JOBS : Nat := 0x90018
def PKE_FAULTS : Nat := 0x9001C
def PKE_SUBMIT : Nat := 0x90100
def RNG_STS : Nat := 0xA0000
def RNG_EVT : Nat := 0xA0004
def RNG_EVT_EN : Nat := 0xA0008
def RNG_FAILS : Nat := 0xA000C
def RNG_DATA : Nat := 0xA0010
def RNG_RESEEDS : Nat := 0xA0014
def RNG_TEST : Nat := 0xA0020
def RNG_RAW : Nat := 0xA0024
def RNG_RAW_CNT : Nat := 0xA0028
/-- 19_random_bits.md R379 -/
def RNG_CELL (i : Nat) : Nat := 0xA0040 + 4 * i
def NVA_OP : Nat := 0x110000
def NVA_OP_ARG : Nat := 0x110004
def NVA_STATUS : Nat := 0x110008
def NVA_FAIL_ADDR : Nat := 0x11000C
def NVA_EVT : Nat := 0x110010
def NVA_EVT_EN : Nat := 0x110014
def NVA_SPARE : Nat := 0x110018
def NVA_JOURNAL : Nat := 0x11001C
/-- 20_nv_array.md R394 -/
def NVA_WPROT (i : Nat) : Nat := 0x110100 + 4 * i
def TMP_STS : Nat := 0x120000
def TMP_EVT : Nat := 0x120004
def TMP_EVT_EN : Nat := 0x120008
def TMP_ALERT_EN : Nat := 0x12000C
def TMP_LEVEL : Nat := 0x120010
def TMP_FLOOR : Nat := 0x120014
def TMP_HIST : Nat := 0x120018
def TMP_LOG : Nat := 0x12001C
def TMP_LOG_SEQ : Nat := 0x120020
def TMP_BROWN_CNT : Nat := 0x120024
def TMP_VBAT : Nat := 0x120028
def TMP_HALT_DROP : Nat := 0x12002C
def PWR_STS_LO : Nat := 0x10400
def PWR_STS_HI : Nat := 0x10404
def PWR_EVT : Nat := 0x10408
def PWR_EVT_EN : Nat := 0x1040C
def PWR_WAKE : Nat := 0x10410
/-- 22_power_domains.md R417 -/
def PWR_CTL (i : Nat) : Nat := 0x10500 + 4 * i
/-- 22_power_domains.md R417 -/
def PWR_WAKES (i : Nat) : Nat := 0x10600 + 4 * i
def FLD_CTL : Nat := 0x130000
def FLD_STS : Nat := 0x130004
def FLD_EVT : Nat := 0x130008
def FLD_EVT_EN : Nat := 0x13000C
def FLD_FDT_ADJ : Nat := 0x130010
def FLD_UID_LO : Nat := 0x130014
def FLD_UID_HI : Nat := 0x130018
def FLD_RD_CTL : Nat := 0x13001C
def FLD_FRAMES : Nat := 0x130020
def FLD_ERRS : Nat := 0x130024
def FLD_SESSIONS : Nat := 0x130028
def CRD_CTL : Nat := 0x140000
def CRD_STS : Nat := 0x140004
def CRD_EVT : Nat := 0x140008
def CRD_EVT_EN : Nat := 0x14000C
def CRD_CAP : Nat := 0x140010
def CRD_LOST_ADDR : Nat := 0x140014
def CRD_CRC_ERR : Nat := 0x140018
def SCD_CTL : Nat := 0x140100
def SCD_STS : Nat := 0x140104
def SCD_EVT : Nat := 0x140108
def SCD_EVT_EN : Nat := 0x14010C
/-- 24_card_ports.md R448 -/
def SCD_ATR (i : Nat) : Nat := 0x140120 + 4 * i
def RST_STS : Nat := 0x10000
def RST_CAUSE : Nat := 0x10004
def RST_BOOT : Nat := 0x10008
def RST_AEDUF_VER : Nat := 0x1000C
def RST_FUSE : Nat := 0x10010
def RST_WDT : Nat := 0x10014
def RST_WDT_KICK : Nat := 0x10018
def RST_EVT : Nat := 0x1001C
def RST_EVT_EN : Nat := 0x10020
def RST_COUNT : Nat := 0x10024
end R

/-! Register fields. -/
namespace F
def GAC_CTL_MINW : Fld := ⟨0x20000, 12, 4⟩
def GAC_CTL_BW : Fld := ⟨0x20000, 10, 2⟩
def GAC_CTL_NOM : Fld := ⟨0x20000, 8, 1⟩
def GAC_CTL_MREF_EN : Fld := ⟨0x20000, 4, 3⟩
def GAC_CTL_SRC : Fld := ⟨0x20000, 0, 2⟩
def GAC_STATUS_HOLD_LEFT : Fld := ⟨0x20004, 24, 8⟩
def GAC_STATUS_CYCLE_SET : Fld := ⟨0x20004, 15, 1⟩
def GAC_STATUS_SLEWING : Fld := ⟨0x20004, 14, 1⟩
def GAC_STATUS_ACQ : Fld := ⟨0x20004, 13, 1⟩
def GAC_STATUS_PTP_LOCK : Fld := ⟨0x20004, 12, 1⟩
def GAC_STATUS_PHASOR_VALID : Fld := ⟨0x20004, 11, 1⟩
def GAC_STATUS_MREF_VALID : Fld := ⟨0x20004, 8, 3⟩
def GAC_STATUS_STATE : Fld := ⟨0x20004, 0, 3⟩
def GAC_FREQ_FREQ : Fld := ⟨0x20010, 0, 32⟩
def GAC_FREQ_HOLD_FREQ : Fld := ⟨0x20014, 0, 32⟩
def GAC_PHERR_ERR : Fld := ⟨0x20018, 0, 32⟩
def GAC_PHERR_RMS_RMS : Fld := ⟨0x2001C, 0, 24⟩
def GAC_MREF_OFS_OFS (i : Nat) : Fld := ⟨0x20030 + 4 * i, 0, 24⟩
def GAC_RELOCK_DF_DF : Fld := ⟨0x2003C, 0, 11⟩
def GAC_ZERO_SEQ_TAI_OK : Fld := ⟨0x20040, 31, 1⟩
def GAC_ZERO_SEQ_SEQ : Fld := ⟨0x20040, 0, 31⟩
def GAC_ZERO_CYC_LO_CYC : Fld := ⟨0x20044, 0, 32⟩
def GAC_ZERO_CYC_HI_CYC : Fld := ⟨0x20048, 0, 8⟩
def GAC_ZERO_SEC_LO_SEC : Fld := ⟨0x2004C, 0, 32⟩
def GAC_ZERO_SEC_HI_SEC : Fld := ⟨0x20050, 0, 16⟩
def GAC_ZERO_NS_NS : Fld := ⟨0x20054, 0, 30⟩
def GAC_ZERO_FRAC_FRAC : Fld := ⟨0x20058, 0, 16⟩
def GAC_STEP_STEP : Fld := ⟨0x2005C, 0, 32⟩
def GAC_EVT_PTP_LOST : Fld := ⟨0x20060, 6, 1⟩
def GAC_EVT_PHASOR_REJ : Fld := ⟨0x20060, 5, 1⟩
def GAC_EVT_BEACON_REJ : Fld := ⟨0x20060, 4, 1⟩
def GAC_EVT_CYCLE_STEP : Fld := ⟨0x20060, 3, 1⟩
def GAC_EVT_REF_VALID : Fld := ⟨0x20060, 2, 1⟩
def GAC_EVT_REF_LOST : Fld := ⟨0x20060, 1, 1⟩
def GAC_EVT_STATE_CHG : Fld := ⟨0x20060, 0, 1⟩
def GAC_EVT_EN_EN : Fld := ⟨0x20064, 0, 7⟩
def GAC_PTP_STATUS_LOCK : Fld := ⟨0x2008C, 31, 1⟩
def GAC_PTP_STATUS_CLASS : Fld := ⟨0x2008C, 8, 8⟩
def GAC_PTP_STATUS_DOMAIN : Fld := ⟨0x2008C, 0, 8⟩
def GAC_PTP_OFS_OFS : Fld := ⟨0x20090, 0, 32⟩
def GAC_PPS_CTL_WIDTH : Fld := ⟨0x20094, 4, 12⟩
def GAC_PPS_CTL_CLK10M_EN : Fld := ⟨0x20094, 1, 1⟩
def GAC_PPS_CTL_PPS_IN_EN : Fld := ⟨0x20094, 0, 1⟩
def LNE_PORT_CTL_OOS (i : Nat) : Fld := ⟨0x200000 + 0x800 * i, 31, 1⟩
def LNE_PORT_CTL_RED_B (i : Nat) : Fld := ⟨0x200000 + 0x800 * i, 30, 1⟩
def LNE_PORT_CTL_MAX_LEN (i : Nat) : Fld := ⟨0x200000 + 0x800 * i, 16, 14⟩
def LNE_PORT_CTL_DEF_ACT (i : Nat) : Fld := ⟨0x200000 + 0x800 * i, 14, 2⟩
def LNE_PORT_CTL_REDUND (i : Nat) : Fld := ⟨0x200000 + 0x800 * i, 12, 2⟩
def LNE_PORT_CTL_IP_ID (i : Nat) : Fld := ⟨0x200000 + 0x800 * i, 11, 1⟩
def LNE_PORT_CTL_ACTIVE_ID (i : Nat) : Fld := ⟨0x200000 + 0x800 * i, 10, 1⟩
def LNE_PORT_CTL_PARTNER (i : Nat) : Fld := ⟨0x200000 + 0x800 * i, 0, 10⟩
def LNE_PORT_PCPMAP_DEF_PCP (i : Nat) : Fld := ⟨0x200004 + 0x800 * i, 24, 3⟩
def LNE_PORT_PCPMAP_MAP (i : Nat) : Fld := ⟨0x200004 + 0x800 * i, 0, 24⟩
def LNE_PORT_ADM_MIN_CELLS (i : Nat) : Fld := ⟨0x200008 + 0x800 * i, 16, 16⟩
def LNE_PORT_ADM_ALPHA (i : Nat) : Fld := ⟨0x200008 + 0x800 * i, 0, 3⟩
def LNE_PORT_HOST_FORGET (i : Nat) : Fld := ⟨0x20000C + 0x800 * i, 24, 8⟩
def LNE_PORT_HOST_RATE (i : Nat) : Fld := ⟨0x20000C + 0x800 * i, 0, 16⟩
def LNE_PORT_VID_DEF_VID (i : Nat) : Fld := ⟨0x200010 + 0x800 * i, 0, 12⟩
def SLU_WIN_SEL_BANK : Fld := ⟨0x50000, 31, 1⟩
def SLU_WIN_SEL_DIR : Fld := ⟨0x50000, 16, 1⟩
def SLU_WIN_SEL_PORT : Fld := ⟨0x50000, 0, 10⟩
def SLU_EVT_LOW_STARVE : Fld := ⟨0x50004, 2, 1⟩
def SLU_EVT_DEMOTE : Fld := ⟨0x50004, 1, 1⟩
def SLU_EVT_MM_FAIL : Fld := ⟨0x50004, 0, 1⟩
def SLU_EVT_EN_EN : Fld := ⟨0x50008, 0, 3⟩
def SLU_MM_CTL_VERIFY_MS (i : Nat) : Fld := ⟨0x50400 + 8 * i, 4, 8⟩
def SLU_MM_CTL_VERIFY_DIS (i : Nat) : Fld := ⟨0x50400 + 8 * i, 1, 1⟩
def SLU_MM_CTL_EN (i : Nat) : Fld := ⟨0x50400 + 8 * i, 0, 1⟩
def SLU_MM_STS_ACTIVE (i : Nat) : Fld := ⟨0x50404 + 8 * i, 3, 1⟩
def SLU_MM_STS_VSTATE (i : Nat) : Fld := ⟨0x50404 + 8 * i, 0, 3⟩
def SLU_MM_FRAG_COUNT (i : Nat) : Fld := ⟨0x50500 + 4 * i, 0, 32⟩
def SLU_RX_CFG_DIKE_OPEN (i : Nat) : Fld := ⟨0x200080 + 0x800 * i, 31, 1⟩
def SLU_RX_CFG_NENT (i : Nat) : Fld := ⟨0x200080 + 0x800 * i, 0, 7⟩
def SLU_TX_CFG_DIKE_OPEN (i : Nat) : Fld := ⟨0x200084 + 0x800 * i, 31, 1⟩
def SLU_TX_CFG_NENT (i : Nat) : Fld := ⟨0x200084 + 0x800 * i, 0, 7⟩
def SLU_RX_BUDGET_BUDGET (i : Nat) : Fld := ⟨0x200088 + 0x800 * i, 0, 32⟩
def SLU_TX_BUDGET_BUDGET (i : Nat) : Fld := ⟨0x20008C + 0x800 * i, 0, 32⟩
def SLU_RX_LEFT_LEFT (i : Nat) : Fld := ⟨0x200090 + 0x800 * i, 0, 32⟩
def SLU_TX_LEFT_LEFT (i : Nat) : Fld := ⟨0x200094 + 0x800 * i, 0, 32⟩
def SLU_RX_STATE_GATE (i : Nat) : Fld := ⟨0x200098 + 0x800 * i, 24, 8⟩
def SLU_RX_STATE_ENTRY (i : Nat) : Fld := ⟨0x200098 + 0x800 * i, 16, 6⟩
def SLU_RX_STATE_CLEARING (i : Nat) : Fld := ⟨0x200098 + 0x800 * i, 0, 1⟩
def SLU_TX_STATE_GATE (i : Nat) : Fld := ⟨0x20009C + 0x800 * i, 24, 8⟩
def SLU_TX_STATE_ENTRY (i : Nat) : Fld := ⟨0x20009C + 0x800 * i, 16, 6⟩
def SLU_TX_STATE_CLEARING (i : Nat) : Fld := ⟨0x20009C + 0x800 * i, 0, 1⟩
def SLU_LAT_MAX_MAX (i : Nat) : Fld := ⟨0x2000A4 + 0x800 * i, 0, 32⟩
def KEY_SLOT_SEL_SEL : Fld := ⟨0x80100, 0, 15⟩
def FPX_CORE_STS_RETIRED : Fld := ⟨0x60000, 16, 12⟩
def FPX_CORE_STS_INSVC : Fld := ⟨0x60000, 0, 12⟩
def FPX_EVT_ROLLOVER_FAIL : Fld := ⟨0x60004, 9, 1⟩
def FPX_EVT_STOMP : Fld := ⟨0x60004, 8, 1⟩
def FPX_EVT_POISON_OUT : Fld := ⟨0x60004, 7, 1⟩
def FPX_EVT_STOMP_LATE : Fld := ⟨0x60004, 6, 1⟩
def FPX_EVT_ROLLOVER_LATE : Fld := ⟨0x60004, 5, 1⟩
def FPX_EVT_ROLLOVER_DONE : Fld := ⟨0x60004, 4, 1⟩
def FPX_EVT_CORE_RETIRED : Fld := ⟨0x60004, 3, 1⟩
def FPX_EVT_KEY_NO_SUCC : Fld := ⟨0x60004, 2, 1⟩
def FPX_EVT_KEY_EXHAUSTED : Fld := ⟨0x60004, 1, 1⟩
def FPX_EVT_KEY_WARN : Fld := ⟨0x60004, 0, 1⟩
def FPX_EVT_EN_EN : Fld := ⟨0x60008, 0, 10⟩
def FPX_LANE_SECY_CTL_RX_EN (i : Nat) : Fld := ⟨0x61000 + 0x200 * i, 31, 1⟩
def FPX_LANE_SECY_CTL_TX_EN (i : Nat) : Fld := ⟨0x61000 + 0x200 * i, 30, 1⟩
def FPX_LANE_SECY_CTL_SUITE (i : Nat) : Fld := ⟨0x61000 + 0x200 * i, 28, 2⟩
def FPX_LANE_SECY_CTL_VALIDATE (i : Nat) : Fld := ⟨0x61000 + 0x200 * i, 26, 2⟩
def FPX_LANE_SECY_CTL_PROTECT (i : Nat) : Fld := ⟨0x61000 + 0x200 * i, 25, 1⟩
def FPX_LANE_SECY_CTL_CONF (i : Nat) : Fld := ⟨0x61000 + 0x200 * i, 24, 1⟩
def FPX_LANE_SECY_CTL_OFFSET (i : Nat) : Fld := ⟨0x61000 + 0x200 * i, 22, 2⟩
def FPX_LANE_SECY_CTL_REPLAY (i : Nat) : Fld := ⟨0x61000 + 0x200 * i, 21, 1⟩
def FPX_LANE_SECY_CTL_SCI_TX (i : Nat) : Fld := ⟨0x61000 + 0x200 * i, 20, 1⟩
def FPX_LANE_SECY_CTL_ES (i : Nat) : Fld := ⟨0x61000 + 0x200 * i, 19, 1⟩
def FPX_LANE_SECY_CTL_SCB (i : Nat) : Fld := ⟨0x61000 + 0x200 * i, 18, 1⟩
def FPX_LANE_SECY_CTL_TX_AN (i : Nat) : Fld := ⟨0x61000 + 0x200 * i, 16, 2⟩
def FPX_LANE_TX_SCI_LO_V (i : Nat) : Fld := ⟨0x61004 + 0x200 * i, 0, 32⟩
def FPX_LANE_TX_SCI_HI_V (i : Nat) : Fld := ⟨0x61008 + 0x200 * i, 0, 32⟩
def FPX_LANE_RX_SCI_LO_V (i : Nat) : Fld := ⟨0x6100C + 0x200 * i, 0, 32⟩
def FPX_LANE_RX_SCI_HI_V (i : Nat) : Fld := ⟨0x61010 + 0x200 * i, 0, 32⟩
def FPX_LANE_RX_WINDOW_V (i : Nat) : Fld := ⟨0x61014 + 0x200 * i, 0, 32⟩
def FPX_LANE_RX_AN0_CTL_EN (i : Nat) : Fld := ⟨0x61040 + 0x200 * i, 31, 1⟩
def FPX_LANE_RX_AN0_CTL_KEY_SLOT (i : Nat) : Fld := ⟨0x61040 + 0x200 * i, 0, 15⟩
def FPX_LANE_RX_AN0_LPN_LO_V (i : Nat) : Fld := ⟨0x61044 + 0x200 * i, 0, 32⟩
def FPX_LANE_RX_AN0_LPN_HI_V (i : Nat) : Fld := ⟨0x61048 + 0x200 * i, 0, 32⟩
def FPX_LANE_RX_AN0_SSCI_V (i : Nat) : Fld := ⟨0x6104C + 0x200 * i, 0, 32⟩
def FPX_LANE_RX_AN0_HPN_LO_V (i : Nat) : Fld := ⟨0x61050 + 0x200 * i, 0, 32⟩
def FPX_LANE_RX_AN0_HPN_HI_V (i : Nat) : Fld := ⟨0x61054 + 0x200 * i, 0, 32⟩
def FPX_LANE_RX_AN1_CTL_EN (i : Nat) : Fld := ⟨0x61060 + 0x200 * i, 31, 1⟩
def FPX_LANE_RX_AN1_CTL_KEY_SLOT (i : Nat) : Fld := ⟨0x61060 + 0x200 * i, 0, 15⟩
def FPX_LANE_RX_AN1_LPN_LO_V (i : Nat) : Fld := ⟨0x61064 + 0x200 * i, 0, 32⟩
def FPX_LANE_RX_AN1_LPN_HI_V (i : Nat) : Fld := ⟨0x61068 + 0x200 * i, 0, 32⟩
def FPX_LANE_RX_AN1_SSCI_V (i : Nat) : Fld := ⟨0x6106C + 0x200 * i, 0, 32⟩
def FPX_LANE_RX_AN1_HPN_LO_V (i : Nat) : Fld := ⟨0x61070 + 0x200 * i, 0, 32⟩
def FPX_LANE_RX_AN1_HPN_HI_V (i : Nat) : Fld := ⟨0x61074 + 0x200 * i, 0, 32⟩
def FPX_LANE_RX_AN2_CTL_EN (i : Nat) : Fld := ⟨0x61080 + 0x200 * i, 31, 1⟩
def FPX_LANE_RX_AN2_CTL_KEY_SLOT (i : Nat) : Fld := ⟨0x61080 + 0x200 * i, 0, 15⟩
def FPX_LANE_RX_AN2_LPN_LO_V (i : Nat) : Fld := ⟨0x61084 + 0x200 * i, 0, 32⟩
def FPX_LANE_RX_AN2_LPN_HI_V (i : Nat) : Fld := ⟨0x61088 + 0x200 * i, 0, 32⟩
def FPX_LANE_RX_AN2_SSCI_V (i : Nat) : Fld := ⟨0x6108C + 0x200 * i, 0, 32⟩
def FPX_LANE_RX_AN2_HPN_LO_V (i : Nat) : Fld := ⟨0x61090 + 0x200 * i, 0, 32⟩
def FPX_LANE_RX_AN2_HPN_HI_V (i : Nat) : Fld := ⟨0x61094 + 0x200 * i, 0, 32⟩
def FPX_LANE_RX_AN3_CTL_EN (i : Nat) : Fld := ⟨0x610A0 + 0x200 * i, 31, 1⟩
def FPX_LANE_RX_AN3_CTL_KEY_SLOT (i : Nat) : Fld := ⟨0x610A0 + 0x200 * i, 0, 15⟩
def FPX_LANE_RX_AN3_LPN_LO_V (i : Nat) : Fld := ⟨0x610A4 + 0x200 * i, 0, 32⟩
def FPX_LANE_RX_AN3_LPN_HI_V (i : Nat) : Fld := ⟨0x610A8 + 0x200 * i, 0, 32⟩
def FPX_LANE_RX_AN3_SSCI_V (i : Nat) : Fld := ⟨0x610AC + 0x200 * i, 0, 32⟩
def FPX_LANE_RX_AN3_HPN_LO_V (i : Nat) : Fld := ⟨0x610B0 + 0x200 * i, 0, 32⟩
def FPX_LANE_RX_AN3_HPN_HI_V (i : Nat) : Fld := ⟨0x610B4 + 0x200 * i, 0, 32⟩
def FPX_LANE_TX_AN0_CTL_EN (i : Nat) : Fld := ⟨0x610C0 + 0x200 * i, 31, 1⟩
def FPX_LANE_TX_AN0_CTL_KEY_SLOT (i : Nat) : Fld := ⟨0x610C0 + 0x200 * i, 0, 15⟩
def FPX_LANE_TX_AN0_NPN_LO_V (i : Nat) : Fld := ⟨0x610C4 + 0x200 * i, 0, 32⟩
def FPX_LANE_TX_AN0_NPN_HI_V (i : Nat) : Fld := ⟨0x610C8 + 0x200 * i, 0, 32⟩
def FPX_LANE_TX_AN0_SSCI_V (i : Nat) : Fld := ⟨0x610CC + 0x200 * i, 0, 32⟩
def FPX_LANE_TX_AN1_CTL_EN (i : Nat) : Fld := ⟨0x610E0 + 0x200 * i, 31, 1⟩
def FPX_LANE_TX_AN1_CTL_KEY_SLOT (i : Nat) : Fld := ⟨0x610E0 + 0x200 * i, 0, 15⟩
def FPX_LANE_TX_AN1_NPN_LO_V (i : Nat) : Fld := ⟨0x610E4 + 0x200 * i, 0, 32⟩
def FPX_LANE_TX_AN1_NPN_HI_V (i : Nat) : Fld := ⟨0x610E8 + 0x200 * i, 0, 32⟩
def FPX_LANE_TX_AN1_SSCI_V (i : Nat) : Fld := ⟨0x610EC + 0x200 * i, 0, 32⟩
def FPX_LANE_TX_AN2_CTL_EN (i : Nat) : Fld := ⟨0x61100 + 0x200 * i, 31, 1⟩
def FPX_LANE_TX_AN2_CTL_KEY_SLOT (i : Nat) : Fld := ⟨0x61100 + 0x200 * i, 0, 15⟩
def FPX_LANE_TX_AN2_NPN_LO_V (i : Nat) : Fld := ⟨0x61104 + 0x200 * i, 0, 32⟩
def FPX_LANE_TX_AN2_NPN_HI_V (i : Nat) : Fld := ⟨0x61108 + 0x200 * i, 0, 32⟩
def FPX_LANE_TX_AN2_SSCI_V (i : Nat) : Fld := ⟨0x6110C + 0x200 * i, 0, 32⟩
def FPX_LANE_TX_AN3_CTL_EN (i : Nat) : Fld := ⟨0x61120 + 0x200 * i, 31, 1⟩
def FPX_LANE_TX_AN3_CTL_KEY_SLOT (i : Nat) : Fld := ⟨0x61120 + 0x200 * i, 0, 15⟩
def FPX_LANE_TX_AN3_NPN_LO_V (i : Nat) : Fld := ⟨0x61124 + 0x200 * i, 0, 32⟩
def FPX_LANE_TX_AN3_NPN_HI_V (i : Nat) : Fld := ⟨0x61128 + 0x200 * i, 0, 32⟩
def FPX_LANE_TX_AN3_SSCI_V (i : Nat) : Fld := ⟨0x6112C + 0x200 * i, 0, 32⟩
def FPX_SECY_CTL_RX_EN (i : Nat) : Fld := ⟨0x200180 + 0x800 * i, 31, 1⟩
def FPX_SECY_CTL_TX_EN (i : Nat) : Fld := ⟨0x200180 + 0x800 * i, 30, 1⟩
def FPX_SECY_CTL_SUITE (i : Nat) : Fld := ⟨0x200180 + 0x800 * i, 28, 2⟩
def FPX_SECY_CTL_VALIDATE (i : Nat) : Fld := ⟨0x200180 + 0x800 * i, 26, 2⟩
def FPX_SECY_CTL_PROTECT (i : Nat) : Fld := ⟨0x200180 + 0x800 * i, 25, 1⟩
def FPX_SECY_CTL_CONF (i : Nat) : Fld := ⟨0x200180 + 0x800 * i, 24, 1⟩
def FPX_SECY_CTL_OFFSET (i : Nat) : Fld := ⟨0x200180 + 0x800 * i, 22, 2⟩
def FPX_SECY_CTL_REPLAY (i : Nat) : Fld := ⟨0x200180 + 0x800 * i, 21, 1⟩
def FPX_SECY_CTL_SCI_TX (i : Nat) : Fld := ⟨0x200180 + 0x800 * i, 20, 1⟩
def FPX_SECY_CTL_ES (i : Nat) : Fld := ⟨0x200180 + 0x800 * i, 19, 1⟩
def FPX_SECY_CTL_SCB (i : Nat) : Fld := ⟨0x200180 + 0x800 * i, 18, 1⟩
def FPX_SECY_CTL_TX_AN (i : Nat) : Fld := ⟨0x200180 + 0x800 * i, 16, 2⟩
def FPX_TX_SCI_LO_V (i : Nat) : Fld := ⟨0x200184 + 0x800 * i, 0, 32⟩
def FPX_TX_SCI_HI_V (i : Nat) : Fld := ⟨0x200188 + 0x800 * i, 0, 32⟩
def FPX_RX_SCI_LO_V (i : Nat) : Fld := ⟨0x20018C + 0x800 * i, 0, 32⟩
def FPX_RX_SCI_HI_V (i : Nat) : Fld := ⟨0x200190 + 0x800 * i, 0, 32⟩
def FPX_RX_WINDOW_V (i : Nat) : Fld := ⟨0x200194 + 0x800 * i, 0, 32⟩
def FPX_RX_AN0_CTL_EN (i : Nat) : Fld := ⟨0x2001C0 + 0x800 * i, 31, 1⟩
def FPX_RX_AN0_CTL_KEY_SLOT (i : Nat) : Fld := ⟨0x2001C0 + 0x800 * i, 0, 15⟩
def FPX_RX_AN0_LPN_LO_V (i : Nat) : Fld := ⟨0x2001C4 + 0x800 * i, 0, 32⟩
def FPX_RX_AN0_LPN_HI_V (i : Nat) : Fld := ⟨0x2001C8 + 0x800 * i, 0, 32⟩
def FPX_RX_AN0_SSCI_V (i : Nat) : Fld := ⟨0x2001CC + 0x800 * i, 0, 32⟩
def FPX_RX_AN0_HPN_LO_V (i : Nat) : Fld := ⟨0x2001D0 + 0x800 * i, 0, 32⟩
def FPX_RX_AN0_HPN_HI_V (i : Nat) : Fld := ⟨0x2001D4 + 0x800 * i, 0, 32⟩
def FPX_RX_AN1_CTL_EN (i : Nat) : Fld := ⟨0x2001E0 + 0x800 * i, 31, 1⟩
def FPX_RX_AN1_CTL_KEY_SLOT (i : Nat) : Fld := ⟨0x2001E0 + 0x800 * i, 0, 15⟩
def FPX_RX_AN1_LPN_LO_V (i : Nat) : Fld := ⟨0x2001E4 + 0x800 * i, 0, 32⟩
def FPX_RX_AN1_LPN_HI_V (i : Nat) : Fld := ⟨0x2001E8 + 0x800 * i, 0, 32⟩
def FPX_RX_AN1_SSCI_V (i : Nat) : Fld := ⟨0x2001EC + 0x800 * i, 0, 32⟩
def FPX_RX_AN1_HPN_LO_V (i : Nat) : Fld := ⟨0x2001F0 + 0x800 * i, 0, 32⟩
def FPX_RX_AN1_HPN_HI_V (i : Nat) : Fld := ⟨0x2001F4 + 0x800 * i, 0, 32⟩
def FPX_RX_AN2_CTL_EN (i : Nat) : Fld := ⟨0x200200 + 0x800 * i, 31, 1⟩
def FPX_RX_AN2_CTL_KEY_SLOT (i : Nat) : Fld := ⟨0x200200 + 0x800 * i, 0, 15⟩
def FPX_RX_AN2_LPN_LO_V (i : Nat) : Fld := ⟨0x200204 + 0x800 * i, 0, 32⟩
def FPX_RX_AN2_LPN_HI_V (i : Nat) : Fld := ⟨0x200208 + 0x800 * i, 0, 32⟩
def FPX_RX_AN2_SSCI_V (i : Nat) : Fld := ⟨0x20020C + 0x800 * i, 0, 32⟩
def FPX_RX_AN2_HPN_LO_V (i : Nat) : Fld := ⟨0x200210 + 0x800 * i, 0, 32⟩
def FPX_RX_AN2_HPN_HI_V (i : Nat) : Fld := ⟨0x200214 + 0x800 * i, 0, 32⟩
def FPX_RX_AN3_CTL_EN (i : Nat) : Fld := ⟨0x200220 + 0x800 * i, 31, 1⟩
def FPX_RX_AN3_CTL_KEY_SLOT (i : Nat) : Fld := ⟨0x200220 + 0x800 * i, 0, 15⟩
def FPX_RX_AN3_LPN_LO_V (i : Nat) : Fld := ⟨0x200224 + 0x800 * i, 0, 32⟩
def FPX_RX_AN3_LPN_HI_V (i : Nat) : Fld := ⟨0x200228 + 0x800 * i, 0, 32⟩
def FPX_RX_AN3_SSCI_V (i : Nat) : Fld := ⟨0x20022C + 0x800 * i, 0, 32⟩
def FPX_RX_AN3_HPN_LO_V (i : Nat) : Fld := ⟨0x200230 + 0x800 * i, 0, 32⟩
def FPX_RX_AN3_HPN_HI_V (i : Nat) : Fld := ⟨0x200234 + 0x800 * i, 0, 32⟩
def FPX_TX_AN0_CTL_EN (i : Nat) : Fld := ⟨0x200240 + 0x800 * i, 31, 1⟩
def FPX_TX_AN0_CTL_KEY_SLOT (i : Nat) : Fld := ⟨0x200240 + 0x800 * i, 0, 15⟩
def FPX_TX_AN0_NPN_LO_V (i : Nat) : Fld := ⟨0x200244 + 0x800 * i, 0, 32⟩
def FPX_TX_AN0_NPN_HI_V (i : Nat) : Fld := ⟨0x200248 + 0x800 * i, 0, 32⟩
def FPX_TX_AN0_SSCI_V (i : Nat) : Fld := ⟨0x20024C + 0x800 * i, 0, 32⟩
def FPX_TX_AN1_CTL_EN (i : Nat) : Fld := ⟨0x200260 + 0x800 * i, 31, 1⟩
def FPX_TX_AN1_CTL_KEY_SLOT (i : Nat) : Fld := ⟨0x200260 + 0x800 * i, 0, 15⟩
def FPX_TX_AN1_NPN_LO_V (i : Nat) : Fld := ⟨0x200264 + 0x800 * i, 0, 32⟩
def FPX_TX_AN1_NPN_HI_V (i : Nat) : Fld := ⟨0x200268 + 0x800 * i, 0, 32⟩
def FPX_TX_AN1_SSCI_V (i : Nat) : Fld := ⟨0x20026C + 0x800 * i, 0, 32⟩
def FPX_TX_AN2_CTL_EN (i : Nat) : Fld := ⟨0x200280 + 0x800 * i, 31, 1⟩
def FPX_TX_AN2_CTL_KEY_SLOT (i : Nat) : Fld := ⟨0x200280 + 0x800 * i, 0, 15⟩
def FPX_TX_AN2_NPN_LO_V (i : Nat) : Fld := ⟨0x200284 + 0x800 * i, 0, 32⟩
def FPX_TX_AN2_NPN_HI_V (i : Nat) : Fld := ⟨0x200288 + 0x800 * i, 0, 32⟩
def FPX_TX_AN2_SSCI_V (i : Nat) : Fld := ⟨0x20028C + 0x800 * i, 0, 32⟩
def FPX_TX_AN3_CTL_EN (i : Nat) : Fld := ⟨0x2002A0 + 0x800 * i, 31, 1⟩
def FPX_TX_AN3_CTL_KEY_SLOT (i : Nat) : Fld := ⟨0x2002A0 + 0x800 * i, 0, 15⟩
def FPX_TX_AN3_NPN_LO_V (i : Nat) : Fld := ⟨0x2002A4 + 0x800 * i, 0, 32⟩
def FPX_TX_AN3_NPN_HI_V (i : Nat) : Fld := ⟨0x2002A8 + 0x800 * i, 0, 32⟩
def FPX_TX_AN3_SSCI_V (i : Nat) : Fld := ⟨0x2002AC + 0x800 * i, 0, 32⟩
def LNE_EVT_WAKE : Fld := ⟨0x30000, 3, 1⟩
def LNE_EVT_REFCLK_LOST : Fld := ⟨0x30000, 2, 1⟩
def LNE_EVT_LINK_DOWN : Fld := ⟨0x30000, 1, 1⟩
def LNE_EVT_LINK_UP : Fld := ⟨0x30000, 0, 1⟩
def LNE_EVT_EN_EN : Fld := ⟨0x30004, 0, 4⟩
def LNE_REFCLK_STS_GOOD : Fld := ⟨0x30008, 0, 4⟩
def LNE_LANE_CTL_EN (i : Nat) : Fld := ⟨0x30100 + 0x20 * i, 31, 1⟩
def LNE_LANE_CTL_EXT (i : Nat) : Fld := ⟨0x30100 + 0x20 * i, 30, 1⟩
def LNE_LANE_CTL_MODE (i : Nat) : Fld := ⟨0x30100 + 0x20 * i, 27, 3⟩
def LNE_LANE_CTL_FEC (i : Nat) : Fld := ⟨0x30100 + 0x20 * i, 25, 2⟩
def LNE_LANE_CTL_AN (i : Nat) : Fld := ⟨0x30100 + 0x20 * i, 24, 1⟩
def LNE_LANE_CTL_WAKE_SD (i : Nat) : Fld := ⟨0x30100 + 0x20 * i, 23, 1⟩
def LNE_LANE_CTL_WAKE_PAT (i : Nat) : Fld := ⟨0x30100 + 0x20 * i, 22, 1⟩
def LNE_LANE_CTL_UP_HOLD (i : Nat) : Fld := ⟨0x30100 + 0x20 * i, 8, 8⟩
def LNE_LANE_CTL_TX_INV (i : Nat) : Fld := ⟨0x30100 + 0x20 * i, 1, 1⟩
def LNE_LANE_CTL_RX_INV (i : Nat) : Fld := ⟨0x30100 + 0x20 * i, 0, 1⟩
def LNE_LANE_STS_STATE (i : Nat) : Fld := ⟨0x30104 + 0x20 * i, 29, 3⟩
def LNE_LANE_STS_SIG (i : Nat) : Fld := ⟨0x30104 + 0x20 * i, 28, 1⟩
def LNE_LANE_STS_LOCK (i : Nat) : Fld := ⟨0x30104 + 0x20 * i, 27, 1⟩
def LNE_LANE_STS_FEC_ALIGN (i : Nat) : Fld := ⟨0x30104 + 0x20 * i, 26, 1⟩
def LNE_LANE_STS_HI_BER (i : Nat) : Fld := ⟨0x30104 + 0x20 * i, 25, 1⟩
def LNE_LANE_STS_LF (i : Nat) : Fld := ⟨0x30104 + 0x20 * i, 24, 1⟩
def LNE_LANE_STS_RF (i : Nat) : Fld := ⟨0x30104 + 0x20 * i, 23, 1⟩
def LNE_LANE_STS_SPEED (i : Nat) : Fld := ⟨0x30104 + 0x20 * i, 18, 2⟩
def LNE_LANE_FEC_CORR_COUNT (i : Nat) : Fld := ⟨0x30108 + 0x20 * i, 0, 32⟩
def LNE_LANE_FEC_UNCORR_COUNT (i : Nat) : Fld := ⟨0x3010C + 0x20 * i, 0, 32⟩
def LNE_LANE_ERR_BLOCK_COUNT (i : Nat) : Fld := ⟨0x30110 + 0x20 * i, 0, 32⟩
def LNE_LANE_LINK_DOWNS_COUNT (i : Nat) : Fld := ⟨0x30114 + 0x20 * i, 0, 32⟩
def LNE_LANE_WAKE_FALSE_COUNT (i : Nat) : Fld := ⟨0x30118 + 0x20 * i, 0, 32⟩
def EXT_EVT_PAIR_BROKEN : Fld := ⟨0x40000, 6, 1⟩
def EXT_EVT_POOL_EMPTY : Fld := ⟨0x40000, 5, 1⟩
def EXT_EVT_RELEASED : Fld := ⟨0x40000, 4, 1⟩
def EXT_EVT_DIKE_HELD : Fld := ⟨0x40000, 3, 1⟩
def EXT_EVT_LOST : Fld := ⟨0x40000, 2, 1⟩
def EXT_EVT_ASSIGNED : Fld := ⟨0x40000, 1, 1⟩
def EXT_EVT_ENROL_FAIL : Fld := ⟨0x40000, 0, 1⟩
def EXT_EVT_EN_EN : Fld := ⟨0x40004, 0, 7⟩
def EXT_HOLD_HOLD : Fld := ⟨0x40008, 0, 10⟩
def EXT_LANE_ID_ID (i : Nat) : Fld := ⟨0x40104 + 0x10 * i, 0, 32⟩
def EXT_LANE_FAIL_FAILS (i : Nat) : Fld := ⟨0x40108 + 0x10 * i, 16, 16⟩
def EXT_LANE_FAIL_CAUSE (i : Nat) : Fld := ⟨0x40108 + 0x10 * i, 0, 16⟩
def EXT_LANE_DROP_COUNT (i : Nat) : Fld := ⟨0x4010C + 0x10 * i, 0, 32⟩
def CAL_EVT_KAT_STALE : Fld := ⟨0x150000, 6, 1⟩
def CAL_EVT_DEGRADED : Fld := ⟨0x150000, 5, 1⟩
def CAL_EVT_GAC_FAIL : Fld := ⟨0x150000, 4, 1⟩
def CAL_EVT_KAT_FAIL : Fld := ⟨0x150000, 3, 1⟩
def CAL_EVT_MARGIN_LOW : Fld := ⟨0x150000, 2, 1⟩
def CAL_EVT_LINK_STEP : Fld := ⟨0x150000, 1, 1⟩
def CAL_EVT_TS_RESET : Fld := ⟨0x150000, 0, 1⟩
def CAL_EVT_EN_EN : Fld := ⟨0x150004, 0, 7⟩
def CAL_KAT_CTL_EN : Fld := ⟨0x150008, 31, 1⟩
def CAL_KAT_CTL_GAP : Fld := ⟨0x150008, 0, 8⟩
def CAL_KAT_STS_LAST : Fld := ⟨0x15000C, 28, 4⟩
def CAL_KAT_STS_RESULT : Fld := ⟨0x15000C, 26, 2⟩
def CAL_KAT_STS_BUSY : Fld := ⟨0x15000C, 25, 1⟩
def CAL_KAT_STS_TESTED : Fld := ⟨0x15000C, 0, 12⟩
def CAL_KAT_PASS_COUNT : Fld := ⟨0x150010, 0, 32⟩
def CAL_KAT_ABORT_COUNT : Fld := ⟨0x150014, 0, 32⟩
def CAL_GAC_CHK_FAILS : Fld := ⟨0x150018, 24, 8⟩
def CAL_GAC_CHK_TAI : Fld := ⟨0x150018, 16, 1⟩
def CAL_GAC_CHK_DIFF : Fld := ⟨0x150018, 0, 16⟩
def CAL_GAC_CHK_CNT_COUNT : Fld := ⟨0x15001C, 0, 32⟩
def CAL_LANE_CTL_STEP_NS (i : Nat) : Fld := ⟨0x150100 + 0x10 * i, 16, 16⟩
def CAL_LANE_CTL_MARGIN_MIN (i : Nat) : Fld := ⟨0x150100 + 0x10 * i, 8, 8⟩
def CAL_LANE_CTL_KAT (i : Nat) : Fld := ⟨0x150100 + 0x10 * i, 4, 1⟩
def CAL_LANE_CTL_GAC (i : Nat) : Fld := ⟨0x150100 + 0x10 * i, 3, 1⟩
def CAL_LANE_CTL_MARGIN (i : Nat) : Fld := ⟨0x150100 + 0x10 * i, 2, 1⟩
def CAL_LANE_CTL_PDELAY (i : Nat) : Fld := ⟨0x150100 + 0x10 * i, 1, 1⟩
def CAL_LANE_CTL_TS_LOOP (i : Nat) : Fld := ⟨0x150100 + 0x10 * i, 0, 1⟩
def CAL_LANE_STS_NEXT (i : Nat) : Fld := ⟨0x150104 + 0x10 * i, 29, 3⟩
def CAL_LANE_STS_CLEARINGS (i : Nat) : Fld := ⟨0x150104 + 0x10 * i, 16, 3⟩
def CAL_LANE_SKIP_COUNT (i : Nat) : Fld := ⟨0x150108 + 0x10 * i, 0, 32⟩
def CAL_LANE_EYE_EYE_H (i : Nat) : Fld := ⟨0x15010C + 0x10 * i, 24, 8⟩
def CAL_LANE_EYE_EYE_V (i : Nat) : Fld := ⟨0x15010C + 0x10 * i, 16, 8⟩
def CAL_LANE_EYE_CTLE (i : Nat) : Fld := ⟨0x15010C + 0x10 * i, 8, 5⟩
def CAL_LANE_EYE_DFE1 (i : Nat) : Fld := ⟨0x15010C + 0x10 * i, 0, 8⟩
def CAL_TS_TX_OFS_OFS (i : Nat) : Fld := ⟨0x200680 + 0x800 * i, 0, 32⟩
def CAL_TS_RX_OFS_OFS (i : Nat) : Fld := ⟨0x200684 + 0x800 * i, 0, 32⟩
def CAL_TS_STS_CALIBRATED (i : Nat) : Fld := ⟨0x200688 + 0x800 * i, 31, 1⟩
def CAL_TS_STS_OUTLIERS (i : Nat) : Fld := ⟨0x200688 + 0x800 * i, 0, 16⟩
def CAL_LINK_DELAY_DELAY (i : Nat) : Fld := ⟨0x20068C + 0x800 * i, 0, 32⟩
def CAL_DELAY_ASYM_ASYM (i : Nat) : Fld := ⟨0x200690 + 0x800 * i, 0, 32⟩
def CAL_PDELAY_NOCLR_COUNT (i : Nat) : Fld := ⟨0x200694 + 0x800 * i, 0, 32⟩
def GRV_CTL_BKT_LOG2 : Fld := ⟨0xB0000, 16, 5⟩
def GRV_CTL_IL2 : Fld := ⟨0xB0000, 1, 1⟩
def GRV_CTL_EN : Fld := ⟨0xB0000, 0, 1⟩
def GRV_STATUS_STATE : Fld := ⟨0xB0004, 29, 3⟩
def GRV_STATUS_REGION : Fld := ⟨0xB0004, 28, 1⟩
def GRV_STATUS_IL2 : Fld := ⟨0xB0004, 27, 1⟩
def GRV_STATUS_BKT_LOG2 : Fld := ⟨0xB0004, 16, 6⟩
def GRV_STATUS_MIGRATED : Fld := ⟨0xB0004, 0, 16⟩
def GRV_EVT_MIGRATE_FAIL : Fld := ⟨0xB0008, 6, 1⟩
def GRV_EVT_MIGRATE_DONE : Fld := ⟨0xB0008, 5, 1⟩
def GRV_EVT_MEM_ADDED : Fld := ⟨0xB0008, 4, 1⟩
def GRV_EVT_MAC_FAIL : Fld := ⟨0xB0008, 3, 1⟩
def GRV_EVT_LINE_BAD : Fld := ⟨0xB0008, 2, 1⟩
def GRV_EVT_LOST : Fld := ⟨0xB0008, 1, 1⟩
def GRV_EVT_SERVING : Fld := ⟨0xB0008, 0, 1⟩
def GRV_EVT_EN_EN : Fld := ⟨0xB000C, 0, 7⟩
def GRV_ERR_ENTRY_VALID : Fld := ⟨0xB0014, 31, 1⟩
def GRV_ERR_ENTRY_INDEX : Fld := ⟨0xB0014, 0, 24⟩
def GRV_CXL_STS_TRAINED1 : Fld := ⟨0xB0018, 15, 1⟩
def GRV_CXL_STS_MAPPED1 : Fld := ⟨0xB0018, 14, 1⟩
def GRV_CXL_STS_AWAIT1 : Fld := ⟨0xB0018, 13, 1⟩
def GRV_CXL_STS_GT32_1 : Fld := ⟨0xB0018, 12, 1⟩
def GRV_CXL_STS_CAP1 : Fld := ⟨0xB0018, 8, 4⟩
def GRV_CXL_STS_TRAINED0 : Fld := ⟨0xB0018, 7, 1⟩
def GRV_CXL_STS_MAPPED0 : Fld := ⟨0xB0018, 6, 1⟩
def GRV_CXL_STS_AWAIT0 : Fld := ⟨0xB0018, 5, 1⟩
def GRV_CXL_STS_GT32_0 : Fld := ⟨0xB0018, 4, 1⟩
def GRV_CXL_STS_CAP0 : Fld := ⟨0xB0018, 0, 4⟩
def GRV_FILL_LAT_MAX_MAX : Fld := ⟨0xB001C, 0, 32⟩
def GRV_FILLS_LO_V : Fld := ⟨0xB0020, 0, 32⟩
def GRV_FILLS_HI_V : Fld := ⟨0xB0024, 0, 32⟩
def GRV_WB_LO_V : Fld := ⟨0xB0028, 0, 32⟩
def GRV_WB_HI_V : Fld := ⟨0xB002C, 0, 32⟩
def GRV_MAC_FAIL_CNT_COUNT : Fld := ⟨0xB0030, 0, 32⟩
def GRV_CXL_CAP_MIB (i : Nat) : Fld := ⟨0xB0034 + 4 * i, 0, 17⟩
def CPS_CTL_NEG_TTL : Fld := ⟨0xB0100, 0, 8⟩
def CPS_HITS_LO_V : Fld := ⟨0xB0110, 0, 32⟩
def CPS_HITS_HI_V : Fld := ⟨0xB0114, 0, 32⟩
def CPS_MISSES_LO_V : Fld := ⟨0xB0118, 0, 32⟩
def CPS_MISSES_HI_V : Fld := ⟨0xB011C, 0, 32⟩
def CPS_NEG_HITS_LO_V : Fld := ⟨0xB0120, 0, 32⟩
def CPS_NEG_HITS_HI_V : Fld := ⟨0xB0124, 0, 32⟩
def CPS_NOFILL_COUNT : Fld := ⟨0xB0128, 0, 32⟩
def CPS_WB_LOST_COUNT : Fld := ⟨0xB012C, 0, 32⟩
def ECC_EVT_BLZ_FROZEN : Fld := ⟨0xC0000, 2, 1⟩
def ECC_EVT_ADDR_ERR : Fld := ⟨0xC0000, 1, 1⟩
def ECC_EVT_UNCORR : Fld := ⟨0xC0000, 0, 1⟩
def ECC_EVT_EN_EN : Fld := ⟨0xC0004, 0, 3⟩
def ECC_UNC_ADDR_LO_OFS : Fld := ⟨0xC0008, 0, 32⟩
def ECC_UNC_ADDR_HI_VALID : Fld := ⟨0xC000C, 31, 1⟩
def ECC_UNC_ADDR_HI_ADDR : Fld := ⟨0xC000C, 30, 1⟩
def ECC_UNC_ADDR_HI_REGION : Fld := ⟨0xC000C, 16, 8⟩
def ECC_UNC_ADDR_HI_OFS : Fld := ⟨0xC000C, 0, 8⟩
def ECC_CORR_COUNT (i : Nat) : Fld := ⟨0xC0100 + 8 * i, 0, 32⟩
def ECC_UNCORR_COUNT (i : Nat) : Fld := ⟨0xC0104 + 8 * i, 0, 32⟩
def SWP_CTL_CXL_EN : Fld := ⟨0xC0200, 1, 1⟩
def SWP_CTL_SRAM_EN : Fld := ⟨0xC0200, 0, 1⟩
def SWP_SRAM_RATE_RATE : Fld := ⟨0xC0204, 0, 16⟩
def SWP_CXL_RATE_RATE : Fld := ⟨0xC0208, 0, 16⟩
def SWP_SRAM_POS_REGION : Fld := ⟨0xC020C, 24, 4⟩
def SWP_SRAM_POS_LINE : Fld := ⟨0xC020C, 0, 18⟩
def SWP_CXL_POS_LINE : Fld := ⟨0xC0210, 0, 24⟩
def SWP_PASSES_GROVE : Fld := ⟨0xC0218, 16, 16⟩
def SWP_PASSES_SRAM : Fld := ⟨0xC0218, 0, 16⟩
def SWP_MISSED_COUNT : Fld := ⟨0xC021C, 0, 32⟩
def SWP_EVT_PASS : Fld := ⟨0xC0220, 1, 1⟩
def SWP_EVT_BEHIND : Fld := ⟨0xC0220, 0, 1⟩
def SWP_EVT_EN_EN : Fld := ⟨0xC0224, 0, 2⟩
def BLZ_LOST_COUNT : Fld := ⟨0xC0404, 0, 32⟩
def CUL_WIN_CTL_EN : Fld := ⟨0xD0000, 0, 1⟩
def CUL_WIN_BASE_LO_BASE : Fld := ⟨0xD0004, 0, 32⟩
def CUL_WIN_BASE_HI_BASE : Fld := ⟨0xD0008, 0, 32⟩
def CUL_WIN_SIZE_SIZE : Fld := ⟨0xD000C, 0, 5⟩
def CUL_ERR_PCIE_ERR : Fld := ⟨0xD0014, 2, 1⟩
def CUL_ERR_RING_BAD : Fld := ⟨0xD0014, 1, 1⟩
def CUL_ERR_WIN_BAD : Fld := ⟨0xD0014, 0, 1⟩
def CUL_ERR_INFO_EVENT : Fld := ⟨0xD0018, 8, 1⟩
def CUL_ERR_INFO_RING : Fld := ⟨0xD0018, 0, 8⟩
def CUL_EV_UNMAPPED_COUNT : Fld := ⟨0xD001C, 0, 32⟩
def CUL_EVMAP_NONE (i : Nat) : Fld := ⟨0xD0020 + 4 * i, 7, 1⟩
def CUL_EVMAP_RING (i : Nat) : Fld := ⟨0xD0020 + 4 * i, 0, 6⟩
def CUL_CRING_BASE_BASE (i : Nat) : Fld := ⟨0xD1000 + 0x10 * i, 7, 23⟩
def CUL_CRING_CTL_EN (i : Nat) : Fld := ⟨0xD1004 + 0x10 * i, 31, 1⟩
def CUL_CRING_CTL_IRQ (i : Nat) : Fld := ⟨0xD1004 + 0x10 * i, 30, 1⟩
def CUL_CRING_CTL_PRIO (i : Nat) : Fld := ⟨0xD1004 + 0x10 * i, 28, 2⟩
def CUL_CRING_CTL_ERING (i : Nat) : Fld := ⟨0xD1004 + 0x10 * i, 16, 6⟩
def CUL_CRING_CTL_SIZE (i : Nat) : Fld := ⟨0xD1004 + 0x10 * i, 0, 4⟩
def CUL_CRING_IDX_TAIL (i : Nat) : Fld := ⟨0xD1008 + 0x10 * i, 16, 16⟩
def CUL_CRING_IDX_HEAD (i : Nat) : Fld := ⟨0xD1008 + 0x10 * i, 0, 16⟩
def CUL_CRING_STS_STATE (i : Nat) : Fld := ⟨0xD100C + 0x10 * i, 30, 2⟩
def CUL_CRING_STS_CAUSE (i : Nat) : Fld := ⟨0xD100C + 0x10 * i, 0, 16⟩
def CUL_ERING_BASE_BASE (i : Nat) : Fld := ⟨0xD3000 + 0x20 * i, 5, 25⟩
def CUL_ERING_CTL_EN (i : Nat) : Fld := ⟨0xD3004 + 0x20 * i, 31, 1⟩
def CUL_ERING_CTL_RX (i : Nat) : Fld := ⟨0xD3004 + 0x20 * i, 30, 1⟩
def CUL_ERING_CTL_BUFSZ (i : Nat) : Fld := ⟨0xD3004 + 0x20 * i, 29, 1⟩
def CUL_ERING_CTL_SIZE (i : Nat) : Fld := ⟨0xD3004 + 0x20 * i, 0, 4⟩
def CUL_ERING_BUF_BUF (i : Nat) : Fld := ⟨0xD3008 + 0x20 * i, 11, 19⟩
def CUL_ERING_IDX_HEAD (i : Nat) : Fld := ⟨0xD300C + 0x20 * i, 16, 16⟩
def CUL_ERING_IDX_TAIL (i : Nat) : Fld := ⟨0xD300C + 0x20 * i, 0, 16⟩
def CUL_ERING_LOST_COUNT (i : Nat) : Fld := ⟨0xD3010 + 0x20 * i, 0, 32⟩
def CUL_RX_DROP_COUNT (i : Nat) : Fld := ⟨0xD3014 + 0x20 * i, 0, 32⟩
def CUL_ERING_STS_STATE (i : Nat) : Fld := ⟨0xD3018 + 0x20 * i, 30, 2⟩
def CUL_ERING_STS_CAUSE (i : Nat) : Fld := ⟨0xD3018 + 0x20 * i, 0, 16⟩
def DEV_ID_ID : Fld := ⟨0, 0, 32⟩
def DEV_VER_PART : Fld := ⟨4, 16, 16⟩
def DEV_VER_STEP : Fld := ⟨4, 8, 8⟩
def DEV_AEDUF_VER_VER : Fld := ⟨8, 0, 32⟩
def DEV_SCRATCH_SCRATCH (i : Nat) : Fld := ⟨0x10 + 4 * i, 0, 32⟩
def MSIX_ADDR_LO_ADDR (i : Nat) : Fld := ⟨0x1008000 + 0x10 * i, 0, 32⟩
def MSIX_ADDR_HI_ADDR (i : Nat) : Fld := ⟨0x1008004 + 0x10 * i, 0, 32⟩
def MSIX_DATA_DATA (i : Nat) : Fld := ⟨0x1008008 + 0x10 * i, 0, 32⟩
def MSIX_CTL_MASK (i : Nat) : Fld := ⟨0x100800C + 0x10 * i, 0, 1⟩
def MSIX_PBA_PEND (i : Nat) : Fld := ⟨0x100A000 + 4 * i, 0, 32⟩
def DMA_CTL_EN (i : Nat) : Fld := ⟨0xE1000 + 0x40 * i, 31, 1⟩
def DMA_CTL_ABORT (i : Nat) : Fld := ⟨0xE1000 + 0x40 * i, 30, 1⟩
def DMA_CTL_HALT_CORE (i : Nat) : Fld := ⟨0xE1000 + 0x40 * i, 29, 1⟩
def DMA_CTL_HALT_HOST (i : Nat) : Fld := ⟨0xE1000 + 0x40 * i, 28, 1⟩
def DMA_CTL_SIZE (i : Nat) : Fld := ⟨0xE1000 + 0x40 * i, 0, 4⟩
def DMA_RING_BASE_BASE (i : Nat) : Fld := ⟨0xE1004 + 0x40 * i, 5, 25⟩
def DMA_DOORBELL_TAIL (i : Nat) : Fld := ⟨0xE1008 + 0x40 * i, 0, 16⟩
def DMA_RING_IDX_TAIL (i : Nat) : Fld := ⟨0xE100C + 0x40 * i, 16, 16⟩
def DMA_RING_IDX_HEAD (i : Nat) : Fld := ⟨0xE100C + 0x40 * i, 0, 16⟩
def DMA_STS_STATE (i : Nat) : Fld := ⟨0xE1010 + 0x40 * i, 30, 2⟩
def DMA_STS_SHADOW (i : Nat) : Fld := ⟨0xE1010 + 0x40 * i, 29, 1⟩
def DMA_STS_CAUSE (i : Nat) : Fld := ⟨0xE1010 + 0x40 * i, 0, 16⟩
def DMA_ACT_DONE_DONE (i : Nat) : Fld := ⟨0xE1014 + 0x40 * i, 0, 32⟩
def DMA_ACT_IDX_SHADOW (i : Nat) : Fld := ⟨0xE1018 + 0x40 * i, 16, 16⟩
def DMA_ACT_IDX_ACTIVE (i : Nat) : Fld := ⟨0xE1018 + 0x40 * i, 0, 16⟩
def DMA_COUNT_COUNT (i : Nat) : Fld := ⟨0xE101C + 0x40 * i, 0, 32⟩
def DMA_GRANT_ASSIGNED (i : Nat) : Fld := ⟨0xE1020 + 0x40 * i, 31, 1⟩
def DMA_GRANT_EP (i : Nat) : Fld := ⟨0xE1020 + 0x40 * i, 16, 4⟩
def DMA_GRANT_OWNER (i : Nat) : Fld := ⟨0xE1020 + 0x40 * i, 0, 16⟩
def DMA_SRAM_LO_LO (i : Nat) : Fld := ⟨0xE1024 + 0x40 * i, 6, 16⟩
def DMA_SRAM_HI_HI (i : Nat) : Fld := ⟨0xE1028 + 0x40 * i, 6, 17⟩
def CFG_STATUS_SHADOW : Fld := ⟨0xF0000, 30, 2⟩
def CFG_STATUS_DRAIN : Fld := ⟨0xF0000, 28, 2⟩
def CFG_STATUS_SLOT : Fld := ⟨0xF0000, 27, 1⟩
def CFG_STATUS_DEFAULTS : Fld := ⟨0xF0000, 26, 1⟩
def CFG_STATUS_HELD : Fld := ⟨0xF0000, 25, 1⟩
def CFG_STATUS_HOLDER : Fld := ⟨0xF0000, 16, 6⟩
def CFG_EVT_BOOT_FALLBACK : Fld := ⟨0xF0004, 4, 1⟩
def CFG_EVT_SHADOW_DISCARDED : Fld := ⟨0xF0004, 3, 1⟩
def CFG_EVT_DRAIN_DONE : Fld := ⟨0xF0004, 2, 1⟩
def CFG_EVT_SWAP_LATE : Fld := ⟨0xF0004, 1, 1⟩
def CFG_EVT_SWAP_DONE : Fld := ⟨0xF0004, 0, 1⟩
def CFG_EVT_EN_EN : Fld := ⟨0xF0008, 0, 5⟩
def CFG_ACTIVE_SEQ_LO_V : Fld := ⟨0xF0010, 0, 32⟩
def CFG_ACTIVE_SEQ_HI_V : Fld := ⟨0xF0014, 0, 32⟩
def CFG_PEND_CYCLE_LO_V : Fld := ⟨0xF0018, 0, 32⟩
def CFG_PEND_CYCLE_HI_V : Fld := ⟨0xF001C, 0, 8⟩
def CFG_SEQ_A_LO_V : Fld := ⟨0xF0020, 0, 32⟩
def CFG_SEQ_A_HI_V : Fld := ⟨0xF0024, 0, 32⟩
def CFG_SEQ_B_LO_V : Fld := ⟨0xF0028, 0, 32⟩
def CFG_SEQ_B_HI_V : Fld := ⟨0xF002C, 0, 32⟩
def CFG_SWAPS_COUNT : Fld := ⟨0xF0030, 0, 32⟩
def TWN_CTL_EN : Fld := ⟨0x100000, 0, 1⟩
def TWN_STATUS_STATE : Fld := ⟨0x100004, 30, 2⟩
def TWN_STATUS_PEER_REF : Fld := ⟨0x100004, 29, 1⟩
def TWN_STATUS_TAKEOVER_PEND : Fld := ⟨0x100004, 28, 1⟩
def TWN_STATUS_AGREE_TIME : Fld := ⟨0x100004, 23, 1⟩
def TWN_STATUS_AGREE_CFG : Fld := ⟨0x100004, 22, 1⟩
def TWN_STATUS_AGREE_VER : Fld := ⟨0x100004, 21, 1⟩
def TWN_STATUS_AGREE_KEY : Fld := ⟨0x100004, 20, 1⟩
def TWN_EVT_TWIN_FAIL : Fld := ⟨0x100008, 9, 1⟩
def TWN_EVT_SCHED_MISSED : Fld := ⟨0x100008, 8, 1⟩
def TWN_EVT_SCHED_LATE : Fld := ⟨0x100008, 7, 1⟩
def TWN_EVT_LEADER_CHG : Fld := ⟨0x100008, 6, 1⟩
def TWN_EVT_KEY_DIFF : Fld := ⟨0x100008, 5, 1⟩
def TWN_EVT_SEQ_DIFF : Fld := ⟨0x100008, 4, 1⟩
def TWN_EVT_PEER_MISMATCH : Fld := ⟨0x100008, 3, 1⟩
def TWN_EVT_ROLE_CHG : Fld := ⟨0x100008, 2, 1⟩
def TWN_EVT_LINK_DOWN : Fld := ⟨0x100008, 1, 1⟩
def TWN_EVT_LINK_UP : Fld := ⟨0x100008, 0, 1⟩
def TWN_EVT_EN_EN : Fld := ⟨0x10000C, 0, 10⟩
def TWN_OFS_OFS : Fld := ⟨0x100010, 0, 32⟩
def TWN_LINK_STS_TL1 : Fld := ⟨0x100014, 31, 1⟩
def TWN_LINK_STS_TL0 : Fld := ⟨0x100014, 30, 1⟩
def TWN_LINK_STS_KEYED : Fld := ⟨0x100014, 29, 1⟩
def TWN_LINK_STS_BAD : Fld := ⟨0x100014, 0, 16⟩
def TWN_PEER_ID_ID : Fld := ⟨0x100018, 0, 32⟩
def TWN_PLD_STATUS_MEMBER_OF : Fld := ⟨0x100020, 31, 1⟩
def TWN_PLD_STATUS_LEADER : Fld := ⟨0x100020, 30, 1⟩
def TWN_PLD_STATUS_MEMBER : Fld := ⟨0x100020, 16, 12⟩
def TWN_PLD_STATUS_COUNTED : Fld := ⟨0x100020, 0, 13⟩
def TWN_PLD_ID_ID : Fld := ⟨0x100024, 0, 32⟩
def TWN_PLD_SEQ_SEQ : Fld := ⟨0x100028, 0, 32⟩
def TWN_PLD_CYC_LO_V : Fld := ⟨0x10002C, 0, 32⟩
def TWN_PLD_CYC_HI_V : Fld := ⟨0x100030, 0, 8⟩
def DEV_IRQ_CFG_EN (i : Nat) : Fld := ⟨0x1000 + 4 * i, 31, 1⟩
def DEV_IRQ_CFG_PRIO (i : Nat) : Fld := ⟨0x1000 + 4 * i, 0, 4⟩
def DEV_IRQ_PEND_PEND (i : Nat) : Fld := ⟨0x3000 + 4 * i, 0, 32⟩
def DEV_IRQ_CUR_ACTIVE (i : Nat) : Fld := ⟨0x3100 + 4 * i, 4, 1⟩
def DEV_IRQ_CUR_LEVEL (i : Nat) : Fld := ⟨0x3100 + 4 * i, 0, 4⟩
def DEV_IRQ_SET_SRC (i : Nat) : Fld := ⟨0x3120 + 4 * i, 0, 4⟩
def DEV_PAIR_CTL_START (i : Nat) : Fld := ⟨0x3200 + 0x10 * i, 1, 1⟩
def DEV_PAIR_CTL_RESET (i : Nat) : Fld := ⟨0x3200 + 0x10 * i, 0, 1⟩
def DEV_PAIR_STS_STATE (i : Nat) : Fld := ⟨0x3204 + 0x10 * i, 30, 2⟩
def DEV_PAIR_STS_REASON (i : Nat) : Fld := ⟨0x3204 + 0x10 * i, 0, 8⟩
def DEV_PAIR_CAUSE_CAUSE (i : Nat) : Fld := ⟨0x3208 + 0x10 * i, 0, 32⟩
def KEY_EVT_ZEROIZED : Fld := ⟨0x80004, 5, 1⟩
def KEY_EVT_WIN_REFUSED : Fld := ⟨0x80004, 4, 1⟩
def KEY_EVT_MOVE_ERR : Fld := ⟨0x80004, 3, 1⟩
def KEY_EVT_DERIVE_ERR : Fld := ⟨0x80004, 2, 1⟩
def KEY_EVT_ZEROIZE_DONE : Fld := ⟨0x80004, 1, 1⟩
def KEY_EVT_BREACH : Fld := ⟨0x80004, 0, 1⟩
def KEY_EVT_EN_EN : Fld := ⟨0x80008, 0, 6⟩
def KEY_KDF_CTL_GO : Fld := ⟨0x80010, 31, 1⟩
def KEY_KDF_CTL_SRC : Fld := ⟨0x80010, 30, 1⟩
def KEY_KDF_CTL_DEST : Fld := ⟨0x80010, 29, 1⟩
def KEY_KDF_CTL_BYTES : Fld := ⟨0x80010, 16, 7⟩
def KEY_KDF_CTL_SLOT : Fld := ⟨0x80010, 0, 15⟩
def KEY_KDF_ADDR_ADDR : Fld := ⟨0x80014, 0, 22⟩
def KEY_KDF_LEN_LEN : Fld := ⟨0x80018, 0, 9⟩
def KEY_MOVE_GO : Fld := ⟨0x80020, 31, 1⟩
def KEY_MOVE_DEST : Fld := ⟨0x80020, 30, 1⟩
def KEY_MOVE_CLEAR : Fld := ⟨0x80020, 29, 1⟩
def KEY_MOVE_FRAME : Fld := ⟨0x80020, 20, 1⟩
def KEY_MOVE_ALG : Fld := ⟨0x80020, 16, 4⟩
def KEY_MOVE_SLOT : Fld := ⟨0x80020, 0, 15⟩
def KEY_MOVE_ID_ID : Fld := ⟨0x80024, 0, 32⟩
def KEY_WIN_DROP_COUNT : Fld := ⟨0x8002C, 0, 32⟩
def KEY_ROOT_STS_VALID : Fld := ⟨0x80030, 31, 1⟩
def KEY_ROOT_STS_REGEN : Fld := ⟨0x80030, 30, 1⟩
def KEY_ROOT_STS_GEN : Fld := ⟨0x80030, 0, 16⟩
def CIQ_CTL_EN : Fld := ⟨0x70000, 31, 1⟩
def CIQ_CTL_SIZE : Fld := ⟨0x70000, 0, 8⟩
def CIQ_STS_QUIESCED : Fld := ⟨0x70004, 31, 1⟩
def CIQ_STS_FULL : Fld := ⟨0x70004, 16, 4⟩
def CIQ_STS_RUNNING : Fld := ⟨0x70004, 0, 16⟩
def CIQ_CRING_BASE_BASE : Fld := ⟨0x70008, 5, 17⟩
def CIQ_CRING_IDX_TAIL : Fld := ⟨0x7000C, 16, 16⟩
def CIQ_CRING_IDX_HEAD : Fld := ⟨0x7000C, 0, 16⟩
def CIQ_BLOCKS_LO_V : Fld := ⟨0x70020, 0, 32⟩
def CIQ_BLOCKS_HI_V : Fld := ⟨0x70024, 0, 32⟩
def CIQ_SUBMIT_WORD (i : Nat) : Fld := ⟨0x70100 + 0x40 * i, 0, 32⟩
def PKE_CTL_EN : Fld := ⟨0x90000, 31, 1⟩
def PKE_CTL_SIZE : Fld := ⟨0x90000, 0, 8⟩
def PKE_STS_BUSY : Fld := ⟨0x90004, 31, 1⟩
def PKE_STS_FULL : Fld := ⟨0x90004, 30, 1⟩
def PKE_STS_QUIESCED : Fld := ⟨0x90004, 29, 1⟩
def PKE_STS_KREG_FULL : Fld := ⟨0x90004, 28, 1⟩
def PKE_STS_SUSPENDED : Fld := ⟨0x90004, 20, 4⟩
def PKE_STS_OWNER : Fld := ⟨0x90004, 0, 16⟩
def PKE_EVT_DIP_RESTART : Fld := ⟨0x90008, 2, 1⟩
def PKE_EVT_QUEUE_FULL : Fld := ⟨0x90008, 1, 1⟩
def PKE_EVT_FAULT : Fld := ⟨0x90008, 0, 1⟩
def PKE_EVT_EN_EN : Fld := ⟨0x9000C, 0, 3⟩
def PKE_CRING_BASE_BASE : Fld := ⟨0x90010, 4, 18⟩
def PKE_CRING_IDX_TAIL : Fld := ⟨0x90014, 16, 16⟩
def PKE_CRING_IDX_HEAD : Fld := ⟨0x90014, 0, 16⟩
def PKE_JOBS_COUNT : Fld := ⟨0x90018, 0, 32⟩
def PKE_FAULTS_COUNT : Fld := ⟨0x9001C, 0, 32⟩
def PKE_SUBMIT_WORD : Fld := ⟨0x90100, 0, 32⟩
def RNG_STS_STATE : Fld := ⟨0xA0000, 30, 2⟩
def RNG_STS_CELL_OK : Fld := ⟨0xA0000, 24, 4⟩
def RNG_STS_CELL_RETRY : Fld := ⟨0xA0000, 20, 4⟩
def RNG_STS_CELL_RETIRED : Fld := ⟨0xA0000, 16, 4⟩
def RNG_STS_REQUESTS : Fld := ⟨0xA0000, 0, 16⟩
def RNG_EVT_BLOCKED : Fld := ⟨0xA0004, 3, 1⟩
def RNG_EVT_CELL_RETIRED : Fld := ⟨0xA0004, 2, 1⟩
def RNG_EVT_CELL_FAIL : Fld := ⟨0xA0004, 1, 1⟩
def RNG_EVT_TEST_MODE : Fld := ⟨0xA0004, 0, 1⟩
def RNG_EVT_EN_EN : Fld := ⟨0xA0008, 0, 4⟩
def RNG_FAILS_REP : Fld := ⟨0xA000C, 24, 8⟩
def RNG_FAILS_PROP : Fld := ⟨0xA000C, 16, 8⟩
def RNG_FAILS_LIVE : Fld := ⟨0xA000C, 8, 8⟩
def RNG_FAILS_LOCK : Fld := ⟨0xA000C, 0, 8⟩
def RNG_RESEEDS_COUNT : Fld := ⟨0xA0014, 0, 32⟩
def RNG_TEST_EN : Fld := ⟨0xA0020, 31, 1⟩
def RNG_TEST_CELL : Fld := ⟨0xA0020, 0, 2⟩
def RNG_CELL_TRIM (i : Nat) : Fld := ⟨0xA0040 + 4 * i, 24, 8⟩
def RNG_CELL_ONES (i : Nat) : Fld := ⟨0xA0040 + 4 * i, 0, 11⟩
def NVA_OP_GO : Fld := ⟨0x110000, 31, 1⟩
def NVA_OP_RESTORE : Fld := ⟨0x110000, 30, 1⟩
def NVA_OP_KIND : Fld := ⟨0x110000, 28, 2⟩
def NVA_OP_SECTOR : Fld := ⟨0x110000, 16, 12⟩
def NVA_OP_ARG_COUNT : Fld := ⟨0x110004, 16, 12⟩
def NVA_OP_ARG_WORD : Fld := ⟨0x110004, 0, 9⟩
def NVA_STATUS_BUSY : Fld := ⟨0x110008, 31, 1⟩
def NVA_STATUS_DIP : Fld := ⟨0x110008, 30, 1⟩
def NVA_STATUS_RESULT : Fld := ⟨0x110008, 0, 16⟩
def NVA_FAIL_ADDR_ADDR : Fld := ⟨0x11000C, 0, 24⟩
def NVA_EVT_PROT_REFUSED : Fld := ⟨0x110010, 7, 1⟩
def NVA_EVT_JOURNAL_REDO : Fld := ⟨0x110010, 6, 1⟩
def NVA_EVT_SPARE_EMPTY : Fld := ⟨0x110010, 5, 1⟩
def NVA_EVT_SPARE_LOW : Fld := ⟨0x110010, 4, 1⟩
def NVA_EVT_REMAP : Fld := ⟨0x110010, 3, 1⟩
def NVA_EVT_DIP_VERIFY : Fld := ⟨0x110010, 2, 1⟩
def NVA_EVT_NV_FAIL : Fld := ⟨0x110010, 1, 1⟩
def NVA_EVT_OP_DONE : Fld := ⟨0x110010, 0, 1⟩
def NVA_EVT_EN_EN : Fld := ⟨0x110014, 0, 8⟩
def NVA_JOURNAL_REDO : Fld := ⟨0x11001C, 16, 12⟩
def NVA_JOURNAL_HEAD : Fld := ⟨0x11001C, 0, 12⟩
def NVA_WPROT_BITS (i : Nat) : Fld := ⟨0x110100 + 4 * i, 0, 32⟩
def TMP_STS_LEVEL : Fld := ⟨0x120000, 29, 3⟩
def TMP_STS_BACKUP_SEEN : Fld := ⟨0x120000, 28, 1⟩
def TMP_STS_VBAT_LOW : Fld := ⟨0x120000, 27, 1⟩
def TMP_STS_COLD : Fld := ⟨0x120000, 26, 1⟩
def TMP_STS_ACTIVE : Fld := ⟨0x120000, 0, 8⟩
def TMP_EVT_RELEASED : Fld := ⟨0x120004, 5, 1⟩
def TMP_EVT_VBAT_LOW : Fld := ⟨0x120004, 4, 1⟩
def TMP_EVT_LOG_WRAP : Fld := ⟨0x120004, 3, 1⟩
def TMP_EVT_BROWNOUT : Fld := ⟨0x120004, 2, 1⟩
def TMP_EVT_RESPONSE_CHG : Fld := ⟨0x120004, 1, 1⟩
def TMP_EVT_ALARM : Fld := ⟨0x120004, 0, 1⟩
def TMP_EVT_EN_EN : Fld := ⟨0x120008, 0, 6⟩
def TMP_ALERT_EN_EN : Fld := ⟨0x12000C, 0, 6⟩
def TMP_LEVEL_LEVELS : Fld := ⟨0x120010, 0, 24⟩
def TMP_FLOOR_FLOORS : Fld := ⟨0x120014, 0, 32⟩
def TMP_HIST_SENSORS : Fld := ⟨0x120018, 0, 8⟩
def TMP_LOG_HEAD : Fld := ⟨0x12001C, 16, 8⟩
def TMP_LOG_COUNT : Fld := ⟨0x12001C, 0, 9⟩
def TMP_LOG_SEQ_SEQ : Fld := ⟨0x120020, 0, 32⟩
def TMP_BROWN_CNT_COUNT : Fld := ⟨0x120024, 0, 32⟩
def TMP_VBAT_MV : Fld := ⟨0x120028, 0, 12⟩
def TMP_HALT_DROP_COUNT : Fld := ⟨0x12002C, 0, 32⟩
def PWR_STS_LO_STATES : Fld := ⟨0x10400, 0, 32⟩
def PWR_STS_HI_STATES : Fld := ⟨0x10404, 0, 18⟩
def PWR_EVT_WOKE : Fld := ⟨0x10408, 4, 1⟩
def PWR_EVT_RESTORE_ERR : Fld := ⟨0x10408, 3, 1⟩
def PWR_EVT_WAKE_FAIL : Fld := ⟨0x10408, 2, 1⟩
def PWR_EVT_REFUSED : Fld := ⟨0x10408, 1, 1⟩
def PWR_EVT_ENTERED : Fld := ⟨0x10408, 0, 1⟩
def PWR_EVT_EN_EN : Fld := ⟨0x1040C, 0, 5⟩
def PWR_WAKE_WAKE : Fld := ⟨0x10410, 0, 25⟩
def PWR_CTL_GO (i : Nat) : Fld := ⟨0x10500 + 4 * i, 31, 1⟩
def PWR_CTL_TARGET (i : Nat) : Fld := ⟨0x10500 + 4 * i, 24, 2⟩
def PWR_CTL_RESULT (i : Nat) : Fld := ⟨0x10500 + 4 * i, 0, 16⟩
def PWR_WAKES_COUNT (i : Nat) : Fld := ⟨0x10600 + 4 * i, 0, 32⟩
def FLD_CTL_MODE : Fld := ⟨0x130000, 30, 2⟩
def FLD_CTL_VHARV_EN : Fld := ⟨0x130000, 29, 1⟩
def FLD_CTL_HARV_PROV : Fld := ⟨0x130000, 28, 1⟩
def FLD_CTL_HIGH_RATE : Fld := ⟨0x130000, 27, 1⟩
def FLD_STS_TAG_STATE : Fld := ⟨0x130004, 29, 3⟩
def FLD_STS_FIELD : Fld := ⟨0x130004, 28, 1⟩
def FLD_STS_HARVESTED : Fld := ⟨0x130004, 27, 1⟩
def FLD_STS_RATE : Fld := ⟨0x130004, 25, 2⟩
def FLD_STS_KEY_INDEX : Fld := ⟨0x130004, 16, 6⟩
def FLD_EVT_EXT_FIELD : Fld := ⟨0x130008, 7, 1⟩
def FLD_EVT_MORE : Fld := ⟨0x130008, 6, 1⟩
def FLD_EVT_MBX_REJECT : Fld := ⟨0x130008, 5, 1⟩
def FLD_EVT_MBX_DONE : Fld := ⟨0x130008, 4, 1⟩
def FLD_EVT_SESSION_END : Fld := ⟨0x130008, 3, 1⟩
def FLD_EVT_SEALED : Fld := ⟨0x130008, 2, 1⟩
def FLD_EVT_FIELD_LOST : Fld := ⟨0x130008, 1, 1⟩
def FLD_EVT_FIELD_ON : Fld := ⟨0x130008, 0, 1⟩
def FLD_EVT_EN_EN : Fld := ⟨0x13000C, 0, 8⟩
def FLD_FDT_ADJ_ADJ : Fld := ⟨0x130010, 0, 3⟩
def FLD_RD_CTL_POWER : Fld := ⟨0x13001C, 0, 8⟩
def FLD_FRAMES_COUNT : Fld := ⟨0x130020, 0, 32⟩
def FLD_ERRS_COUNT : Fld := ⟨0x130024, 0, 32⟩
def FLD_SESSIONS_FAILS : Fld := ⟨0x130028, 16, 16⟩
def FLD_SESSIONS_SEALED : Fld := ⟨0x130028, 0, 16⟩
def CRD_CTL_EN : Fld := ⟨0x140000, 31, 1⟩
def CRD_CTL_TYPE : Fld := ⟨0x140000, 30, 1⟩
def CRD_CTL_CD_EN : Fld := ⟨0x140000, 29, 1⟩
def CRD_CTL_MAXMODE : Fld := ⟨0x140000, 25, 4⟩
def CRD_CTL_EMMC_MAX : Fld := ⟨0x140000, 23, 2⟩
def CRD_STS_STATE : Fld := ⟨0x140004, 29, 3⟩
def CRD_STS_MODE : Fld := ⟨0x140004, 25, 4⟩
def CRD_STS_V18 : Fld := ⟨0x140004, 24, 1⟩
def CRD_EVT_CRC_FAIL : Fld := ⟨0x140008, 3, 1⟩
def CRD_EVT_SWITCH_FAIL : Fld := ⟨0x140008, 2, 1⟩
def CRD_EVT_REMOVED : Fld := ⟨0x140008, 1, 1⟩
def CRD_EVT_INSERTED : Fld := ⟨0x140008, 0, 1⟩
def CRD_EVT_EN_EN : Fld := ⟨0x14000C, 0, 4⟩
def CRD_CAP_BLOCKS : Fld := ⟨0x140010, 0, 32⟩
def CRD_LOST_ADDR_ADDR : Fld := ⟨0x140014, 0, 32⟩
def CRD_CRC_ERR_COUNT : Fld := ⟨0x140018, 0, 32⟩
def SCD_CTL_EN : Fld := ⟨0x140100, 31, 1⟩
def SCD_CTL_CLK : Fld := ⟨0x140100, 0, 3⟩
def SCD_STS_PRESENT : Fld := ⟨0x140104, 31, 1⟩
def SCD_STS_ACTIVE : Fld := ⟨0x140104, 30, 1⟩
def SCD_STS_CLASS : Fld := ⟨0x140104, 28, 2⟩
def SCD_STS_T1 : Fld := ⟨0x140104, 27, 1⟩
def SCD_STS_INVERSE : Fld := ⟨0x140104, 26, 1⟩
def SCD_STS_FIDI : Fld := ⟨0x140104, 8, 8⟩
def SCD_STS_ALEN : Fld := ⟨0x140104, 0, 6⟩
def SCD_EVT_PROTO_ERR : Fld := ⟨0x140108, 3, 1⟩
def SCD_EVT_ATR_FAIL : Fld := ⟨0x140108, 2, 1⟩
def SCD_EVT_REMOVED : Fld := ⟨0x140108, 1, 1⟩
def SCD_EVT_INSERTED : Fld := ⟨0x140108, 0, 1⟩
def SCD_EVT_EN_EN : Fld := ⟨0x14010C, 0, 4⟩
def SCD_ATR_BYTES (i : Nat) : Fld := ⟨0x140120 + 4 * i, 0, 32⟩
def RST_STS_STAGE : Fld := ⟨0x10000, 29, 3⟩
def RST_STS_SERVICE : Fld := ⟨0x10000, 27, 2⟩
def RST_STS_BOOT_HOLD : Fld := ⟨0x10000, 26, 1⟩
def RST_STS_REPORT_LOST : Fld := ⟨0x10000, 8, 8⟩
def RST_STS_CAUSE : Fld := ⟨0x10000, 0, 8⟩
def RST_CAUSE_SEEN : Fld := ⟨0x10004, 0, 32⟩
def RST_BOOT_SLOT_B : Fld := ⟨0x10008, 31, 1⟩
def RST_BOOT_FALLBACK : Fld := ⟨0x10008, 30, 1⟩
def RST_BOOT_CARD : Fld := ⟨0x10008, 29, 1⟩
def RST_BOOT_SVN : Fld := ⟨0x10008, 0, 6⟩
def RST_AEDUF_VER_VER : Fld := ⟨0x1000C, 0, 32⟩
def RST_FUSE_LOCKED : Fld := ⟨0x10010, 31, 1⟩
def RST_FUSE_FLOOR : Fld := ⟨0x10010, 0, 6⟩
def RST_WDT_EN : Fld := ⟨0x10014, 31, 1⟩
def RST_WDT_TIMEOUT : Fld := ⟨0x10014, 0, 16⟩
def RST_WDT_KICK_KICK : Fld := ⟨0x10018, 0, 32⟩
def RST_EVT_ROOT_RESTART : Fld := ⟨0x1001C, 4, 1⟩
def RST_EVT_FALLBACK : Fld := ⟨0x1001C, 3, 1⟩
def RST_EVT_PIN_DROP : Fld := ⟨0x1001C, 2, 1⟩
def RST_EVT_SERVICE_CHG : Fld := ⟨0x1001C, 1, 1⟩
def RST_EVT_STAGE : Fld := ⟨0x1001C, 0, 1⟩
def RST_EVT_EN_EN : Fld := ⟨0x10020, 0, 5⟩
def RST_COUNT_COUNT : Fld := ⟨0x10024, 0, 32⟩
end F

end Sys2Proof.Machine
end

