-- ==== Sys2Proof/Machine/Cap.lean ====
section
/-! DEFINITION. Capabilities and integer arithmetic of the control cores (R293 to R298, R305, R306, R310, R311), and the
instruction encodings (R304, Tables ISA-8 to ISA-11): pure functions of values, with no state. -/

namespace Sys2Proof.Machine

/-- A register value: 128 bits, tag and poison mark (R293). -/
structure CReg where
  v : BitVec 128
  tag : Bool
  poison : Bool
deriving DecidableEq, Repr

/-- The null capability (R293). -/
def CReg.null : CReg := ⟨0, false, false⟩

/-- An integer result (R294), with the poison mark it carries (R191). -/
def CReg.int (x : BitVec 64) (p : Bool) : CReg := ⟨x.setWidth 128, false, p⟩

/-- Bits [63:0]: the integer operand or the address (R294). -/
def CReg.lo (c : CReg) : BitVec 64 := c.v.setWidth 64
def CReg.addr (c : CReg) : Nat := c.v.toNat % 2 ^ 64

/-! The fields of Table ISA-2. -/
def CReg.perms (c : CReg) : Nat := bitsOf c.v.toNat 112 16
def CReg.otype (c : CReg) : Nat := bitsOf c.v.toNat 100 12
def CReg.zc (c : CReg) : Nat := bitsOf c.v.toNat 94 6
def CReg.pos (c : CReg) : Nat := bitsOf c.v.toNat 92 2
def CReg.loU (c : CReg) : Nat := bitsOf c.v.toNat 78 14
def CReg.hiU (c : CReg) : Nat := bitsOf c.v.toNat 64 14

/-- The permission bits of Table ISA-3. -/
def Perm.load : Nat := 0x001
def Perm.store : Nat := 0x002
def Perm.exec : Nat := 0x004
def Perm.loadcap : Nat := 0x008
def Perm.storecap : Nat := 0x010
def Perm.seal : Nat := 0x020
def Perm.unseal : Nat := 0x040
def Perm.sys : Nat := 0x080
def Perm.keyload : Nat := 0x100
def Perm.dma : Nat := 0x200
def Perm.global : Nat := 0x400

/-- Every permission of `need` is held. -/
def CReg.has (c : CReg) (need : Nat) : Bool := (c.perms &&& need) = need

/-- Decoded span and bounds (R295). -/
def CReg.spanLog (c : CReg) : Nat := c.zc + 4
def CReg.half (c : CReg) : Nat := 2 ^ (c.spanLog - 1)
def CReg.unit (c : CReg) : Nat := 2 ^ (c.spanLog - 14)
def CReg.spanStart (c : CReg) : Int := ((c.addr / c.half : Nat) - (c.pos : Nat) : Int) * (c.half : Int)
def CReg.base (c : CReg) : Int := c.spanStart + (c.loU * c.unit : Nat)
def CReg.top (c : CReg) : Int := c.spanStart + ((c.hiU + 1) * c.unit : Nat)

/-- The root capability with an address (R295, R301). -/
def CReg.root : CReg := ⟨BitVec.ofNat 128 ((0x07FF <<< 112) + (60 <<< 94) + (16383 <<< 64)), true, false⟩

/-- A field of the 128 bits replaced. -/
def CReg.put (c : CReg) (lo w x : Nat) : CReg := { c with v := BitVec.ofNat 128 (putBits c.v.toNat lo w x) }

/-- A change of address of a capability (R298); the address is taken modulo 2^64. -/
def CReg.setAddr (c : CReg) (a : Nat) : CReg :=
  let a : Nat := a % 2 ^ 64
  let s := c.spanStart
  let keep := c.tag && (c.otype = 0) && decide (s ≤ (a : Int)) && decide ((a : Int) ≤ s + (2 ^ c.spanLog : Nat))
  let pos := (((a / c.half * c.half : Nat) : Int) - s) / (c.half : Int)
  if keep then (c.put 0 64 a).put 92 2 pos.toNat else { c.put 0 64 a with tag := false }

/-- The same capability sealed with a hardware type; unsealed when the type is 0. -/
def CReg.withType (c : CReg) (t : Nat) : CReg := c.put 100 12 t

/-- sext of a field of `w` bits to 64 bits. -/
def sextN (w x : Nat) : BitVec 64 := (BitVec.ofNat w x).signExtend 64

/-! ### Integer arithmetic (R305, R306) -/

/-- The register-register operations of major 0x01, by func. -/
inductive Alu where
  | add | sub | and | or | xor | shl | shr | sar | slt | sltu | mul | mulhu | mulhs | divu | divs | remu | rems
deriving DecidableEq, Repr

/-- The result of an integer operation. -/
def Alu.run (o : Alu) (a b : BitVec 64) : BitVec 64 :=
  match o with
  | .add => a + b
  | .sub => a - b
  | .and => a &&& b
  | .or => a ||| b
  | .xor => a ^^^ b
  | .shl => a <<< (b.toNat % 64)
  | .shr => a >>> (b.toNat % 64)
  | .sar => a.sshiftRight (b.toNat % 64)
  | .slt => if a.toInt < b.toInt then 1 else 0
  | .sltu => if a.toNat < b.toNat then 1 else 0
  | .mul => BitVec.ofNat 64 (a.toNat * b.toNat)
  | .mulhu => BitVec.ofNat 64 (a.toNat * b.toNat / 2 ^ 64)
  | .mulhs => BitVec.ofInt 64 (a.toInt * b.toInt / 2 ^ 64)
  | .divu => if b = 0 then BitVec.allOnes 64 else a / b
  | .divs => if b = 0 then BitVec.allOnes 64 else BitVec.ofInt 64 (Int.tdiv a.toInt b.toInt)
  | .remu => if b = 0 then a else a % b
  | .rems => if b = 0 then a else BitVec.ofInt 64 (Int.tmod a.toInt b.toInt)

/-- The operation has an immediate form in major 0x02. -/
def Alu.immOk : Alu → Bool
  | .add | .and | .or | .xor | .shl | .shr | .sar | .slt | .sltu => true
  | _ => false

/-- A shift, whose immediate uses [5:0] with [11:6] zero. -/
def Alu.isShift : Alu → Bool
  | .shl | .shr | .sar => true
  | _ => false

/-- The func codes of Table ISA-9. -/
def Alu.func : Alu → Nat
  | .add => 0 | .sub => 1 | .and => 2 | .or => 3 | .xor => 4 | .shl => 5 | .shr => 6 | .sar => 7 | .slt => 8 | .sltu => 9
  | .mul => 0xA | .mulhu => 0xB | .mulhs => 0xC | .divu => 0xD | .divs => 0xE | .remu => 0xF | .rems => 0x10

/-- The operation of a func code. -/
def Alu.ofFunc : Nat → Option Alu
  | 0 => some .add | 1 => some .sub | 2 => some .and | 3 => some .or | 4 => some .xor | 5 => some .shl | 6 => some .shr
  | 7 => some .sar | 8 => some .slt | 9 => some .sltu | 0xA => some .mul | 0xB => some .mulhu | 0xC => some .mulhs
  | 0xD => some .divu | 0xE => some .divs | 0xF => some .remu | 0x10 => some .rems
  | _ => none

/-- Branch conditions (R304): EQ, NE, LT, GE, LTU, GEU. -/
def condHolds (cond : Nat) (a b : BitVec 64) : Bool :=
  match cond with
  | 0 => a = b
  | 1 => a ≠ b
  | 2 => decide (a.toInt < b.toInt)
  | 3 => decide (b.toInt ≤ a.toInt)
  | 4 => decide (a.toNat < b.toNat)
  | _ => decide (b.toNat ≤ a.toNat)

/-! ### Capability operations (R310, R311) -/

/-- The smallest z in 4..64 whose span from lo holds hi (R311), or 64. -/
def clipLog (lo hi : Nat) : Nat :=
  ((rangeFrom 4 61).find? (fun z => decide (hi ≤ lo / 2 ^ (z - 1) * 2 ^ (z - 1) + 2 ^ z))).getD 64

/-- CCLIP: bounds from the address for a length, widened to whole units (R311). -/
def CReg.clip (c : CReg) (len : Nat) : CReg :=
  let lo := c.addr
  let hi := lo + len
  let z := clipLog lo hi
  let h := 2 ^ (z - 1)
  let u := 2 ^ (z - 14)
  let m := min (2 ^ z) 16384
  let s := lo / h * h
  let l := (lo - s) / u
  let t := min (m - 1) (max l (ceilDiv (hi - s) u - 1))
  let r := (((c.put 94 6 (z - 4)).put 92 2 0).put 78 14 l).put 64 14 t
  { r with tag := c.tag && (c.otype = 0) && decide (hi ≤ 2 ^ 64) && decide (c.base ≤ r.base) && decide (r.top ≤ c.top) }

/-- CCLIPX: the tag is also cleared unless no widening was needed. -/
def CReg.clipx (c : CReg) (len : Nat) : CReg :=
  let r := c.clip len
  { r with tag := r.tag && decide (r.base = (c.addr : Int)) && decide (r.top = ((c.addr + len : Nat) : Int)) }

/-- CBIND: sealed with the type the second capability names and authorises. -/
def CReg.bind (a b : CReg) : CReg :=
  let t := b.addr
  { a.withType t with
    tag := a.tag && (a.otype = 0) && b.tag && (b.otype = 0) && b.has Perm.seal
      && decide (b.base ≤ (t : Int)) && decide ((t : Int) < b.top) && decide (16 ≤ t) && decide (t ≤ 4095) }

/-- CUNBIND: unsealed under the type range the second capability authorises. -/
def CReg.unbind (a b : CReg) : CReg :=
  let t := a.otype
  let r := a.withType 0
  let r := if b.has Perm.global then r else r.put 112 16 (r.perms &&& (0xFFFF - Perm.global))
  { r with
    tag := a.tag && decide (16 ≤ t) && b.tag && (b.otype = 0) && b.has Perm.unseal
      && decide (b.base ≤ (t : Int)) && decide ((t : Int) < b.top) }

/-- CDROP: permissions removed; tag clear when sealed. -/
def CReg.drop (a : CReg) (x : Nat) : CReg :=
  { a.put 112 16 (a.perms &&& (0xFFFF - x % 0x10000)) with tag := a.tag && (a.otype = 0) }

/-- CWITHIN. -/
def CReg.within (a b : CReg) : Bool :=
  a.tag && b.tag && decide (a.base ≤ b.base) && decide (b.top ≤ a.top) && a.has b.perms

/-- CINSP's items 0 to 7 (Table ISA-11); 2^64 is given as 2^64 - 1. -/
def CReg.inspect (c : CReg) (sel : Nat) : BitVec 64 :=
  let cap (x : Int) : BitVec 64 := if x ≥ (2 ^ 64 : Int) then BitVec.allOnes 64 else BitVec.ofInt 64 x
  match sel with
  | 0 => cap c.base
  | 1 => cap c.top
  | 2 => BitVec.ofNat 64 c.perms
  | 3 => BitVec.ofNat 64 c.otype
  | 4 => BitVec.ofNat 64 (b2n c.tag)
  | 5 => cap c.spanStart
  | 6 => cap (2 ^ c.spanLog : Nat)
  | _ => BitVec.ofNat 64 c.unit

/-! ### Encodings (R304) -/

/-- Format T: major, rd, rs1, rs2, func. -/
def encT (major rd rs1 rs2 func : Nat) : Word :=
  BitVec.ofNat 32 ((major <<< 26) + (rd <<< 22) + (rs1 <<< 18) + (rs2 <<< 14) + func)
/-- Format I: major, rd, rs1, func, imm12. -/
def encI (major rd rs1 func imm : Nat) : Word :=
  BitVec.ofNat 32 ((major <<< 26) + (rd <<< 22) + (rs1 <<< 18) + (func <<< 12) + imm % 4096)
/-- Format M: major, rt, rb, mode, size, low 12 bits. -/
def encM (major rt rb mode size low : Nat) : Word :=
  BitVec.ofNat 32 ((major <<< 26) + (rt <<< 22) + (rb <<< 18) + (mode <<< 15) + (size <<< 12) + low % 4096)
/-- Format S: major 0x30, register, SEL, func. -/
def encS (rd sel func : Nat) : Word :=
  BitVec.ofNat 32 ((0x30 <<< 26) + (rd <<< 22) + (sel / 16 <<< 18) + ((sel % 16) <<< 14) + func)
/-- Format P: the prefixes. -/
def encP (major n : Nat) : Word := BitVec.ofNat 32 ((major <<< 26) + (n <<< 22))
/-- Format B. -/
def encB (rs1 rs2 cond off : Nat) : Word :=
  BitVec.ofNat 32 ((0x10 <<< 26) + (rs1 <<< 22) + (rs2 <<< 18) + (cond <<< 15) + off % 32768)

/-- The instructions a repeat prefix may repeat (R313). -/
inductive RepOp where
  | alu (o : Alu) (rd rs1 rs2 : Nat)
  | alui (o : Alu) (rd rs1 imm : Nat)
  | ld (rt rb mode size : Nat)
  | st (rt rb mode size : Nat)
  | mcpy (rd rs1 size : Nat)
deriving DecidableEq, Repr

/-- Memory format legality (R303, R304): modes 1 and 2 with disp12 0, mode 3 with [5:0] 0, size codes 5 to 7 for loads only. -/
def memFormOk (isLoad : Bool) (mode size low : Nat) : Bool :=
  decide (mode ≤ 4) && (isLoad || decide (size ≤ 4))
    && (if mode = 1 ∨ mode = 2 then low = 0 else if mode = 3 then low % 64 = 0 else true)

/-- The bytes of a size code. -/
def sizeBytes : Nat → Nat
  | 0 => 1 | 1 => 2 | 2 => 4 | 3 => 8 | 4 => 16 | 5 => 1 | 6 => 2 | _ => 4

/-- The repeatable instruction a word encodes, or none (R313). -/
def repOpOf (w : Word) : Option RepOp :=
  let n := w.toNat
  let major := bitsOf n 26 6
  let rd := bitsOf n 22 4
  let rs1 := bitsOf n 18 4
  if major = 1 then
    if bitsOf n 8 6 = 0 then (Alu.ofFunc (bitsOf n 0 8)).map (fun o => .alu o rd rs1 (bitsOf n 14 4)) else none
  else if major = 2 then
    match Alu.ofFunc (bitsOf n 12 6) with
    | none => none
    | some o =>
      if o.immOk && (!o.isShift || bitsOf n 6 6 = 0) then some (.alui o rd rs1 (bitsOf n 0 12)) else none
  else if major = 8 ∨ major = 9 then
    let mode := bitsOf n 15 3
    let size := bitsOf n 12 3
    if (mode = 1 ∨ mode = 2) && memFormOk (major = 8) mode size (bitsOf n 0 12) then
      some (if major = 8 then .ld rd rs1 mode size else .st rd rs1 mode size)
    else none
  else if major = 0xC then
    if bitsOf n 14 4 = 0 && bitsOf n 8 6 = 0 && decide (bitsOf n 0 8 ≤ 4) then some (.mcpy rd rs1 (bitsOf n 0 8)) else none
  else none

/-- The repeated instruction names register `r` (R313: c13 under REPI). -/
def RepOp.names (o : RepOp) (r : Nat) : Bool :=
  match o with
  | .alu _ a b c => a = r || b = r || c = r
  | .alui _ a b _ => a = r || b = r
  | .ld a b _ _ => a = r || b = r
  | .st a b _ _ => a = r || b = r
  | .mcpy a b _ => a = r || b = r

/-- The special-register selectors of Table ISA-6. -/
def selOk (sel : Nat) : Bool := decide (sel ≤ 6) || (decide (0x20 ≤ sel) && decide (sel ≤ 0x3F))

/-- The word is one of the encodings of Tables ISA-9, ISA-10 and ISA-11 (R304). A SEL that Table ISA-6 does not list and
the CSRW of pcc raise ILLEGAL by R300 and are counted here as encodings of CSRR and CSRW. -/
def wordDefined (w : Word) : Bool :=
  let n := w.toNat
  let major := bitsOf n 26 6
  let rd := bitsOf n 22 4
  let rs1 := bitsOf n 18 4
  let rs2 := bitsOf n 14 4
  let mid := bitsOf n 8 6
  let func := bitsOf n 0 8
  match major with
  | 0x01 => mid = 0 && decide (func ≤ 0x10)
  | 0x02 => (repOpOf w).isSome
  | 0x03 => true
  | 0x04 => true
  | 0x08 => memFormOk true (bitsOf n 15 3) (bitsOf n 12 3) (bitsOf n 0 12)
  | 0x09 => memFormOk false (bitsOf n 15 3) (bitsOf n 12 3) (bitsOf n 0 12)
  | 0x0A => memFormOk false (bitsOf n 15 3) (bitsOf n 12 3) (bitsOf n 0 12)
  | 0x0B => mid = 0 && decide (1 ≤ func) && decide (func ≤ 3)
  | 0x0C => rs2 = 0 && mid = 0 && decide (func ≤ 4)
  | 0x10 => decide (bitsOf n 15 3 ≤ 5)
  | 0x11 => true
  | 0x12 => true
  | 0x13 => mid = 0 && rs2 = 0 && rd = 0 && (func = 1 || func = 2 || (func = 3 && rs1 = 0))
  | 0x20 => mid = 0 && decide (func ≤ 9) && (if func = 0 ∨ func = 7 then rs2 = 0 else true)
  | 0x21 => if bitsOf n 12 6 = 0 then decide (bitsOf n 0 12 ≤ 7) else bitsOf n 12 6 = 1
  | 0x30 => mid = 0 && (func = 1 || func = 2 || (decide (3 ≤ func) && decide (func ≤ 8) && rd = 0 && rs1 = 0 && rs2 = 0))
  | 0x3E => bitsOf n 0 22 = 0
  | 0x3F => bitsOf n 0 26 = 0
  | _ => false

end Sys2Proof.Machine
end

