-- ==== Sys2Proof/Machine/Types.lean ====
section
/-! DEFINITION. The records that State is made of: what the device holds beside its registers, block by block, and
what leaves its edge. Everything here is plain data. -/

namespace Sys2Proof.Machine

/-! ### What leaves the device -/

/-- An event on its way to an event ring (Table CUL-7): class, code, tag, GAC value and DATA. -/
structure Event where
  cls : Nat
  code : Nat
  tag : Nat
  gac : BitVec 64
  data : BitVec 128
deriving DecidableEq, Repr

/-- What the device sends out over its edge. The model lists it, newest first, in State.out. -/
inductive Out where
  /-- A reply written into a command slot (Table CUL-3): ring, slot index, status, opcode, tag, DETAIL, RESULT, CYCLE_DONE. -/
  | reply (ring idx status opc tag detail : Nat) (result : List Byte) (cycleDone : BitVec 64)
  /-- An entry written to event ring `e` at index `i` with its PHASE bit (R219). -/
  | event (e i : Nat) (phase : Bool) (ev : Event)
  /-- Bytes written to host memory at a Culvert offset. -/
  | hostWrite (ofs : Nat) (bytes : List Byte)
  /-- An MSI-X message of a vector (R223). -/
  | msix (vector : Nat)
  /-- A frame, or a fragment or stomped copy of one, sent on a lane: lane, bytes, and whether the FCS is the complement. -/
  | frame (lane : Nat) (bytes : List Byte) (stomped : Bool)
  /-- A fragment of a preempted frame (R87): lane, the octet of the frame at which it begins, its bytes, and its mCRC; the
  final fragment has none, as it ends with the FCS of the frame, whose complement it carries where it is stomped. -/
  | fragment (lane : Nat) (first : Nat) (bytes : List Byte) (mcrc : Option Word) (stomped : Bool)
  /-- A frame sent on a lane whose bytes the manual does not fix in full: lane, kind and the items it carries. -/
  | control (lane : Nat) (kind : Nat) (items : List Nat)
  /-- A message of the twin link: its payload, header and body (R279, Table TWN-2). -/
  | twin (payload : List Byte)
  /-- A Polder control message: its payload, header and body (R287, Tables TWN-6 and TWN-7). -/
  | polder (payload : List Byte)
  /-- A contactless answer: bytes of the frame (R417). -/
  | field (bytes : List Byte)
  /-- A block written to the card: block address and bytes. -/
  | card (block : Nat) (bytes : List Byte)
  /-- Bytes to the smart card. -/
  | scd (bytes : List Byte)
  /-- A pulse on PPS_OUT of a width in microseconds (R39). -/
  | pps (width : Nat)
  /-- A DMA descriptor write-back (Table DMA-2): channel, index, STATUS, DONE, RESULT, DETAIL and GAC. -/
  | dmaBack (ch idx status done result detail : Nat) (gac : BitVec 64)
  /-- What the read of a register that takes what it returns answers: address, value and poison (R377, R378). -/
  | read (addr value : Nat) (poison : Bool)
  /-- A host read of BAR 0 that completes with Completer Abort (R413): its address. -/
  | abort (addr : Nat)
deriving DecidableEq, Repr

/-! ### Grid-angle clock and network time -/

/-- One mains reference input (R31, R32): the tick of its last accepted edge, its last period in ticks, and its
consecutive accepted edges with good periods. -/
structure MrefIn where
  last : Option Nat
  period : Option Nat
  good : Nat
deriving DecidableEq, Repr

/-- One angle 0 as the GAC latched it (R46): TBCLK tick, cycle number, accumulator residual and increment, the TAI instant
of the ideal angle 0 in 2^-16 ns, and the frequency applied in the cycle in µHz. -/
structure ZeroMark where
  tick : Nat
  cycle : BitVec 40
  acc : BitVec 64
  incr : BitVec 40
  tai : Nat
  freq : Nat
deriving DecidableEq, Repr

/-- The GAC core and PTP time base (R27 to R46) beside their registers. -/
structure Gac where
  /-- TBCLK ticks counted (R27). -/
  now : Nat
  /-- The accumulator: angle in its upper 24 bits (R27). -/
  acc : BitVec 64
  /-- The cycle number (R27). -/
  cycle : BitVec 40
  /-- GAC_INCR: the angle advance per tick in 2^-40 ac (R27). -/
  incr : BitVec 40
  /-- Cycles that have passed since power-on, whatever their numbers (limits counted in cycles). -/
  passed : Nat
  /-- MREF_A, MREF_B, MREF_C. -/
  mref : List MrefIn
  /-- Offset-corrected signed angles of this cycle's valid edges (R33). -/
  edges : List Int
  /-- This cycle's accepted phasor difference (R36). -/
  phasor : Option Int
  /-- The frequency (µHz) of the last accepted phasor estimate. -/
  phasorFreq : Nat
  /-- Consecutive cycles with an accepted estimate, and without one (R36). -/
  phasorRun : Nat
  phasorMiss : Nat
  /-- Phase errors of the last 64 cycles, newest first (R34). -/
  errs : List Int
  /-- Consecutive cycles with the absolute phase error below 23,302 ac during acquisition (R41). -/
  close : Nat
  /-- The source being acquired is the mains reference; otherwise the phasor. -/
  acqMains : Bool
  /-- The GAC_EVT flags that the angle 0 under way has set, as a mask: their entries are written at its end, in order from
  bit 0 upward (R49). The model's own; 0 between commands. -/
  gathered : Nat
  /-- The check accumulator: reloaded from the accumulator at angle 0 and advanced by the same increment (R158). -/
  chk : BitVec 64
  /-- TAI seconds set by command have taken effect at a PPS_IN edge: the device is grandmaster while PPS_IN and
  CLK10M_IN are enabled (R37). -/
  master : Bool
  /-- The angle-0 history, newest first, from which angles at past instants are computed (R36). -/
  zeros : List ZeroMark
  /-- A change of cycle number waiting for the next angle 0 (R45). -/
  step : Option Int
  /-- TAI at a tick: the tick and the time in 2^-16 ns (R37). -/
  taiTick : Nat
  taiBase : Nat
  /-- The PTP rate correction, in parts per 10^12 (R30). -/
  rate : Int
  /-- The grandmaster's clockClass, as the last Announce gave it (Table GAC-5). -/
  gmClass : Nat
  /-- TAI seconds waiting for the next PPS_IN edge (CMD_GAC_TAI_SET). -/
  taiSet : Option Nat
  /-- A device-built PTP message counter (sequence numbers). -/
  ptpSeq : Nat
deriving DecidableEq, Repr

/-! ### The Culvert -/

/-- A command slot as the host wrote it, waiting or in execution: ring, slot index, opcode, FLAGS, TAG, HANDLE, CYCLE,
LEN, the PARAMS and the contents of the input buffers they name. -/
structure Held where
  ring : Nat
  idx : Nat
  opc : Nat
  flags : Nat
  tag : Nat
  handle : Nat
  cycle : Nat
  len : Nat
  params : List Byte
  bufs : List (List Byte)
  poison : Option Nat
  /-- The window was lost after the slot was taken: neither reply nor completion is written (R201). -/
  mute : Bool
deriving DecidableEq, Repr

/-- An object that a command holds (Table CMD-4). -/
inductive Obj where
  | shadow
  | slot (n : Nat)
  | sector (n : Nat)
  | card
  | smartCard
  | applet (id : Nat)
deriving DecidableEq, Repr

/-- What a started command still waits for, and what it needs then. -/
inductive Wait where
  /-- An ASYNC command accepted and not yet ended (R211). -/
  | async
  /-- The commit of a staged set, replied after the swap (R239). -/
  | commit
  /-- A TWIN command withheld for the peer's READY (R285): a digest of the command and its target cycle. -/
  | twin (cycle : Nat)
  /-- CMD_TMP_BREACH: the root area is being erased (R247). -/
  | breach
  /-- The NV operation of the command (R245). -/
  | nv
  /-- CMD_DIAG_KAT: the core under test (R247). -/
  | kat (core : Nat)
  /-- CMD_APP_MSG: the applet (R328). -/
  | app (id : Nat)
  /-- CMD_CIQ_SUBMIT: the RTAG of its cipher request. -/
  | ciq (rtag : Nat)
deriving DecidableEq, Repr

/-- One command in execution (R209) with what it waits for. -/
structure Waiting where
  cmd : Held
  wait : Wait
  objs : List Obj
deriving DecidableEq, Repr

/-- An open session (R214, R217): its ring, permissions, generation, operator key index, holder of no other object, and
the cycle count of its last command. -/
structure Session where
  ring : Nat
  perms : Nat
  gen : Nat
  key : Nat
  seen : Nat
deriving DecidableEq, Repr

/-- An outstanding challenge (R215). -/
structure Challenge where
  id : Nat
  nonce : List Byte
  ring : Nat
  born : Nat
deriving DecidableEq, Repr

/-- An enrolled operator key (R238): role code and SEC1 point. -/
structure OpKey where
  role : Nat
  pub : List Byte
deriving DecidableEq, Repr

/-- The Culvert beside its registers (R199 to R223). -/
structure Cul where
  /-- Bus Master Enable of the host function (R201). -/
  bme : Bool
  /-- Command rings whose slot at HEAD was not device-owned: read again at the next doorbell (R207). -/
  stalled : List Nat
  /-- The ring taken last, for the round robin of each priority (R209). -/
  lastTaken : List Nat
  /-- Commands that have started and not replied, or are accepted and not completed. -/
  waits : List Waiting
  /-- AT_CYCLE commands pending, oldest first (R212). -/
  atCycle : List Held
  /-- Open sessions by index, and the generation each index last had. -/
  sessions : Tbl (Option Session)
  gens : Tbl Nat
  /-- Outstanding challenges. -/
  challenges : List Challenge
  /-- Consecutive refusals per KEY_INDEX, and the cycle count at which a locked key's lockout began (R216). -/
  refusals : Tbl Nat
  locked : Tbl (Option Nat)
  /-- Events held on chip per event ring, oldest first, and the count discarded since the ring last had space (R221). -/
  heldEv : Tbl (List Event)
  lostNow : Tbl Nat
  /-- MSI-X vectors armed (R223). -/
  armed : List Nat
  /-- Replies that wait for the Bus Master Enable bit: command, status, DETAIL, RESULT, and the GAC value (R201). -/
  owed : List (Held × Nat × Nat × List Byte × BitVec 64)
deriving DecidableEq, Repr

/-! ### Keys and the cipher request queue -/

/-- One key slot (Tables KEY-2, FPX-4, FPX-8). `state` holds the code of Table FPX-4. -/
structure KeySlot where
  state : Nat
  rollPend : Bool
  fold : Bool
  warned : Bool
  grace : Nat
  alg : Nat
  frame : Bool
  material : List Byte
  salt : List Byte
  id : Nat
  succ : Option Nat
  use : Nat
  limit : Nat
  warn : Nat
  roll : Nat
  inv : Nat
  /-- Held by Aeduf: MKA or GDOI binds the slot to an SA (Table CMD-4). -/
  aeduf : Bool
deriving DecidableEq, Repr

/-- A planned rollover (R114, R115): the slots, cycle N, grace, FOLD, whether the switch has been made, and whether the
old slot was exhausted before it. -/
structure Roll where
  old : Nat
  new : Nat
  cycle : Nat
  grace : Nat
  fold : Bool
  switched : Bool
deriving DecidableEq, Repr

/-- The staging buffer of the write-only window (R340). -/
structure KeyStage where
  slot : Nat
  material : List Byte
  salt : List Byte
  id : Nat
deriving DecidableEq, Repr

/-- A derivation in progress (R334): source slot (none: the root), destination FLD or KEY_WORK, output bytes, and
Label, 0x00 and Context. -/
structure KdfJob where
  src : Option Nat
  toFld : Bool
  bytes : Nat
  input : List Byte
deriving DecidableEq, Repr

/-- The root area (R332, R333): erased, or the symbols its cell holds, ROOT and then the check symbols. -/
inductive RootArea where
  | erased
  | cell (symbols : List Byte)
deriving DecidableEq, Repr

/-- The key slot file, KEY_WORK and the root area (R332 to R348). -/
structure Keys where
  slots : Tbl KeySlot
  rolls : List Roll
  stage : Option KeyStage
  work : Option (List Byte)
  kdf : Option KdfJob
  moveId : Nat
  /-- The session key registers of the FLD block (R334): 96 bytes. -/
  fldKeys : Option (List Byte)
  zeroizing : Bool
  root : RootArea
  rootErasing : Bool
  rootGen : Nat
  /-- ROOT_GEN as the factory info block records it (R344). -/
  factoryGen : Nat
  /-- The identity certificate of the factory info block, and the identity public key and its digest as Aeduf holds them from boot. -/
  idCert : List Byte
  idPub : List Byte
deriving DecidableEq, Repr

/-- One cipher request (Table KEY-6), with its queue, the host command it stands for and the tag the host supplied;
once started also its core, its IV, the key and ALG it took, the bytes that came from the Culvert window, and whether a
supply dip met it. -/
structure CiqReq where
  queue : Nat
  op : Nat
  tlen : Nat
  slot : Nat
  rtag : Nat
  aad : Nat
  aadLen : Nat
  inLen : Nat
  inp : Nat
  out : Nat
  iv : List Byte
  tagp : Nat
  core : Nat
  host : Option (Nat × Nat)
  tagIn : List Byte
  key : List Byte
  alg : Nat
  hAad : List Byte
  hInp : List Byte
  dipped : Bool
deriving DecidableEq, Repr

/-- A cipher request completion (Table KEY-7). -/
structure CiqDone where
  req : CiqReq
  status : Nat
  ok : Nat
  detail : Nat
  done : Nat
  tag : List Byte
deriving DecidableEq, Repr

/-- The cipher request queue (R349 to R355). -/
structure Ciq where
  queues : List (List CiqReq)
  /-- Descriptor words written so far to each CIQ_SUBMIT_q. -/
  words : List (List Word)
  running : List CiqReq
  /-- Completions that found the ring full (R355), oldest first. -/
  waiting : List CiqDone
  blocks : Nat
  nextTag : Nat
deriving DecidableEq, Repr

/-! ### The public-key engine -/

/-- One job (Table PKE-4): its descriptor, owner, intervals remaining (Table PKE-1), submission number, PKE faults so
far, and times suspended. -/
structure PkeJob where
  op : Nat
  alg : Nat
  flags : Nat
  slot : Nat
  outSlot : Nat
  rtag : Nat
  inLen : Nat
  inp : Nat
  key : Nat
  keyLen : Nat
  sigLen : Nat
  sig : Nat
  out : Nat
  outLen : Nat
  owner : Nat
  total : Nat
  left : Nat
  order : Nat
  faults : Nat
  susp : Nat
deriving DecidableEq, Repr

/-- A job's completion: RTAG, STATUS, OK, BYTES, DETAIL. -/
structure PkeDone where
  rtag : Nat
  status : Nat
  ok : Nat
  bytes : Nat
  detail : Nat
deriving DecidableEq, Repr

/-- The public-key engine (R356 to R368). -/
structure Pke where
  queue : List PkeJob
  running : Option PkeJob
  suspended : List PkeJob
  /-- Jobs a supply dip aborted, to restart in submission order (R367). -/
  aborted : List PkeJob
  words : List Word
  waiting : List PkeDone
  order : Nat
  /-- The private-key register: key type (1 P-256, 2 P-384) and scalar (R365). -/
  kreg : Option (Nat × List Byte)
  /-- The owner whose operands the working area holds, and the owner and submission number of the job that each of the
  five partitions holds; none where it is wiped (R364). -/
  area : Option Nat
  parts : List (Option (Nat × Nat))
deriving DecidableEq, Repr

/-! ### The random bit source -/

/-- The random bit source beside its registers (R369 to R379). -/
structure Rng where
  /-- The DRBG is instantiated. -/
  live : Bool
  /-- Cells that have failed once since the domain left reset (R372). -/
  failed : List Nat
  /-- Angle 0 crossings, and generate requests, since the last reseed (R374). -/
  zeros : Nat
  reqs : Nat
  /-- The raw buffer of TEST, oldest first (R378). -/
  raw : List Word
  /-- Draws made: each takes fresh bytes of Config.rngByte. -/
  draws : Nat
  /-- The seed material in use: three conditioned blocks (R374). -/
  seed : List Byte
  /-- Raw words of each cell that its conditioner has taken for its next block, and the blocks conditioned since seed
  material was last used (R373, R374). -/
  acc : List (List Word)
  blocks : List (List Byte)
deriving DecidableEq, Repr

/-! ### The NV array -/

/-- A journal record (Table NVA-2): type, sector, sequence and argument. -/
structure JRec where
  kind : Nat
  sector : Nat
  seq : Nat
  arg : Nat
deriving DecidableEq, Repr

/-- Who asked for an NV operation: Aeduf by a write of NVA_OP, a host command by its opcode, or the staging and commit
of a configuration set. -/
inductive NvUser where
  | reg
  | host (ring idx : Nat)
  | cfgErase
  | cfgBody
deriving DecidableEq, Repr

/-- What a host command that waits for an NV operation makes of its success: nothing further, an operator key put into
or taken out of the table, or an image slot written. -/
inductive NvEff where
  | none
  | opKey (i : Nat) (k : Option OpKey)
  | image (slot : Nat) (digest : List Byte)
deriving DecidableEq, Repr

/-- An NV operation (R384): erase of `count` sectors from `sector`, program of `data` from word `first` of `sector`, or
both in turn; RESTORE; the contents of the sectors before it (R391); the words or sectors done; a supply dip has stopped
it (R392); it names a protected sector (R386); who asked for it, and what its success makes. -/
structure NvOp where
  erase : Bool
  program : Bool
  sector : Nat
  first : Nat
  count : Nat
  restore : Bool
  data : List Byte
  prior : List Byte
  done : Nat
  dipped : Bool
  refused : Bool
  user : NvUser
  eff : NvEff
deriving DecidableEq, Repr

/-- The NV array (R380 to R394). -/
structure Nv where
  /-- The bytes of the array by physical offset; an unlisted byte reads 0xFF, erased. -/
  bytes : Tbl Byte
  /-- The 64 KiB staging buffer. -/
  staging : Tbl Byte
  op : Option NvOp
  /-- Operations that wait, in the order Aeduf received them (R384). -/
  queue : List NvOp
  /-- Logical sector to physical sector (R389). -/
  remap : Tbl Nat
  sparesUsed : List Nat
  journal : List JRec
  jseq : Nat
  /-- The booted Aeduf slot: 0 A, 1 B (R245). -/
  booted : Nat
  opKeys : Tbl (Option OpKey)
  recSeq : Nat
deriving DecidableEq, Repr

/-! ### Tamper monitors and the Berm -/

/-- A tamper log entry (Table TMP-3). -/
structure LogEntry where
  seq : Nat
  source : Nat
  level : Nat
  inForce : Nat
  flags : Nat
  gac : BitVec 64
  taiSec : Nat
  taiNs : Nat
  data : Nat
deriving DecidableEq, Repr

/-- The Berm beside its registers (R395 to R407). -/
structure Berm where
  /-- The tamper log ring by index (R404). -/
  log : Tbl (Option LogEntry)
  /-- On the backup cell: the GAC value and TAI time held at the loss, whether PTP was locked, and the time counted since, in ns. -/
  backup : Bool
  lossGac : BitVec 64
  lossTai : Nat
  lossPtp : Bool
  counted : Nat
  /-- The Berm has lost both supplies and starts cold at the next power-on (R405). -/
  coldNext : Bool
  /-- VDD_CORE is below its warning level; the tick at which it fell; it has recovered and 1 us has not passed (R118, R403). -/
  dipping : Bool
  dipTick : Nat
  settling : Bool
  /-- The Breach line is asserted, until the boot rule releases it (R346, R402). -/
  breach : Bool
deriving DecidableEq, Repr

/-! ### Power domains -/

/-- A register access as a bus master issues it (R9, R13). -/
structure Access where
  host : Bool
  write : Bool
  addr : Nat
  bytes : Nat
  value : Word
deriving DecidableEq, Repr

/-- A domain in transition (R410 to R413): the state it leaves, the state it enters, and whether it is a wake. -/
structure Trans where
  dom : Nat
  src : Nat
  dst : Nat
deriving DecidableEq, Repr

/-- The power controller beside its registers (R408 to R417). The listed registers of a domain that is not ON stand in
the save area: State.regs holds them there, so that each register keeps one home. -/
structure Pwr where
  trans : List Trans
  /-- Host accesses stalled on a domain that is not ON, oldest first. -/
  stalled : List (Nat × Access)
  /-- Domains that were not ready in time (R413). -/
  stuck : List Nat
deriving DecidableEq, Repr

/-! ### The DMA engine -/

/-- A descriptor the channel has fetched (Table DMA-1), with its ring index. -/
structure DmaDesc where
  idx : Nat
  op : Nat
  flags : Nat
  len : Nat
  src : BitVec 64
  dst : BitVec 64
  value : Word
  tag : Word
deriving DecidableEq, Repr

/-- A channel's active and shadow sets (R249). -/
structure DmaCh where
  active : Option DmaDesc
  shadow : Option DmaDesc
deriving DecidableEq, Repr

/-! ### The control cores -/

/-- A control pair: the registers of Tables ISA-1 and ISA-6 and where its execution stands (R293, R300, R315, R327). -/
structure Pair where
  /-- c1 to c15; c0 is never written. -/
  c : Tbl CReg
  pcc : CReg
  ecp : CReg
  scentry : CReg
  scsp : CReg
  scret : CReg
  ecause : BitVec 64
  eval : BitVec 64
  mpuBase : Tbl (BitVec 64)
  mpuAttr : Tbl (BitVec 64)
  /-- The SEL numbers of the registers ecause, eval and of the MPU whose value carries poison (R191). -/
  marked : List Nat
  /-- Waiting in WFI. -/
  wfi : Bool
  /-- Between the iterations of a REPI sequence: the repeated instruction. -/
  repi : Option RepOp
  /-- An access of the pair waits for a domain (R411): the domain, the address and the ACCESS code. -/
  stall : Option (Nat × Nat × Nat)
deriving DecidableEq, Repr

/-! ### Stored-data integrity -/

/-- A Blaze log entry (R195): region, address, kind, count, GAC value of the first occurrence. -/
structure BlzEntry where
  region : Nat
  addr : Nat
  kind : Nat
  count : Nat
  gac : BitVec 64
deriving DecidableEq, Repr

/-- The stored-data blocks beside their registers (R185 to R198). -/
structure Ecc where
  blaze : List BlzEntry
  /-- An event has found the Blaze log full since it last had room (R195). -/
  fullSeen : Bool
  /-- Stored poison marks by region x 2^24 + codeword index, three copies each, a bit a copy (R189). -/
  poison : Tbl (BitVec 3)
  /-- Lines still granted this cycle, the carry, and the rate granted in this cycle (0 while the walk is stopped), of the
  SRAM walk and the Grove walk (R193). -/
  sramLeft : Nat
  cxlLeft : Nat
  sramCarry : Nat
  cxlCarry : Nat
  sramRate : Nat
  cxlRate : Nat
deriving DecidableEq, Repr

end Sys2Proof.Machine
end

