-- ==== Sys2Proof/Machine/State.lean ====
section
/-! DEFINITION. The state of the device: every register, buffer, counter, queue and mode the manual gives it, the free
value counter, what has left its edge, and the queue of the commands that are waiting. -/

namespace Sys2Proof.Machine

/-- The whole device. -/
structure State where
  /-- Registers of BAR 0 and BAR 2 by address; an unlisted one reads its reset value (R14). -/
  regs : Tbl Word
  /-- Registers whose two copies disagree (R25). -/
  regBad : List Nat
  /-- High halves latched by the read of a low half, by address (R10). -/
  latch : Tbl (Option Word)
  /-- 64-bit counters of the port contexts and streams, by the address of their low half. -/
  ctrs : Tbl Nat
  /-- The number of open values drawn so far: the model's own, it indexes Config.freeNat. -/
  free : Nat
  gac : Gac
  cul : Cul
  keys : Keys
  ciq : Ciq
  pke : Pke
  rng : Rng
  nv : Nv
  berm : Berm
  pwr : Pwr
  dma : Tbl DmaCh
  pairs : Tbl Pair
  ecc : Ecc
  grv : Grove
  fp : FPath
  slu : Slu
  lanes : Tbl Lane
  ctxs : Tbl Ctx
  ext : Tbl Extender
  cal : Cal
  cfg : Cfg
  boot : Boot
  twin : Twin
  /-- Applets by APP_ID. -/
  apps : Tbl (Option App)
  fld : FieldIf
  crd : Crd
  /-- Shared SRAM and tightly coupled memory by core address, and the tag of each 16-byte granule. -/
  mem : Tbl Byte
  tags : Tbl Bool
  /-- CXL-attached memory that no other structure of the model holds, by offset. -/
  cxl : Tbl Byte
  /-- What left the device, newest first. -/
  out : List Out
  /-- The commands that are waiting, first in first out. -/
  pending : List Instr
deriving DecidableEq, Repr

/-! ### Reset -/

def Gac.reset : Gac :=
  { now := 0, acc := 0, cycle := 0, incr := 737869762948, passed := 0, mref := [⟨none, none, 0⟩, ⟨none, none, 0⟩, ⟨none, none, 0⟩],
    edges := [], phasor := none, phasorFreq := 0, phasorRun := 0, phasorMiss := 0, errs := [], close := 0, acqMains := false,
    gathered := 0, chk := 0, master := false, zeros := [⟨0, 0, 0, 737869762948, 0, 50000000⟩], step := none, taiTick := 0, taiBase := 0, rate := 0, gmClass := 0, taiSet := none, ptpSeq := 0 }

def Cul.reset : Cul :=
  { bme := false, stalled := [], lastTaken := [255, 255, 255, 255], waits := [], atCycle := [], sessions := [], gens := [],
    challenges := [], refusals := [], locked := [], heldEv := [], lostNow := [], armed := [], owed := [] }

def Keys.reset : Keys :=
  { slots := [], rolls := [], stage := none, work := none, kdf := none, moveId := 0, fldKeys := none, zeroizing := false,
    root := .erased, rootErasing := false, rootGen := 0, factoryGen := 1, idCert := [], idPub := [] }

def Ciq.reset : Ciq :=
  { queues := [[], [], [], []], words := [[], [], [], []], running := [], waiting := [], blocks := 0, nextTag := 0 }

def Pke.reset : Pke :=
  { queue := [], running := none, suspended := [], aborted := [], words := [], waiting := [], order := 0, kreg := none, area := none, parts := [none, none, none, none, none] }

def Rng.reset : Rng := { live := false, failed := [], zeros := 0, reqs := 0, raw := [], draws := 0, seed := [], acc := [[], [], [], []], blocks := [] }

def Nv.reset : Nv :=
  { bytes := [], staging := [], op := none, queue := [], remap := [], sparesUsed := [], journal := [], jseq := 0, booted := 0,
    opKeys := [], recSeq := 0 }

def Berm.reset : Berm :=
  { log := [], backup := false, lossGac := 0, lossTai := 0, lossPtp := false, counted := 0, coldNext := true, dipping := false,
    dipTick := 0, settling := false, breach := false }

def Ecc.reset : Ecc :=
  { blaze := [], fullSeen := false, poison := [], sramLeft := 0, cxlLeft := 0, sramCarry := 0, cxlCarry := 0, sramRate := 0, cxlRate := 0 }

def CxlLink.reset : CxlLink := ⟨false, false, false, false, false, 0, false⟩

def Grove.reset : Grove :=
  { copseKey := 0, hashKey := 0, newKey := 0, kgEnc := none, kgMac := none, lines := [], copse := [], hands := [], fills := [],
    nextFill := 0, links := [CxlLink.reset, CxlLink.reset], mig := none, atB5 := false }

def FPath.reset : FPath :=
  { frames := [], nextId := 0, nextOrd := 0, hostCount := [], demoted := false, stomped := false, syncs := [],
    cores := List.replicate 12 (0, 0) }

def Cal.reset : Cal :=
  { lanes := [], tested := List.replicate 12 0, testing := none, lastStart := 0, gacDone := false, stale := false }

def Cfg.reset : Cfg :=
  { active := CfgSet.defaults, older := [], shadow := none, commit := none, drain := none, epoch := 0, waitUp := [] }

def Boot.reset : Boot := { report := [], open_ := false, count := 0, full := false, wdtAt := 0, atRom := false }

def TwinHs.reset : TwinHs := ⟨0, 0, [], [], [], [], 0, [], []⟩

def Twin.reset : Twin :=
  { tl := [0, 0], hs := TwinHs.reset, peerDigest := [], peerPub := [], peerCred := [], cak := [], txSeq := 0, rxSeen := [], rxSak := false,
    txSak := false, peer := none, readies := [], takeover := none, time := none, sent := none, close := 0, keyDiff := 0,
    cred := none, authPub := none, members := [], leaderIdx := none, lastBeacon := 0, lastTm := 0, scheds := [], handled := [],
    nextSeq := 0, claim := 0, peerLeads := false }

def FieldIf.reset : FieldIf :=
  { star := false, level := 0, uid := [], hs := none, seq := 0, role := 0, rateTx := 0, mbxDue := false }

/-- The registers that the first bring-up stage leaves at another value than their reset value: pair 0 RUNNING (R301),
RST_CAUSE and RST_COUNT of POWER_ON (R450), BERM, KEYS, NVA and ROOT ON (Table BRU-2), and DMA channels 0 to 15 assigned
to Aeduf (R248). -/
def resetWords : Tbl Word :=
  (0x3204, 0x40000000) :: (0x10004, 0x2) :: (0x10024, 0x1) :: (0x10400, 0xAA)
    :: (List.range 16).map (fun n => (0xE1020 + 0x40 * n, 0x800FFFFF))

/-- The device right after POWER_ON, with stage B1 complete (R449 to R454): a fresh part, its NV array erased. -/
def State.reset : State :=
  { regs := resetWords, regBad := [], latch := [], ctrs := [], free := 0, gac := Gac.reset, cul := Cul.reset, keys := Keys.reset,
    ciq := Ciq.reset, pke := Pke.reset, rng := Rng.reset, nv := Nv.reset, berm := Berm.reset, pwr := ⟨[], [], []⟩, dma := [],
    pairs := [], ecc := Ecc.reset, grv := Grove.reset, fp := FPath.reset, slu := ⟨[], [], []⟩, lanes := [], ctxs := [], ext := [],
    cal := Cal.reset, cfg := Cfg.reset, boot := { Boot.reset with report := [(8, 2, 0, 1)], count := 1 }, twin := Twin.reset, apps := [], fld := FieldIf.reset, crd := ⟨false⟩,
    mem := [], tags := [], cxl := [], out := [], pending := [] }

/-- Why the device stops with a fault. Nothing the manual describes stops the block, and every operand of a command has
a meaning: there is no fault. -/
inductive Fault where
deriving DecidableEq, Repr

/-- Why a command is refused. -/
inductive Refusal where
  /-- Raised by a dispatch arm that has no meaning yet. Safe: nothing is claimed of it. -/
  | notModelled (mnemonic : String)
deriving DecidableEq, Repr

/-- What a command answers. -/
abbrev Res := Host.Outcome State Fault Refusal

end Sys2Proof.Machine
end

