-- ==== Sys2Proof/Machine/Ops.lean ====
section
/-! DEFINITION. The operations every block uses: registers and their fields, counters, open values, the GAC value, core
interrupts, event flags and event rings (R9, R16, R27, R219 to R223, R480). -/

namespace Sys2Proof.Machine

/-! ### Registers, counters and open values -/

/-- The word a register holds. -/
def State.rd (s : State) (a : Nat) : Word := Tbl.get regReset s.regs a

/-- Set a register. -/
def State.wr (s : State) (a : Nat) (v : Word) : State := { s with regs := Tbl.set regReset s.regs a v }

/-- A field of a register. -/
def State.f (s : State) (f : Fld) : Nat := bitsOf (s.rd f.addr).toNat f.lo f.w

/-- A one-bit field. -/
def State.fb (s : State) (f : Fld) : Bool := s.f f ≠ 0

/-- Set a field. -/
def State.setF (s : State) (f : Fld) (x : Nat) : State :=
  s.wr f.addr (BitVec.ofNat 32 (putBits (s.rd f.addr).toNat f.lo f.w x))

/-- Set a one-bit field. -/
def State.setB (s : State) (f : Fld) (b : Bool) : State := s.setF f (b2n b)

/-- Add to a field, wrapping at its width. -/
def State.addF (s : State) (f : Fld) (n : Nat) : State := s.setF f (s.f f + n)

/-- Add to a field, stopping at all ones. -/
def State.addSat (s : State) (f : Fld) (n : Nat) : State := s.setF f (min (s.f f + n) (2 ^ f.w - 1))

/-- A 64-bit quantity in two adjacent registers (R10). -/
def State.rd64 (s : State) (a : Nat) : Nat := (s.rd a).toNat + 2 ^ 32 * (s.rd (a + 4)).toNat
def State.wr64 (s : State) (a : Nat) (v : Nat) : State :=
  (s.wr a (BitVec.ofNat 32 v)).wr (a + 4) (BitVec.ofNat 32 (v / 2 ^ 32))

/-- Registers of a block return to their reset values. -/
def State.resetRegs (s : State) (p : Nat → Bool) : State :=
  { s with regs := Tbl.clear s.regs p, regBad := s.regBad.filter (fun a => !p a) }

/-- A 64-bit counter. -/
def State.ctr (s : State) (a : Nat) : Nat := Tbl.get (fun _ => 0) s.ctrs a
def State.setCtr (s : State) (a n : Nat) : State := { s with ctrs := Tbl.set (fun _ => 0) s.ctrs a n }

/-- Count `n` at a 64-bit counter, which wraps. -/
def State.bump (s : State) (a n : Nat) : State := s.setCtr a ((s.ctr a + n) % 2 ^ 64)

/-- The next open value, and the state that has drawn it. -/
def State.open_ (s : State) : Nat × State := (Config.freeNat s.free, { s with free := s.free + 1 })

/-- The next open value below `n`. -/
def State.openBelow (s : State) (n : Nat) : Nat × State := (Config.freeNat s.free % n, { s with free := s.free + 1 })

/-- `n` open bytes. -/
def State.openBytes (s : State) (n : Nat) : List Byte × State :=
  let (v, s) := s.open_
  (toLe n v, s)

/-- Something leaves the device. -/
def State.emit (s : State) (o : Out) : State := { s with out := o :: s.out }

/-- The effect `g` where `c` holds, and nothing otherwise. -/
def State.doIf (s : State) (c : Bool) (g : State → State) : State := if c then g s else s

/-- The effect of each element of a list, in order. -/
def State.forEach {α : Type} (s : State) (l : List α) (g : State → α → State) : State := l.foldl g s

/-! ### Time -/

/-- The angle now, 24 bits (R27). -/
def State.angle (s : State) : Nat := s.gac.acc.toNat / 2 ^ 40

/-- The GAC value: cycle number in [63:24], angle in [23:0] (R27). -/
def State.gacNow (s : State) : BitVec 64 := BitVec.ofNat 64 (s.gac.cycle.toNat * 2 ^ 24 + s.angle)

/-- The cycle number now. -/
def State.cycle (s : State) : Nat := s.gac.cycle.toNat

/-- TAI time in 2^-16 ns at a TBCLK tick, from the base and the rate correction (R37, R39). -/
def Gac.taiAt (g : Gac) (tick : Nat) : Nat :=
  (g.taiBase + ((tick : Int) - g.taiTick) * 524288 * (10 ^ 12 + g.rate) / 10 ^ 13).toNat

/-- TAI time now, in 2^-16 ns. -/
def State.tai (s : State) : Nat := s.gac.taiAt s.gac.now

/-- TAI nanoseconds since the epoch. -/
def State.taiNs (s : State) : Nat := s.tai / 65536

/-! ### On-chip memory by core address (Table ISA-5) -/

def sramBase : Nat := 0x20000000
def State.memB (s : State) (a : Nat) : Byte := Tbl.get (fun _ => 0) s.mem a
def State.memRead (s : State) (a n : Nat) : List Byte := (rangeFrom a n).map s.memB

/-- Bytes stored from address `a` up. -/
def memPut (m : Tbl Byte) : Nat → List Byte → Tbl Byte
  | _, [] => m
  | a, b :: t => memPut (Tbl.set (fun _ => 0) m a b) (a + 1) t

/-- The core address at which a swept SRAM region begins (Tables SDI-1 and ISA-5). -/
def regionBase (r : Nat) : Nat := if r = 2 then sramBase else 0x10000000 + (r - 4) * 0x100000

/-- The region and codeword index of a core address, where it lies in shared SRAM or tightly coupled memory. -/
def codewordOf (a : Nat) : Option (Nat × Nat) :=
  if sramBase ≤ a && a < sramBase + 0x400000 then some (2, (a - sramBase) / 32)
  else if 0x10000000 ≤ a && a < 0x10500000 && (a - 0x10000000) % 0x100000 < 0x80000 then
    some (4 + (a - 0x10000000) / 0x100000, (a - 0x10000000) % 0x100000 / 32)
  else none

/-- A poison mark as its three stored copies read, by majority (R189). -/
def markSet (m : BitVec 3) : Bool := decide (2 ≤ b2n (m.getLsbD 0) + b2n (m.getLsbD 1) + b2n (m.getLsbD 2))

/-- The key of a stored poison mark. -/
def poisonKey (r cw : Nat) : Nat := r * 2 ^ 24 + cw

/-- The core address of the first byte of a marked codeword, for the regions that cores address. -/
def markStart (k : Nat) : Nat := regionBase (k / 2 ^ 24) + k % 2 ^ 24 * 32

/-- A stored mark lies on a codeword of a region that cores address. -/
def markInMem (k : Nat) : Bool := let r := k / 2 ^ 24; r = 2 || (decide (4 ≤ r) && decide (r ≤ 8))

/-- The offset of the first poisoned codeword within `n` bytes from core address `a`, where there is one (R256). -/
def State.firstPoison (s : State) (a n : Nat) : Option Nat :=
  ((s.ecc.poison.filter (fun e => markSet e.2 && markInMem e.1 && decide (markStart e.1 < a + n) && decide (a < markStart e.1 + 32))).map
    (fun e => markStart e.1 - a)).min?

/-- The DETAIL of MEMORY_POISON for a core address: region [31:24], codeword index [23:0] (R190). -/
def poisonDetail (a : Nat) : Nat := match codewordOf a with | some (r, c) => r * 2 ^ 24 + c | none => 0

/-- Store bytes: the tags of the granules written are cleared (R299), and the poison marks of the codewords written
whole (R189). -/
def State.memWrite (s : State) (a : Nat) (bs : List Byte) : State :=
  { s with mem := memPut s.mem a bs,
           tags := s.tags.filter (fun e => !(decide (a / 16 ≤ e.1) && decide (e.1 * 16 < a + bs.length))),
           ecc := { s.ecc with poison := s.ecc.poison.filter (fun e =>
             !(markInMem e.1 && decide (a ≤ markStart e.1) && decide (markStart e.1 + 32 ≤ a + bs.length))) } }

/-! ### Bytes that engines read and write by core address (R253, R349) -/

def cxlBase : Nat := 0x1000000000
def culvertBase : Nat := 0x2000000000

/-- `n` bytes at a core address: on-chip memory, attached memory, or the Culvert, whose bytes the host supplies. -/
def State.fetchBytes (s : State) (a n : Nat) (host : List Byte) : List Byte :=
  if culvertBase ≤ a then fitB n host
  else if cxlBase ≤ a then (rangeFrom (a - cxlBase) n).map (fun i => Tbl.get (fun _ => 0) s.cxl i)
  else s.memRead a n

/-- Bytes written at a core address. -/
def State.storeBytes (s : State) (a : Nat) (bs : List Byte) : State :=
  if bs = [] then s
  else if culvertBase ≤ a then s.emit (.hostWrite (a - culvertBase) bs)
  else if cxlBase ≤ a then { s with cxl := memPut s.cxl (a - cxlBase) bs }
  else s.memWrite a bs

/-- Generate requests of at most 512 bits that `k` bytes take (R374). -/
def drawRequests (k : Nat) : Nat := max 1 ((k + 63) / 64)

/-- The next draw of `k` bytes from the random bit source, out of the seed material in use (R374, R376). -/
def State.drawBytes (s : State) (k : Nat) : List Byte × State :=
  ((List.range k).map (fun i => Config.rngByte s.rng.seed s.rng.draws i),
    { s.addSat F.RNG_STS_REQUESTS (drawRequests k) with
      rng := { s.rng with draws := s.rng.draws + 1, reqs := s.rng.reqs + drawRequests k } })

/-! ### Core interrupts (R327) -/

/-- Make interrupt source `src` pending on a core pair. -/
def State.irq (s : State) (pair src : Nat) : State :=
  let a := R.DEV_IRQ_PEND (pair * 8 + src / 32)
  s.wr a (s.rd a ||| BitVec.ofNat 32 (2 ^ (src % 32)))

/-- Make interrupt source `src` pending on all five pairs. -/
def State.irqAll (s : State) (src : Nat) : State := s.forEach [0, 1, 2, 3, 4] (fun s p => s.irq p src)

/-! ### MSI-X (R223, R228) -/

/-- Signal a vector: a masked one sets its pending bit. -/
def State.msix (s : State) (v : Nat) : State :=
  if bitAt (s.rd (R.MSIX_CTL v)).toNat 0 then
    let a := R.MSIX_PBA (v / 32)
    s.wr a (s.rd a ||| BitVec.ofNat 32 (2 ^ (v % 32)))
  else s.emit (.msix v)

/-- Arm a vector. -/
def State.arm (s : State) (v : Nat) : State :=
  { s with cul := { s.cul with armed := v :: s.cul.armed.filter (· ≠ v) } }

/-- Signal a vector once if it is armed, and disarm it. -/
def State.signalArmed (s : State) (v : Nat) : State :=
  if v ∈ s.cul.armed then { s with cul := { s.cul with armed := s.cul.armed.filter (· ≠ v) } }.msix v else s

/-! ### Event rings (R219 to R221) -/

/-- The ring is enabled and runs. -/
def State.eringOn (s : State) (e : Nat) : Bool := s.fb (F.CUL_ERING_CTL_EN e) && (s.f (F.CUL_ERING_STS_STATE e) = 1)

/-- The number of entries of event ring `e` (R202). -/
def State.eringSize (s : State) (e : Nat) : Nat := 2 ^ (min (s.f (F.CUL_ERING_CTL_SIZE e)) 12 + 4)

/-- Entries the host has not consumed. -/
def State.eringUsed (s : State) (e : Nat) : Nat :=
  (s.f (F.CUL_ERING_IDX_TAIL e) + 65536 - s.f (F.CUL_ERING_IDX_HEAD e)) % 65536

/-- The ring is full (R221). -/
def State.eringFull (s : State) (e : Nat) : Bool := s.eringUsed e = s.eringSize e

/-- Events held on chip for a ring. -/
def State.heldEv (s : State) (e : Nat) : List Event := Tbl.get (fun _ => []) s.cul.heldEv e
def State.setHeldEv (s : State) (e : Nat) (l : List Event) : State :=
  { s with cul := { s.cul with heldEv := Tbl.set (fun _ => []) s.cul.heldEv e l } }
def State.lostNow (s : State) (e : Nat) : Nat := Tbl.get (fun _ => 0) s.cul.lostNow e
def State.setLostNow (s : State) (e n : Nat) : State :=
  { s with cul := { s.cul with lostNow := Tbl.set (fun _ => 0) s.cul.lostNow e n } }

/-- Write one entry at TAIL with its PHASE, advance TAIL and signal the vector if armed (R219, R223). -/
def State.putEntry (s : State) (e : Nat) (ev : Event) : State :=
  let i := s.f (F.CUL_ERING_IDX_TAIL e)
  let n := s.eringSize e
  ((s.emit (.event e (i % n) (i / n % 2 = 0) ev)).setF (F.CUL_ERING_IDX_TAIL e) (i + 1)).signalArmed e

/-- The entry that reports a ring's discarded events (R221, R480). -/
def overflowEvent (e n : Nat) (g : BitVec 64) : Event := ⟨13, 1, 0, g, BitVec.ofNat 128 (n % 2 ^ 32 + e * 2 ^ 32)⟩

/-- Write what is held while the ring has space: OVERFLOW first, then the held events in order (R221). -/
def State.drainEv : Nat → Nat → State → State
  | 0, _, s => s
  | fuel + 1, e, s =>
    if !s.cul.bme || !s.eringOn e || s.eringFull e then s
    else if s.lostNow e ≠ 0 then
      State.drainEv fuel e ((s.setLostNow e 0).putEntry e (overflowEvent e (s.lostNow e) s.gacNow))
    else match s.heldEv e with
      | [] => s
      | ev :: t => State.drainEv fuel e ((s.setHeldEv e t).putEntry e ev)

/-- Everything held for a ring that can be written. -/
def State.drainRing (s : State) (e : Nat) : State := State.drainEv ((s.heldEv e).length + 2) e s

/-- An event for ring `e`: written, held, or counted as lost; a completion is never lost (R221). -/
def State.postTo (s : State) (e : Nat) (ev : Event) : State :=
  if (s.heldEv e).length < 64 || ev.cls = 0 then (s.setHeldEv e (s.heldEv e ++ [ev])).drainRing e
  else (s.setLostNow e (s.lostNow e + 1)).addF (F.CUL_ERING_LOST_COUNT e) 1

/-- An event goes to the ring its class is mapped to, or is counted as unmapped (R220); every pair sees source
32 + class pending. -/
def State.post (s : State) (ev : Event) : State :=
  let s := s.irqAll (32 + ev.cls)
  let e := s.f (F.CUL_EVMAP_RING ev.cls)
  if s.fb (F.CUL_EVMAP_NONE ev.cls) || !s.eringOn e then s.addF F.CUL_EV_UNMAPPED_COUNT 1
  else s.postTo e ev

/-- An event register, its enables, and the class and source code of its entries (Table CUL-14). -/
structure EvtSrc where
  evt : Nat
  en : Nat
  cls : Nat
  code : Nat
deriving DecidableEq, Repr

/-- Set an event flag; while it is enabled, place its entry (R480). -/
def State.raise (s : State) (src : EvtSrc) (bit : Nat) (data : Nat) : State :=
  let s := s.wr src.evt (s.rd src.evt ||| BitVec.ofNat 32 (2 ^ bit))
  if bitAt (s.rd src.en).toNat bit then s.post ⟨src.cls, src.code * 256 + bit, 0, s.gacNow, BitVec.ofNat 128 data⟩ else s

/-- An entry of a source that no enable gates (R480). -/
def State.postCode (s : State) (cls code bit data : Nat) : State :=
  s.post ⟨cls, code * 256 + bit, 0, s.gacNow, BitVec.ofNat 128 data⟩

/-! The sources of Table CUL-14. -/
def gacEvt : EvtSrc := ⟨R.GAC_EVT, R.GAC_EVT_EN, 1, 0⟩
def sluEvt : EvtSrc := ⟨R.SLU_EVT, R.SLU_EVT_EN, 2, 0⟩
def fpxEvt : EvtSrc := ⟨R.FPX_EVT, R.FPX_EVT_EN, 3, 0⟩
def keyEvt : EvtSrc := ⟨R.KEY_EVT, R.KEY_EVT_EN, 3, 1⟩
def pkeEvt : EvtSrc := ⟨R.PKE_EVT, R.PKE_EVT_EN, 3, 2⟩
def rngEvt : EvtSrc := ⟨R.RNG_EVT, R.RNG_EVT_EN, 3, 3⟩
def lneEvt : EvtSrc := ⟨R.LNE_EVT, R.LNE_EVT_EN, 4, 0⟩
def extEvt : EvtSrc := ⟨R.EXT_EVT, R.EXT_EVT_EN, 4, 1⟩
def calEvt : EvtSrc := ⟨R.CAL_EVT, R.CAL_EVT_EN, 5, 0⟩
def grvEvt : EvtSrc := ⟨R.GRV_EVT, R.GRV_EVT_EN, 6, 0⟩
def eccEvt : EvtSrc := ⟨R.ECC_EVT, R.ECC_EVT_EN, 6, 1⟩
def swpEvt : EvtSrc := ⟨R.SWP_EVT, R.SWP_EVT_EN, 6, 2⟩
def tmpEvt : EvtSrc := ⟨R.TMP_EVT, R.TMP_EVT_EN, 7, 0⟩
def pwrEvt : EvtSrc := ⟨R.PWR_EVT, R.PWR_EVT_EN, 8, 0⟩
def rstEvt : EvtSrc := ⟨R.RST_EVT, R.RST_EVT_EN, 8, 1⟩
def twnEvt : EvtSrc := ⟨R.TWN_EVT, R.TWN_EVT_EN, 9, 0⟩
def cfgEvt : EvtSrc := ⟨R.CFG_EVT, R.CFG_EVT_EN, 10, 0⟩
def nvaEvt : EvtSrc := ⟨R.NVA_EVT, R.NVA_EVT_EN, 11, 0⟩
def fldEvt : EvtSrc := ⟨R.FLD_EVT, R.FLD_EVT_EN, 12, 0⟩
def crdEvt : EvtSrc := ⟨R.CRD_EVT, R.CRD_EVT_EN, 12, 1⟩
def scdEvt : EvtSrc := ⟨R.SCD_EVT, R.SCD_EVT_EN, 12, 2⟩

/-- A DATA item at byte `o` of DATA. -/
def dat (o v : Nat) : Nat := v * 2 ^ (8 * o)

end Sys2Proof.Machine
end

