-- ==== Sys2Proof/Machine/EccOps.lean ====
section
/-! DEFINITION. Stored-data errors and the tamper log: the Blaze log, error counts and poison marks (R188 to R195), and
the LOG and NOTIFY actions that every alarm takes (R397, R400, R404). -/

namespace Sys2Proof.Machine

/-! ### The Reed-Solomon code (R185) -/

/-- Multiply by α = 0x02 in GF(2^8) under 0x11D. -/
def gfDouble (a : Nat) : Nat := if a < 128 then 2 * a else (2 * a) ^^^ 0x11D

/-- Multiply in GF(2^8). -/
def gfMul (a b : Nat) : Nat :=
  ((List.range 8).foldl (fun (r : Nat × Nat) i => (if b.testBit i then r.1 ^^^ r.2 else r.1, gfDouble r.2)) (0, a)).1

/-- α to a power. -/
def gfExp (e : Nat) : Nat := (List.range e).foldl (fun a _ => gfDouble a) 1

/-- The inverse of a nonzero element, its 254th power. -/
def gfInv (a : Nat) : Nat := (List.range 253).foldl (fun r _ => gfMul r a) a

/-- A polynomial's value at `x`, its highest coefficient first. -/
def gfEval (p : List Nat) (x : Nat) : Nat := p.foldl (fun r c => gfMul r x ^^^ c) 0

/-- The generator polynomial (x - α^0)(x - α^1) ... (x - α^5), its highest coefficient first. -/
def rsGen : List Nat :=
  (List.range 6).foldl (fun g i => (g ++ [0]).zipWith (fun a b => a ^^^ gfMul (gfExp i) b) (0 :: g)) [1]

/-- The 6 check symbols of a message: the remainder of its division by the generator polynomial. -/
def rsParity (m : List Nat) : List Nat :=
  m.foldl (fun r d => let q := d ^^^ r.headD 0
    (r.drop 1 ++ [0]).zipWith (fun a g => a ^^^ gfMul q g) (rsGen.drop 1)) [0, 0, 0, 0, 0, 0]

/-- What the decoder makes of a received word: no error, the symbols in error with what is wrong in them, or an error
beyond correction. -/
inductive RsOut where
  | clean
  | fix (at_ : List (Nat × Nat))
  | bad
deriving DecidableEq, Repr

/-- Decode a received word, its highest coefficient first: one or two symbols are corrected, and any other word that is
no codeword is uncorrectable (R185). -/
def rsDecode (w : List Nat) : RsOut :=
  let syn := (List.range 6).map (fun j => gfEval w (gfExp j))
  let S := fun j => syn.getD j 0
  let places := List.range w.length
  let X := fun i => gfExp (w.length - 1 - i)
  if syn.all (· = 0) then .clean
  else
    match places.find? (fun i => S 0 ≠ 0 && (List.range 5).all (fun j => S (j + 1) = gfMul (X i) (S j))) with
    | some i => .fix [(i, S 0)]
    | none =>
      let d := gfMul (S 0) (S 2) ^^^ gfMul (S 1) (S 1)
      if d = 0 then .bad
      else
        let l1 := gfMul (gfMul (S 0) (S 3) ^^^ gfMul (S 1) (S 2)) (gfInv d)
        let l2 := gfMul (gfMul (S 1) (S 3) ^^^ gfMul (S 2) (S 2)) (gfInv d)
        if S 4 ≠ gfMul l1 (S 3) ^^^ gfMul l2 (S 2) || S 5 ≠ gfMul l1 (S 4) ^^^ gfMul l2 (S 3) then .bad
        else match places.filter (fun i => gfMul (X i) (X i) ^^^ gfMul l1 (X i) ^^^ l2 = 0) with
          | [i, j] =>
            let y := gfMul (gfMul (S 0) (X j) ^^^ S 1) (gfInv (X i ^^^ X j))
            .fix [(i, y), (j, S 0 ^^^ y)]
          | _ => .bad

/-- The 36 symbols over which the check symbols of an SRAM codeword are computed: region, index and data (R186). -/
def sramSymbols (region cw : Nat) (data : List Byte) : List Nat :=
  region :: cw / 65536 % 256 :: cw / 256 % 256 :: cw % 256 :: data.map (·.toNat)

/-- The 6 check symbols of an SRAM codeword (R186). -/
def sramCheck (region cw : Nat) (data : List Byte) : List Nat := rsParity (sramSymbols region cw data)

/-- The CHECK symbols of a Grove line, over its 64 stored bytes (R187). -/
def lineCheck (stored : List Byte) : List Byte := (rsParity (stored.map (·.toNat))).map (BitVec.ofNat 8)

/-- Flip symbols of a stored word. -/
def flipSyms (w : List Nat) (l : List (Nat × Nat)) : List Nat := l.foldl (fun w e => setL w e.1 (w.getD e.1 0 ^^^ e.2)) w

/-- What a read of a codeword finds: no error, its symbols corrected with what the correction leaves of the flips in the
data, an uncorrectable error, or an error decoded in an address symbol (R186, R188). -/
inductive EccFind where
  | clean
  | corr (symbols : Nat) (data : List Byte)
  | uncorr
  | addr
deriving DecidableEq, Repr

/-- Decode the codeword that a read brings: its data and check symbols as stored under the address at which they lie,
with their flips, beside the address of the access (R186). -/
def eccOf (region cw : Nat) (data : List Byte) (h : EccHit) : EccFind :=
  let home := match h.astray with | some (r, c) => (r.toNat, c.toNat) | none => (region, cw)
  let stored := flipSyms (data.map (·.toNat) ++ sramCheck home.1 home.2 data) (h.syms.map (fun e => (e.1.val, e.2.toNat)))
  let word := (sramSymbols region cw []) ++ stored
  match rsDecode word with
  | .clean => .clean
  | .bad => .uncorr
  | .fix l => if l.any (fun e => e.1 < 4) then .addr
    else .corr l.length (((flipSyms word l).drop 4).take 32 |>.zipWith (fun a b => BitVec.ofNat 8 a ^^^ b) data)

/-! ### The Blaze log (R195) -/

/-- Record an event: merge it, add it, or count it as lost while the log is frozen. -/
def State.blaze (s : State) (region addr kind : Nat) : State :=
  if s.ecc.blaze.any (fun e => e.region = region && e.addr = addr) then
    { s with ecc := { s.ecc with blaze := s.ecc.blaze.map (fun e =>
        if e.region = region && e.addr = addr then { e with count := min 255 (e.count + 1), kind := max e.kind kind } else e) } }
  else if 32 ≤ s.ecc.blaze.length then
    let first := !s.ecc.fullSeen
    let s := { s.addF F.BLZ_LOST_COUNT 1 with ecc := { s.ecc with fullSeen := true } }
    if first then s.raise eccEvt 2 (region + dat 8 addr) else s
  else { s with ecc := { s.ecc with blaze := s.ecc.blaze ++ [⟨region, addr, kind, 1, s.gacNow⟩] } }

/-- A correctable error of one or two symbols, at its byte or line offset (R188, R196). -/
def State.eccCorr (s : State) (region addr symbols : Nat) : State :=
  (s.addF (F.ECC_CORR_COUNT region) 1).blaze region addr symbols

/-- The three stored copies of a codeword's poison mark (R189). -/
def State.marks (s : State) (region cw : Nat) : BitVec 3 := Tbl.get (fun _ => 0) s.ecc.poison (poisonKey region cw)
def State.setMarks (s : State) (region cw : Nat) (m : BitVec 3) : State :=
  { s with ecc := { s.ecc with poison := Tbl.set (fun _ => 0) s.ecc.poison (poisonKey region cw) m } }

/-- A codeword is poisoned where the majority of its marks say so. -/
def State.poisoned (s : State) (region cw : Nat) : Bool := markSet (s.marks region cw)

/-- Set or clear the stored poison mark of a codeword: all three copies. -/
def State.setPoison (s : State) (region cw : Nat) : State := s.setMarks region cw 7
def State.clearPoison (s : State) (region cw : Nat) : State := s.setMarks region cw 0

/-! ### Tamper log and response in force (R400, R404) -/

/-- A TMP_EVT flag; on the backup cell no event entry can be placed (R402). -/
def State.tmpFlag (s : State) (bit src : Nat) : State :=
  if s.berm.backup then s.wr R.TMP_EVT (s.rd R.TMP_EVT ||| BitVec.ofNat 32 (2 ^ bit)) else s.raise tmpEvt bit src

/-- The response in force, 0 none to 5 BREACH. -/
def State.level (s : State) : Nat := s.f F.TMP_STS_LEVEL

/-- The time of a log entry: on the backup cell, the time at the loss plus the time counted since (R405). -/
def State.logTai (s : State) : Nat := if s.berm.backup then s.berm.lossTai + s.berm.counted else s.taiNs

/-- Write a tamper log entry with the GAC value of its alarm (Table TMP-3). -/
def State.tmpLogAt (s : State) (src lvl data : Nat) (g : BitVec 64) : State :=
  let n := s.f F.TMP_LOG_COUNT
  let i := if n = 0 then 0 else (s.f F.TMP_LOG_HEAD + 1) % 256
  let seq := s.f F.TMP_LOG_SEQ_SEQ + 1
  let ok := if s.berm.backup then s.berm.lossPtp else s.fb F.GAC_PTP_STATUS_LOCK
  let e : LogEntry := { seq := seq, source := src, level := lvl, inForce := s.level, flags := b2n s.berm.backup + 2 * b2n ok,
                        gac := if s.berm.backup then s.berm.lossGac else g, taiSec := s.logTai / 10 ^ 9, taiNs := s.logTai % 10 ^ 9, data := data }
  let s := { s with berm := { s.berm with log := Tbl.set (fun _ => none) s.berm.log i (some e) } }
  let s := ((s.setF F.TMP_LOG_HEAD i).setF F.TMP_LOG_COUNT (min 256 (n + 1))).setF F.TMP_LOG_SEQ_SEQ seq
  s.doIf (n = 256) (·.tmpFlag 3 src)

def State.tmpLog (s : State) (src lvl data : Nat) : State := s.tmpLogAt src lvl data s.gacNow

/-- The response in force rises to a stronger one (R400). -/
def State.raiseLevel (s : State) (lvl src : Nat) : State :=
  if s.level < lvl then (s.setF F.TMP_STS_LEVEL lvl).tmpFlag 1 src else s

/-- The LOG and NOTIFY actions of an alarm: the response in force, the log entry, and from NOTIFY on the event entry
that no enable gates (R397, R480); on the backup cell a response is only logged (R402). -/
def State.alarmAt (s : State) (src lvl data : Nat) (g : BitVec 64) : State :=
  let s := (s.raiseLevel lvl src).tmpLogAt src lvl data g
  if 2 ≤ lvl ∧ s.berm.backup = false then
    s.post ⟨7, 256 + src, 0, g, BitVec.ofNat 128 (s.f F.TMP_LOG_SEQ_SEQ + dat 4 lvl + dat 5 s.level + dat 8 data)⟩
  else s

def State.alarm (s : State) (src lvl data : Nat) : State := s.alarmAt src lvl data s.gacNow

/-- A NOTIFY response of an internal check (Table TMP-2). -/
def State.notify (s : State) (src : Nat) : State := s.alarm src 2 0

/-- An uncorrectable or address error (R186, R188): the mark is set, the error counted once and its place recorded. -/
def State.eccUncorr (s : State) (region cw off : Nat) (addrErr : Bool) : State :=
  if s.poisoned region cw then s
  else
    let s := (s.setPoison region cw).addF (F.ECC_UNCORR_COUNT region) 1
    let s := s.wr R.ECC_UNC_ADDR_LO (BitVec.ofNat 32 off)
    let s := s.wr R.ECC_UNC_ADDR_HI (BitVec.ofNat 32 (2 ^ 31 + b2n addrErr * 2 ^ 30 + region * 2 ^ 16 + off / 2 ^ 32 % 256))
    let s := s.raise eccEvt 0 (region + dat 8 off)
    if addrErr then (s.raise eccEvt 1 (region + dat 8 off)).notify 0x25 else s

/-- The data of a codeword where a core can address it; the code is linear, so that what a read finds elsewhere does not
depend on the data, which the model does not lay out in bytes there. -/
def State.cwData (s : State) (region cw : Nat) : List Byte :=
  if region = 2 || (4 ≤ region && region ≤ 8) then s.memRead (regionBase region + cw * 32) 32 else List.replicate 32 0

/-- A read of a codeword: what it meets beside its data, whether the reader gets poison, and what the decoder counts. A
marked codeword is not decoded (R188). -/
def State.eccRead (s : State) (region : Nat) (hit : Option EccHit) : State × Bool :=
  match hit with
  | none => (s, false)
  | some h =>
    let cw := h.cw.toNat
    let s := s.setMarks region cw (s.marks region cw ^^^ h.marks)
    if s.poisoned region cw then (s, true)
    else match eccOf region cw (s.cwData region cw) h with
      | .clean => (s, false)
      | .corr n left =>
        let put := fun (s : State) =>
          { s with mem := memPut s.mem (regionBase region + cw * 32) ((s.cwData region cw).zipWith (· ^^^ ·) left) }
        ((s.eccCorr region (cw * 32) n).doIf (left.any (· ≠ 0)) put, false)
      | .uncorr => (s.eccUncorr region cw (cw * 32) false, true)
      | .addr => (s.eccUncorr region cw (cw * 32) true, true)

/-- The codewords that a read covers carry poison, whether by a stored mark or by what the decoder finds (R188). -/
def State.eccReads (s : State) (region : Nat) (cws : List Nat) (hit : Option EccHit) : State × Bool :=
  let (s, bad) := s.eccRead region hit
  (s, bad || cws.any (s.poisoned region))

/-- What the decoder finds of the codewords that `n` bytes at a core address cover, where they lie in on-chip SRAM: the
state after, its poison marks set by what is beyond correction (R188). -/
def State.eccSpan (s : State) (x n : Nat) (hits : List EccHit) : State :=
  match codewordOf x with
  | none => s
  | some (r, c) =>
    s.forEach (hits.filter (fun h => decide (c ≤ h.cw.toNat) && decide (h.cw.toNat < c + (x % 32 + n + 31) / 32)))
      (fun s h => (s.eccRead r (some h)).1)

/-- The DETAIL of MEMORY_POISON for a codeword (R190). -/
def cwDetail (region cw : Nat) : Nat := region * 2 ^ 24 + cw

/-- The codewords of a slot in the key slot file (Table SDI-1): four of 32 bytes each. That they lie in slot order is
PRESUMED, log entry 55. -/
def slotCws (i : Nat) : List Nat := [4 * i, 4 * i + 1, 4 * i + 2, 4 * i + 3]

/-- A slot's codewords carry poison (R117, R190). -/
def State.slotBad (s : State) (i : Nat) : Bool := (slotCws i).any (s.poisoned 3)

/-- The DETAIL of MEMORY_POISON where key slots that are read carry poison (R190). -/
def State.slotPoison (s : State) (l : List Nat) : Option Nat :=
  ((l.flatMap slotCws).find? (fun c => s.poisoned 3 c)).map (cwDetail 3)

end Sys2Proof.Machine
end

