-- ==== Sys2Proof/Machine/Parse.lean ====
section
/-! DEFINITION. What the ingress parser reads of a frame: E-tag, SecTAG, VLAN tags, HSR tag and PRP trailer, IP headers,
and the stream key (R50 to R56, R98, R133). A frame stands as its bytes from destination address up to, and not
including, the FCS. -/

namespace Sys2Proof.Machine

/-! ### Fixed fields -/

/-- Destination and source address. -/
def daOf (b : List Byte) : Nat := beAt b 0 6

/-- The EtherType after the source address. -/
def etOf (b : List Byte) : Nat := beAt b 12 2

/-- Destination in the reserved group 01-80-C2-00-00-00 to -0F (R53). -/
def reservedDa (b : List Byte) : Bool := daOf b / 16 = 0x0180C200000

/-- Length from destination address to FCS. -/
def frameLen (b : List Byte) : Nat := b.length + 4

/-! ### Headers in order (R50) -/

/-- The headers before the payload: VLAN tags as TCI values, outermost first; the HSR sequence number and its place; the
place of the EtherType that no further header follows. -/
structure Hdrs where
  tags : List Nat
  hsr : Option (Nat × Nat)
  at_ : Nat
  unparsed : Bool
deriving DecidableEq, Repr

/-- Read headers from offset `o`. -/
def hdrsFrom : Nat → List Byte → Nat → Hdrs → Hdrs
  | 0, _, _, h => h
  | n + 1, b, o, h =>
    let et := beAt b o 2
    if et = 0x8100 || et = 0x88A8 then
      if h.tags.length = 2 then { h with at_ := o, unparsed := true }
      else hdrsFrom n b (o + 4) { h with tags := h.tags ++ [beAt b (o + 2) 2], at_ := o + 4 }
    else if et = 0x892F && h.hsr.isNone then
      hdrsFrom n b (o + 6) { h with hsr := some (beAt b (o + 4) 2, o), at_ := o + 6 }
    else { h with at_ := o }

/-- The headers of a frame. -/
def hdrsOf (b : List Byte) : Hdrs := hdrsFrom 5 b 12 ⟨[], none, 12, false⟩

/-- The sequence number and LAN identifier of a PRP trailer, where the last six bytes hold one (Table FPA-1). -/
def rctOf (b : List Byte) : Option (Nat × Nat) :=
  let n := b.length
  if 20 ≤ n && beAt b (n - 2) 2 = 0x88FB then some (beAt b (n - 6) 2, (byteAt b (n - 4)).toNat / 16) else none

/-- The inner VID, or none for an untagged or priority-tagged frame. -/
def Hdrs.vid (h : Hdrs) : Option Nat :=
  match h.tags.getLast? with
  | some t => if t % 4096 = 0 then none else some (t % 4096)
  | none => none

/-- The inner PCP of a tagged frame (R61). -/
def Hdrs.pcp (h : Hdrs) : Option Nat := h.tags.getLast?.map (fun t => t / 8192 % 8)

/-- The EtherType of the payload. -/
def Hdrs.et (h : Hdrs) (b : List Byte) : Nat := beAt b h.at_ 2

/-! ### IP identification (R51) -/

/-- What IP identification finds: no IP frame with UDP, an excluded frame, or the fields of the key (DSCP, its bytes from
offset 4 on). -/
inductive IpId where
  | no
  | excluded
  | found (code dscp : Nat) (rest : List Byte)
deriving DecidableEq, Repr

/-- The end of the parse window, 128 bytes from the destination address, in the bytes of a frame whose first `cut` bytes
after the source address (its E-tag) have been taken out. -/
def winEnd (cut : Nat) (b : List Byte) : Nat := min (128 - cut) b.length

/-- Follow IPv6 extension headers to UDP: `n` headers at most, `o` the place of header type `nh`, `e` the window's end. -/
def ip6Next (e : Nat) : Nat → List Byte → Nat → Nat → Option (Option Nat)
  | 0, _, _, _ => none
  | n + 1, b, o, nh =>
    if nh = 17 then some (some o)
    else if nh = 43 || nh = 44 then none
    else if nh = 0 || nh = 60 then
      if o + 2 ≤ e then ip6Next e n b (o + 8 * ((byteAt b (o + 1)).toNat + 1)) (byteAt b o).toNat else none
    else some none

/-- IP identification of the payload at offset `o`, within a window that ends at `e`. -/
def ipId (e : Nat) (b : List Byte) (et o : Nat) : IpId :=
  if et = 0x0800 then
    let u := o + 4 * ((byteAt b o).toNat % 16)
    if e < o + 20 then .excluded
    else if beAt b (o + 6) 2 % 0x4000 ≠ 0 then .excluded
    else if byteAt b (o + 9) ≠ 17 then .no
    else if e < u + 4 then .excluded
    else .found 3 ((byteAt b (o + 1)).toNat / 4)
      (sliceB b (o + 12) 8 ++ [17, 0] ++ sliceB b u 4)
  else if et = 0x86DD then
    if e < o + 40 then .excluded
    else match ip6Next e 16 b (o + 40) (byteAt b (o + 6)).toNat with
      | none => .excluded
      | some none => .no
      | some (some u) =>
        if e < u + 4 then .excluded
        else .found 4 (beAt b o 2 / 64 % 64) (sliceB b (o + 24) 16 ++ sliceB b (u + 2) 2)
  else .no

/-! ### Stream keys (R55, R56) -/

/-- A key of 24 bytes: code, DSCP, VID and the bytes from offset 4 on. -/
def mkKey (code dscp vid : Nat) (rest : List Byte) : List Byte :=
  fitB 24 ([BitVec.ofNat 8 code, BitVec.ofNat 8 dscp] ++ toBe 2 vid ++ rest)

/-- Byte `i` of MATCH takes part in the match under a function code (Table FPA-2). -/
def matched (code : Byte) (i : Nat) : Bool :=
  i = 0 || (match code.toNat with
    | 1 | 2 => decide (2 ≤ i) && decide (i ≤ 9)
    | 3 => decide (i ≤ 17) && i ≠ 13
    | 4 => decide (i ≤ 21)
    | _ => true)

/-- Byte `i` of MATCH is reserved under a function code; bytes 10 to 17 of an active destination key are data. -/
def reservedByte (code : Byte) (i : Nat) : Bool := !matched code i && !(code = 2 && decide (10 ≤ i) && decide (i ≤ 17))

/-- MATCH with the bytes that take part in the match; the hash and the comparison cover no others (R56). -/
def matchedBytes (m : List Byte) : List Byte :=
  (List.range 24).map (fun i => if matched (byteAt m 0) i then byteAt m i else 0)

/-- A reserved byte of MATCH is not 0. -/
def matchReserved (m : List Byte) : Bool := (List.range 24).any (fun i => reservedByte (byteAt m 0) i && byteAt m i ≠ 0)

/-- The stream key of a frame under a port's LNE_PORT_CTL, and whether the frame counts in PARSE_NULL (R51, R55). -/
def streamKey (cut : Nat) (b : List Byte) (ctl : Word) (defVid : Nat) : List Byte × Bool :=
  let h := hdrsOf b
  let vid := h.vid.getD defVid
  let et := h.et b
  let ip := if bitAt ctl.toNat 11 && !h.unparsed then ipId (winEnd cut b) b et (h.at_ + 2) else IpId.no
  let active := bitAt ctl.toNat 10 && decide (0x600 ≤ et)
  let other := mkKey (if active then 2 else 1) 0 vid (sliceB b 0 6)
  match ip with
  | .found code dscp rest => (mkKey code dscp vid rest, false)
  | .excluded => (other, true)
  | .no => (other, false)

/-! ### GOOSE and SV (R50), and the length field (R92) -/

/-- The place of the payload of a UDP datagram, where the frame is one that IP identification reads, with its
destination port. -/
def udpAt (cut : Nat) (b : List Byte) : Option (Nat × Nat) :=
  let h := hdrsOf b
  let o := h.at_ + 2
  if h.unparsed then none
  else match h.et b with
    | 0x0800 => if ipId (winEnd cut b) b 0x0800 o = .no || ipId (winEnd cut b) b 0x0800 o = .excluded then none
      else let u := o + 4 * ((byteAt b o).toNat % 16); some (u + 8, beAt b (u + 2) 2)
    | 0x86DD => match ip6Next (winEnd cut b) 16 b (o + 40) (byteAt b (o + 6)).toNat with
      | some (some u) => some (u + 8, beAt b (u + 2) 2)
      | _ => none
    | _ => none

/-- GOOSE or SV: whether it is SV, its APPID and its length, from the published header after the EtherType; routable GOOSE
and SV go to UDP port 102, with the session identifier 0xA1 for GOOSE and 0xA2 for SV (IEC 61850-90-5, PRESUMED; log
entry 47). -/
def gooseAt (cut : Nat) (b : List Byte) : Option (Bool × Nat × Nat) :=
  let h := hdrsOf b
  let o := h.at_ + 2
  if h.et b = 0x88B8 then some (false, beAt b o 2, beAt b (o + 2) 2)
  else if h.et b = 0x88BA then some (true, beAt b o 2, beAt b (o + 2) 2)
  else match udpAt cut b with
    | some (u, 102) =>
      let si := (byteAt b (u + 2)).toNat
      if si = 0xA1 || si = 0xA2 then some (si = 0xA2, beAt b (u + 26) 2, beAt b (u + 4) 4) else none
    | _ => none

/-- The length field that R92 reads, where the parse window holds one. -/
def lengthField (cut : Nat) (b : List Byte) : Option Nat :=
  let h := hdrsOf b
  let o := h.at_ + 2
  let inWin := fun (n : Nat) => decide (n ≤ winEnd cut b)
  match h.et b with
  | 0x88B8 | 0x88BA => if inWin (o + 4) then some (beAt b (o + 2) 2) else none
  | 0x0800 => if inWin (o + 4) then some (beAt b (o + 2) 2) else none
  | 0x86DD => if inWin (o + 6) then some (beAt b (o + 4) 2) else none
  | _ => none

/-! ### SecTAG (R98) -/

/-- A received SecTAG: well formed but for its PN, E and C bits, AN, PN [31:0], SCI where present, place and length of the secure data. -/
structure SecTag where
  ok : Bool
  c : Bool
  an : Nat
  pn : Nat
  sci : Option (List Byte)
  data : Nat
  len : Nat
deriving DecidableEq, Repr

/-- The SecTAG after the source address, where the EtherType names one. -/
def secTagOf (b : List Byte) : Option SecTag :=
  if etOf b ≠ 0x88E5 then none
  else
    let t := (byteAt b 14).toNat
    let sl := (byteAt b 15).toNat
    let sc := bitAt t 5
    let d := if sc then 28 else 20
    let n := if sl % 64 = 0 then b.length - d - 16 else sl % 64
    some { ok := !bitAt t 7 && decide (sl < 48) && decide (d + n + 16 ≤ b.length) && !(bitAt t 5 && (bitAt t 6 || bitAt t 4)) && !(bitAt t 3 && !bitAt t 2),
           c := bitAt t 2, an := t % 4, pn := beAt b 16 4, sci := if sc then some (sliceB b 20 8) else none, data := d, len := n }

/-! ### E-tags (R133) -/

/-- The E-tag stands at the EtherType. -/
def hasETag (b : List Byte) : Bool := etOf b = 0x893F

/-- The E-CID of an upstream E-tag whose other fields are as R133 asks. -/
def eTagPort (b : List Byte) : Option Nat :=
  if beAt b 14 2 % 4096 = 0 && bitsOf (beAt b 16 2) 12 2 = 0 && beAt b 18 2 = 0 then some (beAt b 16 2 % 4096) else none

/-- The frame without the eight bytes of its E-tag. -/
def dropETag (b : List Byte) : List Byte := b.take 12 ++ b.drop 20

/-- The E-tag of a copy to an extended port: E-PCP the class, E-CID_base the port's (R133). -/
def eTagFor (cls ecid : Nat) : List Byte := toBe 2 0x893F ++ toBe 2 (cls * 8192) ++ toBe 2 ecid ++ [0, 0]

/-- The frame with an E-tag after its source address. -/
def addETag (b : List Byte) (cls ecid : Nat) : List Byte := b.take 12 ++ eTagFor cls ecid ++ b.drop 12

/-! ### Egress edits (R62, R69) -/

/-- Take out every HSR tag among the headers from offset `o` on. -/
def dropHsr : Nat → List Byte → Nat → List Byte
  | 0, b, _ => b
  | n + 1, b, o =>
    let et := beAt b o 2
    if et = 0x892F then dropHsr n (b.take o ++ b.drop (o + 6)) o
    else if et = 0x8100 || et = 0x88A8 then dropHsr n b (o + 4)
    else b

/-- Take off every PRP trailer at the end. -/
def dropRct : Nat → List Byte → List Byte
  | 0, b => b
  | n + 1, b => match rctOf b with | some _ => dropRct n (b.take (b.length - 6)) | none => b

/-- Remove every HSR tag and every PRP trailer (R69). What is then shorter than 60 bytes is padded with zeros to the
shortest frame, which the manual does not state (DESIGN CHOICE, log entry 48). -/
def stripRedundancy (b : List Byte) : List Byte :=
  let b := dropRct 16 (dropHsr 16 b 12)
  if b.length < 60 then fitB 60 b else b

/-- Write the destination MAC and VID of an active destination key's data bytes (R62). An untagged frame takes the
destination MAC alone: no tag is inserted for the VID, as the manual does not say where it would go (DESIGN CHOICE, log
entry 49). -/
def rewriteActive (b m : List Byte) : List Byte :=
  if byteAt m 0 ≠ 2 then b
  else
    let b := sliceB m 12 6 ++ b.drop 6
    let h := hdrsOf b
    match h.tags.getLast? with
    | some t =>
      let o := 12 + 4 * (h.tags.length - 1) + 2
      let o := match h.hsr with | some (_, p) => if p < o then o + 6 else o | none => o
      b.take o ++ toBe 2 (t / 4096 * 4096 + beAt m 10 2 % 4096) ++ b.drop (o + 2)
    | none => b

/-! ### PTP messages (R479) -/

/-- The place of the PTP message in a frame. -/
def ptpAt (b : List Byte) : Option Nat :=
  let h := hdrsOf b
  if h.et b = 0x88F7 then some (h.at_ + 2) else none

/-- The correctionField with an amount in 2^-16 ns added. -/
def addCorrection (b : List Byte) (o : Nat) (d : Int) : List Byte :=
  b.take (o + 8) ++ toBe 8 (BitVec.ofInt 64 ((BitVec.ofNat 64 (beAt b (o + 8) 8)).toInt + d)).toNat ++ b.drop (o + 16)

end Sys2Proof.Machine
end

