-- ==== Sys2Proof/Machine/NetOps.lean ====
section
/-! DEFINITION. Operations the frame path shares: ports and lanes, port counters, Basin cells, freeing and dropping
frames, stream counters and the service level (R62, R70 to R73, R123, R140, R457, R459). -/

namespace Sys2Proof.Machine

/-! ### Port and stream counters (R73, R76, R97, R122, R144) -/

/-- The ingress port of a frame that the device itself originates: none (R287). -/
def noPort : Nat := 1024

/-- Count at the counter at an offset of a port's context. -/
def State.pc (s : State) (p off : Nat) : State := if p < noPort then s.bump (0x200000 + p * 0x800 + off) 1 else s

/-- PARSE_NULL, in the low half of its pair. -/
def State.countParseNull (s : State) (p : Nat) : State :=
  let a := 0x200000 + p * 0x800 + 0x3A8
  let v := s.ctr a
  s.setCtr a (v / 2 ^ 32 * 2 ^ 32 + (v + 1) % 2 ^ 32)

/-- PRP_WRONG_LAN, in the high half of the same pair. -/
def State.countWrongLan (s : State) (p : Nat) : State := s.bump (0x200000 + p * 0x800 + 0x3A8) (2 ^ 32)

/-- The stream counter field at an offset of a set (R73). -/
def scKey (set off : Nat) : Nat := 0x10000000 + set * 32 + off

/-- Count for the stream of an entry; set 0 is never written. -/
def State.countStream (s : State) (e : Option GrvEntry) (off n : Nat) : State :=
  match e with
  | some e => if e.counter % 32768 = 0 then s else s.bump (scKey (e.counter % 32768) off) n
  | none => s

/-! ### Lanes, ports and contexts -/

/-- A lane at reset. The round robin of each class has served no port, and begins with the lowest: the manual does not say
where it begins (R84; DESIGN CHOICE, log entry 50). -/
def Lane.reset : Lane :=
  { woken := false, verifies := 0, partner := false, starved := false, rr := List.replicate 7 none, noClock := false, calLeft := 0, calSeq := 0,
    pdReq := false, skipped := false, taskDue := false }
def Ctx.free : Ctx := { st := 0, lane := 0, ecid := 0, ident := [] }

def State.lane (s : State) (k : Nat) : Lane := Tbl.get (fun _ => Lane.reset) s.lanes k
def State.setLane (s : State) (k : Nat) (l : Lane) : State := { s with lanes := Tbl.set (fun _ => Lane.reset) s.lanes k l }

/-- The context of a port: a direct port reads ASSIGNED (Table LNE-16). -/
def State.ctx (s : State) (p : Nat) : Ctx :=
  if p < 32 then { st := 1, lane := p, ecid := 0, ident := [] } else Tbl.get (fun _ => Ctx.free) s.ctxs p
def State.setCtx (s : State) (p : Nat) (c : Ctx) : State := { s with ctxs := Tbl.set (fun _ => Ctx.free) s.ctxs p c }

/-- The contexts of a lane in one of some states, in order. -/
def State.ctxsOf (s : State) (k : Nat) (sts : List Nat) : List Nat :=
  (s.ctxs.filter (fun e => e.2.lane = k && e.2.st ∈ sts)).map (·.1)

def ctxFree : Nat := 0
def ctxAssigned : Nat := 1
def ctxHeld : Nat := 2
def ctxQuarantined : Nat := 3

/-- The lane carries an extender (R132). -/
def State.isExt (s : State) (k : Nat) : Bool := s.fb (F.LNE_LANE_CTL_EXT k)
def State.laneSt (s : State) (k : Nat) : Nat := s.f (F.LNE_LANE_STS_STATE k)
def State.laneUp (s : State) (k : Nat) : Bool := s.laneSt k = 4
/-- The mode a MODE field acts as (Table LNE-14). -/
def modeOf (v : Nat) : Nat := if v ≤ 4 then v else 3
def State.laneMode (s : State) (k : Nat) : Nat := modeOf (s.f (F.LNE_LANE_CTL_MODE k))
/-- The FEC a FEC field acts as. -/
def fecOf (v : Nat) : Nat := if v = 3 then 0 else v
/-- The lane runs 10GBASE-R or 25GBASE-R (R108). -/
def State.fastLane (s : State) (k : Nat) : Bool := decide (3 ≤ s.laneMode k)
/-- The byte-time of a lane, in ps (Table SLU-1; SGMII by its resolved speed). -/
def State.byteTime (s : State) (k : Nat) : Nat :=
  match s.laneMode k with
  | 0 => 8000
  | 1 => (match s.f (F.LNE_LANE_STS_SPEED k) with | 0 => 800000 | 1 => 80000 | _ => 8000)
  | 2 => 3200
  | 3 => 800
  | _ => 320

def State.portLane (s : State) (p : Nat) : Nat := (s.ctx p).lane
def pipeOf (lane : Nat) : Nat := lane / 16

/-- The port's drain has begun, and its lane has not returned to UP since (R272). -/
def State.draining (s : State) (p : Nat) : Bool :=
  let k := s.portLane p
  (decide (k ∈ s.cfg.waitUp) || (match s.cfg.drain with | some d => decide (k ∈ d.lanes) | none => false)) && !((s.ctx p).st = ctxFree)

/-- The port is out of service: it receives and sends no data frame (R62, R123, R140, R272, and an extended port in reduced
service that no full service preceded, R458). -/
def State.oos (s : State) (p : Nat) : Bool :=
  s.fb (F.LNE_PORT_CTL_OOS p) || !((s.ctx p).st = ctxAssigned) || (decide (p < 32) && s.isExt p) || s.draining p
    || (decide (32 ≤ p) && s.f F.RST_STS_SERVICE ≠ 2 && !s.boot.full)

/-- The SecY that a port's frames cross: the lane SecY of an extender lane, otherwise the port's own (R98). -/
def State.secyOf (s : State) (p : Nat) : Nat :=
  let k := s.portLane p
  if s.isExt k then 0x61000 + 0x200 * k else R.FPX_SECY_CTL p

/-- The ports of a lane that can carry frames: the direct port, or the lane's contexts. -/
def State.portsOfLane (s : State) (k : Nat) : List Nat :=
  if s.isExt k then s.ctxsOf k [ctxAssigned, ctxHeld] else [k]

/-! ### Service level and the boot report (R457, R459) -/

/-- An entry of the boot report: written at once after the ring of class POWER has been enabled, kept before. -/
def State.bootEntry (s : State) (code bit data : Nat) : State :=
  if s.boot.open_ then s.postCode 8 code bit data
  else if 256 ≤ s.boot.count then s.addSat F.RST_STS_REPORT_LOST 1
  else { s with boot := { s.boot with count := s.boot.count + 1, report := s.boot.report ++ [(8, code, bit, data)] } }

/-- Set a flag of RST_EVT; its entry belongs to the boot report, which no enable gates (R459). -/
def State.rstFlag (s : State) (bit data : Nat) : State :=
  (s.wr R.RST_EVT (s.rd R.RST_EVT ||| BitVec.ofNat 32 (2 ^ bit))).bootEntry 1 bit data

def grvAbsent : Nat := 0
def grvBuilding : Nat := 1
def grvServing : Nat := 2
def grvMigrating : Nat := 3
def grvLost : Nat := 4
def State.grvSt (s : State) : Nat := s.f F.GRV_STATUS_STATE
def State.service (s : State) : Nat := s.f F.RST_STS_SERVICE

/-- The service level that the stage reached and the Grove state give (R457). -/
def State.serviceDue (s : State) : Nat :=
  let st := s.f F.RST_STS_STAGE
  if st < 4 then 0 else if 6 ≤ st && (s.grvSt = grvServing || s.grvSt = grvMigrating) then 2 else 1

/-- Bring RST_STS.SERVICE up to date; a change sets SERVICE_CHG (R457). -/
def State.updService (s : State) : State :=
  let n := s.serviceDue
  if s.service = n then s
  else
    let s := { s with boot := { s.boot with full := s.boot.full || decide (n = 2) } }
    (s.setF F.RST_STS_SERVICE n).rstFlag 1 n

/-! ### Frames -/

def State.frame (s : State) (id : Nat) : Option Frame := s.fp.frames.find? (·.id = id)
def State.setFrame (s : State) (f : Frame) : State :=
  { s with fp := { s.fp with frames := s.fp.frames.map (fun g => if g.id = f.id then f else g) } }
def State.freeFrame (s : State) (id : Nat) : State :=
  { s with fp := { s.fp with frames := s.fp.frames.filter (fun g => g.id ≠ id) } }

/-- A frame of a stream is dropped or stomped after its lookup: counted once in DISCARDS (R73). -/
def State.countDiscard (s : State) (f : Frame) : State :=
  match s.frame f.id with
  | some g => if g.counted then s else (s.setFrame { g with counted := true }).countStream f.entry 0x18 1
  | none => s

/-- A frame is dropped after its lookup: counted for its stream, and freed (R73). -/
def State.dropFrame (s : State) (f : Frame) : State := (s.countDiscard f).freeFrame f.id

/-- A frame is dropped and counted at a counter of its ingress port. -/
def State.dropAt (s : State) (f : Frame) (off : Nat) : State := (s.dropFrame f).pc f.port off

/-! ### Basin cells (R70 to R72) -/

/-- The port can receive data frames and holds its MIN_CELLS (R70). -/
def State.holdsCells (s : State) (p : Nat) : Bool :=
  if p < 32 then !s.isExt p else let c := (s.ctx p).st; c = ctxAssigned || c = ctxHeld

/-- The ports that hold cells. -/
def State.cellPorts (s : State) : List Nat :=
  (List.range 32).filter s.holdsCells ++ (s.ctxs.filter (fun e => e.2.st = ctxAssigned || e.2.st = ctxHeld)).map (·.1)

/-- MIN_CELLS of a port as the value of LNE_PORT_ADM that a frame follows gives it (R17, R70). -/
def State.minCells (s : State) (p : Nat) (adm : Word) : Nat := if s.holdsCells p then bitsOf adm.toNat 16 16 else 0
def State.ownUsed (s : State) (p : Nat) : Nat := ((s.fp.frames.filter (·.port = p)).map (·.own)).foldl (· + ·) 0
def State.sharedUsedBy (s : State) (p : Nat) : Nat := ((s.fp.frames.filter (·.port = p)).map (·.shared)).foldl (· + ·) 0
def State.sharedSize (s : State) : Nat := 65536 - ((s.cellPorts.map (fun p => s.f (F.LNE_PORT_ADM_MIN_CELLS p))).foldl (· + ·) 0)
def State.sharedFree (s : State) : Nat := s.sharedSize - (s.fp.frames.map (·.shared)).foldl (· + ·) 0
/-- Cells of the frames in the ingress admission queue of a port and class: a frame that waits on a miss is not in it. -/
def State.queueCells (s : State) (p c : Nat) : Nat :=
  ((s.fp.frames.filter (fun f => f.port = p && f.cls = c && f.phase = .admitted)).map (fun f => f.own + f.shared)).foldl (· + ·) 0

/-- Cells a frame of `n` bytes occupies. -/
def cellsOf (n : Nat) : Nat := ceilDiv n 256

/-- As many of `n` cells for port `p` as there are beside those it uses: own cells first, then the shared pool (R71). -/
def State.cellsFor (s : State) (p : Nat) (adm : Word) (n : Nat) : Nat × Nat :=
  let own := min n (s.minCells p adm - s.ownUsed p)
  (own, min (n - own) s.sharedFree)

/-- All `n` cells, or none where both run out. -/
def State.takeCells (s : State) (p : Nat) (adm : Word) (n : Nat) : Option (Nat × Nat) :=
  let c := s.cellsFor p adm n
  if c.1 + c.2 = n then some c else none

/-- A frame that a Dike frame of port `p` may push out: classes 0 to 6, admitted, no copy's transmission begun, holding a
cell the Dike frame can use (R72). -/
def Frame.pushable (f : Frame) (p : Nat) : Bool :=
  decide (f.cls ≤ 6) && (match f.phase with | .waiting _ => false | _ => true)
  && !f.begun && (decide (0 < f.shared) || (f.port = p && decide (0 < f.own)))

/-- Of two frames, the one admitted later. -/
def laterFrame (a : Option Frame) (f : Frame) : Option Frame :=
  match a with | none => some f | some g => if g.ord < f.ord then some f else some g

/-- Push frames out until `n` cells can be taken for a Dike frame of port `p`: the cells, where they could be had, and the
state, in which every frame pushed out is gone (R72). -/
def pushOut : Nat → Nat → Word → Nat → State → Option (Nat × Nat) × State
  | 0, p, adm, n, s => (s.takeCells p adm n, s)
  | k + 1, p, adm, n, s =>
    match s.takeCells p adm n with
    | some c => (some c, s)
    | none =>
      match (s.fp.frames.filter (·.pushable p)).foldl laterFrame none with
      | none => (none, s)
      | some f => pushOut k p adm n (s.dropAt f 0x390)

/-- DIKE_BASIN_DROP raises a frame-path event (R72). -/
def State.dikeBasinDrop (s : State) (f : Frame) : State := (s.dropAt f 0x398).postCode 2 1 1 (0xFF + dat 2 f.port)

/-- LNE_PORT_CELLS as read (Table FPA-6). -/
def State.portCells (s : State) (p : Nat) : Word := BitVec.ofNat 32 (s.sharedUsedBy p * 65536 + s.ownUsed p)

/-! ### Copies leaving their queues -/

/-- A frame that has been handed over, whose last copy has left and which no verdict is owed to any more, is freed (R70). -/
def State.settleFrame (s : State) (id : Nat) : State :=
  match s.frame id with
  | some f => if f.phase = .handed && f.copies = [] && f.verdict.isSome then s.freeFrame id else s
  | none => s

/-- Remove the copies of a frame that satisfy a test. -/
def State.removeCopies (s : State) (id : Nat) (p : FCopy → Bool) : State :=
  match s.frame id with
  | some f => (s.setFrame { f with copies := f.copies.filter (fun c => !p c) }).settleFrame id
  | none => s

/-- Every copy in the egress queues or under transmission on a lane. -/
def State.laneCopies (s : State) (k : Nat) : List (Nat × FCopy) :=
  s.fp.frames.flatMap (fun f => (f.copies.filter (fun c => s.portLane c.port = k)).map (fun c => (f.id, c)))

end Sys2Proof.Machine
end

