-- ==== Sys2Proof/Machine/GroveOps.lean ====
section
/-! DEFINITION. Grove and Copse: entries, lookup, replacement, placement and the loss rule (R57, R165 to R183). -/

namespace Sys2Proof.Machine

/-! ### Entries (R59) -/

def GrvEntry.empty : GrvEntry :=
  { mtch := [], action := 0, tc := 0, flags := 0, version := 0, keySlot := 0, egress := 0, counter := 0, replayBase := 0,
    replayWin := 0, seqBase := 0, seqLast := 0, seqWin := 0 }
def GrvEntry.fl (e : GrvEntry) (i : Nat) : Bool := bitAt e.flags i
def GrvEntry.valid (e : GrvEntry) : Bool := e.fl 0
def GrvEntry.pinnedFlag (e : GrvEntry) : Bool := e.fl 1
def GrvEntry.static (e : GrvEntry) : Bool := e.fl 2
def GrvEntry.prp (e : GrvEntry) : Bool := e.fl 3
def GrvEntry.hsr (e : GrvEntry) : Bool := e.fl 4
def GrvEntry.seqValid (e : GrvEntry) : Bool := e.fl 5
def GrvEntry.verify (e : GrvEntry) : Bool := e.fl 6
def GrvEntry.macsecReq (e : GrvEntry) : Bool := e.fl 7
def GrvEntry.replay (e : GrvEntry) : Bool := e.fl 8
/-- Set or clear a flag. -/
def GrvEntry.setFl (e : GrvEntry) (i : Nat) (b : Bool) : GrvEntry := { e with flags := putBits e.flags i 1 (b2n b) }
/-- The bytes of MATCH that take part in the match. -/
def GrvEntry.mkey (e : GrvEntry) : List Byte := matchedBytes e.mtch

/-- The 64 bytes of an entry (Table FPA-3). -/
def GrvEntry.toBytes (e : GrvEntry) : List Byte :=
  fitB 24 e.mtch ++ toLe 1 e.action ++ toLe 1 e.tc ++ toLe 2 e.flags ++ toLe 2 e.version ++ toLe 2 e.keySlot ++ toLe 4 e.egress
    ++ toLe 4 e.counter ++ toLe 8 e.replayBase ++ toLe 8 e.replayWin ++ toLe 2 e.seqBase ++ toLe 2 e.seqLast ++ toLe 4 e.seqWin

/-- The entry that 64 bytes hold. -/
def GrvEntry.ofBytes (b : List Byte) : GrvEntry :=
  { mtch := sliceB b 0 24, action := leAt b 0x18 1, tc := leAt b 0x19 1, flags := leAt b 0x1A 2, version := leAt b 0x1C 2,
    keySlot := leAt b 0x1E 2, egress := leAt b 0x20 4, counter := leAt b 0x24 4, replayBase := leAt b 0x28 8, replayWin := leAt b 0x30 8,
    seqBase := leAt b 0x38 2, seqLast := leAt b 0x3A 2, seqWin := leAt b 0x3C 4 }

/-- The slot that verifies the stream's tag, where KEY_SLOT is valid. -/
def GrvEntry.slot (e : GrvEntry) : Option Nat := if bitAt e.keySlot 15 then some (e.keySlot % 32768) else none

/-! ### Copse ways -/

def State.way (s : State) (i : Nat) : Option CpsWay := Tbl.get (fun _ => none) s.grv.copse i
def State.setWay (s : State) (i : Nat) (w : Option CpsWay) : State :=
  { s with grv := { s.grv with copse := Tbl.set (fun _ => none) s.grv.copse i w } }

/-- Write a whole entry into a way: the poison marks of its two codewords clear (R189). -/
def State.writeWay (s : State) (i : Nat) (w : CpsWay) : State :=
  ((s.setWay i (some w)).clearPoison 1 (2 * i)).clearPoison 1 (2 * i + 1)

/-- The ways in use with their places. -/
def State.ways (s : State) : List (Nat × CpsWay) := s.grv.copse.filterMap (fun e => e.2.map (fun w => (e.1, w)))

/-- Apply a change to every way in use. -/
def State.mapWays (s : State) (g : CpsWay → Option CpsWay) : State :=
  { s with grv := { s.grv with copse := s.grv.copse.filterMap (fun e => (e.2.bind g).map (fun w => (e.1, some w))) } }

/-- The way serves a frame whose first bit arrived in a configuration epoch (R178). -/
def CpsWay.serves (w : CpsWay) (epoch : Nat) : Bool :=
  w.st ≠ .shadow && decide (w.since ≤ epoch) && (match w.upto with | some u => decide (epoch < u) | none => true)

/-- The Copse entry that serves a key in an epoch. -/
def State.copseFind (s : State) (key : List Byte) (epoch : Nat) : Option (Nat × CpsWay) :=
  s.ways.find? (fun e => e.2.entry.mkey = key && e.2.serves epoch)

/-- The Copse entry that serves a key now. -/
def State.copseNow (s : State) (key : List Byte) : Option (Nat × CpsWay) := s.copseFind key s.cfg.epoch

/-- The two Copse buckets of a key (R171). -/
def State.cpsBuckets (s : State) (key : List Byte) : Nat × Nat :=
  let m := beNat key
  let b0 := Config.groveHash s.grv.copseKey 0 m % 32768
  let b1 := Config.groveHash s.grv.copseKey 1 m % 32768
  (b0, if b1 = b0 then b0 ^^^ 1 else b1)

/-- Pinned entries of the set in force and pinned by command (R177). -/
def State.pinnedCount (s : State) : Nat := (s.ways.filter (fun e => e.2.st = .pinned && e.2.serves s.cfg.epoch)).length

/-! ### Grove lines (R165, R168) -/

def State.region (s : State) : Nat := s.f F.GRV_STATUS_REGION
def State.kInForce (s : State) : Nat := s.f F.GRV_STATUS_BKT_LOG2
/-- The bucket count a BKT_LOG2 field acts as. -/
def kOf (v : Nat) : Nat := max 16 (min 22 v)

/-- The offset of a line in attached memory, and of its side record (R165, Table GRV-2). -/
def lineOfs (r e : Nat) : Nat := r * 0x50000000 + 64 * e
def sideOfs (r e : Nat) : Nat := 0x40000000 + r * 0x50000000 + 64 * (e / 4) + 16 * (e % 4)

def lineKey (r e : Nat) : Nat := r * 2 ^ 24 + e
/-- A line as the build writes it: empty, LVER 0. Its bytes are those of `sealLine`. -/
def GrvLine.empty : GrvLine :=
  { entry := GrvEntry.empty, lver := 0, poison := false, stored := [], check := [], mac := [], flips := [] }

/-- The tweak of a line: its offset divided by 64, LVER, and 48 zero bits (R168). -/
def lineTweak (r e lver : Nat) : List Byte := toLe 8 (lineOfs r e / 64) ++ toLe 2 lver ++ List.replicate 6 0

/-- The MAC of a line over its stored bytes (R168). -/
def State.lineMac (s : State) (r e lver : Nat) (stored : List Byte) : List Byte :=
  (List.range 8).map (Config.cmacByte (s.grv.kgMac.getD []) (toLe 8 (lineOfs r e / 64) ++ toLe 2 lver ++ stored))

/-- A line and its side record as the device writes an entry there: encrypted under KG_ENC, with CHECK and MAC (R168). -/
def State.sealLine (s : State) (r e lver : Nat) (x : GrvEntry) (poison : Bool) : GrvLine :=
  let stored := (List.range 64).map (Config.xtsByte (s.grv.kgEnc.getD []) (lineTweak r e lver) x.toBytes)
  { entry := x, lver := lver, poison := poison, stored := stored, check := lineCheck stored, mac := s.lineMac r e lver stored, flips := [] }

def State.line (s : State) (r e : Nat) : GrvLine := Tbl.get (fun _ => GrvLine.empty) s.grv.lines (lineKey r e)
def State.setLine (s : State) (r e : Nat) (l : GrvLine) : State :=
  { s with grv := { s.grv with lines := Tbl.set (fun _ => GrvLine.empty) s.grv.lines (lineKey r e) l } }

/-- Write a line: LVER advances (R165). A poisoned line stays poisoned (R170), and one written from poisoned data becomes
so (R189). -/
def State.writeLineAs (s : State) (r e : Nat) (x : GrvEntry) (bad : Bool) : State :=
  let l := s.line r e
  s.setLine r e (s.sealLine r e ((l.lver + 1) % 65536) x (l.poison || bad))
def State.writeLine (s : State) (r e : Nat) (x : GrvEntry) : State := s.writeLineAs r e x false

/-- CMD_GROVE_LINE_CLEAR writes a line as empty, and clears its poison (R170). -/
def State.wipeLine (s : State) (r e : Nat) : State :=
  s.setLine r e (s.sealLine r e (((s.line r e).lver + 1) % 65536) GrvEntry.empty false)

/-- The lines of a region that hold valid entries. -/
def State.validLines (s : State) (r : Nat) : List (Nat × GrvEntry) :=
  s.grv.lines.filterMap (fun x => if x.1 / 2 ^ 24 = r && x.2.entry.valid && !x.2.poison then some (x.1 % 2 ^ 24, x.2.entry) else none)

/-- The candidate buckets of a key under a hash key and a bucket count (R166). -/
def bucketsOf (hk k : Nat) (key : List Byte) : Nat × Nat :=
  let m := beNat key
  let h0 := Config.groveHash hk 0 m % 2 ^ k
  let h1 := Config.groveHash hk 1 m % 2 ^ k
  (h0, if h1 = h0 then h0 ^^^ 1 else h1)

/-- The eight lines of two buckets. -/
def linesOf (b0 b1 : Nat) : List Nat := (List.range 4).map (4 * b0 + ·) ++ (List.range 4).map (4 * b1 + ·)

/-- The candidate lines of a key in the region in force. -/
def State.keyLines (s : State) (key : List Byte) : List Nat :=
  let (b0, b1) := bucketsOf s.grv.hashKey s.kInForce key
  linesOf b0 b1

/-- Set a GRV_EVT flag with its DATA: link, Grove state, entry index; all ones where one does not apply. -/
def State.grvFlag (s : State) (bit link entry : Nat) : State :=
  s.raise grvEvt bit (link + dat 1 s.grvSt + dat 4 entry)

/-! ### Reading a line (R169, R187, R188) -/

/-- A Grove line becomes poisoned (R169). -/
def State.lineBad (s : State) (r e : Nat) : State :=
  let l := s.line r e
  if l.poison then s
  else
    let s := s.setLine r e { l with poison := true }
    let s := (s.setF F.GRV_ERR_ENTRY_VALID 1).setF F.GRV_ERR_ENTRY_INDEX e
    s.grvFlag 2 0xFF e

/-- An uncorrectable error of a Grove line, or CXL poison on it: counted once, and the line becomes poisoned (R169, R188). -/
def State.lineUncorr (s : State) (r e : Nat) : State :=
  if (s.line r e).poison then s
  else
    let o := lineOfs r e
    let s := s.addF (F.ECC_UNCORR_COUNT (10 + r)) 1
    let s := s.wr R.ECC_UNC_ADDR_LO (BitVec.ofNat 32 o)
    let s := s.wr R.ECC_UNC_ADDR_HI (BitVec.ofNat 32 (2 ^ 31 + (10 + r) * 2 ^ 16 + o / 2 ^ 32))
    (s.raise eccEvt 0 (10 + r + dat 8 o)).lineBad r e

/-- What a read of a line comes to: poisoned, or its entry, with whether an error was corrected. -/
inductive LineGot where
  | bad
  | good (x : GrvEntry) (fixed : Bool)
deriving DecidableEq, Repr

/-- The bytes of a line and of its side record as the memory holds them. -/
def State.lineBytes (s : State) (r e : Nat) (l : GrvLine) : List Nat :=
  let w := if l.stored = [] then s.sealLine r e l.lver l.entry l.poison else l
  flipSyms ((w.stored ++ w.check ++ w.mac ++ toLe 2 w.lver).map (·.toNat)) (l.flips.map (fun f => (f.1, f.2.toNat)))

/-- The Reed-Solomon code over a line and its CHECK: whether it could be read, the 80 bytes after correction, and the
symbols corrected. -/
def lineDecode (b : List Nat) : Option (List Nat × Nat) :=
  match rsDecode (b.take 70) with
  | .clean => some (b, 0)
  | .bad => none
  | .fix l => some (flipSyms b l, l.length)

/-- A line is read with what the memory brings back: the code, poison, the MAC and the decryption, in this order (R169). A
line whose bytes are as they were written passes every check. -/
def State.lineRead (s : State) (r e : Nat) (err : Option LineErr) : State × LineGot :=
  let l := s.line r e
  let l := match err with | some x => { l with flips := l.flips ++ x.flips.map (fun (f : Fin 80 × Byte) => (f.1.val, f.2)) } | none => l
  if l.poison then (s, .bad)
  else if (match err with | some x => x.poison | none => false) then (s.lineUncorr r e, .bad)
  else if l.flips = [] then (s, .good l.entry false)
  else
    let s := s.setLine r e l
    match lineDecode (s.lineBytes r e l) with
    | none => (s.lineUncorr r e, .bad)
    | some (b, n) =>
      let s := s.doIf (decide (0 < n)) (·.eccCorr (10 + r) (lineOfs r e) n)
      let b := b.map (BitVec.ofNat 8)
      let stored := b.take 64
      let lver := leAt b 78 2
      if s.lineMac r e lver stored ≠ sliceB b 70 8 then
        (((s.addF F.GRV_MAC_FAIL_CNT_COUNT 1).grvFlag 3 0xFF e).notify 0x26 |>.lineBad r e, .bad)
      else
        let x := if stored = l.stored && lver = l.lver then l.entry
          else GrvEntry.ofBytes ((List.range 64).map (Config.xtsPlainByte (s.grv.kgEnc.getD []) (lineTweak r e lver) stored))
        (s, .good x (decide (0 < n)))

/-- The lines of a key are read for a command (R169). -/
def State.seeLines (s : State) (key : List Byte) : State :=
  s.forEach (s.keyLines key) (fun s e => (s.lineRead s.region e none).1)

/-- The entry that a line yields to a read. -/
def State.lineEntry (s : State) (r e : Nat) : Option GrvEntry :=
  match (s.lineRead r e none).2 with | .good x _ => if x.valid then some x else none | .bad => none

/-- The valid line of a key in a region. -/
def State.findLine (s : State) (r : Nat) (key : List Byte) : Option (Nat × GrvEntry) :=
  ((s.validLines r).find? (fun x => x.2.mkey = key)).filter (fun x => s.lineEntry r x.1 = some x.2)

/-! ### Write-back and replacement (R172, R173) -/

/-- The codewords of a Copse way carry poison (R190). -/
def State.wayBad (s : State) (i : Nat) : Bool := s.poisoned 1 (2 * i) || s.poisoned 1 (2 * i + 1)

/-- Write the DIRTY entry of a way back to its line; while migrating, a copy already made takes it too (R181). Poison goes
with it (R189). -/
def State.writeBack (s : State) (i : Nat) (w : CpsWay) : State :=
  if w.st ≠ .dirty then s
  else
    let bad := s.wayBad i
    let r := s.region
    let s := match w.line with
      | some e => (s.writeLineAs r e w.entry bad).bump R.GRV_WB_LO 1
      | none => s
    match s.grv.mig, (s.validLines (1 - r)).find? (fun x => x.2.mkey = w.entry.mkey) with
    | some _, some (e, _) => s.writeLineAs (1 - r) e w.entry bad
    | _, _ => s

/-- The eight ways of a key in sweep order (R173). -/
def State.sweepOrder (s : State) (b0 b1 : Nat) : List Nat :=
  let from_ := fun (b : Nat) =>
    let h := Tbl.get (fun _ => 0) s.grv.hands b
    (List.range 4).map (fun i => 4 * b + (h + i) % 4)
  from_ b0 ++ from_ b1

/-- The way holds an evictable entry of a class (R173, R176). -/
def evictable (w : Option CpsWay) (c : CpsState) : Bool :=
  match w with | some w => w.st = c && decide (w.hold = []) | none => false

/-- One look of the clock sweep at a way: a reference bit cleared in the first pass, or the victim found. -/
def sweepLook (acc : State × Option Nat) (q : Bool × CpsState × Nat) : State × Option Nat :=
  match acc.2 with
  | some _ => acc
  | none =>
    let (s, _) := acc
    let (first, c, i) := q
    match s.way i with
    | some w =>
      if evictable (some w) c then
        if first && w.ref then (s.setWay i (some { w with ref := false }), none)
        else ({ s with grv := { s.grv with hands := Tbl.set (fun _ => 0) s.grv.hands (i / 4) ((i + 1) % 4) } }, some i)
      else acc
    | none => acc

/-- The place a fill takes in the two buckets of its key: a FREE way, or the victim of the sweep, written back (R173). -/
def State.fillPlace (s : State) (key : List Byte) : State × Option Nat :=
  let (b0, b1) := s.cpsBuckets key
  let all := (List.range 4).map (4 * b0 + ·) ++ (List.range 4).map (4 * b1 + ·)
  match all.find? (fun i => (s.way i).isNone) with
  | some i => (s, some i)
  | none =>
    let order := s.sweepOrder b0 b1
    let looks := [true, false].flatMap (fun p => [CpsState.negative, .clean, .dirty].flatMap (fun c => order.map (fun i => (p, c, i))))
    let (s, v) := looks.foldl sweepLook (s, none)
    match v with
    | some i => ((match s.way i with | some w => (s.writeBack i w).setWay i none | none => s), some i)
    | none => (s, none)

/-- A way as it is first written. -/
def mkWay (s : State) (st : CpsState) (e : GrvEntry) (line : Option Nat) : CpsWay :=
  { st := st, ref := false, entry := e, line := line, ttl := 0, hold := [], since := s.cfg.epoch, upto := none }

/-- Keep an entry in Copse, where one of its ways can be had; whether it could. -/
def State.keepWay (s : State) (w : CpsWay) : State × Bool :=
  match s.fillPlace w.entry.mkey with
  | (s, some i) => (s.writeWay i w, true)
  | (s, none) => (s, false)

/-- Keep a fill's entry in Copse; one that finds no place is counted in CPS_NOFILL (R173). -/
def State.keepFill (s : State) (w : CpsWay) : State :=
  let (s, kept) := s.keepWay w
  s.doIf (!kept) (·.addF F.CPS_NOFILL_COUNT 1)

/-- Update the frame state of a stream: every copy of the key that Copse serves takes it, so that an old and a new static
entry share one (R178). An entry that has left Copse since its lookup is read from Grove again, as no line takes frame
state directly (R172). -/
def State.updEntry (s : State) (key : List Byte) (g : GrvEntry → GrvEntry) : State :=
  let mine := fun (w : CpsWay) => decide (w.entry.mkey = key) && w.st ≠ .shadow && w.st ≠ .negative
  if s.ways.any (fun e => mine e.2) then
    s.mapWays (fun w => if mine w then some { w with entry := g w.entry, st := if w.st = .clean then .dirty else w.st } else some w)
  else if s.grvSt = grvServing || s.grvSt = grvMigrating then
    match (s.seeLines key).findLine s.region key with
    | some (e, x) => (s.seeLines key).keepFill (mkWay s .dirty (g x) (some e))
    | none => s
  else s

/-- The entry of a NEGATIVE way: its key alone. -/
def negEntry (key : List Byte) : GrvEntry := { GrvEntry.empty with mtch := key }

/-- A NEGATIVE way for a key, held for some fills. -/
def State.negWay (s : State) (key : List Byte) (hold : List Nat) : CpsWay :=
  { mkWay s .negative (negEntry key) none with ttl := s.f F.CPS_CTL_NEG_TTL, hold := hold }

/-- Install a NEGATIVE entry for a key that Grove does not hold (R174). -/
def State.installNeg (s : State) (key : List Byte) (since : Nat) : State :=
  (s.keepWay { s.negWay key [] with since := since }).1

/-- A NEGATIVE entry whose count has run out and that no fill holds becomes FREE (R174, R176). -/
def State.freeSpentNeg (s : State) : State :=
  s.mapWays (fun w => if w.st = .negative && w.ttl = 0 && w.hold = [] then none else some w)

/-- A fill returns or times out: the NEGATIVE entries held for it are released (R176). -/
def State.releaseHold (s : State) (id : Nat) : State :=
  s.mapWays (fun w =>
    if w.st = .negative && id ∈ w.hold then
      let w := { w with hold := w.hold.filter (· ≠ id) }
      if w.hold = [] && w.ttl = 0 then none else some w
    else some w)

/-- Every outstanding fill has ended: all such entries are released. -/
def State.releaseAll (s : State) : State :=
  s.mapWays (fun w => if w.st = .negative && w.ttl = 0 then none else some { w with hold := [] })

/-! ### Placement in Copse of pinned and shadow entries (R177) -/

def stashBase : Nat := 131072

/-- A FREE stash place. -/
def State.stashFree (s : State) : Option Nat := (rangeFrom stashBase 256).find? (fun i => (s.way i).isNone)

/-- Move entries between their Copse buckets until one finds a place, 32 moves at most. -/
def cpsMoves : Nat → CpsWay → Nat → State → Option State
  | 0, _, _, _ => none
  | n + 1, x, b, s =>
    let (v, s) := s.openBelow 4
    let i := 4 * b + v
    match s.way i with
    | none => some (s.writeWay i x)
    | some y =>
      let s := s.writeWay i x
      let (c0, c1) := s.cpsBuckets y.entry.mkey
      let b' := if c0 = b then c1 else c0
      match (List.range 4).map (4 * b' + ·) |>.find? (fun j => (s.way j).isNone) with
      | some j => some (s.writeWay j y)
      | none => cpsMoves n y b' s

/-- Place a PINNED, SHADOW or LOCKED entry: a bucket of its key, evicting unpinned entries, then the stash, then moves. -/
def State.placeWay (s : State) (w : CpsWay) : Option State :=
  match s.fillPlace w.entry.mkey with
  | (s, some i) => some (s.writeWay i w)
  | (s, none) =>
    match s.stashFree with
    | some i => some (s.writeWay i w)
    | none => cpsMoves 32 w (s.cpsBuckets w.entry.mkey).1 s

/-- Write the NEGATIVE entry of a delete, held until the outstanding fills have ended: in place of the copy held, or
placed as an unevictable entry is (R176). -/
def State.deleteNeg (s : State) (key : List Byte) : State :=
  let w := s.negWay key (s.grv.fills.map (·.id))
  match s.copseNow key with
  | some (i, _) => s.writeWay i w
  | none => (s.placeWay w).getD s

/-! ### Placement in Grove (R167) -/

/-- The free ways of a bucket: lines without a valid entry and not poisoned. -/
def State.freeWays (s : State) (r b : Nat) : List Nat :=
  [0, 1, 2, 3].filter (fun w => !(s.line r (4 * b + w)).entry.valid && !(s.line r (4 * b + w)).poison)

/-- The ways of a bucket whose entries can be moved: those that a read yields. -/
def State.moveWays (s : State) (r b : Nat) : List Nat := [0, 1, 2, 3].filter (fun w => (s.lineEntry r (4 * b + w)).isSome)

/-- The cuckoo walk of R167 from bucket `b` with entry `x`: the state with the moves made, and the entries moved with
their new places; none where 32 moves do not suffice. -/
def cuckoo : Nat → Nat → Nat → Nat → GrvEntry → Nat → State → List (GrvEntry × Nat) → State × Option (List (GrvEntry × Nat))
  | 0, _, _, _, _, _, s, _ => (s, none)
  | n + 1, r, hk, k, x, b, s, moved =>
    let (v, s) := s.open_
    match s.moveWays r b with
    | [] => (s, none)
    | w :: ws =>
      let e := 4 * b + (w :: ws).getD (v % (w :: ws).length) w
      match s.lineEntry r e with
      | none => (s, none)
      | some y =>
        let s := s.writeLine r e x
        let moved := (x, e) :: moved
        let (c0, c1) := bucketsOf hk k y.mkey
        let b' := if c0 = b then c1 else c0
        match s.freeWays r b' with
        | f :: _ => (s.writeLine r (4 * b' + f) y, some ((y, 4 * b' + f) :: moved))
        | [] => cuckoo n r hk k y b' s moved

/-- Place an entry in a region (R167): the state, and the places of the entry and of those moved. On failure nothing
moves. -/
def State.placeLine (s : State) (r hk k : Nat) (x : GrvEntry) : State × Option (List (GrvEntry × Nat)) :=
  let (b0, b1) := bucketsOf hk k x.mkey
  match s.freeWays r b0, s.freeWays r b1 with
  | [], [] =>
    match cuckoo 32 r hk k x b0 s [] with
    | (t, some m) => (t, some m)
    | (t, none) => ({ s with free := t.free }, none)
  | w :: f0, f1 => if f1.length ≤ f0.length + 1 then (s.writeLine r (4 * b0 + w) x, some [(x, 4 * b0 + w)])
    else (s.writeLine r (4 * b1 + f1.headD 0) x, some [(x, 4 * b1 + f1.headD 0)])
  | [], w :: _ => (s.writeLine r (4 * b1 + w) x, some [(x, 4 * b1 + w)])

/-- The entries that a placement has moved stand in Copse, where they were LOCKED meanwhile, with their new lines (R167,
R172): a copy held already takes the new line, and any other is brought in. -/
def State.relink (s : State) (moved : List (GrvEntry × Nat)) : State :=
  s.forEach moved (fun s m =>
    match s.copseNow m.1.mkey with
    | some (i, w) => s.doIf (w.st = .clean || w.st = .dirty) (·.setWay i (some { w with line := some m.2 }))
    | none => (s.keepWay (mkWay s .clean m.1 (some m.2))).1)

/-! ### States of Grove (R180, R183) -/

def State.enterGrv (s : State) (st : Nat) : State := (s.setF F.GRV_STATUS_STATE st).updService

/-- The frames waiting on a fill, in arrival order. -/
def State.waitingOn (s : State) (id : Nat) : List Frame := s.fp.frames.filter (fun f => f.phase = .waiting id)

/-- The loss rule of R183 without the state change: fills fail, unpinned entries are freed. -/
def State.lossRule (s : State) : State :=
  let s := s.forEach (s.fp.frames.filter (fun f => match f.phase with | .waiting _ => true | _ => false)) (fun s f => s.dropAt f 0x368)
  let s := { s with grv := { s.grv with fills := [] } }
  let lost := (s.ways.filter (fun e => e.2.st = .dirty)).length
  let s := s.addF F.CPS_WB_LOST_COUNT lost
  s.mapWays (fun w => if w.st = .pinned || w.st = .shadow then some w else none)

/-- Grove goes LOST, and no line of it is valid any more (R183); the engine itself halts DMA channels with a CXL endpoint. -/
def State.grvLose (s : State) (link : Nat) : State :=
  if s.grvSt = grvBuilding || s.grvSt = grvServing || s.grvSt = grvMigrating then
    let s := s.lossRule
    let s := { s with grv := { s.grv with mig := none, lines := [] } }
    let s := (s.setF F.GRV_STATUS_STATE grvLost).setF F.GRV_STATUS_MIGRATED 0
    (s.grvFlag 1 link 0xFFFFFFFF).updService
  else s

/-- A change of IL2: the loss rule, then the links retrain and Grove is built as at stage B5 (Table CFG-5). -/
def State.grvRestart (s : State) (link : Nat) : State :=
  let s := s.grvLose link
  { s with grv := { s.grv with atB5 := true, links := s.grv.links.map (fun l => { l with trained := false, mapped := false }) } }

/-- Draw the Grove keys and write the active region empty (R166, R168, R180). -/
def State.startBuild (s : State) : State :=
  let (hk, s) := s.drawBytes 16
  let (enc, s) := s.drawBytes 64
  let (mac, s) := s.drawBytes 32
  let ls := s.grv.links.map (fun (l : CxlLink) => { l with holds := l.mapped })
  let s := { s with grv := { s.grv with hashKey := beNat hk, kgEnc := some enc, kgMac := some mac, lines := [], mig := none, fills := [], links := ls } }
  let s := s.setF F.GRV_STATUS_BKT_LOG2 (kOf (s.f F.GRV_CTL_BKT_LOG2))
  let s := s.setF F.SWP_CXL_POS_LINE 0
  s.enterGrv grvBuilding

def State.link (s : State) (j : Nat) : CxlLink := s.grv.links.getD j CxlLink.reset
def State.setLink (s : State) (j : Nat) (l : CxlLink) : State := { s with grv := { s.grv with links := s.grv.links.set j l } }

/-- The links that are configured: a device present, link 1 only with IL2 (R162). -/
def State.configured (s : State) : List Nat :=
  [0, 1].filter (fun j => (s.link j).present && (j = 0 || s.fb F.GRV_CTL_IL2))

/-- The CXL bytes mapped: interleaved devices are used up to the smaller capacity, and the loss of one takes both (R162, R183). -/
def State.cxlSize (s : State) : Nat :=
  let caps := ([0, 1].filter (fun j => (s.link j).mapped)).map (fun j => (s.link j).cap)
  match caps with
  | [a, b] => if s.fb F.GRV_STATUS_IL2 then 2 * min a b * 2 ^ 20 else (a + b) * 2 ^ 20
  | [a] => if s.fb F.GRV_STATUS_IL2 then 0 else a * 2 ^ 20
  | _ => 0

/-- GRV_CXL_STS as read (Table GRV-9). -/
def State.cxlSts (s : State) : Word :=
  let one := fun (j : Nat) =>
    let l := s.link j
    b2n l.trained * 128 + b2n l.mapped * 64 + b2n l.awaiting * 32 + b2n (l.trained && l.gt32) * 16 + min 15 (l.cap / 4096)
  BitVec.ofNat 32 (one 0 + 256 * one 1)

end Sys2Proof.Machine
end

