-- ==== Sys2Proof/Machine/PwrBase.lean ====
section
/-! DEFINITION. The states of the power domains and their wake (R408, R411, Table PWR-3). -/

namespace Sys2Proof.Machine

/-! The domains of Table PWR-1. -/
def dBerm : Nat := 0
def dKeys : Nat := 1
def dNva : Nat := 2
def dRoot : Nat := 3
def dPipe0 : Nat := 8
def dPipe1 : Nat := 9
def dCipher : Nat := 10
def dPke : Nat := 11
def dTract0 : Nat := 12
def dTwin : Nat := 20
def dHost : Nat := 21
def dCxl : Nat := 22
def dCard : Nat := 23
def dField : Nat := 24

/-! The codes of PWR_STS. -/
def dsOff : Nat := 0
def dsRet : Nat := 1
def dsOn : Nat := 2
def dsMove : Nat := 3

/-- The register and place of a domain's state. -/
def domFld (d : Nat) : Fld := if d < 16 then ⟨R.PWR_STS_LO, 2 * d, 2⟩ else ⟨R.PWR_STS_HI, 2 * (d - 16), 2⟩

def State.domSt (s : State) (d : Nat) : Nat := s.f (domFld d)
def State.setDom (s : State) (d st : Nat) : State := s.setF (domFld d) st
def State.domOn (s : State) (d : Nat) : Bool := s.domSt d = dsOn

/-- The transition of a domain. -/
def State.domTrans (s : State) (d : Nat) : Option Trans := s.pwr.trans.find? (fun t => t.dom = d)
def State.dropTrans (s : State) (d : Nat) : State := { s with pwr := { s.pwr with trans := s.pwr.trans.filter (fun t => t.dom ≠ d) } }

/-- A domain begins to move. -/
def State.domMove (s : State) (d src dst : Nat) : State :=
  let s := s.dropTrans d
  { s.setDom d dsMove with pwr := { (s.setDom d dsMove).pwr with trans := s.pwr.trans ++ [⟨d, src, dst⟩] } }

/-- One domain wakes: a request to leave ON is abandoned (R410), and a domain that is not ON starts to leave its state. -/
def State.domWake1 (s : State) (d : Nat) : State :=
  match s.domTrans d with
  | some t =>
    if t.dst = dsOn then s
    else
      let s := s.setF (F.PWR_CTL_RESULT d) 0x30
      if t.src = dsOn then (s.dropTrans d).setDom d dsOn else s.domMove d t.src dsOn
  | none => if s.domOn d then s else s.domMove d (s.domSt d) dsOn

/-- The pipeline that serves a Tract. -/
def tractPipe (d : Nat) : Nat := dPipe0 + (d - dTract0) / 4

/-- A wake with the domains that it wakes first (R411): a Tract wakes its pipeline, and a pipeline the CIPHER domain. -/
def State.domWake (s : State) (d : Nat) : State :=
  let s := s.doIf (decide (dTract0 ≤ d) && decide (d < dTwin)) (fun s => (s.domWake1 (tractPipe d)).domWake1 dCipher)
  let s := s.doIf (d = dPipe0 || d = dPipe1) (fun s => s.domWake1 dCipher)
  s.domWake1 d

/-- An access to a domain: one that is not ON wakes, and the access waits for it (R411). -/
def State.inDom (s : State) (d : Nat) (g : State → Res) : Res :=
  if s.domOn d then g s else .next (s.domWake d)

/-- The shared section of the pipelines is ON while either of them is. -/
def State.sharedOn (s : State) : Bool := s.domOn dPipe0 || s.domOn dPipe1

def State.pwrFlag (s : State) (bit d : Nat) : State := s.raise pwrEvt bit d

end Sys2Proof.Machine
end

