-- ==== Sys2Proof/Machine/CulOps.lean ====
section
/-! DEFINITION. Command slots: the order of checks, replies, completions, handles, held objects and the choice of the
next ring (R205 to R213, R217, R230 to R237). Every CMD_ row is one run of `runCmd` on its own CmdSpec. -/

namespace Sys2Proof.Machine

/-! ### Status and detail codes (Tables CMD-2 and CMD-3) -/
namespace St
def done : Nat := 0x0000
def accepted : Nat := 0x0001
def badOpcode : Nat := 0x0010
def badLength : Nat := 0x0011
def badParam : Nat := 0x0012
def noAuthority : Nat := 0x0020
def locked : Nat := 0x0021
def busy : Nat := 0x0030
def nonAtomic : Nat := 0x0031
def peerMismatch : Nat := 0x0032
def nvFail : Nat := 0x0040
def progNotErased : Nat := 0x0041
def verifyAfterDip : Nat := 0x0042
def keyExhausted : Nat := 0x0050
def keyZeroized : Nat := 0x0051
def memoryPoison : Nat := 0x0060
def fieldHeld : Nat := 0x0070
def cardLost : Nat := 0x0071
def tamperLockout : Nat := 0x0080
def internal : Nat := 0x00F0
end St

namespace Dt
def none : Nat := 0
def version : Nat := 1
def field : Nat := 2
def flag : Nat := 3
def budget : Nat := 4
def outOfWindow : Nat := 5
def noEventRing : Nat := 6
def cycle : Nat := 7
def state : Nat := 8
def keyExists : Nat := 9
def pinLimit : Nat := 0xA
def pinConflict : Nat := 0xB
def tableFull : Nat := 0xC
def versionStale : Nat := 0xD
def notServing : Nat := 0xE
def handleUnknown : Nat := 0xF
def expired : Nat := 0x10
def ring : Nat := 0x11
def role : Nat := 0x12
def cancelled : Nat := 0x13
def signature : Nat := 0x14
def digest : Nat := 0x15
def point : Nat := 0x16
def protected_ : Nat := 0x17
def dikePort : Nat := 0x18
def commitPending : Nat := 0x19
def held : Nat := 0x1A
def keyLocked : Nat := 0x1B
def overlap : Nat := 0x1C
def keyAbsent : Nat := 0x1D
def staticEntry : Nat := 0x1E
end Dt

/-- A reply: status, DETAIL and RESULT. -/
structure Reply where
  status : Nat
  detail : Nat
  result : List Byte
deriving DecidableEq, Repr

/-- A status with a coded DETAIL (R234). -/
def coded (status code q : Nat) : Reply := ⟨status, code * 65536 + q % 65536, []⟩
def Reply.ok (result : List Byte) : Reply := ⟨St.done, 0, result⟩
def badField (off : Nat) : Reply := coded St.badParam Dt.field off
def badState (q : Nat) : Reply := coded St.badParam Dt.state (q % 32768)
def busyState (q : Nat) : Reply := coded St.busy Dt.state (q % 32768)

/-- The reply `r` where `c` holds. -/
def refuse (c : Bool) (r : Reply) : Option Reply := if c then some r else none

/-- What the execution of a command comes to: its reply, or a wait. -/
inductive CmdRes where
  | done (r : Reply) (s : State)
  | later (w : Wait) (s : State)

/-! ### Replies and completions -/

def Held.async (h : Held) : Bool := bitAt h.flags 0 || bitAt h.flags 2

/-- The session index a handle names (R217). -/
def Held.session (h : Held) : Nat := bitsOf h.handle 16 6

/-- Write the reply of a slot and signal the ring's vector (R206, R223); nothing is written after the window loss, and
the write waits while Bus Master Enable is 0 (R201). -/
def State.putReply (s : State) (h : Held) (r : Reply) (g : BitVec 64) : State :=
  if h.mute then s
  else if !s.cul.bme then { s with cul := { s.cul with owed := s.cul.owed ++ [(h, r.status, r.detail, r.result, g)] } }
  else
    let s := s.emit (.reply h.ring h.idx r.status h.opc h.tag r.detail r.result g)
    if s.fb (F.CUL_CRING_CTL_IRQ h.ring) then s.signalArmed (64 + h.ring) else s

/-- The completion entry of an ASYNC or AT_CYCLE command (R211, R219): LATE where the cycle was skipped. -/
def State.complete (s : State) (h : Held) (r : Reply) (late : Bool) : State :=
  if h.mute then s
  else
    let data := r.status + dat 2 h.opc + dat 4 r.detail + dat 8 h.ring + dat 9 (b2n late + 2 * b2n (bitAt h.flags 2)) + dat 10 h.idx
    let e := s.f (F.CUL_CRING_CTL_ERING h.ring)
    let s := s.irqAll 32
    if s.eringOn e then s.postTo e ⟨0, 0, h.tag, s.gacNow, BitVec.ofNat 128 data⟩ else s.addF F.CUL_EV_UNMAPPED_COUNT 1

/-- The end of a command: a completion for an asynchronous one, a reply otherwise. An INTERNAL status raises a HOST
event (Table CMD-2). -/
def State.finish (s : State) (h : Held) (r : Reply) (late : Bool) : State :=
  let s := if r.status = St.internal then s.postCode 13 0 4 (h.opc + dat 2 h.ring + dat 4 r.detail) else s
  if h.async then s.complete h r late else s.putReply h r s.gacNow

/-- Commands that wait, other than the one given. -/
def State.endWait (s : State) (h : Held) : State :=
  { s with cul := { s.cul with waits := s.cul.waits.filter (fun w => !(w.cmd.ring = h.ring && w.cmd.idx = h.idx)) } }

/-- A waiting command ends (R210, R211). -/
def State.finishWait (s : State) (h : Held) (r : Reply) : State := (s.endWait h).finish h r false

/-- The commands waiting for something. -/
def State.waitsFor (s : State) (p : Wait → Bool) : List Held := (s.cul.waits.filter (fun w => p w.wait)).map (·.cmd)

/-! ### Buffers (R200, R231, R232) -/

/-- OFS and BLEN of the BUF at a PARAMS offset. -/
def Held.buf (h : Held) (off : Nat) : Nat × Nat := (leAt h.params off 4, leAt h.params (off + 4) 4)

/-- A PARAMS field. -/
def Held.u (h : Held) (off n : Nat) : Nat := leAt h.params off n

/-- The window's size in bytes. -/
def State.winBytes (s : State) : Nat := 2 ^ s.f F.CUL_WIN_SIZE_SIZE

/-- A BUF reaches past the window. -/
def outside (win : Nat) (b : Nat × Nat) : Bool := b.2 ≠ 0 && decide (win < b.1 + b.2)

/-- Two buffers overlap in part. -/
def partOverlap (a b : Nat × Nat) : Bool :=
  a.2 ≠ 0 && b.2 ≠ 0 && decide (a.1 < b.1 + b.2) && decide (b.1 < a.1 + a.2) && decide (a ≠ b)

/-- The checks of every BUF of a command: the window, then overlap of output with input. -/
def bufCheck (win : Nat) (h : Held) (bufs : List (Nat × Bool)) : Option Reply :=
  match bufs.find? (fun b => outside win (h.buf b.1)) with
  | some b => some (coded St.badParam Dt.outOfWindow b.1)
  | none =>
    match bufs.find? (fun o => o.2 && bufs.any (fun i => !i.2 && partOverlap (h.buf o.1) (h.buf i.1))) with
    | some o => some (coded St.badParam Dt.overlap o.1)
    | none => none

/-- The contents of the k-th input buffer, as long as its BLEN at PARAMS offset `off`. -/
def Held.inp (h : Held) (k off : Nat) : List Byte := fitB (h.buf off).2 (h.bufs.getD k [])

/-- Write an output buffer (R232). -/
def State.putBuf (s : State) (h : Held) (off : Nat) (bytes : List Byte) : State :=
  if bytes = [] then s else s.emit (.hostWrite (h.buf off).1 bytes)

/-- The output buffer is too short for `n` bytes (R232). -/
def Held.short (h : Held) (off n : Nat) : Option Reply := refuse (decide ((h.buf off).2 < n)) (badField off)

/-! ### Lengths (R230) -/

/-- The failing offset of a LEN against a listing of (offset, size): the field in which it ends, or the end it passes. -/
def lenFixed (fs : List (Nat × Nat)) (len : Nat) : Option Nat :=
  match fs.find? (fun f => decide (len < f.1 + f.2)) with
  | some f => some f.1
  | none =>
    let e := match fs.getLast? with | some f => f.1 + f.2 | none => 0
    if e < len then some e else none

/-- RESULT fields (size, value), each at the next multiple of its size (R230). -/
def packR : List (Nat × Nat) → List Byte → List Byte
  | [], acc => acc
  | (n, v) :: t, acc => packR t (acc ++ List.replicate ((n - acc.length % n) % n) 0 ++ toLe n v)

/-! ### Command specifications -/

/-- One row of the family tables (Tables CMD-5 to CMD-15): opcode; permissions needed (none: HANDLE 0); synchronous
only; its own target cycle; the flags DRAIN and TWIN; the check of LEN; its BUFs with which are outputs; the parameter
checks that need no state; those that do; the objects it needs; the key slots it reads (R190); the power domain that it reaches into, if any (R411); the
resources it needs to start; what its refusal by a check of steps 7 to 9 leaves (R386); and its effect. -/
structure CmdSpec where
  opc : Nat
  need : Held → State → Option Nat
  sync : Bool := false
  own : Bool := false
  drain : Bool := false
  twin : Bool := false
  len : Held → Option Nat
  bufs : List (Nat × Bool) := []
  pre : Held → Option Reply := fun _ => none
  check : Held → State → Option Reply := fun _ _ => none
  objs : Held → List Obj := fun _ => []
  reads : Held → State → List Nat := fun _ _ => []
  never : Bool := false
  dom : State → Option Nat := fun _ => none
  busy : Held → State → Option Reply := fun _ _ => none
  refused : Held → Reply → State → State := fun _ _ s => s
  act : Held → State → CmdRes

/-- The permissions of the roles (Table CUL-5). -/
def Role.auditor : Nat := 0x001
def Role.operator : Nat := 0x001 + 0x002 + 0x200
def Role.keyOfficer : Nat := 0x001 + 0x100
def Role.integrator : Nat := 0x001 + 0x002 + 0x200 + 0x004 + 0x020 + 0x040 + 0x400

/-- A fixed requirement of permissions. -/
def needs (p : Nat) : Held → State → Option Nat := fun _ _ => some p
/-- HANDLE 0 (R217). -/
def needsNone : Held → State → Option Nat := fun _ _ => none

/-! ### Handles (R217) -/

def State.session (s : State) (i : Nat) : Option Session := Tbl.get (fun _ => none) s.cul.sessions i
def State.setSession (s : State) (i : Nat) (x : Option Session) : State :=
  { s with cul := { s.cul with sessions := Tbl.set (fun _ => none) s.cul.sessions i x } }
def State.genOf (s : State) (i : Nat) : Nat := Tbl.get (fun _ => 0) s.cul.gens i

/-- The check of a handle on a ring for permissions. -/
def handleCheck (s : State) (ring handle need : Nat) : Option Reply :=
  let i := bitsOf handle 16 6
  let g := bitsOf handle 22 10
  let old := g ≠ 0 && decide (g ≤ s.genOf i)
  match s.session i with
  | none => some (coded St.noAuthority (if old then Dt.expired else Dt.handleUnknown) 0)
  | some x =>
    if x.gen ≠ g then some (coded St.noAuthority (if old then Dt.expired else Dt.handleUnknown) 0)
    else if x.perms ≠ handle % 65536 then some (coded St.noAuthority Dt.handleUnknown 0)
    else if x.ring ≠ ring then some (coded St.noAuthority Dt.ring x.ring)
    else if x.perms &&& need ≠ need then some (coded St.noAuthority Dt.role (need - (x.perms &&& need)))
    else none

/-- A command with a handle keeps its session from the idle limit (R218). -/
def State.touch (s : State) (h : Held) : State :=
  match s.session h.session with
  | some x => if h.handle = 0 then s else s.setSession h.session (some { x with seen := s.gac.passed })
  | none => s

/-! ### The checks in order (Table CUL-4) -/

/-- Step 4: reserved flags, flags the opcode does not permit, the target cycle, and the event ring (R211, R212, R239, R285). -/
def flagCheck (c : CmdSpec) (h : Held) (s : State) : Option Reply :=
  let bad := fun (b : Nat) => coded St.badParam Dt.flag b
  refuse (bitAt h.flags 0 && c.sync) (bad 0)
  <|> refuse (bitAt h.flags 1 && !c.drain) (bad 1)
  <|> refuse (bitAt h.flags 2 && (c.sync || c.own)) (bad 2)
  <|> refuse (bitAt h.flags 3 && !c.twin) (bad 3)
  <|> ((rangeFrom 4 12).find? (fun b => bitAt h.flags b)).map bad
  <|> refuse (bitAt h.flags 2 && (decide (h.cycle < s.cycle + 2) || decide (s.cycle + 2 ^ 24 < h.cycle)))
        (coded St.badParam Dt.cycle 0)
  <|> refuse (h.async && !s.eringOn (s.f (F.CUL_CRING_CTL_ERING h.ring)))
        (coded St.badParam Dt.noEventRing (s.f (F.CUL_CRING_CTL_ERING h.ring)))

/-- Step 6: HALT or BREACH in force locks out every family but 0x01, 0x09 and 0x0C. -/
def tamperCheck (h : Held) (s : State) : Option Reply :=
  let fam := h.opc / 256
  refuse (decide (4 ≤ s.f F.TMP_STS_LEVEL) && !(fam = 1 || fam = 9 || fam = 0xC)) (coded St.tamperLockout Dt.none 0)

/-- Step 8: an object needed is held by another session, or a key slot that a key command other than
CMD_KEY_SLOT_READ and CMD_KEY_ROLLOVER names is held by Aeduf (R237). -/
def lockCheck (c : CmdSpec) (h : Held) (s : State) : Option Reply :=
  if c.never then none
  else if h.opc / 256 = 3 && h.opc ≠ 0x0304 && h.opc ≠ 0x030A &&
      s.keys.slots.any (fun e => e.2.aeduf && decide (Obj.slot e.1 ∈ c.objs h)) then some (coded St.locked Dt.held 64)
  else match s.cul.waits.find? (fun w => w.cmd.session ≠ h.session && w.objs.any (· ∈ c.objs h)) with
    | some w => some (coded St.locked Dt.held w.cmd.session)
    | none => none

/-- Steps 7 to 9 in full. -/
def fullCheck (c : CmdSpec) (h : Held) (s : State) : Option Reply :=
  bufCheck s.winBytes h c.bufs
  <|> h.poison.map (fun p => ⟨St.memoryPoison, p, []⟩)
  <|> c.pre h <|> c.check h s <|> lockCheck c h s <|> c.busy h s
  <|> (s.slotPoison (c.reads h s)).map (fun p => ⟨St.memoryPoison, p, []⟩)

/-- Steps 1 to 6 (R208). -/
def frontCheck (c : CmdSpec) (ver : Nat) (h : Held) (s : State) : Option Reply :=
  refuse (ver ≠ 1) (coded St.badOpcode Dt.version ver)
  <|> (c.len h).map (fun q => coded St.badLength Dt.field q)
  <|> flagCheck c h s
  <|> (match c.need h s with
       | some p => handleCheck s h.ring h.handle p
       | none => if h.handle = 0 then none else handleCheck s h.ring h.handle 0)
  <|> tamperCheck h s

/-! ### Which ring is taken (R207, R209) -/

def State.cringSize (s : State) (r : Nat) : Nat := 2 ^ (min (s.f (F.CUL_CRING_CTL_SIZE r)) 8 + 4)

/-- A command of the ring has started and not replied. -/
def State.ringBusy (s : State) (r : Nat) : Bool := s.cul.waits.any (fun w => w.cmd.ring = r && !w.cmd.async)

/-- The ring has a slot to take. -/
def State.ringReady (s : State) (r : Nat) : Bool :=
  s.cul.bme && s.fb (F.CUL_CRING_CTL_EN r) && (s.f (F.CUL_CRING_STS_STATE r) = 1)
  && (s.f (F.CUL_CRING_IDX_HEAD r) ≠ s.f (F.CUL_CRING_IDX_TAIL r))
  && !(r ∈ s.cul.stalled) && !s.ringBusy r

/-- The rings whose control register has been written. -/
def State.rings (s : State) : List Nat :=
  s.regs.filterMap (fun e =>
    if 0xD1004 ≤ e.1 && e.1 < 0xD2004 && (e.1 - 0xD1004) % 16 = 0 then some ((e.1 - 0xD1004) / 16) else none)

/-- The ring whose slot is taken next: the highest priority, round robin within it (R209). -/
def State.turn (s : State) (r : Nat) : Bool :=
  let p := fun (x : Nat) => s.f (F.CUL_CRING_CTL_PRIO x)
  let last := s.cul.lastTaken.getD (p r) 255
  let dist := fun (x : Nat) => (x + 511 - last) % 256
  s.ringReady r && (s.rings.filter s.ringReady).all (fun x => p x < p r || (p x = p r && decide (dist r ≤ dist x)))

/-! ### Running a slot -/

/-- The slot as the device takes it. -/
def slotHeld (sl : Slot) (opc idx : Nat) : Held :=
  { ring := sl.ring, idx := idx, opc := opc, flags := sl.flags.toNat, tag := sl.tag.toNat, handle := sl.handle.toNat,
    cycle := sl.cycle.toNat % 2 ^ 40, len := sl.len.toNat, params := fitB 104 sl.params, bufs := sl.bufs,
    poison := sl.poison.map (·.toNat), mute := false }

/-- Take the slot at HEAD: HEAD advances and the round robin moves on (R203, R209). -/
def State.takeSlot (s : State) (r : Nat) : State :=
  let s := s.addF (F.CUL_CRING_IDX_HEAD r) 1
  { s with cul := { s.cul with lastTaken := s.cul.lastTaken.set (s.f (F.CUL_CRING_CTL_PRIO r)) r } }

/-- The wait of a started command. -/
def State.pushWait (s : State) (h : Held) (w : Wait) (objs : List Obj) : State :=
  { s with cul := { s.cul with waits := s.cul.waits ++ [⟨h, w, objs⟩] } }

/-- The domain that a command reaches into and that is not ON: its access wakes the domain and waits for it (R411). -/
def CmdSpec.asleep (c : CmdSpec) (s : State) : Option Nat := (c.dom s).filter (fun d => !s.domOn d)

/-- The domain that a command waits for: one that is not ON and not stuck. -/
def CmdSpec.sleeps (c : CmdSpec) (s : State) : Option Nat := (c.asleep s).filter (fun d => decide (d ∉ s.pwr.stuck))

/-- A command that reaches into a stuck domain is refused (R413). -/
def CmdSpec.inDom (c : CmdSpec) (s : State) : CmdSpec :=
  match c.asleep s with
  | some d => if d ∈ s.pwr.stuck then { c with busy := fun _ _ => some (busyState d) } else c
  | none => c

/-- Execute a command in full: the checks of steps 7 to 9, then its effect. -/
def runBody (c : CmdSpec) (h : Held) (s : State) : CmdRes :=
  match fullCheck c h s with
  | some r => .done r (c.refused h r s)
  | none => c.act h s

/-- The outcome of an execution written to its slot or event ring. -/
def settle (c : CmdSpec) (h : Held) (late : Bool) (r : CmdRes) : State :=
  match r with
  | .done r s => s.finish h r late
  | .later w s => (s.endWait h).pushWait h w (c.objs h)

/-- A slot that has passed steps 1 to 6 starts: pending at a cycle, accepted, or executed (R210 to R212). -/
def startCmd (c : CmdSpec) (h : Held) (s : State) : State :=
  if bitAt h.flags 2 then
    match bufCheck s.winBytes h c.bufs <|> c.pre h with
    | some r => s.putReply h r s.gacNow
    | none =>
      if 256 ≤ s.cul.atCycle.length then s.putReply h (coded St.busy Dt.none 0) s.gacNow
      else
        let s := s.putReply h ⟨St.accepted, 0, []⟩ s.gacNow
        { s with cul := { s.cul with atCycle := s.cul.atCycle ++ [h] } }
  else if bitAt h.flags 0 then
    match fullCheck c h s with
    | some r => (c.refused h r s).putReply h r s.gacNow
    | none => (s.putReply h ⟨St.accepted, 0, []⟩ s.gacNow).pushWait h .async (c.objs h)
  else settle c h false (runBody c h s)

/-- A CMD_ row: the device takes the slot at HEAD of its ring, checks it in the order of Table CUL-4, and executes it.
A slot of a ring whose turn it is not is not taken; one whose OWN is not 0x01 stops the ring (R207); and one whose
command must wait for a domain is taken once the domain is ON (R411). -/
def runCmd (c : CmdSpec) (sl : Slot) (s : State) : Res :=
  let r := sl.ring.val
  if !s.turn r then .next s
  else if sl.own ≠ 1 then .next { s with cul := { s.cul with stalled := r :: s.cul.stalled } }
  else
    let i := s.f (F.CUL_CRING_IDX_HEAD r) % s.cringSize r
    let h := slotHeld sl c.opc i
    if h.async && decide (64 ≤ (s.heldEv (s.f (F.CUL_CRING_CTL_ERING r))).length) then .next s
    else
      let t := s.takeSlot r
      match frontCheck c sl.ver.toNat h t with
      | some rep => .next (t.putReply h rep t.gacNow)
      | none =>
        match (c.sleeps s).filter (fun _ => !bitAt h.flags 0 && !bitAt h.flags 2) with
        | some d => .next (s.domWake d)
        | none => .next (startCmd (c.inDom s) h (t.touch h))

end Sys2Proof.Machine
end

