-- ==== Sys2Proof/Machine/KeyOps.lean ====
section
/-! DEFINITION. Key slots: their states and transitions, usage, loads and planned rollovers (R110 to R116, R339). -/

namespace Sys2Proof.Machine

/-! The states of Table FPX-4. -/
namespace Ks
def empty : Nat := 0
def loaded : Nat := 1
def active : Nat := 2
def draining : Nat := 3
def exhausted : Nat := 4
def zeroized : Nat := 5
end Ks

/-- An EMPTY slot. -/
def KeySlot.empty : KeySlot :=
  { state := 0, rollPend := false, fold := false, warned := false, grace := 0, alg := 0, frame := false, material := [],
    salt := [], id := 0, succ := none, use := 0, limit := 0, warn := 0, roll := 0, inv := 0, aeduf := false }

def State.ks (s : State) (i : Nat) : KeySlot := Tbl.get (fun _ => KeySlot.empty) s.keys.slots i
def State.setKs (s : State) (i : Nat) (k : KeySlot) : State :=
  { s with keys := { s.keys with slots := Tbl.set (fun _ => KeySlot.empty) s.keys.slots i k } }

/-- The whole slot is written: the poison marks of its codewords clear (R189). -/
def State.putKs (s : State) (i : Nat) (k : KeySlot) : State := (s.setKs i k).forEach (slotCws i) (·.clearPoison 3 ·)

/-- DATA of an FPX event: slot, port, core; all ones where it does not apply. -/
def fpxData (slot port core : Nat) : Nat := slot + dat 2 port + dat 4 core
def State.fpxSlotEvt (s : State) (bit slot : Nat) : State := s.raise fpxEvt bit (fpxData slot 0xFFFF 0xFF)
/-- DATA of a KEY event. -/
def State.keyFlag (s : State) (bit slot : Nat) : State := s.raise keyEvt bit (slot + dat 2 0xFFFF)

/-- The successor is armed while it is LOADED, ACTIVE or DRAINING (R113). -/
def State.armed (s : State) (k : KeySlot) : Bool :=
  match k.succ with
  | some j => let t := (s.ks j).state; t = Ks.loaded || t = Ks.active || t = Ks.draining
  | none => false

/-- The slot may transmit and compute, or receive and verify (Table FPX-4). -/
def KeySlot.canUse (k : KeySlot) : Bool := k.state = Ks.active && decide (k.use < k.limit)

/-- The slot is new in a pending rollover (R101). -/
def State.rollNew (s : State) (i : Nat) : Bool := s.keys.rolls.any (fun r => r.new = i && !r.switched)

/-- The slot verifies received frames: ACTIVE, DRAINING, or LOADED as the new slot of a pending rollover. -/
def State.canVerify (s : State) (i : Nat) : Bool :=
  let k := s.ks i
  (k.state = Ks.active || k.state = Ks.draining || (k.state = Ks.loaded && s.rollNew i)) && decide (k.use < k.limit)

/-- The slot whose key a frame uses: the slot itself, or its ACTIVE successor once it is EXHAUSTED (R113). -/
def State.effSlot (s : State) (i : Nat) : Nat :=
  let k := s.ks i
  if k.state = Ks.exhausted then
    match k.succ with
    | some j => if (s.ks j).state = Ks.active then j else i
    | none => i
  else i

/-- A slot becomes ACTIVE. Frames verified while it was LOADED count (R112): where USE has reached WARN, it is WARNED
now, and where USE has reached LIMIT, it is EXHAUSTED at once. Log entry 45. -/
def State.wakeSlot (s : State) (i : Nat) : State :=
  let k := s.ks i
  let warn := decide (k.warn ≤ k.use) && !k.warned
  let full := decide (k.limit ≤ k.use)
  let s := s.setKs i { k with state := if full then Ks.exhausted else Ks.active, warned := k.warned || warn, grace := 0 }
  (s.doIf warn (·.fpxSlotEvt 0 i)).doIf full (·.fpxSlotEvt 2 i)

/-- The successor of an exhausted slot becomes ACTIVE where it is armed and not yet ACTIVE (Table FPX-5). -/
def State.wakeArmed (s : State) (i : Nat) : State :=
  let st := (s.ks i).state
  if st = Ks.loaded || st = Ks.draining then s.wakeSlot i else s

/-- ROLL_PEND and what goes with it are cleared on a slot. -/
def State.unpend (s : State) (i : Nat) : State := s.setKs i { s.ks i with rollPend := false, roll := 0, fold := false }

/-! ### SecY tables that name a slot (R116) -/

/-- The SecYs that have been configured: base addresses of port and lane SecYs. -/
def State.secys (s : State) : List Nat :=
  s.regs.filterMap (fun e =>
    if 0x200180 ≤ e.1 && e.1 < 0x400000 && (e.1 - 0x200180) % 0x800 = 0 then some e.1
    else if 0x61000 ≤ e.1 && e.1 < 0x65000 && (e.1 - 0x61000) % 0x200 = 0 then some e.1 else none)

/-- The control register of receive or transmit SA `an` of a SecY. -/
def rxCtl (base an : Nat) : Nat := base + 0x40 + 0x20 * an
def txCtl (base an : Nat) : Nat := base + 0xC0 + 0x20 * an
def saEn (v : Word) : Bool := bitAt v.toNat 31
def saSlot (v : Word) : Nat := bitsOf v.toNat 0 15

/-- Transmission moves to the installed SA whose slot is `new` where the SA in use has slot `old` (R116). -/
def State.secySwitch (s : State) (old new : Nat) : State :=
  s.forEach s.secys (fun s b =>
    let ctl := s.rd b
    let v := s.rd (txCtl b (bitsOf ctl.toNat 16 2))
    if bitAt ctl.toNat 30 && saEn v && saSlot v = old then
      match [0, 1, 2, 3].find? (fun a => saEn (s.rd (txCtl b a)) && saSlot (s.rd (txCtl b a)) = new) with
      | some a => s.wr b (BitVec.ofNat 32 (putBits ctl.toNat 16 2 a))
      | none => s
    else s)

/-- Receive SAs keyed by a slot are disabled (R116). -/
def State.secyDropRx (s : State) (old : Nat) : State :=
  s.forEach s.secys (fun s b => s.forEach [0, 1, 2, 3] (fun s a =>
    let v := s.rd (rxCtl b a)
    if saEn v && saSlot v = old then s.wr (rxCtl b a) (v &&& 0x7FFFFFFF) else s))

/-- A slot becomes EXHAUSTED: its armed successor becomes ACTIVE at once; a rollover pending on it switches then, and
transmission moves with it (Table FPX-5, R110, R115, R116). -/
def State.exhaust (s : State) (i : Nat) : State :=
  let k := s.ks i
  let has := s.armed k
  let s := s.setKs i { k with state := Ks.exhausted }
  let s := if has then s.wakeArmed (k.succ.getD 0) else s
  let s := s.fpxSlotEvt (if has then 1 else 2) i
  match s.keys.rolls.find? (fun r => r.old = i && !r.switched) with
  | some r =>
    let s := s.unpend r.new
    let s := { s with keys := { s.keys with rolls := s.keys.rolls.map (fun x => if x.old = i && !x.switched then { x with switched := true } else x) } }
    if has then (s.secySwitch i r.new).fpxSlotEvt 4 i else s
  | none => s

/-- Count one invocation under a slot: WARN and LIMIT act (R112). -/
def State.useSlot (s : State) (i : Nat) : State :=
  let k := s.ks i
  let u := k.use + 1
  let warn := k.state = Ks.active && u = k.warn
  let s := s.setKs i { k with use := u, warned := k.warned || warn }
  let s := if warn then s.fpxSlotEvt 0 i else s
  if u = k.limit && (k.state = Ks.active || k.state = Ks.draining) then s.exhaust i else s

/-- The nonce invocation counter advances; the invocation that would make it 2^64 exhausts the slot (R339). -/
def State.nextInv (s : State) (i : Nat) : State :=
  let k := s.ks i
  if k.inv + 1 ≥ 2 ^ 64 then s.exhaust i else s.setKs i { k with inv := k.inv + 1 }

/-- Key bytes of an ALG (Table KEY-3). -/
def algBytes (alg : Nat) : Nat :=
  match alg with
  | 0x0 | 0x2 | 0x4 | 0x8 | 0xC => 16
  | 0xB => 64
  | 0x6 | 0x7 => 0
  | 0xF => 48
  | _ => 32

/-- The ALGs that the window, KEY_MOVE and CMD_KEY_LOAD load (Table KEY-3). -/
def algLoadable (alg : Nat) : Bool := !(alg = 6 || alg = 7 || alg = 15) && decide (alg < 16)

/-- Put a key into a slot with the load rules of R339. -/
def State.loadSlot (s : State) (i alg : Nat) (frame : Bool) (material salt : List Byte) (id : Nat) : State :=
  let (r, s) := s.drawBytes 12
  let sl := if alg = 2 || alg = 3 then fitB 12 salt
    else if alg = 4 || alg = 5 || alg = 8 || alg = 9 || alg = 12 || alg = 13 then r.take 4
    else []
  s.putKs i { KeySlot.empty with
    state := Ks.loaded, alg := alg, frame := frame, material := material, salt := sl, id := id,
    limit := 2 ^ 40, warn := 2 ^ 40, inv := beNat (r.drop 4) % 2 ^ 63 }

/-- Clear a slot to EMPTY. -/
def State.emptySlot (s : State) (i : Nat) : State := s.putKs i KeySlot.empty

/-- Overwrite a slot's material: ZEROIZED (Table FPX-5). -/
def State.zeroSlot (s : State) (i : Nat) : State :=
  let k := s.ks i
  if k.state = Ks.zeroized then s else s.putKs i { k with state := Ks.zeroized, material := [], salt := [], inv := 0 }

/-! ### Planned rollovers at angle 0 (R115) -/

/-- A rollover leaves the list. -/
def State.dropRoll (s : State) (r : Roll) : State :=
  { s with keys := { s.keys with rolls := s.keys.rolls.filter (fun x => !(x.old = r.old && x.new = r.new)) } }

/-- The transmit switch of one rollover (R115). -/
def State.rollSwitch (s : State) (r : Roll) (late : Bool) : State :=
  let o := s.ks r.old
  let n := s.ks r.new
  let ok := (n.state = Ks.loaded || n.state = Ks.active) && (o.state = Ks.active || o.state = Ks.exhausted)
  let s := if n.state = Ks.loaded then s.wakeSlot r.new else s
  let s := if ok then
      let s := s.unpend r.new
      let s := if o.state = Ks.active then s.setKs r.old { s.ks r.old with state := Ks.draining, grace := r.grace } else s
      let s := { s with keys := { s.keys with rolls := s.keys.rolls.map (fun x => if x = r then { x with switched := true } else x) } }
      (s.secySwitch r.old r.new).fpxSlotEvt 4 r.old
    else
      let s := (s.unpend r.new).unpend r.old
      let s := s.setKs r.old { s.ks r.old with succ := none }
      (s.dropRoll r).fpxSlotEvt 9 r.old
  if late then s.fpxSlotEvt 5 r.old else s

/-- Step 2 of R16: every rollover due at this angle 0, in the order of acceptance. -/
def State.rollsAtZero (s : State) : State :=
  s.forEach (s.keys.rolls.filter (fun r => !r.switched && decide (r.cycle ≤ s.cycle)))
    (fun s r => s.rollSwitch r (decide (r.cycle < s.cycle)))

/-- GRACE counts down on every DRAINING slot (Table FPX-5). -/
def State.graceAtZero (s : State) : State :=
  { s with keys := { s.keys with slots := s.keys.slots.map (fun e =>
      if e.2.state = Ks.draining then (e.1, { e.2 with grace := e.2.grace - 1 }) else e) } }

/-- The fold: the successor's key moves into the slot and the successor empties (Table FPX-5). -/
def State.foldSlot (s : State) (i j : Nat) : State :=
  let k := s.ks i
  let n := s.ks j
  (s.putKs i { k with state := n.state, alg := n.alg, frame := n.frame, material := n.material, salt := n.salt, id := n.id, use := n.use,
                      limit := n.limit, warn := n.warn, inv := n.inv, succ := n.succ, warned := n.warned, grace := 0, rollPend := false, fold := false, roll := 0 }).emptySlot j

/-- The end of a rollover's grace on its old slot, whose receive SAs are disabled whatever has become of it since the
switch (Table FPX-5, R116). -/
def State.graceEnd (s : State) (i : Nat) : State :=
  let k := s.ks i
  let r := s.keys.rolls.find? (fun r => r.old = i && r.switched)
  let s := match r with | some r => s.dropRoll r | none => s
  let s := s.secyDropRx i
  let j := (r.map (·.new)).getD (k.succ.getD 0)
  let n := s.ks j
  let takes := k.state = Ks.draining || k.state = Ks.exhausted
  let foldable := takes && k.fold && (n.state = Ks.active || n.state = Ks.exhausted)
  if foldable then s.foldSlot i j
  else if k.state = Ks.draining then
    let s := s.emptySlot i
    if k.fold then s.fpxSlotEvt 9 i else s
  else if s.keys.rolls.any (fun r => r.old = i || r.new = i) then s
  else s.unpend i

/-- KEY_GRACE_END: the grace of a rollover's old slot has ended at angle 0 (R115, R116): GRACE of a DRAINING slot has
counted down, and of any other old slot cycle N + GRACE has come. -/
def execKeyGraceEnd (slot : BitVec 15) (s : State) : Res :=
  let i := slot.toNat
  let k := s.ks i
  let due := if k.state = Ks.draining then k.grace = 0
    else s.keys.rolls.any (fun r => r.old = i && r.switched && decide (r.cycle + r.grace ≤ s.cycle))
  if due then .next (s.graceEnd i) else .next s

end Sys2Proof.Machine
end

