-- ==== Sys2Proof/Machine/Time.lean ====
section
/-! DEFINITION. The grid-angle clock and its references (R27 to R49): frequency and angle, mains inputs, phasor
reference, lock states, and what angle 0 does to the GAC core. -/

namespace Sys2Proof.Machine

/-! ### Arithmetic of the clock -/

/-- GAC_INCR of a frequency in µHz; with PTP locked the frequency is in TAI seconds, and the rate correction in parts
per 10^12 is folded in (R27, R30). -/
def gacIncr (freq : Nat) (rate : Int) : BitVec 40 :=
  BitVec.ofNat 40 (roundDiv (freq * 2 ^ 64 * (10 ^ 12 + rate).toNat) (10 ^ 6 * 1250000000 * 10 ^ 12))

/-- The applied frequency's limits (R29). -/
def clampFreq (f : Int) : Nat := (max 40000000 (min 70000000 f)).toNat

/-- A 24-bit angle as a signed value in ±8,388,608 ac (R33). -/
def signedAngle (a : Int) : Int :=
  let m := a % 16777216
  if m < 8388608 then m else m - 16777216

/-- A quotient of integers, halves away from zero. -/
def roundInt (a b : Int) : Int := if a < 0 then -((2 * (-a) + b) / (2 * b)) else (2 * a + b) / (2 * b)

/-- The integer square root, one bit at a time from bit `k - 1`. -/
def isqrtFrom : Nat → Nat → Nat → Nat
  | 0, _, r => r
  | k + 1, n, r => if (r + 2 ^ k) * (r + 2 ^ k) ≤ n then isqrtFrom k n (r + 2 ^ k) else isqrtFrom k n r

/-- GAC_PHERR_RMS: the root of the mean of the squares. DESIGN CHOICE, log entry 40: before 64 samples the mean runs over
the samples held, a cycle without an error adds none, and the root is rounded down (R34 states none of the three). -/
def rms (es : List Int) : Nat :=
  if es = [] then 0 else isqrtFrom 24 (((es.map (fun e => e * e)).foldl (· + ·) 0).toNat / es.length) 0

/-- The nominal frequency in µHz (Table GAC-6). -/
def State.nominal (s : State) : Nat := if s.fb F.GAC_CTL_NOM then 60000000 else 50000000

/-! ### Sources -/

/-- GAC_STATUS.STATE codes (Table GAC-3). -/
def gFree : Nat := 0
def gNominal : Nat := 1
def gHoldover : Nat := 2
def gMains : Nat := 3
def gPhasor : Nat := 4

def State.gst (s : State) : Nat := s.f F.GAC_STATUS_STATE
def State.srcAuto (s : State) : Bool := s.f F.GAC_CTL_SRC = 2
def State.mainsSel (s : State) : Bool := s.f F.GAC_CTL_SRC ≠ 1
def State.phasorSel (s : State) : Bool := (s.f F.GAC_CTL_SRC = 1) || s.srcAuto
/-- The mains reference is valid while an enabled input is (R32). -/
def State.mainsValid (s : State) : Bool := (s.f F.GAC_STATUS_MREF_VALID &&& s.f F.GAC_CTL_MREF_EN) ≠ 0
def State.phasorValid (s : State) : Bool := s.fb F.GAC_STATUS_PHASOR_VALID
def State.ptpLocked (s : State) : Bool := s.fb F.GAC_PTP_STATUS_LOCK
/-- The GAC follows no source. -/
def State.unlocked (s : State) : Bool := (s.gst = gFree) || (s.gst = gNominal) || (s.gst = gHoldover)

/-- Set a GAC_EVT flag with the state in DATA; one set at angle 0 is gathered (R49). -/
def State.gacFlag (s : State) (bit : Nat) (zero : Bool := false) : State :=
  if zero then { s with gac := { s.gac with gathered := s.gac.gathered ||| 2 ^ bit } }
  else s.raise gacEvt bit s.gst

/-- The flags that an angle 0 gathered are set, from bit 0 upward, each with its entry (R49). On the backup cell no entry
can be placed (R402). -/
def State.postGathered (s : State) : State :=
  let m := s.gac.gathered
  let s := { s with gac := { s.gac with gathered := 0 } }
  s.forEach ((List.range 7).filter (bitAt m)) (fun s b =>
    if s.berm.backup then s.wr R.GAC_EVT (s.rd R.GAC_EVT ||| BitVec.ofNat 32 (2 ^ b)) else s.raise gacEvt b s.gst)

/-- SLEWING: NOMINAL or FREE, no acquisition, and the frequency not yet nominal (R41, R42). -/
def State.showSlew (s : State) : State :=
  s.setB F.GAC_STATUS_SLEWING
    (((s.gst = gFree) || (s.gst = gNominal)) && !s.fb F.GAC_STATUS_ACQ && (s.f F.GAC_FREQ_FREQ ≠ s.nominal))

/-- Enter a GAC state, `zero` at angle 0; a change sets STATE_CHG. -/
def State.enterGac (s : State) (st : Nat) (zero : Bool := false) : State :=
  if s.gst = st then s else (s.setF F.GAC_STATUS_STATE st).gacFlag 0 zero

/-- Acquisition starts on mains or on the phasor (R41). -/
def State.startAcq (s : State) (mains : Bool) : State :=
  { (s.setF F.GAC_STATUS_ACQ 1).setF F.GAC_STATUS_SLEWING 0 with gac := { s.gac with acqMains := mains, close := 0 } }

/-- Acquisition ends without completing (R41). -/
def State.endAcq (s : State) : State := (s.setF F.GAC_STATUS_ACQ 0).showSlew

/-- The mains reference has become valid (R41, Table GAC-4). -/
def State.mainsUp (s : State) : State :=
  if !s.mainsSel then s
  else
    let s := s.gacFlag 2
    if s.gst = gMains then s
    else if s.gst = gPhasor && !s.srcAuto then s
    else s.startAcq true

/-- The phasor reference has become valid (R41). -/
def State.phasorUp (s : State) : State :=
  if !s.phasorSel then s
  else
    let s := s.gacFlag 2
    if s.unlocked && !s.fb F.GAC_STATUS_ACQ && !(s.srcAuto && s.mainsValid) then s.startAcq false else s

/-- The locking reference is lost: HOLDOVER for 64 cycles at the frequency then applied (Table GAC-4). -/
def State.toHoldover (s : State) (zero : Bool := false) : State :=
  let s := (s.wr R.GAC_FREQ_HOLD (s.rd R.GAC_FREQ)).setF F.GAC_STATUS_HOLD_LEFT 64
  (s.enterGac gHoldover zero).gacFlag 1 zero

/-- The mains reference has become invalid, or is no longer selected. -/
def State.mainsDown (s : State) (zero : Bool := false) : State :=
  let s := if s.fb F.GAC_STATUS_ACQ && s.gac.acqMains then s.endAcq else s
  let s := if s.gst = gMains then s.toHoldover zero else s
  if s.unlocked && s.srcAuto && s.phasorValid && !s.fb F.GAC_STATUS_ACQ then s.startAcq false else s

/-- The phasor reference has become invalid, or is no longer selected. -/
def State.phasorDown (s : State) : State :=
  let s := s.setF F.GAC_STATUS_PHASOR_VALID 0
  let s := if s.fb F.GAC_STATUS_ACQ && !s.gac.acqMains then s.endAcq else s
  if s.gst = gPhasor then s.toHoldover else s

/-- A change of SRC, MREF_EN or NOM: the source in use is kept if still selected and otherwise treated as invalid; a
source newly selected and valid starts acquisition (Table GAC-4, R41). `was` is GAC_CTL before the change, `zero` says that it
takes effect at angle 0. -/
def State.gacReselect (s : State) (was : Word) (zero : Bool := false) : State :=
  let en := s.f F.GAC_CTL_MREF_EN
  let s := s.setF F.GAC_STATUS_MREF_VALID (s.f F.GAC_STATUS_MREF_VALID &&& en)
  if s.rd R.GAC_CTL = was then s
  else
    let s := if !s.mainsSel || !s.mainsValid then s.mainsDown zero else s
    let s := if !s.phasorSel && ((s.gst = gPhasor) || (s.fb F.GAC_STATUS_ACQ && !s.gac.acqMains)) then
        (if s.fb F.GAC_STATUS_ACQ && !s.gac.acqMains then s.endAcq else s).doIf (s.gst = gPhasor) (·.toHoldover zero)
      else s
    let s := s.doIf ((s.unlocked || (s.gst = gPhasor && s.srcAuto)) && s.mainsSel && s.mainsValid &&
        !(s.fb F.GAC_STATUS_ACQ && s.gac.acqMains)) (·.startAcq true)
    let s := s.doIf (s.unlocked && s.phasorSel && s.phasorValid && !s.fb F.GAC_STATUS_ACQ && !(s.srcAuto && s.mainsValid))
      (·.startAcq false)
    s.showSlew

/-- What main power finds of the GAC core where the Berm has held it: FREE, every source and PTP lock gone (R40, R454). -/
def State.gacPowerOn (s : State) : State :=
  let s := [F.GAC_STATUS_ACQ, F.GAC_STATUS_MREF_VALID, F.GAC_STATUS_PHASOR_VALID, F.GAC_STATUS_PTP_LOCK, F.GAC_STATUS_HOLD_LEFT,
    F.GAC_STATUS_CYCLE_SET, F.GAC_PTP_STATUS_LOCK, F.GAC_ZERO_SEQ_TAI_OK].foldl (fun s f => s.setF f 0) s
  let s := (s.setF F.GAC_STATUS_STATE gFree).setF F.GAC_PTP_STATUS_CLASS 255
  { s with gac := { s.gac with mref := Gac.reset.mref, edges := [], phasor := none, phasorRun := 0, phasorMiss := 0, close := 0,
                               step := none, taiSet := none, master := false } }.showSlew

/-! ### Mains inputs (R31 to R33) -/

/-- The GAC accumulator at a tick, from the angle-0 history (R36). -/
def Gac.accAt (g : Gac) (tick : Nat) : Nat :=
  match g.zeros.find? (fun z => decide (z.tick ≤ tick)) with
  | some z => (z.acc.toNat + z.incr.toNat * (tick - z.tick)) % 2 ^ 64
  | none => 0

/-- The angle at a tick. -/
def Gac.angleAt (g : Gac) (tick : Nat) : Nat := g.accAt tick / 2 ^ 40

/-- Input `n` as it stands. -/
def State.mrefIn (s : State) (n : Nat) : MrefIn := s.gac.mref.getD n ⟨none, none, 0⟩
def State.setMref (s : State) (n : Nat) (m : MrefIn) : State := { s with gac := { s.gac with mref := s.gac.mref.set n m } }

/-- The candidate edge is discarded: too short, or too soon after the last accepted one (R31). -/
def edgeDiscarded (minw : Nat) (last : Option Nat) (rise high : Nat) : Bool :=
  (minw ≠ 0 && high < minw * 125000) ||
    (match last with | some l => decide ((rise - l) * 70 < 1250000000) | none => false)

/-- The new period differs from the previous one by no more than 5 % (R32). -/
def periodClose (p q : Nat) : Bool := decide ((max p q - min p q) * 20 ≤ q)

/-- A period lies within 40 to 70 Hz; the lower bound is the discard of R31. -/
def periodInBand (p : Nat) : Bool := decide (p * 40 ≤ 1250000000)

/-- The consecutive edges that count toward validity after an edge with its period and the one before: an edge counts
where its period lies in the band and within 5 % of the previous one (R32). DEDUCED, log entry 41: an edge without two
periods to compare does not count, and one that fails starts the count at 0. -/
def goodAfter (good : Nat) (period prev : Option Nat) : Nat :=
  match period, prev with
  | some p, some q => if periodInBand p && periodClose p q then good + 1 else 0
  | _, _ => 0

/-- The period fails the 5 % test (R32). -/
def periodFails (period prev : Option Nat) : Bool :=
  match period, prev with | some p, some q => !periodClose p q | _, _ => false

/-- MREF_EDGE: an edge on a mains input, with its high time (R31, R32). DESIGN CHOICE, log entry 42: the edge is filed in
the cycle in which the command is executed, at the end of its high time, though its angle is that of its rise (R33 does
not say which cycle an edge belongs to whose high time ends after angle 0). -/
def execMrefEdge (n : Fin 3) (rise high : Nat) (s : State) : Res :=
  let m := s.mrefIn n
  if !bitAt (s.f F.GAC_CTL_MREF_EN) n || edgeDiscarded (s.f F.GAC_CTL_MINW) m.last rise high then .next s
  else
    let period := m.last.map (rise - ·)
    let good := goodAfter m.good period m.period
    let was := s.mainsValid
    let bit := 2 ^ n.val
    let v := s.f F.GAC_STATUS_MREF_VALID
    let s := s.setMref n ⟨some rise, period, good⟩
    let s := s.setF F.GAC_STATUS_MREF_VALID
      (if periodFails period m.period then v &&& (7 - bit) else if good ≥ 8 then v ||| bit else v)
    let a := signedAngle ((s.gac.angleAt rise : Int) - s.f (F.GAC_MREF_OFS_OFS n))
    let s := if bitAt (s.f F.GAC_STATUS_MREF_VALID) n then { s with gac := { s.gac with edges := a :: s.gac.edges } } else s
    if s.mainsValid && !was then .next s.mainsUp
    else if was && !s.mainsValid then .next s.mainsDown
    else .next s

/-- MREF_TIMEOUT: no accepted edge for 1.5 periods on a valid input (R32). -/
def execMrefTimeout (n : Fin 3) (s : State) : Res :=
  let v := s.f F.GAC_STATUS_MREF_VALID
  if !bitAt v n then .next s
  else
    let was := s.mainsValid
    let s := (s.setMref n ⟨none, none, 0⟩).setF F.GAC_STATUS_MREF_VALID (v &&& (7 - 2 ^ n.val))
    if was && !s.mainsValid then .next s.mainsDown else .next s

/-- ACQUISITION_COMPLETE: 16 consecutive cycles below 0.5 degrees of phase error (R41). -/
def execAcquisitionComplete (s : State) : Res :=
  if s.fb F.GAC_STATUS_ACQ && decide (16 ≤ s.gac.close) then
    let s := (s.setF F.GAC_STATUS_ACQ 0).setF F.GAC_STATUS_HOLD_LEFT 0
    .next (s.enterGac (if s.gac.acqMains then gMains else gPhasor))
  else .next s

/-- PHASOR_TIMEOUT: five consecutive cycles without an accepted estimate (R36). -/
def execPhasorTimeout (s : State) : Res :=
  if s.phasorValid && decide (5 ≤ s.gac.phasorMiss) then .next s.phasorDown else .next s

/-! ### Frequency at angle 0 (R29, R41, R42) -/

/-- One slew step toward nominal: at most 0.01 Hz (R42). -/
def slewStep (f nom : Nat) : Nat := if f < nom then min nom (f + 10000) else max nom (f - 10000)

/-- Apply a frequency from this angle 0 on. -/
def State.applyFreq (s : State) (f : Nat) : State :=
  let s := s.wr R.GAC_FREQ (BitVec.ofNat 32 f)
  { s with gac := { s.gac with incr := gacIncr f (if s.ptpLocked then s.gac.rate else 0) } }

/-- The slew of NOMINAL and FREE at one angle 0. -/
def State.applySlew (s : State) : State := (s.applyFreq (slewStep (s.f F.GAC_FREQ_FREQ) s.nominal)).showSlew

/-- A span of ticks in 2^-16 ns: of TAI while PTP is locked, and of TBCLK otherwise (R30). -/
def State.span (s : State) (ticks : Nat) : Nat :=
  if s.ptpLocked then ((ticks : Int) * 524288 * (10 ^ 12 + s.gac.rate) / 10 ^ 13).toNat else ticks * 524288 / 10

/-- The period of the mains reference, in 2^-16 ns: that of the first enabled and valid input. DESIGN CHOICE, log entry 43:
R41 does not say which input's period is measured where several are valid. -/
def State.mainsPeriod (s : State) : Nat :=
  s.span ((((List.range 3).filter (fun n => bitAt (s.f F.GAC_STATUS_MREF_VALID &&& s.f F.GAC_CTL_MREF_EN) n)).filterMap
    (fun n => (s.mrefIn n).period)).headD 0)

/-- The pull of acquisition (R41): toward the source phase, so against the sign of the error, and at most `lim`; none in
a cycle without an error. -/
def acqPull (err : Option Int) (lim n : Nat) : Int :=
  match err with
  | some e =>
    let m : Int := (min lim (Config.acqPull e n) : Nat)
    if 0 < e then -m else if e < 0 then m else 0
  | none => 0

/-- The phase error of the ended cycle on one source, where it had one (R33, R36). DESIGN CHOICE, log entry 44: the mean
of the edges is rounded to the nearest whole ac, halves away from zero (R33 does not say how it is rounded). -/
def State.cycleErr (s : State) (mains : Bool) : Option Int :=
  if mains then (if s.gac.edges = [] then none else some (roundInt (s.gac.edges.foldl (· + ·) 0) s.gac.edges.length))
  else s.gac.phasor

/-- The frequency rule of angle 0: acquisition, the loop, the held frequency, or the slew (R29, R41, R42). -/
def State.nextFreq (s : State) : State :=
  let acq := s.fb F.GAC_STATUS_ACQ
  let (n, s) := s.open_
  if s.fb F.TWN_STATUS_PEER_REF then
    -- the loop closes on the angle-0 instants of the twin LEAD, within GAC_RELOCK_DF (R282)
    let lim : Nat := max 1 (s.f F.GAC_RELOCK_DF_DF) * 1000
    let f := s.f F.GAC_FREQ_FREQ
    s.applyFreq (clampFreq (max (f - lim : Int) (min (f + lim : Int) (Config.loopFilter (s.f F.GAC_CTL_BW) f (s.rd R.TWN_OFS).toInt n : Nat))))
  else if acq && s.unlocked then
    let pull := acqPull (s.cycleErr s.gac.acqMains) (max 1 (s.f F.GAC_RELOCK_DF_DF) * 1000) n
    let base : Nat := if s.gac.acqMains then Config.measuredFreq s.mainsPeriod n else s.gac.phasorFreq
    s.applyFreq (clampFreq (base + pull))
  else if s.gst = gMains || s.gst = gPhasor then
    match s.cycleErr (s.gst = gMains) with
    | some e => s.applyFreq (clampFreq (Config.loopFilter (s.f F.GAC_CTL_BW) (s.f F.GAC_FREQ_FREQ) e n : Nat))
    | none => s.applyFreq (s.f F.GAC_FREQ_FREQ)
  else if s.gst = gHoldover then s.applyFreq (clampFreq (s.f F.GAC_FREQ_HOLD_FREQ : Nat))
  else s.applySlew

/-! ### PTP lock (R39) -/

/-- PTP lock is lost (R36, R39, Table GAC-4). -/
def State.ptpLost (s : State) : State :=
  if !s.ptpLocked then s
  else
    let s := ((s.setF F.GAC_PTP_STATUS_LOCK 0).setF F.GAC_PTP_STATUS_CLASS 255).setF F.GAC_STATUS_PTP_LOCK 0
    let s := s.setF F.GAC_ZERO_SEQ_TAI_OK 0
    let s := s.doIf s.phasorValid State.phasorDown
    let s := s.doIf (s.gst = gNominal) (·.enterGac gFree)
    s.gacFlag 6

/-- The device is grandmaster: TAI seconds set by command have taken effect, and PPS_IN and CLK10M_IN are in use (R37). -/
def State.ptpMaster (s : State) : Bool := s.gac.master && s.fb F.GAC_PPS_CTL_PPS_IN_EN && s.fb F.GAC_PPS_CTL_CLK10M_EN

/-- The clockClass that GAC_PTP_STATUS shows while locked (Table GAC-5). -/
def State.ptpClass (s : State) : Nat := if s.ptpMaster then Config.ownClass.toNat else s.gac.gmClass

/-- PTP_LOCK: the servo offset has stayed within 100 ns for 16 seconds (R39). -/
def execPtpLock (s : State) : Res :=
  let o := (s.rd R.GAC_PTP_OFS).toInt
  if s.ptpLocked || decide (o < -100) || decide (100 < o) then .next s
  else
    let s := (s.setF F.GAC_PTP_STATUS_LOCK 1).setF F.GAC_STATUS_PTP_LOCK 1
    let s := s.setF F.GAC_PTP_STATUS_CLASS s.ptpClass
    .next (s.doIf (s.gst = gFree) (·.enterGac gNominal))

/-- SYNC_TIMEOUT: no Sync for three expected intervals (R39). -/
def execSyncTimeout (s : State) : Res := .next s.ptpLost

/-- The time base takes a value and a rate at the current tick (R37, R39). -/
def State.setTai (s : State) (t : Nat) (rate : Int) : State :=
  { s with gac := { s.gac with taiTick := s.gac.now, taiBase := t, rate := rate } }

/-- PPS_IN_EDGE: TAI seconds set by command take effect; otherwise the edge is the servo's phase reference (R37). -/
def execPpsInEdge (s : State) : Res :=
  if !s.fb F.GAC_PPS_CTL_PPS_IN_EN then .next s
  else match s.gac.taiSet with
    | some sec =>
      let s := s.setTai (sec * 10 ^ 9 * 65536) s.gac.rate
      .next { s with gac := { s.gac with taiSet := none, master := true } }
    | none =>
      let r : Nat := s.taiNs % 10 ^ 9
      let o : Int := if r < 500000000 then (r : Int) else (r : Int) - 10 ^ 9
      let (n, s) := s.open_
      let s := (s.setTai s.tai (Config.servoRate n)).wr R.GAC_PTP_OFS (BitVec.ofInt 32 o)
      .next (s.doIf (decide (o < -1000) || decide (1000 < o)) State.ptpLost)

/-- PPS_OUT_PULSE: the output rises at a TAI second boundary for WIDTH microseconds (R39). -/
def execPpsOutPulse (s : State) : Res := .next (s.emit (.pps (s.f F.GAC_PPS_CTL_WIDTH)))

/-! ### Angle 0 (R29, R45, R46) -/

/-- Let `k` ticks pass: the accumulator and the check accumulator advance by the same increment (R27, R158). -/
def Gac.advance (g : Gac) (k : Nat) : Gac :=
  { g with now := g.now + k, acc := BitVec.ofNat 64 (g.acc.toNat + k * g.incr.toNat), chk := BitVec.ofNat 64 (g.chk.toNat + k * g.incr.toNat) }

/-- Run to the next wrap of the angle: the tick on which the angle first reads 0, and the cycle number (R27). -/
def Gac.toZero (g : Gac) : Gac :=
  let k := ceilDiv (2 ^ 64 - g.acc.toNat) (max 1 g.incr.toNat)
  { g.advance k with cycle := g.cycle + 1, passed := g.passed + 1 }

/-- One TBCLK tick, and whether the angle wrapped on it. -/
def Gac.tick (g : Gac) : Gac × Bool :=
  let w := decide (2 ^ 64 ≤ g.acc.toNat + g.incr.toNat)
  ({ g.advance 1 with cycle := if w then g.cycle + 1 else g.cycle, passed := if w then g.passed + 1 else g.passed }, w)

/-- A pending change of cycle number is applied as a step (R45). -/
def State.stepCycle (s : State) : State :=
  match s.gac.step with
  | none => s
  | some d =>
    let s := { s with gac := { s.gac with cycle := s.gac.cycle + BitVec.ofInt 40 d, step := none } }
    (s.wr R.GAC_STEP (satInt 32 d)).gacFlag 3 true

/-- The phase error of the ended cycle is recorded and the acquisition test counted (R33, R34, R41). -/
def State.recordErr (s : State) : State :=
  let followed := if s.gst = gMains then true else if s.gst = gPhasor then false else s.gac.acqMains
  let s := match s.cycleErr followed with
    | some e =>
      let es := (e :: s.gac.errs).take 64
      let s := { s with gac := { s.gac with errs := es } }
      (s.wr R.GAC_PHERR (BitVec.ofInt 32 e)).setF F.GAC_PHERR_RMS_RMS (rms es)
    | none => s
  if s.fb F.GAC_STATUS_ACQ then
    let ok := match s.cycleErr s.gac.acqMains with | some e => decide (e < 23302) && decide (-23302 < e) | none => false
    { s with gac := { s.gac with close := if ok then s.gac.close + 1 else 0 } }
  else s

/-- The latch of angle 0: cycle number, TAI instant of the ideal crossing, and GAC_ZERO_SEQ (R46). -/
def State.latchZero (s : State) : State :=
  let c := s.cycle
  let back := roundInt (s.gac.acc.toNat * 524288 * (10 ^ 12 + s.gac.rate)) ((max 1 s.gac.incr.toNat : Nat) * 10 ^ 13)
  let t := ((s.tai : Int) - back).toNat
  let ns := t / 65536
  let s := (s.wr R.GAC_ZERO_CYC_LO (BitVec.ofNat 32 c)).setF F.GAC_ZERO_CYC_HI_CYC (c / 2 ^ 32)
  let s := (s.wr R.GAC_ZERO_SEC_LO (BitVec.ofNat 32 (ns / 10 ^ 9))).setF F.GAC_ZERO_SEC_HI_SEC (ns / 10 ^ 9 / 2 ^ 32)
  let s := (s.setF F.GAC_ZERO_NS_NS (ns % 10 ^ 9)).setF F.GAC_ZERO_FRAC_FRAC (t % 65536)
  (s.addF F.GAC_ZERO_SEQ_SEQ 1).setB F.GAC_ZERO_SEQ_TAI_OK s.ptpLocked

/-- The phasor counts of an ended cycle (R36). -/
def Gac.endCycle (g : Gac) : Gac :=
  { g with edges := [], phasor := none,
           phasorRun := if g.phasor.isSome then g.phasorRun + 1 else 0,
           phasorMiss := if g.phasor.isSome then 0 else g.phasorMiss + 1 }

/-- HOLDOVER at angle 0: HOLD_LEFT counts down, and at 0 the GAC enters NOMINAL or FREE (Table GAC-4). -/
def State.holdStep (s : State) : State :=
  if s.gst = gHoldover then
    let h := s.f F.GAC_STATUS_HOLD_LEFT
    if h = 0 then s.enterGac (if s.ptpLocked then gNominal else gFree) true else s.setF F.GAC_STATUS_HOLD_LEFT (h - 1)
  else s

/-- The latched instant of angle 0, in 2^-16 ns (R46). -/
def State.zeroTai (s : State) : Nat :=
  ((s.rd R.GAC_ZERO_SEC_LO).toNat + s.f F.GAC_ZERO_SEC_HI_SEC * 2 ^ 32) * 10 ^ 9 * 65536 + s.f F.GAC_ZERO_NS_NS * 65536
    + s.f F.GAC_ZERO_FRAC_FRAC

/-- What angle 0 does to the GAC core once the angle has wrapped. The ideal crossing lies under the increment of the
ended cycle, so the latch uses it before the new frequency is applied. -/
def State.gacAtZero (s : State) : State :=
  let s := s.stepCycle
  let s := s.recordErr
  let s := s.latchZero
  let s := s.holdStep
  let s := s.nextFreq
  let g := s.gac.endCycle
  { s with gac := { g with chk := g.acc, zeros := (⟨g.now, g.cycle, g.acc, g.incr, s.zeroTai, s.f F.GAC_FREQ_FREQ⟩ :: g.zeros).take 128 } }

/-! ### Angle and TAI (R36, R44, R47) -/

/-- The angle counted from an angle 0 at a TAI instant in 2^-16 ns, by R47 under that cycle's frequency. -/
def ZeroMark.angleAt (z : ZeroMark) (t : Int) : Int := (t - z.tai) * z.freq * 16777216 / (65536 * 10 ^ 15)

/-- The TAI instant of angle `a` of the current cycle, in 2^-16 ns (R47). -/
def State.taiOfAngle (s : State) (a : Nat) : Nat := s.zeroTai + roundDiv (a * 10 ^ 15) (s.f F.GAC_FREQ_FREQ * 16777216) * 65536

/-- The angle of a TAI instant (2^-16 ns) in the current cycle, from the latched angle 0 and GAC_FREQ (R47). -/
def State.angleOfTai (s : State) (t : Int) : Int := (t - s.zeroTai) * s.f F.GAC_FREQ_FREQ * 16777216 / (65536 * 10 ^ 15)

/-- The cycle and angle of a TAI instant (ns), from the history of angles 0; an instant later than now is a prediction at
the current frequency (R36, R44, R47). -/
def State.placeAtTai (s : State) (ns : Int) : Int × Nat :=
  match s.gac.zeros.find? (fun z => decide ((z.tai : Int) ≤ ns * 65536)) with
  | some z => let a := z.angleAt (ns * 65536); ((z.cycle.toNat : Int) + a / 16777216, (a % 16777216).toNat)
  | none => (s.cycle, 0)

/-- The GAC angle at a TAI instant (ns). -/
def State.angleAtTai (s : State) (ns : Int) : Nat := (s.placeAtTai ns).2

end Sys2Proof.Machine
end

