-- ==== Sys2Proof/Machine/CalOps.lean ====
section
/-! DEFINITION. The filters of timestamp offsets and link delay, and the measurements that feed them (R151 to R153, R160). -/

namespace Sys2Proof.Machine

def CalFilter.fresh : CalFilter := { n := 0, outl := 0, sum := 0 }
def CalLane.fresh : CalLane :=
  { tx := CalFilter.fresh, rx := CalFilter.fresh, dly := CalFilter.fresh, turn := false, due := false, ctle := 0,
    dfe := List.replicate 8 0, adapted := 0 }
def State.calLane (s : State) (k : Nat) : CalLane := Tbl.get (fun _ => CalLane.fresh) s.cal.lanes k
def State.setCalLane (s : State) (k : Nat) (c : CalLane) : State :=
  { s with cal := { s.cal with lanes := Tbl.set (fun _ => CalLane.fresh) s.cal.lanes k c } }

/-- DATA of a CAL event: lane, core; all ones where it does not apply (Table CUL-14). -/
def State.calFlag (s : State) (bit lane core : Nat) : State := s.raise calEvt bit (lane + dat 1 core)

/-- What one measurement makes of an offset. -/
inductive CalStep where
  | moved (f : CalFilter) (ofs : Int)
  | outlier (f : CalFilter)
  | restart

/-- The filter of R152 on a measurement, in 2^-8 ns: a step limit, and the outliers in a row that restart it. -/
def calFilter (f : CalFilter) (ofs m : Int) (step rowMax : Nat) : CalStep :=
  if f.n < 16 then .moved { n := f.n + 1, outl := 0, sum := f.sum + m } (roundInt (f.sum + m) (f.n + 1))
  else if (step : Int) < m - ofs || m - ofs < -(step : Int) then
    (if rowMax ≤ f.outl + 1 then .restart else .outlier { f with outl := f.outl + 1 })
  else .moved { f with outl := 0 } (ofs + roundInt (m - ofs) 16)

/-- CALIBRATED follows the two offset filters (R152). -/
def State.showCalibrated (s : State) (k : Nat) : State :=
  let c := s.calLane k
  s.setB (F.CAL_TS_STS_CALIBRATED k) (decide (16 ≤ c.tx.n) && decide (16 ≤ c.rx.n))

/-- A transmit or receive measurement of the pad-strobe (R151, R152). -/
def State.calMeasure (s : State) (k : Nat) (tx : Bool) (m : Int) : State :=
  let c := s.calLane k
  let a := if tx then R.CAL_TS_TX_OFS k else R.CAL_TS_RX_OFS k
  let put := fun (f : CalFilter) => if tx then { c with tx := f } else { c with rx := f, turn := false }
  match calFilter (if tx then c.tx else c.rx) (s.rd a).toInt m 2048 8 with
  | .moved f o => ((s.wr a (BitVec.ofInt 32 o)).setCalLane k (put f)).showCalibrated k
  | .outlier f => (s.addF (F.CAL_TS_STS_OUTLIERS k) 1).setCalLane k (put f)
  | .restart => (((s.addF (F.CAL_TS_STS_OUTLIERS k) 1).setCalLane k (put CalFilter.fresh)).showCalibrated k).calFlag 0 k 0xFF

/-- A measurement of the pad-strobe in 2^-8 ns: its reading at the lane's pads, which is an open value, and the fixed
pad-to-ball delay of the pad (R151). -/
def State.padStrobe (s : State) (k : Nat) (tx : Bool) : Int × State :=
  let (v, s) := s.open_
  ((BitVec.ofNat 32 v).toInt + Config.padBall k tx, s)

/-- The first frame received on a lane during a TS_LOOP turn, of whatever kind, gives its receive measurement (R151). -/
def State.calReceive (s : State) (k : Nat) : State :=
  if (s.calLane k).turn then
    let (m, s) := s.padStrobe k false
    s.calMeasure k false m
  else s

/-- A meanLinkDelay measurement, in 2^-8 ns (R153). -/
def State.calDelay (s : State) (k : Nat) (m : Int) : State :=
  let c := s.calLane k
  let a := R.CAL_LINK_DELAY k
  match calFilter c.dly (s.rd a).toInt m (max 1 (s.f (F.CAL_LANE_CTL_STEP_NS k)) * 256) 4 with
  | .moved f o => (s.wr a (BitVec.ofInt 32 o)).setCalLane k { c with dly := f }
  | .outlier f => s.setCalLane k { c with dly := f }
  | .restart => (s.setCalLane k { c with dly := CalFilter.fresh }).calFlag 1 k 0xFF

/-- The filters of a lane restart when it enters UP, and its receiver's adaptation begins (R154, R160). -/
def State.calRestart (s : State) (k : Nat) : State :=
  (s.setCalLane k { s.calLane k with tx := CalFilter.fresh, rx := CalFilter.fresh, dly := CalFilter.fresh, adapted := s.gac.now }).showCalibrated k

/-! ### Timestamps (R38, R152) -/

/-- The offset of a lane's egress timestamps, and that of its ingress timestamps, in 2^-16 ns. -/
def State.txOfs (s : State) (k : Nat) : Int := (s.rd (R.CAL_TS_TX_OFS k)).toInt * 256
def State.rxOfs (s : State) (k : Nat) : Int := (s.rd (R.CAL_TS_RX_OFS k)).toInt * 256

/-- The TAI instant (2^-16 ns) of an event now at the egress balls of a lane, and that of one that its ingress timed at a
tick. -/
def State.txStampNow (s : State) (k : Nat) : Nat := ((s.tai : Int) + s.txOfs k).toNat
def State.rxStampAt (s : State) (k tick : Nat) : Nat := ((s.gac.taiAt tick : Int) - s.rxOfs k).toNat

/-- The residence of a frame that arrived on lane `i` at a tick and leaves lane `e` now, in 2^-16 ns (R152). -/
def State.residence (s : State) (i tick e : Nat) : Int :=
  roundInt (((s.gac.now : Int) - tick) * 524288) 10 + s.txOfs e + s.rxOfs i

/-! ### PTP messages (R37, R153): the layout of IEEE 1588-2019 is PRESUMED, log entry 53 -/

/-- A PTP timestamp: whole seconds and nanoseconds of an instant in 2^-16 ns. -/
def ptpTime (t : Nat) : List Byte := toBe 6 (t / 65536 / 10 ^ 9) ++ toBe 4 (t / 65536 % 10 ^ 9)

/-- The port identity of a lane's port. -/
def ptpIdentity (k : Nat) : List Byte := toBe 8 Config.clockId.toNat ++ toBe 2 (k + 1)

/-- A frame that carries a PTP message of the device: addresses, EtherType, header and body. Peer-delay messages go to the
reserved group. -/
def ptpFrame (kind : Nat) (twoStep : Bool) (dom k seq : Nat) (corr : Int) (body : List Byte) : List Byte :=
  let peer := kind = 2 || kind = 3 || kind = 0xA
  (if peer then toBe 6 0x0180C200000E else toBe 6 0x011B19000000) ++ toBe 6 (Config.portMac k).toNat ++ toBe 2 0x88F7
    ++ toBe 1 kind ++ [0x12] ++ toBe 2 (34 + body.length) ++ toBe 1 dom ++ [0] ++ [if twoStep then 2 else 0, 8]
    ++ toBe 8 (BitVec.ofInt 64 corr).toNat ++ toBe 4 0 ++ ptpIdentity k ++ toBe 2 seq
    ++ [if kind = 0 then 0 else if kind = 8 then 2 else 5, if kind = 0 || kind = 8 || kind = 0xB then 0 else 0x7F] ++ body

def State.ptpDomain (s : State) : Nat := s.f F.GAC_PTP_STATUS_DOMAIN

/-- A message of the device as it is queued, before its egress timestamp. -/
def State.ptpOwn (s : State) (kind : Nat) (twoStep : Bool) (k seq : Nat) (corr : Int) (body : List Byte) : List Byte :=
  ptpFrame kind twoStep s.ptpDomain k seq corr body

/-- The next sequence number of the device's own messages. -/
def State.nextPtpSeq (s : State) : State := { s with gac := { s.gac with ptpSeq := (s.gac.ptpSeq + 1) % 65536 } }

/-- A Pdelay_Req of a lane's port. -/
def State.pdelayReq (s : State) (k : Nat) : List Byte := s.ptpOwn 2 false k s.gac.ptpSeq 0 (toBe 20 0)

/-- A message as it leaves at an instant (2^-16 ns): a one-step Sync takes the timestamp, and a one-step Pdelay_Resp the time
since the request, which stands in it until then. -/
def ptpStamp (t : Nat) (b : List Byte) : List Byte :=
  let o := 14
  let kind := (byteAt b o).toNat % 16
  if bitAt (byteAt b (o + 6)).toNat 1 then b
  else if kind = 0 then addCorrection (b.take (o + 34) ++ ptpTime t ++ b.drop (o + 44)) o (t % 65536 : Nat)
  else if kind = 3 then
    let t2 : Nat := (beAt b (o + 34) 6 * 10 ^ 9 + beAt b (o + 40) 4) * 65536
    addCorrection (b.take (o + 34) ++ toBe 10 0 ++ b.drop (o + 44)) o ((t : Int) - t2)
  else b

/-- What follows a two-step message that has left at an instant: Follow_Up, or Pdelay_Resp_Follow_Up to the same port. -/
def State.ptpFollow (s : State) (k t : Nat) (b : List Byte) : Option (List Byte) :=
  let o := 14
  let kind := (byteAt b o).toNat % 16
  let seq := beAt b (o + 30) 2
  let frac : Int := ((t % 65536 : Nat) : Int)
  if !bitAt (byteAt b (o + 6)).toNat 1 then none
  else if kind = 0 then some (s.ptpOwn 8 false k seq frac (ptpTime t))
  else if kind = 3 then some (s.ptpOwn 0xA false k seq frac (ptpTime t ++ sliceB b (o + 44) 10))
  else none

end Sys2Proof.Machine
end

