-- ==== Sys2Proof/Machine/LaneOps.lean ====
section
/-! DEFINITION. Lanes: states and the link-down rule, MAC merge, budgets, and the loss of an extender (R87 to R89, R123
to R140). -/

namespace Sys2Proof.Machine

/-! ### Dike budgets (R89) -/

/-- Bytes of a copy on its lane, destination address to FCS. -/
def FCopy.len (c : FCopy) : Nat := c.bytes.length + 4

/-- Subtract L + 20 from a budget counter. -/
def State.charge (s : State) (left : Nat) (len : Nat) : State := s.wr left (s.rd left - BitVec.ofNat 32 (len + 20))

/-- What is left of a port's budget in a direction, as a signed number; both read as used up where SGMII has resolved
10 or 100 Mbit/s (R128). -/
def State.budgetLeft (s : State) (p : Nat) (tx : Bool) : Int :=
  let k := s.portLane p
  if noPort ≤ p then 1
  else if s.laneMode k = 1 && s.f (F.LNE_LANE_STS_SPEED k) ≠ 2 then 0
  else (s.rd (if tx then R.SLU_TX_LEFT p else R.SLU_RX_LEFT p)).toInt

/-- The first demotion in a cycle on any port sets DEMOTE (R89). -/
def State.demoteEvt (s : State) (p : Nat) : State :=
  if s.fp.demoted then s
  else ({ s with fp := { s.fp with demoted := true } }).raise sluEvt 1 (0xFF + dat 2 p)

/-! ### MAC merge (R87, R88) -/

def State.mmActive (s : State) (k : Nat) : Bool := s.fb (F.SLU_MM_STS_ACTIVE k)

/-- A port of the lane holds a non-zero egress Dike budget: the direct port and every context bound to the lane (R95). -/
def State.laneHasDike (s : State) (k : Nat) : Bool :=
  (k :: s.ctxsOf k [ctxAssigned, ctxHeld]).any (fun p => s.rd (R.SLU_TX_BUDGET p) ≠ 0)

def State.mmFail (s : State) (k : Nat) : State :=
  if s.laneHasDike k then s.raise sluEvt 0 (k + dat 2 0xFFFF) else s

/-- Preemption stops on a lane. -/
def State.mmStop (s : State) (k : Nat) : State :=
  let was := s.mmActive k
  let s := (s.setF (F.SLU_MM_STS_ACTIVE k) 0).setF (F.SLU_MM_STS_VSTATE k) 0
  let s := s.setLane k { s.lane k with verifies := 0, partner := false }
  if was then s.mmFail k else s

/-- Preemption becomes active on a lane. -/
def State.mmStart (s : State) (k : Nat) : State :=
  (s.setF (F.SLU_MM_STS_ACTIVE k) 1).setLane k { s.lane k with starved := false }

/-- Kinds of frames the device itself sends on a lane. -/
def kVerify : Nat := 1
def kLldp : Nat := 2
def kMka : Nat := 3
def kPtp : Nat := 4
def kWake : Nat := 5
def kFault : Nat := 9

/-- Preemption without verification: active as soon as the link partner advertises it (R88). -/
def State.mmUnverified (s : State) (k : Nat) : State :=
  if s.laneUp k && (s.lane k).partner && s.fb (F.SLU_MM_CTL_EN k) && s.fb (F.SLU_MM_CTL_VERIFY_DIS k) && !s.mmActive k then s.mmStart k
  else s

/-- The link has come up: verification starts, or is skipped (R88). -/
def State.mmLinkUp (s : State) (k : Nat) : State :=
  if !s.fb (F.SLU_MM_CTL_EN k) then s
  else if s.fb (F.SLU_MM_CTL_VERIFY_DIS k) then s
  else
    let s := (s.emit (.control k kVerify [])).setF (F.SLU_MM_STS_VSTATE k) 2
    s.setLane k { s.lane k with verifies := 1 }

/-- MM_VERIFY_TIMER: the next of up to three verify frames, or the failure of the verification (R88). -/
def execMmVerifyTimer (lane : Fin 32) (s : State) : Res :=
  let k := lane.val
  if s.f (F.SLU_MM_STS_VSTATE k) ≠ 2 then .next s
  else if (s.lane k).verifies < 3 then
    .next ((s.emit (.control k kVerify [])).setLane k { s.lane k with verifies := (s.lane k).verifies + 1 })
  else .next ((s.setF (F.SLU_MM_STS_VSTATE k) 4).mmFail k)

/-- MM_VERIFY_RX: a verify response. -/
def execMmVerifyRx (lane : Fin 32) (s : State) : Res :=
  let k := lane.val
  if s.f (F.SLU_MM_STS_VSTATE k) ≠ 2 then .next s
  else .next ((s.setF (F.SLU_MM_STS_VSTATE k) 3).mmStart k)

/-! ### Extenders (R138 to R140) -/

def Extender.none_ : Extender :=
  { st := 0, backoff := 0, session := 0, nonce := [], eph := [], offer := [], accept := [], confirm := [], sends := 0, ident := [],
    taken := [], reused := [], hold := 0, km := [], cakSlot := none, cak := [], ckn := [], rxSak := false, txSak := false }
def State.xt (s : State) (k : Nat) : Extender := Tbl.get (fun _ => Extender.none_) s.ext k
def State.setXt (s : State) (k : Nat) (x : Extender) : State := { s with ext := Tbl.set (fun _ => Extender.none_) s.ext k x }

def xNone : Nat := 0
def xAnnounced : Nat := 1
def xEnrolling : Nat := 2
def xSecuring : Nat := 3
def xActive : Nat := 4
def xLost : Nat := 5

/-- Set an EXT_EVT flag with its lane and context. -/
def State.extFlag (s : State) (bit lane ctx : Nat) : State := s.raise extEvt bit (lane + dat 2 ctx)

/-- EXT_HOLD as it acts (R140). -/
def State.extHold (s : State) : Nat := max 1 (min 600 (s.f F.EXT_HOLD_HOLD))

/-- What is wiped when a handshake ends (R135). -/
def Extender.wiped (x : Extender) : Extender :=
  { x with eph := [], nonce := [], session := 0, offer := [], accept := [], confirm := [], sends := 0, km := [], taken := [], reused := [] }

/-- The extender of a lane is lost: its contexts go to HELD and the hold timer starts (Table LNE-11). -/
def State.extLoss (s : State) (k : Nat) : State :=
  let x := s.xt k
  let cs := s.ctxsOf k [ctxAssigned, ctxHeld]
  let s := s.forEach cs (fun s p => s.setCtx p { s.ctx p with st := ctxHeld })
  let s := s.setXt k { x.wiped with st := xLost, hold := s.gac.now + s.extHold * 1250000000, rxSak := false, txSak := false }
  let s := s.extFlag 2 k 0xFFFF
  s.forEach (cs.filter (fun p => s.rd (R.SLU_RX_BUDGET p) ≠ 0 || s.rd (R.SLU_TX_BUDGET p) ≠ 0)) (fun s p => s.extFlag 3 k p)

/-- Loss of an ACTIVE extender. -/
def State.extLossIfActive (s : State) (k : Nat) : State := if (s.xt k).st = xActive then s.extLoss k else s

/-- EXT_LANE_STS as read (Table LNE-17). -/
def State.extLaneSts (s : State) (k : Nat) : Word :=
  let x := s.xt k
  BitVec.ofNat 32 (x.st * 2 ^ 29 + (s.ctxsOf k [ctxAssigned, ctxHeld]).length % 256 * 2 ^ 16 + min 1023 (ceilDiv (x.hold - s.gac.now) 1250000000))

/-- EXT_PORT_ID as read (Table LNE-16). -/
def State.extPortId (s : State) (p : Nat) : Word :=
  let c := s.ctx p
  BitVec.ofNat 32 (c.st * 2 ^ 30 + c.lane % 32 * 2 ^ 24 + c.ecid % 4096)

/-! ### The link-down rule (R131) -/

/-- One copy of a lane that leaves UP: a copy in its queue is counted in LINK_FLUSH, one under transmission keeps its
charge and its PN. -/
def State.flushCopy (s : State) (c : FCopy) : State :=
  match c.phase with
  | .queued => s.pc c.port 0x610
  | _ => if c.cls = 7 then s.charge (R.SLU_TX_LEFT c.port) c.len else s

def State.linkDownRule (s : State) (k : Nat) : State :=
  let cs := s.laneCopies k
  let s := s.forEach cs (fun s c => s.flushCopy c.2)
  let s := s.forEach (cs.map (·.1)).dedup (fun s id => s.removeCopies id (fun c => s.portLane c.port = k))
  s.mmStop k

/-! ### Lane states (R130) -/

def lOff : Nat := 0
def lDisabled : Nat := 1
def lDown : Nat := 2
def lAlign : Nat := 3
def lUp : Nat := 4

def State.lneFlag (s : State) (bit lane : Nat) : State := s.raise lneEvt bit lane

/-- The status bits that qualification gave are gone. -/
def State.unqualify (s : State) (k : Nat) : State :=
  ((s.setF (F.LNE_LANE_STS_LOCK k) 0).setF (F.LNE_LANE_STS_FEC_ALIGN k) 0)

/-- What a lane's receiver has counted is shown (R126, Table LNE-15): FEC where the lane runs one. -/
def State.pcsCount (s : State) (k : Nat) (x : PcsCount) : State :=
  let s := s.doIf (fecOf (s.f (F.LNE_LANE_CTL_FEC k)) ≠ 0 && decide (s.laneMode k = 4)) (fun s =>
    (s.addF (F.LNE_LANE_FEC_CORR_COUNT k) x.corr).addF (F.LNE_LANE_FEC_UNCORR_COUNT k) x.uncorr)
  s.addF (F.LNE_LANE_ERR_BLOCK_COUNT k) x.blocks

/-- A lane leaves UP: the link-down rule, and the loss of an ACTIVE extender (Tables LNE-4 and LNE-11). -/
def State.leaveUp (s : State) (k : Nat) : State :=
  if s.laneUp k then (s.linkDownRule k).extLossIfActive k else s

/-- A lane enters a state. -/
def State.laneTo (s : State) (k st : Nat) : State :=
  ((s.leaveUp k).unqualify k).setF (F.LNE_LANE_STS_STATE k) st

/-- A lane that fails in UP goes DOWN (Table LNE-4). -/
def State.laneFail (s : State) (k : Nat) : State :=
  if s.laneUp k then
    ((s.laneTo k lDown).addF (F.LNE_LANE_LINK_DOWNS_COUNT k) 1).lneFlag 1 k
  else s

/-- A lane gives up in ALIGN (Table LNE-4). -/
def State.alignFail (s : State) (k : Nat) : State :=
  let woken := (s.lane k).woken
  let s := (s.laneTo k lDown).setLane k { s.lane k with woken := false }
  if woken then s.addF (F.LNE_LANE_WAKE_FALSE_COUNT k) 1 else s

/-- A lane goes DOWN from whatever it is in, where it is powered and enabled (R125). -/
def State.laneDrop (s : State) (k : Nat) : State :=
  if s.laneUp k then s.laneFail k else if s.laneSt k = lAlign then s.alignFail k else s

/-- The wake block: its sync header, block type and control codes C0 to C7 (Table LNE-12). -/
def wakeBlock : List Nat := [2, 0x1E, 0x2D, 0x33, 0x4B, 0x55, 0x66, 0x78, 0x2D, 0x33]

/-- The wake pattern: 64 wake blocks in succession, sent unscrambled (R142). -/
def wakePattern : List Nat := (List.replicate 64 wakeBlock).flatten

/-- The lane's enable has changed (Table LNE-4); a lane whose Tract is not ON is OFF, and follows it when the Tract is ON. -/
def State.laneEnable (s : State) (k : Nat) : State :=
  let en := s.fb (F.LNE_LANE_CTL_EN k)
  let st := s.laneSt k
  if st = lOff || !s.domOn (dTract0 + k / 4) then s
  else if st = lDisabled && en then
    let s := if s.fastLane k then s.emit (.control k kWake wakePattern) else s
    s.setF (F.LNE_LANE_STS_STATE k) lDown
  else if st ≠ lDisabled && !en then s.laneTo k lDisabled
  else s

/-- The Tract domain of a lane reaches ON, or leaves it (Table LNE-4). -/
def State.lanePower (s : State) (k : Nat) (on : Bool) : State :=
  if on then
    if s.laneSt k = lOff || s.laneSt k = lDisabled then s.setF (F.LNE_LANE_STS_STATE k) (if s.fb (F.LNE_LANE_CTL_EN k) then lDown else lDisabled) else s
  else if s.laneSt k = lOff then s else s.laneTo k lOff

/-! ### The twin lanes TL0 and TL1 (R277) -/

def State.tl (s : State) (j : Nat) : Nat := s.twin.tl.getD j lOff

/-- The last twin lane has left UP: the session is no longer keyed (R277, Table TWN-5). -/
def State.twinLinkDown (s : State) : State :=
  let was := s.fb F.TWN_LINK_STS_KEYED
  let s := (s.setF F.TWN_LINK_STS_KEYED 0).wr R.TWN_OFS 0
  let none_ : TwinHs := { phase := 0, session := 0, eph := [], offer := [], accept := [], confirm := [], sends := 0, peerPub := [], km := [] }
  let s := { s with twin := { s.twin with hs := none_, cak := [], rxSak := false, txSak := false } }
  s.doIf was (fun s => s.raise twnEvt 1 (leNat (s.twin.peerDigest.take 4)))

/-- A twin lane enters a state; TWN_LINK_STS shows whether it is UP. -/
def State.setTl (s : State) (j st : Nat) : State :=
  let was := s.tl 0 = lUp || s.tl 1 = lUp
  let s := { s with twin := { s.twin with tl := s.twin.tl.set j st } }.setB (if j = 0 then F.TWN_LINK_STS_TL0 else F.TWN_LINK_STS_TL1) (st = lUp)
  s.doIf (was && !(s.tl 0 = lUp || s.tl 1 = lUp)) (·.twinLinkDown)

/-- The twin lanes follow TWN_CTL.EN while their domain is ON, as LNE_LANE_CTL.EN moves a lane (Tables LNE-4 and TWN-8). -/
def State.twinLanes (s : State) : State :=
  if !s.domOn dTwin then s
  else s.forEach [0, 1] (fun s j =>
    if s.fb F.TWN_CTL_EN then (if s.tl j = lOff || s.tl j = lDisabled then s.setTl j lDown else s)
    else if s.tl j = lDisabled then s else s.setTl j lDisabled)

/-- Lanes 32 and 33 stand for TL0 and TL1. -/
def twinLane (lane : Fin 34) : Option Nat := if lane.val < 32 then none else some (lane.val - 32)

/-! ### Rows of the lanes -/

/-- Signal at a lane: a DOWN lane whose reference clock is good starts to align (R125, Table LNE-4). -/
def State.signalDetect (s : State) (k : Nat) : State :=
  if s.laneSt k = lOff then s
  else
    let s := s.setF (F.LNE_LANE_STS_SIG k) 1
    if s.laneSt k = lDown && !(s.lane k).noClock then s.setF (F.LNE_LANE_STS_STATE k) lAlign else s

/-- The wake detector of a lane finds signal, or the wake pattern at the symbol rate of its mode (R141). A lane that is up
and receives the pattern counts its 64 blocks as errored, and no hi_ber comes of them (R142). -/
def State.laneWake (s : State) (k : Nat) (pattern : Bool) : State :=
  if s.laneUp k then s.doIf (pattern && s.fastLane k) (·.addF (F.LNE_LANE_ERR_BLOCK_COUNT k) 64)
  else
  let on := if pattern then s.fb (F.LNE_LANE_CTL_WAKE_PAT k) && s.fastLane k else s.fb (F.LNE_LANE_CTL_WAKE_SD k)
  if on && (s.domSt (dTract0 + k / 4) = dsOff || s.domSt (dTract0 + k / 4) = dsRet) then
    ((s.setLane k { s.lane k with woken := true }).lneFlag 3 k).domWake (dTract0 + k / 4)
  else s

/-- SIGNAL_DETECT; signal on a twin lane whose domain is not ON wakes it (Table PWR-3). -/
def execSignalDetect (lane : Fin 34) (s : State) : Res :=
  match twinLane lane with
  | none => .next (s.signalDetect lane.val)
  | some j =>
    if s.tl j = lDown && bitAt (s.f F.LNE_REFCLK_STS_GOOD) 0 then .next (s.setTl j lAlign)
    else if s.tl j = lOff then .next (s.domWake dTwin) else .next s

/-- SIGNAL_LOSS: signal lost, in ALIGN or UP with the transition of Table LNE-4. -/
def execSignalLoss (lane : Fin 34) (s : State) : Res :=
  let k := lane.val
  match twinLane lane with
  | some j => if s.tl j = lAlign || s.tl j = lUp then .next (s.setTl j lDown) else .next s
  | none =>
    if s.laneUp k then .next ((s.laneFail k).setF (F.LNE_LANE_STS_SIG k) 0)
    else if s.laneSt k = lAlign then .next ((s.alignFail k).setF (F.LNE_LANE_STS_SIG k) 0)
    else .next (s.setF (F.LNE_LANE_STS_SIG k) 0)

/-- LINK_FAULT: loss of lock, hi_ber, a received fault or an auto-negotiation restart in UP. -/
def execLinkFault (lane : Fin 34) (cause : LinkCause) (s : State) : Res :=
  let k := lane.val
  match twinLane lane with
  | some j => if s.tl j = lUp then .next (s.setTl j lDown) else .next s
  | none =>
    if !s.laneUp k then .next s
    else
      let s := s.laneFail k
      match cause with
      | .lock => .next s
      | .hiBer => .next (s.setF (F.LNE_LANE_STS_HI_BER k) 1)
      | .localFault => .next (s.setF (F.LNE_LANE_STS_LF k) 1)
      | .remoteFault => .next (s.setF (F.LNE_LANE_STS_RF k) 1)
      | .anRestart => .next s

/-- ALIGN_TIMEOUT: not qualified within 500 ms. -/
def execAlignTimeout (lane : Fin 34) (s : State) : Res :=
  match twinLane lane with
  | some j => if s.tl j = lAlign then .next (s.setTl j lDown) else .next s
  | none => if s.laneSt lane.val = lAlign then .next (s.alignFail lane.val) else .next s

/-- What a lane that comes up is and does: qualified, LINK_UP, MAC merge verification and LLDP; a lane that a drain
restarted takes its port's new settings; under HALT it joins the Remote Fault state (R88, R272, R415, Table LNE-4). -/
def State.laneIsUp (s : State) (k speed : Nat) : State :=
  let an := s.laneMode k = 1 && s.fb (F.LNE_LANE_CTL_AN k)
  let s := (s.setF (F.LNE_LANE_STS_STATE k) lUp).setF (F.LNE_LANE_STS_LOCK k) 1
  let s := s.setB (F.LNE_LANE_STS_FEC_ALIGN k) (fecOf (s.f (F.LNE_LANE_CTL_FEC k)) ≠ 0)
  let s := ((s.setF (F.LNE_LANE_STS_HI_BER k) 0).setF (F.LNE_LANE_STS_LF k) 0).setF (F.LNE_LANE_STS_RF k) 0
  let s := s.setF (F.LNE_LANE_STS_SPEED k) (if an then speed else 2)
  let s := (s.setLane k { s.lane k with woken := false }).lneFlag 0 k
  let s := { s with cfg := { s.cfg with waitUp := s.cfg.waitUp.filter (· ≠ k) } }
  let s := s.mmLinkUp k
  let s := s.emit (.control k kLldp [b2n (s.fb (F.SLU_MM_CTL_EN k)), b2n (s.mmActive k), 0])
  s.doIf (decide (4 ≤ s.level) && s.fastLane k) (fun s => s.emit (.control k kFault []))

/-- The lanes of a reference clock input (Table LNE-1). -/
def clockLanes (n : Nat) : List Nat := rangeFrom (8 * n) 8

/-- REFCLK_LOSS: the lanes of the input go DOWN and stay there (R125). -/
def execRefclkLoss (n : Fin 4) (s : State) : Res :=
  let s := s.setF F.LNE_REFCLK_STS_GOOD (s.f F.LNE_REFCLK_STS_GOOD &&& (15 - 2 ^ n.val))
  let s := s.doIf (n.val = 0) (fun s => s.forEach [0, 1] (fun s j => if s.tl j = lAlign || s.tl j = lUp then s.setTl j lDown else s))
  let s := s.forEach (clockLanes n) (fun s k => (s.laneDrop k).setLane k { (s.laneDrop k).lane k with noClock := true })
  .next (s.forEach (clockLanes n) (fun s k => s.lneFlag 2 k))

/-- REFCLK_RESTORED: the input has been good for 1 ms. -/
def execRefclkRestored (n : Fin 4) (s : State) : Res :=
  let s := s.setF F.LNE_REFCLK_STS_GOOD (s.f F.LNE_REFCLK_STS_GOOD ||| 2 ^ n.val)
  .next (s.forEach (clockLanes n) (fun s k => s.setLane k { s.lane k with noClock := false }))

/-- EXT_HOLD_EXPIRE: the hold timer of a lost extender ends: what contexts it has in HELD are quarantined (Table LNE-11).
A timer that does not run shows a hold of 0. -/
def execExtHoldExpire (lane : Fin 32) (s : State) : Res :=
  let k := lane.val
  let x := s.xt k
  let held := (s.ctxsOf k [ctxHeld]).filter (fun p => !decide (p ∈ x.taken))
  if x.hold = 0 || !(x.st = xLost || x.st = xAnnounced || x.st = xEnrolling) then .next s
  else
    let s := s.forEach held (fun s p => s.setCtx p { s.ctx p with st := ctxQuarantined })
    let s := s.extFlag 4 k 0xFFFF
    .next (s.setXt k { s.xt k with hold := 0, st := if x.st = xLost then xNone else x.st, reused := [] })

/-- MKA_PEER_TIMEOUT: no live MKA peer on the lane (Table LNE-11). -/
def execMkaPeerTimeout (lane : Fin 32) (s : State) : Res :=
  let x := s.xt lane.val
  if x.st = xActive || x.st = xSecuring then .next (s.extLoss lane.val) else .next s

/-- LLDP_TTL_EXPIRE: the TTL of an ACTIVE extender's LLDP runs out (Table LNE-11). -/
def execLldpTtlExpire (lane : Fin 32) (s : State) : Res := .next (s.extLossIfActive lane.val)

/-- LLDP_TX_INTERVAL: an UP lane sends its LLDPDU with the preemption capability (R88). -/
def execLldpTxInterval (lane : Fin 32) (s : State) : Res :=
  let k := lane.val
  if s.laneUp k then .next (s.emit (.control k kLldp [b2n (s.fb (F.SLU_MM_CTL_EN k)), b2n (s.mmActive k), 0])) else .next s

/-- LLDP_RX: the partner's preemption capability, and the Port Extension TLV that announces an extender (R88, R134). -/
def execLldpRx (lane : Fin 32) (preempt portExt : Bool) (s : State) : Res :=
  let k := lane.val
  if !s.laneUp k then .next s
  else
    let s := s.calReceive k
    let s := s.setLane k { s.lane k with partner := preempt }
    let s := s.mmUnverified k
    let x := s.xt k
    if portExt && s.isExt k then
      if x.st = xNone then .next (s.setXt k { x with st := xAnnounced, backoff := 0 })
      else if x.st = xLost then .next (s.setXt k { x with st := xAnnounced })
      else .next s
    else .next s

end Sys2Proof.Machine
end

