-- ==== Sys2Proof/Machine/SluOps.lean ====
section
/-! DEFINITION. Sluice schedules, gates and egress: the choice of the next transmission and the protection of a copy (R77
to R92, R98, R104, R108 to R110, R113). -/

namespace Sys2Proof.Machine

/-! ### Schedules and gates (R78 to R82) -/

def dirKey (p : Nat) (tx : Bool) : Nat := 2 * p + b2n tx
def State.sched (s : State) (p : Nat) (tx : Bool) : Sched := Tbl.get (fun _ => []) s.slu.act (dirKey p tx)
def sluCfg (p : Nat) (tx : Bool) : Nat := if tx then R.SLU_TX_CFG p else R.SLU_RX_CFG p
def sluState (p : Nat) (tx : Bool) : Nat := if tx then R.SLU_TX_STATE p else R.SLU_RX_STATE p
def State.nent (s : State) (p : Nat) (tx : Bool) : Nat := min 64 (bitsOf (s.rd (sluCfg p tx)).toNat 0 7)

def entStart (e : Word × Word) : Nat := bitsOf e.1.toNat 0 24
def entGate (e : Word × Word) : Nat := bitsOf e.1.toNat 24 8
def entClearing (e : Word × Word) : Bool := bitAt e.2.toNat 1
def entGuard (e : Word × Word) : Bool := bitAt e.2.toNat 0

/-- The gates an entry gives after R81 and R82. -/
def State.gatesOf (s : State) (p : Nat) (tx : Bool) (e : Word × Word) : Nat :=
  let g := entGate e
  let g := if tx && entClearing e then g / 128 * 128 else g
  if bitAt (s.rd (sluCfg p tx)).toNat 31 then g ||| 128 else g

/-- Entry `n` of a schedule. -/
def State.entAt (s : State) (p : Nat) (tx : Bool) (n : Nat) : Word × Word := (s.sched p tx).getD n (0, 0)

/-- Entry `n` takes effect: the state register shows it (Table SLU-12). -/
def State.enterEntry (s : State) (p : Nat) (tx : Bool) (n : Nat) : State :=
  if s.nent p tx = 0 then s.wr (sluState p tx) 0xFF000000
  else
    let e := s.entAt p tx n
    s.wr (sluState p tx) (BitVec.ofNat 32 (s.gatesOf p tx e * 2 ^ 24 + n * 2 ^ 16 + b2n (entClearing e)))

/-- The gates in force on a port and direction. -/
def State.gates (s : State) (p : Nat) (tx : Bool) : Nat := bitsOf (s.rd (sluState p tx)).toNat 24 8
def State.entryNow (s : State) (p : Nat) (tx : Bool) : Nat := bitsOf (s.rd (sluState p tx)).toNat 16 6
/-- A Clearing is in force on a lane (R145). -/
def State.clearing (s : State) (k : Nat) : Bool := bitAt (s.rd (sluState k true)).toNat 0

/-- The egress gate of a class on a port; a Clearing of an extender lane holds classes 0 to 6 of all its ports (R145). -/
def State.txGate (s : State) (p c : Nat) : Bool :=
  bitAt (s.gates p true) c && (c = 7 || !(s.isExt (s.portLane p) && s.clearing (s.portLane p)))

/-! ### The fit test (R85, R88, R147) -/

/-- The angle a frame of `len` bytes takes on a lane, with its margin. -/
def State.needAc (s : State) (k len : Nat) : Nat :=
  ceilDiv ((len + 20) * s.byteTime k * s.f F.GAC_FREQ_FREQ * 16777216) (10 ^ 18) + 16

/-- The next entry of a schedule and the angle at which it starts; entry 0 follows the last at the end of the cycle. -/
def State.nextEnt (s : State) (p : Nat) : (Word × Word) × Nat :=
  let n := s.entryNow p true + 1
  if n < s.nent p true then (s.entAt p true n, entStart (s.entAt p true n)) else (s.entAt p true 0, 2 ^ 24)

/-- Class `c` closes at the next entry of port `p`'s schedule, under GUARD, before a frame of `len` bytes could end. -/
def State.guardStops (s : State) (p c k len : Nat) : Bool :=
  if s.nent p true = 0 then false
  else
    let (e, start) := s.nextEnt p
    entGuard (s.entAt p true (s.entryNow p true)) && !bitAt (s.gatesOf p true e) c && decide (start < s.angle + s.needAc k len)

/-- The entries still to come in this cycle and entry 0 of the next, with their starts. -/
def State.entsAhead (s : State) (p : Nat) : List ((Word × Word) × Nat) :=
  let n := s.nent p true
  (rangeFrom (s.entryNow p true + 1) (n - s.entryNow p true - 1)).map (fun i => (s.entAt p true i, entStart (s.entAt p true i)))
    ++ (List.range n).map (fun i => (s.entAt p true i, 2 ^ 24 + entStart (s.entAt p true i)))

/-- Without preemption a frame of classes 0 to 6 is sent only while class 7 of its port is closed and if it ends before
class 7 next opens (R88). -/
def State.unpreemptedOk (s : State) (p k len : Nat) : Bool :=
  !s.txGate p 7 &&
    (match (s.entsAhead p).find? (fun x => bitAt (s.gatesOf p true x.1) 7) with
     | some x => decide (s.angle + s.needAc k len ≤ x.2)
     | none => true)

/-- The Clearing that comes next on an extender lane closes classes 0 to 6 of all its ports (R145, R147). -/
def State.clearingStops (s : State) (c k len : Nat) : Bool :=
  s.isExt k && entClearing (s.nextEnt k).1 && s.guardStops k c k len

/-- A frame of class `c` of port `p` may start on lane `k` (R84, R85, R88, R147). -/
def State.mayStart (s : State) (p c k len : Nat) : Bool :=
  s.txGate p c && !s.guardStops p c k len && !s.clearingStops c k len && (s.mmActive k || s.unpreemptedOk p k len)

/-! ### Cipher jobs (R104) -/

/-- Cores in service (FPX_CORE_STS). -/
def State.coresIn (s : State) : List Nat := (List.range 12).filter (fun c => bitAt (s.f F.FPX_CORE_STS_INSVC) c)

/-- The blocks queued on a core, which serves one per tick. -/
def State.coreLoad (s : State) (c : Nat) : Nat := (s.fp.cores.getD c (0, 0)).2 - s.gac.now

/-- The cores that take new jobs: in service and not under test. -/
def State.coresFree (s : State) : List Nat := s.coresIn.filter (fun c => !s.cal.testing.any (fun t => t.1 = c))

/-- A job of `n` blocks starts: it goes wholly to the core with the fewest blocks queued, and the blocks of Dike jobs are
served before all others. -/
def State.gcmJob (s : State) (dike : Bool) (n : Nat) : Nat × State :=
  let best := s.coresFree.foldl (fun a c => match a with | none => some c | some d => if s.coreLoad c < s.coreLoad d then some c else some d) none
  match best with
  | none => (0, s)
  | some c =>
    let q := s.fp.cores.getD c (0, 0)
    let q := (if dike then max q.1 s.gac.now + n else q.1, max q.2 s.gac.now + n)
    (c, { s with fp := { s.fp with cores := s.fp.cores.set c q } })

/-- The blocks of a job: the counter blocks of its confidential payload and the tag mask. -/
def gcmBlocks (confidential : Nat) : Nat := ceilDiv confidential 16 + 1

/-! ### Copies as sent (R62, R69, R109, R133) -/

/-- The redundancy of a port as it acts: 1 PRP, 2 HSR, 0 none. -/
def redundOf (ctl : Word) : Nat := let v := bitsOf ctl.toNat 12 2; if v = 3 then 0 else v

/-- The correction of a Sync or Follow_Up copy (R479, R38): residence time, link delay and asymmetry, in 2^-16 ns. -/
def State.ptpCorr (s : State) (f : Frame) (c : FCopy) : Int :=
  let ofs := fun (a : Nat) => (s.rd a).toInt * 256
  s.residence f.lane f.tick (s.portLane c.port) + ofs (R.CAL_LINK_DELAY f.lane) + ofs (R.CAL_DELAY_ASYM f.lane)

/-- The copy of a PTP message with its correctionField updated: a one-step Sync takes the correction itself, a two-step
Sync leaves it to its Follow_Up (R479). -/
def State.ptpEdit (s : State) (f : Frame) (c : FCopy) (b : List Byte) : State × List Byte :=
  match ptpAt b with
  | none => (s, b)
  | some o =>
    let kind := (byteAt b o).toNat % 16
    let twoStep := bitAt (byteAt b (o + 6)).toNat 1
    let src := sliceB b (o + 20) 10
    let seq := beAt b (o + 30) 2
    let dom := (byteAt b (o + 4)).toNat
    let mine := fun (x : SyncCorr) => decide (x.src = src) && x.seq = seq && x.domain = dom && x.port = c.port
    if kind = 0 && !twoStep then (s, addCorrection b o (s.ptpCorr f c))
    else if kind = 0 then
      let rest := s.fp.syncs.filter (fun x => !(decide (x.src = src) && x.domain = dom && x.port = c.port))
      ({ s with fp := { s.fp with syncs := ⟨src, seq, dom, c.port, s.ptpCorr f c⟩ :: rest } }, b)
    else if kind = 8 then
      match s.fp.syncs.find? mine with
      | some x => ({ s with fp := { s.fp with syncs := s.fp.syncs.filter (fun y => !mine y) } }, addCorrection b o x.corr)
      | none => (s, b)
    else (s, b)

/-- The frame as the copy carries it, before protection. R69 speaks of the copy that a duplicate decision kept; the trailers
and tags of any other frame are removed alike (DESIGN CHOICE, log entry 51). A frame of the device itself is sent as it
stands, stamped where it is a PTP message. -/
def State.copyInner (s : State) (f : Frame) (c : FCopy) : State × List Byte :=
  if c.raw then (s, ptpStamp (s.txStampNow (s.portLane c.port)) c.bytes) else
  let b := if redundOf (s.rd (R.LNE_PORT_CTL c.port)) = 0 then stripRedundancy f.bytes else f.bytes
  let b := match f.entry with | some e => rewriteActive b e.mtch | none => b
  let (s, b) := s.ptpEdit f c b
  (s, if s.isExt (s.portLane c.port) && decide (32 ≤ c.port) then addETag b c.cls (s.ctx c.port).ecid else b)

/-- Offsets of a SecY's registers from its base. -/
def secyCtl (s : State) (base : Nat) : Nat := (s.rd base).toNat
def npnA (base an : Nat) : Nat := txCtl base an + 4
def lpnA (base an : Nat) : Nat := rxCtl base an + 4
def hpnA (base an : Nat) : Nat := rxCtl base an + 0x10
def suiteOf (ctl : Nat) : Nat := bitsOf ctl 28 2
def xpn (suite : Nat) : Bool := decide (2 ≤ suite)
/-- The confidentiality offset that an OFFSET field acts as. -/
def confOffset (ctl : Nat) : Nat := match bitsOf ctl 22 2 with | 1 => 30 | 2 => 50 | _ => 0

/-- The last usable PN of a suite (R110). -/
def pnMax (suite : Nat) : Nat := if xpn suite then 2 ^ 64 - 1 else 2 ^ 32 - 1

/-- The nonce of a MACsec frame: SCI and PN, or SSCI and PN under the salt for XPN. -/
def secIv (suite : Nat) (sci : List Byte) (ssci pn : Nat) (salt : List Byte) : List Byte :=
  if xpn suite then (toBe 4 ssci ++ toBe 8 pn).zipWith (· ^^^ ·) (fitB 12 salt) else sci ++ toBe 4 pn

/-- The operation code under which AES-GCM stands in Config.cipherByte and Config.macByte. -/
def gcm : Nat := 0
def gmac : Nat := 2

/-- The SCI of a SecY's transmit channel, as eight bytes. -/
def sciOf (s : State) (a : Nat) : List Byte := toBe 4 (s.rd (a + 4)).toNat ++ toBe 4 (s.rd a).toNat

/-- A copy protected under MACsec: SecTAG, secure data and ICV (R98). -/
def protect (ctl : Nat) (key iv sci : List Byte) (an pn : Nat) (b : List Byte) : List Byte :=
  let data := b.drop 12
  let scTx := bitAt ctl 20
  let conf := bitAt ctl 24
  let tci := b2n (bitAt ctl 19) * 64 + b2n scTx * 32 + b2n (bitAt ctl 18) * 16 + b2n conf * 12 + an
  let sl := if data.length < 48 then data.length else 0
  let tag := toBe 2 0x88E5 ++ toBe 1 tci ++ toBe 1 sl ++ toBe 4 pn ++ (if scTx then sci else [])
  let clear := if conf then data.take (confOffset ctl) else data
  let aad := b.take 12 ++ tag ++ clear
  let rest := data.drop clear.length
  let ct := (List.range rest.length).map (fun i => Config.cipherByte gcm key iv aad rest i)
  b.take 12 ++ tag ++ clear ++ ct ++ (List.range 16).map (fun i => Config.macByte gcm key iv aad ct i)

/-- How a copy can be protected: in clear, under an association number and slot, or not at all with the counter that
says so. -/
inductive TxSa where
  | clear
  | sa (an slot : Nat)
  | none (counter : Nat)
deriving DecidableEq, Repr

/-- The association of a SecY whose slot is the ACTIVE successor of an exhausted slot (R110, R113). -/
def State.succAn (s : State) (base i : Nat) : Option Nat :=
  match (s.ks i).succ with
  | some j =>
    if (s.ks j).state = Ks.active then [0, 1, 2, 3].find? (fun a => saEn (s.rd (txCtl base a)) && saSlot (s.rd (txCtl base a)) = j)
    else Option.none
  | Option.none => Option.none

/-- The next copy would go beyond the last usable packet number of an association or the limit of its slot (R110, R112). -/
def State.saSpent (s : State) (base an i : Nat) : Bool :=
  let pn := s.rd64 (npnA base an)
  decide (pnMax (suiteOf (secyCtl s base)) < pn) || pn = 0 || decide ((s.ks i).limit ≤ (s.ks i).use)

/-- The association under which a protecting SecY numbers the next copy: a spent slot is exhausted, and the copy is then
numbered under the successor's, which is held to the same limits (R109, R110, R113). -/
def txSaFrom (base : Nat) : Nat → State → State × TxSa
  | 0, s => (s, .none 0x588)
  | n + 1, s =>
    let an := bitsOf (secyCtl s base) 16 2
    let v := s.rd (txCtl base an)
    let i := saSlot v
    if !saEn v then (s, .none 0x590)
    else
      let s := s.doIf (s.saSpent base an i && (s.ks i).state = Ks.active) (·.exhaust i)
      if (s.ks i).state = Ks.active then (s, .sa an i)
      else if (s.ks i).state ≠ Ks.exhausted then (s, .none 0x590)
      else match s.succAn base i with
        | some a => txSaFrom base n (s.wr base (BitVec.ofNat 32 (putBits (secyCtl s base) 16 2 a)))
        | Option.none => (s, .none 0x588)

/-- The transmit association of a SecY for the next copy (R99, R109, R110, R113). -/
def State.txSa (s : State) (base : Nat) : State × TxSa :=
  let ctl := secyCtl s base
  if !bitAt ctl 30 || !bitAt ctl 25 then (s, .clear) else txSaFrom base 5 s

/-- GCM output carries poison during a supply dip (R118). -/
def State.dip (s : State) : Bool := s.berm.dipping || s.berm.settling

/-- Update one copy of a frame, named by its port and order. -/
def Frame.setCopy (f : Frame) (c : FCopy) : Frame :=
  { f with copies := f.copies.map (fun x => if x.port = c.port && x.ord = c.ord then c else x) }
def State.setCopy (s : State) (id : Nat) (c : FCopy) : State :=
  match s.frame id with | some f => s.setFrame (f.setCopy c) | none => s

/-! ### Queues of a lane (R77, R84, R86) -/

/-- Of two copies, the one that entered its queue first. -/
def earlier (a : Option (Nat × FCopy)) (x : Nat × FCopy) : Option (Nat × FCopy) :=
  match a with | none => some x | some y => if x.2.ord < y.2.ord then some x else some y

/-- The copy under transmission on a lane, and the preempted one. -/
def State.sendingOn (s : State) (k : Nat) : Option (Nat × FCopy) := (s.laneCopies k).find? (fun x => x.2.phase = .sending)
def State.preemptedOn (s : State) (k : Nat) : Option (Nat × FCopy) := (s.laneCopies k).find? (fun x => x.2.phase = .preempted)

/-- The Dike copies queued on a lane, in order. -/
def State.dikeQueue (s : State) (k : Nat) : List (Nat × FCopy) :=
  ((s.laneCopies k).filter (fun x => x.2.cls = 7 && x.2.phase = .queued)).mergeSort (fun a b => a.2.ord ≤ b.2.ord)

/-- The head of the Dike queue; an extender lane skips frames whose own gate is closed (R77). -/
def State.dikeHead (s : State) (k : Nat) : Option (Nat × FCopy) :=
  if s.isExt k then (s.dikeQueue k).find? (fun x => s.txGate x.2.port 7)
  else match (s.dikeQueue k).head? with
    | some x => if s.txGate x.2.port 7 then some x else none
    | none => none

/-- The copies at the head of the Dike queue of a lane: one, behind those that a closed gate of their own holds on an
extender lane. -/
def State.dikeHeads (s : State) (k : Nat) : List (Nat × FCopy) :=
  let q := s.dikeQueue k
  if s.isExt k then q.takeWhile (fun x => !s.txGate x.2.port 7) ++ (q.find? (fun x => s.txGate x.2.port 7)).toList else q.take 1

/-- The copies that have reached the head of the Dike queue are seen there, and those whose class 7 gate is closed are
counted in DIKE_GATE_WAIT (R86). -/
def State.countWaits (s : State) (k : Nat) : State :=
  s.forEach ((s.dikeHeads k).filter (fun x => !x.2.waited)) (fun s x =>
    (s.setCopy x.1 { x.2 with waited := true }).doIf (!s.txGate x.2.port 7) (fun s => s.pc x.2.port 0x428))

/-- The copy leaves its queue for good. -/
def State.dropCopy (s : State) (id : Nat) (c : FCopy) : State :=
  let k := s.portLane c.port
  (s.removeCopies id (fun x => x.port = c.port && x.ord = c.ord)).countWaits k

/-! ### Frames of the device itself (R149, R153) -/

/-- A frame that the device originates enters class 6 of a lane's port, to be sent as it stands. That Sync and Announce are
of class 6, as R153 says of peer-delay messages, is PRESUMED, log entry 53. -/
def State.queueOwn (s : State) (k : Nat) (b : List Byte) : State :=
  let c : FCopy :=
    { port := k, cls := 6, ord := s.fp.nextOrd, phase := .queued, stored := true, bytes := fitB (max 60 b.length) b, slot := none, core := 0,
      start := 0, sent := 0, fcs := none, waited := false, cutShort := false, overrun := false, raw := true, spoilt := false }
  let f : Frame :=
    { id := s.fp.nextId, lane := k, port := noPort, wire := b, bytes := b, fault := false, dipped := false, core := 0, poison := false,
      gac := s.gacNow, tick := s.gac.now, epoch := s.cfg.epoch, cfg := { ctl := 0, pcp := 0, adm := 0, host := 0, vid := 0, secy := 0, gates := 255 },
      key := [], entry := none, goose := none, secy := none, tagged := false, cls := 6, held := false, phase := .handed, own := 0, shared := 0,
      short := false, ord := s.fp.nextOrd, verdict := some .pass, begun := false, host := none, toAeduf := false, counted := false, copies := [c] }
  if s.laneUp k then
    { s with fp := { s.fp with frames := s.fp.frames ++ [f], nextId := s.fp.nextId + 1, nextOrd := s.fp.nextOrd + 1 } }
  else s

/-! ### The first bit of a copy (R17, R84, R104, R108, R109) -/

/-- The bytes of a copy under its association, numbered and counted, with the core its job runs on. -/
def State.protectCopy (s : State) (base an i : Nat) (c : FCopy) (b : List Byte) : State × List Byte × Nat :=
  let ctl := secyCtl s base
  let pn := s.rd64 (npnA base an)
  let k := s.ks i
  let iv := secIv (suiteOf ctl) (sciOf s (base + 4)) (s.rd (txCtl base an + 0xC)).toNat pn k.salt
  let b' := protect ctl k.material iv (sciOf s (base + 4)) an pn b
  let (core, s) := s.gcmJob (c.cls = 7) (if bitAt ctl 24 then gcmBlocks (b.length - 12 - confOffset ctl) else 1)
  (((s.wr64 (npnA base an) ((pn + 1) % 2 ^ 64)).useSlot i).pc c.port 0x528, b', core)

/-- A copy that is not started is dropped, and counted for its stream (R73). -/
def State.refuseCopy (s : State) (f : Frame) (c : FCopy) (port off : Nat) : State := ((s.countDiscard f).dropCopy f.id c).pc port off

/-- The largest Dike delay of an egress port, from corrected timestamps (Table SLU-10). -/
def State.latMax (s : State) (f : Frame) (c : FCopy) : State :=
  let ns := (s.residence f.lane f.tick (s.portLane c.port) / 65536).toNat
  s.setF (F.SLU_LAT_MAX_MAX c.port) (max (s.f (F.SLU_LAT_MAX_MAX c.port)) (min (2 ^ 32 - 1) ns))

/-- The copy's first bit leaves. A copy that finds no usable association is not started (R113). Cipher output of a supply
dip is poison, and so is a poisoned key slot (R117, R118): a copy whose frame is stored is then dropped, and a cut-through copy is stomped at its end (R117). -/
def State.startCopy (s : State) (f : Frame) (c : FCopy) : State :=
  let base := s.secyOf c.port
  match (if c.raw then (s, TxSa.clear) else s.txSa base) with
  | (s, .none 0x590) => s.refuseCopy f c c.port 0x590
  | (s, .none _) => s.refuseCopy f c f.port 0x588
  | (s, sa) =>
    let (s, b) := s.copyInner f c
    let (s, b, core, slot) := match sa with
      | .sa an i => let (s, b, core) := s.protectCopy base an i c b; (s, b, core, some i)
      | _ => (s, b, 0, none)
    let poisoned := match slot with | some i => s.dip || s.slotBad i | none => false
    if poisoned && c.stored then s.refuseCopy f c f.port 0x580
    else
      let k := s.portLane c.port
      let s := match s.frame f.id with | some g => s.setFrame { g with begun := true } | none => s
      let s := s.setCopy f.id { c with bytes := b, slot := slot, core := core, start := s.gac.now, phase := .sending, spoilt := poisoned, fcs := if c.stored then some true else none }
      let s := if c.raw then (match s.ptpFollow k (s.txStampNow k) b with | some m => s.queueOwn k m | none => s) else s
      (s.doIf (c.cls = 7) (fun s => (s.pc c.port 0x408).latMax f c)).countWaits k

/-! ### The choice of the next transmission (R84, R86, R87, R92, R108) -/

/-- The verdict of the copy's frame. -/
def State.verdictOf (s : State) (id : Nat) : Option Verdict := (s.frame id).bind (·.verdict)

/-- MAX_LEN as it acts (Table FPA-7). -/
def maxLen (ctl : Word) : Nat := max 64 (min 9216 (bitsOf ctl.toNat 16 14))

/-- The hold of R92 in ticks: 0.48 ns for each byte of the frame where it goes from a 10G to a 25G lane. -/
def State.hold10to25 (s : State) (f : Frame) (k : Nat) : Nat :=
  if s.laneMode f.lane = 3 && s.laneMode k = 4 then
    ceilDiv (3 * (lengthField (if s.isExt f.lane then 8 else 0) f.bytes).getD (maxLen f.cfg.ctl)) 5
  else 0

/-- P_min in ticks: 560 ns, or 760 ns where either lane uses RS-FEC (Table FPX-2). -/
def State.pMin (s : State) (i k : Nat) : Nat :=
  let rs := fun (l : Nat) => s.laneMode l = 4 && fecOf (s.f (F.LNE_LANE_CTL_FEC l)) = 2
  if rs i || rs k then 950 else 700

/-- A Dike copy is due: a stored one after a passed verdict, a cut-through one P_min + H after its frame's first bit, and
never after a failed verdict (R92, R107, R108). -/
def State.dikeDue (s : State) (k : Nat) (x : Nat × FCopy) : Bool :=
  match s.frame x.1 with
  | none => false
  | some f =>
    if x.2.stored then f.verdict = some .pass
    else (f.verdict = none || f.verdict = some .pass) && decide (f.tick + s.pMin f.lane k + s.hold10to25 f k ≤ s.gac.now)

/-- The queue heads of a class on the ports of a lane that may start. -/
def State.classHeads (s : State) (k c : Nat) : List (Nat × FCopy) :=
  let all := (s.laneCopies k).filter (fun x => x.2.cls = c && x.2.phase = .queued)
  let ports := (all.map (fun x => x.2.port)).dedup
  (ports.filterMap (fun p => (all.filter (fun x => x.2.port = p)).foldl earlier none)).filter (fun x => s.verdictOf x.1 = some .pass && s.mayStart x.2.port c k (x.2.bytes.length + 4))

/-- How far a port lies after the one that a lane served last in a class; from the lowest port before the first. -/
def rrDist (last : Option Nat) (p : Nat) : Nat := match last with | some q => (p + 2047 - q) % 1024 | none => p

/-- The next copy of classes 6 to 0, ports in round robin within a class. A class whose gate is open but whose frames GUARD
or R88 holds back lets a lower class start; R84 does not say (DESIGN CHOICE, log entry 52). -/
def State.nextLow (s : State) (k : Nat) : List Nat → Option (Nat × FCopy)
  | [] => none
  | c :: cs =>
    let dist := fun (x : Nat × FCopy) => rrDist ((s.lane k).rr.getD c none) x.2.port
    match (s.classHeads k c).foldl (fun a x => match a with | none => some x | some y => if dist x < dist y then some x else some y) none with
    | some x => some x
    | none => s.nextLow k cs

/-- The octets of a copy that have left when it is preempted now: at least 60 of each fragment, which its mCRC brings to
64 (R87). -/
def State.cutAt (s : State) (k : Nat) (c : FCopy) : Nat := c.sent + max 60 ((s.gac.now - c.start) * 800 / max 1 (s.byteTime k))

/-- IEEE 802.3br lets the copy be preempted: the rest makes a final fragment of at least 64 octets (R87). -/
def State.preemptable (s : State) (k : Nat) (c : FCopy) : Bool := decide (c.cls ≤ 6) && decide (s.cutAt k c + 64 ≤ c.len)

/-- The mCRC of a fragment that ends after `n` octets of a frame: the CRC of the frame so far with its low half inverted
(IEEE 802.3br, PRESUMED; log entry 54). -/
def mCrc (b : List Byte) (n : Nat) : Word := crc32 (b.take n) ^^^ 0x0000FFFF

/-- A copy under transmission is preempted: its fragment ends with its mCRC. -/
def State.preempt (s : State) (k : Nat) (x : Nat × FCopy) : State :=
  let n := s.cutAt k x.2
  let s := s.emit (.fragment k x.2.sent (sliceB x.2.bytes x.2.sent (n - x.2.sent)) (some (mCrc x.2.bytes n)) false)
  let s := s.setCopy x.1 { x.2 with phase := .preempted, cutShort := true, sent := n }
  s.doIf (!x.2.cutShort) (fun s => s.pc x.2.port 0x438)

/-- A preempted copy resumes with its next fragment. -/
def State.resume (s : State) (k : Nat) (x : Nat × FCopy) : State :=
  (s.setCopy x.1 { x.2 with phase := .sending, start := s.gac.now }).addF (F.SLU_MM_FRAG_COUNT k) 1

/-- The start of a chosen copy, where its frame stands. -/
def State.startId (s : State) (x : Nat × FCopy) : State := match s.frame x.1 with | some f => s.startCopy f x.2 | none => s

/-- A copy of classes 0 to 6 starts, and its port has been served. -/
def State.startLow (s : State) (k : Nat) (x : Nat × FCopy) : State :=
  let s := s.startId x
  s.setLane k { s.lane k with rr := (s.lane k).rr.set x.2.cls (some x.2.port) }

/-! ### Frames inside a Clearing (R148, R149, R153) -/

/-- A calibration frame: addresses, EtherType and payload (R149, Table CAL-1). The source address is not given
(Config.portMac). -/
def calFrame (seq k : Nat) : List Byte :=
  fitB 92 (toBe 6 0x0180C200000E ++ toBe 6 (Config.portMac k).toNat ++ toBe 2 0x88B5 ++ [2, 1, 1, 0] ++ toBe 4 seq ++ toBe 1 k)

/-- A class 7 gate of the lane is open while preemption is not active (R148). -/
def State.calBarred (s : State) (k : Nat) : Bool := !s.mmActive k && (s.portsOfLane k).any (fun p => s.txGate p 7)

/-- A frame of `len` bytes may be sent in a Clearing of the lane: it runs, and the frame ends in time (R148). -/
def State.calMaySend (s : State) (k len : Nat) : Bool :=
  s.clearing k && decide (s.angle + s.needAc k len ≤ (s.nextEnt k).2) && !s.calBarred k

/-- A turn whose frames a class 7 gate bars is over: they are not sent, and the turn is counted once (R148). -/
def State.calSkip (s : State) (k : Nat) : State :=
  let l := s.lane k
  if (decide (0 < l.calLeft) || l.pdReq) && s.calBarred k then
    (s.setLane k { l with calLeft := 0, pdReq := false, skipped := true }).addF (F.CAL_LANE_SKIP_COUNT k) 1
  else s

/-- One of the calibration frames of a TS_LOOP turn, with its transmit measurement (R151). -/
def State.sendCal (s : State) (k : Nat) : State :=
  let l := s.lane k
  let s := (s.setLane k { l with calLeft := l.calLeft - 1, calSeq := (l.calSeq + 1) % 2 ^ 32 }).emit (.frame k (calFrame l.calSeq k) false)
  let (m, s) := s.padStrobe k true
  s.calMeasure k true m

/-- The Pdelay_Req of a PDELAY turn (R153). -/
def State.sendPdelay (s : State) (k : Nat) : State :=
  let b := s.pdelayReq k
  let s := s.nextPtpSeq
  let s := (s.setLane k { s.lane k with pdReq := false }).setCalLane k { s.calLane k with due := false }
  s.emit (.frame k b false)

/-- LOW_STARVE: classes 0 to 6 wait behind an open class 7 gate held by DIKE_OPEN, preemption not active (R88). -/
def State.lowStarve (s : State) (k : Nat) : State :=
  let stuck := (s.laneCopies k).any (fun x => decide (x.2.cls ≤ 6) && bitAt (s.rd (R.SLU_TX_CFG x.2.port)).toNat 31)
  if stuck && !s.mmActive k && !(s.lane k).starved then
    (s.setLane k { s.lane k with starved := true }).raise sluEvt 2 (k + dat 2 0xFFFF)
  else s

/-! ### The end of a transmission (R54, R108, R117) -/

/-- The first stomp in a cycle sets FPX_EVT.STOMP. -/
def State.stompEvt (s : State) (p : Nat) : State :=
  if s.fp.stomped then s
  else ({ s with fp := { s.fp with stomped := true } }).raise fpxEvt 8 (fpxData 0xFFFF p 0xFF)

/-- A stomp of a cut-through copy counted by its cause (R108); a copy whose cipher output carried poison, although its
frame passed, counts as poison (R117). -/
def State.countStomp (s : State) (f : Frame) (c : FCopy) : State :=
  match f.verdict with
  | some .fcs => s.pc f.port 0x3A0
  | some .replay => s.pc c.port 0x560
  | some .poison => s.pc c.port 0x568
  | some .pass => s.pc c.port 0x568
  | some .auth => s.pc c.port 0x558
  | none => (s.pc c.port 0x570).raise fpxEvt 6 (fpxData 0xFFFF c.port 0xFF)

/-- What leaves at the end of a transmission: the frame, or the final fragment of one that was preempted. -/
def FCopy.out (c : FCopy) (k : Nat) (stomped : Bool) : Out :=
  if c.sent = 0 then .frame k c.bytes stomped else .fragment k c.sent (c.bytes.drop c.sent) none stomped

/-- SLU_TX_DIKEQ as read (Table SLU-10): byte-times queued in the port's or lane's Dike queue. -/
def State.dikeqNow (s : State) (p : Nat) : Word :=
  let k := s.portLane p
  let q := (s.dikeQueue k).filter (fun x => s.isExt k || x.2.port = p)
  BitVec.ofNat 32 ((q.map (fun x => x.2.bytes.length + 24)).foldl (· + ·) 0)

end Sys2Proof.Machine
end

