-- ==== Sys2Proof/Machine/FrameOps.lean ====
section
/-! DEFINITION. What happens to a frame once its lookup completes: duplicate discard, budget, destinations, admission,
the copies it enters into egress queues, and delivery to the host (R60 to R73, R83, R89, R99, R101, R103, R222). -/

namespace Sys2Proof.Machine

/-! ### The configuration a frame follows (R17) -/

/-- The set in force when the frame's first bit arrived. -/
def State.setOf (s : State) (epoch : Nat) : CfgSet :=
  if epoch = s.cfg.epoch then s.cfg.active else ((s.cfg.older.find? (fun x => x.1 = epoch)).map (·.2)).getD s.cfg.active

/-- The members of a port set, in ascending order. -/
def portSet (c : CfgSet) (i : Nat) : List Nat :=
  let m := Tbl.get (fun _ => 0) c.portsets i
  (List.range 1024).filter (fun p => m.testBit p)

/-- The ports a VID floods to (R63). -/
def floodPorts (c : CfgSet) (vid : Nat) : List Nat :=
  let i := Tbl.get (fun _ => 0xFFFF) c.flood vid
  if i = 0xFFFF then [] else portSet c i

/-- The bring-up allow list admits a VID and destination (R64). -/
def allowed (c : CfgSet) (vid da : Nat) : Bool :=
  c.allow.any (fun (v, n, m) => v = vid && decide (da / 2 ^ (48 - min 48 n) = m / 2 ^ (48 - min 48 n)))

/-- The VID of a frame on a port. -/
def Frame.vid (f : Frame) : Nat := (hdrsOf f.bytes).vid.getD (bitsOf f.cfg.vid.toNat 0 12)

/-- The class of an unknown frame: its PCP through the port's map, 7 read as 6 (R61). -/
def Frame.pcpClass (f : Frame) : Nat :=
  let k := ((hdrsOf f.bytes).pcp).getD (bitsOf f.cfg.pcp.toNat 24 3)
  min 6 (bitsOf f.cfg.pcp.toNat (3 * k) 3)

/-- Bytes of the frame on its lane, destination address to FCS. -/
def Frame.len (f : Frame) : Nat := f.wire.length + 4

/-! ### Duplicate discard (R66 to R68) -/

/-- The sequence number that takes part: of the trailer for PRP, of the tag for HSR. -/
def seqOf (e : GrvEntry) (b : List Byte) : Option Nat :=
  if e.prp then (rctOf b).map (·.1) else if e.hsr then (hdrsOf b).hsr.map (·.1) else none

/-- The decision of R67 on an entry: whether the frame is accepted, whether it counts as SEQ_OLD, and the entry after. -/
def dupDecide (e : GrvEntry) (sq c forget : Nat) : Bool × Bool × GrvEntry :=
  let last := fun (e : GrvEntry) => { e with seqLast := c }
  if !e.seqValid || decide (forget ≤ (c + 65536 - e.seqLast) % 65536) then
    (true, false, last { (e.setFl 5 true) with seqBase := sq, seqWin := 1 })
  else
    let d := (sq + 65536 - e.seqBase) % 65536
    if d = 0 then (false, false, last e)
    else if d < 32768 then
      (true, false, last { e with seqWin := (if d < 32 then (e.seqWin * 2 ^ d) % 2 ^ 32 else 0) ||| 1, seqBase := sq })
    else
      let back := 65536 - d
      if back ≤ 31 then
        if bitAt e.seqWin back then (false, false, last e)
        else (true, false, last { e with seqWin := e.seqWin ||| 2 ^ back })
      else (true, true, last e)

/-- The duplicate decision for a frame; none where the frame is discarded and freed. -/
def State.dupCheck (s : State) (f : Frame) (e : GrvEntry) : Option State :=
  let red := redundOf f.cfg.ctl
  match seqOf e f.bytes with
  | none => some s
  | some sq =>
    if red = 0 then some s
    else
      let cur := match s.copseFind f.key f.epoch with | some (_, w) => w.entry | none => e
      let forget := max 1 (bitsOf f.cfg.host.toNat 24 8)
      let (ok, old, e') := dupDecide cur sq (s.cycle % 65536) forget
      let s := s.updEntry f.key (fun x => { x with flags := e'.flags &&& 0x20 ||| (x.flags &&& 0xFFDF), seqBase := e'.seqBase, seqLast := e'.seqLast, seqWin := e'.seqWin })
      let s := if old then s.pc f.port 0x378 else s
      if ok then some s
      else none

/-- A discarded duplicate: freed, counted on its port and for its stream (R67, R73). -/
def State.discardDup (s : State) (f : Frame) (e : GrvEntry) : State :=
  let (_, _, e') := dupDecide (match s.copseFind f.key f.epoch with | some (_, w) => w.entry | none => e)
    ((seqOf e f.bytes).getD 0) (s.cycle % 65536) (max 1 (bitsOf f.cfg.host.toNat 24 8))
  let s := s.updEntry f.key (fun x => { x with seqLast := e'.seqLast })
  ((s.freeFrame f.id).pc f.port 0x370).countStream (some e) 0x10 1

/-! ### Replay (R103) -/

/-- The sequence value is fresh against an entry's window. -/
def fresh (e : GrvEntry) (v : Nat) : Bool :=
  decide (e.replayBase < v) || (decide (e.replayBase - v < 64) && !bitAt e.replayWin (e.replayBase - v))

/-- The window after a passed verdict. -/
def replayUpd (e : GrvEntry) (v : Nat) : GrvEntry :=
  if e.replayBase < v then
    let d := v - e.replayBase
    { e with replayWin := if 64 ≤ d then 1 else (e.replayWin * 2 ^ d) % 2 ^ 64 ||| 1, replayBase := v }
  else { e with replayWin := e.replayWin ||| 2 ^ (e.replayBase - v) }

/-- The entry as held now, or as it was at the lookup: its frame state is the one held now, and its settings are those of
the lookup (R175). -/
def State.entryNowOf (s : State) (f : Frame) (e : GrvEntry) : GrvEntry :=
  match s.copseFind f.key f.epoch with | some (_, w) => if w.st = .negative then e else w.entry | none => e

/-! ### Drops at the lookup (R99, R101, R103) -/

def validateOf (ctl : Nat) : Nat := let v := bitsOf ctl 26 2; if v = 3 then 2 else v

/-- The counter of the check that drops the frame when its lookup completes, if one does. -/
def State.lookupDrop (s : State) (f : Frame) (e : Option GrvEntry) : Option Nat :=
  let strict := f.secy.isSome && validateOf f.cfg.secy.toNat = 2
  let dike := match e with | some x => x.tc % 8 = 7 | none => false
  let unprot := !f.tagged && ((f.secy.isSome && (dike || strict)) || (match e with | some x => x.macsecReq | none => false))
  let missing := match e with | some x => x.verify && (match f.goose with | some g => g.ext.isNone | none => true) | none => false
  let stale := match e, f.goose with
    | some x, some g => x.replay && !g.sv && g.early && (match g.seq with | some v => !fresh (s.entryNowOf f x) v.toNat | none => false)
    | _, _ => false
  if unprot then some 0x520 else if missing then some 0x548 else if stale then some 0x550 else none

/-! ### Destinations (R62 to R64, R140) -/

/-- What becomes of a frame: dropped with a counter of its port, or sent to ports, to the host with a REASON, to Aeduf,
with the counter of an unknown frame. -/
inductive Fate where
  | drop (counter : Option Nat)
  | send (count : Option Nat) (ports : List Nat) (host : Option Nat) (toAeduf : Bool)
deriving DecidableEq, Repr

/-- The fate of a frame by its entry, or by DEF_ACT (R62 to R64). -/
def State.fate (s : State) (f : Frame) (e : Option GrvEntry) : Fate :=
  let c := s.setOf f.epoch
  match e with
  | none =>
    if s.service ≠ 2 && !allowed c f.vid (daOf f.bytes) then .drop (some 0x348)
    else match bitsOf f.cfg.ctl.toNat 14 2 with
      | 1 => .send (some 0x338) [] (some 0) false
      | 2 => .send (some 0x340) (floodPorts c f.vid) none false
      | _ => .drop (some 0x330)
  | some x =>
    match x.action with
    | 1 => .send none (if bitAt x.egress 31 then portSet c (x.egress % 4096) else [x.egress % 1024]) (if bitAt x.egress 30 then some 2 else none) false
    | 2 => .send none [] (some 1) false
    | 3 => .send none [] none true
    | _ => .drop none

/-- Copies that a HELD or QUARANTINED context would have received are counted there (R140). -/
def State.countHeldDrops (s : State) (f : Frame) (ps : List Nat) : State :=
  s.forEach (ps.filter (fun p => p ≠ f.port && decide ((s.ctx p).st = ctxHeld || (s.ctx p).st = ctxQuarantined))) (fun s p => s.pc p 0x618)

/-- The ports that receive a copy: without the ingress port and those out of service (R62). -/
def State.livePorts (s : State) (f : Frame) (ps : List Nat) : List Nat :=
  ps.filter (fun p => p ≠ f.port && !s.oos p)

/-! ### Copies -/

/-- A placeholder as long as the copy will be on its lane: edits, E-tag, SecTAG and ICV (R89). -/
def State.estBytes (s : State) (f : Frame) (p cls : Nat) : List Byte :=
  let b := if redundOf (s.rd (R.LNE_PORT_CTL p)) = 0 then stripRedundancy f.bytes else f.bytes
  let b := if s.isExt (s.portLane p) then addETag b cls (s.ctx p).ecid else b
  let ctl := (s.rd (s.secyOf p)).toNat
  if bitAt ctl 30 && bitAt ctl 25 then fitB (b.length + (if bitAt ctl 20 then 32 else 24)) b else b

/-- One copy enters the egress queue of a port (R77, R89): a Dike copy without budget enters queue 6. A copy for a port
whose Tract is not ON is counted and not queued (R411). -/
def State.enqueue (s : State) (id : Nat) (p : Nat) : State :=
  match s.frame id with
  | none => s
  | some f =>
    if !s.domOn (dTract0 + s.portLane p / 4) then s.pc p 0x610 else
    let dike := f.cls = 7
    let demote := dike && decide (s.budgetLeft p true ≤ 0)
    let cls := if demote then 6 else f.cls
    let s := if demote then (s.pc p 0x418).demoteEvt p else s
    let stored := cls ≠ 7 || !(s.fastLane f.lane && s.fastLane (s.portLane p))
    let c : FCopy :=
      { port := p, cls := cls, ord := s.fp.nextOrd, phase := .queued, stored := stored, bytes := s.estBytes f p cls, slot := none, core := 0,
        start := 0, sent := 0, fcs := none, waited := false, cutShort := false, overrun := false, raw := false, spoilt := false }
    let s := { s with fp := { s.fp with nextOrd := s.fp.nextOrd + 1 } }
    (s.setFrame { f with copies := f.copies ++ [c] }).doIf (cls = 7) (·.countWaits (s.portLane p))

/-- A frame enters the egress queues of its ports (R62, R77, R140). -/
def State.handTo (s : State) (f : Frame) (ps : List Nat) : State :=
  (s.countHeldDrops f ps).forEach (s.livePorts f ps) (fun s p => s.enqueue f.id p)

/-! ### The host receive path (R65, R222) -/

def State.hostCount (s : State) (p : Nat) : Nat := Tbl.get (fun _ => 0) s.fp.hostCount p

/-- The frame as delivered: destination address to FCS. -/
def withFcs (b : List Byte) : List Byte := b ++ toLe 4 (crc32 b).toNat

/-- The ingress timestamp in ns, corrected by the lane's offset (R38, R152). -/
def State.rxStamp (s : State) (f : Frame) : Nat := s.rxStampAt f.lane f.tick / 65536

/-- Write a frame into its receive ring (R222). -/
def State.toRing (s : State) (f : Frame) (reason : Nat) : State :=
  let cls := 14 + pipeOf f.lane
  let e := s.f (F.CUL_EVMAP_RING cls)
  let big := s.fb (F.CUL_ERING_CTL_BUFSZ e)
  let b := if big then 16384 else 2048
  let data := withFcs f.bytes
  if s.fb (F.CUL_EVMAP_NONE cls) || !s.eringOn e || !s.fb (F.CUL_ERING_CTL_RX e) then s.addF F.CUL_EV_UNMAPPED_COUNT 1
  else if decide (b < data.length) || s.eringFull e || decide (64 ≤ (s.heldEv e).length) then s.addF (F.CUL_RX_DROP_COUNT e) 1
  else
    let i := s.f (F.CUL_ERING_IDX_TAIL e) % s.eringSize e
    let t := s.rxStamp f
    let s := s.emit (.hostWrite ((s.rd (R.CUL_ERING_BUF e)).toNat + i * b) data)
    s.post ⟨cls, 0, 0, f.gac, BitVec.ofNat 128 (data.length + dat 2 f.port + dat 4 reason + dat 5 f.cls + dat 8 (t % 10 ^ 9) + dat 12 (t / 10 ^ 9 % 2 ^ 32))⟩

/-- A frame for the host, within its port's limit (R65). -/
def State.hostDeliver (s : State) (f : Frame) : State :=
  match f.host with
  | none => s
  | some r =>
    if bitsOf f.cfg.host.toNat 0 16 ≤ s.hostCount f.port then (s.countDiscard f).pc f.port 0x350
    else ({ s with fp := { s.fp with hostCount := Tbl.set (fun _ => 0) s.fp.hostCount f.port (s.hostCount f.port + 1) } }).toRing f r

/-! ### Admission (R70 to R72) -/

/-- The shared-pool factor in eighths (Table FPA-9). -/
def alpha8 (v : Nat) : Nat := 2 ^ min 6 v

/-- The test of R71 for a frame that already holds its cells. -/
def State.admitTest (s : State) (f : Frame) : Bool :=
  let n := f.own + f.shared
  let used := s.ownUsed f.port + s.sharedUsedBy f.port - n
  let free := s.sharedFree + f.shared
  let q := s.queueCells f.port f.cls - (match f.phase with | .handed => 0 | _ => n)
  decide (used + n ≤ s.minCells f.port f.cfg.adm) || (decide (n ≤ free) && decide (8 * (q + n) ≤ alpha8 (bitsOf f.cfg.adm.toNat 0 3) * free))

/-- The cells of a frame that are still to come, taken after its admission. -/
def Frame.cellsLeft (f : Frame) : Nat := cellsOf f.len - (f.own + f.shared)

/-- A frame with more cells. -/
def Frame.addCells (f : Frame) (c : Nat × Nat) : Frame := { f with own := f.own + c.1, shared := f.shared + c.2 }

/-- Cells for a Dike frame, pushing others out (R72): the frame with its cells, where there were enough, and the state. -/
def State.dikeCells (s : State) (f : Frame) : Option Frame × State :=
  match pushOut (s.fp.frames.length + 1) f.port f.cfg.adm f.cellsLeft s with
  | (some c, s) => (some (f.addCells c), s.setFrame (f.addCells c))
  | (none, s) => (none, s)

/-- The blocks of a frame's ingress cipher work: its MACsec decryption and its tag (R104). -/
def Frame.jobBlocks (f : Frame) : Nat :=
  let mac := match f.secy, secTagOf f.wire with
    | some _, some t => if t.c then gcmBlocks (t.len - confOffset f.cfg.secy.toNat) else 1
    | _, _ => 0
  mac + (match f.entry with | some e => b2n e.verify | none => 0)

/-- The frame's ingress cipher job goes to a core, once its class is known (R104). -/
def State.ingressJob (s : State) (f : Frame) : State × Frame :=
  if f.jobBlocks = 0 then (s, f)
  else
    let (c, s) := s.gcmJob (f.cls = 7) f.jobBlocks
    (s, { f with core := c })

/-- The frame is admitted (R70, R83, R89): a frame of classes 0 to 6 to its ingress queue, a Dike frame at once to its
egress queues. -/
def State.takeIn (s : State) (f : Frame) (ports : List Nat) : State :=
  let (s, f) := s.ingressJob { f with phase := .admitted, ord := s.fp.nextOrd }
  let s := { s with fp := { s.fp with nextOrd := s.fp.nextOrd + 1 } }
  if f.cls = 7 then
    match s.dikeCells f with
    | (none, s) => s.dikeBasinDrop f
    | (some f, s) => (s.setFrame { f with phase := .handed }).handTo f ports
  else if f.short then s.dropAt f 0x388
  else
    let s := s.setFrame f
    if !s.admitTest f then s.dropAt f 0x380
    else match s.takeCells f.port f.cfg.adm f.cellsLeft with
      | none => s.dropAt f 0x388
      | some c =>
        let s := s.setFrame (f.addCells c)
        if f.held then s.pc f.port 0x440 else s

/-- What happens to a frame in the Basin when its lookup has completed with an entry, or as unknown. -/
def State.decide_ (s : State) (f : Frame) (e : Option GrvEntry) : State :=
  let cls := match e with | some x => x.tc % 8 | none => f.pcpClass
  let f := { f with entry := e, cls := cls }
  let s := s.setFrame f
  match s.lookupDrop f e with
  | some off => s.dropAt f off
  | none =>
    let gate := fun (c : Nat) => bitAt f.cfg.gates c
    if cls = 7 && !gate 7 then s.dropAt f 0x420
    else
      let after := match e with | some x => s.dupCheck f x | none => some s
      match after, e with
      | none, some x => s.discardDup f x
      | none, none => s
      | some s, _ =>
        let demote := cls = 7 && decide (s.budgetLeft f.port false ≤ 0)
        let s := if cls = 7 then (if demote then (s.pc f.port 0x410).demoteEvt f.port else s.pc f.port 0x400) else s
        let c := if demote then 6 else cls
        let s := s.doIf (c = 7 && decide (f.port < noPort)) (fun s => s.charge (R.SLU_RX_LEFT f.port) f.len)
        let f := { f with cls := c, held := c ≠ 7 && !gate c }
        let s := s.setFrame f
        match s.fate f e with
        | .drop off => match off with | some o => s.dropAt f o | none => s.dropFrame f
        | .send count ports host aeduf =>
          let s := match count with | some o => s.pc f.port o | none => s
          if s.livePorts f ports = [] && host = none && !aeduf then (s.countHeldDrops f ports).dropFrame f
          else s.takeIn { f with host := host, toAeduf := aeduf } ports

/-- The ports of a stored frame at its handover, by its entry (R62). -/
def State.portsOf (s : State) (f : Frame) : List Nat :=
  match s.fate f f.entry with
  | .send _ ports _ _ => ports
  | .drop _ => []

end Sys2Proof.Machine
end

