-- ==== Sys2Proof/Machine/KeyRows.lean ====
section
/-! DEFINITION. The key slot window, derivation, KEY_WORK and the end of the Breach line's erasures (R332 to R348). -/

namespace Sys2Proof.Machine

/-! ### Curve orders and scalars (R336) -/

def orderP256 : Nat := 0xFFFFFFFF00000000FFFFFFFFFFFFFFFFBCE6FAADA7179E84F3B9CAC2FC632551
def orderP384 : Nat :=
  0xFFFFFFFFFFFFFFFFFFFFFFFFFFFFFFFFFFFFFFFFFFFFFFFFC7634D81F4372DDF581A0DB248B0A77AECEC196ACCC52973

/-- The scalar of a derived output: d = (c mod (n − 1)) + 1, as many bytes as the order (R336). -/
def scalarOf (keyType : Nat) (c : List Byte) : List Byte :=
  let n := if keyType = 1 then orderP256 else orderP384
  toBe (if keyType = 1 then 32 else 48) (beNat c % (n - 1) + 1)

/-! ### Key derivation (R334, R335) -/

def sha256 (m : List Byte) : List Byte := (List.range 32).map (Config.sha256Byte m)
def sha384 (m : List Byte) : List Byte := (List.range 48).map (Config.sha384Byte m)

/-- HMAC of FIPS 198-1 over a hash with blocks of `block` bytes. -/
def hmac (block : Nat) (hash : List Byte → List Byte) (key m : List Byte) : List Byte :=
  let k := fitB block (if block < key.length then hash key else key)
  hash (k.map (· ^^^ 0x5C) ++ hash (k.map (· ^^^ 0x36) ++ m))

def hmac256 : List Byte → List Byte → List Byte := hmac 64 sha256
def hmac384 : List Byte → List Byte → List Byte := hmac 128 sha384

/-- `n` bytes of the KDF in counter mode under a key, over [i]u32 ‖ Label ‖ 0x00 ‖ Context ‖ [L]u32 (R334). -/
def kdf (key input : List Byte) (n : Nat) : List Byte :=
  ((List.range (ceilDiv n 48)).flatMap (fun i => hmac384 key (toBe 4 (i + 1) ++ input ++ toBe 4 (8 * n)))).take n

/-- The ASCII bytes of a label. -/
def ascii (t : String) : List Byte := t.toList.map (fun c => BitVec.ofNat 8 c.toNat)

/-- The context of a derivation from the root: DEV_ID ‖ ROOT_GEN, big-endian (R335). -/
def State.rootContext (s : State) : List Byte := toBe 4 (s.rd R.DEV_ID).toNat ++ toBe 2 s.keys.rootGen

/-- The 38 symbols of a root area that holds a root: ROOT and its 6 check symbols (R332). -/
def rootCell (r : List Byte) : List Byte := r ++ lineCheck r

/-- The root secret of an area that is valid: what the code of R185 makes of its symbols (R332, R333). -/
def RootArea.secret (a : RootArea) : Option (List Byte) :=
  match a with
  | .erased => none
  | .cell b =>
    match rsDecode (b.map (·.toNat)) with
    | .clean => some (b.take 32)
    | .fix l => some (((flipSyms (b.map (·.toNat)) l).take 32).map (BitVec.ofNat 8))
    | .bad => none

/-- The root secret, where the root area holds one. -/
def State.root (s : State) : Option (List Byte) :=
  if s.keys.rootErasing then none else s.keys.root.secret

/-- The derived identity or enrolment scalar (R343). -/
def State.rootScalar (s : State) (keyType : Nat) (label : String) : Option (List Byte) :=
  s.root.map (fun r => scalarOf keyType (kdf r (ascii label ++ [0] ++ s.rootContext) (if keyType = 1 then 48 else 64)))

/-- The identity scalar. -/
def State.identity (s : State) : Option (List Byte) := s.rootScalar 2 "PW1024 IDENTITY"

/-- The slot holds a SHARED value (Table KEY-3). -/
def KeySlot.shared (k : KeySlot) : Bool := k.state = Ks.loaded && k.alg = 15

/-- The random bit source gives no output (R377). -/
def State.rngDown (s : State) : Bool := 2 ≤ s.f F.RNG_STS_STATE

/-- The ALGs whose salt the device draws (Table KEY-3). -/
def saltDrawn (alg : Nat) : Bool := alg = 4 || alg = 5 || alg = 8 || alg = 9 || alg = 12 || alg = 13

/-- A key and the salt after it, for a load: a salt that is not supplied where the ALG takes one as supplied is open. -/
def State.splitKey (s : State) (alg : Nat) (bytes : List Byte) : List Byte × List Byte × State :=
  let n := algBytes alg
  if (alg = 2 || alg = 3) && decide (bytes.length < n + 12) then
    let (o, s) := s.openBytes 12
    (fitB n bytes, o, s)
  else (fitB n bytes, sliceB bytes n 12, s)

/-! ### The write-only window (R340) -/

/-- The staging for a write to a slot: another slot's staging is discarded and counted. -/
def State.stageFor (s : State) (slot : Nat) : State :=
  match s.keys.stage with
  | some g => if g.slot = slot then s else { s.addF F.KEY_WIN_DROP_COUNT 1 with keys := { s.keys with stage := none } }
  | none => s

/-- A word put into a list of bytes at an offset. -/
def putWord (bs : List Byte) (off : Nat) (v : Word) : List Byte := bs.take off ++ toLe 4 v.toNat ++ bs.drop (off + 4)

/-- KEY_WINDOW_STAGE: a write of one of the words 0x00 to 0x4C of a slot's window. -/
def execKeyWindowStage (slot : BitVec 15) (off : Fin 20) (value : Word) (s : State) : Res :=
  s.inDom dKeys fun s =>
    let s := s.stageFor slot.toNat
    let g := s.keys.stage.getD ⟨slot.toNat, fitB 64 [], fitB 12 [], 0⟩
    let o := 4 * off.val
    let g := if o < 64 then { g with material := putWord g.material o value }
      else if o < 76 then { g with salt := putWord g.salt (o - 64) value }
      else { g with id := value.toNat }
    .next { s with keys := { s.keys with stage := some g } }

/-- KEY_WINDOW_COMMIT: a write of the CTL word of a slot's window. -/
def execKeyWindowCommit (slot : BitVec 15) (value : Word) (s : State) : Res :=
  s.inDom dKeys fun s =>
    let i := slot.toNat
    let s := s.stageFor i
    let alg := bitsOf value.toNat 12 4
    let g := s.keys.stage
    let s := { s with keys := { s.keys with stage := none } }
    match g with
    | none => .next (s.keyFlag 4 i)
    | some g =>
      if (s.ks i).state = Ks.empty && algLoadable alg && !(saltDrawn alg && s.rngDown) then
        .next (s.loadSlot i alg (bitAt value.toNat 8) (fitB (algBytes alg) g.material) g.salt g.id)
      else .next (s.keyFlag 4 i)

/-! ### KEY_KDF_CTL and KEY_WORK (R334, R337) -/

/-- Start a derivation that KEY_KDF_CTL asks for, or refuse it with DERIVE_ERR. -/
def State.startKdf (s : State) (v : Nat) : State :=
  let fromSlot := bitAt v 30
  let toFld := bitAt v 29
  let n := bitsOf v 16 7
  let slot := bitsOf v 0 15
  let len := s.f F.KEY_KDF_LEN_LEN
  let sizeOk := if toFld then fromSlot && n = 96 else decide (1 ≤ n) && decide (n ≤ 64)
  let srcOk := if fromSlot then (s.ks slot).shared else s.root.isSome
  if s.keys.work.isSome || s.keys.kdf.isSome || !sizeOk || !srcOk || decide (len < 1) || decide (256 < len) then
    s.keyFlag 2 (if fromSlot then slot else 0xFFFF)
  else
    { s with keys := { s.keys with kdf := some ⟨if fromSlot then some slot else none, toFld, n,
        s.memRead (sramBase + s.f F.KEY_KDF_ADDR_ADDR) len⟩ } }

/-- KDF_TO_WORK: a write of KEY_KDF_CTL with GO 1 and DEST 0. -/
def execKdfToWork (value : Word) (s : State) : Res :=
  s.inDom dKeys fun s =>
    if bitAt value.toNat 31 && !bitAt value.toNat 29 then .next (s.startKdf value.toNat) else .next s

/-- KDF_TO_FLD: a write of KEY_KDF_CTL with GO 1 and DEST 1 (R426). -/
def execKdfToFld (value : Word) (s : State) : Res :=
  s.inDom dKeys fun s =>
    if bitAt value.toNat 31 && bitAt value.toNat 29 then .next (s.startKdf value.toNat) else .next s

/-- KEY_DERIVE_DONE: the derivation in progress ends; a SHARED source slot is cleared to EMPTY (R338). -/
def execKeyDeriveDone (s : State) : Res :=
  match s.keys.kdf with
  | none => .next s
  | some j =>
    let s := { s with keys := { s.keys with kdf := none } }
    let key := match j.src with
      | none => s.root
      | some i => if (s.ks i).shared then some (s.ks i).material else none
    match key with
    | none => .next (s.keyFlag 2 (j.src.getD 0xFFFF))
    | some k =>
      let o := kdf k j.input j.bytes
      let s := match j.src with | some i => s.emptySlot i | none => s
      .next (if j.toFld then { s with keys := { s.keys with fldKeys := some o } } else { s with keys := { s.keys with work := some o } })

/-- KEY_WORK is emptied. -/
def State.clearWork (s : State) : State := { s with keys := { s.keys with work := none } }

/-- KEY_MOVE_SLOT: a write of KEY_MOVE with GO 1, DEST 0 and CLEAR 0. -/
def execKeyMoveSlot (value : Word) (s : State) : Res :=
  s.inDom dKeys fun s =>
    let v := value.toNat
    if !(bitAt v 31 && !bitAt v 30 && !bitAt v 29) then .next s
    else
      let slot := bitsOf v 0 15
      let alg := bitsOf v 16 4
      match s.keys.work with
      | some w =>
        if (s.ks slot).state = Ks.empty && algLoadable alg && !(saltDrawn alg && s.rngDown) then
          let (m, t, s) := s.splitKey alg w
          .next ((s.loadSlot slot alg (bitAt v 20) m t s.keys.moveId).clearWork)
        else .next (s.keyFlag 3 slot)
      | none => .next (s.keyFlag 3 slot)

/-- KEY_MOVE_PKE: a write of KEY_MOVE with GO 1, DEST 1 and CLEAR 0 (R365). -/
def execKeyMovePke (value : Word) (s : State) : Res :=
  s.inDom dKeys fun s =>
    let v := value.toNat
    if !(bitAt v 31 && bitAt v 30 && !bitAt v 29) then .next s
    else
      let t := bitsOf v 16 4
      match s.keys.work with
      | some w =>
        if t = 1 || t = 2 then .next ({ s with pke := { s.pke with kreg := some (t, scalarOf t w) } }.clearWork)
        else .next (s.keyFlag 3 0xFFFF)
      | none => .next (s.keyFlag 3 0xFFFF)

/-- KEY_WORK_CLEAR: a write of KEY_MOVE with CLEAR 1. -/
def execKeyWorkClear (value : Word) (s : State) : Res :=
  s.inDom dKeys fun s =>
    if bitAt value.toNat 29 then .next s.clearWork else .next s

/-! ### The Breach line's erasures (Table KEY-5, R247) -/

/-- ROOT_ERASE_DONE: the root area is erased and checked; a CMD_TMP_BREACH that waits for it ends. -/
def execRootEraseDone (s : State) : Res :=
  if !s.keys.rootErasing then .next s
  else
    let s := { s with keys := { s.keys with root := .erased, rootErasing := false } }.setB F.KEY_ROOT_STS_VALID false
    .next (s.forEach (s.waitsFor (· = .breach)) (fun s h => s.finishWait h (.ok [])))

/-- SLOT_OVERWRITE_DONE: every slot's material has been overwritten. -/
def execSlotOverwriteDone (s : State) : Res :=
  if !s.keys.zeroizing then .next s
  else .next ({ s with keys := { s.keys with zeroizing := false } }.keyFlag 1 0xFFFF)

end Sys2Proof.Machine
end

