-- ==== Sys2Proof/Machine/CiqRows.lean ====
section
/-! DEFINITION. The cipher request queue: submission, start, end and completion of cipher requests, their stop under a
tamper response, and the commands of family 0x07 (R243, R349 to R355). -/

namespace Sys2Proof.Machine

/-! ### Completions (R352, R355) -/

def State.ciqRing (s : State) : Nat := 2 ^ (min 12 (max 4 (s.f F.CIQ_CTL_SIZE)))
def State.ciqFull (s : State) : Bool :=
  decide (s.ciqRing ≤ (s.f F.CIQ_CRING_IDX_TAIL + 65536 - s.f F.CIQ_CRING_IDX_HEAD) % 65536)

/-- The 32 bytes of a completion (Table KEY-7). -/
def CiqDone.bytes (d : CiqDone) : List Byte :=
  toLe 4 d.req.rtag ++ toLe 2 d.status ++ toLe 1 d.ok ++ toLe 1 d.req.queue ++ fitB 16 d.req.iv ++ toLe 4 d.detail ++ toLe 4 d.done

/-- The reply of CMD_CIQ_SUBMIT that Aeduf forms from a completion. -/
def CiqDone.reply (d : CiqDone) : Reply :=
  if d.status = St.done then .ok (fitB 16 d.req.iv ++ fitB 16 d.tag ++ toLe 1 d.ok) else ⟨d.status, d.detail, []⟩

/-- A completion is written to the ring, and a host request's command ends with it (R352). -/
def State.ciqPut (s : State) (d : CiqDone) : State :=
  let t := s.f F.CIQ_CRING_IDX_TAIL
  let s := s.memWrite (sramBase + s.f F.CIQ_CRING_BASE_BASE * 32 + 32 * (t % s.ciqRing)) d.bytes
  let s := (s.setF F.CIQ_CRING_IDX_TAIL (t + 1)).irqAll 49
  match d.req.host with
  | some _ => s.forEach (s.waitsFor (· = .ciq d.req.rtag)) (fun s h => s.finishWait h d.reply)
  | none => s

/-- A request ends: its completion is written, or waits for room in the ring. -/
def State.ciqEnd (s : State) (d : CiqDone) : State :=
  if s.ciq.waiting = [] && !s.ciqFull then s.ciqPut d
  else { s with ciq := { s.ciq with waiting := s.ciq.waiting ++ [d] } }

/-- Waiting completions are written while the ring has room. -/
def State.ciqDrain : Nat → State → State
  | 0, s => s
  | n + 1, s =>
    match s.ciq.waiting with
    | d :: t => if s.ciqFull then s else State.ciqDrain n ({ s with ciq := { s.ciq with waiting := t } }.ciqPut d)
    | [] => s

/-- A completion with no effect. -/
def CiqReq.fail (r : CiqReq) (status detail : Nat) : CiqDone := ⟨r, status, 0, detail, 0, []⟩

/-! ### What a request computes (R243, R351) -/

/-- The operation serves a slot of the ALG (R342). -/
def ciqServes (op alg : Nat) : Bool :=
  if op ≤ 3 then alg = 12 || alg = 13
  else if op ≤ 7 then alg = 8 || alg = 9
  else (op = 8 || op = 9) && (alg = 10 || alg = 11)

def CiqReq.aadBytes (r : CiqReq) (s : State) : List Byte := s.fetchBytes r.aad r.aadLen r.hAad
def CiqReq.inBytes (r : CiqReq) (s : State) : List Byte := s.fetchBytes r.inp r.inLen r.hInp

/-- Operations that write output as long as their input. -/
def ciqHasOut (op : Nat) : Bool := op = 0 || op = 1 || decide (6 ≤ op)

/-- The output bytes. -/
def CiqReq.outBytes (r : CiqReq) (s : State) : List Byte :=
  let inp := r.inBytes s
  if ciqHasOut r.op then (List.range inp.length).map (fun i => Config.cipherByte r.op r.key r.iv (r.aadBytes s) inp i) else []

/-- The tag a request generates or expects, TLEN bytes: over the ciphertext for GCM. -/
def CiqReq.tagBytes (r : CiqReq) (s : State) : List Byte :=
  let m := if r.op = 0 then r.outBytes s else r.inBytes s
  let op := if r.op ≤ 1 then 0 else if r.op ≤ 3 then 2 else 4
  if r.op ≤ 5 then (List.range r.tlen).map (fun i => Config.macByte op r.key r.iv (r.aadBytes s) m i) else []

/-- The request verifies a tag. -/
def ciqVerifies (op : Nat) : Bool := op = 1 || op = 3 || op = 5

/-- The tag given to verify equals the one computed. -/
def CiqReq.tagOk (r : CiqReq) (s : State) : Bool :=
  let given := if r.host.isSome then r.tagIn else s.fetchBytes r.tagp 16 r.tagIn
  given.take r.tlen = r.tagBytes s

/-- Output as far as byte `n`. -/
def State.ciqWrite (s : State) (r : CiqReq) (n : Nat) : State := s.storeBytes r.out ((r.outBytes s).take n)

/-- A request in execution is stopped: the output already written, an open number of whole blocks, stays (R348, R353). -/
def State.ciqStopOne (s : State) (r : CiqReq) (status : Nat) : State :=
  let (k, s) := s.openBelow (ceilDiv r.inLen 16 + 1)
  let n := if !ciqHasOut r.op || (r.op = 1 && !r.tagOk s) then 0 else min r.inLen (16 * k)
  (s.ciqWrite r n).ciqEnd { r.fail status 0 with done := n }

/-- Every queued and running request ends with a status (R353). -/
def State.ciqStopAll (s : State) (status : Nat) : State :=
  let run := s.ciq.running
  let wait := s.ciq.queues.reverse.flatten
  let s := { s with ciq := { s.ciq with running := [], queues := [[], [], [], []] } }
  let s := s.forEach run (fun s r => s.ciqStopOne r status)
  s.forEach wait (fun s r => s.ciqEnd (r.fail status 0))

/-- QUIESCE on the cipher request queue (R353). -/
def State.ciqQuiesce (s : State) : State := (s.ciqStopAll St.busy).setB F.CIQ_STS_QUIESCED true

/-- Requests that name a slot that has been zeroized: those in execution, and those of the host, end (R237, R348). -/
def State.ciqZeroized (s : State) (p : Nat → Bool) : State :=
  let run := s.ciq.running.filter (fun r => p r.slot)
  let hit := fun (r : CiqReq) => p r.slot && r.host.isSome
  let wait := (s.ciq.queues.map (fun (q : List CiqReq) => q.filter hit)).flatten
  let s := { s with ciq := { s.ciq with running := s.ciq.running.filter (fun r => !p r.slot),
                                        queues := s.ciq.queues.map (fun (q : List CiqReq) => q.filter (fun r => !hit r)) } }
  let s := s.forEach run (fun s r => s.ciqStopOne r St.keyZeroized)
  s.forEach wait (fun s r => s.ciqEnd (r.fail St.keyZeroized 0))

/-! ### Submission (R349) -/

/-- A request joins its queue, or is discarded: the queue full, or stopped by a tamper response. -/
def State.ciqAdd (s : State) (r : CiqReq) : State :=
  if s.fb F.CIQ_STS_QUIESCED then s
  else
    let q := s.ciq.queues.getD r.queue []
    if 256 ≤ q.length then s.setF F.CIQ_STS_FULL (s.f F.CIQ_STS_FULL ||| 2 ^ r.queue)
    else { s with ciq := { s.ciq with queues := s.ciq.queues.set r.queue (q ++ [r]) } }.domWake dCipher |>.domWake dKeys

/-- A request from the 16 words of a descriptor (Table KEY-6). -/
def ciqOfWords (queue : Nat) (ws : List Word) : CiqReq :=
  let b := ws.flatMap (fun w => toLe 4 w.toNat)
  { queue := queue, op := leAt b 0 1, tlen := leAt b 1 1, slot := leAt b 2 2 % 32768, rtag := leAt b 4 4, aad := leAt b 8 8,
    aadLen := leAt b 16 4, inLen := leAt b 20 4, inp := leAt b 24 8, out := leAt b 32 8, iv := sliceB b 40 16, tagp := leAt b 56 8,
    core := 0, host := none, tagIn := [], key := [], alg := 0, hAad := [], hInp := [], dipped := false }

/-- A word written to CIQ_SUBMIT_q. -/
def State.ciqWord (s : State) (q : Nat) (v : Word) : State :=
  let ws := s.ciq.words.getD q [] ++ [v]
  if ws.length < 16 then { s with ciq := { s.ciq with words := s.ciq.words.set q ws } }
  else { s with ciq := { s.ciq with words := s.ciq.words.set q [] } }.ciqAdd (ciqOfWords q ws)

/-- CIQ_DESCRIPTOR_SUBMIT: the 16th word of a descriptor is written to CIQ_SUBMIT_q. -/
def execCiqDescriptorSubmit (q : Fin 4) (value : Word) (s : State) : Res :=
  if (s.ciq.words.getD q.val []).length = 15 then .next (s.ciqWord q.val value) else .next s

/-! ### Start and end (R342, R350, R351, R353) -/

/-- The bytes of a request lie where R349 has them: shared SRAM, the general region of attached memory (R163) or the
Culvert window. -/
def ciqPlace (a n : Nat) : Bool :=
  n = 0 || (decide (sramBase ≤ a) && decide (a + n ≤ sramBase + 0x400000))
    || (decide (cxlBase + 0xA0000000 ≤ a) && decide (a + n ≤ culvertBase))
    || decide (culvertBase ≤ a)

/-- The offset of the first address field of a descriptor that names no such place. Log entry 46. -/
def CiqReq.badPlace (r : CiqReq) : Option Nat :=
  ([(8, ciqPlace r.aad (if r.op ≤ 3 then r.aadLen else 0)), (0x18, ciqPlace r.inp r.inLen),
    (0x20, ciqPlace r.out (if ciqHasOut r.op then r.inLen else 0)),
    (0x38, r.host.isSome || ciqPlace r.tagp (if r.op ≤ 5 then 16 else 0))].find? (fun e => !e.2)).map (·.1)

/-- The checks at a request's start, on the slot whose key it uses (R113, R342). -/
def State.ciqCheck (s : State) (r : CiqReq) : Option (Nat × Nat) :=
  let k := s.ks (s.effSlot r.slot)
  let st := 0x0008 * 65536 + r.slot
  if (s.ks r.slot).frame || k.frame || !ciqServes r.op k.alg then some (St.badParam, st)
  else if k.state = Ks.zeroized then some (St.keyZeroized, 0)
  else if k.state = Ks.exhausted then some (St.keyExhausted, 0)
  else if !(k.state = Ks.loaded || k.state = Ks.active || k.state = Ks.draining) then some (St.badParam, st)
  else if k.limit ≤ k.use then some (St.keyExhausted, 0)
  else if r.op ≤ 5 && (decide (r.tlen < 8) || decide (16 < r.tlen)) then some (St.badParam, 0x0002 * 65536 + 1)
  else if 16777216 < r.inLen || (8 ≤ r.op && decide (r.inLen < 16)) then some (St.badParam, 0x0002 * 65536 + 0x14)
  else r.badPlace.map (fun o => (St.badParam, 0x0002 * 65536 + o))

/-- The IV a request runs under: from the slot for operations 0, 2 and 6, as given for the others (R243, R339). -/
def State.ciqIv (s : State) (r : CiqReq) (i : Nat) : List Byte × State :=
  let k := s.ks i
  if r.op = 0 || r.op = 2 then (k.salt.take 4 ++ toBe 8 k.inv ++ [0, 0, 0, 0], s.nextInv i)
  else if r.op = 6 then (k.salt.take 4 ++ toBe 8 k.inv ++ toBe 4 1, s.nextInv i)
  else (r.iv, s)

/-- The request that a core takes next: the head of the highest non-empty queue. -/
def State.ciqHead (s : State) : Option CiqReq :=
  (([3, 2, 1, 0].map (fun q => s.ciq.queues.getD q [])).find? (· ≠ [])).bind (·.head?)

/-- CIQ_REQUEST_START: a core with capacity takes the head of the highest non-empty queue; the bytes are those of
buffers that lie in the Culvert window, and `key` what the read of the key slot meets. -/
def execCiqRequestStart (core : Fin 12) (aad inp tag : List Byte) (key : Option EccHit) (s : State) : Res :=
  let free := bitAt (s.f F.FPX_CORE_STS_INSVC) core.val && !s.ciq.running.any (fun r => r.core = core.val)
    && !s.ciq.waiting.any (fun d => d.req.core = core.val) && s.fb F.CIQ_CTL_EN && s.domOn dCipher
    && !(s.cal.testing.any (fun t => t.1 = core.val))
  match s.ciqHead with
  | none => .next s
  | some r =>
    if !free then .next s
    else
      let s := { s with ciq := { s.ciq with queues := s.ciq.queues.set r.queue ((s.ciq.queues.getD r.queue []).drop 1) } }
      let r := { r with core := core.val }
      match s.ciqCheck r with
      | some (st, d) => .next (s.ciqEnd (r.fail st d))
      | none =>
        let i := s.effSlot r.slot
        let s := (s.eccRead 3 (key.filter (fun h => decide (h.cw.toNat ∈ slotCws i)))).1
        match s.slotPoison [i] with
        | some d => .next ((s.useSlot i).ciqEnd (r.fail St.memoryPoison d))
        | none =>
        let k := s.ks i
        let (iv, s) := s.ciqIv r i
        let s := s.useSlot i
        let r := { r with iv := iv, key := k.material, alg := k.alg, dipped := s.berm.dipping || s.berm.settling,
                          hAad := if r.host.isSome then r.hAad else aad, hInp := if r.host.isSome then r.hInp else inp,
                          tagIn := if r.host.isSome then r.tagIn else tag }
        .next { s with ciq := { s.ciq with running := s.ciq.running ++ [r] } }

/-- The first poisoned offset of a request's input: what lies on chip, or what the read found; AAD poison counts as
offset 0. -/
def State.ciqPoison (s : State) (r : CiqReq) (found : Option Nat) : Option (Nat × Nat) :=
  let chip := fun (a n : Nat) => if a < cxlBase && n ≠ 0 then s.firstPoison a n else none
  match chip r.aad r.aadLen with
  | some o => some (0, poisonDetail (r.aad + o))
  | none =>
    match chip r.inp r.inLen with
    | some o => some (o, poisonDetail (r.inp + o))
    | none => (found.filter (fun n => decide (n < r.inLen))).map (fun n => (n, 0))

/-- CIQ_REQUEST_DONE: the request that runs on a core ends. `poison` is the offset of poison met in input outside the
chip, `ecc` what the decoder finds of input on the chip (R188); `agree` says that the two tag comparisons agree (R105). -/
def execCiqRequestDone (core : Fin 12) (poison : Option Nat) (agree : Bool) (ecc : List EccHit) (s : State) : Res :=
  match s.ciq.running.find? (fun r => r.core = core.val) with
  | none => .next s
  | some r =>
    let s := { s with ciq := { s.ciq with running := s.ciq.running.filter (fun x => x.core ≠ core.val),
                                          blocks := (s.ciq.blocks + ceilDiv r.aadLen 16 + ceilDiv r.inLen 16) % 2 ^ 64 } }
    let s := (s.eccSpan r.aad r.aadLen ecc).eccSpan r.inp r.inLen ecc
    match s.ciqPoison r poison with
    | some (o, d) =>
      let n := if ciqVerifies r.op || !ciqHasOut r.op then 0 else min r.inLen (o / 16 * 16)
      .next ((s.ciqWrite r n).ciqEnd { r.fail St.memoryPoison d with done := n })
    | none =>
      if r.op ≤ 3 && (r.dipped || s.berm.dipping || s.berm.settling) then
        let (k, s) := s.openBelow (ceilDiv r.inLen 16 + 1)
        let n := if ciqVerifies r.op || !ciqHasOut r.op then 0 else min r.inLen (16 * k)
        .next ((s.ciqWrite r n).ciqEnd { r.fail St.memoryPoison 0 with done := n })
      else if ciqVerifies r.op then
        let s := if agree then s else (s.addF (F.ECC_UNCORR_COUNT 13) 1).blaze 13 core.val 4
        if agree && r.tagOk s then
          let n := if ciqHasOut r.op then r.inLen else 0
          .next ((s.ciqWrite r n).ciqEnd ⟨r, St.done, 1, 0, n, []⟩)
        else .next (s.ciqEnd ⟨r, St.done, 0, 0, 0, []⟩)
      else
        let n := if ciqHasOut r.op then r.inLen else 0
        let t := fitB 16 (r.tagBytes s)
        let s1 := s.ciqWrite r n
        let s2 := if r.op ≤ 5 && r.host.isNone then s1.storeBytes r.tagp t else s1
        .next (s2.ciqEnd ⟨r, St.done, 1, 0, n, if r.op ≤ 5 then t else []⟩)

/-- CIQ_CRING_HEAD_WRITE: Aeduf advances HEAD, and waiting completions are written. -/
def execCiqCringHeadWrite (head : BitVec 16) (s : State) : Res :=
  let s := s.setF F.CIQ_CRING_IDX_HEAD head.toNat
  .next (State.ciqDrain s.ciq.waiting.length s)

/-! ### Commands (R243) -/

def ciqLayout : List (Nat × Nat) := [(0, 1), (1, 1), (2, 2), (4, 8), (12, 8), (20, 8), (28, 16), (44, 16), (60, 1)]

/-- A key slot field names no slot. -/
def badSlot (h : Held) (off : Nat) : Option Reply := refuse (decide (32768 ≤ h.u off 2)) (badField off)

/-- The refusals of an exhausted or zeroized slot that a command names. -/
def slotDead (s : State) (i : Nat) : Option Reply :=
  refuse ((s.ks i).state = Ks.exhausted) ⟨St.keyExhausted, 0, []⟩
  <|> refuse ((s.ks i).state = Ks.zeroized) ⟨St.keyZeroized, 0, []⟩

def specCiqSubmit : CmdSpec where
  opc := 0x0701
  need := needs 0x002
  len := fun h => lenFixed ciqLayout h.len
  bufs := [(4, false), (12, false), (20, true)]
  pre := fun h =>
    refuse (decide (9 < h.u 0 1)) (badField 0)
    <|> refuse (decide (3 < h.u 1 1)) (badField 1)
    <|> badSlot h 2
    <|> refuse (decide (16777216 < (h.buf 12).2) || (decide (8 ≤ h.u 0 1) && decide ((h.buf 12).2 < 16))) (badField 12)
    <|> refuse (ciqHasOut (h.u 0 1) && decide ((h.buf 20).2 < (h.buf 12).2)) (badField 20)
    <|> refuse (decide (h.u 60 1 < 8) || decide (16 < h.u 60 1)) (badField 60)
  check := fun h s =>
    let i := s.effSlot (h.u 2 2)
    let k := s.ks i
    slotDead s i
    <|> refuse ((s.ks (h.u 2 2)).frame || k.frame || !ciqServes (h.u 0 1) k.alg
          || !(k.state = Ks.loaded || k.state = Ks.active || k.state = Ks.draining)) (badState (h.u 2 2))
    <|> refuse (decide (k.limit ≤ k.use)) ⟨St.keyExhausted, 0, []⟩
  objs := fun h => [.slot (h.u 2 2)]
  busy := fun h s =>
    refuse (s.fb F.CIQ_STS_QUIESCED) (coded St.busy Dt.none 0)
    <|> refuse (decide (256 ≤ (s.ciq.queues.getD (h.u 1 1) []).length)) (coded St.busy Dt.none 0)
  act := fun h s =>
    let t := s.ciq.nextTag
    let op := h.u 0 1
    let aadUsed := decide (op ≤ 3)
    let r : CiqReq :=
      { queue := h.u 1 1, op := op, tlen := h.u 60 1, slot := h.u 2 2, rtag := t, aad := culvertBase + (h.buf 4).1,
        aadLen := if aadUsed then (h.buf 4).2 else 0, inLen := (h.buf 12).2, inp := culvertBase + (h.buf 12).1,
        out := culvertBase + (h.buf 20).1, iv := sliceB h.params 28 16, tagp := 0, core := 12, host := some (h.ring, h.idx),
        tagIn := sliceB h.params 44 16, key := [], alg := 0, hAad := h.inp 0 4, hInp := h.inp 1 12, dipped := false }
    .later (.ciq t) ({ s with ciq := { s.ciq with nextTag := (t + 1) % 2 ^ 32 } }.ciqAdd r)

/-- CMD_CIQ_SUBMIT. -/
def execCmdCiqSubmit (sl : Slot) (s : State) : Res := runCmd specCiqSubmit sl s

def specCiqStatus : CmdSpec where
  opc := 0x0702
  need := needs 0x001
  sync := true
  len := fun h => lenFixed [] h.len
  act := fun _ s =>
    .done (.ok ((s.ciq.queues.flatMap (fun q => toLe 2 q.length)) ++ toLe 8 s.ciq.blocks)) s

/-- CMD_CIQ_STATUS. -/
def execCmdCiqStatus (sl : Slot) (s : State) : Res := runCmd specCiqStatus sl s

end Sys2Proof.Machine
end

