-- ==== Sys2Proof/Machine/PkeCalc.lean ====
section
/-! DEFINITION. What a public-key operation checks and computes (R356 to R361, R366), for jobs and for commands alike. -/

namespace Sys2Proof.Machine

/-! ### Algorithms and key types (Tables CMD-11 and PKE-2) -/

/-- RSA algorithms. -/
def isRsa (alg : Nat) : Bool := decide (4 ≤ alg) && decide (alg ≤ 7)
/-- Signature algorithms. -/
def isSigAlg (alg : Nat) : Bool := decide (1 ≤ alg) && decide (alg ≤ 7)
/-- Key agreement algorithms. -/
def isEcdh (alg : Nat) : Bool := decide (0x10 ≤ alg) && decide (alg ≤ 0x12)

/-- The key type an algorithm uses; 0 for RSA, whose size the key gives. -/
def algType (alg : Nat) : Nat :=
  match alg with
  | 1 | 0x10 => 1
  | 2 | 0x11 => 2
  | 3 => 3
  | 0x12 => 4
  | _ => 0

/-- A stored key of a type serves an algorithm. -/
def typeServes (t alg : Nat) : Bool := if isRsa alg then decide (5 ≤ t) && decide (t ≤ 7) else t ≠ 0 && t = algType alg

/-- Modulus bytes of an RSA type. -/
def rsaBytes (t : Nat) : Nat := if t = 5 then 256 else if t = 6 then 384 else 512

/-- Public key bytes of a type (R358). -/
def pubLen (t : Nat) : Nat := if t = 1 then 65 else if t = 2 then 97 else if t ≤ 4 then 32 else rsaBytes t + 4

/-- Continuation slots of a type (Table PKE-2). -/
def contSlots (t : Nat) : Nat := if t = 5 then 10 else if t = 6 then 15 else if t = 7 then 20 else 0

/-- Signature bytes of an algorithm and key type. -/
def sigLen (alg t : Nat) : Nat := if alg = 1 then 64 else if alg = 2 then 96 else if alg = 3 then 64 else rsaBytes t

/-- Hash bytes of an algorithm; 0 for Ed25519. -/
def hashLen (alg : Nat) : Nat := if alg = 3 then 0 else if alg = 1 || alg = 4 || alg = 6 then 32 else 48

/-- What is signed: the digest of the message, or the message for Ed25519. -/
def signedForm (alg : Nat) (digest : Bool) (m : List Byte) : List Byte :=
  if digest || alg = 3 then m else if hashLen alg = 32 then sha256 m else sha384 m

/-! ### Input checks (Table PKE-3) -/

def fieldP256 : Nat := 2 ^ 256 - 2 ^ 224 + 2 ^ 192 + 2 ^ 96 - 1
def fieldP384 : Nat := 2 ^ 384 - 2 ^ 128 - 2 ^ 96 + 2 ^ 32 - 1
def coefP256 : Nat := 0x5AC635D8AA3A93E7B3EBBD55769886BC651D06B0CC53B0F63BCE3C3E27D2604B
def coefP384 : Nat :=
  0xB3312FA7E23EE7E4988E056BE3F82D19181D9C6EFE8141120314088F5013875AC656398D8A2ED19D2A85C8EDD3EC2AEF
/-- The order of the Ed25519 base point. -/
def orderEd : Nat := 2 ^ 252 + 27742317777372353535851937790883648493

/-- A SEC1 point satisfies y² = x³ − 3x + b with coordinates below p. -/
def onCurve (p b : Nat) (x y : Nat) : Bool :=
  decide (x < p) && decide (y < p) && decide ((y * y + 3 * x) % p = (x * x * x + b) % p)

/-- A public point of a key type passes its check (R359). -/
def pointGood (t : Nat) (pub : List Byte) : Bool :=
  match t with
  | 1 => onCurve fieldP256 coefP256 (beAt pub 1 32) (beAt pub 33 32)
  | 2 => onCurve fieldP384 coefP384 (beAt pub 1 48) (beAt pub 49 48)
  | 3 => Config.pointOk 3 pub
  | _ => decide (leNat pub < 2 ^ 255 - 19) && Config.pointOk 0x12 pub

/-- The form of a public key of an algorithm: its length, the 0x04 prefix of SEC1, and for RSA the sizes taken. -/
def pubForm (alg : Nat) (pub : List Byte) : Bool :=
  if isRsa alg then
    let k := pub.length - 4
    decide (4 < pub.length) && decide (256 ≤ k) && decide (k ≤ 512) && decide (k % 8 = 0) && decide (3 ≤ beNat (pub.drop k))
      && decide (beNat (pub.drop k) % 2 = 1)
  else pub.length = pubLen (algType alg) && (2 < algType alg || byteAt pub 0 = 4)

/-- A value lies in 1 to n − 1. -/
def inOrder (n v : Nat) : Bool := decide (1 ≤ v) && decide (v < n)

/-- The checks of a signature and its public key before any arithmetic (Table PKE-3). -/
def sigGood (alg : Nat) (pub sig : List Byte) : Bool :=
  if alg = 1 then pointGood 1 pub && inOrder orderP256 (beAt sig 0 32) && inOrder orderP256 (beAt sig 32 32)
  else if alg = 2 then pointGood 2 pub && inOrder orderP384 (beAt sig 0 48) && inOrder orderP384 (beAt sig 48 48)
  else if alg = 3 then pointGood 3 pub && Config.pointOk 0x13 (sig.take 32) && decide (leNat (sig.drop 32) < orderEd)
  else
    let n := beNat (pub.take (pub.length - 4))
    decide (n % 2 = 1) && decide (1 < beNat sig) && decide (beNat sig < n)

/-- Bytes of a signature in the form of an algorithm. -/
def sigForm (alg : Nat) (pub sig : List Byte) : Bool :=
  if isRsa alg then sig.length = pub.length - 4 else sig.length = sigLen alg 0

/-- An ECDSA signature by a key over a message, with the checks of Table PKE-3: 1 P-256 with SHA-256, 2 P-384 with SHA-384. -/
def verifies (alg : Nat) (pub msg sig : List Byte) : Bool :=
  pubForm alg pub && sigForm alg pub sig && sigGood alg pub sig && Config.sigVerify alg pub (signedForm alg false msg) sig

/-- The ECDSA signature of a message under a scalar, with a fresh nonce (R357). -/
def State.sign (s : State) (alg : Nat) (priv msg : List Byte) : List Byte × State :=
  let (n, s) := s.open_
  ((List.range (sigLen alg 0)).map (Config.sigByte alg priv (signedForm alg false msg) n), s)

/-! ### Stored private keys (R357) -/

/-- The slots of the key at a head slot. -/
def keySlots (s : State) (i : Nat) : List Nat :=
  if (s.ks i).alg = 6 then rangeFrom i (1 + (byteAt (s.ks i).material 62).toNat) else [i]

/-- The type and components of a stored key. -/
def storedType (s : State) (i : Nat) : Nat := (byteAt (s.ks i).material 63).toNat
def storedKey (s : State) (i : Nat) : List Byte :=
  let t := storedType s i
  let head := (s.ks i).material
  if t = 2 then head.take 48
  else if t ≤ 4 then head.take 32
  else head.take 4 ++ ((keySlots s i).drop 1).flatMap (fun j => (s.ks j).material)

/-! ### One operation -/

/-- The inputs of one operation: a job's descriptor and its data, or a command's. -/
structure PkeIn where
  op : Nat
  alg : Nat
  digest : Bool
  eph : Bool
  kreg : Bool
  slot : Nat
  outSlot : Nat
  msg : List Byte
  key : List Byte
  sig : List Byte
  /-- Bytes available for the output. -/
  room : Nat
deriving DecidableEq, Repr

/-- The field at fault. -/
inductive PkeField where
  | op | alg | flags | msg | key | sig | out
deriving DecidableEq, Repr

/-- Why an operation is refused. -/
inductive PkeStop where
  | field (x : PkeField)
  | state (slot : Nat)
  | point
  | exhausted
  | zeroized
  | busy
deriving DecidableEq, Repr

/-- Status and DETAIL of a refusal, with the offsets of the fields. -/
def PkeStop.code (off : PkeField → Nat) : PkeStop → Nat × Nat
  | .field x => (St.badParam, Dt.field * 65536 + off x)
  | .state i => (St.badParam, Dt.state * 65536 + i % 32768)
  | .point => (St.badParam, Dt.point * 65536)
  | .exhausted => (St.keyExhausted, 0)
  | .zeroized => (St.keyZeroized, 0)
  | .busy => (St.busy, 0)

def stopIf (c : Bool) (x : PkeStop) : Option PkeStop := if c then some x else none

/-- The private key an operation takes: the register (KREG), an ephemeral or new one, or a slot. -/
def PkeIn.usesSlot (j : PkeIn) : Bool := !j.kreg && (j.op = 1 || (j.op = 3 && !j.eph) || j.op = 5)

/-- The key slots that an operation reads. -/
def PkeIn.slotsRead (j : PkeIn) (s : State) : List Nat := if j.usesSlot then keySlots s j.slot else []

/-- The checks of a stored key that an operation names. -/
def slotStop (s : State) (j : PkeIn) : Option PkeStop :=
  let k := s.ks j.slot
  stopIf ((keySlots s j.slot).any (fun i => (s.ks i).state = Ks.zeroized)) .zeroized
  <|> stopIf (k.state = Ks.exhausted) .exhausted
  <|> stopIf (k.alg ≠ 6 || !(k.state = Ks.loaded || k.state = Ks.active || k.state = Ks.draining)) (.state j.slot)
  <|> stopIf (j.op ≠ 5 && !typeServes (storedType s j.slot) j.alg) (.state j.slot)
  <|> stopIf (decide (k.limit ≤ k.use)) .exhausted

/-- The type of the private key in use. -/
def PkeIn.keyType (j : PkeIn) (s : State) : Nat :=
  if j.kreg then (s.pke.kreg.map (·.1)).getD 0
  else if j.op = 4 then
    if isRsa j.alg then (if j.room = 260 then 5 else if j.room = 388 then 6 else 7) else algType j.alg
  else if j.usesSlot then storedType s j.slot
  else algType j.alg

/-- Bytes that the operation gives back. -/
def PkeIn.outLen (j : PkeIn) (s : State) : Nat :=
  match j.op with
  | 1 => sigLen j.alg (j.keyType s)
  | 3 => if j.eph then pubLen (algType j.alg) else 0
  | 4 | 5 => pubLen (j.keyType s)
  | _ => 0

/-- The checks of an operation, in order: its algorithm and flags, the forms of its inputs, the input checks of Table
PKE-3, its slots, the room for its output, and random bits (R367). -/
def PkeIn.check (j : PkeIn) (s : State) : Option PkeStop :=
  let algOk := match j.op with
    | 1 | 2 => isSigAlg j.alg
    | 3 => isEcdh j.alg
    | 4 => isSigAlg j.alg || isEcdh j.alg
    | _ => true
  stopIf (decide (j.op < 1) || decide (5 < j.op)) (.field .op)
  <|> stopIf (!algOk) (.field .alg)
  <|> stopIf (j.op ≤ 2 && j.digest && j.alg = 3) (.field .flags)
  <|> stopIf (j.op ≤ 2 && j.digest && j.msg.length ≠ hashLen j.alg) (.field .msg)
  <|> stopIf ((j.op = 2 || j.op = 3) && !pubForm j.alg j.key) (.field .key)
  <|> stopIf (j.op = 2 && !sigForm j.alg j.key j.sig) (.field .sig)
  <|> stopIf (j.op = 2 && !sigGood j.alg j.key j.sig) .point
  <|> stopIf (j.op = 3 && !pointGood (algType j.alg) j.key) .point
  <|> stopIf (j.op = 4 && isRsa j.alg && !(j.room = 260 || j.room = 388 || j.room = 516)) (.field .out)
  <|> (if j.usesSlot then slotStop s j else none)
  <|> stopIf (j.kreg && j.op ≠ 2 && !typeServes (j.keyType s) j.alg && j.op ≠ 5) (.state 0)
  <|> stopIf (j.kreg && j.op = 5 && s.pke.kreg.isNone) (.state 0)
  <|> stopIf (j.op = 3 && (s.ks j.outSlot).state ≠ Ks.empty) (.state j.outSlot)
  <|> (if j.op = 4 then
        ((rangeFrom j.slot (1 + contSlots (j.keyType s))).find? (fun i => decide (32768 ≤ i) || (s.ks i).state ≠ Ks.empty)).map .state
       else none)
  <|> stopIf (decide (j.room < j.outLen s)) (.field .out)
  <|> stopIf (j.op ≠ 2 && s.rngDown) .busy

/-- The private key bytes. -/
def PkeIn.private_ (j : PkeIn) (s : State) : List Byte :=
  if j.kreg then (s.pke.kreg.map (·.2)).getD [] else storedKey s j.slot

/-- The public key of a private one (R358). -/
def pubOf (t : Nat) (priv : List Byte) : List Byte :=
  if t ≤ 4 then
    let b := (List.range (pubLen t)).map (Config.pubByte t priv)
    if t ≤ 2 then 4 :: b.drop 1 else b
  else (List.range (rsaBytes t)).map (Config.pubByte t priv) ++ fitB 4 priv

/-- A new private key of a type, from drawn bits (R336, R356). -/
def newKey (t : Nat) (r : List Byte) : List Byte :=
  if t ≤ 2 then scalarOf t (r.take (if t = 1 then 48 else 64))
  else if t = 3 then r.take 32
  else if t = 4 then
    let b := r.take 32
    (b.set 0 (byteAt b 0 &&& 0xF8)).set 31 ((byteAt b 31 &&& 0x7F) ||| 0x40)
  else toBe 4 65537 ++ fitB (64 * contSlots t) r

/-- The shared value of a key agreement: the X coordinate, or u (R366). -/
def shared (alg : Nat) (priv peer : List Byte) : List Byte :=
  (List.range (if alg = 0x11 then 48 else 32)).map (Config.ecdhByte alg priv peer)

/-- Fill the slots of a new stored key, all LOADED together (R357). -/
def State.storeKey (s : State) (i t : Nat) (k : List Byte) : State :=
  let n := contSlots t
  let headBytes := if t ≤ 4 then k else k.take 4
  let s := s.loadSlot i 6 false (fitB 62 headBytes ++ toLe 1 n ++ toLe 1 t) [] 0
  s.forEach (List.range n) (fun s c => s.loadSlot (i + 1 + c) 7 false (sliceB k (4 + 64 * c) 64) [] 0)

/-- The result of an operation that its checks let through: OK, the bytes it gives back, and the state. -/
def PkeIn.run (j : PkeIn) (s : State) : Nat × List Byte × State :=
  let count := fun (s : State) => if j.usesSlot then s.useSlot j.slot else s
  match j.op with
  | 1 =>
    let priv := j.private_ s
    let t := j.keyType s
    let n := s.rng.draws
    let (_, s) := s.drawBytes 48
    (1, (List.range (sigLen j.alg t)).map (Config.sigByte j.alg priv (signedForm j.alg j.digest j.msg) n), count s)
  | 2 => (b2n (Config.sigVerify j.alg j.key (signedForm j.alg j.digest j.msg) j.sig), [], s)
  | 3 =>
    let (r, s) := s.drawBytes 64
    let t := algType j.alg
    let priv := if j.eph then newKey t r else j.private_ s
    let z := shared j.alg priv j.key
    (1, if j.eph then pubOf t priv else [], (count s).loadSlot j.outSlot 15 false z [] 0)
  | 4 =>
    let t := j.keyType s
    let (r, s) := s.drawBytes (64 + 64 * contSlots t)
    let k := newKey t r
    (1, pubOf t k, s.storeKey j.slot t k)
  | _ =>
    let (_, s') := s.drawBytes 48
    (1, pubOf (j.keyType s) (j.private_ s), count s')

end Sys2Proof.Machine
end

