-- ==== Sys2Proof/Machine/PkeRows.lean ====
section
/-! DEFINITION. The public-key engine: jobs, yield points, completions, its stop and wipe (R356 to R368). -/

namespace Sys2Proof.Machine

/-! ### Jobs -/

/-- Yield intervals of a job (Table PKE-1); `rsa` is the modulus bytes it concerns. -/
def intervals (op alg rsa t : Nat) (eph : Bool) : Nat :=
  match op with
  | 1 => if alg = 1 then 18 else if alg = 2 then 44 else if alg = 3 then 14
         else if t = 5 then 800 else if t = 6 then 2400 else 5600
  | 2 => if alg = 1 then 12 else if alg = 2 then 30 else if alg = 3 then 12
         else if rsa ≤ 256 then 4 else if rsa ≤ 384 then 8 else 14
  | 3 => if alg = 0x10 then (if eph then 14 else 18) else if alg = 0x11 then (if eph then 34 else 44) else (if eph then 10 else 12)
  | 4 => if isRsa alg then 2 ^ 20 else if algType alg = 1 then 18 else if algType alg = 2 then 44 else if algType alg = 3 then 14 else 12
  | _ => if t = 1 then 18 else if t = 2 then 44 else if t = 3 then 14 else if t = 4 then 12 else 2

def PkeJob.kreg (j : PkeJob) : Bool := bitAt j.flags 2

/-- A job from its 16 descriptor words (Table PKE-4). -/
def State.pkeJob (s : State) (ws : List Word) (owner : Nat) : PkeJob :=
  let b := ws.flatMap (fun w => toLe 4 w.toNat)
  let op := leAt b 0 1
  let alg := leAt b 1 1
  let flags := leAt b 2 2
  let slot := leAt b 4 2 % 32768
  let n := intervals op alg (leAt b 32 4 - 4) (storedType s slot) (bitAt flags 1)
  { op := op, alg := alg, flags := flags, slot := slot, outSlot := leAt b 6 2 % 32768, rtag := leAt b 8 4, inLen := leAt b 12 4,
    inp := leAt b 16 8, key := leAt b 24 8, keyLen := leAt b 32 4, sigLen := leAt b 36 4, sig := leAt b 40 8, out := leAt b 48 8,
    outLen := leAt b 56 4, owner := owner, total := n, left := n, order := s.pke.order, faults := 0, susp := 0 }

/-- DATA of a PKE event. -/
def State.pkeFlag (s : State) (bit : Nat) (rtag : Nat) : State := s.raise pkeEvt bit rtag

def State.pkeRing (s : State) : Nat := 2 ^ (min 10 (max 4 (s.f F.PKE_CTL_SIZE)))
def State.pkeFull (s : State) : Bool :=
  decide (s.pkeRing ≤ (s.f F.PKE_CRING_IDX_TAIL + 65536 - s.f F.PKE_CRING_IDX_HEAD) % 65536)

def PkeDone.bytesOf (d : PkeDone) : List Byte :=
  toLe 4 d.rtag ++ toLe 2 d.status ++ toLe 1 d.ok ++ [0] ++ toLe 4 d.bytes ++ toLe 4 d.detail

/-- A completion is written to the ring (R362). -/
def State.pkePut (s : State) (d : PkeDone) : State :=
  let t := s.f F.PKE_CRING_IDX_TAIL
  let s := s.memWrite (sramBase + s.f F.PKE_CRING_BASE_BASE * 16 + 16 * (t % s.pkeRing)) d.bytesOf
  (s.setF F.PKE_CRING_IDX_TAIL (t + 1)).irqAll 50

/-- A job takes the engine: a wiped partition where it holds none yet, and the working area, which holds nothing of
another owner from then on (R364). -/
def Pke.enter (p : Pke) (j : PkeJob) : Pke :=
  { p with area := some j.owner,
           parts := if p.parts.any (· = some (j.owner, j.order)) then p.parts
             else setL p.parts (p.parts.findIdx Option.isNone) (some (j.owner, j.order)) }

/-- The partitions of jobs are wiped (R364). -/
def Pke.wipe (p : Pke) (js : List PkeJob) : Pke :=
  { p with parts := p.parts.map (fun (x : Option (Nat × Nat)) => x.filter (fun o => !js.any (fun j => j.order = o.2))) }

/-- A job has ended: its partition is wiped (R364), its completion is written or waits, and KREG is cleared after a job
that used it (R365). -/
def State.pkeEnd (s : State) (j : PkeJob) (status ok bytes detail : Nat) : State :=
  let s := { s.addF F.PKE_JOBS_COUNT 1 with pke := s.pke.wipe [j] }
  let s := if j.kreg && j.owner = 0xFFFF then { s with pke := { s.pke with kreg := none } } else s
  let d : PkeDone := ⟨j.rtag, status, ok, bytes, detail⟩
  if s.pke.waiting = [] && !s.pkeFull then s.pkePut d
  else { s with pke := { s.pke with waiting := s.pke.waiting ++ [d] } }

/-- The job with the fewest intervals remaining, the earlier submission first. -/
def pkeBest : List PkeJob → Option PkeJob
  | [] => none
  | j :: t =>
    match pkeBest t with
    | none => some j
    | some b => if j.left < b.left || (j.left = b.left && j.order ≤ b.order) then some j else some b

/-- Start or resume the next job, unless the engine is off, stopped, in a dip, or has a completion to write (R363). -/
def State.pkeNext (s : State) : State :=
  if s.pke.running.isSome || s.pke.waiting ≠ [] || !s.fb F.PKE_CTL_EN || s.berm.dipping || s.berm.settling || !s.domOn dPke then s
  else
    match pkeBest (s.pke.suspended ++ s.pke.queue) with
    | none => s
    | some j =>
      { s with pke := { s.pke.enter j with
          running := some j, queue := s.pke.queue.filter (fun x => x.order ≠ j.order),
          suspended := s.pke.suspended.filter (fun x => x.order ≠ j.order),
          kreg := if j.owner = 0xFFFF then s.pke.kreg else none } }

/-- A job joins the queue, or is discarded (R363, R367). -/
def State.pkeAdd (s : State) (j : PkeJob) : State :=
  if s.fb F.PKE_STS_QUIESCED then s
  else if 16 ≤ s.pke.queue.length then (s.setB F.PKE_STS_FULL true).pkeFlag 1 j.rtag
  else { s with pke := { s.pke with queue := s.pke.queue ++ [j], order := s.pke.order + 1 } }.domWake dPke |>.pkeNext

/-- A word written to PKE_SUBMIT by an owner. -/
def State.pkeWord (s : State) (v : Word) (owner : Nat) : State :=
  let ws := s.pke.words ++ [v]
  if ws.length < 16 then { s with pke := { s.pke with words := ws } }
  else { s with pke := { s.pke with words := [] } }.pkeAdd (s.pkeJob ws owner)

/-- PKE_JOB_SUBMIT: the 16th word of a descriptor is written to PKE_SUBMIT by the compartment `owner`. -/
def execPkeJobSubmit (value : Word) (owner : BitVec 16) (s : State) : Res :=
  if s.pke.words.length = 15 then .next (s.pkeWord value owner.toNat) else .next s

/-- PKE_YIELD_POINT: the running job has run one interval; a shorter queued job may take its place (R363). -/
def execPkeYieldPoint (s : State) : Res :=
  match s.pke.running with
  | none => .next s
  | some j =>
    let j := { j with left := j.left - 1 }
    let s := { s with pke := { s.pke with running := some j } }
    match pkeBest s.pke.queue with
    | none => .next s
    | some q =>
      if q.left < j.left && decide (s.pke.suspended.length < 4) && decide (j.susp < 8) then
        .next { s with pke := { s.pke.enter q with
          running := some q, queue := s.pke.queue.filter (fun x => x.order ≠ q.order),
          suspended := s.pke.suspended ++ [{ j with susp := j.susp + 1 }],
          kreg := if q.owner = 0xFFFF then s.pke.kreg else none } }
      else .next s

/-! ### Stops (R364, R367, Table KEY-5) -/

/-- Every job ends: the status each completes with. -/
def State.pkeStopAll (s : State) (status : PkeJob → Nat) : State :=
  let js := s.pke.running.toList ++ s.pke.suspended ++ s.pke.aborted ++ s.pke.queue
  let s := { s with pke := { s.pke with running := none, suspended := [], aborted := [], queue := [] } }
  s.forEach js (fun s j => s.pkeEnd j (status j) 0 0 0)

/-- QUIESCE on the engine (R367). -/
def State.pkeQuiesce (s : State) : State := (s.pkeStopAll (fun _ => St.busy)).setB F.PKE_STS_QUIESCED true

/-- A job names a slot or the private-key register. -/
def PkeJob.keyed (j : PkeJob) : Bool := j.kreg || j.op = 1 || (j.op = 3 && !bitAt j.flags 1) || j.op = 4 || j.op = 5

/-- The Breach line on the engine: jobs abandoned, the private-key register wiped (R367). -/
def State.pkeBreach (s : State) : State :=
  let s := s.pkeStopAll (fun j => if j.keyed then St.keyZeroized else St.busy)
  { s with pke := { s.pke with kreg := none, area := none } }

/-- The slots of a job's stored key. -/
def PkeJob.slots (j : PkeJob) (s : State) : List Nat := if j.keyed && !j.kreg then keySlots s j.slot else []

/-- Jobs whose key has lost a slot end (R357, R367). Called before the slots are overwritten. -/
def State.pkeZeroized (s : State) (p : Nat → Bool) : State :=
  let hit := fun (j : PkeJob) => (j.slots s).any p
  let js := (s.pke.running.toList ++ s.pke.suspended ++ s.pke.aborted).filter hit
  let s := { s with pke := { s.pke with running := s.pke.running.filter (fun j => !hit j),
                                        suspended := s.pke.suspended.filter (fun j => !hit j),
                                        aborted := s.pke.aborted.filter (fun j => !hit j) } }
  (s.forEach js (fun s j => s.pkeEnd j St.keyZeroized 0 0 0)).pkeNext

/-- An applet is stopped or faults: its queued and suspended jobs are discarded (R364). -/
def State.pkeDropOwner (s : State) (owner : Nat) : State :=
  let js := (s.pke.suspended ++ s.pke.queue).filter (fun j => j.owner = owner)
  let s := { s with pke := { s.pke with suspended := s.pke.suspended.filter (fun j => j.owner ≠ owner),
                                        queue := s.pke.queue.filter (fun j => j.owner ≠ owner) } }
  s.forEach js (fun s j => s.pkeEnd j St.busy 0 0 0)

/-- A supply dip aborts the running job and every suspended one (R367). -/
def State.pkeDip (s : State) : State :=
  let js := s.pke.running.toList ++ s.pke.suspended
  { s with pke := { s.pke.wipe js with
      running := none, suspended := [], aborted := s.pke.aborted ++ js.map (fun j => { j with left := j.total }) } }

/-- One microsecond after the dip: each aborted job restarts, in its original order (R367). -/
def State.pkeSettled (s : State) : State :=
  let js := s.pke.aborted
  let s := { s with pke := { s.pke with aborted := [], queue := js ++ s.pke.queue } }
  (s.forEach js (fun s j => s.pkeFlag 2 j.rtag)).pkeNext

/-! ### The end of a job (R360 to R366) -/

/-- The offsets of a descriptor's fields. -/
def jobField : PkeField → Nat
  | .op => 0 | .alg => 1 | .flags => 2 | .msg => 0x0C | .key => 0x20 | .sig => 0x24 | .out => 0x38

/-- The inputs of a job: bytes that lie in the Culvert window come with the end of the job. -/
def PkeJob.inputs (j : PkeJob) (s : State) (msg key sig : List Byte) : PkeIn :=
  { op := j.op, alg := j.alg, digest := bitAt j.flags 0, eph := bitAt j.flags 1, kreg := j.kreg, slot := j.slot, outSlot := j.outSlot,
    msg := s.fetchBytes j.inp (if j.op ≤ 2 then j.inLen else 0) msg,
    key := s.fetchBytes j.key (if j.op = 2 || j.op = 3 then j.keyLen else 0) key,
    sig := s.fetchBytes j.sig (if j.op = 2 then j.sigLen else 0) sig,
    room := if j.op = 1 then j.sigLen else j.outLen }

/-- The poison detail of a job's inputs on chip. -/
def State.pkePoison (s : State) (j : PkeJob) : Option Nat :=
  let chip := fun (a n : Nat) => if a < cxlBase && n ≠ 0 then (s.firstPoison a n).map (fun o => poisonDetail (a + o)) else none
  (if j.op ≤ 2 then chip j.inp j.inLen else none)
  <|> (if j.op = 2 || j.op = 3 then chip j.key j.keyLen else none)
  <|> (if j.op = 2 then chip j.sig j.sigLen else none)

/-- What the decoder finds of a job's inputs in on-chip SRAM (R188). -/
def State.pkeDecode (s : State) (j : PkeJob) (ecc : List EccHit) : State :=
  let s := s.doIf (j.op ≤ 2) (fun s => s.eccSpan j.inp j.inLen ecc)
  let s := s.doIf (j.op = 2 || j.op = 3) (fun s => s.eccSpan j.key j.keyLen ecc)
  s.doIf (j.op = 2) (fun s => s.eccSpan j.sig j.sigLen ecc)

/-- PKE_JOB_DONE: the running job's runs end. `fault` says that they differ or an invariant failed: the job restarts
once, and ends with INTERNAL the second time. The caller raises the tamper responses (R362). -/
def State.pkeJobDone (s : State) (fault : Bool) (msg key sig : List Byte) (ecc : List EccHit) : State × Option Nat :=
  match s.pke.running with
  | none => (s, none)
  | some j =>
    if fault then
      let s := (s.addF F.PKE_FAULTS_COUNT 1).pkeFlag 0 j.rtag
      if j.faults = 0 then ({ s with pke := { s.pke with running := some { j with faults := 1, left := j.total } } }, some 2)
      else ((({ s with pke := { s.pke with running := none } }).pkeEnd j St.internal 0 0 0).pkeNext, some 3)
    else
      let s := { s with pke := { s.pke with running := none } }
      let i := j.inputs s msg key sig
      let s := s.pkeDecode j ecc
      let stop := stopIf (j.kreg && j.owner ≠ 0xFFFF) (.state 0) <|> i.check s
      match s.pkePoison j with
      | some d => ((s.pkeEnd j St.memoryPoison 0 0 d).pkeNext, none)
      | none =>
        match stop with
        | some x => let (st, d) := x.code jobField; ((s.pkeEnd j st 0 0 d).pkeNext, none)
        | none =>
        match s.slotPoison (i.slotsRead s) with
        | some d => ((s.pkeEnd j St.memoryPoison 0 0 d).pkeNext, none)
        | none =>
          let (ok, out, s) := i.run s
          let s := if j.op = 1 then s.storeBytes j.sig out else s.storeBytes j.out out
          ((s.pkeEnd j St.done ok out.length 0).pkeNext, none)

/-- PKE_CRING_HEAD_WRITE: Aeduf advances HEAD; waiting completions are written, and the engine starts again. -/
def State.pkeDrain : Nat → State → State
  | 0, s => s
  | n + 1, s =>
    match s.pke.waiting with
    | d :: t => if s.pkeFull then s else State.pkeDrain n ({ s with pke := { s.pke with waiting := t } }.pkePut d)
    | [] => s

def execPkeCringHeadWrite (head : BitVec 16) (s : State) : Res :=
  let s := s.setF F.PKE_CRING_IDX_HEAD head.toNat
  .next (State.pkeDrain s.pke.waiting.length s).pkeNext

/-- The engine takes no further job: a host command replies BUSY (R363, R367). -/
def pkeBusy (s : State) : Option Reply :=
  refuse (s.fb F.PKE_STS_QUIESCED || !s.fb F.PKE_CTL_EN) (coded St.busy Dt.none 0)
  <|> refuse (decide (16 ≤ s.pke.queue.length)) (coded St.busy Dt.none 0)

end Sys2Proof.Machine
end

