-- ==== Sys2Proof/Machine/KeyCmds.lean ====
section
/-! DEFINITION. The key commands of family 0x03 but CMD_KEY_ROLLOVER, and CMD_ATT_CERT (R237, R240, R338, R341). -/

namespace Sys2Proof.Machine

/-! ### The slot view (Tables FPX-7 and FPX-8) -/

def KeySlot.ctlWord (k : KeySlot) : Nat :=
  k.state * 2 ^ 29 + b2n k.rollPend * 2 ^ 28 + b2n k.fold * 2 ^ 27 + b2n k.warned * 2 ^ 26
    + (if k.state = Ks.draining then k.grace % 256 else 0) * 2 ^ 16 + k.alg * 2 ^ 12
def State.succWord (s : State) (k : KeySlot) : Nat := b2n (s.armed k) * 2 ^ 31 + k.succ.getD 0

/-- The eleven words of the view of a slot. -/
def State.slotView (s : State) (i : Nat) : List Nat :=
  let k := s.ks i
  let two := fun (v : Nat) => [v % 2 ^ 32, v / 2 ^ 32]
  [k.ctlWord, k.id, s.succWord k] ++ two k.use ++ two k.limit ++ two k.warn ++ two k.roll

/-- The permission every key command but CMD_KEY_SLOT_READ needs. -/
def officer : Held → State → Option Nat := needs 0x100

/-- The slot is in one of the states, or the command is refused with STATE. -/
def slotIn (s : State) (i : Nat) (sts : List Nat) : Option Reply := refuse (!decide ((s.ks i).state ∈ sts)) (badState i)

/-! ### Loading and deriving -/

def specKeyLoad : CmdSpec where
  opc := 0x0301
  dom := fun _ => some dKeys
  need := officer
  len := fun h => lenFixed [(0, 2), (2, 1), (3, 1), (4, 4), (8, 2), (10, 1), (11, h.u 10 1)] h.len
  pre := fun h =>
    badSlot h 0
    <|> refuse (!algLoadable (h.u 2 1)) (badField 2)
    <|> badSlot h 8
    <|> refuse (decide (h.u 10 1 < 16) || decide (72 < h.u 10 1) || h.u 10 1 % 8 ≠ 0) (badField 10)
  check := fun h s =>
    let w := h.u 8 2
    slotIn s (h.u 0 2) [Ks.empty]
    <|> slotDead s w
    <|> refuse ((s.ks w).alg ≠ 14) (badState w)
    <|> slotIn s w [Ks.loaded, Ks.active]
    <|> refuse (decide ((s.ks w).limit ≤ (s.ks w).use)) ⟨St.keyExhausted, 0, []⟩
  objs := fun h => [.slot (h.u 0 2), .slot (h.u 8 2)]
  reads := fun h _ => [h.u 8 2]
  busy := fun h s => refuse (saltDrawn (h.u 2 1) && s.rngDown) (coded St.busy Dt.none 0)
  act := fun h s =>
    let alg := h.u 2 1
    let plain := Config.kwpUnwrap (s.ks (h.u 8 2)).material (sliceB h.params 11 (h.u 10 1))
    let s := s.useSlot (h.u 8 2)
    let n := algBytes alg
    match plain with
    | none => .done (badField 11) s
    | some p =>
      if p.length ≠ n + (if alg = 2 || alg = 3 then 12 else 0) then .done (badField 11) s
      else .done (.ok []) (s.loadSlot (h.u 0 2) alg (bitAt (h.u 3 1) 0) (p.take n) (p.drop n) (h.u 4 4))

/-- CMD_KEY_LOAD. -/
def execCmdKeyLoad (sl : Slot) (s : State) : Res := runCmd specKeyLoad sl s

/-- The SHARED slot a LABEL names. -/
def labelSlot (h : Held) : Nat := beAt h.params 10 2 % 32768

def specKeyDerive : CmdSpec where
  opc := 0x0302
  dom := fun _ => some dKeys
  need := officer
  len := fun h => lenFixed [(0, 2), (2, 1), (3, 1), (4, 4), (8, 1), (9, h.u 8 1)] h.len
  pre := fun h =>
    badSlot h 0
    <|> refuse (!algLoadable (h.u 2 1)) (badField 2)
    <|> refuse (decide (h.u 8 1 < 1) || decide (64 < h.u 8 1) || (h.u 9 1 = 1 && decide (h.u 8 1 < 3))) (badField 8)
    <|> refuse (decide (1 < h.u 9 1)) (badField 9)
  check := fun h s =>
    slotIn s (h.u 0 2) [Ks.empty]
    <|> refuse (h.u 9 1 = 1 && !(s.ks (labelSlot h)).shared) (badField 9)
    <|> refuse (h.u 9 1 = 0 && s.root.isNone) (coded St.tamperLockout Dt.none 0)
  objs := fun h => .slot (h.u 0 2) :: (if h.u 9 1 = 1 then [.slot (labelSlot h)] else [])
  reads := fun h _ => if h.u 9 1 = 1 then [labelSlot h] else []
  busy := fun h s =>
    refuse (s.keys.work.isSome || s.keys.kdf.isSome || (saltDrawn (h.u 2 1) && s.rngDown)) (coded St.busy Dt.none 0)
  act := fun h s =>
    let alg := h.u 2 1
    let fromSlot := h.u 9 1 = 1
    let key := if fromSlot then (s.ks (labelSlot h)).material else s.root.getD []
    let label := ascii "PW1024 USER " ++ sliceB h.params (if fromSlot then 12 else 10) (h.u 8 1 - (if fromSlot then 3 else 1))
    let out := kdf key (label ++ [0] ++ (if fromSlot then [] else s.rootContext)) (algBytes alg)
    let s := if fromSlot then s.emptySlot (labelSlot h) else s
    let (m, t, s) := s.splitKey alg out
    .done (.ok []) (s.loadSlot (h.u 0 2) alg (bitAt (h.u 3 1) 0) m t (h.u 4 4))

/-- CMD_KEY_DERIVE. -/
def execCmdKeyDerive (sl : Slot) (s : State) : Res := runCmd specKeyDerive sl s

/-! ### Slot states -/

def specKeyActivate : CmdSpec where
  opc := 0x0303
  dom := fun _ => some dKeys
  need := officer
  len := fun h => lenFixed [(0, 2)] h.len
  pre := fun h => badSlot h 0
  check := fun h s => slotIn s (h.u 0 2) [Ks.loaded]
  objs := fun h => [.slot (h.u 0 2)]
  act := fun h s => .done (.ok []) (s.wakeSlot (h.u 0 2))

/-- CMD_KEY_ACTIVATE. -/
def execCmdKeyActivate (sl : Slot) (s : State) : Res := runCmd specKeyActivate sl s

def specKeyArm : CmdSpec where
  opc := 0x0305
  dom := fun _ => some dKeys
  need := officer
  len := fun h => lenFixed [(0, 2), (2, 2)] h.len
  pre := fun h => badSlot h 0 <|> badSlot h 2
  check := fun h s =>
    slotIn s (h.u 0 2) [Ks.active, Ks.loaded]
    <|> slotIn s (h.u 2 2) [Ks.loaded]
    <|> refuse ((s.ks (h.u 0 2)).rollPend) (badState (h.u 0 2))
    <|> refuse ((s.ks (h.u 2 2)).rollPend) (badState (h.u 2 2))
  objs := fun h => [.slot (h.u 0 2), .slot (h.u 2 2)]
  act := fun h s => .done (.ok []) (s.setKs (h.u 0 2) { s.ks (h.u 0 2) with succ := some (h.u 2 2) })

/-- CMD_KEY_ARM. -/
def execCmdKeyArm (sl : Slot) (s : State) : Res := runCmd specKeyArm sl s

def specKeyLimit : CmdSpec where
  opc := 0x0306
  dom := fun _ => some dKeys
  need := officer
  len := fun h => lenFixed [(0, 2), (8, 8), (16, 8)] h.len
  pre := fun h =>
    badSlot h 0 <|> refuse (h.u 8 8 = 0) (badField 8) <|> refuse (decide (h.u 8 8 < h.u 16 8)) (badField 16)
  check := fun h s => slotIn s (h.u 0 2) [Ks.loaded]
  objs := fun h => [.slot (h.u 0 2)]
  act := fun h s => .done (.ok []) (s.setKs (h.u 0 2) { s.ks (h.u 0 2) with limit := h.u 8 8, warn := h.u 16 8 })

/-- CMD_KEY_LIMIT. -/
def execCmdKeyLimit (sl : Slot) (s : State) : Res := runCmd specKeyLimit sl s

def specKeyDelete : CmdSpec where
  opc := 0x0307
  dom := fun _ => some dKeys
  need := officer
  len := fun h => lenFixed [(0, 2)] h.len
  pre := fun h => badSlot h 0
  check := fun h s => slotIn s (h.u 0 2) [Ks.exhausted]
  objs := fun h => [.slot (h.u 0 2)]
  act := fun h s =>
    let s := { s with keys := { s.keys with rolls := s.keys.rolls.filter (fun r => r.old ≠ h.u 0 2) } }
    .done (.ok []) (s.emptySlot (h.u 0 2))

/-- CMD_KEY_DELETE. -/
def execCmdKeyDelete (sl : Slot) (s : State) : Res := runCmd specKeyDelete sl s

/-- Commands that hold a zeroized slot and have not yet made their effect end with KEY_ZEROIZED (R237, R348). -/
def State.endHolders (s : State) (p : Nat → Bool) : State :=
  let isCiq := fun (w : Waiting) => match w.wait with | .ciq _ => true | _ => false
  let hs := s.cul.waits.filter (fun w => !isCiq w && w.objs.any (fun o => match o with | .slot n => p n | _ => false))
  s.forEach hs (fun s w => s.finishWait w.cmd ⟨St.keyZeroized, 0, []⟩)

/-- Slots are zeroized: jobs, requests and commands that use them end, and their material is overwritten. -/
def State.zeroizeSlots (s : State) (l : List Nat) : State :=
  let p := fun (i : Nat) => decide (i ∈ l) && (s.ks i).state ≠ Ks.zeroized
  let s := (s.pkeZeroized p).ciqZeroized p
  let s := s.forEach l State.zeroSlot
  s.endHolders p

def specKeyZeroize : CmdSpec where
  opc := 0x0308
  dom := fun _ => some dKeys
  need := officer
  len := fun h => lenFixed [(0, 2), (2, 2)] h.len
  pre := fun h => badSlot h 0 <|> refuse (h.u 2 2 = 0 || decide (32768 < h.u 2 2)) (badField 2)
  never := true
  act := fun h s =>
    let l := rangeFrom (h.u 0 2) (min (h.u 2 2) (32768 - h.u 0 2))
    let n := (l.filter (fun i => (s.ks i).state ≠ Ks.zeroized)).length
    let s := s.zeroizeSlots l
    .done (.ok (toLe 2 n)) (if n = 0 then s else s.raise keyEvt 5 (h.u 0 2 + dat 2 n))

/-- CMD_KEY_ZEROIZE. -/
def execCmdKeyZeroize (sl : Slot) (s : State) : Res := runCmd specKeyZeroize sl s

def specKeyClear : CmdSpec where
  opc := 0x0309
  dom := fun _ => some dKeys
  need := officer
  len := fun h => lenFixed [(0, 2)] h.len
  pre := fun h => badSlot h 0
  check := fun h s => slotIn s (h.u 0 2) [Ks.zeroized]
  objs := fun h => [.slot (h.u 0 2)]
  act := fun h s => .done (.ok []) (s.emptySlot (h.u 0 2))

/-- CMD_KEY_CLEAR. -/
def execCmdKeyClear (sl : Slot) (s : State) : Res := runCmd specKeyClear sl s

def specKeySlotRead : CmdSpec where
  opc := 0x030A
  dom := fun _ => some dKeys
  need := needs 0x001
  sync := true
  len := fun h => lenFixed [(0, 2)] h.len
  pre := fun h => badSlot h 0
  objs := fun h => [.slot (h.u 0 2)]
  reads := fun h _ => [h.u 0 2]
  act := fun h s => .done (.ok ((s.slotView (h.u 0 2)).flatMap (toLe 4))) s

/-- CMD_KEY_SLOT_READ. -/
def execCmdKeySlotRead (sl : Slot) (s : State) : Res := runCmd specKeySlotRead sl s

/-! ### The identity certificate (R343, R344) -/

def specAttCert : CmdSpec where
  opc := 0x0902
  need := needsNone
  len := fun h => lenFixed [(0, 8)] h.len
  bufs := [(0, true)]
  check := fun h s =>
    refuse (s.fb F.KEY_ROOT_STS_REGEN) (badState 0) <|> h.short 0 s.keys.idCert.length
  act := fun h s => .done (.ok (toLe 4 s.keys.idCert.length)) (s.putBuf h 0 s.keys.idCert)

/-- CMD_ATT_CERT. -/
def execCmdAttCert (sl : Slot) (s : State) : Res := runCmd specAttCert sl s

end Sys2Proof.Machine
end

