-- ==== Sys2Proof/Machine/NvOps.lean ====
section
/-! DEFINITION. The NV array: sectors, the journal, remapping, and the operations of the controller up to their end
(R380 to R392). -/

namespace Sys2Proof.Machine

/-! ### Sectors (Table NVA-1) -/

/-- What a logical sector is for. -/
inductive NvArea where
  | factory | journal | imageA | imageB | cfgA | cfgB | apps | records | mailbox | badTable | data | spare
deriving DecidableEq, Repr

def nvArea (sec : Nat) : NvArea :=
  if sec < 16 then .factory else if sec < 32 then .journal else if sec < 544 then .imageA else if sec < 1056 then .imageB
  else if sec < 1568 then .cfgA else if sec < 2080 then .cfgB else if sec < 3096 then .apps else if sec < 3104 then .records
  else if sec < 3120 then .mailbox else if sec < 3136 then .badTable else if sec < 4032 then .data else .spare

/-- Sectors that Aeduf changes. -/
def State.aedufMay (s : State) (sec : Nat) : Bool :=
  match nvArea sec with
  | .imageA => s.nv.booted ≠ 0
  | .imageB => s.nv.booted ≠ 1
  | .cfgA | .cfgB | .apps | .records | .mailbox | .data => true
  | _ => false

/-- Sectors that host commands change (R245). -/
def hostMay (sec : Nat) : Bool := nvArea sec = .mailbox || nvArea sec = .data

/-- The write-protect bit of a sector (R386). -/
def State.nvProt (s : State) (sec : Nat) : Bool := bitAt (s.rd (R.NVA_WPROT (sec / 32))).toNat (sec % 32)

def State.setProt (s : State) (sec : Nat) : State :=
  let a := R.NVA_WPROT (sec / 32)
  s.wr a (s.rd a ||| BitVec.ofNat 32 (2 ^ (sec % 32)))

/-! ### Bytes of the array -/

/-- The physical sector of a logical one (R389). -/
def State.nvPhys (s : State) (sec : Nat) : Nat := Tbl.get id s.nv.remap sec

/-- The 16 bytes of a journal record (Table NVA-2). -/
def JRec.bytes (r : JRec) : List Byte :=
  let b := toLe 1 r.kind ++ [0] ++ toLe 2 r.sector ++ toLe 4 r.seq ++ toLe 2 r.arg ++ [0, 0]
  b ++ toLe 4 (crc32 b).toNat

/-- The place of a record in the journal ring: records follow each other from index 0. -/
def JRec.place (r : JRec) : Nat := (r.seq + 4095) % 4096

/-- The byte at an NV byte offset: of the array, or of the journal's records. -/
def State.nvByte (s : State) (a : Nat) : Byte :=
  if nvArea (a / 4096) = .journal then
    match s.nv.journal.find? (fun r => r.place = (a - 65536) / 16) with
    | some r => byteAt r.bytes (a % 16)
    | none => 0xFF
  else Tbl.get (fun _ => 0xFF) s.nv.bytes (s.nvPhys (a / 4096) * 4096 + a % 4096)

def State.nvRead (s : State) (a n : Nat) : List Byte := (rangeFrom a n).map s.nvByte

/-- Bytes put into the array. -/
def nvPut (m : Tbl Byte) : Nat → List Byte → Tbl Byte
  | _, [] => m
  | a, b :: t => nvPut (Tbl.set (fun _ => 0xFF) m a b) (a + 1) t

/-- Bytes programmed at an NV byte offset, sector by sector. -/
def State.nvWrite (s : State) (a : Nat) (bs : List Byte) : State :=
  s.forEach (List.range (ceilDiv (a % 4096 + bs.length) 4096)) (fun s i =>
    let lo := if i = 0 then 0 else 4096 * i - a % 4096
    let n := if i = 0 then 4096 - a % 4096 else 4096
    let off := if i = 0 then a % 4096 else 0
    { s with nv := { s.nv with bytes := nvPut s.nv.bytes (s.nvPhys (a / 4096 + i) * 4096 + off) ((bs.drop lo).take n) } })

/-- A sector erased. -/
def State.nvErase (s : State) (sec : Nat) : State :=
  let p := s.nvPhys sec
  { s with nv := { s.nv with bytes := Tbl.clear s.nv.bytes (fun a => decide (a / 4096 = p)) } }

/-- The word at an NV byte offset is erased (R382). -/
def State.nvErased (s : State) (a : Nat) : Bool := (s.nvRead (a / 8 * 8) 8).all (· = 0xFF)

/-! ### The journal (R387, R388) -/

def jIntent : Nat := 1
def jDone : Nat := 2
def jRemap : Nat := 3

/-- Every intent of a journal sector has been followed by its done record. -/
def journalClean (l : List JRec) (js : Nat) : Bool :=
  (l.filter (fun r => r.place / 256 = js && r.kind = jIntent)).all (fun r =>
    l.any (fun d => d.kind = jDone && d.sector = r.sector && decide (r.seq < d.seq)))

/-- A record is programmed; the journal sector after the head sector is kept erased. -/
def State.journal (s : State) (kind sector arg : Nat) : State :=
  let r : JRec := ⟨kind, sector, s.nv.jseq + 1, arg⟩
  let next := (r.place / 256 + 1) % 16
  let l := r :: s.nv.journal
  let l := if journalClean l next then l.filter (fun x => x.place / 256 ≠ next) else l
  ({ s with nv := { s.nv with journal := l, jseq := r.seq } }).setF F.NVA_JOURNAL_HEAD r.place

/-- An erase under the journal. -/
def State.nvEraseJ (s : State) (sec : Nat) : State := ((s.journal jIntent sec 0).nvErase sec).journal jDone sec 0

/-! ### Operations (R382 to R384, R391) -/

/-- Words and sectors an operation works through. -/
def NvOp.units (o : NvOp) : Nat := (if o.erase then o.count else 0) + (if o.program then ceilDiv o.data.length 8 else 0)

/-- Sectors an operation touches. -/
def NvOp.sectors (o : NvOp) : List Nat :=
  rangeFrom o.sector (max (if o.erase then o.count else 0) (if o.program then ceilDiv (8 * o.first + o.data.length) 4096 else 0))

/-- The NV byte offset of a unit of an operation: the sector, or the word. -/
def NvOp.addr (o : NvOp) (i : Nat) : Nat :=
  let e := if o.erase then o.count else 0
  if i < e then (o.sector + i) * 4096 else o.sector * 4096 + 8 * o.first + 8 * (i - e)

/-- The effect of units `from_` to `to_` (not including it) of an operation. -/
def State.nvUnits (s : State) (o : NvOp) (from_ to_ : Nat) : State :=
  let e := if o.erase then o.count else 0
  let s := s.forEach ((List.range e).filter (fun i => decide (from_ ≤ i) && decide (i < to_))) (fun s i =>
    let s := (s.nvErase (o.sector + i)).journal jDone (o.sector + i) 0
    if i + 1 < e then s.journal jIntent (o.sector + i + 1) 0 else s)
  if !o.program || to_ ≤ e then s
  else
    let lo := max from_ e - e
    s.nvWrite (o.sector * 4096 + 8 * o.first + 8 * lo) ((o.data.take (8 * (to_ - e))).drop (8 * lo))

/-- DATA of an NV event: logical sector, NV address. -/
def State.nvFlag (s : State) (bit sector addr : Nat) : State := s.raise nvaEvt bit (sector + dat 4 addr)

/-- An operation has ended with a status (R394). -/
def State.nvResult (s : State) (status sector addr : Nat) : State :=
  let s := ({ s with nv := { s.nv with op := none } }).setF F.NVA_STATUS_BUSY 0
  let s := s.setF F.NVA_STATUS_RESULT status
  let s := if status = St.done then s else s.setF F.NVA_FAIL_ADDR_ADDR addr
  (s.nvFlag 0 sector addr).irqAll 51

/-- The word of a program that is not erased: its NV address (R382). -/
def State.progBlocked (s : State) (o : NvOp) : Option Nat :=
  if o.program && !o.erase && o.done = 0 then
    ((List.range (ceilDiv o.data.length 8)).map (fun i => o.sector * 4096 + 8 * o.first + 8 * i)).find? (fun a => !s.nvErased a)
  else none

/-! ### Remapping (R389, R390) -/

/-- Spares left. -/
def State.sparesLeft (s : State) : Nat := 64 - s.nv.sparesUsed.length

/-- A word of the bad-sector table is a valid entry: LOGICAL, SPARE, and the CRC-32 of both. -/
def badEntry (w : List Byte) : Bool := !w.all (· = 0xFF) && leAt w 4 4 = (crc32 (w.take 4)).toNat

/-- The controller takes up the bad-sector table: every entry valid in either copy is programmed into the copy that lacks it,
and maps its sector; of entries with one LOGICAL the last wins (R389). -/
def State.badLoad (s : State) : State :=
  s.forEach (List.range 64) (fun s i =>
    let a := 3120 * 4096 + 8 * i
    let b := 3128 * 4096 + 8 * i
    let wa := s.nvRead a 8
    let wb := s.nvRead b 8
    if !badEntry wa && !badEntry wb then s
    else
      let w := if badEntry wa then wa else wb
      let s := (s.doIf (!badEntry wa) (·.nvWrite a w)).doIf (!badEntry wb) (·.nvWrite b w)
      let sp := leAt w 2 2
      { s with nv := { s.nv with remap := Tbl.set id s.nv.remap (leAt w 0 2) sp,
                                 sparesUsed := if sp ∈ s.nv.sparesUsed then s.nv.sparesUsed else sp :: s.nv.sparesUsed } })

/-- NVA_SPARE as read. -/
def State.nvSpare (s : State) : Word := BitVec.ofNat 32 (s.sparesLeft * 65536 + s.nv.remap.length)

/-- The prior contents of a sector that an operation under RESTORE has kept. -/
def NvOp.priorOf (o : NvOp) (sec : Nat) : List Byte := sliceB o.prior (4096 * (sec - o.sector)) 4096

/-- The sectors of an operation read again what they held before it: those that hold neither that nor all ones are
erased under the journal first (R392). -/
def State.nvRestore (s : State) (o : NvOp) : State :=
  s.forEach o.sectors (fun s x =>
    let now := s.nvRead (x * 4096) 4096
    let was := o.priorOf x
    if now = was then s
    else
      let s := if now.all (· = 0xFF) then s else s.nvEraseJ x
      s.nvWrite (x * 4096) was)

/-- A sector that failed twice is replaced by the lowest unused spare (R390). -/
def State.nvRemap (s : State) (o : NvOp) (sec addr : Nat) : State :=
  match (rangeFrom 4032 64).find? (fun x => !decide (x ∈ s.nv.sparesUsed)) with
  | none => s.nvFlag 5 sec addr
  | some sp =>
    let entry := toLe 2 sec ++ toLe 2 sp
    let word := entry ++ toLe 4 (crc32 entry).toNat
    let n := 8 * s.nv.sparesUsed.length
    let s := s.journal jRemap sec sp
    let s := (s.nvWrite (3120 * 4096 + n) word).nvWrite (3128 * 4096 + n) word
    let s := { s with nv := { s.nv with remap := Tbl.set id s.nv.remap sec sp, sparesUsed := sp :: s.nv.sparesUsed } }
    let s := s.nvEraseJ sec
    let s := if o.restore then s.nvWrite (sec * 4096) (o.priorOf sec) else s
    let s := s.nvFlag 3 sec addr
    s.doIf (decide (s.nv.sparesUsed.length > 56)) (fun s => s.nvFlag 4 sec addr)

/-! ### Device records (R381) -/

/-- The image of one copy of the device records after its SEQ: key entries, credential, and the bytes up to 0x1DAC that
stay erased. -/
def recordBody (keys : Tbl (Option OpKey)) (cred : Option (List Byte)) : List Byte :=
  (List.range 64).flatMap (fun i =>
      match Tbl.get (fun _ => none) keys i with
      | some k => toLe 1 k.role ++ [0] ++ toLe 2 i ++ fitB 97 k.pub ++ fitB 11 []
      | none => fitB 112 [])
    ++ (match cred with
        | some c => toLe 2 261 ++ fitB 6 [] ++ fitB 261 c
        | none => fitB 8 [] ++ List.replicate 261 0xFF)
    ++ List.replicate 96 0xFF

/-- One copy of the device records. -/
def recordCopy (keys : Tbl (Option OpKey)) (cred : Option (List Byte)) (seq : Nat) : List Byte :=
  let b := recordBody keys cred
  ascii "PWDR" ++ toLe 2 1 ++ [0, 0] ++ sha384 b ++ toLe 8 seq ++ b

/-- The sector at which the copy of a SEQ begins: copies alternate. -/
def recordSector (seq : Nat) : Nat := if seq % 2 = 1 then 3096 else 3100

/-- A copy as it stands in the array is valid (R381); its SEQ. -/
def State.recordValid (s : State) (sec : Nat) : Option Nat :=
  let c := s.nvRead (sec * 4096) 0x1DAD
  let q := leAt c 0x38 8
  if c.take 4 = ascii "PWDR" && leAt c 4 2 = 1 && q ≠ 0 && q ≠ 2 ^ 64 - 1 && sliceB c 8 48 = sha384 (c.drop 0x40) then some q else none

/-- The operation that writes the records with their next SEQ into the copy with the lower one. -/
def State.recordOp (s : State) (keys : Tbl (Option OpKey)) (cred : Option (List Byte)) (user : NvUser) (eff : NvEff) : NvOp :=
  { erase := true, program := true, sector := recordSector (s.nv.recSeq + 1), first := 0, count := 4, restore := false,
    data := recordCopy keys cred (s.nv.recSeq + 1), prior := [], done := 0, dipped := false, refused := false, user := user, eff := eff }

/-- The staging buffer under RESTORE (R391): the sectors of an erase, or the data of a program and then its sector. -/
def State.stageIn (s : State) (o : NvOp) : State :=
  let m := s.nv.staging
  { s with nv := { s.nv with staging := if o.erase then memPut m 0 o.prior else memPut (memPut m 0 o.data) 0x1000 o.prior } }

/-- The controller takes an operation up: the device records are laid out as they then stand, prior
contents are kept under RESTORE, and the first erase is journaled. -/
def State.nvBegin (s : State) (o : NvOp) : State :=
  let o := match o.eff with
    | .opKey i k => s.recordOp (Tbl.set (fun _ => none) s.nv.opKeys i k) s.twin.cred o.user o.eff
    | _ => o
  let o := { o with prior := if o.restore then o.sectors.flatMap (fun x => s.nvRead (x * 4096) 4096) else [],
                    refused := o.sectors.any s.nvProt }
  let s := (({ s with nv := { s.nv with op := some o } }).setF F.NVA_STATUS_BUSY 1).setF F.NVA_STATUS_DIP 0
  let s := if o.restore && !o.refused then s.stageIn o else s
  if o.erase && !o.refused then s.journal jIntent o.sector 0 else s

/-- An operation is started, or waits its turn (R384). -/
def State.nvStart (s : State) (o : NvOp) : State :=
  let s := s.domWake dNva
  if s.nv.op.isSome then { s with nv := { s.nv with queue := s.nv.queue ++ [o] } } else s.nvBegin o

/-- The next operation that waits is taken up. -/
def State.nvNext (s : State) : State :=
  if s.nv.op.isSome then s
  else match s.nv.queue with
    | o :: t => ({ s with nv := { s.nv with queue := t } }).nvBegin o
    | [] => s

/-- The records changed at once, for changes that Aeduf makes on its own. -/
def State.recordWrite (s : State) (keys : Tbl (Option OpKey)) (cred : Option (List Byte)) : State :=
  let o := s.recordOp keys cred .reg .none
  let s := (s.journal jIntent o.sector 0).nvUnits o 0 o.units
  { s with nv := { s.nv with recSeq := s.nv.recSeq + 1, opKeys := keys }, twin := { s.twin with cred := cred } }

end Sys2Proof.Machine
end

