-- ==== Sys2Proof/Machine/CfgImage.lean ====
section
/-! DEFINITION. Configuration images: their form, and the set an image decodes to (R263 to R265). -/

namespace Sys2Proof.Machine

/-- A directory entry (Table CFG-2). -/
structure DirEnt where
  typ : Nat
  sver : Nat
  off : Nat
  slen : Nat
  count : Nat
deriving DecidableEq, Repr

/-- NSEC, LENGTH and the directory of an image. -/
def imgNsec (b : List Byte) : Nat := leAt b 6 2
def imgLength (b : List Byte) : Nat := leAt b 8 4
def imgDir (b : List Byte) : List DirEnt :=
  (List.range (imgNsec b)).map (fun i =>
    let o := 64 + 16 * i
    { typ := leAt b o 1, sver := leAt b (o + 2) 2, off := leAt b (o + 4) 4, slen := leAt b (o + 8) 4, count := leAt b (o + 12) 4 })

/-- The bytes of a section. -/
def imgSection (b : List Byte) (t : Nat) : Option (List Byte) :=
  ((imgDir b).find? (·.typ = t)).map (fun d => (b.drop d.off).take d.slen)

/-- Records of a fixed size. -/
def recordsOf (size : Nat) (b : List Byte) : List (List Byte) := (List.range (b.length / size)).map (fun i => sliceB b (size * i) size)

/-- Words of a record. -/
def wordsAt (b : List Byte) (o n : Nat) : List Word := (List.range n).map (fun i => BitVec.ofNat 32 (leAt b (o + 4 * i) 4))

/-- The fixed record size of a section and the counts it takes (Table CFG-3); none for SLUICES. -/
def sectionRule (t : Nat) : Option (Nat × Nat × Nat) :=
  match t with
  | 1 => some (32, 1, 1)
  | 2 => some (64, 1, 1)
  | 3 => some (16, 32, 32)
  | 4 => some (32, 0, 256)
  | 5 => some (32, 0, 2 ^ 32)
  | 7 => some (132, 0, 4096)
  | 8 => some (8192, 1, 1)
  | 9 => some (32, 0, 2 ^ 32)
  | 10 => some (16, 0, 256)
  | 11 => some (8, 1, 1)
  | 12 => some (100, 1, 1)
  | _ => none

/-- The SLUICES records of a section, as many as COUNT; none where they do not fill it exactly. -/
def sluicesOf : Nat → List Byte → Option (List SluRec)
  | 0, b => if b = [] then some [] else none
  | n + 1, b =>
    let nent := leAt b 5 1
    let size := 16 + 8 * nent
    if b.length < size then none
    else
      let r : SluRec := { key := leAt b 0 4, dir := leAt b 4 1, cfg := BitVec.ofNat 32 (leAt b 8 4), budget := BitVec.ofNat 32 (leAt b 12 4),
                          ents := (List.range nent).map (fun i => (BitVec.ofNat 32 (leAt b (16 + 8 * i) 4), BitVec.ofNat 32 (leAt b (20 + 8 * i) 4))) }
      (sluicesOf n (b.drop size)).map (r :: ·)

/-- The form of a KEY (R264). -/
def keyForm (k : Nat) : Bool :=
  if bitAt k 31 then k = 2 ^ 31 + bitsOf k 24 5 * 2 ^ 24 + bitsOf k 0 12 else decide (k < 32)

/-- KEY of an extended port. -/
def extKey (lane ecid : Nat) : Nat := 2 ^ 31 + lane * 2 ^ 24 + ecid

/-- Strictly rising numbers. -/
def rising : List Nat → Bool
  | a :: b :: t => decide (a < b) && rising (b :: t)
  | _ => true

/-- The records of a section are well formed and in order (R264). -/
def sectionForm (t count : Nat) (b : List Byte) : Bool :=
  match t with
  | 5 => let ks := (recordsOf 32 b).map (fun r => leAt r 0 4); ks.all keyForm && rising ks
  | 6 => match sluicesOf count b with
    | some rs => rs.all (fun r => keyForm r.key && decide (r.dir ≤ 1) && bitsOf r.cfg.toNat 0 7 = r.ents.length)
        && rising (rs.map (fun r => 2 * r.key + r.dir))
    | none => false
  | 7 => let is := (recordsOf 132 b).map (fun r => leAt r 0 2); is.all (· < 4096) && rising is
  | _ => true

/-- Step 1 of Table CFG-4: header, directory and record counts well formed, within the bytes at hand. -/
def imageForm (b : List Byte) : Bool :=
  let d := imgDir b
  let n := imgNsec b
  b.take 4 = ascii "PWCF" && leAt b 4 2 = 1 && decide (1 ≤ n) && decide (n ≤ 12) && decide (64 + 16 * n ≤ imgLength b)
    && decide (imgLength b ≤ b.length) && rising (d.map (·.typ))
    && d.all (fun e => e.sver = 1 && decide (1 ≤ e.typ) && decide (e.typ ≤ 12) && e.off % 4 = 0 && decide (64 + 16 * n ≤ e.off)
          && decide (e.off + e.slen ≤ imgLength b))
    && (d.zip (d.drop 1)).all (fun x => decide (x.1.off + x.1.slen ≤ x.2.off))
    && d.all (fun e =>
          (match sectionRule e.typ with
           | some (size, lo, hi) => e.count * size = e.slen && decide (lo ≤ e.count) && decide (e.count ≤ hi)
           | none => true)
          && sectionForm e.typ e.count ((b.drop e.off).take e.slen))

/-- A STATIC record as a Grove entry (R264). -/
def staticOf (r : List Byte) : GrvEntry :=
  let eg := leAt r 28 2
  { GrvEntry.empty with
    mtch := r.take 22 ++ [0, 0], action := leAt r 22 1, tc := leAt r 23 1, flags := leAt r 24 2 &&& 0x1D8 ||| 7, keySlot := leAt r 26 2,
    egress := b2n (bitAt eg 15) * 2 ^ 31 + b2n (bitAt eg 14) * 2 ^ 30 + eg % 4096, counter := leAt r 30 2 }

/-- The set that a well-formed image holds, with its sequence number. -/
def setOfImage (b : List Byte) (seq : Nat) : CfgSet :=
  let sec := fun (t : Nat) => (imgSection b t).getD []
  let dev := imgSection b 2
  { seq := seq
    digest := sha384 (b.take (imgLength b))
    len := imgLength b
    gac := (imgSection b 1).map (fun r => wordsAt r 0 6)
    device := dev.map (fun r => wordsAt r 0 7)
    evmap := (dev.map (fun r => sliceB r 28 16)).getD []
    idle := match dev with | some r => leAt r 44 4 | none => 3000
    policy := match dev with | some r => leAt r 48 4 | none => 0
    lanes := (recordsOf 16 (sec 3)).map (fun r => wordsAt r 0 3)
    trust := recordsOf 32 (sec 4)
    ports := (recordsOf 32 (sec 5)).map (fun r => ⟨leAt r 0 4, wordsAt r 4 7⟩)
    sluices := (sluicesOf (((imgDir b).find? (·.typ = 6)).map (·.count) |>.getD 0) (sec 6)).getD []
    portsets := (recordsOf 132 (sec 7)).foldl (fun t r => Tbl.set (fun _ => 0) t (leAt r 0 2) (leNat (sliceB r 4 128))) []
    flood := (List.range ((sec 8).length / 2)).foldl (fun t v => Tbl.set (fun _ => 0xFFFF) t v (leAt (sec 8) (2 * v) 2)) []
    statics := (recordsOf 32 (sec 9)).map staticOf
    allow := (recordsOf 16 (sec 10)).map (fun r => (leAt r 0 2 % 4096, leAt r 2 1, beAt r 4 6))
    alarm := (sec 11).take 8
    raw := (imgDir b).map (fun e => (e.typ, (b.drop e.off).take e.slen)) }

/-! ### The settings a set gives -/

/-- The registers of the GAC and DEVICE records, in order. -/
def gacRegs : List Nat := [R.GAC_CTL, R.GAC_MREF_OFS 0, R.GAC_MREF_OFS 1, R.GAC_MREF_OFS 2, R.GAC_RELOCK_DF, R.GAC_PPS_CTL]
def deviceRegs : List Nat := [R.GRV_CTL, R.CPS_CTL, R.SWP_CTL, R.SWP_SRAM_RATE, R.SWP_CXL_RATE, R.CAL_KAT_CTL, R.EXT_HOLD]
def laneRegs (k : Nat) : List Nat := [R.LNE_LANE_CTL k, R.SLU_MM_CTL k, R.CAL_LANE_CTL k]
def portRegs (p : Nat) : List Nat :=
  [R.LNE_PORT_CTL p, R.LNE_PORT_PCPMAP p, R.LNE_PORT_ADM p, R.LNE_PORT_HOST p, R.LNE_PORT_VID p, R.FPX_SECY_CTL p, R.CAL_DELAY_ASYM p]

/-- The values of a group of registers: those of its record, or the reset values. -/
def groupVals (rec : Option (List Word)) (regs : List Nat) : List Word :=
  match rec with | some ws => ws | none => regs.map regReset

def CfgSet.gacVals (c : CfgSet) : List Word := groupVals c.gac gacRegs
def CfgSet.deviceVals (c : CfgSet) : List Word := groupVals c.device deviceRegs
def CfgSet.laneVals (c : CfgSet) (k : Nat) : List Word := groupVals (c.lanes[k]?) (laneRegs k)

def CfgSet.laneCtl (c : CfgSet) (k : Nat) : Nat := ((c.laneVals k).getD 0 0).toNat
def CfgSet.ext (c : CfgSet) (k : Nat) : Bool := bitAt (c.laneCtl k) 30
def CfgSet.mode (c : CfgSet) (k : Nat) : Nat := modeOf (bitsOf (c.laneCtl k) 27 3)
def CfgSet.fec (c : CfgSet) (k : Nat) : Nat := fecOf (bitsOf (c.laneCtl k) 25 2)
def CfgSet.grvCtl (c : CfgSet) : Nat := (c.deviceVals.getD 0 0).toNat

/-- The record of a KEY. -/
def CfgSet.port (c : CfgSet) (key : Nat) : Option (List Word) := (c.ports.find? (·.key = key)).map (·.regs)

/-- The settings of a port record as a context takes them; an E-CID that the set does not name takes the lane's
extended-port defaults with OOS 1 (R140). -/
def CfgSet.portVals (c : CfgSet) (key p : Nat) : List Word :=
  match c.port key with
  | some ws => ws
  | none =>
    if bitAt key 31 then
      let d := groupVals (c.port (key / 4096 * 4096)) (portRegs p)
      d.set 0 (d.getD 0 0 ||| 0x80000000)
    else (portRegs p).map regReset

/-- The SLUICES record of a key and direction. -/
def CfgSet.sluice (c : CfgSet) (key : Nat) (tx : Bool) : Option SluRec := c.sluices.find? (fun r => r.key = key && r.dir = b2n tx)
def CfgSet.budget (c : CfgSet) (key : Nat) (tx : Bool) : Nat := match c.sluice key tx with | some r => r.budget.toNat | none => 0

/-- The KEY of a port of the device as its context is bound. -/
def State.keyOf (s : State) (p : Nat) : Nat := if p < 32 then p else extKey (s.ctx p).lane (s.ctx p).ecid

end Sys2Proof.Machine
end

