-- ==== Sys2Proof/Machine/TwinOps.lean ====
section
/-! DEFINITION. The twin link: when it is up, sending a twin message, and the READY of commands with TWIN (R277 to R285). -/

namespace Sys2Proof.Machine

/-- The states of Table TWN-4. -/
def twAlone : Nat := 0
def twPairing : Nat := 1
def twLead : Nat := 2
def twFollow : Nat := 3

/-- A twin lane is UP. -/
def State.twinLaneUp (s : State) : Bool := s.fb F.TWN_LINK_STS_TL0 || s.fb F.TWN_LINK_STS_TL1

/-- The link is up: a lane is UP and the session is keyed (R277). -/
def State.twinUp (s : State) : Bool := s.twinLaneUp && s.fb F.TWN_LINK_STS_KEYED

/-- The devices agree in version (R283). -/
def State.twinVer (s : State) : Bool := s.fb F.TWN_STATUS_AGREE_VER

/-- The payload of a twin message: SUBTYPE, VER, MSG, FLAGS and SEQ, big-endian (R7, R279), then the body of Table TWN-2. -/
def twinPayload (msg seq : Nat) (body : List Byte) : List Byte := [5, 1] ++ toBe 1 msg ++ [0] ++ toBe 4 seq ++ body

/-- A twin message leaves on both lanes. -/
def State.twinSend (s : State) (msg : Nat) (body : List Byte) : State :=
  let n := s.twin.txSeq
  ({ s with twin := { s.twin with txSeq := (n + 1) % 2 ^ 32 } }).emit (.twin (twinPayload msg n body))

def mHello : Nat := 1
def mTime : Nat := 2
def mReplay : Nat := 3
def mReady : Nat := 4
def mRole : Nat := 5
def mLeadState : Nat := 6

/-- The bytes of a schedule (Table TWN-6), and the schedule that bytes hold. -/
def schedBytes (x : PldSched) : List Byte :=
  toBe 4 x.group ++ toBe 4 x.oldId ++ toBe 4 x.newId ++ toBe 8 x.cycle ++ toBe 1 x.grace ++ toBe 1 (b2n x.fold) ++ [0, 0]
def schedAt (b : List Byte) (o : Nat) : PldSched :=
  { group := beAt b o 4, oldId := beAt b (o + 4) 4, newId := beAt b (o + 8) 4, cycle := beAt b (o + 12) 8 % 2 ^ 40,
    grace := beAt b (o + 20) 1, fold := bitAt (beAt b (o + 21) 1) 0 }

/-- The HELLO that a body holds (Table TWN-2). -/
def helloOf (b : List Byte) : Hello :=
  { role := beAt b 0 1, rank := beAt b 1 4, ver := beAt b 5 4, step := beAt b 9 1, cfgSeq := beAt b 10 8, cfgDigest := sliceB b 18 48,
    keyDigest := sliceB b 66 48, id := sliceB b 114 48 }

/-- A command with TWIN is refused while the link is down or versions disagree (R285). -/
def State.twinRefuse (s : State) : Bool := !s.twinUp || !s.twinVer

/-- Before 180 degrees of cycle N - 2. -/
def State.twinInTime (s : State) (n : Nat) : Bool :=
  decide (s.cycle + 2 < n) || (s.cycle + 2 = n && decide (s.angle < 0x800000))

/-- The peer's READY for a command has come, and the devices agree in configuration (R285). -/
def State.twinMatched (s : State) (r : Ready) : Bool := decide (r ∈ s.twin.readies) && s.fb F.TWN_STATUS_AGREE_CFG

/-- The command takes up its READY. -/
def State.twinTake (s : State) (r : Ready) : State := { s with twin := { s.twin with readies := s.twin.readies.filter (· ≠ r) } }

def State.sendReady (s : State) (r : Ready) : State := s.twinSend mReady (toBe 2 r.opc ++ toBe 8 r.cycle ++ fitB 48 r.digest)

end Sys2Proof.Machine
end

