-- ==== Sys2Proof/Machine/CfgOps.lean ====
section
/-! DEFINITION. Staging, committing and swapping configuration sets (R90, R178, R265 to R274, R478). -/

namespace Sys2Proof.Machine

/-! ### The rules of the sections (Table CFG-4, step 4) -/

/-- A field of a word that is not in its register. -/
def inWord (f : Fld) (w : Word) : Nat := bitsOf w.toNat f.lo f.w

/-- The port that a KEY is bound to. -/
def State.boundTo (s : State) (key : Nat) : Option Nat :=
  if key < 32 then some key
  else (s.ctxs.find? (fun e => (e.2.st = ctxAssigned || e.2.st = ctxHeld) && e.2.lane = bitsOf key 24 5 && e.2.ecid = key % 4096)).map (·.1)

/-- LNE_PORT_CTL as a set gives it to a port. -/
def State.ctlIn (s : State) (c : CfgSet) (p : Nat) : Word := (c.portVals (s.keyOf p) p).getD 0 0

/-- The pair rules of R66 for a port with a control word, by the contexts bound now (R478). -/
def State.pairOk (s : State) (c : CfgSet) (me : Nat) (ctl : Word) : Bool :=
  let red := redundOf ctl
  let q := inWord (F.LNE_PORT_CTL_PARTNER 0) ctl
  let there := if q < 32 then !c.ext q else ((s.ctx q).st = ctxAssigned || (s.ctx q).st = ctxHeld)
  let w := s.ctlIn c q
  red = 0 || (there && inWord (F.LNE_PORT_CTL_PARTNER 0) w = me && redundOf w = red
    && inWord (F.LNE_PORT_CTL_RED_B 0) w ≠ inWord (F.LNE_PORT_CTL_RED_B 0) ctl)

/-- A static entry as its record gives it satisfies R60 and R103. -/
def staticRule (r : List Byte) : Bool :=
  let fl := leAt r 24 2
  decide (leAt r 22 1 ≤ 3) && !(leAt r 23 1 % 8 = 7 && !bitAt fl 1) && !(bitAt fl 3 && bitAt fl 4) && (!bitAt fl 8 || bitAt fl 6)

/-- Cells that a set reserves on a lane (R70). -/
def CfgSet.laneReserve (c : CfgSet) (k : Nat) : Nat :=
  let mc := fun (key : Nat) => inWord (F.LNE_PORT_ADM_MIN_CELLS 0) ((c.portVals key 0).getD 2 0)
  if c.ext k then
    let named := (c.ports.filter (fun r => bitAt r.key 31 && bitsOf r.key 24 5 = k && r.key % 4096 ≠ 0)).map (fun r => mc r.key)
    let top := (named.mergeSort (fun a b => decide (b ≤ a))).take 128
    top.foldl (· + ·) 0 + (128 - top.length) * mc (extKey k 0)
  else mc k

/-- The width of an entry (R146). -/
def entWidths (es : Sched) : List ((Word × Word) × Nat) :=
  let starts := (es.drop 1).map entStart ++ [16777216]
  (es.zip starts).map (fun x => (x.1, x.2 - entStart x.1))

/-- A SLUICES record satisfies R79, R82, R145 and R146. -/
def sluiceRule (r : SluRec) : Bool :=
  let ws := entWidths r.ents
  let cl := ws.filter (fun x => entClearing x.1)
  decide (r.ents.length ≤ 64) && (match r.ents with | [] => true | e :: _ => entStart e = 0)
    && (r.ents.zip (r.ents.drop 1)).all (fun x => decide (entStart x.1 + 128 ≤ entStart x.2))
    && ws.all (fun x => decide (128 ≤ x.2))
    && (cl = [] || (r.dir = 1 && decide (r.key < 32) && decide (cl.length ≤ 4) && cl.all (fun x => decide (235 ≤ x.2) && decide (x.2 ≤ 1342))))

/-- The floor of each sensor's response (Table TMP-1), in sensor order. -/
def alarmFloor (i : Nat) : Nat := bitsOf 0x00920002 (3 * i) 3

/-- Step 4 of Table CFG-4. -/
def State.setRules (s : State) (c : CfgSet) : Bool :=
  let recs := fun (t n : Nat) => recordsOf n (((c.raw.find? (·.1 = t)).map (·.2)).getD [])
  (recs 9 32).all staticRule && decide (c.statics.length ≤ 65536)
    && c.ports.all (fun r =>
        if bitAt r.key 31 && r.key % 4096 = 0 then true
        else match s.boundTo r.key with
          | some me => s.pairOk c me (r.regs.getD 0 0)
          | none => true)
    && decide (((List.range 32).map c.laneReserve).foldl (· + ·) 0 ≤ 32768)
    && c.sluices.all sluiceRule
    && (List.range 32).all (fun k => !(c.ext k && c.mode k = 1) && (c.fec k = 0 || c.mode k = 4))
    && (c.alarm = [] || (List.range 8).all (fun i =>
        let l := (byteAt c.alarm i).toNat
        decide (l ≤ 4) && decide (alarmFloor i ≤ l)))
    && c.allow.all (fun a => decide (a.2.1 ≤ 48))
    && (decide (50 ≤ c.idle) && decide (c.idle ≤ 2 ^ 20))

/-! ### Steps 3 and 5 to 8 -/

/-- The operator key of an index (R238). -/
def State.opKey (s : State) (i : Nat) : Option OpKey := Tbl.get (fun _ => none) s.nv.opKeys i

/-- The signature of an image (R265): present and good, present and bad, or absent. -/
def State.imgSigned (s : State) (img : List Byte) : Option Bool :=
  match (imgDir img).find? (·.typ = 12) with
  | none => none
  | some d =>
    let r := (img.drop d.off).take 100
    some (match s.opKey (leAt r 0 2) with
      | some k => k.role = 4 && verifies 2 k.pub (img.take d.off) (sliceB r 4 96)
      | none => false)

/-- The first static entry whose key slot is EMPTY or ZEROIZED (step 5). -/
def State.badStatic (s : State) (c : CfgSet) : Option Nat :=
  (c.statics.filterMap (·.slot)).find? (fun i => (s.ks i).state = Ks.empty || (s.ks i).state = Ks.zeroized)

/-- The lane of the port a KEY names; E-CID 0 holds defaults and names none. -/
def keyLane (key : Nat) : Option Nat :=
  if bitAt key 31 then (if key % 4096 = 0 then none else some (bitsOf key 24 5)) else some key

/-- The nominal byte-time of a lane in a set, ps (Table SLU-1). -/
def CfgSet.byteTime (c : CfgSet) (k : Nat) : Nat := match c.mode k with | 0 | 1 => 8000 | 2 => 3200 | 3 => 800 | _ => 320

/-- The first lane and direction whose Dike budgets exceed R90, as the qualifier of BUDGET_EXCEEDED. Where several do, the
model names the lowest lane, and of its directions ingress first; R90 does not say which (DESIGN CHOICE, log entry 57). -/
def CfgSet.overBudget (c : CfgSet) : Option Nat :=
  let hz := if bitAt ((c.gacVals.getD 0 0).toNat) F.GAC_CTL_NOM.lo then 60 else 50
  ((List.range 32).flatMap (fun k => [(k, 0), (k, 1)])).findSome? (fun x =>
    let sum := ((c.sluices.filter (fun r => r.dir = x.2 && keyLane r.key = some x.1)).map (·.budget.toNat)).foldl (· + ·) 0
    if 10 ^ 12 / (4 * hz * c.byteTime x.1) < sum then some (x.2 * 32768 + x.1) else none)

/-- BKT_LOG2 of a set as it acts. -/
def CfgSet.bktLog2 (c : CfgSet) : Nat := kOf (bitsOf c.grvCtl 16 5)
def CfgSet.il2 (c : CfgSet) : Bool := bitAt c.grvCtl 1

/-- Lanes whose MODE, FEC or EXT two sets act on differently (R127). -/
def changedLanes (a b : CfgSet) : List Nat :=
  (List.range 32).filter (fun k => a.mode k ≠ b.mode k || a.fec k ≠ b.fec k || a.ext k ≠ b.ext k)

/-- Ports a drain of a lane affects (Table CFG-5). -/
def State.affected (s : State) (k : Nat) : List Nat := k :: s.ctxsOf k [ctxAssigned, ctxHeld]

/-- A Dike port in service in the active set (R271). -/
def State.dikeInService (s : State) (p : Nat) : Bool :=
  let c := s.cfg.active
  let key := s.keyOf p
  (c.budget key false ≠ 0 || c.budget key true ≠ 0) && inWord (F.LNE_PORT_CTL_OOS 0) (s.ctlIn c p) = 0

/-! ### The shadow in Copse (R178) -/

/-- The configured part of an entry: all but VERSION and the frame state. -/
def GrvEntry.conf (e : GrvEntry) : GrvEntry :=
  { e with flags := putBits e.flags 5 1 0, version := 0, replayBase := 0, replayWin := 0, seqBase := 0, seqLast := 0, seqWin := 0 }

/-- The pinned entry of a key that the set in force serves. -/
def State.pinnedNow (s : State) (key : List Byte) : Option CpsWay :=
  (s.ways.find? (fun e => e.2.entry.mkey = key && e.2.st = .pinned && e.2.serves s.cfg.epoch)).map (·.2)

/-- The entry stands in Copse already as the set gives it. -/
def State.sameStatic (s : State) (e : GrvEntry) : Bool :=
  match s.pinnedNow e.mkey with | some w => decide (w.entry.conf = e.conf) | none => false

/-- Pinned entries after the swap to a set. -/
def State.pinnedAfter (s : State) (c : CfgSet) : Nat :=
  (s.ways.filter (fun e => e.2.st = .pinned && e.2.serves s.cfg.epoch && !e.2.entry.static
      && !c.statics.any (fun x => x.mkey = e.2.entry.mkey))).length + c.statics.length

/-- Every SHADOW entry freed, and the shadow banks cleared (R267). -/
def State.dropShadow (s : State) : State :=
  let s := s.mapWays (fun w => if w.st = .shadow then none else some w)
  { s with slu := { s.slu with shd := [], shdRegs := [] }, cfg := { s.cfg with shadow := none } }

/-- The new and changed static entries placed as SHADOW; none where one finds no place. -/
def State.placeShadow (s : State) : List GrvEntry → Option State
  | [] => some s
  | e :: es =>
    if s.sameStatic e then s.placeShadow es
    else match s.placeWay (mkWay s .shadow e none) with
      | some s => s.placeShadow es
      | none => none

/-- A register of the double-banked Sluice group (R94). -/
def isSluBank (a : Nat) : Bool :=
  decide (0x200000 ≤ a) && decide (a < 0x400000) && decide (0x80 ≤ a % 0x800) && decide (a % 0x800 < 0x90)

def State.shdRd (s : State) (a : Nat) : Word := Tbl.get regReset s.slu.shdRegs a
def State.shdWr (s : State) (a : Nat) (v : Word) : State := { s with slu := { s.slu with shdRegs := Tbl.set regReset s.slu.shdRegs a v } }

/-- The Sluice settings of a KEY and direction in a set: CFG, BUDGET and schedule. -/
def CfgSet.sluVals (c : CfgSet) (key : Nat) (tx : Bool) : Word × Word × Sched :=
  match c.sluice key tx with | some r => (r.cfg &&& 0x8000007F, r.budget, r.ents) | none => (0, 0, [])

def sluBudget (p : Nat) (tx : Bool) : Nat := if tx then R.SLU_TX_BUDGET p else R.SLU_RX_BUDGET p

/-- The shadow banks of a port take a set. -/
def State.fillBank (s : State) (c : CfgSet) (p : Nat) : State :=
  s.forEach [false, true] (fun s tx =>
    let v := c.sluVals (s.keyOf p) tx
    let s := (s.shdWr (sluCfg p tx) v.1).shdWr (sluBudget p tx) v.2.1
    { s with slu := { s.slu with shd := Tbl.set (fun _ => []) s.slu.shd (dirKey p tx) v.2.2 } })

/-- Ports that a set writes: the direct ports and the contexts bound. -/
def State.boundPorts (s : State) : List Nat :=
  List.range 32 ++ (s.ctxs.filter (fun e => e.2.st = ctxAssigned || e.2.st = ctxHeld)).map (·.1)

/-! ### Staging -/

/-- The target slot: the one that does not hold the active set; A on defaults (R268, R274). -/
def State.targetSlot (s : State) : Nat := if s.fb F.CFG_STATUS_DEFAULTS then 0 else 1 - s.f F.CFG_STATUS_SLOT
def slotSector (n : Nat) : Nat := if n = 0 then 1056 else 1568
def slotSeqReg (n : Nat) : Nat := if n = 0 then R.CFG_SEQ_A_LO else R.CFG_SEQ_B_LO

def nvErase_ (sec n : Nat) (u : NvUser) : NvOp :=
  { erase := true, program := false, sector := sec, first := 0, count := n, restore := false, data := [], prior := [], done := 0,
    dipped := false, refused := false, user := u, eff := .none }

/-- Sectors that an image needs (R268). -/
def imgSectors (len : Nat) : Nat := ceilDiv (len + 128) 4096

/-- CFG_STATUS shows the shadow (Table CFG-8). -/
def State.showShadow (s : State) : State :=
  let sh := match s.cfg.shadow with
    | none => (0, 0, 0)
    | some x => (if x.drain then 2 else 1, 1, x.holder)
  let code := if s.cfg.commit.isSome || s.cfg.drain.isSome then 3 else sh.1
  ((s.setF F.CFG_STATUS_SHADOW code).setF F.CFG_STATUS_HELD sh.2.1).setF F.CFG_STATUS_HOLDER sh.2.2

/-- R239, R272: staging while a commit or a drain runs. -/
def State.commitPending (s : State) : Bool := s.cfg.commit.isSome || s.cfg.drain.isSome

/-- The shadow is held by another session. -/
def State.shadowLocked (s : State) (h : Held) : Option Reply :=
  match s.cfg.shadow with
  | some x => refuse (x.holder ≠ h.session) (coded St.locked Dt.held x.holder)
  | none => none

/-- Steps 1 to 8 of Table CFG-4 on an image named by the PARAMS field at `q`; `must` where a signature is mandatory. -/
def State.stageCheck (s : State) (img : List Byte) (q : Nat) (drain must : Bool) : Option Reply :=
  if !imageForm img then some (badField q)
  else
    let c := setOfImage img (s.cfg.active.seq + 1)
    let lanes := changedLanes s.cfg.active c
    let il2 := c.il2 ≠ s.cfg.active.il2
    let bkt := c.bktLog2 ≠ s.cfg.active.bktLog2
    refuse (decide (2097024 < imgLength img)) (coded St.badParam Dt.tableFull 0)
    <|> (match s.imgSigned img with
         | some true => none
         | some false => some (coded St.badParam Dt.signature 0)
         | none => refuse (must || bitAt s.cfg.active.policy 0) (coded St.badParam Dt.signature 0))
    <|> refuse (!s.setRules c) (badField q)
    <|> (s.badStatic c).map badState
    <|> (c.overBudget).map (fun x => coded St.badParam Dt.budget x)
    <|> refuse (decide (4 * 2 ^ c.bktLog2 * 9 < (s.validLines s.region).length * 10)) (coded St.badParam Dt.tableFull 0)
    <|> refuse ((lanes ≠ [] || il2 || bkt) && !drain) (coded St.nonAtomic Dt.none 0)
    <|> refuse ((lanes.flatMap s.affected).any s.dikeInService) (coded St.nonAtomic Dt.dikePort 0)

/-- Stage an image (R266 to R268). -/
def State.stage (s : State) (h : Held) (img : List Byte) (q : Nat) (must : Bool) (card : Option Nat) : CmdRes :=
  let drain := bitAt h.flags 1
  match s.stageCheck img q drain must with
  | some r => .done r s
  | none =>
    let c := setOfImage img (s.cfg.active.seq + 1)
    if decide (65536 < s.pinnedAfter c) then .done (coded St.badParam Dt.pinLimit 0) s
    else match s.dropShadow.placeShadow c.statics with
      | none => .done (coded St.badParam Dt.pinConflict 0) s
      | some t =>
        let t := t.forEach t.boundPorts (fun s p => s.fillBank c p)
        let il2 : Bool := c.il2 ≠ s.cfg.active.il2
        let bkt : Bool := c.bktLog2 ≠ s.cfg.active.bktLog2
        let sh : Shadow := ⟨c, drain, h.session, changedLanes s.cfg.active c, il2, bkt, h.buf 0, card⟩
        let t := { t with cfg := { t.cfg with shadow := some sh } }
        let t := ({ t with
          nv := { t.nv with queue := t.nv.queue.filter (fun (o : NvOp) => o.user ≠ NvUser.cfgErase) } }).showShadow
        let t := t.wr64 (slotSeqReg t.targetSlot) 0
        .done (.ok (toLe 8 c.seq ++ c.digest)) (t.nvStart (nvErase_ (slotSector t.targetSlot) (imgSectors c.len) .cfgErase))

/-! ### Discarding and committing (R267, R269) -/

def State.cfgFlag (s : State) (bit seq cycle : Nat) : State := s.raise cfgEvt bit (seq + dat 8 cycle)

/-- The commit ends without effect; the shadow stays staged (R269). -/
def State.commitFail (s : State) (r : Reply) : State :=
  let s := (({ s with cfg := { s.cfg with commit := none } }).showShadow).wr64 R.CFG_PEND_CYCLE_LO 0
  s.forEach (s.waitsFor (· = .commit)) (fun s h => s.finishWait h r)

/-- The program of the body has been asked for. -/
def State.commitProgram (s : State) : State :=
  match s.cfg.commit, s.cfg.shadow with
  | some c, some sh =>
    if c.asked then s
    else if s.nv.queue.any (·.user = .cfgErase) || (match s.nv.op with | some o => o.user = .cfgErase | none => false) then s
    else if c.image = [] then s.commitFail (coded St.badParam Dt.digest 0)
    else
      let s := { s with cfg := { s.cfg with commit := some { c with asked := true } } }
      s.nvStart { nvErase_ (slotSector s.targetSlot) 0 .cfgBody with erase := false, program := true, first := 16, data := c.image.take sh.set.len }
  | _, _ => s

/-- The buffer of the staged image can still be read (R269); one that came from the field mailbox is held by Aeduf. -/
def State.bufReadable (s : State) (sh : Shadow) : Bool :=
  sh.card.isSome || sh.buf.2 = 0 || (s.cul.bme && s.fb F.CUL_WIN_CTL_EN && !outside s.winBytes sh.buf)

/-- The steps of R269 begin. -/
def State.commitStart (s : State) (n : Nat) (image : List Byte) : State :=
  match s.cfg.shadow with
  | some sh =>
    let img := if s.bufReadable sh then image else []
    let s := { s with cfg := { s.cfg with commit := some { cycle := n, image := img, asked := false, body := false, recorded := false } } }
    (s.showShadow.wr64 R.CFG_PEND_CYCLE_LO n).commitProgram
  | none => s

/-- Aeduf stops the NV work of a set that is discarded. -/
def State.dropShadowAll (s : State) : State :=
  let s := if s.cfg.commit.isSome then s.commitFail (badState 0) else s
  ({ s.dropShadow with nv := { s.nv with queue := s.nv.queue.filter (fun (o : NvOp) => o.user ≠ NvUser.cfgBody) } }).showShadow

/-- The commit record already stands in NV (R270). -/
def State.recorded (s : State) : Bool := match s.cfg.commit with | some c => c.recorded | none => false

/-- A session that closes discards its shadow, unless the record stands (R237, R270). -/
def State.sessionShadow (s : State) (i : Nat) : State :=
  match s.cfg.shadow with
  | some sh =>
    if sh.holder = i && !s.recorded && s.cfg.drain.isNone then
      (s.dropShadowAll).cfgFlag 3 sh.set.seq 0
    else s
  | none => s

/-- The commit record (Table CFG-6). -/
def commitRecord (n : Nat) (c : CfgSet) : List Byte :=
  ascii "PWCR" ++ toLe 2 1 ++ [0, 0] ++ toLe 8 n ++ toLe 4 c.len ++ [0, 0, 0, 0] ++ fitB 48 c.digest ++ toLe 8 c.seq

/-- Step 3 of R269: the record is programmed, or the commit fails. -/
def State.commitRecordStep (s : State) : State :=
  match s.cfg.commit, s.cfg.shadow with
  | some c, some sh =>
    if c.recorded then s
    else if !c.body then s.commitFail (coded St.badParam Dt.cycle 0)
    else if sha384 (c.image.take sh.set.len) ≠ sh.set.digest then s.commitFail (coded St.badParam Dt.digest 0)
    else
      let s := s.nvWrite (slotSector s.targetSlot * 4096) (commitRecord c.cycle sh.set)
      let s := { s with cfg := { s.cfg with commit := some { c with recorded := true } } }
      s.wr64 (slotSeqReg s.targetSlot) sh.set.seq
  | _, _ => s

end Sys2Proof.Machine
end

