-- ==== Sys2Proof/Machine/SessOps.lean ====
section
/-! DEFINITION. The close of a session (R213, R218, R237). -/

namespace Sys2Proof.Machine

/-- Sessions open. -/
def State.openSessions (s : State) : List (Nat × Session) := s.cul.sessions.filterMap (fun e => e.2.map (fun x => (e.1, x)))

/-- The AT_CYCLE commands of a session are cancelled (R213). -/
def State.cancelAtCycle (s : State) (i : Nat) : State :=
  let gone := s.cul.atCycle.filter (fun h => h.session = i)
  let s := { s with cul := { s.cul with atCycle := s.cul.atCycle.filter (fun (h : Held) => h.session ≠ i) } }
  s.forEach gone (fun s h => s.finish h (coded St.noAuthority Dt.cancelled 0) false)

/-- A session closes; every close but one by CMD_DEV_SESSION_CLOSE raises a session event with its reason (R218, R480). -/
def State.closeSession (s : State) (i : Nat) (reason : Option Nat) : State :=
  match s.session i with
  | none => s
  | some x =>
    let s := ((s.cancelAtCycle i).sessionShadow i).setSession i none
    match reason with
    | some r => s.postCode 13 0 3 (i + dat 1 x.ring + dat 2 r)
    | none => s

/-- Every session that satisfies a test closes. -/
def State.closeSessions (s : State) (p : Session → Bool) (reason : Nat) : State :=
  s.forEach (s.openSessions.filter (fun e => p e.2)) (fun s e => s.closeSession e.1 (some reason))

end Sys2Proof.Machine
end

