-- ==== Sys2Proof/Machine/CfgRows.lean ====
section
/-! DEFINITION. Configuration commands, the swap, drains, and the end of an NV operation (R178, R239, R268 to R275, R383,
R390 to R394, R478). -/

namespace Sys2Proof.Machine

/-! ### What a swap writes -/

/-- The word a register stores of the one written: a class 7 of LNE_PORT_PCPMAP is stored as 6 (R75), a limit of 0 of
GAC_RELOCK_DF as 1 (Table GAC-5). -/
def storedForm (a : Nat) (v : Word) : Word :=
  if decide (0x200000 ≤ a) && decide (a < 0x400000) && (a - 0x200000) % 0x800 = 4 then
    BitVec.ofNat 32 ((List.range 8).foldl (fun w k => if bitsOf w (3 * k) 3 = 7 then putBits w (3 * k) 3 6 else w) v.toNat)
  else if a = R.GAC_RELOCK_DF && bitsOf v.toNat 0 11 = 0 then v ||| 1
  else v

/-- Aeduf writes the writable bits of a register (R14). -/
def State.put (s : State) (a : Nat) (v : Word) : State :=
  match regDesc a with
  | some d => s.wr a (s.rd a &&& ~~~d.rw ||| storedForm a v &&& d.rw)
  | none => s

/-- A group of registers takes the values of a record. -/
def State.putAll (s : State) (l : List (Nat × Word)) : State := s.forEach l (fun s x => s.put x.1 x.2)

/-- The bits of LNE_LANE_CTL that no swap changes by itself: MODE, FEC and EXT (Table CFG-5). -/
def laneHold : Word := 0x7E000000

/-- SLU_MM_CTL has changed (R88): a lane stops preempting, starts its verification, or needs none any more. -/
def State.mmChange (s : State) (k : Nat) (was : Bool) : State :=
  let now := s.fb (F.SLU_MM_CTL_EN k)
  if was && !now then s.mmStop k
  else if !was && now && s.laneUp k then (s.mmLinkUp k).mmUnverified k
  else s.mmUnverified k

/-- A change of the enables of calibration tasks restarts the lane's order (R150). -/
def State.calChange (s : State) (k : Nat) (was : Word) : State :=
  let now := s.rd (R.CAL_LANE_CTL k)
  if now &&& 0x1F = was &&& 0x1F then s
  else s.setF (F.CAL_LANE_STS_NEXT k) (((List.range 5).find? (fun i => bitAt now.toNat i)).getD 0)

/-- The LANES record of a lane takes effect; `hold` where MODE, FEC and EXT wait for a drain. -/
def State.putLane (s : State) (c : CfgSet) (k : Nat) (hold : Bool) : State :=
  let v := c.laneVals k
  let mm := s.fb (F.SLU_MM_CTL_EN k)
  let cal := s.rd (R.CAL_LANE_CTL k)
  let ctl := v.getD 0 0
  let ctl := if hold then ctl &&& ~~~laneHold ||| s.rd (R.LNE_LANE_CTL k) &&& laneHold else ctl
  let s := (s.putAll [(R.LNE_LANE_CTL k, ctl), (R.SLU_MM_CTL k, v.getD 1 0), (R.CAL_LANE_CTL k, v.getD 2 0)]).laneEnable k
  (s.mmChange k mm).calChange k cal

/-- The PORTS record of a port or context takes effect (R123, R140, R264, R478). -/
def State.putPort (s : State) (c : CfgSet) (p : Nat) : State :=
  let v := c.portVals (s.keyOf p) p
  let ctl := v.getD 0 0
  let broken := decide (32 ≤ p) && !s.pairOk c p ctl
  let ctl := if broken then BitVec.ofNat 32 (putBits ctl.toNat 12 2 0) else ctl
  let ext := decide (p < 32) && s.isExt p
  let out := ext || (decide (32 ≤ p) && (s.ctx p).st ≠ ctxAssigned)
  let ctl := if out then ctl ||| 0x80000000 else ctl
  let s := s.putAll [(R.LNE_PORT_CTL p, ctl), (R.LNE_PORT_PCPMAP p, v.getD 1 0), (R.LNE_PORT_ADM p, v.getD 2 0),
    (R.LNE_PORT_HOST p, v.getD 3 0), (R.LNE_PORT_VID p, v.getD 4 0), (R.CAL_DELAY_ASYM p, v.getD 6 0)]
  let s := if 32 ≤ p then s
    else if ext then s.put (R.FPX_LANE_SECY_CTL p) (v.getD 5 0)
    else s.put (R.FPX_SECY_CTL p) (v.getD 5 0)
  s.doIf broken (·.extFlag 6 (s.portLane p) p)

/-- The Sluice banks of every port are exchanged (R94). -/
def State.swapBanks (s : State) : State :=
  let keys := ((s.regs.filter (fun e => isSluBank e.1)).map (·.1) ++ s.slu.shdRegs.map (·.1)).dedup
  let vals := keys.map (fun a => (a, s.rd a, s.shdRd a))
  let s := s.forEach vals (fun s x => (s.wr x.1 x.2.2).shdWr x.1 x.2.1)
  { s with slu := { s.slu with act := s.slu.shd, shd := s.slu.act } }

/-- The Sluice settings of a context as its binding gives them (R140). -/
def State.putSluice (s : State) (c : CfgSet) (p : Nat) : State :=
  s.forEach [false, true] (fun s tx =>
    let v := c.sluVals (s.keyOf p) tx
    let s := (s.wr (sluCfg p tx) v.1).wr (sluBudget p tx) v.2.1
    { s with slu := { s.slu with act := Tbl.set (fun _ => []) s.slu.act (dirKey p tx) v.2.2 } })

/-- The settings of a port that is bound, in full: at assignment and at a swap (R139, R140). -/
def State.bindPort (s : State) (c : CfgSet) (p : Nat) : State := (s.putPort c p).putSluice c p

/-- A static entry with the frame state of the entry it replaces (R178). -/
def GrvEntry.withState (e o : GrvEntry) : GrvEntry :=
  { e with flags := putBits e.flags 5 1 (b2n o.seqValid), replayBase := o.replayBase, replayWin := o.replayWin,
           seqBase := o.seqBase, seqLast := o.seqLast, seqWin := o.seqWin }

/-- The entry of a key that frames have met until now, in Copse or in Grove. -/
def State.oldEntry (s : State) (key : List Byte) : Option GrvEntry :=
  match s.copseNow key with
  | some (_, w) => if w.st = .negative then none else some w.entry
  | none => (s.findLine s.region key).map (·.2)

/-- The line of a key is emptied in both regions, for Grove holds none of a pinned key (R179). -/
def State.clearLine (s : State) (key : List Byte) : State :=
  s.forEach [0, 1] (fun s r => match s.findLine r key with | some (e, _) => s.writeLine r e GrvEntry.empty | none => s)

/-- SHADOW entries become PINNED, and the entries that they replace or that the set drops end (R178); none of them is written
back to Grove, which holds no line of a pinned key (R179). -/
def State.swapStatics (s : State) (c : CfgSet) : State :=
  let n := s.cfg.epoch + 1
  let news := s.ways.filter (fun e => e.2.st = .shadow)
  let keys := news.map (·.2.entry.mkey)
  let olds := news.map (fun e => (e.1, e.2, s.oldEntry e.2.entry.mkey))
  let s := s.mapWays (fun w =>
    if w.st = .shadow || !w.serves s.cfg.epoch then some w
    else if w.entry.mkey ∈ keys then some { w with upto := some n, line := none }
    else if w.st = .pinned && w.entry.static && !c.statics.any (fun x => x.mkey = w.entry.mkey) then some { w with upto := some n }
    else some w)
  let s := s.forEach olds (fun s x =>
    let e := match x.2.2 with | some o => x.2.1.entry.withState o | none => x.2.1.entry
    s.setWay x.1 (some { x.2.1 with st := .pinned, entry := e, since := n }))
  s.forEach keys (fun s k => s.clearLine k)

/-- The ALARM section as TMP_LEVEL (R398). -/
def CfgSet.tmpLevel (c : CfgSet) : Word :=
  if c.alarm = [] then regReset R.TMP_LEVEL
  else BitVec.ofNat 32 (((List.range 8).map (fun i => (byteAt c.alarm i).toNat % 8 * 2 ^ (3 * i))).foldl (· + ·) 0)

/-- Migration begins (Table GRV-8, R181): a new hash key, and the walk from bucket 0. -/
def State.startMigration (s : State) (k : Nat) : State :=
  if s.grvSt ≠ grvServing then s
  else
    let (hk, s) := s.drawBytes 16
    let r := 1 - s.region
    let s := { s with grv := { s.grv with newKey := beNat hk, mig := some { bucket := 0, toK := k, walked := false, due := false },
                                          lines := s.grv.lines.filter (fun e => e.1 / 2 ^ 24 ≠ r) } }
    s.enterGrv grvMigrating

/-- Every register outside the Sluice banks takes the value of a set. -/
def State.putSet (s : State) (c : CfgSet) (held : List Nat) (il2 : Bool) : State :=
  let s := s.putAll (gacRegs.zip c.gacVals)
  let s := s.forEach (List.range 32) (fun s k => s.putLane c k (decide (k ∈ held)))
  let grv := c.deviceVals.getD 0 0
  let grv := if il2 then grv &&& ~~~(2 : Word) ||| s.rd R.GRV_CTL &&& 2 else grv
  let s := s.putAll (deviceRegs.zip (c.deviceVals.set 0 grv))
  let s := s.forEach (List.range 16) (fun s i =>
    s.wr (R.CUL_EVMAP i) (if c.evmap = [] then 0x80 else BitVec.ofNat 32 ((byteAt c.evmap i).toNat &&& 0xBF)))
  let s := s.forEach (List.range 32 ++ (s.ctxs.filter (fun e => e.2.st ≠ ctxFree)).map (·.1)) (fun s p => s.putPort c p)
  s.wr R.TMP_LEVEL c.tmpLevel

/-! ### The swap (R270, R272) -/

/-- The commit's command ends with DONE. -/
def State.commitDone (s : State) : State :=
  s.forEach (s.waitsFor (· = .commit)) (fun s h => s.finishWait h (.ok []))

/-- The swap of R270, `late` where the cycle was skipped. A change of BKT_LOG2 alone affects no port: its drain has nothing to
send, and ends as the migration begins (R181, R272). -/
def State.cfgSwap (s : State) (n : Nat) (sh : Shadow) (late : Bool) : State :=
  let c := sh.set
  let tgt := s.targetSlot
  let s := (s.putSet c sh.lanes sh.il2).gacReselect (s.rd R.GAC_CTL) true
  let s := s.swapBanks
  let s := s.forEach (s.boundPorts.filter (32 ≤ ·)) (fun s p => s.putSluice c p)
  let s := s.swapStatics c
  let dr := sh.lanes ≠ [] || sh.il2
  let older := ((s.cfg.epoch, s.cfg.active) :: s.cfg.older).filter (fun (x : Nat × CfgSet) => s.fp.frames.any (fun f => f.epoch = x.1))
  let s := { s with cfg := { s.cfg with older := older, active := c, epoch := s.cfg.epoch + 1, shadow := none, commit := none,
                                        drain := if dr then some ⟨1, sh.lanes, sh.il2⟩ else none } }
  let s := ((s.setF F.CFG_STATUS_SLOT tgt).setF F.CFG_STATUS_DEFAULTS 0).addF F.CFG_SWAPS_COUNT 1
  let s := (s.wr64 R.CFG_ACTIVE_SEQ_LO c.seq).setB F.CFG_STATUS_DRAIN dr
  let s := s.showShadow
  let s := s.cfgFlag 0 c.seq n
  let s := s.doIf late (·.cfgFlag 1 c.seq n)
  let s := s.doIf sh.bkt (·.startMigration c.bktLog2)
  let s := s.doIf (sh.bkt && !dr) (·.cfgFlag 2 c.seq n)
  if dr then s else (s.wr64 R.CFG_PEND_CYCLE_LO 0).commitDone

/-- The commit at angle 0 (R269, R270): the record at N - 1, the swap at N, both at once where a forward step skipped
them. -/
def State.cfgAtZero (s : State) : State :=
  match s.cfg.commit with
  | none => s
  | some c =>
    if s.cycle < c.cycle then s
    else
      let s := if c.recorded then s else s.commitRecordStep
      match s.cfg.commit, s.cfg.shadow with
      | some c, some sh => s.cfgSwap c.cycle sh (c.cycle ≠ s.cycle)
      | _, _ => s

/-- CFG_COMMIT_RECORD: at angle 0 of cycle N - 1 the body is checked and the record programmed. -/
def execCfgCommitRecord (s : State) : Res :=
  match s.cfg.commit with
  | some c => if s.cycle + 1 = c.cycle then .next s.commitRecordStep else .next s
  | none => .next s

/-! ### Drains (R272) -/

/-- EXT becomes 0: the lane's contexts go to QUARANTINED (Table LNE-11). -/
def State.extOff (s : State) (k : Nat) : State :=
  let s := s.forEach (s.ctxsOf k [ctxAssigned, ctxHeld]) (fun s p => s.setCtx p { s.ctx p with st := ctxQuarantined })
  s.setXt k Extender.none_

/-- The drained change of a lane: it leaves UP, takes MODE, FEC and EXT, and starts again. -/
def State.drainLane (s : State) (c : CfgSet) (k : Nat) : State :=
  let was := s.isExt k
  let s := s.laneDrop k
  let s := s.put (R.LNE_LANE_CTL k) (s.rd (R.LNE_LANE_CTL k) &&& ~~~laneHold ||| (c.laneVals k).getD 0 0 &&& laneHold)
  let s := s.doIf (was && !s.isExt k) (·.extOff k)
  s.forEach (k :: s.ctxsOf k [ctxAssigned, ctxHeld, ctxQuarantined]) (fun s p => s.putPort c p)

/-- Phase 3: the change of Table CFG-5 is applied, and the drain ends. -/
def State.drainApply (s : State) (d : Drain) : State :=
  let c := s.cfg.active
  let s := s.forEach d.lanes (fun s k => s.drainLane c k)
  let s := if d.il2 then (s.put R.GRV_CTL (c.deviceVals.getD 0 0)).grvRestart 0xFF else s
  let s := { s with cfg := { s.cfg with drain := none, waitUp := (s.cfg.waitUp ++ d.lanes).dedup } }
  let s := ((s.setF F.CFG_STATUS_DRAIN 0).showShadow).wr64 R.CFG_PEND_CYCLE_LO 0
  (s.cfgFlag 2 c.seq s.cycle).commitDone

/-- DRAIN_PHASE_END: the queues of the phase have emptied, or its 1,000 us have run out. -/
def execDrainPhaseEnd (s : State) : Res :=
  match s.cfg.drain with
  | none => .next s
  | some d =>
    if d.phase = 1 then .next (({ s with cfg := { s.cfg with drain := some { d with phase := 2 } } }).setF F.CFG_STATUS_DRAIN 2)
    else .next (s.drainApply d)

/-! ### The end of an NV operation (R383, R390 to R394) -/

/-- An NV operation that failed: sectors before the failing one are restored under RESTORE (R391). -/
def State.nvFailed (s : State) (o : NvOp) (u : Nat) : State :=
  let a := o.addr u
  let sec := a / 4096
  let s := (s.nvRemap o sec a).doIf o.restore (·.nvRestore o)
  (s.nvFlag 1 sec a).nvResult St.nvFail sec a

/-- The command that waits for an NV operation ends. -/
def State.nvHost (s : State) (ring idx : Nat) (r : Reply) : State :=
  s.forEach ((s.waitsFor (· = .nv)).filter (fun h => h.ring = ring && h.idx = idx)) (fun s h => s.finishWait h r)

/-- What the success of an operation makes (R238, R245). -/
def State.nvEffect (s : State) (o : NvOp) : State :=
  match o.eff with
  | .none => s
  | .opKey i k =>
    let s := { s with nv := { s.nv with recSeq := s.nv.recSeq + 1, opKeys := Tbl.set (fun _ => none) s.nv.opKeys i k } }
    if k.isNone then s.closeSessions (fun x => x.key = i) 5 else s
  | .image _ _ => s

/-- The end of an operation for whoever asked for it: STATUS, and the address it failed at. -/
def State.nvUserEnd (s : State) (o : NvOp) (status addr : Nat) : State :=
  let s := match o.user with
    | .reg => s
    | .host ring idx =>
      s.nvHost ring idx (match decide (status = St.done), o.eff with
        | true, .image slot digest => .ok (BitVec.ofNat 8 slot :: digest)
        | true, _ => .ok []
        | false, _ => if status = St.badParam then coded St.badParam Dt.protected_ (addr / 4096) else ⟨status, addr, []⟩)
    | .cfgErase =>
      if status = St.verifyAfterDip then s.doIf s.cfg.shadow.isSome (fun s => s.nvStart { o with done := 0, dipped := false })
      else if status = St.done then s.commitProgram
      else if s.cfg.commit.isSome then s.commitFail ⟨St.nvFail, addr, []⟩ else s
    | .cfgBody =>
      match s.cfg.commit, s.cfg.shadow with
      | some c, some sh =>
        if status = St.verifyAfterDip then
          ({ s with cfg := { s.cfg with commit := some { c with asked := false } } }).nvStart
            (nvErase_ (slotSector s.targetSlot) (imgSectors sh.set.len) .cfgErase)
        else if status ≠ St.done then s.commitFail ⟨St.nvFail, addr, []⟩
        else if sha384 (c.image.take sh.set.len) ≠ sh.set.digest then s.commitFail (coded St.badParam Dt.digest 0)
        else { s with cfg := { s.cfg with commit := some { c with body := true } } }
      | _, _ => s
  s.nvNext

/-- NV_OP_DONE: the operation in hand ends: verified, or failed at the unit given. -/
def execNvOpDone (fail : Option Nat) (s : State) : Res :=
  match s.nv.op with
  | none => .next s
  | some o =>
    if o.dipped || !s.domOn dNva then .next s
    else if o.refused then
      let x := (o.sectors.find? s.nvProt).getD o.sector
      .next (((s.nvFlag 7 x (x * 4096)).nvResult St.badParam x (x * 4096)).nvUserEnd o St.badParam (x * 4096))
    else match s.progBlocked o with
    | some a => .next ((s.nvResult St.progNotErased o.sector a).nvUserEnd o St.progNotErased a)
    | none =>
      match fail with
      | none =>
        let s := s.nvUnits o o.done o.units
        let a := o.addr (o.units - 1)
        let s := (s.nvResult St.done (a / 4096) a).nvEffect o
        .next (s.nvUserEnd o St.done 0)
      | some u =>
        let u := min (max o.done u) (o.units - 1)
        let a := o.addr u
        .next (((s.nvUnits o o.done u).nvFailed o u).nvUserEnd o St.nvFail a)

/-! ### Commands (Table CMD-6) -/

def specCfgStage : CmdSpec where
  opc := 0x0201
  need := needs Role.operator
  drain := true
  len := fun h => lenFixed [(0, 8)] h.len
  bufs := [(0, false)]
  objs := fun _ => [.shadow]
  busy := fun h s => s.shadowLocked h <|> refuse s.commitPending (coded St.busy Dt.commitPending 0)
  act := fun h s => s.stage h (h.inp 0 0) 0 false none

/-- CMD_CFG_STAGE. -/
def execCmdCfgStage (sl : Slot) (s : State) : Res := runCmd specCfgStage sl s

/-- The commit of a command starts, or ends at once where its image cannot be read again (R269). -/
def State.commitTake (s : State) (n : Nat) (h : Held) : CmdRes :=
  let img := h.bufs.getD 0 []
  if img = [] || (match s.cfg.shadow with | some sh => !s.bufReadable sh | none => true) then
    .done (coded St.badParam Dt.digest 0) s
  else .later .commit (s.commitStart n img)

/-- The READY of a commit. -/
def commitReady (h : Held) : Ready := ⟨0x0202, h.u 0 8, sliceB h.params 8 48⟩

def specCfgCommit : CmdSpec where
  opc := 0x0202
  need := needs Role.operator
  own := true
  drain := true
  twin := true
  len := fun h => lenFixed [(0, 8), (8, 48)] h.len
  check := fun h s =>
    refuse (decide (h.u 0 8 < s.cycle + 2) || decide (s.cycle + 2 ^ 24 < h.u 0 8)) (coded St.badParam Dt.cycle 0)
    <|> refuse s.cfg.shadow.isNone (badState 0)
  objs := fun _ => [.shadow]
  busy := fun h s =>
    s.shadowLocked h
    <|> refuse s.commitPending (coded St.busy Dt.commitPending 0)
    <|> refuse ((match s.cfg.shadow with | some x => x.drain | none => false) && !bitAt h.flags 1) (coded St.nonAtomic Dt.none 0)
    <|> refuse (bitAt h.flags 3 && s.twinRefuse) (coded St.peerMismatch Dt.none 0)
    <|> refuse ((match s.cfg.shadow with | some x => decide (x.set.digest ≠ sliceB h.params 8 48) | none => false))
          (coded St.badParam Dt.digest 0)
  act := fun h s =>
    let r := commitReady h
    if bitAt h.flags 3 then
      let s := s.sendReady r
      if s.twinMatched r && s.twinInTime r.cycle then (s.twinTake r).commitTake r.cycle h
      else .later (.twin r.cycle) s
    else s.commitTake r.cycle h

/-- CMD_CFG_COMMIT. -/
def execCmdCfgCommit (sl : Slot) (s : State) : Res := runCmd specCfgCommit sl s

def specCfgAbort : CmdSpec where
  opc := 0x0203
  need := needs Role.operator
  len := fun h => lenFixed [] h.len
  check := fun _ s => refuse (s.cfg.shadow.isNone && s.cfg.drain.isNone) (badState 0)
  busy := fun h s => s.shadowLocked h <|> refuse (s.recorded || s.cfg.drain.isSome) (busyState 0)
  act := fun _ s => .done (.ok []) s.dropShadowAll

/-- CMD_CFG_ABORT. -/
def execCmdCfgAbort (sl : Slot) (s : State) : Res := runCmd specCfgAbort sl s

def specCfgRead : CmdSpec where
  opc := 0x0204
  need := needs Role.auditor
  len := fun h => lenFixed [(0, 1), (1, 1), (4, 4), (8, 8)] h.len
  bufs := [(8, true)]
  pre := fun h => refuse (decide (1 < h.u 0 1)) (badField 0) <|> refuse (h.u 1 1 = 0 || decide (12 < h.u 1 1)) (badField 1)
  check := fun h s => refuse (h.u 0 1 = 1 && s.cfg.shadow.isNone) (badState 0)
  act := fun h s =>
    let c := if h.u 0 1 = 1 then (s.cfg.shadow.map (·.set)).getD s.cfg.active else s.cfg.active
    let b := ((c.raw.find? (·.1 = h.u 1 1)).map (·.2)).getD []
    let out := (b.drop (h.u 4 4)).take (h.buf 8).2
    .done (.ok (toLe 4 out.length)) (s.putBuf h 8 out)

/-- CMD_CFG_READ. -/
def execCmdCfgRead (sl : Slot) (s : State) : Res := runCmd specCfgRead sl s

def specCfgStatus : CmdSpec where
  opc := 0x0205
  need := needs Role.auditor
  sync := true
  len := fun h => lenFixed [] h.len
  act := fun _ s => .done (.ok (toLe 8 (s.rd64 R.CFG_ACTIVE_SEQ_LO) ++ toLe 8 (s.rd64 R.CFG_PEND_CYCLE_LO) ++ toLe 8 (s.rd64 R.CFG_SEQ_A_LO)
    ++ toLe 8 (s.rd64 R.CFG_SEQ_B_LO) ++ toLe 1 (s.f F.CFG_STATUS_SHADOW) ++ toLe 1 (s.f F.CFG_STATUS_HOLDER) ++ fitB 48 s.cfg.active.digest)) s

/-- CMD_CFG_STATUS. -/
def execCmdCfgStatus (sl : Slot) (s : State) : Res := runCmd specCfgStatus sl s

end Sys2Proof.Machine
end

