-- ==== Sys2Proof/Machine/DmaOps.lean ====
section
/-! DEFINITION. The DMA engine (R248 to R262). -/

namespace Sys2Proof.Machine

/-! ### Channels -/

def dmaDisabled : Nat := 0
def dmaWaiting : Nat := 1
def dmaRunning : Nat := 2
def dmaHalted : Nat := 3

def DmaCh.idle : DmaCh := ⟨none, none⟩
def State.ch (s : State) (n : Nat) : DmaCh := Tbl.get (fun _ => DmaCh.idle) s.dma n
def State.setCh (s : State) (n : Nat) (c : DmaCh) : State := { s with dma := Tbl.set (fun _ => DmaCh.idle) s.dma n c }
def State.dmaSt (s : State) (n : Nat) : Nat := s.f (F.DMA_STS_STATE n)

/-- The number of descriptors of a channel's ring (R250). -/
def State.dmaSize (s : State) (n : Nat) : Nat := 2 ^ (min (s.f (F.DMA_CTL_SIZE n)) 8 + 4)

/-- The core pair that a channel's interrupts go to (R260). -/
def State.ownerPair (s : State) (n : Nat) : Nat :=
  let o := s.f (F.DMA_GRANT_OWNER n)
  if o = 0xFFFF then 0
  else match Tbl.get (fun _ => none) s.apps o with | some a => a.core + 1 | none => 0

def State.dmaIrq (s : State) (n : Nat) : State := s.irq (s.ownerPair n) (128 + n)
def State.dmaMsix (s : State) (n : Nat) : State := s.msix (320 + n)

/-- DMA_ACT_IDX, the shadow bit, and the state shown. -/
def State.dmaShow (s : State) (n st : Nat) : State :=
  let c := s.ch n
  let s := (s.setF (F.DMA_STS_STATE n) st).setB (F.DMA_STS_SHADOW n) c.shadow.isSome
  let s := match c.active with | some d => s.setF (F.DMA_ACT_IDX_ACTIVE n) d.idx | none => s
  match c.shadow with | some d => s.setF (F.DMA_ACT_IDX_SHADOW n) d.idx | none => s

/-- The channel halts: the shadow is discarded, HEAD returns to the descriptor after the last active one, and the
signals that DMA_CTL enables are raised (Table DMA-6, R260). -/
def State.dmaHalt (s : State) (n cause : Nat) (core host : Bool) : State :=
  let c := s.ch n
  let s := match c.active with
    | some d => s.setF (F.DMA_RING_IDX_HEAD n) (d.idx + 1)
    | none => s
  let s := ((s.setCh n DmaCh.idle).setF (F.DMA_STS_CAUSE n) cause).setF (F.DMA_CTL_ABORT n) 0
  let s := s.dmaShow n dmaHalted
  let s := s.doIf (core || s.fb (F.DMA_CTL_HALT_CORE n)) (·.dmaIrq n)
  s.doIf (host || s.fb (F.DMA_CTL_HALT_HOST n)) (·.dmaMsix n)

/-- The write-back of the active descriptor (R252). -/
def State.dmaBack (s : State) (n : Nat) (d : DmaDesc) (status done result detail : Nat) : State :=
  ((s.emit (.dmaBack n (d.idx % s.dmaSize n) status done result detail s.gacNow)).addF (F.DMA_COUNT_COUNT n) 1).setF (F.DMA_ACT_DONE_DONE n) done

/-- A status that halts the channel (Table DMA-4). -/
def dmaHalts (status : Nat) : Bool := !(status = 0 || status = 0x101)

/-! ### Fetching (R250, R251) -/

def dmaDesc (idx : Nat) (r : DmaRaw) : DmaDesc :=
  { idx := idx, op := r.op.toNat, flags := r.flags.toNat, len := r.len.toNat, src := r.src, dst := r.dst, value := r.value, tag := r.tag }

/-- Take the descriptor at HEAD. -/
def State.dmaTake (s : State) (n : Nat) (r : DmaRaw) : DmaDesc × State :=
  let h := s.f (F.DMA_RING_IDX_HEAD n)
  (dmaDesc h r, s.setF (F.DMA_RING_IDX_HEAD n) (h + 1))

def State.dmaPending (s : State) (n : Nat) : Bool := s.f (F.DMA_RING_IDX_HEAD n) ≠ s.f (F.DMA_RING_IDX_TAIL n)

/-- The descriptor at HEAD goes into the active set, where that is free: what is left of those read. -/
def State.dmaFirst (s : State) (n : Nat) (ds : List DmaRaw) : State × List DmaRaw :=
  match ds with
  | r :: t =>
    if (s.ch n).active.isNone && s.dmaPending n then
      let (d, s) := s.dmaTake n r
      ((s.setCh n { s.ch n with active := some d }).setF (F.DMA_ACT_DONE_DONE n) 0, t)
    else (s, ds)
  | [] => (s, [])

/-- Fetch what the ring offers into the free sets of a channel that runs. -/
def State.dmaFetch (s : State) (n : Nat) (ds : List DmaRaw) : State :=
  let (s, ds) := s.dmaFirst n ds
  let s := match ds with
    | r :: _ =>
      if (s.ch n).active.isSome && (s.ch n).shadow.isNone && s.dmaPending n then
        let (d, s) := s.dmaTake n r
        s.setCh n { s.ch n with shadow := some d }
      else s
    | [] => s
  s.dmaShow n (if (s.ch n).active.isSome then dmaRunning else dmaWaiting)

/-! ### The end of a descriptor -/

/-- The active descriptor ends: write-back, signals, and the next one or the halt (Table DMA-6). -/
def State.dmaEnd (s : State) (n : Nat) (d : DmaDesc) (status done result detail : Nat) (next : List DmaRaw) : State :=
  let s := s.dmaBack n d status done result detail
  let core := bitAt d.flags 0
  let host := bitAt d.flags 1
  if dmaHalts status || bitAt d.flags 2 then s.dmaHalt n status core host
  else
    let s := (s.doIf core (·.dmaIrq n)).doIf host (·.dmaMsix n)
    let s := (s.setCh n ⟨(s.ch n).shadow, none⟩).setF (F.DMA_ACT_DONE_DONE n) 0
    if (s.ch n).active.isSome then (s.dmaShow n dmaRunning).dmaFetch n next else (s.dmaShow n dmaWaiting).dmaFetch n next

/-! ### Endpoints (R253) -/

def epOf (a : BitVec 64) : Nat := a.toNat / 2 ^ 60
def offOf (a : BitVec 64) : Nat := a.toNat % 2 ^ 36
def midBits (a : BitVec 64) : Nat := a.toNat / 2 ^ 36 % 2 ^ 24

/-- Every byte of a range lies inside what the endpoint and the grant allow. -/
def State.dmaInside (s : State) (n ep off len : Nat) : Bool :=
  bitAt (s.f (F.DMA_GRANT_EP n)) (ep - 1) &&
  match ep with
  | 1 => s.fb F.CUL_WIN_CTL_EN && decide (off + len ≤ s.winBytes)
  | 2 => decide (s.f (F.DMA_SRAM_LO_LO n) * 64 ≤ off) && decide (off + len ≤ min 0x400000 (s.f (F.DMA_SRAM_HI_HI n) * 64))
  | 3 => decide (0xA0000000 ≤ off) && decide (off + len ≤ s.cxlSize)
  | 4 => decide (off + len ≤ 65536)
  | _ => false

/-- A range of a descriptor. -/
def State.dmaAddrOk (s : State) (n : Nat) (a : BitVec 64) (len : Nat) : Bool := s.dmaInside n (epOf a) (offOf a) len

/-- Two ranges on one endpoint overlap. -/
def dmaOverlap (a b : BitVec 64) (len : Nat) : Bool :=
  epOf a = epOf b && decide (offOf a < offOf b + len) && decide (offOf b < offOf a + len)

/-- A descriptor that is not well formed (Table DMA-4, BAD_DESC). -/
def DmaDesc.bad (d : DmaDesc) : Bool :=
  !(d.op = 1 || d.op = 2 || d.op = 3) || decide (8 ≤ d.flags) || midBits d.src ≠ 0 || midBits d.dst ≠ 0
  || d.len = 0 || decide (2 ^ 24 < d.len)
  || (d.op = 2 && (epOf d.src ≠ 0 || offOf d.dst % 4 ≠ 0 || d.len % 4 ≠ 0))
  || (d.op = 1 && dmaOverlap d.src d.dst d.len)

/-- Bytes read at an endpoint. -/
def State.dmaRead (s : State) (a : BitVec 64) (n : Nat) (host : List Byte) : List Byte :=
  match epOf a with
  | 1 => fitB n host
  | 2 => s.memRead (sramBase + offOf a) n
  | 3 => (rangeFrom (offOf a) n).map (fun i => Tbl.get (fun _ => 0) s.cxl i)
  | 4 => (rangeFrom (offOf a) n).map (fun i => Tbl.get (fun _ => 0) s.nv.staging i)
  | _ => []

/-- Bytes written at an endpoint; on-chip SRAM loses its tags (R255). -/
def State.dmaWrite (s : State) (a : BitVec 64) (bs : List Byte) : State :=
  if bs = [] then s
  else match epOf a with
    | 1 => s.emit (.hostWrite (offOf a) bs)
    | 2 => s.memWrite (sramBase + offOf a) bs
    | 3 => { s with cxl := memPut s.cxl (offOf a) bs }
    | 4 => { s with nv := { s.nv with staging := memPut s.nv.staging (offOf a) bs } }
    | _ => s

/-- Where a read fails within `len` bytes: the offset, the status and DETAIL (R256, Table DMA-4). -/
def State.dmaFault (s : State) (a : BitVec 64) (len : Nat) (bad : Option Nat) : Option (Nat × Nat × Nat) :=
  if len = 0 then none else
  match epOf a with
  | 1 => (bad.filter (· < len)).map (fun o => (o, 0x104, 0))
  | 2 => (s.firstPoison (sramBase + offOf a) len).map (fun o => (o, 0x60, poisonDetail (sramBase + offOf a + o)))
  | 3 => (bad.filter (· < len)).map (fun o => (o, 0x60, Config.freeNat s.free % 2 ^ 32))
  | _ => none

/-- Of two faults, the one met first. -/
def firstFault (a b : Option (Nat × Nat × Nat)) : Option (Nat × Nat × Nat) :=
  match a, b with
  | some x, some y => if y.1 < x.1 then some y else some x
  | some x, none => some x
  | none, y => y

/-- The index of the first byte at which two lists differ. -/
def firstDiff : List Byte → List Byte → Nat → Option Nat
  | a :: as, b :: bs, i => if a = b then firstDiff as bs (i + 1) else some i
  | _, _, _ => none

/-- A descriptor run up to `limit` bytes: STATUS, DONE, RESULT and DETAIL, and the state with the bytes moved (R254 to
R256). -/
def State.dmaRun (s : State) (n : Nat) (d : DmaDesc) (limit : Nat) (x : DmaFeed) : State × (Nat × Nat × Nat × Nat) :=
  let len := min d.len limit
  let decoded := fun (s : State) (a : BitVec 64) => s.doIf (epOf a = 2 && len ≠ 0) (fun s => s.eccSpan (sramBase + offOf a) len x.ecc)
  if d.bad then (s, (0x102, 0, 0, 0))
  else if !s.dmaAddrOk n d.dst d.len || (d.op ≠ 2 && !s.dmaAddrOk n d.src d.len) then (s, (0x103, 0, 0, 0))
  else
    match d.op with
    | 2 => (s.dmaWrite d.dst ((List.range len).map (fun i => BitVec.ofNat 8 (d.value.toNat / 2 ^ (8 * (i % 4))))), (0, len, 0, 0))
    | 1 =>
      let s := decoded s d.src
      let b := s.dmaRead d.src len x.src
      match s.dmaFault d.src len x.badSrc with
      | some (o, st, dt) => ({ (s.dmaWrite d.dst (b.take o)) with free := s.free + 1 }, (st, o, 0, dt))
      | none => (s.dmaWrite d.dst b, (0, len, 0, 0))
    | _ =>
      let s := decoded (decoded s d.src) d.dst
      let diff := firstDiff (s.dmaRead d.src len x.src) (s.dmaRead d.dst len x.dst) 0
      match firstFault (s.dmaFault d.src len x.badSrc) (s.dmaFault d.dst len x.badDst), diff with
      | some (o, st, dt), some i => if i < o then (s, (0x101, i, i, 0)) else ({ s with free := s.free + 1 }, (st, o, 0, dt))
      | some (o, st, dt), none => ({ s with free := s.free + 1 }, (st, o, 0, dt))
      | none, some i => (s, (0x101, i, i, 0))
      | none, none => (s, (0, len, 0xFFFFFFFF, 0))

/-- A descriptor whose OP is undefined ends as soon as it is active. -/
def State.dmaUndefined : Nat → State → Nat → State
  | 0, s, _ => s
  | k + 1, s, n =>
    match (s.ch n).active with
    | some d => if d.op = 1 || d.op = 2 || d.op = 3 then s else (s.dmaEnd n d 0x102 0 0 0 []).dmaUndefined k n
    | none => s

/-- The accesses of a descriptor stall: Bus Master Enable is 0, or it names the NV staging buffer while an NV operation
uses it (R259). -/
def State.dmaStalls (s : State) (d : DmaDesc) : Bool :=
  !s.cul.bme || (s.nv.op.isSome && (epOf d.src = 4 || epOf d.dst = 4))

/-- The domains that a descriptor names and that are not ON (R411, Table PWR-3). -/
def State.dmaAsleep (s : State) (d : DmaDesc) : List Nat :=
  let names := fun (e : Nat) => epOf d.src = e || epOf d.dst = e
  (if names 3 && !s.domOn dCxl then [dCxl] else []) ++ (if names 4 && !s.domOn dNva then [dNva] else [])

/-- The rows DMA_COPY, DMA_FILL and DMA_COMPARE: the active descriptor of that operation runs to its end. -/
def State.dmaStep (s : State) (n op : Nat) (x : DmaFeed) (next : List DmaRaw) : State :=
  match (s.ch n).active with
  | some d =>
    if d.op ≠ op || s.dmaStalls d then s
    else if !d.bad && (s.dmaAsleep d).any (fun x => decide (x ∈ s.pwr.stuck)) then
      -- the transfers of a stuck domain (R413)
      (s.dmaEnd n d (if dCxl ∈ s.dmaAsleep d && decide (dCxl ∈ s.pwr.stuck) then 0x105 else 0x103) 0 0 0 next).dmaUndefined 2 n
    else if !d.bad && s.dmaAsleep d ≠ [] then s.forEach (s.dmaAsleep d) State.domWake
    else
      let (s, (st, done, res, dt)) := s.dmaRun n d d.len x
      (s.dmaEnd n d st done res dt next).dmaUndefined 2 n
  | none => s

/-! ### Losses (R183, R201, R259, R262) -/

/-- The window loss halts every enabled channel without a write-back. -/
def State.dmaWindowLost (s : State) : State :=
  s.forEach ((List.range 64).filter (fun n => s.dmaSt n ≠ dmaDisabled)) (fun s n => s.dmaHalt n 0x201 false false)

/-- The loss of the CXL device ends the descriptors that name it. -/
def State.dmaCxlLost (s : State) : State :=
  s.forEach (List.range 64) (fun s n =>
    match (s.ch n).active with
    | some d => if epOf d.src = 3 || epOf d.dst = 3 then s.dmaEnd n d 0x105 0 0 0 [] else s
    | none => s)

/-- A channel is disabled: its sets are discarded. -/
def State.dmaOff (s : State) (n : Nat) : State :=
  ((s.setCh n DmaCh.idle).setF (F.DMA_CTL_EN n) 0).setF (F.DMA_CTL_ABORT n) 0 |>.dmaShow n dmaDisabled

/-- An abort: the active descriptor ends after some of its bytes (Table DMA-6). -/
def State.dmaAbort (s : State) (n blocks : Nat) (x : DmaFeed) : State :=
  if s.dmaSt n = dmaDisabled || s.dmaSt n = dmaHalted then s
  else match (s.ch n).active with
    | none => s.dmaHalt n 0x106 false false
    | some d =>
      let limit := min d.len (256 * blocks)
      let (s, (st, done, res, dt)) := s.dmaRun n d limit x
      let st := if st = 0 then 0x106 else st
      let s := s.dmaBack n d st done (if st = 0x106 then 0 else res) dt
      s.dmaHalt n st (bitAt d.flags 0) (bitAt d.flags 1)

/-! ### Rows -/

/-- The compartment may write the channel's registers (R249). -/
def State.dmaOwner (s : State) (n : Nat) (comp : BitVec 16) : Bool := s.f (F.DMA_GRANT_OWNER n) = comp.toNat

/-- The fields of DMA_CTL beside EN and ABORT. -/
def State.dmaCtl (s : State) (n : Nat) (v : Word) : State :=
  s.wr (R.DMA_CTL n) (s.rd (R.DMA_CTL n) &&& 0xCFFFFFF0 ||| v &&& 0x3000000F)

/-- DMA_ENABLE: EN is set: the ring is checked and its indices reset (R250). -/
def execDmaEnable (n : Fin 64) (comp : BitVec 16) (value : Word) (s : State) : Res :=
  let n := n.val
  if !s.dmaOwner n comp || !bitAt value.toNat 31 then .next s
  else if s.fb (F.DMA_CTL_EN n) then .next (s.dmaCtl n value)
  else
    let s := s.dmaCtl n value
    let ok := s.fb F.CUL_WIN_CTL_EN && s.fb (F.DMA_GRANT_ASSIGNED n)
      && decide (s.f (F.DMA_RING_BASE_BASE n) * 32 + 32 * s.dmaSize n ≤ s.winBytes)
    if !ok then .next (s.setF (F.DMA_STS_CAUSE n) 0x200)
    else
      let s := ((s.setF (F.DMA_CTL_EN n) 1).setF (F.DMA_RING_IDX_HEAD n) 0).setF (F.DMA_RING_IDX_TAIL n) 0
      .next (((s.setCh n DmaCh.idle).setF (F.DMA_STS_CAUSE n) 0).dmaShow n dmaWaiting)

/-- DMA_DISABLE: EN is cleared. -/
def execDmaDisable (n : Fin 64) (comp : BitVec 16) (value : Word) (s : State) : Res :=
  if !s.dmaOwner n comp || bitAt value.toNat 31 then .next s else .next ((s.dmaCtl n value).dmaOff n)

/-- DMA_ABORT: the owner aborts the channel; `blocks` 256-byte blocks of the active descriptor have been moved. -/
def execDmaAbort (n : Fin 64) (comp : BitVec 16) (blocks : BitVec 17) (feed : DmaFeed) (s : State) : Res :=
  if !s.dmaOwner n comp then .next s else .next (s.dmaAbort n blocks.toNat feed)

/-- DMA_DOORBELL: TAIL advances and owned descriptors are fetched, as the device reads them. -/
def execDmaDoorbell (n : Fin 64) (comp : BitVec 16) (tail : BitVec 16) (descs : List DmaRaw) (s : State) : Res :=
  let n := n.val
  if !s.dmaOwner n comp || !(s.dmaSt n = dmaWaiting || s.dmaSt n = dmaRunning) then .next s
  else
    let s := s.setF (F.DMA_RING_IDX_TAIL n) tail.toNat
    if !s.cul.bme then .next s else .next ((s.dmaFetch n descs).dmaUndefined 2 n)

/-- DMA_COPY. -/
def execDmaCopy (n : Fin 64) (feed : DmaFeed) (next : List DmaRaw) (s : State) : Res := .next (s.dmaStep n 1 feed next)
/-- DMA_FILL. -/
def execDmaFill (n : Fin 64) (next : List DmaRaw) (s : State) : Res := .next (s.dmaStep n 2 ⟨[], [], none, none, []⟩ next)
/-- DMA_COMPARE. -/
def execDmaCompare (n : Fin 64) (feed : DmaFeed) (next : List DmaRaw) (s : State) : Res := .next (s.dmaStep n 3 feed next)

/-- DMA_HALTED_LO and DMA_HALTED_HI as read. -/
def State.dmaHaltedBits (s : State) (lo : Nat) : Word :=
  BitVec.ofNat 32 (((List.range 32).map (fun i => if s.dmaSt (lo + i) = dmaHalted then 2 ^ i else 0)).foldl (· + ·) 0)

end Sys2Proof.Machine
end

