-- ==== Sys2Proof/Machine/CulRows.lean ====
section
/-! DEFINITION. The Culvert: window, rings, doorbells, sessions, and the commands of family 0x01 but CMD_DEV_STATUS (R199
to R218, R223, R238). -/

namespace Sys2Proof.Machine

/-! ### The window and its loss (R199, R201, R225) -/

/-- CUL registers that the window loss resets (R225). -/
def culReset (a : Nat) : Bool :=
  decide (0xD0000 ≤ a) && decide (a < 0xE0000) && a ≠ R.CUL_EV_UNMAPPED && !(decide (0xD0020 ≤ a) && decide (a < 0xD0060))
  && !(decide (0xD3000 ≤ a) && (a % 0x20 = 0x10 || a % 0x20 = 0x14))

/-- The window loss (R201): rings stop, sessions close, commands in execution go mute, and the DMA channels halt. -/
def State.windowLoss (s : State) : State :=
  let s := s.resetRegs culReset
  let s := { s with cul := { s.cul with stalled := [], heldEv := [], lostNow := [], armed := [], owed := [],
                                        waits := s.cul.waits.map (fun (w : Waiting) => { w with cmd := { w.cmd with mute := true } }),
                                        atCycle := s.cul.atCycle.map (fun (h : Held) => { h with mute := true }) } }
  (s.closeSessions (fun _ => true) 2).dmaWindowLost

/-- An enabled ring of either kind. -/
def State.anyRing (s : State) : Bool :=
  s.rings.any (fun r => s.fb (F.CUL_CRING_CTL_EN r)) || (List.range 64).any (fun e => s.fb (F.CUL_ERING_CTL_EN e))

/-- CUL_WIN_CTL_WRITE: a write of CUL_WIN_CTL.EN registers the window or releases it. -/
def execCulWinCtlWrite (value : Word) (s : State) : Res :=
  let was := s.fb F.CUL_WIN_CTL_EN
  if bitAt value.toNat 0 then
    if was then .next s
    else
      let n := s.f F.CUL_WIN_SIZE_SIZE
      let ok := decide (20 ≤ n) && decide (n ≤ 30) && s.rd64 R.CUL_WIN_BASE_LO % 2 ^ n = 0 && !s.anyRing
      .next (if ok then s.setF F.CUL_WIN_CTL_EN 1 else s.setF F.CUL_ERR_WIN_BAD 1)
  else .next (if was then s.windowLoss else s)

/-- FUNCTION_LEVEL_RESET: the window loss. -/
def execFunctionLevelReset (s : State) : Res :=
  let s := s.windowLoss
  .next { s with cul := { s.cul with bme := false } }

/-- HOST_LINK_DOWN: a hot reset or link down of the host port is the window loss. -/
def execHostLinkDown (s : State) : Res :=
  let s := s.windowLoss
  .next { s with cul := { s.cul with bme := false } }

/-- BUS_MASTER_CHANGE: Bus Master Enable is cleared or set. Set, the replies and events owed are written, and the channels
that wait read their descriptors. -/
def execBusMasterChange (on : Bool) (descs : List (Fin 64 × DmaRaw)) (s : State) : Res :=
  if !on then .next { s with cul := { s.cul with bme := false } }
  else if s.cul.bme then .next s
  else
    let owed := s.cul.owed
    let s := { s with cul := { s.cul with bme := true, owed := [] } }
    let s := s.forEach owed (fun s o => s.putReply o.1 ⟨o.2.1, o.2.2.1, o.2.2.2.1⟩ o.2.2.2.2)
    let s := s.forEach (List.range 64) (fun s e => s.drainRing e)
    .next (s.forEach descs (fun s d =>
      let n := d.1.val
      if s.dmaSt n = dmaWaiting || s.dmaSt n = dmaRunning then (s.dmaFetch n [d.2]).dmaUndefined 2 n else s))

/-! ### Rings (R202, R203) -/

/-- A ring cannot be enabled. -/
def State.ringBad (s : State) (event : Bool) (r : Nat) : State :=
  (s.setF F.CUL_ERR_RING_BAD 1).wr R.CUL_ERR_INFO (BitVec.ofNat 32 (b2n event * 256 + r))

/-- Fields of a control register written while the ring is enabled, or not (R202). -/
def ctlWrite (old v keep mask : Word) : Word := (old &&& ~~~mask) ||| (v &&& mask &&& ~~~keep) ||| (old &&& keep)

/-- The fields of CUL_CRING_CTL beside EN; SIZE holds while the ring is enabled. -/
def State.cringCtl (s : State) (r : Nat) (v : Word) : State :=
  s.wr (R.CUL_CRING_CTL r) (ctlWrite (s.rd (R.CUL_CRING_CTL r)) v (if s.fb (F.CUL_CRING_CTL_EN r) then 0xF else 0) 0x703F000F)

/-- CRING_ENABLE: EN of a command ring is set. -/
def execCringEnable (r : Fin 256) (value : Word) (s : State) : Res :=
  let r := r.val
  if !bitAt value.toNat 31 then .next s
  else if s.fb (F.CUL_CRING_CTL_EN r) then .next (s.cringCtl r value)
  else
    let s := s.cringCtl r value
    let base := s.f (F.CUL_CRING_BASE_BASE r) * 128
    if !(s.fb F.CUL_WIN_CTL_EN && decide (base + 128 * s.cringSize r ≤ s.winBytes)) then .next (s.ringBad false r)
    else
      let s := { s with cul := { s.cul with stalled := s.cul.stalled.filter (· ≠ r) } }
      .next ((((s.setF (F.CUL_CRING_CTL_EN r) 1).wr (R.CUL_CRING_IDX r) 0).setF (F.CUL_CRING_STS_STATE r) 1).setF (F.CUL_CRING_STS_CAUSE r) 0)

/-- CRING_DISABLE: EN is cleared: the ring stops and its sessions close (R218). -/
def execCringDisable (r : Fin 256) (value : Word) (s : State) : Res :=
  let r := r.val
  if bitAt value.toNat 31 then .next s
  else
    let was := s.fb (F.CUL_CRING_CTL_EN r)
    let s := s.cringCtl r value
    if !was then .next s
    else .next (((s.setF (F.CUL_CRING_CTL_EN r) 0).setF (F.CUL_CRING_STS_STATE r) 0).closeSessions (fun x => x.ring = r) 3)

/-- The fields of CUL_ERING_CTL beside EN; BUFSZ and SIZE hold while the ring is enabled. -/
def State.eringCtl (s : State) (e : Nat) (v : Word) : State :=
  s.wr (R.CUL_ERING_CTL e) (ctlWrite (s.rd (R.CUL_ERING_CTL e)) v (if s.fb (F.CUL_ERING_CTL_EN e) then 0x2000000F else 0) 0x6000000F)

/-- The boot report is written once the ring of class POWER is enabled (R459). -/
def State.flushBoot (s : State) : State :=
  let e := s.f (F.CUL_EVMAP_RING 8)
  if s.boot.open_ || s.fb (F.CUL_EVMAP_NONE 8) || !s.eringOn e then s
  else
    let l := s.boot.report
    let s := { s with boot := { s.boot with open_ := true, report := [] } }
    s.forEach l (fun s x => s.postCode x.1 x.2.1 x.2.2.1 x.2.2.2)

/-- ERING_ENABLE: EN of an event ring is set: its indices go to 0 and its vector is armed. -/
def execEringEnable (e : Fin 64) (value : Word) (s : State) : Res :=
  let e := e.val
  if !bitAt value.toNat 31 then .next s
  else if s.fb (F.CUL_ERING_CTL_EN e) then .next (s.eringCtl e value)
  else
    let s := s.eringCtl e value
    let base := s.f (F.CUL_ERING_BASE_BASE e) * 32
    let area := s.f (F.CUL_ERING_BUF_BUF e) * 2048
    let room := if s.fb (F.CUL_ERING_CTL_RX e) then area + s.eringSize e * (if s.fb (F.CUL_ERING_CTL_BUFSZ e) then 16384 else 2048) else 0
    if !(s.fb F.CUL_WIN_CTL_EN && decide (base + 32 * s.eringSize e ≤ s.winBytes) && decide (room ≤ s.winBytes)) then
      .next (s.ringBad true e)
    else
      let s := ((s.setF (F.CUL_ERING_CTL_EN e) 1).wr (R.CUL_ERING_IDX e) 0).setF (F.CUL_ERING_STS_STATE e) 1
      let s := (s.setF (F.CUL_ERING_STS_CAUSE e) 0).arm e
      .next s.flushBoot

/-- ERING_DISABLE: EN is cleared. What was held for the ring is discarded, as an event whose ring is not enabled is. -/
def execEringDisable (e : Fin 64) (value : Word) (s : State) : Res :=
  let e := e.val
  if bitAt value.toNat 31 then .next s
  else
    let was := s.fb (F.CUL_ERING_CTL_EN e)
    let s := s.eringCtl e value
    if !was then .next s
    else
      let n := (s.heldEv e).length
      let s := ((s.setF (F.CUL_ERING_CTL_EN e) 0).setF (F.CUL_ERING_STS_STATE e) 0).addF F.CUL_EV_UNMAPPED_COUNT n
      .next ((s.setHeldEv e []).setLostNow e 0)

/-- A ring goes to ERROR with a cause; an event of class HOST reports it (R203, R207, R480). -/
def State.cringError (s : State) (r cause : Nat) : State :=
  ((s.setF (F.CUL_CRING_STS_STATE r) 2).setF (F.CUL_CRING_STS_CAUSE r) cause).postCode 13 0 2 (r + dat 2 cause)
def State.eringError (s : State) (e cause : Nat) : State :=
  ((s.setF (F.CUL_ERING_STS_STATE e) 2).setF (F.CUL_ERING_STS_CAUSE e) cause).postCode 13 0 2 (e + dat 1 1 + dat 2 cause)

/-- CRING_DOORBELL: TAIL advances, the reply vector is armed, and a stopped ring reads its slot again. -/
def execCringDoorbell (r : Fin 256) (value : Word) (s : State) : Res :=
  let r := r.val
  if !s.fb (F.CUL_CRING_CTL_EN r) then .next s
  else
    let t := value.toNat % 65536
    let s := (s.irqAll 55).doIf (s.fb (F.CUL_CRING_CTL_IRQ r)) (·.arm (64 + r))
    if s.f (F.CUL_CRING_STS_STATE r) ≠ 1 then .next s
    else
      let n := (t + 65536 - s.f (F.CUL_CRING_IDX_HEAD r)) % 65536
      if s.cringSize r < n then .next (s.cringError r 1)
      else
        let s := s.setF (F.CUL_CRING_IDX_TAIL r) t
        .next { s with cul := { s.cul with stalled := s.cul.stalled.filter (· ≠ r) } }

/-- SLOT_READ_ERROR: the read of the slot at HEAD completes with a PCIe error or a poisoned TLP. -/
def execSlotReadError (r : Fin 256) (s : State) : Res :=
  if s.ringReady r.val then .next ((s.setF F.CUL_ERR_PCIE_ERR 1).cringError r.val 2) else .next s

/-- ERING_DOORBELL: HEAD advances, the vector is armed, and held events are written. -/
def execEringDoorbell (e : Fin 64) (value : Word) (s : State) : Res :=
  let e := e.val
  if !s.eringOn e then .next s
  else
    let h := value.toNat % 65536
    let old := s.f (F.CUL_ERING_IDX_HEAD e)
    if decide (s.eringUsed e < (h + 65536 - old) % 65536) then .next (s.eringError e 1)
    else
      let s := (s.setF (F.CUL_ERING_IDX_HEAD e) h).arm e
      let s := s.doIf (s.eringUsed e ≠ 0) (·.signalArmed e)
      .next (s.drainRing e)

/-! ### Sessions (R215 to R218) -/

/-- SESSION_IDLE_EXPIRE: a session has seen no command for its idle limit. -/
def execSessionIdleExpire (i : Fin 64) (s : State) : Res :=
  match s.session i.val with
  | some x => if x.seen + s.cfg.active.idle ≤ s.gac.passed then .next (s.closeSession i.val (some 1)) else .next s
  | none => .next s

/-- The key is locked (R216). -/
def State.keyLocked (s : State) (k : Nat) : Bool := (Tbl.get (fun _ => none) s.cul.locked k : Option Nat).isSome

/-- One refusal of an opening with a key; the eighth in a row locks it. -/
def State.countRefusal (s : State) (k : Nat) : State :=
  let n := Tbl.get (fun _ => 0) s.cul.refusals k + 1
  if 8 ≤ n then
    { s with cul := { s.cul with refusals := Tbl.set (fun _ => 0) s.cul.refusals k 0,
                                 locked := Tbl.set (fun _ => none) s.cul.locked k (some s.gac.passed) } }
  else { s with cul := { s.cul with refusals := Tbl.set (fun _ => 0) s.cul.refusals k n } }

/-- Openings with the key have succeeded: its refusals are no longer consecutive. -/
def State.clearRefusals (s : State) (k : Nat) : State :=
  { s with cul := { s.cul with refusals := Tbl.set (fun _ => 0) s.cul.refusals k 0 } }

/-- OPKEY_LOCK_EXPIRE: the 3,000 cycles of a lockout are over. -/
def execOpkeyLockExpire (k : BitVec 16) (s : State) : Res :=
  match Tbl.get (fun _ => none) s.cul.locked k.toNat with
  | some t => if t + 3000 ≤ s.gac.passed then
      .next { s with cul := { s.cul with locked := Tbl.set (fun _ => none) s.cul.locked k.toNat none } } else .next s
  | none => .next s

/-! ### Commands of family 0x01 (Table CMD-5) -/

def specDevInfo : CmdSpec where
  opc := 0x0101
  need := needsNone
  sync := true
  len := fun h => lenFixed [] h.len
  act := fun _ s => .done (.ok (toLe 4 (s.rd R.DEV_ID).toNat ++ toLe 1 (bitsOf (s.rd R.DEV_VER).toNat 8 8) ++ toLe 1 (s.f F.RST_STS_STAGE)
    ++ toLe 1 s.service ++ toLe 1 s.gst ++ toLe 4 (s.rd R.DEV_AEDUF_VER).toNat ++ fitB 4 [] ++ toLe 8 (s.rd64 R.CFG_ACTIVE_SEQ_LO)
    ++ sha384 s.keys.idPub)) s

/-- CMD_DEV_INFO. -/
def execCmdDevInfo (sl : Slot) (s : State) : Res := runCmd specDevInfo sl s

/-- Challenges that can still be answered: 64 cycles each (R215). -/
def State.freshChallenges (s : State) : List Challenge := s.cul.challenges.filter (fun c => decide (s.gac.passed ≤ c.born + 64))

def specChallenge : CmdSpec where
  opc := 0x0102
  need := needsNone
  sync := true
  len := fun h => lenFixed [] h.len
  busy := fun _ s => refuse (decide (64 ≤ s.freshChallenges.length) || s.rngDown) (coded St.busy Dt.none 0)
  act := fun h s =>
    let (n, s) := s.drawBytes 32
    let (v, s) := s.openBelow (2 ^ 32)
    let s := { s with cul := { s.cul with challenges := ⟨v, n, h.ring, s.gac.passed⟩ :: s.freshChallenges } }
    .done (.ok (n ++ toLe 4 v)) s

/-- CMD_DEV_SESSION_CHALLENGE. -/
def execCmdDevSessionChallenge (sl : Slot) (s : State) : Res := runCmd specChallenge sl s

/-- The permissions of a role code (Tables CUL-5 and CUL-6). -/
def rolePerms (role : Nat) : Nat :=
  match role with | 1 => Role.auditor | 2 => Role.operator | 3 => Role.keyOfficer | 4 => Role.integrator | _ => 0

/-- The signed session message (Table CUL-6). -/
def State.sessionMsg (s : State) (nonce : List Byte) (role ring key : Nat) : List Byte :=
  ascii "PW1024 SESSION 1" ++ sha384 s.keys.idPub ++ nonce ++ toLe 1 role ++ toLe 1 ring ++ toBe 2 key

/-- The credential of the smart card answers the nonce for a role (R447): ROLE, CARD_INDEX and SIG as the card gave them. -/
def State.cardGood (s : State) (card : Option (List Byte)) (nonce : List Byte) (role : Nat) : Option Nat :=
  match card.filter (fun _ => s.fb F.SCD_STS_ACTIVE) with
  | none => some Dt.signature
  | some c =>
    let r := (byteAt c 0).toNat
    match s.opKey (beAt c 1 2) with
    | some k =>
      if k.role ≠ r || !verifies 2 k.pub (ascii "PW1024 CARD 1" ++ nonce ++ sha384 s.keys.idPub ++ toLe 1 r) (sliceB c 3 96) then some Dt.signature
      else if r ≠ role then some Dt.role else none
    | none => some Dt.signature

/-- Why an opening is refused, where it is (R216). -/
def State.openRefused (s : State) (h : Held) (card : Option (List Byte)) : Option Nat :=
  let role := h.u 0 1
  let k := h.u 2 2
  match s.freshChallenges.find? (fun c => c.id = h.u 4 4 && c.ring = h.ring) with
  | none => some Dt.expired
  | some c =>
    match s.opKey k with
    | none => some Dt.role
    | some key =>
      if key.role ≠ role then some Dt.role
      else if !verifies 2 key.pub (s.sessionMsg c.nonce role h.ring k) (sliceB h.params 8 96) then some Dt.signature
      else if bitAt (h.u 1 1) 0 then s.cardGood card c.nonce role else none

/-- A session opens in an index: the handle, and the state (R217). -/
def State.openSession (s : State) (i ring role key : Nat) : Nat × State :=
  let g := s.genOf i % 1023 + 1
  let s := s.setSession i (some ⟨ring, rolePerms role, g, key, s.gac.passed⟩)
  (g * 2 ^ 22 + i * 2 ^ 16 + rolePerms role, { s with cul := { s.cul with gens := Tbl.set (fun _ => 0) s.cul.gens i g } })

/-- The opening of a session; none opens while the fuse lock is open (R460). -/
def specOpen (card : Option (List Byte)) : CmdSpec where
  opc := 0x0103
  need := needsNone
  sync := true
  len := fun h => lenFixed [(0, 1), (1, 1), (2, 2), (4, 4), (8, 96)] h.len
  pre := fun h => refuse (rolePerms (h.u 0 1) = 0) (badField 0) <|> refuse (decide (1 < h.u 1 1)) (badField 1)
  check := fun h s => refuse (s.keyLocked (h.u 2 2)) (coded St.locked Dt.keyLocked 0)
  busy := fun _ s => refuse (!s.fb F.RST_FUSE_LOCKED) (coded St.busy Dt.none 0)
  act := fun h s =>
    let bad := s.openRefused h card
    let s := { s with cul := { s.cul with challenges := s.cul.challenges.filter (fun c => !(c.id = h.u 4 4 && c.ring = h.ring)) } }
    match bad with
    | some d => .done (coded St.noAuthority d 0) (s.countRefusal (h.u 2 2))
    | none =>
      match (List.range 64).find? (fun i => (s.session i).isNone) with
      | none => .done (coded St.busy Dt.none 0) s
      | some i =>
        let (hd, s) := (s.clearRefusals (h.u 2 2)).openSession i h.ring (h.u 0 1) (h.u 2 2)
        .done (.ok (toLe 4 hd ++ toLe 4 s.cfg.active.idle)) s

/-- CMD_DEV_SESSION_OPEN; with CARD, the answer of the smart card where it gave one. -/
def execCmdDevSessionOpen (sl : Slot) (card : Option (List Byte)) (s : State) : Res := runCmd (specOpen card) sl s

def specClose : CmdSpec where
  opc := 0x0104
  need := needs Role.auditor
  sync := true
  len := fun h => lenFixed [] h.len
  act := fun h s => .done (.ok []) (s.closeSession h.session none)

/-- CMD_DEV_SESSION_CLOSE. -/
def execCmdDevSessionClose (sl : Slot) (s : State) : Res := runCmd specClose sl s

/-- The permissions that a change of a key of a role needs (R238). -/
def opkeyNeed (role : Nat) : Nat := if role = 3 then Role.keyOfficer else Role.integrator

def specEnrol : CmdSpec where
  opc := 0x0105
  need := fun h _ => some (opkeyNeed (h.u 0 1))
  sync := true
  len := fun h => lenFixed [(0, 1), (2, 2), (4, 97)] h.len
  pre := fun h =>
    refuse (rolePerms (h.u 0 1) = 0) (badField 0)
    <|> refuse (decide (63 < h.u 2 2)) (badField 2)
    <|> refuse (!(byteAt h.params 4 = 4 && pointGood 2 (sliceB h.params 4 97))) (coded St.badParam Dt.point 0)
  check := fun h s => refuse (s.opKey (h.u 2 2)).isSome (badState (h.u 2 2))
  act := fun h s =>
    let k : OpKey := ⟨h.u 0 1, sliceB h.params 4 97⟩
    .later .nv (s.nvStart (s.recordOp s.nv.opKeys s.twin.cred (.host h.ring h.idx) (.opKey (h.u 2 2) (some k))))

/-- CMD_DEV_OPKEY_ENROL. -/
def execCmdDevOpkeyEnrol (sl : Slot) (s : State) : Res := runCmd specEnrol sl s

def specRevoke : CmdSpec where
  opc := 0x0106
  need := fun h s => some (opkeyNeed (match s.opKey (h.u 0 2) with | some k => k.role | none => 0))
  sync := true
  len := fun h => lenFixed [(0, 2)] h.len
  pre := fun h => refuse (decide (63 < h.u 0 2)) (badField 0)
  check := fun h s => refuse (s.opKey (h.u 0 2)).isNone (badState (h.u 0 2))
  act := fun h s =>
    .later .nv (s.nvStart (s.recordOp s.nv.opKeys s.twin.cred (.host h.ring h.idx) (.opKey (h.u 0 2) none)))

/-- CMD_DEV_OPKEY_REVOKE. -/
def execCmdDevOpkeyRevoke (sl : Slot) (s : State) : Res := runCmd specRevoke sl s

/-- CUL_STATUS as read (Table CUL-9). -/
def State.culStatus (s : State) : Word :=
  BitVec.ofNat 32 (b2n (s.fb F.CUL_WIN_CTL_EN) * 2 ^ 31 + b2n s.cul.bme * 2 ^ 30 + s.openSessions.length)

end Sys2Proof.Machine
end

