-- ==== Sys2Proof/Machine/NvRows.lean ====
section
/-! DEFINITION. The NV controller's operation register, the supply dip during an operation, Aeduf images, and the
commands of family 0x0A (R245, R380 to R394, R455). -/

namespace Sys2Proof.Machine

/-! ### Writes of NVA_OP with GO (Table NVA-4) -/

/-- The first write-protected sector of an operation (R386). -/
def State.nvProtected (s : State) (o : NvOp) : Option Nat := o.sectors.find? s.nvProt

/-- An operation that Aeduf starts is refused before it touches anything. -/
def State.nvRefused (s : State) (sec : Nat) (prot : Bool) : State :=
  let s := s.doIf prot (fun s => s.nvFlag 7 sec (sec * 4096))
  s.nvResult St.badParam sec (sec * 4096)

/-- The operation that NVA_OP and NVA_OP_ARG describe. -/
def State.nvOpOf (s : State) (erase restore : Bool) (sec : Nat) : NvOp :=
  let n := s.f F.NVA_OP_ARG_COUNT
  let w := s.f F.NVA_OP_ARG_WORD
  { erase := erase, program := !erase, sector := sec, first := if erase then 0 else w, count := if erase then n else 0,
    restore := restore, data := if erase then [] else (List.range (8 * n)).map (fun i => Tbl.get (fun _ => 0) s.nv.staging i),
    prior := [], done := 0, dipped := false, refused := false, user := .reg, eff := .none }

/-- COUNT and the first word lie in their ranges, inside the array and one sector. -/
def State.nvArgGood (s : State) (erase : Bool) (sec : Nat) : Bool :=
  let n := s.f F.NVA_OP_ARG_COUNT
  decide (1 ≤ n) && (if erase then decide (n ≤ 16) && decide (sec + n ≤ 4096)
    else decide (s.f F.NVA_OP_ARG_WORD + n ≤ 512))

/-- A write of NVA_OP with GO 1: discarded while BUSY, refused, or started. -/
def State.nvGo (s : State) (kind : Nat) (restore : Bool) (sec : Nat) : State :=
  let s := s.domWake dNva
  if s.nv.op.isSome then s
  else if kind ≠ 1 && kind ≠ 2 then s.nvRefused sec false
  else if !s.nvArgGood (kind = 2) sec then s.nvRefused sec false
  else
    let o := s.nvOpOf (kind = 2) restore sec
    if o.sectors.any (fun x => !s.aedufMay x) then s.nvRefused sec false
    else match s.nvProtected o with
      | some x => s.nvRefused x true
      | none =>
        match s.progBlocked o with
        | some a => s.nvResult St.progNotErased sec a
        | none => s.nvBegin o

/-- A write of NVA_OP: the fields are kept, and GO starts the operation. -/
def State.nvOpWrite (s : State) (value : Word) : State :=
  let v := value.toNat
  let s := s.wr R.NVA_OP (BitVec.ofNat 32 (v % 2 ^ 31 / 2 ^ 16 * 2 ^ 16))
  if bitAt v 31 then s.nvGo (bitsOf v 28 2) (bitAt v 30) (bitsOf v 16 12) else s

/-- The word of NVA_OP with GO, a KIND, RESTORE and a sector. -/
def nvOpWord (kind : Nat) (restore : Bool) (sec : Nat) : Word :=
  BitVec.ofNat 32 (2 ^ 31 + b2n restore * 2 ^ 30 + kind * 2 ^ 28 + sec * 2 ^ 16)

/-- NVA_PROGRAM_START: Aeduf writes NVA_OP with GO and KIND PROGRAM. -/
def execNvaProgramStart (restore : Bool) (sector : Fin 4096) (s : State) : Res :=
  .next (s.nvOpWrite (nvOpWord 1 restore sector.val))

/-- NVA_ERASE_START: Aeduf writes NVA_OP with GO and KIND ERASE. -/
def execNvaEraseStart (restore : Bool) (sector : Fin 4096) (s : State) : Res :=
  .next (s.nvOpWrite (nvOpWord 2 restore sector.val))

/-! ### The supply dip (R392) -/

/-- The controller stops at once: the units before an open one are done, and that one is under way. -/
def State.nvDip (s : State) : State :=
  match s.nv.op with
  | none => s
  | some o =>
    if o.dipped || o.refused || (s.progBlocked o).isSome || o.units ≤ o.done then s
    else
      let (k, s) := s.openBelow (o.units - o.done)
      let s := s.nvUnits o o.done (o.done + k)
      { s with nv := { s.nv with op := some { o with done := o.done + k, dipped := true } } }

/-- The unit under way holds open contents: a sector cut off in its erase, or a word cut off in its program. -/
def State.nvCut (s : State) (o : NvOp) : State :=
  let a := o.addr o.done
  let n := if o.erase && decide (o.done < o.count) then 4096 else 8
  let (b, s) := s.openBytes n
  (if n = 4096 then s.nvErase (a / 4096) else s).nvWrite a b

/-- The supply has been back for 1 us: the unit under way holds its intended value and the operation resumes, or the
operation is incomplete and ends, its sectors restored under RESTORE. -/
def State.nvDipSettled (s : State) (exact : Bool) : State :=
  match s.nv.op with
  | none => s
  | some o =>
    if !o.dipped then s
    else if exact then
      let s := s.nvUnits o o.done (o.done + 1)
      { s with nv := { s.nv with op := some { o with done := o.done + 1, dipped := false } } }
    else
      let a := o.addr o.done
      let sec := a / 4096
      let s := (s.setF F.NVA_STATUS_DIP 1).nvFlag 2 sec a
      let s := s.nvCut o
      let s := s.doIf o.restore (·.nvRestore o)
      (s.nvResult St.verifyAfterDip sec a).nvUserEnd o St.verifyAfterDip a

/-! ### Aeduf images (R455) -/

/-- The body length an image's header gives. -/
def imgBody (b : List Byte) : Nat := leAt b 0x10 4

/-- An image that the boot ROM treats as valid, against the SVN floor. -/
def State.fwValid (s : State) (b : List Byte) : Bool :=
  b.take 4 = ascii "PWFW" && leAt b 4 2 = 1 && decide (imgBody b ≤ 2096896) && decide (256 + imgBody b ≤ b.length)
  && sha384 (sliceB b 0x100 (imgBody b)) = sliceB b 0x20 48
  && Config.firmwareSig (b.take 0x50) (sliceB b 0x50 96)
  && decide (s.f F.RST_FUSE_FLOOR ≤ leAt b 0x0C 1)

/-- SHA-384 of the header and body together. -/
def fwDigest (b : List Byte) : List Byte := sha384 (sliceB b 0 (256 + imgBody b))

/-- The first sector of an image slot. -/
def fwSector (slot : Nat) : Nat := if slot = 0 then 32 else 544

/-- The bytes of an image slot. -/
def State.fwSlot (s : State) (slot : Nat) : List Byte := s.nvRead (fwSector slot * 4096) (512 * 4096)

/-! ### Commands (Table CMD-13) -/

def specNvaRead : CmdSpec where
  opc := 0x0A01
  dom := fun _ => some dNva
  need := needs Role.auditor
  len := fun h => lenFixed [(0, 2), (2, 2), (4, 8)] h.len
  bufs := [(4, true)]
  pre := fun h => refuse (decide (4096 ≤ h.u 0 2)) (badField 0) <|> refuse (decide (4096 ≤ h.u 2 2)) (badField 2)
  act := fun h s =>
    let a := h.u 0 2 * 4096 + h.u 2 2
    let n := min (h.buf 4).2 (2 ^ 24 - a)
    .done (.ok (toLe 4 n)) (s.putBuf h 4 (s.nvRead a n))

/-- CMD_NVA_READ. -/
def execCmdNvaRead (sl : Slot) (s : State) : Res := runCmd specNvaRead sl s

/-- The sectors a host command aims at. -/
def aimed (first n : Nat) : List Nat := rangeFrom first n

/-- A sector outside the mailbox and the integrator data area, then a write-protected one (R245, R386). -/
def State.aimCheck (s : State) (l : List Nat) : Option Reply :=
  ((l.find? (fun x => !hostMay x)).map badState)
  <|> ((l.find? s.nvProt).map (fun x => coded St.badParam Dt.protected_ x))

/-- The refusal of a protected sector sets NVA_EVT.PROT_REFUSED. -/
def State.aimRefused (s : State) (r : Reply) : State :=
  if r.status = St.badParam && r.detail / 65536 = Dt.protected_ then s.nvFlag 7 (r.detail % 65536) (r.detail % 65536 * 4096) else s

/-- A field session is open: TAG_STATE OPEN or SECURED (R385). -/
def State.fieldSession (s : State) : Bool := s.f F.FLD_STS_TAG_STATE = 5 || s.f F.FLD_STS_TAG_STATE = 6

/-- A mailbox sector held by an open field session. -/
def State.fieldHeld (s : State) (l : List Nat) : Option Reply :=
  refuse (s.fieldSession && l.any (fun x => nvArea x = .mailbox)) (coded St.fieldHeld Dt.none 0)

/-- A host operation starts, or ends at once where a word it names is not erased (R382). -/
def State.nvHostStart (s : State) (o : NvOp) : CmdRes :=
  match s.nv.op, s.progBlocked o with
  | none, some a => .done ⟨St.progNotErased, a, []⟩ (s.nvResult St.progNotErased o.sector a)
  | _, _ => .later .nv (s.nvStart o)

def specNvaProgram : CmdSpec where
  opc := 0x0A02
  dom := fun _ => some dNva
  need := needs Role.integrator
  len := fun h => lenFixed [(0, 2), (2, 2), (4, 8)] h.len
  bufs := [(4, false)]
  pre := fun h =>
    refuse (decide (4096 ≤ h.u 0 2)) (badField 0)
    <|> refuse (h.u 2 2 % 8 ≠ 0 || decide (4096 ≤ h.u 2 2)) (badField 2)
    <|> refuse ((h.buf 4).2 % 8 ≠ 0 || (h.buf 4).2 = 0 || decide (4096 < h.u 2 2 + (h.buf 4).2)) (badField 4)
  check := fun h s => s.aimCheck [h.u 0 2]
  objs := fun h => [.sector (h.u 0 2)]
  busy := fun h s => s.fieldHeld [h.u 0 2]
  refused := fun _ r s => s.aimRefused r
  act := fun h s => s.nvHostStart
    { nvErase_ (h.u 0 2) 0 (.host h.ring h.idx) with
      erase := false, program := true, first := h.u 2 2 / 8, restore := true, data := h.inp 0 4 }

/-- CMD_NVA_PROGRAM. -/
def execCmdNvaProgram (sl : Slot) (s : State) : Res := runCmd specNvaProgram sl s

def specNvaErase : CmdSpec where
  opc := 0x0A03
  dom := fun _ => some dNva
  need := needs Role.integrator
  len := fun h => lenFixed [(0, 2), (2, 2)] h.len
  pre := fun h =>
    refuse (decide (4096 ≤ h.u 0 2)) (badField 0)
    <|> refuse (h.u 2 2 = 0 || decide (16 < h.u 2 2) || decide (4096 < h.u 0 2 + h.u 2 2)) (badField 2)
  check := fun h s =>
    let l := aimed (h.u 0 2) (h.u 2 2)
    ((l.find? (fun x => !hostMay x)).map badState)
    <|> refuse (l.any (fun x => nvArea x ≠ nvArea (h.u 0 2))) (badField 2)
    <|> s.aimCheck l
  objs := fun h => (aimed (h.u 0 2) (h.u 2 2)).map Obj.sector
  busy := fun h s => s.fieldHeld (aimed (h.u 0 2) (h.u 2 2))
  refused := fun _ r s => s.aimRefused r
  act := fun h s => s.nvHostStart { nvErase_ (h.u 0 2) (h.u 2 2) (.host h.ring h.idx) with restore := true }

/-- CMD_NVA_ERASE. -/
def execCmdNvaErase (sl : Slot) (s : State) : Res := runCmd specNvaErase sl s

def specNvaProtect : CmdSpec where
  opc := 0x0A04
  dom := fun _ => some dNva
  need := needs Role.integrator
  len := fun h => lenFixed [(0, 2), (2, 2)] h.len
  pre := fun h =>
    refuse (decide (4096 ≤ h.u 0 2)) (badField 0)
    <|> refuse (h.u 2 2 = 0 || decide (4096 < h.u 0 2 + h.u 2 2)) (badField 2)
  act := fun h s => .done (.ok []) (s.forEach (aimed (h.u 0 2) (h.u 2 2)) (fun s x => s.setProt x))

/-- CMD_NVA_PROTECT. -/
def execCmdNvaProtect (sl : Slot) (s : State) : Res := runCmd specNvaProtect sl s

def specNvaStatus : CmdSpec where
  opc := 0x0A05
  dom := fun _ => some dNva
  need := needs Role.auditor
  sync := true
  len := fun h => lenFixed [] h.len
  act := fun _ s => .done (.ok (toLe 2 s.nv.remap.length ++ toLe 2 s.sparesLeft ++ toLe 1 s.nv.booted)) s

/-- CMD_NVA_STATUS. -/
def execCmdNvaStatus (sl : Slot) (s : State) : Res := runCmd specNvaStatus sl s

def specNvaImageLoad : CmdSpec where
  opc := 0x0A06
  dom := fun _ => some dNva
  need := needs Role.integrator
  len := fun h => lenFixed [(0, 8)] h.len
  bufs := [(0, false)]
  check := fun h s => refuse (!s.fwValid (h.inp 0 0)) (coded St.badParam Dt.signature 0)
  act := fun h s =>
    let b := h.inp 0 0
    let n := 256 + imgBody b
    let slot := 1 - s.nv.booted
    .later .nv (s.nvStart
      { nvErase_ (fwSector slot) (ceilDiv n 4096) (.host h.ring h.idx) with
        program := true, data := b.take n, eff := .image slot (fwDigest b) })

/-- CMD_NVA_IMAGE_LOAD. -/
def execCmdNvaImageLoad (sl : Slot) (s : State) : Res := runCmd specNvaImageLoad sl s

end Sys2Proof.Machine
end

