-- ==== Sys2Proof/Machine/PairOps.lean ====
section
/-! DEFINITION. The control pairs as the rest of the device sees them, and applets: what starts and stops one (R301,
R323, R328 to R330). -/

namespace Sys2Proof.Machine

/-! ### Pairs -/

/-- A pair as it leaves reset (R301). -/
def Pair.reset : Pair :=
  { c := [], pcc := CReg.root, ecp := CReg.null, scentry := CReg.null, scsp := CReg.null, scret := CReg.null,
    ecause := 0, eval := 0, mpuBase := [], mpuAttr := [], marked := [], wfi := false, repi := none,
    stall := none }

def State.pr (s : State) (k : Nat) : Pair := Tbl.get (fun _ => Pair.reset) s.pairs k
def State.setPr (s : State) (k : Nat) (p : Pair) : State := { s with pairs := Tbl.set (fun _ => Pair.reset) s.pairs k p }

/-- The codes of DEV_PAIR_STS.STATE. -/
def pHeld : Nat := 0
def pRunning : Nat := 1
def pHalted : Nat := 2

def State.pairSt (s : State) (k : Nat) : Nat := s.f (F.DEV_PAIR_STS_STATE k)

/-- Register c_i of a pair; c0 reads as null (R293). -/
def Pair.reg (p : Pair) (i : Nat) : CReg := if i = 0 then CReg.null else Tbl.get (fun _ => CReg.null) p.c i
def Pair.setReg (p : Pair) (i : Nat) (v : CReg) : Pair :=
  if i = 0 then p else { p with c := Tbl.set (fun _ => CReg.null) p.c i v }

/-- The interrupt and pair registers of a pair return to their reset values. -/
def State.pairRegsReset (s : State) (k : Nat) : State :=
  s.resetRegs (fun a =>
    (decide (R.DEV_IRQ_CFG (256 * k) ≤ a) && decide (a < R.DEV_IRQ_CFG (256 * k + 256)))
    || (decide (R.DEV_IRQ_PEND (8 * k) ≤ a) && decide (a < R.DEV_IRQ_PEND (8 * k + 8)))
    || a = R.DEV_IRQ_CUR k || a = R.DEV_PAIR_STS k || a = R.DEV_PAIR_CAUSE k)

/-- A pair resets: its registers as R301 gives; an application pair is then held until Aeduf starts it. -/
def State.pairReset (s : State) (k : Nat) : State := (s.setPr k Pair.reset).pairRegsReset k

/-! ### The memory of an applet -/

/-- Bytes of on-chip memory return to 0, their tags and poison marks cleared. -/
def State.memZero (s : State) (a n : Nat) : State :=
  { s with mem := Tbl.clear s.mem (fun x => decide (a ≤ x) && decide (x < a + n)),
           tags := s.tags.filter (fun e => !(decide (a / 16 ≤ e.1) && decide (e.1 * 16 < a + n))),
           ecc := { s.ecc with poison := s.ecc.poison.filter (fun e =>
             !(markInMem e.1 && decide (a ≤ markStart e.1) && decide (markStart e.1 + 32 ≤ a + n))) } }

/-- The applet states of Table EXC-8. -/
def apLoaded : Nat := 0
def apRunning : Nat := 1
def apStopped : Nat := 2
def apFaulted : Nat := 3

def State.app (s : State) (id : Nat) : Option App := Tbl.get (fun _ => none) s.apps id
def State.setApp (s : State) (id : Nat) (a : Option App) : State := { s with apps := Tbl.set (fun _ => none) s.apps id a }

/-- The applets in the store, by ascending APP_ID. -/
def State.appList (s : State) : List (Nat × App) := s.apps.filterMap (fun e => e.2.map (fun a => (e.1, a)))

/-- The least power of two, as its exponent from 12 up, that holds `n` bytes. -/
def logUp (n : Nat) : Nat := ((rangeFrom 12 29).find? (fun z => decide (n ≤ 2 ^ z))).getD 40

/-- The MPU regions an applet takes: its code, its data with the stack above it, and its shared SRAM. -/
def App.codeRoom (a : App) : Nat := 2 ^ logUp a.codeLen
def App.dataRoom (a : App) : Nat := 2 ^ logUp (a.dataLen + a.bssLen + a.stackLen)
def App.sramRoom (a : App) : Nat := if a.sramLen = 0 then 0 else 2 ^ logUp a.sramLen

/-- The address of a pair's tightly coupled memory (Table ISA-5). -/
def tcmBase (pair : Nat) : Nat := 0x10000000 + pair * 0x100000

/-- RUNNING applets of a pair. -/
def State.runningOn (s : State) (pair : Nat) : List (Nat × App) :=
  s.appList.filter (fun e => e.2.st = apRunning && e.2.core + 1 = pair)

/-- The lowest multiple of `n` from `lo` below `hi` at which `n` bytes meet none of the ranges. -/
def lowestFree (taken : List (Nat × Nat)) (lo hi n : Nat) : Option Nat :=
  ((List.range ((hi - lo) / n + 1)).map (fun i => ceilDiv lo n * n + n * i)).find? (fun a =>
    decide (a + n ≤ hi) && taken.all (fun t => decide (a + n ≤ t.1) || decide (t.1 + t.2 ≤ a)))

/-- Where an applet's code and its data go in a pair: above the monitor's 64 KiB, clear of the pair's other applets. -/
def State.appPlace (s : State) (a : App) (pair : Nat) : Option (Nat × Nat) :=
  let lo := tcmBase pair + 0x10000
  let hi := tcmBase pair + 0x80000
  let taken := (s.runningOn pair).flatMap (fun e => [(e.2.mem, e.2.codeRoom), (e.2.dmem, e.2.dataRoom)])
  match lowestFree taken lo hi a.codeRoom with
  | none => none
  | some m => (lowestFree ((m, a.codeRoom) :: taken) lo hi a.dataRoom).map (fun d => (m, d))

/-- Where its shared SRAM goes: in the upper half, clear of every other applet's. -/
def State.appSram (s : State) (a : App) : Option Nat :=
  if a.sramLen = 0 then some 0
  else lowestFree ((s.appList.filter (fun e => e.2.st = apRunning && e.2.sramLen ≠ 0)).map (fun e => (e.2.sram, e.2.sramRoom)))
    (sramBase + 0x200000) (sramBase + 0x400000) a.sramRoom

/-- Channels of 16 to 63 that are free. -/
def State.freeChans (s : State) : List Nat := (rangeFrom 16 48).filter (fun n => !s.fb (F.DMA_GRANT_ASSIGNED n))

/-- The interrupt sources of an IRQ_MASK: bit i requests source 32 + i. -/
def maskSources (m : Nat) : List Nat := ((List.range 24).filter (fun i => bitAt m i)).map (· + 32)

/-! ### Starting (R248, R328, Table EXC-8) -/

/-- A capability over [a, a + n) with permissions, clipped from the root. -/
def capOver (a n perms : Nat) : CReg := ((CReg.root.setAddr a).clip n).put 112 16 perms

/-- An MPU region of a pair: base, log2 of its size, and rights U X W R. -/
def Pair.region (p : Pair) (i base size rights : Nat) : Pair :=
  { p with mpuBase := Tbl.set (fun _ => 0) p.mpuBase i (BitVec.ofNat 64 base),
           mpuAttr := Tbl.set (fun _ => 5 * 2 ^ 16) p.mpuAttr i (BitVec.ofNat 64 (2 ^ 31 + size * 2 ^ 16 + rights)) }

/-- The monitor enters ENTRY: pcc over the code only, csp over the stack, the other registers cleared, and regions 4 to 6
for code, data with stack, and shared SRAM. -/
def Pair.enterApp (p : Pair) (a : App) : Pair :=
  let code := capOver a.mem a.codeRoom (Perm.exec + Perm.load)
  let top := a.dmem + a.dataRoom
  let stack := capOver (top - a.stackLen) a.stackLen (Perm.load + Perm.store + Perm.loadcap + Perm.storecap)
  let p := { p with c := [], pcc := code.setAddr (a.mem + a.entry), scret := CReg.null, wfi := false, repi := none, stall := none }
  let p := p.setReg 15 (stack.setAddr top)
  let p := (p.region 4 a.mem (logUp a.codeLen) 0xD).region 5 a.dmem (logUp (a.dataLen + a.bssLen + a.stackLen)) 0xB
  if a.sramLen = 0 then p else p.region 6 a.sram (logUp a.sramLen) 0xB

/-- The pair's memory is reached: the domain of an application pair that is not ON wakes (R411). -/
def State.pairWake (s : State) (k : Nat) : State := s.doIf (decide (0 < k)) (·.domWake (3 + k))

/-- The memory of a RUNNING applet as it starts: zeroed, with the code and the initialised data of its image (Table EXC-7). -/
def State.appFill (s : State) (a : App) : State :=
  let img := s.nvRead (a.sector * 4096) a.len
  let s := ((s.memZero a.mem a.codeRoom).memZero a.dmem a.dataRoom).memZero a.sram a.sramRoom
  (s.memWrite a.mem ((img.drop 64).take a.codeLen)).memWrite a.dmem ((img.drop (64 + a.codeLen)).take a.dataLen)

/-- The interrupt sources that its grant names are enabled on its pair. -/
def State.appSources (s : State) (a : App) : State :=
  s.forEach (maskSources a.irqMask) (fun s x => s.setF (F.DEV_IRQ_CFG_EN (256 * (a.core + 1) + x)) 1)

/-- A halted pair has been reset: its other applets start again (Table EXC-8). -/
def State.appsRestart (s : State) (k : Nat) : State :=
  s.forEach (s.runningOn k) (fun s e => (s.appFill e.2).appSources e.2)

/-- Assign memory, channels and sources, and enter: none where something does not fit. Its channels reach
its own part of shared SRAM and no other (R253). -/
def State.appStart (s : State) (id core : Nat) : Option State :=
  match s.app id with
  | none => none
  | some a =>
    match s.appPlace a (core + 1), s.appSram a with
    | some (m, d), some sr =>
      if s.freeChans.length < a.dmaCh then none
      else
        let ch := s.freeChans.take a.dmaCh
        let a := { a with st := apRunning, core := core, chans := ch, mem := m, dmem := d, sram := sr, ecause := 0, eval := 0 }
        let s := s.pairWake (core + 1)
        let s := s.appFill a
        let lo := (sr - sramBase) / 64
        let s := s.forEach ch (fun s n =>
          ((((s.setF (F.DMA_SRAM_LO_LO n) lo).setF (F.DMA_SRAM_HI_HI n) (lo + a.sramRoom / 64)).setF (F.DMA_GRANT_ASSIGNED n) 1).setF
            (F.DMA_GRANT_EP n) a.dmaEp).setF (F.DMA_GRANT_OWNER n) id)
        let s := s.appSources a
        some ((s.setPr (core + 1) ((s.pr (core + 1)).enterApp a)).setApp id (some a))
    | _, _ => none

/-! ### Stopping (Table EXC-8) -/

/-- A channel is aborted and taken back: an open number of blocks of its active descriptor has been moved (R248). -/
def State.chanBack (s : State) (n : Nat) : State :=
  let len := match (s.ch n).active with | some d => d.len | none => 0
  let (k, s) := s.openBelow (2 ^ 17)
  let (b, s) := s.openBytes (min len (256 * k))
  let s := (s.dmaAbort n k ⟨b, b, none, none, []⟩).dmaOff n
  ((((s.setF (F.DMA_SRAM_LO_LO n) 0).setF (F.DMA_SRAM_HI_HI n) 0).setF (F.DMA_GRANT_ASSIGNED n) 0).setF (F.DMA_GRANT_EP n) 0).setF
    (F.DMA_GRANT_OWNER n) 0

/-- The pair runs the applet: its program counter lies in the applet's code and lacks SYS. -/
def Pair.runs (p : Pair) (a : App) : Bool :=
  !p.pcc.has Perm.sys && decide (a.mem ≤ p.pcc.addr) && decide (p.pcc.addr < a.mem + a.codeRoom)

/-- A RUNNING applet loses its channels, sources and memory; a pair that runs it goes back to its monitor. -/
def State.appEnd (s : State) (id st : Nat) (a : App) : State :=
  let k := a.core + 1
  let s := s.pairWake k
  let s := s.forEach a.chans (fun s n => s.chanBack n)
  let s := s.forEach (maskSources a.irqMask) (fun s x => s.setF (F.DEV_IRQ_CFG_EN (256 * k + x)) 0)
  let s := ((s.memZero a.mem a.codeRoom).memZero a.dmem a.dataRoom).memZero a.sram a.sramRoom
  let p := s.pr k
  let s := s.doIf (p.runs a) (fun s => s.setPr k { p with c := [], pcc := p.scentry, scret := CReg.null, wfi := false, repi := none, stall := none })
  s.setApp id (some { a with st := st, chans := [] })

/-- CMD_APP_STOP, and the stop of a QUIESCE response. -/
def State.appStop (s : State) (id : Nat) : State :=
  match s.app id with
  | some a => if a.st = apRunning then s.appEnd id apStopped a else s
  | none => s

/-- QUIESCE stops every RUNNING applet (R330). -/
def State.appsQuiesce (s : State) : State := s.forEach (s.appList.map (·.1)) (fun s id => s.appStop id)

/-- A fault has been entered for an applet's code: the cause is recorded. -/
def State.appFault (s : State) (id : Nat) (ecause eval : BitVec 64) : State :=
  match s.app id with
  | some a => if a.st = apRunning then s.appEnd id apFaulted { a with ecause := ecause, eval := eval } else s
  | none => s

/-- A pair halted: the applet it ran is FAULTED (Table EXC-8). -/
def State.appsHalted (s : State) (k : Nat) : State :=
  s.forEach (s.runningOn k) (fun s e => if (s.pr k).runs e.2 then s.appEnd e.1 apFaulted e.2 else s)

end Sys2Proof.Machine
end

