-- ==== Sys2Proof/Machine/TmpOps.lean ====
section
/-! DEFINITION. The tamper responses in full, the sensors, the supply dip, and the tamper and log commands of family 0x0C
(R118, R346 to R348, R395 to R407). -/

namespace Sys2Proof.Machine

/-! ### Responses (R397) -/

/-- The kind of what a lane sends where a copy ends without an FCS, and where its normal transmission resumes. -/
def kCut : Nat := 10
def kResume : Nat := 11

/-- HALT: the Basin is freed and counted, copies under transmission are cut, and the lanes send Remote Fault or idle. -/
def State.haltFrames (s : State) : State :=
  let cut := s.fp.frames.flatMap (fun f => (f.copies.filter (fun c => c.phase = .sending)).map (fun c => s.portLane c.port))
  let s := s.forEach cut (fun s k => s.emit (.control k kCut []))
  let s := s.addF F.TMP_HALT_DROP_COUNT s.fp.frames.length
  let s := { s with fp := { s.fp with frames := [] }, grv := { s.grv with fills := [] } }.releaseAll
  s.forEach ((List.range 32).filter (fun k => s.laneUp k && s.fastLane k)) (fun s k => s.emit (.control k kFault []))

/-- The end of HALT: the lanes resume normal transmission (R401). -/
def State.haltEnd (s : State) : State :=
  s.forEach ((List.range 32).filter (fun k => s.laneUp k && s.fastLane k)) (fun s k => s.emit (.control k kResume []))

/-- The Grove keys and the hash keys are cleared; Grove is ABSENT from any state, with the loss rule applied (R183, Tables
KEY-5, GRV-8). -/
def State.grvBreach (s : State) : State :=
  let s := s.lossRule
  let s := s.mapWays (fun w => some { w with entry := { w.entry with keySlot := w.entry.keySlot % 32768 } })
  let s := { s with grv := { s.grv with copseKey := 0, hashKey := 0, newKey := 0, kgEnc := none, kgMac := none, mig := none, lines := [] } }
  let s := ((s.setF F.GRV_STATUS_STATE grvAbsent).setF F.GRV_STATUS_MIGRATED 0).setF F.GRV_STATUS_BKT_LOG2 0
  (s.grvFlag 1 0xFF 0xFFFFFFFF).updService

/-- The Breach line on main power (Table KEY-5): steps 1 and 2, and the start of steps 3 and 4. -/
def State.breachMain (s : State) : State :=
  let s := { s with berm := { s.berm with breach := true },
                    keys := { s.keys with work := none, kdf := none, stage := none, fldKeys := none, rolls := [], zeroizing := true,
                                          rootErasing := true } }
  let s := ((s.ciqStopAll St.keyZeroized).pkeBreach).forEach (List.range 32768) State.zeroSlot
  let s := s.grvBreach
  let s := (s.endHolders (fun _ => true)).keyFlag 0 0xFFFF
  s.closeSessions (fun _ => true) 4

/-- The Breach line on the backup cell erases the root area only (R347, R402). -/
def State.breachBackup (s : State) : State :=
  { s with berm := { s.berm with breach := true }, keys := { s.keys with root := .erased, rootErasing := false } }

/-- The actions of a response where the one in force was `was`. -/
def State.respActs (s : State) (was lvl : Nat) : State :=
  let rises := fun (n : Nat) => decide (was < n) && decide (n ≤ lvl)
  if s.berm.backup then s.doIf (rises 5) (·.breachBackup)
  else
    let s := s.doIf (rises 5) (·.breachMain)
    let s := s.doIf (rises 4) (·.haltFrames)
    s.doIf (rises 3) (fun s => s.ciqQuiesce.pkeQuiesce.appsQuiesce)

/-- Alarms that fire together: the strongest response acts, and each alarm is logged, and notified from NOTIFY on, in
order (R400). An alarm is its source, response, DATA and GAC value. -/
def State.respondAll (s : State) (l : List (Nat × Nat × Nat × BitVec 64)) : State :=
  let top := (l.map (fun a => a.2.1)).foldl max 0
  let src := ((l.find? (fun a => a.2.1 = top)).map (·.1)).getD 0
  let was := s.level
  let s := (s.raiseLevel top src).respActs was top
  s.forEach l (fun s a => s.alarmAt a.1 a.2.1 a.2.2.1 a.2.2.2)

/-- One alarm of a source at a response, 1 LOG to 5 BREACH. -/
def State.respond (s : State) (src lvl data : Nat) : State := s.respondAll [(src, lvl, data, s.gacNow)]

/-! ### Sensors (R395, R396, R398) -/

/-- The response of a sensor, 1 LOG to 5 BREACH. -/
def State.sensorLevel (s : State) (k : Nat) : Nat := min 4 (bitsOf (s.rd R.TMP_LEVEL).toNat (3 * k) 3) + 1

/-- A sensor is active. -/
def State.sensorOn (s : State) (k : Nat) : Bool := bitAt (s.f F.TMP_STS_ACTIVE) k

/-- The strongest response that an active sensor demands, or none. -/
def State.demanded (s : State) : Nat :=
  ((List.range 8).map (fun k => if s.sensorOn k then s.sensorLevel k else 0)).foldl max 0

/-- The outcome of one comparison of a sensor: its ACTIVE bit, and whether it alarms now. -/
def State.compare (s : State) (k : Nat) (fails : Bool) : Bool × State :=
  let new := fails && !s.sensorOn k
  let s := s.setF F.TMP_STS_ACTIVE (putBits (s.f F.TMP_STS_ACTIVE) k 1 (b2n fails))
  (new, s.doIf new (fun s => (s.setF F.TMP_HIST_SENSORS (s.f F.TMP_HIST_SENSORS ||| 2 ^ k)).tmpFlag 0 k))

/-- The GAC value a number of TBCLK ticks from now. -/
def State.gacAfter (s : State) (ticks : Nat) : BitVec 64 :=
  BitVec.ofNat 64 ((s.gac.cycle.toNat * 2 ^ 64 + s.gac.acc.toNat + ticks * s.gac.incr.toNat) / 2 ^ 40)

/-- SENSOR_ALARM: a comparison of continuous sensor 1, 2 or 3: it fails at a rail or clock, or it passes. -/
def execSensorAlarm (k : Fin 3) (fails : Bool) (data : Byte) (s : State) : Res :=
  if s.berm.backup then .next s
  else
    let i := k.val + 1
    let (new, s) := s.compare i fails
    .next (if new then s.respond i (s.sensorLevel i) data.toNat else s)

/-- The sampled sensors in index order. -/
def sampled : List Nat := [0, 4, 5, 6, 7]

/-- BERM_SAMPLE: the sampled sensors are compared in index order, 8 ticks each, and VBAT is measured in mV. -/
def execBermSample (fails : BitVec 8) (vbat : BitVec 12) (s : State) : Res :=
  let s := { s with berm := { s.berm with counted := if s.berm.backup then s.berm.counted + 256000000 else s.berm.counted } }
  let low := decide (vbat.toNat < 2000)
  let was := s.fb F.TMP_STS_VBAT_LOW
  let s := (s.setF F.TMP_VBAT_MV vbat.toNat).setB F.TMP_STS_VBAT_LOW low
  let s := s.doIf (low && !was) (fun s => s.tmpFlag 4 0)
  let step := fun (acc : State × List (Nat × Nat × Nat × BitVec 64)) (x : Nat × Nat) =>
    let (new, t) := acc.1.compare x.2 (bitAt fails.toNat x.2)
    (t, if new then acc.2 ++ [(x.2, s.sensorLevel x.2, 0, s.gacAfter (8 * x.1))] else acc.2)
  let (s, l) := (List.zip (List.range 5) sampled).foldl step (s, [])
  .next (if l = [] then s else s.respondAll l)

/-- TMP_LEVEL_WRITE: each sensor's response, raised to its floor. -/
def State.tmpLevelWrite (s : State) (value : Word) : State :=
  let v := value.toNat
  s.wr R.TMP_LEVEL (BitVec.ofNat 32 (((List.range 8).map (fun k => max (bitsOf v (3 * k) 3) (alarmFloor k) * 2 ^ (3 * k))).foldl (· + ·) 0))

def execTmpLevelWrite (value : Word) (s : State) : Res := .next (s.tmpLevelWrite value)

/-! ### The supply dip (R118, R367, R392, R403) -/

/-- The dip meets a frame whose ingress cipher work is under way: it has been admitted and has no verdict. -/
def Frame.meetDip (f : Frame) : Frame :=
  let busy := f.verdict.isNone && decide (0 < f.jobBlocks) && (match f.phase with | .waiting _ => false | _ => true)
  { f with dipped := f.dipped || busy,
           copies := f.copies.map (fun c => if c.slot.isSome && c.phase ≠ .queued then { c with spoilt := true } else c) }

/-- SUPPLY_DIP: VDD_CORE falls below its warning level. -/
def execSupplyDip (s : State) : Res :=
  if s.berm.dipping || s.berm.backup then .next s
  else
    let s := { s with berm := { s.berm with dipping := true, settling := false, dipTick := s.gac.now },
                      ciq := { s.ciq with running := s.ciq.running.map (fun (r : CiqReq) => { r with dipped := true }) },
                      fp := { s.fp with frames := s.fp.frames.map Frame.meetDip } }
    let s := s.raise fpxEvt 7 0xFFFFFFFF
    .next s.pkeDip.nvDip

/-- DIP_RECOVERY: VDD_CORE is back above its warning level: the brownout notice. -/
def execDipRecovery (s : State) : Res :=
  if !s.berm.dipping then .next s
  else
    let n := min ((s.gac.now - s.berm.dipTick) * 8 / 100) (2 ^ 32 - 1)
    let s := { s with berm := { s.berm with dipping := false, settling := true } }
    let s := (s.tmpLog 0x10 0 n).addF F.TMP_BROWN_CNT_COUNT 1
    .next (s.tmpFlag 2 0x10)

/-- DIP_SETTLED: 1 us later: aborted jobs restart and a stopped NV operation is verified; `exact` says that the word or
sector under way holds its intended value. -/
def execDipSettled (exact : Bool) (s : State) : Res :=
  if !s.berm.settling then .next s
  else
    let s := { s with berm := { s.berm with settling := false } }
    .next (s.pkeSettled.nvDipSettled exact)

/-! ### A PKE fault (R362) -/

/-- PKE_JOB_DONE: the running job's runs end; `fault` says that they differ or an invariant failed. -/
def execPkeJobDone (fault : Bool) (msg key sig : List Byte) (ecc : List EccHit) (s : State) : Res :=
  let (s, r) := s.pkeJobDone fault msg key sig ecc
  match r with
  | some lvl => .next (s.respond 0x22 lvl 0)
  | none => .next s

/-! ### Commands (Table CMD-15) -/

def specTmpStatus : CmdSpec where
  opc := 0x0C01
  need := needs Role.auditor
  sync := true
  len := fun h => lenFixed [] h.len
  act := fun _ s => .done (.ok (packR [(1, s.level), (4, s.f F.TMP_STS_ACTIVE), (1, s.f F.TMP_LOG_HEAD), (2, s.f F.TMP_LOG_COUNT)] [])) s

/-- CMD_TMP_STATUS. -/
def execCmdTmpStatus (sl : Slot) (s : State) : Res := runCmd specTmpStatus sl s

/-- The 32 bytes of a tamper log entry (Table TMP-3). -/
def LogEntry.bytes (e : LogEntry) : List Byte :=
  toLe 4 e.seq ++ toLe 1 e.source ++ toLe 1 e.level ++ toLe 1 e.inForce ++ toLe 1 e.flags ++ toLe 8 e.gac.toNat
    ++ toLe 8 (e.taiSec % 2 ^ 48) ++ toLe 4 e.taiNs ++ toLe 4 e.data

/-- The entry at an index; zeros where none has been written. -/
def State.logAt (s : State) (i : Nat) : List Byte :=
  match Tbl.get (fun _ => none) s.berm.log (i % 256) with
  | some e => e.bytes
  | none => List.replicate 32 0

/-- The entries held, oldest to head. -/
def State.logAll (s : State) : List Byte :=
  let n := s.f F.TMP_LOG_COUNT
  (List.range n).flatMap (fun i => s.logAt (s.f F.TMP_LOG_HEAD + 257 - n + i))

def specLogTamperRead : CmdSpec where
  opc := 0x0C02
  need := needs Role.auditor
  len := fun h => lenFixed [(0, 1), (2, 2), (4, 8)] h.len
  bufs := [(4, true)]
  pre := fun h => refuse (h.u 2 2 = 0 || decide (256 < h.u 2 2)) (badField 2) <|> h.short 4 (32 * h.u 2 2)
  act := fun h s =>
    let b := (List.range (h.u 2 2)).flatMap (fun i => s.logAt (h.u 0 1 + i))
    .done (.ok (toLe 4 b.length)) (s.putBuf h 4 b)

/-- CMD_LOG_TAMPER_READ. -/
def execCmdLogTamperRead (sl : Slot) (s : State) : Res := runCmd specLogTamperRead sl s

/-- The 16 bytes of a Blaze log entry, as BLZ_ADDR_LO_n to BLZ_CYC_HI_n hold it (Table SDI-4). -/
def BlzEntry.bytes (e : BlzEntry) : List Byte :=
  toLe 4 e.addr ++ toLe 4 (e.region * 2 ^ 24 + e.kind * 2 ^ 16 + e.count * 2 ^ 8 + e.addr / 2 ^ 32 % 256)
    ++ toLe 4 (e.gac.toNat / 2 ^ 24) ++ toLe 4 (e.gac.toNat % 2 ^ 24 * 256 + e.gac.toNat / 2 ^ 56)

def specLogBlazeRead : CmdSpec where
  opc := 0x0C03
  need := needs Role.auditor
  len := fun h => lenFixed [(0, 8)] h.len
  bufs := [(0, true)]
  pre := fun h => h.short 0 512
  act := fun h s =>
    let n := s.ecc.blaze.length
    .done (.ok (packR [(1, n), (1, b2n (decide (32 ≤ n))), (4, s.f F.BLZ_LOST_COUNT)] []))
      (s.putBuf h 0 (fitB 512 (s.ecc.blaze.flatMap BlzEntry.bytes)))

/-- CMD_LOG_BLAZE_READ. -/
def execCmdLogBlazeRead (sl : Slot) (s : State) : Res := runCmd specLogBlazeRead sl s

def specLogBlazeClear : CmdSpec where
  opc := 0x0C04
  need := needs Role.operator
  len := fun h => lenFixed [(0, 1)] h.len
  act := fun h s =>
    let l := s.ecc.blaze.drop (h.u 0 1)
    .done (.ok (toLe 1 l.length)) { s with ecc := { s.ecc with blaze := l, fullSeen := s.ecc.fullSeen && decide (32 ≤ l.length) } }

/-- CMD_LOG_BLAZE_CLEAR. -/
def execCmdLogBlazeClear (sl : Slot) (s : State) : Res := runCmd specLogBlazeClear sl s

def specTmpRelease : CmdSpec where
  opc := 0x0C05
  need := needs Role.keyOfficer
  len := fun h => lenFixed [(0, 1)] h.len
  check := fun h s =>
    let l := h.u 0 1
    refuse (l ≠ s.level || l = 0 || l = 5 || (List.range 8).any (fun k => s.sensorOn k && decide (l ≤ s.sensorLevel k))) (badState 0)
  act := fun h s =>
    let was := s.level
    let lvl := s.demanded
    let s := (s.setF F.TMP_STS_LEVEL lvl).tmpFlag 1 0x13
    let s := s.doIf (decide (4 ≤ was) && decide (lvl < 4)) (·.haltEnd)
    let s := s.doIf (decide (3 ≤ was) && decide (lvl < 3)) (fun s => ((s.setF F.CIQ_STS_QUIESCED 0).setF F.PKE_STS_QUIESCED 0).pkeNext)
    .done (.ok []) ((s.tmpLog 0x13 0 (h.u 0 1)).tmpFlag 5 0x13)

/-- CMD_TMP_RELEASE. -/
def execCmdTmpRelease (sl : Slot) (s : State) : Res := runCmd specTmpRelease sl s

def specTmpBreach : CmdSpec where
  opc := 0x0C06
  need := needs Role.keyOfficer
  sync := true
  len := fun h => lenFixed [(0, 4)] h.len
  pre := fun h => refuse (h.u 0 4 ≠ 0x42524348) (badField 0)
  never := true
  act := fun _ s =>
    let s := s.respond 0x12 5 0
    if s.keys.rootErasing then .later .breach s else .done (.ok []) s

/-- CMD_TMP_BREACH. -/
def execCmdTmpBreach (sl : Slot) (s : State) : Res := runCmd specTmpBreach sl s

end Sys2Proof.Machine
end

