-- ==== Sys2Proof/Machine/AppRows.lean ====
section
/-! DEFINITION. The applet commands and attestation statements (R247, R328 to R330, R345). -/

namespace Sys2Proof.Machine

/-! ### Applet images (Table EXC-7) -/

/-- The header of an applet image, as an applet that is LOADED; its place in the store is filled in later. -/
def appOf (b : List Byte) : App :=
  let n := 64 + beAt b 8 4 + beAt b 0xC 4 + 96
  { st := apLoaded, sector := 0, sectors := ceilDiv n 4096, len := n, digest := sha384 (b.take n), codeLen := beAt b 8 4,
    dataLen := beAt b 0xC 4, bssLen := beAt b 0x10 4, stackLen := beAt b 0x14 4, entry := beAt b 0x18 4, dmaCh := beAt b 0x1C 1,
    dmaEp := beAt b 0x1D 1 % 16, irqMask := beAt b 0x20 4, sramLen := beAt b 0x24 4, core := 0, chans := [], sram := 0, mem := 0,
    dmem := 0, ecause := 0, eval := 0 }

/-- The image is well formed and its grants fit a pair. -/
def appForm (b : List Byte) : Bool :=
  let a := appOf b
  b.take 4 = ascii "PWAP" && beAt b 4 2 = 1 && decide (a.len ≤ b.length) && decide (1024 ≤ a.stackLen) && decide (a.entry < a.codeLen)
  && a.entry % 4 = 0 && decide (a.dmaCh ≤ 12) && decide (a.codeRoom + a.dataRoom ≤ 0x70000) && decide (a.sramRoom ≤ 0x200000)

/-- SIG verifies under the operator key KEY_INDEX, enrolled for INTEGRATOR (R238, R329). -/
def State.appSigned (s : State) (b : List Byte) : Bool :=
  let a := appOf b
  match s.opKey (beAt b 6 2) with
  | some k => k.role = 4 && verifies 2 k.pub (b.take (a.len - 96)) (sliceB b (a.len - 96) 96)
  | none => false

/-- The lowest run of free sectors of the applet store (Table NVA-1). -/
def State.storeRun (s : State) (n : Nat) : Option Nat :=
  (rangeFrom 2080 1016).find? (fun x =>
    decide (x + n ≤ 3096) && s.appList.all (fun e => decide (x + n ≤ e.2.sector) || decide (e.2.sector + e.2.sectors ≤ x)))

/-- The lowest free applet number. -/
def State.freeApp (s : State) : Nat := ((rangeFrom 1 33).find? (fun i => (s.app i).isNone)).getD 33

def specAppLoad : CmdSpec where
  opc := 0x0E01
  need := needs Role.integrator
  len := fun h => lenFixed [(0, 8)] h.len
  bufs := [(0, false)]
  check := fun h s =>
    let b := h.inp 0 0
    let a := appOf b
    refuse (!appForm b) (badField 0)
    <|> refuse (!s.appSigned b) (coded St.badParam Dt.signature 0)
    <|> (match s.storeRun a.sectors with
         | some x => ((rangeFrom x a.sectors).find? s.nvProt).map (fun y => coded St.badParam Dt.protected_ y)
         | none => none)
  busy := fun h s =>
    refuse (decide (32 ≤ s.appList.length) || (s.storeRun (appOf (h.inp 0 0)).sectors).isNone) (coded St.busy Dt.tableFull 0)
  act := fun h s =>
    let b := h.inp 0 0
    let a := appOf b
    match s.storeRun a.sectors with
    | none => .done (coded St.busy Dt.tableFull 0) s
    | some x =>
      let id := s.freeApp
      let s := s.forEach (rangeFrom x a.sectors) (fun s y => s.nvEraseJ y)
      let s := s.nvWrite (x * 4096) (b.take a.len)
      .done (.ok (toLe 2 id ++ a.digest)) (s.setApp id (some { a with sector := x }))

/-- CMD_APP_LOAD. -/
def execCmdAppLoad (sl : Slot) (s : State) : Res := runCmd specAppLoad sl s

/-- An applet that is absent, or in a state that the command does not take. -/
def State.appIn (s : State) (id : Nat) (sts : List Nat) : Option Reply :=
  match s.app id with
  | none => some (badState id)
  | some a => refuse (!decide (a.st ∈ sts)) (badState id)

def specAppStart : CmdSpec where
  opc := 0x0E02
  need := needs Role.integrator
  len := fun h => lenFixed [(0, 2), (2, 1)] h.len
  pre := fun h => refuse (decide (3 < h.u 2 1)) (badField 2)
  check := fun h s => s.appIn (h.u 0 2) [apLoaded, apStopped, apFaulted]
  objs := fun h => [.applet (h.u 0 2)]
  busy := fun h s =>
    refuse (decide (3 ≤ s.level) || s.pairSt (h.u 2 1 + 1) ≠ pRunning || (s.appStart (h.u 0 2) (h.u 2 1)).isNone) (coded St.busy Dt.none 0)
  act := fun h s =>
    match s.appStart (h.u 0 2) (h.u 2 1) with
    | some t => .done (.ok []) t
    | none => .done (coded St.busy Dt.none 0) s

/-- CMD_APP_START. -/
def execCmdAppStart (sl : Slot) (s : State) : Res := runCmd specAppStart sl s

def specAppStop : CmdSpec where
  opc := 0x0E03
  need := needs Role.integrator
  len := fun h => lenFixed [(0, 2)] h.len
  check := fun h s => s.appIn (h.u 0 2) [apRunning]
  objs := fun h => [.applet (h.u 0 2)]
  act := fun h s => .done (.ok []) (s.appStop (h.u 0 2))

/-- CMD_APP_STOP. -/
def execCmdAppStop (sl : Slot) (s : State) : Res := runCmd specAppStop sl s

def specAppDelete : CmdSpec where
  opc := 0x0E04
  need := needs Role.integrator
  len := fun h => lenFixed [(0, 2)] h.len
  check := fun h s =>
    s.appIn (h.u 0 2) [apLoaded, apStopped, apFaulted]
    <|> (match s.app (h.u 0 2) with
         | some a => ((rangeFrom a.sector a.sectors).find? s.nvProt).map (fun y => coded St.badParam Dt.protected_ y)
         | none => none)
  objs := fun h => [.applet (h.u 0 2)]
  act := fun h s =>
    match s.app (h.u 0 2) with
    | some a => .done (.ok []) ((s.forEach (rangeFrom a.sector a.sectors) (fun s y => s.nvEraseJ y)).setApp (h.u 0 2) none)
    | none => .done (badState (h.u 0 2)) s

/-- CMD_APP_DELETE. -/
def execCmdAppDelete (sl : Slot) (s : State) : Res := runCmd specAppDelete sl s

def specAppList : CmdSpec where
  opc := 0x0E05
  need := needs Role.auditor
  len := fun h => lenFixed [(0, 8)] h.len
  bufs := [(0, true)]
  act := fun h s =>
    let (n, s) := s.openBelow ((h.buf 0).2 + 1)
    let (b, s) := s.openBytes n
    .done (.ok (toLe 2 s.appList.length)) (s.putBuf h 0 b)

/-- CMD_APP_LIST. -/
def execCmdAppList (sl : Slot) (s : State) : Res := runCmd specAppList sl s

/-! ### Attestation statements (Table KEY-4) -/

/-- The statement's bytes before SIG, for a nonce, with the applets given; REGEN also while the fuse lock is open (R460). -/
def State.statement (s : State) (nonce : List Byte) (apps : List (Nat × App)) : List Byte :=
  let ptp := s.fb F.GAC_PTP_STATUS_LOCK
  let def_ := s.fb F.CFG_STATUS_DEFAULTS
  ascii "PWAT" ++ toBe 2 1 ++ toBe 2 (b2n (s.fb F.KEY_ROOT_STS_REGEN || !s.fb F.RST_FUSE_LOCKED) + 2 * b2n def_) ++ fitB 32 nonce
    ++ toBe 4 (s.rd R.DEV_ID).toNat ++ toBe 1 (bitsOf (s.rd R.DEV_VER).toNat 8 8) ++ toBe 1 (s.f F.RST_STS_STAGE) ++ toBe 1 s.service
    ++ toBe 1 s.gst ++ sha384 s.keys.idPub ++ toBe 4 (s.rd R.DEV_AEDUF_VER).toNat ++ toBe 1 s.nv.booted ++ toBe 1 s.level
    ++ toBe 1 (s.f F.TMP_LOG_HEAD) ++ toBe 1 apps.length ++ fwDigest (s.fwSlot s.nv.booted)
    ++ toBe 8 (if def_ then 0 else s.cfg.active.seq) ++ (if def_ then fitB 48 [] else fitB 48 s.cfg.active.digest)
    ++ toBe 8 s.gacNow.toNat ++ toBe 8 (if ptp then s.taiNs / 10 ^ 9 % 2 ^ 48 else 0) ++ toBe 4 (if ptp then s.taiNs % 10 ^ 9 else 0)
    ++ toBe 2 (s.f F.TMP_LOG_COUNT) ++ toBe 2 s.keys.rootGen ++ sha384 s.logAll
    ++ apps.flatMap (fun e => toBe 2 e.1 ++ toBe 1 e.2.st ++ [0] ++ e.2.digest)

/-- A statement signed by the identity key; none where the identity cannot be derived. -/
def State.attest (s : State) (nonce : List Byte) (apps : List (Nat × App)) : Option (List Byte × State) :=
  match s.identity with
  | none => none
  | some k =>
    let m := s.statement nonce apps
    let (sig, s) := s.sign 2 k m
    some (m ++ sig, s)

def specAttStatement : CmdSpec where
  opc := 0x0901
  need := needs Role.auditor
  len := fun h => lenFixed [(0, 32), (32, 8)] h.len
  bufs := [(32, true)]
  check := fun h s =>
    refuse s.identity.isNone (coded St.tamperLockout Dt.none 0) <|> h.short 32 (376 + 52 * s.appList.length)
  busy := fun _ s => pkeBusy s <|> refuse s.rngDown (coded St.busy Dt.none 0)
  act := fun h s =>
    match s.attest (sliceB h.params 0 32) s.appList with
    | some (b, s) => .done (.ok (toLe 4 b.length)) (s.putBuf h 32 b)
    | none => .done (coded St.tamperLockout Dt.none 0) s

/-- CMD_ATT_STATEMENT. -/
def execCmdAttStatement (sl : Slot) (s : State) : Res := runCmd specAttStatement sl s

end Sys2Proof.Machine
end

