-- ==== Sys2Proof/Machine/PldOps.lean ====
section
/-! DEFINITION. The membership credential: its checks, and what taking one changes (R276, Table TWN-1). -/

namespace Sys2Proof.Machine

def credId (c : List Byte) : Nat := beAt c 4 4
def credMember (c : List Byte) : Nat := beAt c 8 2
def credLeader (c : List Byte) : Bool := bitAt (beAt c 0xA 2) 0
def credInt (c : List Byte) : Nat := beAt c 0x42 1
def credAuth (c : List Byte) : List Byte := sliceB c 0x44 97

/-- A credential of Table TWN-1 whose AUTH_PUB lies on P-384 and whose SIG verifies under it. -/
def credSigned (c : List Byte) : Bool :=
  c.length = 261 && c.take 4 = ascii "PWPC" && credId c ≠ 0 && decide (credMember c ≤ 4095) && decide (10 ≤ credInt c)
  && beAt c 0x44 1 = 4 && pointGood 2 (credAuth c) && verifies 2 (credAuth c) (c.take 0xA5) (sliceB c 0xA5 96)

/-- The device accepts a credential: it names the device and, where one has been accepted, the same AUTH_PUB. -/
def State.credGood (s : State) (c : List Byte) : Bool :=
  credSigned c && sliceB c 0xC 48 = sha384 s.keys.idPub
  && (match s.twin.authPub with | some a => a = credAuth c | none => true)

/-- The registers that show the credential held. -/
def State.showCred (s : State) : State :=
  match s.twin.cred with
  | some c => (((s.setF F.TWN_PLD_STATUS_MEMBER_OF 1).setF F.TWN_PLD_STATUS_MEMBER (credMember c))).setF F.TWN_PLD_ID_ID (credId c)
  | none => (((s.setF F.TWN_PLD_STATUS_MEMBER_OF 0).setF F.TWN_PLD_STATUS_MEMBER 0).setF F.TWN_PLD_ID_ID 0).setF F.TWN_PLD_STATUS_LEADER 0

/-- A credential is stored; the first accepted fixes AUTH_PUB. The wait of R289 for a beacon counts from the joining. -/
def State.takeCred (s : State) (c : List Byte) : State :=
  let since := if s.twin.cred.isSome then s.twin.lastBeacon else s.gac.passed
  let s := s.recordWrite s.nv.opKeys (some c)
  { s with twin := { s.twin with authPub := some (credAuth c), lastBeacon := since } }.showCred

end Sys2Proof.Machine
end

