-- ==== Sys2Proof/Machine/FldRows.lean ====
section
/-! DEFINITION. The field interface: tag states, the field command set, the seal, the mailbox, and the field commands of
family 0x0B (R246, R418 to R431, R434). -/

namespace Sys2Proof.Machine

/-! ### Frames and states -/

/-! The codes of FLD_STS.TAG_STATE. -/
def tgNone : Nat := 0
def tgIdle : Nat := 1
def tgReady : Nat := 2
def tgActive : Nat := 3
def tgHalt : Nat := 4
def tgOpen : Nat := 5
def tgSecured : Nat := 6

def State.tag (s : State) : Nat := s.f F.FLD_STS_TAG_STATE
def State.setTag (s : State) (t : Nat) : State := s.setF F.FLD_STS_TAG_STATE t
def State.fldFlag (s : State) (bit : Nat) : State := s.raise fldEvt bit (s.f F.FLD_STS_KEY_INDEX)

/-- CRC_A of ISO/IEC 14443-3, least significant byte first. -/
def crcStep (crc : Nat) (b : Byte) : Nat :=
  (List.range 8).foldl (fun c i => if bitAt (c ^^^ (b.toNat >>> i)) 0 then (c / 2) ^^^ 0x8408 else c / 2) crc
def crcA (bs : List Byte) : List Byte := toLe 2 (bs.foldl crcStep 0x6363)

/-- The device answers with a frame, with or without CRC_A. -/
def State.answer (s : State) (bs : List Byte) : State := s.emit (.field bs)
def State.answerCrc (s : State) (bs : List Byte) : State := s.emit (.field (bs ++ crcA bs))

/-- The device listens as a tag: MODE tag, a field, and the domain ON or powered by the field. -/
def State.tagOn (s : State) : Bool :=
  s.f F.FLD_CTL_MODE = 1 && s.fb F.FLD_STS_FIELD && (s.fb F.FLD_STS_HARVESTED || s.domOn dField)

/-- A frame with a good CRC has been received (R434). -/
def State.frameIn (s : State) : State := (s.addF F.FLD_FRAMES_COUNT 1).irqAll 52

/-- A frame that a tag state does not expect returns the tag to IDLE or HALT (ISO/IEC 14443-3). -/
def State.tagBack (s : State) : State :=
  if s.tag = tgReady || s.tag = tgActive then s.setTag (if s.fld.star then tgHalt else tgIdle) else s

def State.setFld (s : State) (g : FieldIf → FieldIf) : State := { s with fld := g s.fld }

/-- The session keys are cleared and the handshake dropped. -/
def State.unseal (s : State) : State :=
  { (s.setFld (fun x => { x with hs := none, seq := 0, role := 0 })).setF F.FLD_STS_KEY_INDEX 0 with
    keys := { s.keys with fldKeys := none } }

/-- The end of a field session; on main power its mailbox processing is owed (Table FLD-2). -/
def State.endSession (s : State) : State :=
  if s.fieldSession then
    let s := (s.fldFlag 3).unseal
    (s.setF F.FLD_STS_RATE 0).setFld (fun x => { x with rateTx := 0, mbxDue := x.mbxDue || !s.berm.backup })
  else s.unseal

/-! ### The field (R422, R431) -/

/-- FIELD_PRESENT: an external field appears; `strong` is at least 1.5 A/m. -/
def execFieldPresent (strong : Bool) (s : State) : Res :=
  if s.fb F.FLD_STS_FIELD then .next s
  else if s.berm.backup then
    if !strong then .next s
    else
      let s := s.resetRegs (fun a => decide (0x130000 ≤ a) && decide (a < 0x140000))
      let s := (s.setF F.FLD_STS_FIELD 1).setF F.FLD_STS_HARVESTED 1
      .next ((s.setTag tgIdle).fldFlag 0)
  else
    let s := s.domWake dField
    let s := s.setF F.FLD_STS_FIELD 1
    .next ((s.setTag (if s.f F.FLD_CTL_MODE = 1 then tgIdle else tgNone)).fldFlag 0)

/-- The field is lost. -/
def State.fieldGone (s : State) : State :=
  if !s.fb F.FLD_STS_FIELD then s
  else
    let s := s.endSession.fldFlag 1
    ((s.setTag tgNone).setF F.FLD_STS_FIELD 0).setF F.FLD_STS_HARVESTED 0

/-- FIELD_LOST: the field has stayed below the threshold for 100 us. -/
def execFieldLost (s : State) : Res := .next s.fieldGone

/-! ### ISO/IEC 14443-3 and -4 (R419, R420) -/

/-- REQA and WUPA: a tag that is not in the protocol answers ATQA from IDLE, and WUPA also from HALT. -/
def State.request (s : State) (wup : Bool) : State :=
  if !s.tagOn then s
  else
    let s := s.frameIn
    if s.tag = tgIdle || (wup && s.tag = tgHalt) then
      let star := s.tag = tgHalt
      ((s.setTag tgReady).setFld (fun x => { x with star := star, level := 0 })).answer [0x44, 0x00]
    else s.tagBack

/-- REQA. -/
def execReqa (s : State) : Res := .next (s.request false)
/-- WUPA. -/
def execWupa (s : State) : Res := .next (s.request true)

/-- The five bytes of a cascade level: identifier and BCC. -/
def State.cascade (s : State) (level : Nat) : List Byte :=
  let u := s.fld.uid
  let id : List Byte := if level = 0 then 0x88 :: u.take 3 else sliceB u 3 4
  id ++ [id.foldl (· ^^^ ·) 0]

/-- The bits of bytes, least significant first. -/
def bitsOfBytes (bs : List Byte) : List Bool := bs.flatMap (fun b => (List.range 8).map (fun i => bitAt b.toNat i))

/-- Bits as bytes, least significant first; the last byte is filled with 0. -/
def bytesOfBits (l : List Bool) : List Byte :=
  (List.range (ceilDiv l.length 8)).map (fun j =>
    BitVec.ofNat 8 (((List.range 8).map (fun i => b2n (l.getD (8 * j + i) false) * 2 ^ i)).foldl (· + ·) 0))

/-- ANTICOLLISION: a tag whose level and bits agree with those known answers the rest. -/
def execAnticollision (level : Fin 3) (known : List Bool) (s : State) : Res :=
  if !s.tagOn then .next s
  else
    let s := s.frameIn
    if s.tag ≠ tgReady || level.val ≠ s.fld.level then .next s.tagBack
    else
      let b := bitsOfBytes (s.cascade level.val)
      if decide (known.length < 40) && known = b.take known.length then .next (s.answer (bytesOfBits (b.drop known.length))) else .next s.tagBack

/-- SELECT: the full identifier of a level; SAK 0x04 after the first, 0x20 and ACTIVE after the second. -/
def execSelect (level : Fin 3) (id : List Byte) (s : State) : Res :=
  if !s.tagOn then .next s
  else
    let s := s.frameIn
    if s.tag ≠ tgReady || level.val ≠ s.fld.level || id ≠ s.cascade level.val then .next s.tagBack
    else if level.val = 0 then .next ((s.setFld (fun x => { x with level := 1 })).answerCrc [0x04])
    else .next ((s.setTag tgActive).answerCrc [0x20])

/-- HLTA. -/
def execHlta (s : State) : Res :=
  if !s.tagOn then .next s
  else
    let s := s.frameIn
    if s.tag = tgActive then .next (s.setTag tgHalt) else .next s.tagBack

/-- RATS: the ATS, and OPEN. -/
def execRats (s : State) : Res :=
  if !s.tagOn then .next s
  else
    let s := s.frameIn
    if s.tag ≠ tgActive then .next s.tagBack
    else
      let ta : Byte := if s.fb F.FLD_CTL_HIGH_RATE then 0xB3 else 0x80
      let s := (s.setTag tgOpen).setFld (fun x => { x with hs := none, seq := 0, role := 0 })
      .next (s.answerCrc [0x05, 0x78, ta, 0x60, 0x00])

/-- PPS: bit rates that the ATS granted are set: `dri` reader to device, `dsi` device to reader. -/
def execPps (dri dsi : Fin 4) (s : State) : Res :=
  if !s.tagOn then .next s
  else
    let s := s.frameIn
    let top := if s.fb F.FLD_CTL_HIGH_RATE then 2 else 0
    if s.tag ≠ tgOpen || decide (top < dri.val) || decide (top < dsi.val) then .next s
    else .next (((s.setF F.FLD_STS_RATE dri.val).setFld (fun x => { x with rateTx := dsi.val })).answerCrc [0xD0])

/-- S(DESELECT): answered; the session ends. -/
def execSDeselect (s : State) : Res :=
  if !s.tagOn then .next s
  else
    let s := s.frameIn
    if s.fieldSession then .next ((s.answerCrc [0xC2]).endSession.setTag tgHalt) else .next s

/-- FLD_WTX_SEND: S(WTX) with WTXM 1. -/
def execFldWtxSend (s : State) : Res :=
  if s.tagOn && s.fieldSession then .next (s.answerCrc [0xF2, 0x01]) else .next s

/-! ### Commands in OPEN and SECURED (R423, R426) -/

/-- The status words. -/
def swOk : Nat := 0x9000
def swLen : Nat := 0x6700
def swSec : Nat := 0x6982
def swLocked : Nat := 0x6983
def swCond : Nat := 0x6985
def swP : Nat := 0x6A86
def swNv : Nat := 0x6581

/-- K_RD, K_DR and KC of the key material (R426). -/
def kRd (km : List Byte) : List Byte := km.take 32
def kDr (km : List Byte) : List Byte := sliceB km 32 32
def kC (km : List Byte) : List Byte := sliceB km 64 32

def fldNonce (first seq : Nat) : List Byte := toBe 1 first ++ fitB 7 [] ++ toBe 4 seq

/-- An answer: data and status word; in SECURED the data is enciphered under K_DR. -/
def State.reply (s : State) (out : List Byte) (sw : Nat) : State :=
  match s.keys.fldKeys with
  | some km =>
    if out ≠ [] && s.tag = tgSecured then
      let n := fldNonce 2 s.fld.seq
      let c := (List.range out.length).map (fun i => Config.cipherByte gcm (kDr km) n (toBe 2 sw) out i)
      s.answer (toBe 4 s.fld.seq ++ c ++ (List.range 16).map (fun i => Config.macByte gcm (kDr km) n (toBe 2 sw) c i) ++ toBe 2 sw)
    else s.answer (out ++ toBe 2 sw)
  | none => s.answer (out ++ toBe 2 sw)

/-- The plain data of a command: in SECURED, SEQ, C and T under K_RD; none where SEQ or T is wrong. -/
def State.plain (s : State) (ins p1 p2 : Byte) (data : List Byte) : Option (List Byte) :=
  if s.tag ≠ tgSecured then some data
  else match s.keys.fldKeys with
    | none => none
    | some km =>
      let q := s.fld.seq + 1
      let c := sliceB data 4 (data.length - 20)
      let n := fldNonce 1 q
      let aad : List Byte := [0x80, ins, p1, p2]
      let t := (List.range 16).map (fun i => Config.macByte gcm (kRd km) n aad c i)
      if decide (20 ≤ data.length) && beAt data 0 4 = q && data.drop (data.length - 16) = t then
        some ((List.range c.length).map (fun i => Config.cipherByte gcm (kRd km) n aad c i))
      else none

/-- A command of Table FLD-3: received in a session, its protection checked, and then run on its plain data: the answer
data, the status word and the state. -/
def State.apdu (s : State) (ins p1 p2 : Byte) (data : List Byte) (run : State → List Byte → List Byte × Nat × State) : State :=
  if !s.tagOn || !s.fieldSession then s
  else
    let s := s.frameIn
    match s.plain ins p1 p2 data with
    | none => (s.unseal.setTag tgOpen).answer (toBe 2 swSec)
    | some d =>
      let s := if s.tag = tgSecured then s.setFld (fun x => { x with seq := x.seq + 1 }) else s
      let (out, sw, s) := run s d
      s.reply out sw

/-- The identity record (R424). -/
def State.idRecord (s : State) : List Byte :=
  ascii "PWID" ++ toBe 2 1 ++ toBe 1 (bitsOf (s.rd R.DEV_VER).toNat 8 8) ++ [0] ++ toBe 4 (s.rd R.DEV_ID).toNat ++ fitB 7 s.fld.uid ++ [0]
    ++ sha384 s.keys.idPub ++ toBe 4 s.keys.idCert.length

/-- GET_IDENTITY. -/
def execGetIdentity (p1 p2 : Byte) (data : List Byte) (s : State) : Res :=
  .next (s.apdu 0x10 p1 p2 data (fun s d => if d ≠ [] then ([], swLen, s) else (s.idRecord, swOk, s)))

/-- GET_CERT. -/
def execGetCert (p1 p2 : Byte) (data : List Byte) (s : State) : Res :=
  let o := 128 * (256 * p1.toNat + p2.toNat)
  .next (s.apdu 0x12 p1 p2 data (fun s d =>
    if d ≠ [] then ([], swLen, s)
    else if s.keys.idCert.length ≤ o then ([], swP, s)
    else ((s.keys.idCert.drop o).take 128, swOk, s)))

/-- The identity key and the engine can be used: main power, a root, the engine running and random bits. -/
def State.canSign (s : State) : Bool :=
  !s.berm.backup && s.identity.isSome && !s.rngDown && !s.fb F.PKE_STS_QUIESCED

/-- GET_ATTEST: a statement with no applets. -/
def execGetAttest (p1 p2 : Byte) (data : List Byte) (s : State) : Res :=
  .next (s.apdu 0x14 p1 p2 data (fun s d =>
    if !s.canSign then ([], swCond, s)
    else if d.length ≠ 32 then ([], swLen, s)
    else match s.attest d [] with
      | some (b, s) => (b, swOk, s)
      | none => ([], swCond, s)))

/-! ### The field seal (R425, R426) -/

/-- A seal refusal is counted. -/
def State.sealFail (s : State) : State := s.addF F.FLD_SESSIONS_FAILS 1

/-- SEAL_INIT: NONCE_R and Q_R; answered with NONCE_D, Q_D and SIG_D. -/
def execSealInit (p1 p2 : Byte) (data : List Byte) (s : State) : Res :=
  .next (s.apdu 0x20 p1 p2 data (fun s d =>
    let s := s.setFld (fun x => { x with hs := none })
    if s.tag ≠ tgOpen || !s.canSign then ([], swCond, s.sealFail)
    else if d.length ≠ 97 then ([], swLen, s.sealFail)
    else if !(byteAt d 32 = 4 && pointGood 1 (sliceB d 32 65)) then ([], swSec, s.sealFail)
    else
      let (n, s) := s.drawBytes 32
      let (r, s) := s.drawBytes 48
      let e := scalarOf 1 r
      let out := n ++ pubOf 1 e
      match s.identity with
      | none => ([], swCond, s.sealFail)
      | some k =>
        let (sig, s) := s.sign 2 k (d ++ out)
        (out ++ sig, swOk, s.setFld (fun x => { x with hs := some ⟨d.take 32, n, sliceB d 32 65, e, d ++ out⟩ }))))

/-- The first 16 bytes of HMAC-SHA-256 under KC over a byte and a digest. -/
def sealConf (km : List Byte) (b : Byte) (m : List Byte) : List Byte :=
  (hmac256 (kC km) (b :: sha384 m)).take 16

/-- Once its answer has been given in clear, a session whose keys stand is SECURED. -/
def State.takeSeal (s : State) : State :=
  doIf s (s.keys.fldKeys.isSome && decide (s.tag = tgOpen)) (fun s => s.setTag tgSecured)

/-- SEAL_FINISH: KEY_INDEX, SIG_R and CONF_R; answered with CONF_D. -/
def execSealFinish (p1 p2 : Byte) (data : List Byte) (s : State) : Res :=
  .next ((s.apdu 0x22 p1 p2 data (fun s d =>
    match s.fld.hs with
    | none => ([], swCond, s.sealFail)
    | some x =>
      if s.tag ≠ tgOpen || !s.canSign then ([], swCond, s.sealFail)
      else if d.length ≠ 114 then ([], swLen, s.sealFail)
      else
        let s := s.setFld (fun x => { x with hs := none })
        let k := beAt d 0 2
        let z := shared 0x10 x.eph x.qR
        let km := kdf z (ascii "PW1024 FIELD SEAL" ++ [0] ++ x.nonceR ++ x.nonceD ++ s.fld.uid) 96
        let script := x.script ++ d.take 2
        let sig := sliceB d 2 96
        if s.keyLocked k then ([], swLocked, s.sealFail)
        else match s.opKey k with
          | none => ([], swSec, (s.countRefusal k).sealFail)
          | some key =>
            if !verifies 2 key.pub script sig || sliceB d 98 16 ≠ sealConf km 0x52 (script ++ sig) then
              ([], swSec, (s.countRefusal k).sealFail)
            else
              let s := (s.clearRefusals k).setFld (fun x => { x with seq := 0, role := key.role })
              let s := { s with keys := { s.keys with fldKeys := some km } }
              let s := (s.setF F.FLD_STS_KEY_INDEX k).addF F.FLD_SESSIONS_SEALED 1
              -- the answer itself travels in clear: the session is sealed once it has been given
              (sealConf km 0x44 (script ++ sig), swOk, s.fldFlag 2))).takeSeal)

/-! ### The mailbox (R427, R428) -/

def mbxBase : Nat := 3104

/-- Who may read, program or erase a mailbox sector, 0 to 15. -/
def State.mbxMay (s : State) (write erase : Bool) (m : Nat) : Bool :=
  if s.tag = tgSecured then
    if !write then true
    else if m < 8 then s.fld.role = 2 || s.fld.role = 4 else s.fld.role = 4
  else s.fb F.FLD_STS_HARVESTED && s.fb F.FLD_CTL_HARV_PROV && !erase && decide (m < 8)

/-- MBX_READ. -/
def execMbxRead (p1 p2 : Byte) (data : List Byte) (le : BitVec 9) (s : State) : Res :=
  let w := 256 * p1.toNat + p2.toNat
  let n := le.toNat
  .next (s.apdu 0x30 p1 p2 data (fun s d =>
    if d ≠ [] || n = 0 || n % 8 ≠ 0 || decide (128 < n) then ([], swLen, s)
    else if 8192 ≤ w || decide (512 < w % 512 + n / 8) then ([], swP, s)
    else if !s.mbxMay false false (w / 512) then ([], swSec, s)
    else (s.nvRead (mbxBase * 4096 + 8 * w) n, swOk, s)))

/-- A field operation that failed twice: the sector is replaced with its contents kept (R390). -/
def State.mbxFail (s : State) (sec addr : Nat) : State :=
  let o : NvOp := { nvErase_ sec 1 .reg with restore := true, prior := s.nvRead (sec * 4096) 4096 }
  (s.nvRemap o sec addr).nvFlag 1 sec addr

/-- MBX_PROGRAM; `good` says that the words verified. -/
def execMbxProgram (p1 p2 : Byte) (data : List Byte) (good : Bool) (s : State) : Res :=
  let w := 256 * p1.toNat + p2.toNat
  .next (s.apdu 0x32 p1 p2 data (fun s d =>
    let n := d.length
    let a := mbxBase * 4096 + 8 * w
    let sec := mbxBase + w / 512
    if n = 0 || n % 8 ≠ 0 || decide (128 < n) then ([], swLen, s)
    else if 8192 ≤ w || decide (512 < w % 512 + n / 8) then ([], swP, s)
    else if !s.mbxMay true false (w / 512) then ([], swSec, s)
    else if s.nvProt sec then ([], swCond, s.nvFlag 7 sec a)
    else if (List.range (n / 8)).any (fun i => !s.nvErased (a + 8 * i)) then ([], swNv, s)
    else if !good then ([], swNv, s.mbxFail sec a)
    else ([], swOk, s.nvWrite a d)))

/-- MBX_ERASE; `good` says that the sector verified. -/
def execMbxErase (p1 p2 : Byte) (data : List Byte) (good : Bool) (s : State) : Res :=
  .next (s.apdu 0x34 p1 p2 data (fun s d =>
    let m := p1.toNat
    let sec := mbxBase + m
    if s.berm.backup then ([], swCond, s)
    else if d ≠ [] then ([], swLen, s)
    else if 16 ≤ m || p2 ≠ 1 then ([], swP, s)
    else if !s.mbxMay true true m then ([], swSec, s)
    else if s.nvProt sec then ([], swCond, s.nvFlag 7 sec (sec * 4096))
    else if !good then ([], swNv, s.mbxFail sec (sec * 4096))
    else ([], swOk, s.nvEraseJ sec)))

/-- The instruction codes of Table FLD-3. -/
def fldIns : List Nat := [0x10, 0x12, 0x14, 0x20, 0x22, 0x30, 0x32, 0x34]

/-- APDU_UNSUPPORTED: another CLA or INS. -/
def execApduUnsupported (cla ins : Byte) (s : State) : Res :=
  if !s.tagOn || !s.fieldSession then .next s
  else if cla ≠ 0x80 then .next (s.frameIn.answer (toBe 2 0x6E00))
  else if ins.toNat ∈ fldIns then .next s
  else .next (s.frameIn.answer (toBe 2 0x6D00))

/-! ### Mailbox processing (R429) -/

/-- A complete record at a byte of the inbound area: TYPE, VER, body and the bytes it takes. -/
def mbxRecord (area : List Byte) (o : Nat) : Option (Nat × Nat × List Byte × Nat) :=
  let len := beAt area (o + 8) 4
  let n := 12 + len + (8 - (12 + len) % 8) % 8
  if sliceB area o 4 = ascii "PWMB" && decide (o + n + 8 ≤ area.length)
      && sliceB area (o + n) 8 = toBe 4 (crc32 (sliceB area o n)).toNat ++ [0, 0, 0, 0] then
    some (beAt area (o + 4) 1, beAt area (o + 5) 1, sliceB area (o + 12) len, n + 8)
  else none

/-- The records in order. -/
def mbxRecords (area : List Byte) : Nat → Nat → List (Nat × Nat × List Byte)
  | 0, _ => []
  | fuel + 1, o =>
    match mbxRecord area o with
    | some (t, v, b, n) => (t, v, b) :: mbxRecords area fuel (o + n)
    | none => []

/-- A slot that stands for Aeduf's own command, with no session. -/
def aedufHeld (opc : Nat) : Held :=
  { ring := 0, idx := 0, opc := opc, flags := 0, tag := 0, handle := 64 * 2 ^ 16, cycle := 0, len := 0, params := [], bufs := [],
    poison := none, mute := true }

/-- Type 0x01: staged as by CMD_CRD_BUNDLE_STAGE, and committed for the earliest cycle. -/
def State.mbxConfig (s : State) (img : List Byte) : Nat × State :=
  if s.commitPending then (St.busy, s)
  else if s.cfg.shadow.isSome then (St.locked, s)
  else match s.stage (aedufHeld 0x0B06) img 0 true none with
    | .done r t =>
      if r.status = St.done then
        let own : Shadow → Shadow := fun x => { x with buf := (0, 0), holder := 64 }
        let t : State := { t with cfg := { t.cfg with shadow := t.cfg.shadow.map own } }
        (St.done, t.commitStart (t.cycle + 2) img)
      else (r.status, t)
    | .later _ t => (St.done, t)

/-- Type 0x02: an operator key under the signature of a key of the required role, or under its own while the table is
empty. -/
def State.mbxKey (s : State) (b : List Byte) : Nat × State :=
  let role := beAt b 0 1
  let i := beAt b 1 2
  let pub := sliceB b 3 97
  let signer := beAt b 100 2
  let need := if role = 3 then 3 else 4
  let auth := if signer = i && s.nv.opKeys.all (fun e => e.2.isNone) then some pub
    else match s.opKey signer with | some k => if k.role = need then some k.pub else none | none => none
  if b.length ≠ 198 || rolePerms role = 0 || decide (63 < i) || !(byteAt pub 0 = 4 && pointGood 2 pub) || (s.opKey i).isSome then (St.badParam, s)
  else match auth with
    | none => (St.noAuthority, s)
    | some a =>
      if !verifies 2 a (b.take 102) (sliceB b 102 96) then (St.badParam, s)
      else (St.done, s.recordWrite (Tbl.set (fun _ => none) s.nv.opKeys i (some ⟨role, pub⟩)) s.twin.cred)

/-- One record applied: its status. -/
def State.mbxApply (s : State) (typ ver : Nat) (b : List Byte) : Nat × State :=
  if ver ≠ 1 then (St.badParam, s)
  else if typ = 1 then s.mbxConfig b
  else if typ = 2 then s.mbxKey b
  else if typ = 3 then (if s.credGood b then (St.done, s.takeCred b) else (St.badParam, s))
  else (St.badParam, s)

/-- A mailbox sector erased by Aeduf; a protected one is refused. -/
def State.mbxWipe (s : State) (sec : Nat) : State := if s.nvProt sec then s.nvFlag 7 sec (sec * 4096) else s.nvEraseJ sec

/-- The records applied in order, their result words programmed and the inbound area erased. -/
def State.mailbox (s : State) : State :=
  let rs := mbxRecords (s.nvRead (mbxBase * 4096) 32768) 2048 0
  let out := (mbxBase + 15) * 4096
  let used := (List.range rs.length).any (fun i => !s.nvErased (out + 8 * (i % 512)))
  let s := s.doIf used (fun s => s.mbxWipe (mbxBase + 15))
  let (s, bad) := (List.zip (List.range rs.length) rs).foldl (fun (acc : State × Bool) x =>
    let (st, t) := acc.1.mbxApply x.2.1 x.2.2.1 x.2.2.2
    (t.doIf (!t.nvProt (mbxBase + 15)) (fun t => t.nvWrite (out + 8 * (x.1 % 512)) (toLe 8 (st + x.2.1 * 65536))), acc.2 || st ≠ St.done)) (s, false)
  let s := s.forEach (List.range 8) (fun s i => s.mbxWipe (mbxBase + i))
  (s.setFld (fun x => { x with mbxDue := false })).fldFlag (if bad then 5 else 4)

/-- MAILBOX_PROCESS: owed at the end of stage B3 and at the end of every field session on main power. -/
def execMailboxProcess (s : State) : Res :=
  if s.fld.mbxDue && !s.berm.backup && !s.fieldSession then .next s.mailbox else .next s

/-! ### Commands (Table CMD-14) -/

def specFldStatus : CmdSpec where
  opc := 0x0B01
  dom := fun _ => some dField
  need := needs Role.auditor
  sync := true
  len := fun h => lenFixed [] h.len
  act := fun _ s =>
    let t := if s.tag = tgOpen then 1 else if s.tag = tgSecured then 2 else 0
    .done (.ok (toLe 1 (s.f F.FLD_CTL_MODE) ++ toLe 1 t ++ toLe 1 (s.f F.FLD_STS_FIELD) ++ fitB 7 s.fld.uid)) s

/-- CMD_FLD_STATUS. -/
def execCmdFldStatus (sl : Slot) (s : State) : Res := runCmd specFldStatus sl s

/-- A change of FLD_CTL.MODE: the tag answers only in tag mode. -/
def State.fldMode (s : State) (m : Nat) : State :=
  let s := s.setF F.FLD_CTL_MODE m
  s.setTag (if m = 1 && s.fb F.FLD_STS_FIELD then tgIdle else tgNone)

def specFldMode : CmdSpec where
  opc := 0x0B02
  dom := fun _ => some dField
  need := needs Role.operator
  len := fun h => lenFixed [(0, 1)] h.len
  pre := fun h => refuse (decide (2 < h.u 0 1)) (badField 0)
  check := fun _ s => refuse s.fieldSession (badState 0)
  act := fun h s => .done (.ok []) (s.fldMode (h.u 0 1))

/-- CMD_FLD_MODE. -/
def execCmdFldMode (sl : Slot) (s : State) : Res := runCmd specFldMode sl s

end Sys2Proof.Machine
end

