-- ==== Sys2Proof/Machine/BdgRows.lean ====
section
/-! DEFINITION. Reader mode: the poll of R432 with CMD_FLD_READER_POLL, and CMD_APP_MSG with the exchange of an applet with
a badge through its monitor (R247, R328, R433). -/

namespace Sys2Proof.Machine

/-! ### Frames: the values are those of ISO/IEC 14443, which R432 and R433 name by the words REQA, WUPA, ANTICOLLISION,
SELECT, HLTA, RATS, PPS, I-block, WTX and DESELECT -/

/-- The identifiers of the cascade levels of a UID of 4, 7 or 10 bytes. -/
def cascadeIds (u : List Byte) : List (List Byte) :=
  if u.length ≤ 4 then [fitB 4 u]
  else if u.length ≤ 7 then [0x88 :: u.take 3, sliceB u 3 4]
  else [0x88 :: u.take 3, 0x88 :: sliceB u 3 3, sliceB u 6 4]

/-- SELECT of a cascade level, without its CRC. -/
def selectFrame (level : Nat) (id : List Byte) : List Byte :=
  [BitVec.ofNat 8 (0x93 + 2 * level), 0x70] ++ id ++ [id.foldl (· ^^^ ·) 0]

/-! ### The poll (R432) -/

/-- The 40 bits that a badge answers at a cascade level, identifier and BCC; none beyond its last level. -/
def levelBits (b : Badge) (level : Nat) : List Bool :=
  match (cascadeIds b.uid)[level]? with
  | some id => bitsOfBytes (id ++ [id.foldl (· ^^^ ·) 0])
  | none => []

/-- ANTICOLLISION of a level with the bits known: SEL, NVB and those bits. -/
def antiFrame (level : Nat) (known : List Bool) : List Byte :=
  [BitVec.ofNat 8 (0x93 + 2 * level), BitVec.ofNat 8 (16 * (2 + known.length / 8) + known.length % 8)] ++ bytesOfBits known

/-- The first bit at which answers differ. -/
def firstCollision (cs : List (List Bool)) : Option Nat :=
  (List.range 40).find? (fun k => cs.any (fun c => c.getD k false) && cs.any (fun c => !c.getD k false))

/-- The anticollision loop of a level among the answers `cs`, branch 1 first: the frames sent, and the 40 bits found. -/
def antiLoop (level : Nat) : Nat → List (List Bool) → List Bool → List (List Byte) × List Bool
  | 0, _, known => ([], known)
  | n + 1, cs, known =>
    match firstCollision cs with
    | none => ([antiFrame level known], cs.headD known)
    | some k =>
      let bits := (cs.headD []).take k ++ [true]
      let r := antiLoop level n (cs.filter (fun c => c.getD k false)) bits
      (antiFrame level known :: r.1, r.2)

/-- What a turn of the poll sends: the frame, and whether a CRC follows it. -/
abbrev RdFrame := List Byte × Bool

/-- The cascade levels of a turn from `level` on, among the badges still selected: the frames sent, and who is selected. -/
def pollLevels : Nat → Nat → List Badge → List RdFrame × Option Badge
  | 0, _, bs => ([], bs.head?)
  | n + 1, level, bs =>
    let a := antiLoop level 41 (bs.map (fun b => levelBits b level)) []
    let sel : List Byte := [BitVec.ofNat 8 (0x93 + 2 * level), 0x70] ++ bytesOfBits a.2
    let sent := a.1.map (fun f => (f, false)) ++ [(sel, true)]
    let bs := bs.filter (fun b => levelBits b level = a.2)
    match bs.head? with
    | none => (sent, none)
    | some b =>
      if (cascadeIds b.uid).length ≤ level + 1 then (sent, some b)
      else
        let r := pollLevels n (level + 1) bs
        (sent ++ r.1, r.2)

/-- The outcome of a poll: the frames sent in order, the badges found in selection order, and those left unselected. -/
structure Poll where
  sent : List RdFrame
  found : List Badge
  left : List Badge

/-- Turns of the loop of R432: REQA, the cascade, then RATS and S(DESELECT), or HLTA; the badge is halted. -/
def pollTurns : Nat → List Badge → Poll
  | 0, bs => ⟨[], [], bs⟩
  | n + 1, bs =>
    let reqa : RdFrame := ([0x26], false)
    let t := pollLevels 3 0 bs
    match t.2 with
    | none => ⟨[reqa], [], bs⟩
    | some b =>
      let halt : List RdFrame := if b.iso then [([0xE0, 0x80], true), ([0xC2], true)] else [([0x50, 0x00], true)]
      let r := pollTurns n (bs.filter (fun c => c.uid ≠ b.uid))
      ⟨reqa :: t.1 ++ halt ++ r.sent, b :: r.found, r.left⟩

/-- The poll of R432: at most eight badges. -/
def poll (bs : List Badge) : Poll := pollTurns 8 bs

/-- The reply: COUNT, and eight places of a length byte and up to 7 bytes. -/
def pollReply (found : List Badge) : List Byte :=
  toLe 1 found.length ++ fitB 64 (found.flatMap (fun b => toLe 1 (min 7 b.uid.length) ++ fitB 7 b.uid))

def specReaderPoll (ext : Bool) (badges : List Badge) (errs : Nat) : CmdSpec where
  opc := 0x0B03
  dom := fun _ => some dField
  need := needs Role.operator
  sync := true
  len := fun h => lenFixed [(0, 1)] h.len
  pre := fun h => refuse (decide (2 < h.u 0 1)) (badField 0)
  check := fun _ s => refuse (s.f F.FLD_CTL_MODE ≠ 2) (badState 0)
  act := fun _ s =>
    if ext then .done (busyState 0) (s.fldFlag 7)
    else
      let p := poll badges
      let s := s.forEach p.sent (fun s f => if f.2 then s.answerCrc f.1 else s.answer f.1)
      let s := s.addF F.FLD_ERRS_COUNT errs
      .done (.ok (pollReply p.found)) (s.doIf (p.left ≠ []) (fun s => s.fldFlag 6))

/-- CMD_FLD_READER_POLL; an external field is present, or the badges in the field, and the turns that ended in an error
(R432). -/
def execCmdFldReaderPoll (sl : Slot) (ext : Bool) (badges : List Badge) (errs : Nat) (s : State) : Res :=
  runCmd (specReaderPoll ext badges errs) sl s

/-! ### An exchange (R433) -/

/-- The largest frame that a badge takes, by the FSCI of its ATS; 32 bytes where the ATS has no format byte. -/
def badgeFsc (ats : List Byte) : Nat :=
  if ats.length < 2 then 32 else [16, 24, 32, 40, 48, 64, 96, 128, 256].getD (min 8 ((byteAt ats 1).toNat % 16)) 256

/-- Bytes in pieces of at most `n`; no bytes are one empty piece. -/
def pieces (n : Nat) (b : List Byte) : List (List Byte) :=
  (List.range (max 1 (ceilDiv b.length (max 1 n)))).map (fun i => (b.drop (max 1 n * i)).take (max 1 n))

/-- The I-blocks of a C-APDU, chained where it is longer than a frame of the badge. -/
def iBlocks (fsc : Nat) (capdu : List Byte) : List (List Byte) :=
  let ps := pieces (fsc - 3) capdu
  ps.mapIdx (fun i p => BitVec.ofNat 8 (0x02 + i % 2 + (if i + 1 < ps.length then 0x10 else 0)) :: p)

/-- The R(ACK)s for the chained blocks of an R-APDU in frames of 256 bytes, after `n` blocks. -/
def rAcks (n : Nat) (rapdu : List Byte) : List (List Byte) :=
  (List.range (ceilDiv rapdu.length 253 - 1)).map (fun i => [BitVec.ofNat 8 (0xA2 + (n + i) % 2)])

/-- What the monitor sends in an exchange, without the CRCs: after WUPA and the SELECT cascade of a UID that answers, RATS, a
PPS to 106 kbit/s, the C-APDU, an answer to each S(WTX), and S(DESELECT) after the R-APDU. -/
def badgeFrames (b : BadgeRun) : List (List Byte) :=
  let sel := (cascadeIds b.uid).mapIdx selectFrame
  if !b.awake then sel.take 1
  else
    let is := iBlocks (badgeFsc b.ats) b.capdu
    sel ++ [[0xE0, 0x80], [0xD0, 0x11, 0x00]] ++ is ++ b.wtx.map (fun m => [0xF2, m &&& 0x3F])
      ++ (match b.rapdu with | some r => rAcks is.length r ++ [[0xC2]] | none => [])

/-- An applet's exchange with a badge: outside MODE 2 it ends with BUSY and sends nothing. -/
def State.badgeExchange (s : State) (b : BadgeRun) : State :=
  if s.f F.FLD_CTL_MODE ≠ 2 then s
  else s.answer [0x52] |>.forEach (badgeFrames b) (fun s f => s.answerCrc f)

/-- The applet's grant names the field interface: its IRQ_MASK requests that block's source, 52. -/
def App.mayField (a : App) : Bool := bitAt a.irqMask 20

/-! ### The command -/

def specAppMsg (reply : List Byte) (badge : Option BadgeRun) : CmdSpec where
  opc := 0x0E06
  dom := fun s => if badge.isSome && s.f F.FLD_CTL_MODE = 2 then some dField else none
  need := needs Role.operator
  len := fun h => lenFixed [(0, 2), (4, 8), (12, 8)] h.len
  bufs := [(4, false), (12, true)]
  check := fun h s => s.appIn (h.u 0 2) [apRunning]
  objs := fun h => [.applet (h.u 0 2)]
  act := fun h s =>
    let s := match badge, s.app (h.u 0 2) with
      | some b, some a => if a.mayField then s.badgeExchange b else s
      | _, _ => s
    match h.short 12 reply.length with
    | some r => .done r s
    | none => .done (.ok (toLe 4 reply.length)) (s.putBuf h 12 reply)

/-- CMD_APP_MSG; with REPLY, what the applet answers, and the exchange with a badge that it makes before. -/
def execCmdAppMsg (sl : Slot) (reply : List Byte) (badge : Option BadgeRun) (s : State) : Res := runCmd (specAppMsg reply badge) sl s

end Sys2Proof.Machine
end

