-- ==== Sys2Proof/Machine/CalRows.lean ====
section
/-! DEFINITION. Sluice entries in time, the tasks of Clearings, known-answer tests, GAC checks and PTP messages (R37 to R39,
R80 to R86, R145 to R158, R479). -/

namespace Sys2Proof.Machine

/-! ### Known-answer tests (R155 to R157) -/

/-- The cycle count of a core's last test. -/
def State.katSeen (s : State) (c : Nat) : Nat := s.cal.tested.getD c 0

/-- The due core: in service, longest untested, and GAP cycles since the last test began (R155). -/
def State.katDue (s : State) : Option Nat :=
  if s.gac.passed < s.cal.lastStart + max 1 (s.f F.CAL_KAT_CTL_GAP) then none
  else s.coresIn.foldl (fun a c => match a with | none => some c | some d => if s.katSeen c < s.katSeen d then some c else some d) none

/-- The core of the oldest waiting CMD_DIAG_KAT. -/
def State.katAsked (s : State) : Option Nat :=
  s.cul.waits.findSome? (fun w => match w.wait with | .kat c => some c | _ => none)

/-- The core that a KAT turn tests now: one that a command names first (R150, R155, Table CAL-2). -/
def State.katCore (s : State) : Option Nat :=
  if s.cal.testing.isSome || !s.fb F.CAL_KAT_CTL_EN || decide (s.coresIn.length ≤ 4) || !s.domOn dCipher then none
  else match s.katAsked with | some c => some c | none => s.katDue

/-- A test starts on a core in a lane's Clearing. -/
def State.katStart (s : State) (c k : Nat) : State :=
  let s := (s.setF F.CAL_KAT_STS_LAST c).setF F.CAL_KAT_STS_BUSY 1
  { s with cal := { s.cal with testing := some (c, some k), lastStart := s.gac.passed } }

/-- The test under way, if any, is abandoned: the core returns untested (R155). -/
def State.katAbandon (s : State) : State :=
  if s.cal.testing = none then s else
  let s := ((s.setF F.CAL_KAT_STS_BUSY 0).setF F.CAL_KAT_STS_RESULT 3).addF F.CAL_KAT_ABORT_COUNT 1
  { s with cal := { s.cal with testing := none } }

/-- A core is retired (R156); the cores left in service may bring DEGRADED or HALT (Table CAL-2). -/
def State.retireCore (s : State) (c : Nat) : State :=
  let s := s.setF F.FPX_CORE_STS_RETIRED (s.f F.FPX_CORE_STS_RETIRED ||| 2 ^ c)
  let s := s.setF F.FPX_CORE_STS_INSVC (putBits (s.f F.FPX_CORE_STS_INSVC) c 1 0)
  let s := s.raise fpxEvt 3 (fpxData 0xFFFF 0xFFFF c)
  let s := s.calFlag 3 0xFF c
  let n := s.coresIn.length
  let s := s.doIf (decide (4 ≤ n) && decide (n ≤ 10)) (·.calFlag 5 0xFF c)
  s.respond 0x23 (if n ≤ 3 then 4 else 2) 0

/-- Commands that wait for a test of the core end with its result (R247). -/
def State.katAnswer (s : State) (c : Nat) (pass : Bool) : State :=
  s.forEach (s.waitsFor (fun w => decide (w = .kat c))) (fun s h => s.finishWait h (Reply.ok (toLe 1 (b2n pass))))

/-- KAT_DONE: the test ends: passed, failed, or neither before its Clearing ended (R155, R156). -/
def execKatDone (pass : Option Bool) (s : State) : Res :=
  match s.cal.testing with
  | none => .next s
  | some (c, _) =>
    match pass with
    | none => .next s.katAbandon
    | some ok =>
      let s := (s.setF F.CAL_KAT_STS_BUSY 0).setF F.CAL_KAT_STS_RESULT (if ok then 1 else 2)
      let s := { s with cal := { s.cal with testing := none, tested := s.cal.tested.set c s.gac.passed, stale := false } }
      let s := if ok then (s.addF F.CAL_KAT_PASS_COUNT 1).setF F.CAL_KAT_STS_TESTED (s.f F.CAL_KAT_STS_TESTED ||| 2 ^ c)
        else s.retireCore c
      .next (s.katAnswer c ok)

/-- CAL_EVT.KAT_STALE at angle 0: no core tested for 4,096 cycles (Table CAL-3). -/
def State.katStale (s : State) : State :=
  let last := s.cal.tested.foldl max 0
  if !s.cal.stale && decide (last + 4096 ≤ s.gac.passed) then
    { s with cal := { s.cal with stale := true } }.calFlag 6 0xFF 0xFF
  else s

/-! ### The turn of a Clearing (R150 to R158) -/

/-- The enables of a lane's tasks, TS_LOOP first. -/
def State.taskOn (s : State) (k t : Nat) : Bool := bitAt (s.rd (R.CAL_LANE_CTL k)).toNat t

/-- A task can run on the lane now (R150). -/
def State.taskCan (s : State) (k t : Nat) : Bool :=
  s.taskOn k t && (match t with | 3 => !s.cal.gacDone | 4 => s.katCore.isSome | _ => s.laneUp k)

/-- The tasks in turn from `t`. -/
def taskOrder (t : Nat) : List Nat := (List.range 5).map (fun i => (t + i) % 5)

/-- The next enabled task after `t`. -/
def State.taskAfter (s : State) (k t : Nat) : Nat := ((taskOrder (t + 1)).find? (s.taskOn k)).getD 0

/-- A change of the enables restarts the order at the first enabled task (R150). -/
def State.taskRestart (s : State) (k : Nat) : State := s.setF (F.CAL_LANE_STS_NEXT k) (((taskOrder 0).find? (s.taskOn k)).getD 0)

/-- TS_LOOP: four calibration frames, and the first frame received (R148, R151). -/
def State.turnLoop (s : State) (k : Nat) : State :=
  ((s.setLane k { s.lane k with calLeft := 4 }).setCalLane k { s.calLane k with turn := true }).calSkip k

/-- PDELAY: the request that is due, under the rules of calibration frames (R148, R153). -/
def State.turnPdelay (s : State) (k : Nat) : State :=
  s.doIf (s.calLane k).due (fun s => (s.setLane k { s.lane k with pdReq := true }).calSkip k)

/-! ### SerDes adaptation and margins (R154) -/

/-- Unit intervals of a lane in eight ticks of TBCLK. -/
def State.uiPer8 (s : State) (k : Nat) : Nat := [8, 8, 20, 66, 165].getD (s.laneMode k) 8

/-- A coefficient moves toward where the adaptation would have it, at most `n` codes, within its range. -/
def towardBy (old goal lo hi : Int) (n : Nat) : Int := max lo (min hi (old + max (-(n : Int)) (min n (goal - old))))

/-- The adaptation of an UP lane over the time since it was last brought up to date: at most one code per 65,536 UI for
each coefficient, CTLE in every mode and DFE taps at 10G and 25G. Where the line leads it is an open value. -/
def State.adapt (s : State) (k : Nat) : State :=
  let c := s.calLane k
  let n := (s.gac.now - c.adapted) * s.uiPer8 k / 8 / 65536
  if !s.laneUp k || n = 0 then s
  else
    let (v, s) := s.open_
    let ctle := (towardBy (c.ctle : Nat) ((v % 32 : Nat) : Int) 0 31 n).toNat
    let tap := fun (i : Nat) => towardBy (c.dfe.getD i 0) (((v / 2 ^ (5 + 8 * i) % 256 : Nat) : Int) - 128) (-128) 127 n
    let dfe := if s.fastLane k then (List.range 8).map tap else List.replicate 8 0
    let s := s.setCalLane k { c with ctle := ctle, dfe := dfe, adapted := s.gac.now }
    (s.setF (F.CAL_LANE_EYE_CTLE k) ctle).setF (F.CAL_LANE_EYE_DFE1 k) (BitVec.ofInt 8 (dfe.getD 0 0)).toNat

/-- MARGIN: the margins that the auxiliary sampler finds over 16 horizontal and 16 vertical offsets, which come from the
line: open values (R154). -/
def State.turnMargin (s : State) (k : Nat) : State :=
  let s := s.adapt k
  let (v, s) := s.open_
  let s := (s.setF (F.CAL_LANE_EYE_EYE_H k) (v % 256)).setF (F.CAL_LANE_EYE_EYE_V k) (v / 256 % 256)
  let min_ := s.f (F.CAL_LANE_CTL_MARGIN_MIN k)
  s.doIf (decide (s.f (F.CAL_LANE_EYE_EYE_H k) < min_) || decide (s.f (F.CAL_LANE_EYE_EYE_V k) < min_)) (·.calFlag 2 k 0xFF)

/-! ### GAC checks (R158) -/

/-- By how much two angles differ, around the cycle. -/
def angleGap (a b : Int) : Nat := (signedAngle (a - b)).natAbs

/-- A GAC check includes TAI: PTP is locked, and the latched angle 0 is valid (R46, R158). -/
def State.gacTaiCheck (s : State) : Bool := s.ptpLocked && s.fb F.GAC_ZERO_SEQ_TAI_OK

/-- The largest difference that a GAC check finds now: from the check accumulator, and from the angle that R47 gives. -/
def State.gacGap (s : State) : Nat :=
  max (angleGap (s.angle : Nat) ((s.gac.chk.toNat / 2 ^ 40 : Nat) : Int)) (if s.gacTaiCheck then angleGap (s.angle : Nat) (s.angleOfTai (s.tai : Nat)) else 0)

/-- GAC: the check against the check accumulator and TAI (R158). -/
def State.turnGac (s : State) (k : Nat) : State :=
  let d := s.gacGap
  let s := { s with cal := { s.cal with gacDone := true } }
  let s := (s.addF F.CAL_GAC_CHK_CNT_COUNT 1).setF F.CAL_GAC_CHK_DIFF (min 65535 d)
  let s := s.setB F.CAL_GAC_CHK_TAI s.gacTaiCheck
  if d ≤ 2 then s.setF F.CAL_GAC_CHK_FAILS 0
  else
    let s := (s.addSat F.CAL_GAC_CHK_FAILS 1).calFlag 4 k 0xFF
    s.respond 0x21 (if s.f F.CAL_GAC_CHK_FAILS = 3 then 3 else 2) 0

/-- One task of a Clearing. -/
def State.turnTask (s : State) (k t : Nat) : State :=
  match t with
  | 0 => s.turnLoop k
  | 1 => s.turnPdelay k
  | 2 => s.turnMargin k
  | 3 => s.turnGac k
  | _ => match s.katCore with | some c => s.katStart c k | none => s

/-- The task of a Clearing starts: the next one that can run takes it (R150). -/
def State.startTask (s : State) (k : Nat) : State :=
  match (taskOrder (s.f (F.CAL_LANE_STS_NEXT k))).find? (s.taskCan k) with
  | none => s.addF (F.CAL_LANE_SKIP_COUNT k) 1
  | some t =>
    let s := s.turnTask k t
    s.setF (F.CAL_LANE_STS_NEXT k) (s.taskAfter k t)

/-- A Clearing begins on a lane: its work starts when the frame of classes 0 to 6 under way has ended or been preempted
(R147). -/
def State.clearingStart (s : State) (k : Nat) : State :=
  if (s.sendingOn k).any (fun x => decide (x.2.cls ≤ 6)) then s.setLane k { s.lane k with taskDue := true } else s.startTask k

/-- The frame that kept a Clearing's task from starting has ended or been preempted (R147). -/
def State.taskNow (s : State) (k : Nat) : State :=
  if (s.lane k).taskDue && !(s.sendingOn k).any (fun x => decide (x.2.cls ≤ 6)) then
    (s.setLane k { s.lane k with taskDue := false }).startTask k
  else s

/-- A Clearing ends on a lane: work not finished is discarded, a test of it abandoned (R148, R155). -/
def State.clearingEnd (s : State) (k : Nat) : State :=
  let s := s.setLane k { s.lane k with calLeft := 0, pdReq := false, skipped := false, taskDue := false }
  let s := s.setCalLane k { s.calLane k with turn := false }
  match s.cal.testing with
  | some (_, some j) => s.doIf (decide (j = k)) State.katAbandon
  | _ => s

/-! ### An entry takes effect (R80 to R86, R147) -/

/-- A copy of classes 0 to 6 under transmission whose gate has closed: preempted where it can be, and otherwise counted
once as an overrun (R85). -/
def State.closeGates (s : State) (k : Nat) : State :=
  match s.sendingOn k with
  | some x =>
    if x.2.cls ≤ 6 && !s.txGate x.2.port x.2.cls then
      if s.mmActive k && s.preemptable k x.2 then s.preempt k x
      else if x.2.overrun then s
      else (s.setCopy x.1 { x.2 with overrun := true }).pc x.2.port 0x430
    else s
  | none => s

/-- Entry `n` of a port and direction takes effect, with the end of the Clearing before it and the start of one in it; a
class 7 gate that opens may bar the frames of a turn (R148). -/
def State.takeEntry (s : State) (p : Nat) (tx : Bool) (n : Nat) : State :=
  let direct := decide (p < 32) && tx
  let s := s.doIf (direct && s.clearing p) (·.clearingEnd p)
  let s := s.enterEntry p tx n
  if tx then
    let k := s.portLane p
    let s := (((s.closeGates k).taskNow k).calSkip k).countWaits k
    s.doIf (direct && s.clearing p && decide (s.level < 4)) (·.clearingStart p)
  else s

/-- Run to an angle of this cycle that is not yet reached (R27, R80). -/
def Gac.toAngle (g : Gac) (a : Nat) : Gac := g.advance (ceilDiv (a * 2 ^ 40 - g.acc.toNat) (max 1 g.incr.toNat))

/-- SLUICE_ENTRY: the angle reaches START of the next entry. Where no angle of this cycle can reach it any more, the
entry has its effect at the cycle's last tick. -/
def execSluiceEntry (port : Fin 1024) (tx : Bool) (s : State) : Res :=
  let p := port.val
  let n := s.entryNow p tx + 1
  if s.nent p tx ≤ n then .next s
  else .next ({ s with gac := s.gac.toAngle (entStart (s.entAt p tx n)) }.takeEntry p tx n)

/-! ### Frames and messages of calibration and PTP -/

/-- CAL_FRAME_RX: consumed without a count; its start strobes the receive pad (R149, R151). -/
def execCalFrameRx (lane : Fin 32) (s : State) : Res :=
  if s.laneUp lane.val then .next (s.calReceive lane.val) else .next s

/-- The peer delay interval has elapsed: a request still due from the last one goes out as class 6, outside any Clearing
(R153). -/
def State.pdelayElapsed (s : State) (k : Nat) : State :=
  let late := fun (s : State) =>
    let b := s.pdelayReq k
    (s.nextPtpSeq.queueOwn k b).addF (F.CAL_PDELAY_NOCLR_COUNT k) 1
  let s := s.doIf (s.calLane k).due late
  s.setCalLane k { s.calLane k with due := true }

/-- PDELAY_INTERVAL. -/
def execPdelayInterval (lane : Fin 32) (s : State) : Res :=
  if s.laneUp lane.val then .next (s.pdelayElapsed lane.val) else .next s

/-- The servo takes an offset (ns) measured from a Sync (R37, R39). DESIGN CHOICE, log entry 59: while unlocked, an offset
beyond 1 us is taken out of the time base at once (the manual does not say how the servo moves it). -/
def State.ptpOffset (s : State) (o : Int) : State :=
  let (n, s) := s.open_
  let far := decide (o < -1000) || decide (1000 < o)
  let t := if far && !s.ptpLocked then ((s.tai : Int) - o * 65536).toNat else s.tai
  ((s.setTai t (Config.servoRate n)).wr R.GAC_PTP_OFS (BitVec.ofInt 32 o)).doIf far State.ptpLost

/-- The answer to a peer delay request: the receive timestamp, whose fraction stands in the correction, and the identity
of the port that asked (R153). -/
def State.pdelayResp (s : State) (k : Nat) (msg : PtpMsg) : List Byte :=
  let t2 := s.rxStampAt k s.gac.now
  let frac : Nat := t2 % 65536
  s.ptpOwn 3 msg.twoStep k msg.seq.toNat (-(frac : Int)) (ptpTime t2 ++ toBe 10 msg.src.toNat)

/-- An Announce names the class of the grandmaster that is followed. DESIGN CHOICE, log entry 58: any Announce of the
domain does, as the manual does not give the best master clock algorithm that Aeduf runs (R37); a device that is
grandmaster keeps its own class. -/
def State.takeAnnounce (s : State) (cls : Nat) : State :=
  if s.ptpMaster then s
  else { s with gac := { s.gac with gmClass := cls } }.doIf s.ptpLocked (·.setF F.GAC_PTP_STATUS_CLASS cls)

/-- PTP_MESSAGE_RX: a message of the device's domain acts on the servo, the clock class or the link delay; a request
is answered (R37, R39, R153). -/
def execPtpMessageRx (lane : Fin 32) (msg : PtpMsg) (s : State) : Res :=
  let k := lane.val
  if !s.laneUp k then .next s
  else
    let s := s.calReceive k
    if msg.domain.toNat ≠ s.ptpDomain then .next s
    else
      match msg.kind, msg.offset with
      | 0, some o => .next (s.ptpOffset o)
      | 8, some o => .next (s.ptpOffset o)
      | 2, _ => .next (s.queueOwn k (s.pdelayResp k msg))
      | 3, some d => .next (s.calDelay k d)
      | 0xA, some d => .next (s.calDelay k d)
      | 0xB, _ => .next (s.takeAnnounce msg.clockClass.toNat)
      | _, _ => .next s

/-- The Announce of the device with its two TLVs (Table GAC-2). The places of the fields are PRESUMED, log entry 53; the
values the manual does not give are open. -/
def State.announce (s : State) (k : Nat) : List Byte :=
  let any_ := fun (a n : Nat) => (rangeFrom a n).map Config.announceByte
  let body := toBe 10 0 ++ any_ 10 4 ++ toBe 1 s.ptpClass ++ any_ 15 4 ++ (if s.ptpMaster then toBe 8 Config.clockId.toNat else any_ 19 8) ++ any_ 27 3
  let tlvs := toBe 2 9 ++ toBe 2 20 ++ (List.range 20).map Config.tlvByte
    ++ toBe 2 3 ++ toBe 2 18 ++ [0x1C, 0x12, 0x9D, 0, 0, 2] ++ (rangeFrom 20 12).map Config.tlvByte
  s.ptpOwn 0xB false k s.gac.ptpSeq 0 (body ++ tlvs)

/-- PTP_TX_INTERVAL: the device's own Sync, in one-step or two-step form, Announce or Pdelay_Req falls due (R37, R153). -/
def execPtpTxInterval (lane : Fin 32) (kind : PtpKind) (twoStep : Bool) (s : State) : Res :=
  let k := lane.val
  if !s.laneUp k then .next s
  else
    match kind with
    | .sync => let b := s.ptpOwn 0 twoStep k s.gac.ptpSeq 0 (toBe 10 0); .next (s.nextPtpSeq.queueOwn k b)
    | .announce => let b := s.announce k; .next (s.nextPtpSeq.queueOwn k b)
    | .pdelayReq => .next (s.pdelayElapsed k)

/-! ### CMD_DIAG_KAT -/

def specDiagKat : CmdSpec where
  opc := 0x0F02
  dom := fun s => if 4 ≤ s.f F.RST_STS_STAGE then some dCipher else none
  need := needs Role.operator
  len h := lenFixed [(0, 1)] h.len
  pre h := refuse (decide (12 ≤ h.u 0 1)) (badField 0)
  check h s := refuse (bitAt (s.f F.FPX_CORE_STS_RETIRED) (h.u 0 1)) (badState (h.u 0 1))
  busy h s := refuse s.cal.testing.isSome (busyState (match s.cal.testing with | some (c, _) => c | none => h.u 0 1))
  act h s := .later (.kat (h.u 0 1)) s

/-- CMD_DIAG_KAT. -/
def execCmdDiagKat (sl : Slot) (s : State) : Res := runCmd specDiagKat sl s

end Sys2Proof.Machine
end

