-- ==== Sys2Proof/Machine/FrameRows.lean ====
section
/-! DEFINITION. The rows of the frame path: arrival, fills, time-outs, verdicts and handover (R57, R58, R98 to R107,
R169 to R174, R280). -/

namespace Sys2Proof.Machine

/-! ### Twin messages (R279, R280) -/

/-- State is mirrored: link up and versions agree (R280, R283). -/
def State.mirroring (s : State) : Bool := s.twinUp && s.fb F.TWN_STATUS_AGREE_VER

/-- REPLAY for one entry (Table TWN-2). -/
def State.sendReplay (s : State) (e : GrvEntry) : State :=
  s.doIf s.twinUp (fun s => s.twinSend mReplay (fitB 24 e.mtch ++ toBe 8 e.replayBase ++ toBe 8 e.replayWin))

/-- The entries whose windows are mirrored: PINNED with REPLAY set (Table TWN-3). -/
def mirrored (w : CpsWay) : Bool := w.st = .pinned && w.entry.replay

/-! ### Receive SecYs (R98, R99, R109) -/

/-- What a received SecTAG leads to: no usable association, one whose slot is exhausted, or the slot, the recovered PN and
the IV. -/
inductive RxSa where
  | nosa
  | exhausted
  | sa (an slot pn : Nat) (iv : List Byte)
deriving DecidableEq, Repr

/-- The full PN of an XPN suite (IEEE 802.1AE-2018). -/
def fullPn (suite lpn pn : Nat) : Nat :=
  if xpn suite then
    let hi := lpn / 2 ^ 32
    (if decide (2 ^ 31 ≤ lpn % 2 ^ 32) && decide (pn < 2 ^ 31) then hi + 1 else hi) * 2 ^ 32 + pn
  else pn

/-- The receive association of a SecTAG on a SecY with a control word (R99, R101, R113). -/
def State.rxSa (s : State) (base ctl : Nat) (t : SecTag) : RxSa :=
  let v := s.rd (rxCtl base t.an)
  let sci := sciOf s (base + 0xC)
  if !saEn v || (match t.sci with | some x => decide (x ≠ sci) | none => false) then .nosa
  else
    let i := saSlot v
    let j := s.effSlot i
    let pn := fullPn (suiteOf ctl) (s.rd64 (lpnA base t.an)) t.pn
    if s.canVerify j then
      .sa t.an j pn (secIv (suiteOf ctl) sci (s.rd (rxCtl base t.an + 0xC)).toNat pn (s.ks j).salt)
    else if (s.ks i).state = Ks.exhausted then .exhausted
    else .nosa

/-- The frame without SecTAG and ICV, decrypted where it is confidential and the key is there (R52). -/
def State.secOpen (s : State) (base ctl : Nat) (t : SecTag) (b : List Byte) : List Byte :=
  let data := sliceB b t.data t.len
  match s.rxSa base ctl t with
  | .sa _ j _ iv =>
    let clear := if t.c then data.take (confOffset ctl) else data
    let rest := data.drop clear.length
    let aad := b.take t.data ++ clear
    b.take 12 ++ clear ++ (List.range rest.length).map (fun i => Config.cipherByte gcm (s.ks j).material iv aad rest i)
  | _ => b.take 12 ++ data

/-- The ICV of a frame is what its key gives. -/
def State.icvOk (s : State) (ctl : Nat) (t : SecTag) (j : Nat) (iv b : List Byte) : Bool :=
  let data := sliceB b t.data t.len
  let clear := if t.c then data.take (confOffset ctl) else data
  let aad := b.take t.data ++ clear
  decide ((List.range 16).map (fun i => Config.macByte gcm (s.ks j).material iv aad (data.drop clear.length) i) = sliceB b (t.data + t.len) 16)

/-! ### Arrival (R50 to R58) -/

/-- The port a frame belongs to and its bytes from there on: none where the lane itself takes or drops it. -/
inductive Ingress where
  | lane
  | dropLane
  | dropCtl
  | port (p : Nat) (b : List Byte)
deriving DecidableEq, Repr

/-- R133 on an extender lane; a direct lane accepts no E-tag (Table FPA-1). -/
def State.ingress (s : State) (k : Nat) (b : List Byte) : Ingress :=
  if s.isExt k then
    if hasETag b then
      match (eTagPort b).bind (fun e => (s.ctxsOf k [ctxAssigned]).find? (fun p => (s.ctx p).ecid = e)) with
      | some p => .port p (dropETag b)
      | none => .dropLane
    else if reservedDa b then .lane else .dropLane
  else if hasETag b then .dropCtl else .port k b

/-- A frame to a reserved address that the device consumes (R53): LLDP, EAPOL, PTP, and its own link protocols by their
subtype: calibration on every lane, enrolment on an extender lane. -/
def consumed (ext : Bool) (b : List Byte) : Bool :=
  let h := hdrsOf b
  let et := h.et b
  let sub := byteAt b (h.at_ + 2)
  et = 0x88CC || et = 0x888E || et = 0x88F7 || (et = 0x88B5 && (sub = 2 || (ext && sub = 1)))

/-- The registers of a port, and of the SecY that its frames cross, as a frame takes them at its first bit (R17). -/
def State.portCfg (s : State) (p base : Nat) : PortCfg :=
  { ctl := s.rd (R.LNE_PORT_CTL p), pcp := s.rd (R.LNE_PORT_PCPMAP p), adm := s.rd (R.LNE_PORT_ADM p), host := s.rd (R.LNE_PORT_HOST p),
    vid := s.rd (R.LNE_PORT_VID p), secy := s.rd base, gates := s.gates p false }

/-- A Copse miss in full service opens a fill or joins one (R57, R58). A frame joins a miss of its own pipeline only: the
same key missed in the other pipeline issues a second read, which R58 leaves open (DESIGN CHOICE, log entry 56). -/
def State.openFill (s : State) (f : Frame) : State :=
  let pipe := pipeOf f.lane
  match s.grv.fills.find? (fun x => x.pipe = pipe && x.key = f.key) with
  | some x => s.setFrame { f with phase := .waiting x.id }
  | none =>
    if 8192 ≤ (s.grv.fills.filter (·.pipe = pipe)).length then (s.freeFrame f.id).pc f.port 0x360
    else
      let (b0, b1) := bucketsOf s.grv.hashKey s.kInForce f.key
      let id := s.grv.nextFill
      let x : Fill := { id := id, pipe := pipe, key := f.key, region := s.region, b0 := b0, b1 := b1, tick := s.gac.now, epoch := f.epoch }
      let s := { s with grv := { s.grv with fills := s.grv.fills ++ [x], nextFill := id + 1 } }
      (s.bump R.GRV_FILLS_LO 1).setFrame { f with phase := .waiting id }

/-- The one lookup of a frame (R57, R64, R174): a hit, an unknown stream, or a wait, in which the cells of the frame go on
arriving (R71). -/
def State.lookup (s : State) (f : Frame) (ecc : Option EccHit) : State :=
  match s.copseFind f.key f.epoch with
  | some (i, w) =>
    let (s, mark) := s.eccReads 1 [2 * i, 2 * i + 1] ecc
    let s := s.setWay i (some { w with ref := true })
    if w.st = .negative then (s.bump R.CPS_NEG_HITS_LO 1).decide_ f none
    else (s.bump R.CPS_HITS_LO 1).decide_ { f with poison := mark } (some w.entry)
  | none =>
    let s := ((s.eccRead 1 ecc).1).bump R.CPS_MISSES_LO 1
    if s.service = 2 then
      let c := s.cellsFor f.port f.cfg.adm f.cellsLeft
      let f := { f.addCells c with short := f.short || decide (c.1 + c.2 < f.cellsLeft) }
      (s.setFrame f).openFill f
    else s.decide_ f none

/-- HALT or BREACH in force has stopped forwarding (R397). -/
def State.halted (s : State) : Bool := decide (4 ≤ s.level)

/-- What arrival counts at a port: a bad FCS, or a frame with its octets; a runt; a frame over length (R54, R76). Whether
the frame has a fault. -/
def State.countArrival (s : State) (p len mlen : Nat) (ctl : Word) (fcsOk : Bool) : State × Bool :=
  let s := if fcsOk then (s.pc p 0x300).bump (0x200000 + p * 0x800 + 0x308) len else s.pc p 0x310
  let s := s.doIf (decide (len < 64)) (·.pc p 0x318)
  let s := s.doIf (decide (maxLen ctl < mlen)) (·.pc p 0x320)
  (s, !fcsOk || decide (len < 64) || decide (maxLen ctl < mlen))

/-- What the published encodings yield for a frame whose header is GOOSE or SV (R50). -/
def gooseOf (cut : Nat) (b : List Byte) (g : Option GooseInfo) : Option Goose :=
  (gooseAt cut b).map (fun h =>
    { sv := h.1, appid := h.2.1, len := h.2.2, seq := g.bind (·.seq), early := (g.map (·.early)).getD false, ext := g.bind (·.ext) })

/-- A PRP frame carries the other LAN's identifier (Table FPA-1). -/
def wrongLan (ctl : Word) (b : List Byte) : Bool :=
  redundOf ctl = 1 && (match rctOf b with | some (_, l) => l ≠ (if bitAt ctl.toNat 30 then 0xB else 0xA) | none => false)

/-- A frame that its port receives enters the Basin and is looked up (R55 to R57, R70, R71). -/
def State.takeFrame (s : State) (k p : Nat) (base : Nat) (wire b : List Byte) (cfg : PortCfg) (tagged fault : Bool) (cells : Nat)
    (goose : Option GooseInfo) (ecc : Option EccHit) : State :=
  let cut := if s.isExt k then 8 else 0
  let s := s.doIf (wrongLan cfg.ctl b) (·.countWrongLan p)
  let (key, null) := streamKey cut b cfg.ctl (bitsOf cfg.vid.toNat 0 12)
  let s := s.doIf null (·.countParseNull p)
  let n := max 1 (min cells (cellsOf (frameLen wire)))
  let c := s.cellsFor p cfg.adm n
  let f : Frame :=
    { id := s.fp.nextId, lane := k, port := p, wire := wire, bytes := b, fault := fault, dipped := false, core := 0, poison := false, gac := s.gacNow,
      tick := s.gac.now, epoch := s.cfg.epoch, cfg := cfg, key := matchedBytes key, entry := none, goose := gooseOf cut b goose,
      secy := if bitAt cfg.secy.toNat 31 then some base else none, tagged := tagged, cls := 0, held := false, phase := .admitted, own := c.1,
      shared := c.2, short := decide (c.1 + c.2 < n), ord := 0, verdict := none, begun := false, host := none, toAeduf := false, counted := false,
      copies := [] }
  let s := { s with fp := { s.fp with frames := s.fp.frames ++ [f], nextId := s.fp.nextId + 1 } }
  s.lookup f ecc

/-- FRAME_RX: a frame on a lane, destination address to the last byte before its FCS, with whether the FCS is good, the
cells arrived when its lookup completes, what the published GOOSE encodings yield, what the Copse read meets, and what
the lane's PCS has counted. -/
def execFrameRx (lane : Fin 32) (wire : List Byte) (fcsOk : Bool) (cells : BitVec 8) (goose : Option GooseInfo) (ecc : Option EccHit)
    (pcs : PcsCount) (s : State) : Res :=
  let k := lane.val
  if !s.laneUp k then .next s
  else
    let s := s.pcsCount k pcs
    if s.service = 0 then .next s
    else if s.halted then .next (s.addF F.TMP_HALT_DROP_COUNT 1)
    else
      let s := s.calReceive k
      let ext := s.isExt k
      let base := s.secyOf k
      let ctl := (s.rd base).toNat
      let tag := if bitAt ctl 31 then secTagOf wire else none
      let plain := match tag with | some t => s.secOpen base ctl t wire | none => wire
      let len := frameLen wire
      match s.ingress k plain with
      | .lane => .next (s.doIf (fcsOk && decide (64 ≤ len) && !consumed true plain) (·.pc k 0x328))
      | .dropLane => .next (s.addF (F.EXT_LANE_DROP_COUNT k) 1)
      | .dropCtl =>
        if s.oos k then .next s
        else
          let (s, fault) := s.countArrival k len len (s.rd (R.LNE_PORT_CTL k)) fcsOk
          .next (s.doIf (!fault) (·.pc k 0x328))
      | .port p b =>
        if s.oos p then .next s
        else
          let cfg := s.portCfg p base
          let (s, fault) := s.countArrival p len (len - (if ext then 8 else 0)) cfg.ctl fcsOk
          if len < 64 then .next s
          else if (hdrsOf b).et b = 0x8808 || (reservedDa b && !consumed ext b) then .next (s.doIf (!fault) (·.pc p 0x328))
          else if reservedDa b then .next s
          else .next (s.takeFrame k p base wire b cfg tag.isSome fault cells.toNat goose ecc)

/-- MISS_TIMEOUT: a frame has waited 8 us on a Copse miss (R58); the last one to go ends the fill (R176). -/
def execMissTimeout (frame : Nat) (s : State) : Res :=
  match s.frame frame with
  | some f =>
    match f.phase with
    | .waiting id =>
      let s := s.dropAt f 0x358
      if s.waitingOn id = [] then
        .next (({ s with grv := { s.grv with fills := s.grv.fills.filter (·.id ≠ id) } }).releaseHold id)
      else .next s
    | _ => .next s
  | none => .next s

/-! ### Fills (R169, R170, R172 to R174) -/

/-- The eight candidate lines of a fill. -/
def Fill.lines (x : Fill) : List Nat := linesOf x.b0 x.b1

/-- What the lines of a fill come to: the line that matches with its entry and whether it was corrected, a poisoned line
and no match, or no line of the key (R169, R170). -/
inductive FillGot where
  | found (e : Nat) (x : GrvEntry) (fixed : Bool)
  | err
  | absent
deriving DecidableEq, Repr

/-- One candidate line is read into what has been found so far. -/
def fillLook (x : Fill) (errs : List (Fin 8 × LineErr)) (acc : State × FillGot) (i : Nat) : State × FillGot :=
  let e := x.lines.getD i 0
  let (s, g) := acc.1.lineRead x.region e ((errs.find? (fun q => q.1.val = i)).map (·.2))
  match g, acc.2 with
  | _, .found e' y fixed => (s, .found e' y fixed)
  | .bad, _ => (s, .err)
  | .good y fixed, r => (s, if y.valid && y.mkey = x.key then .found e y fixed else r)

/-- The eight lines of a fill are read. -/
def State.readFill (s : State) (x : Fill) (errs : List (Fin 8 × LineErr)) : State × FillGot :=
  (List.range 8).foldl (fillLook x errs) (s, .absent)

/-- What a fill leaves in Copse: its entry, or a NEGATIVE entry; nothing where Copse holds the key already (R172, R174). -/
def State.placeFill (s : State) (x : Fill) (g : FillGot) : State :=
  match s.copseNow x.key, g with
  | some _, _ => s
  | none, .found e y fixed => s.keepFill { mkWay s (if fixed then .dirty else .clean) y (some e) with since := x.epoch }
  | none, .absent => s.doIf (s.f F.CPS_CTL_NEG_TTL ≠ 0) (·.installNeg x.key x.epoch)
  | none, .err => s

/-- A frame of a fill proceeds: with the Copse entry of its key where there is one, and otherwise with what the fill found
(R58, R170, R172). -/
def State.proceed (s : State) (g : FillGot) (f : Frame) : State :=
  let f := { f with phase := .admitted }
  match s.copseFind f.key f.epoch, g with
  | some (i, w), _ => if w.st = .negative then s.decide_ f none else s.decide_ { f with poison := s.wayBad i } (some w.entry)
  | none, .found _ y _ => s.decide_ f (some y)
  | none, .err => s.dropAt f 0x368
  | none, .absent => s.decide_ f none

/-- GROVE_FILL_RETURN: a fill returns, with what the memory brings back of its lines other than they were written. The
frames waiting on it proceed in arrival order, and the NEGATIVE entries held for it are released (R58, R172, R176). -/
def execGroveFillReturn (fill : Nat) (errs : List (Fin 8 × LineErr)) (s : State) : Res :=
  match s.grv.fills.find? (·.id = fill) with
  | none => .next s
  | some x =>
    let s := { s with grv := { s.grv with fills := s.grv.fills.filter (·.id ≠ fill) } }
    let ns := (s.gac.now - x.tick) * 4 / 5
    let s := s.setF F.GRV_FILL_LAT_MAX_MAX (max (s.f F.GRV_FILL_LAT_MAX_MAX) (min (2 ^ 32 - 1) ns))
    let (s, g) := s.readFill x errs
    let s := s.placeFill x g
    let s := s.forEach ((s.waitingOn fill).map (·.id)) (fun s fid => match s.frame fid with | some f => s.proceed g f | none => s)
    .next (s.releaseHold fill)

/-- NEG_ENTRY_EXPIRE: a NEGATIVE entry whose crossings are over becomes FREE (R174, R176). -/
def execNegEntryExpire (way : Fin 131328) (s : State) : Res :=
  match s.way way.val with
  | some w => if w.st = .negative && w.ttl = 0 && w.hold = [] then .next (s.setWay way.val none) else .next s
  | none => .next s

/-- STATIC_ENTRY_FREE: 1 us after the swap the static entries of the old set become FREE (R178). -/
def execStaticEntryFree (s : State) : Res :=
  .next (s.mapWays (fun w => match w.upto with | some u => if u ≤ s.cfg.epoch then none else some w | none => some w))

/-! ### The verdict (R99, R101, R103, R105, R106) -/

/-- How one condition of the verdict came out: passed, failed with or without a slot exhausted. -/
inductive Check where
  | ok
  | fail
  | exhausted
deriving DecidableEq, Repr

/-- A disagreement of the two tag comparators is logged as region 13, at the core's number (R105, R196). -/
def State.comparators (s : State) (agree : Bool) (core : Nat) : State :=
  if agree then s else (s.addF (F.ECC_UNCORR_COUNT 13) 1).blaze 13 core 4

/-- What a check of the verdict leaves: its outcome, the slot its cipher job used, and the association number and PN that a
valid ICV accepts. -/
structure Checked where
  out : Check
  slot : Option Nat
  pn : Option (Nat × Nat)
deriving DecidableEq, Repr

/-- An outcome without a cipher job. -/
def Checked.only (c : Check) : Checked := ⟨c, none, none⟩

/-- MACsec validation under the control word of the frame's first bit (R17, R99, R106): the state with its counters. -/
def State.macsecCheck (s : State) (f : Frame) (agree : Bool) : State × Checked :=
  match f.secy, secTagOf f.wire with
  | some base, some t =>
    let ctl := f.cfg.secy.toNat
    let v := validateOf ctl
    let strict := f.cls = 7 || v = 2
    let lax := if strict || t.c then Check.fail else Check.ok
    if !t.ok then (s, .only .fail)
    else match s.rxSa base ctl t with
      | .nosa => (s.pc f.port 0x518, .only lax)
      | .exhausted => (s, .only .exhausted)
      | .sa an j pn iv =>
        if pn = 0 then (s, .only .fail)
        else if bitAt ctl 21 && decide (pn < s.rd64 (lpnA base an)) then (s.pc f.port 0x510, .only .fail)
        else if v = 0 && !strict then (s, .only lax)
        else
          let s := (s.useSlot j).comparators agree f.core
          if agree && s.icvOk ctl t j iv f.wire then (s.pc f.port 0x500, ⟨.ok, some j, some (an, pn)⟩)
          else (s.pc f.port 0x508, ⟨lax, some j, none⟩)
  | _, _ => (s, .only .ok)

/-- The slot that verifies a tag with a key identifier (R101, R113). -/
def State.tagSlot (s : State) (anchor id : Nat) : Check × Nat :=
  let k := s.ks anchor
  let succ := k.succ
  if s.canVerify anchor && k.id = id then (.ok, anchor)
  else match succ with
    | some j =>
      if s.canVerify j && (s.ks j).id = id then (.ok, j)
      else if k.state = Ks.exhausted && k.id = id then
        if (s.ks j).state = Ks.active && s.canVerify j then (.ok, j) else (.exhausted, anchor)
      else (.fail, anchor)
    | none => if k.state = Ks.exhausted && k.id = id then (.exhausted, anchor) else (.fail, anchor)

/-- The MAC of an IEC 62351-6 extension under a slot. -/
def State.tagMac (s : State) (j n : Nat) (iv body : List Byte) : List Byte :=
  (List.range n).map (fun i => Config.macByte gmac (s.ks j).material iv body [] i)

/-- Verification of the IEC 62351-6 tag (R100, R101), under the entry as the lookup read it (R175). -/
def State.tagCheck (s : State) (f : Frame) (agree : Bool) : State × Checked :=
  match f.entry with
  | none => (s, .only .ok)
  | some e =>
    if !e.verify then (s, .only .ok)
    else match f.goose.bind (·.ext) with
      | none => (s, .only .fail)
      | some (id, hmac, iv, mac) =>
        if hmac then (s.pc f.port 0x538, .only .fail)
        else match e.slot with
          | none => (s.pc f.port 0x540, .only .fail)
          | some a =>
            match s.tagSlot a id.toNat with
            | (.ok, j) =>
              let s := (s.useSlot j).comparators agree f.core
              let body := f.bytes.take (f.bytes.length - mac.length)
              let good := (mac.length = 8 || mac.length = 16) && decide (s.tagMac j mac.length iv body = mac)
              if agree && good then (s.pc f.port 0x530, ⟨.ok, some j, none⟩) else (s.pc f.port 0x538, ⟨.fail, some j, none⟩)
            | (.exhausted, _) => (s, .only .exhausted)
            | (.fail, _) => (s.pc f.port 0x540, .only .fail)

/-- The slot under which the tag of a GOOSE frame that host software or an applet originates is computed: the first ACTIVE
one of the anchor and its successor (R102). -/
def State.originSlot (s : State) (anchor : Nat) : Option Nat :=
  let k := s.ks anchor
  if k.state = Ks.active then some anchor
  else k.succ.filter (fun j => (s.ks j).state = Ks.active)

/-- The tag of such a frame: one invocation of the slot, and its MAC of 8 or 16 bytes (R100, R102, R112). -/
def State.originTag (s : State) (anchor n : Nat) (iv body : List Byte) : State × Option (List Byte) :=
  match s.originSlot anchor with
  | some j => (s.useSlot j, some (s.tagMac j n iv body))
  | none => (s, none)

/-- The sequence value of a stream with replay protection: GOOSE, and never SV (R103). -/
def Frame.replaySeq (f : Frame) : Option (GrvEntry × Nat) :=
  match f.entry, f.goose with
  | some e, some g => if e.replay && !g.sv then g.seq.map (fun v => (e, v.toNat)) else none
  | _, _ => none

/-- The freshness of the sequence value at the verdict (R103). A frame of a REPLAY stream that carries none is not fresh. -/
def State.replayCheck (s : State) (f : Frame) : Bool :=
  match f.entry with
  | some e => !e.replay || (match f.replaySeq with | some (e, v) => fresh (s.entryNowOf f e) v | none => f.goose.any (·.sv))
  | none => true

/-- What a passed verdict advances (R106): the PN state of the association, after a valid ICV, and the stream's replay
window, which the twin link mirrors (R280). -/
def State.verdictPassed (s : State) (f : Frame) (m : Checked) : State :=
  let s := match f.secy, m.pn with
    | some base, some (an, pn) =>
      let hpn := max (s.rd64 (hpnA base an)) pn
      let win := (s.rd (base + 0x14)).toNat
      (s.wr64 (hpnA base an) hpn).wr64 (lpnA base an) (max (s.rd64 (lpnA base an)) (hpn + 1 - win))
    | _, _ => s
  match f.replaySeq with
  | some (_, v) =>
    let s := s.updEntry f.key (fun x => replayUpd x v)
    match s.copseFind f.key f.epoch with
    | some (_, w) => if mirrored w && s.mirroring then s.sendReplay w.entry else s
    | none => s
  | none => s

/-- The counter of a failed verdict before egress (R107, R113). -/
def failCounter (v : Verdict) (exhausted : Bool) : Option Nat :=
  match v with
  | .pass => none
  | .fcs => none
  | .auth => some (if exhausted then 0x588 else 0x578)
  | .replay => some 0x578
  | .poison => some 0x580

/-- How often a failed verdict counts before egress: once for the frame that is stored or lacked a key, and once for each
cut-through copy that is never started (R107, R108, R113). -/
def Frame.failTimes (f : Frame) (exhausted : Bool) : Nat :=
  let queued := f.copies.filter (·.phase = .queued)
  let cut := (queued.filter (!·.stored)).length
  if exhausted || f.phase ≠ .handed then 1 else cut + b2n (queued.any (·.stored) || (cut = 0 && !f.begun))

/-- A frame whose verdict fails (R107, R108): freed, or its copies not yet started dropped. -/
def State.verdictFailed (s : State) (f : Frame) (v : Verdict) (exhausted : Bool) : State :=
  let s := s.countDiscard f
  let s := match failCounter v exhausted with
    | some o => s.forEach (List.range (f.failTimes exhausted)) (fun s _ => s.pc f.port o)
    | none => s
  if f.phase = .handed then
    let s := s.forEach (f.copies.filter (·.phase = .queued)) (fun s c => s.dropCopy f.id c)
    s.settleFrame f.id
  else s.freeFrame f.id

/-- The verdict of what the checks found: the first condition of R106 that fails. -/
def verdictOf (fcs macsec tag fresh poison : Bool) : Verdict :=
  if !fcs then .fcs else if !macsec || !tag then .auth else if !fresh then .replay else if poison then .poison else .pass

/-- FRAME_VERDICT: the checks of a frame conclude (R106), with what the reads of its cells and key slots meet and whether
the two tag comparators agree. -/
def execFrameVerdict (frame : Nat) (agree : Bool) (cells key : Option EccHit) (s : State) : Res :=
  match s.frame frame with
  | none => .next s
  | some f =>
    let waits := match f.phase with | .waiting _ => true | _ => false
    if waits || f.verdict.isSome then .next s
    else
      let (s, m) := if f.fault then (s, Checked.only .ok) else s.macsecCheck f agree
      let (s, t) := if f.fault || m.out ≠ .ok then (s, Checked.only .ok) else s.tagCheck f agree
      let isFresh := f.fault || m.out ≠ .ok || t.out ≠ .ok || s.replayCheck f
      let s := s.doIf (!isFresh) (·.pc f.port 0x550)
      let (s, p1) := s.eccRead 0 cells
      let slots := m.slot.toList ++ t.slot.toList
      let (s, p2) := if slots = [] then (s, false) else s.eccReads 3 (slots.flatMap slotCws) key
      let poison := f.poison || p1 || p2 || f.dipped || (decide (slots ≠ []) && s.dip) || f.copies.any (·.spoilt)
      let v := verdictOf (!f.fault) (m.out = .ok) (t.out = .ok) isFresh poison
      let s := s.setFrame { f with verdict := some v }
      if v = .pass then
        let s := s.verdictPassed f m
        let s := (s.countStream f.entry 0 1).countStream f.entry 8 f.len
        if f.phase = .handed then .next ((s.hostDeliver f).settleFrame f.id) else .next s
      else .next (s.verdictFailed { f with verdict := some v } v (m.out = .exhausted || t.out = .exhausted))

/-- The frame of a queue that may be handed over (R83): verdict passed, gate open now or when its first bit arrived, no
earlier frame of its stream still in the queue (R71). -/
def State.handoverNext (s : State) (p c : Nat) : Option Frame :=
  let q := s.fp.frames.filter (fun f => f.port = p && f.cls = c && f.phase = .admitted)
  q.find? (fun f => f.verdict = some .pass && (!f.held || bitAt (s.gates p false) c) && !q.any (fun g => decide (g.ord < f.ord) && g.key = f.key))

/-- EGRESS_HANDOVER: the next frame of an ingress admission queue enters its egress queues (R70, R83); queue 1024 holds
what the device itself originates. -/
def execEgressHandover (port : Fin 1025) (cls : Fin 7) (s : State) : Res :=
  match s.handoverNext port.val cls.val with
  | none => .next s
  | some f =>
    let s := (s.setFrame { f with phase := .handed }).handTo f (s.portsOf f)
    .next ((s.hostDeliver f).settleFrame f.id)

end Sys2Proof.Machine
end

