-- ==== Sys2Proof/Machine/CrdRows.lean ====
section
/-! DEFINITION. The SD/eMMC port, its record layer, and the smart-card port (R246, R435 to R449). -/

namespace Sys2Proof.Machine

/-! ### Presence and bus modes (R436, R438, R449) -/

def cdEmpty : Nat := 0
def cdReady : Nat := 2
def cdFailed : Nat := 4

def State.crdFlag (s : State) (bit : Nat) : State := s.raise crdEvt bit (s.rd R.CRD_LOST_ADDR).toNat
def State.scdFlag (s : State) (bit : Nat) : State := s.raise scdEvt bit 0

/-- The modes tried for a card, highest first: those it supports, up to the limit of its own type (R436, R449). -/
def State.cardModes (s : State) (c : CardId) : List Nat :=
  let top := if s.fb F.CRD_CTL_TYPE then 8 + min (s.f F.CRD_CTL_EMMC_MAX) 2 else min (s.f F.CRD_CTL_MAXMODE) 6
  let base := if s.fb F.CRD_CTL_TYPE then 8 else 0
  ((rangeFrom (base + 1) (top - base)).filter (fun m => bitAt c.modes.toNat m)).reverse

/-- A card is identified and raised to its highest verified mode; the mode it begins in needs no switch. -/
def State.identify (s : State) (c : CardId) : State :=
  if !c.ok then s.setF F.CRD_STS_STATE cdFailed
  else
    let ms := s.cardModes c
    let m := match ms.find? (fun m => bitAt c.good.toNat m) with | some m => m | none => if s.fb F.CRD_CTL_TYPE then 8 else 0
    let bad := ms.any (fun x => decide (m < x))
    let s := ((s.setF F.CRD_STS_STATE cdReady).setF F.CRD_STS_MODE m).setB F.CRD_STS_V18 ((decide (2 ≤ m) && decide (m ≤ 6)) || m = 10)
    let s := { s.setF F.CRD_CAP_BLOCKS c.blocks.toNat with crd := { s.crd with off := false } }
    s.doIf bad (·.crdFlag 2)

/-- CARD_INSERT: a domain that is not ON wakes, and identifies the card when it is ready (Table PWR-3). -/
def execCardInsert (card : CardId) (s : State) : Res :=
  if !s.domOn dCard then .next (s.domWake dCard)
  else if !s.fb F.CRD_CTL_EN || s.f F.CRD_STS_STATE ≠ cdEmpty then .next s
  else .next (((s.crdFlag 0).identify card).irqAll 53)

/-- A command of a card port that has started and has not ended ends with CARD_LOST. -/
def State.cardWaits (s : State) (o : Obj) (block : Nat) : State :=
  s.forEach ((s.cul.waits.filter (fun w => decide (o ∈ w.objs))).map (·.cmd)) (fun s h => s.finishWait h ⟨St.cardLost, block, []⟩)

/-- The card is lost: clock and power off, and the address of the block in transfer recorded (R438). -/
def State.cardGone (s : State) (block : Nat) : State :=
  let s := ((s.setF F.CRD_STS_STATE cdEmpty).setF F.CRD_STS_MODE 0).setB F.CRD_STS_V18 false
  let s := { (s.setF F.CRD_CAP_BLOCKS 0).setF F.CRD_LOST_ADDR_ADDR block with crd := { s.crd with off := true } }
  s.crdFlag 1

/-- CARD_REMOVE: with CD_EN at 0 the pin loses no card (R438). -/
def execCardRemove (block : Option Word) (s : State) : Res :=
  let b := (block.map (·.toNat)).getD 0xFFFFFFFF
  if !s.domOn dCard || s.f F.CRD_STS_STATE = cdEmpty || !s.fb F.CRD_CTL_CD_EN then .next s
  else .next (((s.cardGone b).cardWaits .card b).irqAll 53)

/-! ### The record layer (R440 to R443) -/

def recBase (r : Nat) : Nat := 8192 + 16384 * r
def recMax : Nat := 4193792

/-- The fields of a record header (Table CRD-2). -/
def recLen (c : List Byte) : Nat := beAt c 0xC 4
def recSeq (c : List Byte) : Nat := beAt c 0x10 8
def recData (c : List Byte) : List Byte := sliceB c 512 (recLen c)

/-- A copy is valid (R441). -/
def recValid (r : Nat) (c : List Byte) : Bool :=
  c.take 4 = ascii "PWRC" && beAt c 4 2 = 1 && beAt c 8 4 = r && decide (recLen c ≤ recMax)
  && beAt c 0x1FC 4 = (crc32 (sliceB c 0 0x1FC)).toNat && beAt c 0x18 4 = (crc32 (recData c)).toNat

/-- The copy that a read returns (R441). -/
def recPick (r : Nat) (a b : List Byte) : Option (List Byte) :=
  match recValid r a, recValid r b with
  | true, true => if recSeq a < recSeq b then some b else some a
  | true, false => some a
  | false, true => some b
  | false, false => none

/-- The target copy is copy B (R442). -/
def recTargetB (r : Nat) (a b : List Byte) : Bool :=
  if !recValid r a then false else if !recValid r b then true else decide (recSeq b ≤ recSeq a)

/-- The header of a copy. -/
def recHeader (r len seq : Nat) (data : List Byte) : List Byte :=
  let h := fitB 0x1FC (ascii "PWRC" ++ toBe 2 1 ++ [0, 0] ++ toBe 4 r ++ toBe 4 len ++ toBe 8 seq ++ toBe 4 (crc32 data).toNat)
  h ++ toBe 4 (crc32 h).toNat

/-- The record does not exist, or lies beyond the card (R440). -/
def State.recAbsent (s : State) (r : Nat) : Bool :=
  decide (4095 < r) || decide (s.f F.CRD_CAP_BLOCKS < recBase r + 16384)

/-- No card is ready, or its port is disabled. -/
def State.cardIdle (s : State) : Option Reply := refuse (!s.fb F.CRD_CTL_EN || s.f F.CRD_STS_STATE ≠ cdReady) (busyState 0)

/-- The failures met are counted; where the transfers fail, the reply with which the command ends (R437, R438). -/
def State.cardFail (s : State) (run : CardRun) : Option Reply × State :=
  let s := s.addF F.CRD_CRC_ERR_COUNT run.fails.toNat
  let spent := (some (busyState 0), s.crdFlag 3)
  let gone := fun (b : Word) => (some ⟨St.cardLost, b.toNat, []⟩, s.cardGone b.toNat)
  match run.stop with
  | .done => (none, s)
  | .spent => spent
  | .silent b => if s.fb F.CRD_CTL_CD_EN then spent else gone b
  | .lost b => gone b

/-- Blocks written in ascending order, up to one not reached. -/
def State.putBlocks (s : State) (base : Nat) (data : List Byte) (stop : Option Nat) : State :=
  s.forEach ((rangeFrom base (ceilDiv data.length 512)).filter (fun b => match stop with | some x => decide (b < x) | none => true))
    (fun s b => s.emit (.card b (sliceB data (512 * (b - base)) 512)))

/-- The block at which the transfers stopped. -/
def runBlock (run : CardRun) : Option Nat :=
  match run.stop with | .done => none | .spent => some 0 | .silent b => some b.toNat | .lost b => some b.toNat

def specCardRead (run : CardRun) : CmdSpec where
  opc := 0x0B04
  dom := fun _ => some dCard
  need := needs Role.auditor
  len := fun h => lenFixed [(0, 4), (4, 8)] h.len
  bufs := [(4, true)]
  check := fun h s => refuse (s.f F.CRD_STS_STATE = cdReady && s.recAbsent (h.u 0 4)) (badField 0)
  objs := fun _ => [.card]
  busy := fun _ s => s.cardIdle
  act := fun h s =>
    let (bad, s) := s.cardFail run
    let s := s.irqAll 53
    match bad with
    | some r => .done r s
    | none =>
      match recPick (h.u 0 4) run.copyA run.copyB with
      | none => .done (badState (h.u 0 4)) s
      | some c =>
        match h.short 4 (recLen c) with
        | some r => .done r s
        | none => .done (.ok (packR [(4, recLen c), (8, recSeq c)] [])) (s.putBuf h 4 (recData c))

/-- The SEQ that a write gives its copy (R442). -/
def recNext (r : Nat) (a b : List Byte) : Nat := match recPick r a b with | some c => recSeq c + 1 | none => 1

/-- A write of a record (R442): data blocks, header block, read-back. -/
def State.recWrite (s : State) (r : Nat) (data : List Byte) (run : CardRun) : Reply × State :=
  let seq := recNext r run.copyA run.copyB
  let base := recBase r + (if recTargetB r run.copyA run.copyB then 8192 else 0)
  let (bad, s) := s.cardFail run
  -- a command that failed with its retries spent stops at a block the manual does not give
  let (stop, s) := match run.stop with
    | .spent => let (x, s) := s.openBelow 8193; (some (base + x), s)
    | _ => (runBlock run, s)
  -- the header block is written last: a stop there comes after every data block
  let s := s.putBlocks (base + 1) data (if stop = some base then none else stop)
  match bad with
  | some rep => (rep, s)
  | none =>
    let s := s.emit (.card base (recHeader r data.length seq data))
    if recValid r run.back && recSeq run.back = seq then (.ok (toLe 8 seq), s) else (badState r, s)

/-- The staged set came from this record (R443). -/
def State.recStaged (s : State) (r : Nat) : Bool := match s.cfg.shadow with | some x => x.card = some r | none => false

def specCardWrite (run : CardRun) : CmdSpec where
  opc := 0x0B05
  dom := fun _ => some dCard
  need := needs Role.operator
  len := fun h => lenFixed [(0, 4), (4, 8)] h.len
  bufs := [(4, false)]
  pre := fun h => refuse (decide (recMax < (h.buf 4).2)) (badField 4)
  check := fun h s =>
    refuse (s.f F.CRD_STS_STATE = cdReady && s.recAbsent (h.u 0 4)) (badField 0)
    <|> refuse (s.recStaged (h.u 0 4)) (badState (h.u 0 4))
  objs := fun _ => [.card]
  busy := fun _ s => s.cardIdle
  act := fun h s =>
    let (r, s) := s.recWrite (h.u 0 4) (h.inp 0 4) run
    .done r (s.irqAll 53)

def specCardStage (run : CardRun) : CmdSpec where
  opc := 0x0B06
  dom := fun _ => some dCard
  need := needs Role.operator
  len := fun h => lenFixed [(0, 4)] h.len
  check := fun h s => refuse (s.f F.CRD_STS_STATE = cdReady && s.recAbsent (h.u 0 4)) (badField 0)
  objs := fun _ => [.card, .shadow]
  busy := fun h s => s.cardIdle <|> s.shadowLocked h <|> refuse s.commitPending (coded St.busy Dt.commitPending 0)
  act := fun h s =>
    let (bad, s) := s.cardFail run
    let s := s.irqAll 53
    match bad with
    | some r => .done r s
    | none =>
      match recPick (h.u 0 4) run.copyA run.copyB with
      | none => .done (badState (h.u 0 4)) s
      | some c => s.stage h (recData c) 0 true (some (h.u 0 4))

/-- CMD_CRD_RECORD_READ. -/
def execCmdCrdRecordRead (sl : Slot) (run : CardRun) (s : State) : Res := runCmd (specCardRead run) sl s

/-- CMD_CRD_RECORD_WRITE. -/
def execCmdCrdRecordWrite (sl : Slot) (run : CardRun) (s : State) : Res := runCmd (specCardWrite run) sl s

/-- CMD_CRD_BUNDLE_STAGE. -/
def execCmdCrdBundleStage (sl : Slot) (run : CardRun) (s : State) : Res := runCmd (specCardStage run) sl s

/-! ### The smart card (R444 to R446) -/

/-- What an answer to reset says (ISO/IEC 7816-3): TA1, TA2, the protocols offered in order, the class indicator, the
bytes read, and whether the characters it announces are all there. -/
structure Atr where
  ta1 : Option Nat
  ta2 : Option Nat
  protos : List Nat
  cls : Option Nat
  used : Nat
  whole : Bool

/-- The interface characters from offset `p`: group `i`, the Y bits, and the T that the group is specific to. -/
def atrGroups (b : List Byte) : Nat → Nat → Nat → Nat → Nat → Atr → Atr
  | 0, _, _, _, _, a => a
  | fuel + 1, i, p, y, t, a =>
    let pa := p
    let pb := pa + y % 2
    let pc := pb + y / 2 % 2
    let pd := pc + y / 4 % 2
    let e := pd + y / 8 % 2
    let ta := if y % 2 = 1 then some (byteAt b pa).toNat else none
    let a := { a with ta1 := if i = 1 then ta else a.ta1, ta2 := if i = 2 then ta else a.ta2, used := e, whole := decide (e ≤ b.length),
                      cls := if decide (3 ≤ i) && t = 15 && a.cls.isNone then ta.map (· % 64) else a.cls }
    if y / 8 % 2 = 0 then a
    else
      let td := (byteAt b pd).toNat
      atrGroups b fuel (i + 1) e (td / 16) (td % 16) { a with protos := a.protos ++ [td % 16] }

def atrParse (b : List Byte) : Atr :=
  atrGroups b 8 1 2 ((byteAt b 1).toNat / 16) 0 ⟨none, none, [], none, 2, decide (2 ≤ b.length)⟩

/-- A valid answer to reset (R445): TS, all the characters it announces, and TCK where a T other than 0 is indicated. -/
def atrValid (b : List Byte) : Bool :=
  let a := atrParse b
  let k := (byteAt b 1).toNat % 16
  let tck := a.protos.any (· ≠ 0)
  (byteAt b 0 = 0x3B || byteAt b 0 = 0x3F) && a.whole && decide (b.length ≤ 33) && b.length = a.used + k + b2n tck
  && (!tck || (b.drop 1).foldl (fun x y => x ^^^ y) 0 = 0)

/-- Fi and Di of a TA1 code (ISO/IEC 7816-3), within the limits that the port proposes (R446). -/
def fidiOk (ta1 : Nat) : Bool := (ta1 / 16 = 0 || ta1 / 16 = 1 || ta1 / 16 = 9) && decide (1 ≤ ta1 % 16) && decide (ta1 % 16 ≤ 5)
  || (ta1 / 16 = 0 || ta1 / 16 = 1 || ta1 / 16 = 9) && ta1 % 16 = 8

/-- The protocol and the Fi/Di chosen, or none where a specific mode is not supported (R446). -/
def atrChoice (a : Atr) (pps : Bool) : Option (Nat × Nat) :=
  let fd := match a.ta1 with | some x => if fidiOk x then x else 0x11 | none => 0x11
  match a.ta2 with
  | some m =>
    let ta1 := a.ta1.getD 0x11
    if 1 < m % 16 || bitAt m 4 || !fidiOk ta1 then none else some (m % 16, ta1)
  | none =>
    if pps then some (if 1 ∈ a.protos then 1 else 0, fd)
    else some (match a.protos with | t :: _ => if t = 1 then 1 else 0 | [] => 0, 0x11)

/-- The answer to reset used: at class C, or at class B where class C gives none or is excluded. -/
def scdAtr (c : ScdId) : Option (Nat × List Byte) :=
  let b := (c.atrB.filter atrValid).map (fun x => (1, x))
  match c.atrC.filter atrValid with
  | some x => match (atrParse x).cls with | some u => if bitAt u 2 then some (2, x) else b | none => some (2, x)
  | none => b

/-- The registers of the smart-card port return to those of no card. -/
def State.scdClear (s : State) : State := (s.wr R.SCD_STS 0).forEach (List.range 9) (fun s i => s.wr (R.SCD_ATR i) 0)

/-- The card is deactivated; it stays present. -/
def State.scdOff (s : State) : State := s.setB F.SCD_STS_ACTIVE false

/-- SCD_INSERT: the card is activated, its answer to reset read and its protocol chosen. -/
def execScdInsert (card : ScdId) (s : State) : Res :=
  if !s.domOn dCard then .next (s.domWake dCard)
  else if !s.fb F.SCD_CTL_EN || s.fb F.SCD_STS_PRESENT then .next s
  else
    let s := ((s.scdFlag 0).setB F.SCD_STS_PRESENT true).irqAll 53
    match scdAtr card with
    | none => .next (s.scdFlag 2)
    | some (cls, b) =>
      let s := (s.setF F.SCD_STS_ALEN b.length).setB F.SCD_STS_INVERSE (byteAt b 0 = 0x3F)
      let s := s.forEach (List.range 9) (fun s i => s.wr (R.SCD_ATR i) (BitVec.ofNat 32 (leAt b (4 * i) 4)))
      match atrChoice (atrParse b) card.pps with
      | none => .next (s.scdFlag 2)
      | some (t, fd) =>
        if t = 1 && !card.linkUp then .next (s.scdFlag 3)
        else .next ((((s.setB F.SCD_STS_ACTIVE true).setF F.SCD_STS_CLASS cls).setF F.SCD_STS_T1 t).setF F.SCD_STS_FIDI fd)

/-- SCD_REMOVE. -/
def execScdRemove (s : State) : Res :=
  if !s.domOn dCard || !s.fb F.SCD_STS_PRESENT then .next s
  else .next (((s.scdClear.scdFlag 1).cardWaits .smartCard 0xFFFFFFFF).irqAll 53)

def specScdStatus : CmdSpec where
  opc := 0x0B07
  dom := fun _ => some dCard
  need := needs Role.auditor
  sync := true
  len := fun h => lenFixed [] h.len
  act := fun _ s =>
    let atr := (List.range 9).flatMap (fun i => toLe 4 (s.rd (R.SCD_ATR i)).toNat)
    .done (.ok (toLe 1 (s.f F.SCD_STS_PRESENT) ++ toLe 1 (s.f F.SCD_STS_CLASS) ++ toLe 1 (s.f F.SCD_STS_T1)
      ++ toLe 1 (s.f F.SCD_STS_ALEN) ++ fitB 33 atr)) s

/-- CMD_SCD_STATUS. -/
def execCmdScdStatus (sl : Slot) (s : State) : Res := runCmd specScdStatus sl s

/-- A short command APDU of cases 1 to 4. -/
def shortApdu (b : List Byte) : Bool :=
  let lc := (byteAt b 4).toNat
  b.length = 4 || b.length = 5 || (lc ≠ 0 && (b.length = 5 + lc || b.length = 6 + lc))

def specScdApdu (run : ScdRun) : CmdSpec where
  opc := 0x0B08
  dom := fun _ => some dCard
  need := needs Role.operator
  len := fun h => lenFixed [(0, 8), (8, 8)] h.len
  bufs := [(0, false), (8, true)]
  check := fun h _ => refuse (!shortApdu (h.inp 0 0)) (badField 0)
  objs := fun _ => [.smartCard]
  busy := fun _ s => refuse (!s.fb F.SCD_CTL_EN || !s.fb F.SCD_STS_ACTIVE) (busyState 0)
  act := fun h s =>
    let s := (s.emit (.scd (h.inp 0 0))).irqAll 53
    match run with
    | .answer r =>
      match h.short 8 r.length with
      | some e => .done e s
      | none => .done (.ok (toLe 4 r.length)) (s.putBuf h 8 r)
    | .failed => .done (badState 0) (s.scdOff.scdFlag 3)
    | .lost => .done ⟨St.cardLost, 0xFFFFFFFF, []⟩ (s.scdClear.scdFlag 1)

/-- CMD_SCD_APDU. -/
def execCmdScdApdu (sl : Slot) (run : ScdRun) (s : State) : Res := runCmd (specScdApdu run) sl s

end Sys2Proof.Machine
end

