-- ==== Sys2Proof/Machine/GrvRows.lean ====
section
/-! DEFINITION. Grove in service: building, migration, the CXL links, Sweep, and the Grove commands (R162, R175 to R183,
R192 to R194, R242). -/

namespace Sys2Proof.Machine

/-! ### Building and migration (R180, R181) -/

/-- GROVE_BUILD_DONE: the last line has been written. -/
def execGroveBuildDone (s : State) : Res :=
  if s.grvSt = grvBuilding then .next ((s.enterGrv grvServing).grvFlag 0 0xFF 0xFFFFFFFF) else .next s

/-- Copse copies follow their entries to their lines in a region. -/
def State.rehome (s : State) (r : Nat) : State :=
  let places := s.validLines r
  s.mapWays (fun w =>
    if w.st = .clean || w.st = .dirty then
      match places.find? (fun x => x.2.mkey = w.entry.mkey) with
      | some x => some { w with line := some x.1 }
      | none => some w
    else some w)

/-- Place a list of entries in the new region, where there is room for all (R167). -/
def State.copyLines (s : State) (hk k : Nat) : List GrvEntry → State × Bool
  | [] => (s, true)
  | x :: t =>
    match s.placeLine (1 - s.region) hk k x with
    | (s, some _) => s.copyLines hk k t
    | (s, none) => (s, false)

/-- The lines of a bucket of the region in force are read (R169). -/
def State.seeBucket (s : State) (b : Nat) : State :=
  s.forEach [0, 1, 2, 3] (fun s w => (s.lineRead s.region (4 * b + w) none).1)

/-- The valid entries that a bucket of the region in force yields. -/
def State.bucketEntries (s : State) (b : Nat) : List GrvEntry := [0, 1, 2, 3].filterMap (fun w => s.lineEntry s.region (4 * b + w))

/-- A migration fails: the new region is discarded, and the old bucket count stays (Table GRV-8). -/
def State.migFail (s : State) : State :=
  let g := { s.grv with mig := none, lines := s.grv.lines.filter (fun e => e.1 / 2 ^ 24 = s.region) }
  (({ s with grv := g }.setF F.GRV_STATUS_MIGRATED 0).enterGrv grvServing).grvFlag 6 0xFF 0xFFFFFFFF

/-- GROVE_MIGRATE_BUCKET: the valid entries of the next old bucket are placed in the new region; a placement that fails
ends the migration (R181). -/
def execGroveMigrateBucket (s : State) : Res :=
  match s.grv.mig with
  | none => .next s
  | some m =>
    if s.grvSt ≠ grvMigrating || m.walked then .next s
    else
      let s := s.seeBucket m.bucket
      match s.copyLines s.grv.newKey m.toK (s.bucketEntries m.bucket) with
      | (s, true) =>
        let b := m.bucket + 1
        let m : Migration := { m with bucket := b, walked := decide (b = 2 ^ s.kInForce) }
        .next ({ s with grv := { s.grv with mig := some m } }.setF F.GRV_STATUS_MIGRATED (b / 64))
      | (s, false) => .next s.migFail

/-- Angle 0 after the walk has ended (R181). -/
def State.migAtZero (s : State) : State :=
  match s.grv.mig with
  | some m => if m.walked then { s with grv := { s.grv with mig := some { m with due := true } } } else s
  | none => s

/-- An outstanding fill reads the region that has taken over, where its key now lies (R181). -/
def Fill.moveTo (x : Fill) (r hk k : Nat) : Fill :=
  let b := bucketsOf hk k x.key
  { x with region := r, b0 := b.1, b1 := b.2 }

/-- GROVE_REGION_SWITCH: the new region takes over at the first angle 0 after the walk. -/
def execGroveRegionSwitch (s : State) : Res :=
  match s.grv.mig with
  | none => .next s
  | some m =>
    if !m.due || s.grvSt ≠ grvMigrating then .next s
    else
      let r := 1 - s.region
      let g := { s.grv with mig := none, hashKey := s.grv.newKey, lines := s.grv.lines.filter (fun e => e.1 / 2 ^ 24 = r),
                            fills := s.grv.fills.map (fun (x : Fill) => x.moveTo r s.grv.newKey m.toK) }
      let s := { s with grv := g }
      let s := ((s.setF F.GRV_STATUS_REGION r).setF F.GRV_STATUS_BKT_LOG2 m.toK).setF F.GRV_STATUS_MIGRATED 0
      let s := s.rehome r
      let s := (s.setF F.SWP_CXL_POS_LINE 0).enterGrv grvServing
      .next (s.grvFlag 5 0xFF 0xFFFFFFFF)

/-! ### CXL links (R162, R182, R183) -/

/-- A device is lost: its link is down, and what it held is gone. -/
def State.cxlLost (s : State) (j : Nat) : State :=
  let l := s.link j
  if !l.trained then s
  else
    let s := s.setLink j { l with trained := false, mapped := false, awaiting := false, cap := 0, holds := false }
    (s.doIf l.holds (·.grvLose j)).doIf l.mapped (·.dmaCxlLost)

/-- CXL_LINK_DOWN: the link leaves L0 other than by command. -/
def execCxlLinkDown (link : Fin 2) (s : State) : Res := .next (s.cxlLost link.val)

/-- CXL_READ_TIMEOUT: a read has stayed unanswered for 50 us. -/
def execCxlReadTimeout (link : Fin 2) (s : State) : Res := .next (s.cxlLost link.val)

/-- CXL_FATAL_ERROR: the device reports a fatal error. -/
def execCxlFatalError (link : Fin 2) (s : State) : Res := .next (s.cxlLost link.val)

/-- The configured links are trained and mapped, with 4 GiB in all at least: at stage B5 the build starts, with the
interleave in force (R161, R162, Table GRV-8). -/
def State.cxlReady (s : State) : State :=
  let total := (s.configured.map (fun j => (s.link j).cap)).foldl (· + ·) 0
  if s.configured = [] || !s.configured.all (fun j => (s.link j).trained) || decide (total < 4096) then s
  else
    let s := s.setB F.GRV_STATUS_IL2 (s.fb F.GRV_CTL_IL2 && decide (s.configured.length = 2))
    let s := { s with grv := { s.grv with atB5 := false } }
    s.doIf (s.fb F.GRV_CTL_EN) (·.startBuild)

/-- CXL_DEVICE_TRAINED: a device trains on a link: at stage B5, or after a change of topology, it is mapped; later it
awaits CMD_GROVE_MEM_ADD (R162, R182). A device whose mapping the CXL domain has kept trains into it (Table PWR-1), and one
that would take the total beyond 64 GiB does not train (R161). -/
def execCxlDeviceTrained (link : Fin 2) (cap : Fin 65537) (gt32 : Bool) (s : State) : Res :=
  let j := link.val
  let l := s.link j
  if !s.domOn dCxl || l.trained || cap.val = 0 || (j = 1 && !s.fb F.GRV_CTL_IL2) || decide (65536 < (s.link (1 - j)).cap + cap.val) then .next s
  else if l.mapped then .next (s.setLink j { l with trained := true, gt32 := gt32 })
  else if s.grv.atB5 then
    if l.present then
      .next (s.setLink j { l with trained := true, mapped := true, awaiting := false, gt32 := gt32, cap := cap.val }).cxlReady
    else .next s
  else .next ((s.setLink j { l with trained := true, mapped := false, awaiting := true, gt32 := gt32, cap := cap.val }).grvFlag 4 j 0xFFFFFFFF)

/-! ### Sweep (R192 to R194) -/

/-- Sweep lines of the regions of the SRAM walk (Table SDI-1). -/
def sweepLines (r : Nat) : Nat := [262144, 131328, 65536, 65536, 8192, 8192, 8192, 8192, 8192].getD r 8192

/-- Sweep reads one SRAM codeword as a demand read does (R188, R192). -/
def State.sweepWord (s : State) (r cw : Nat) (hit : Option EccHit) : State :=
  (s.eccRead r (hit.map (fun h => { h with cw := BitVec.ofNat 24 cw }))).1

/-- A pass of a walk ends. -/
def State.sweepPass (s : State) (cxl : Bool) : State :=
  (s.addF (if cxl then F.SWP_PASSES_GROVE else F.SWP_PASSES_SRAM) 1).raise swpEvt 1 (b2n cxl)

/-- The SRAM walk reads its next line: two codewords. -/
def State.sweepSram (s : State) (a b : Option EccHit) : State :=
  let r := s.f F.SWP_SRAM_POS_REGION
  let n := s.f F.SWP_SRAM_POS_LINE
  let s := (s.sweepWord r (2 * n) a).sweepWord r (2 * n + 1) b
  let left := s.ecc.sramLeft - 1
  let s := { s with ecc := { s.ecc with sramLeft := left, sramCarry := min s.ecc.sramCarry left } }
  if n + 1 < sweepLines r then s.setF F.SWP_SRAM_POS_LINE (n + 1)
  else
    let s := (s.setF F.SWP_SRAM_POS_LINE 0).setF F.SWP_SRAM_POS_REGION ((r + 1) % 9)
    s.doIf (decide (r = 8)) (·.sweepPass false)

/-- A corrected line as it is written back, sealed anew at the next LVER. What the correction has left wrong, bytes of the
MAC and LVER among it, which the code does not cover, stays wrong (R187, R194). -/
def State.rewriteLine (s : State) (r e : Nat) (l : GrvLine) (b : List Nat) : State :=
  let good := s.lineBytes r e { l with flips := [] }
  let left := (List.range 80).filterMap (fun i => let d := b.getD i 0 ^^^ good.getD i 0; if d = 0 then none else some (i, BitVec.ofNat 8 d))
  s.setLine r e { s.sealLine r e ((l.lver + 1) % 65536) l.entry false with flips := left }

/-- The Grove walk looks at a line with what the memory brings back: CHECK and CXL poison, not the MAC; a corrected line is
written back (R188, R192, R194). -/
def State.sweepLook (s : State) (r e : Nat) (err : Option LineErr) : State :=
  let l := s.line r e
  let l := match err with | some x => { l with flips := l.flips ++ x.flips.map (fun (f : Fin 80 × Byte) => (f.1.val, f.2)) } | none => l
  if l.poison then s
  else if err.any (·.poison) then s.lineUncorr r e
  else if l.flips = [] then s
  else
    let s := s.setLine r e l
    match lineDecode (s.lineBytes r e l) with
    | none => s.lineUncorr r e
    | some (b, n) => if n = 0 then s else (s.eccCorr (10 + r) (lineOfs r e) n).rewriteLine r e l b

/-- The Grove walk reads its next line. -/
def State.sweepGrove (s : State) (err : Option LineErr) : State :=
  let e := s.f F.SWP_CXL_POS_LINE
  let s := s.sweepLook s.region e err
  let left := s.ecc.cxlLeft - 1
  let s := { s with ecc := { s.ecc with cxlLeft := left, cxlCarry := min s.ecc.cxlCarry left } }
  if e + 1 < 4 * 2 ^ s.kInForce then s.setF F.SWP_CXL_POS_LINE (e + 1)
  else (s.setF F.SWP_CXL_POS_LINE 0).sweepPass true

/-- The Grove walk runs. -/
def State.groveWalks (s : State) : Bool := s.grvSt = grvServing || s.grvSt = grvMigrating

/-- SWEEP_LINE: a walk reads its next line, where it still has lines granted in this cycle. -/
def execSweepLine (first second : Option EccHit) (line : Option LineErr) (cxl : Bool) (s : State) : Res :=
  if cxl then
    (if s.groveWalks && s.fb F.SWP_CTL_CXL_EN && decide (0 < s.ecc.cxlLeft) then .next (s.sweepGrove line) else .next s)
  else if s.fb F.SWP_CTL_SRAM_EN && decide (0 < s.ecc.sramLeft) then .next (s.sweepSram first second)
  else .next s

/-- What a reload makes of the cycle that ended, with the rate it had and the lines not read in it: the carry, held to 4
times that rate, and the lines past this limit; a walk that was stopped keeps its carry (R193). -/
def sweepCarried (left carry ended : Nat) : Nat × Nat :=
  if ended = 0 then (carry, 0) else (min (4 * ended) left, left - 4 * ended)

/-- The limit of the carry has been reached. -/
def sweepBehind (left ended : Nat) : Bool := ended ≠ 0 && decide (4 * ended ≤ left)

/-- Step 4 of R16 for Sweep: each walk that runs is granted its rate and its carry. -/
def State.sweepReload (s : State) : State :=
  let e := s.ecc
  let ra := if s.fb F.SWP_CTL_SRAM_EN then s.f F.SWP_SRAM_RATE_RATE else 0
  let rb := if s.fb F.SWP_CTL_CXL_EN && s.groveWalks then s.f F.SWP_CXL_RATE_RATE else 0
  let a := sweepCarried e.sramLeft e.sramCarry e.sramRate
  let b := sweepCarried e.cxlLeft e.cxlCarry e.cxlRate
  let grant := fun (rate carry : Nat) => if rate = 0 then 0 else rate + carry
  let s := { s with ecc := { e with sramLeft := grant ra a.1, sramCarry := a.1, sramRate := ra, cxlLeft := grant rb b.1, cxlCarry := b.1, cxlRate := rb } }
  let s := s.addF F.SWP_MISSED_COUNT (a.2 + b.2)
  if sweepBehind e.sramLeft e.sramRate then s.raise swpEvt 0 0
  else if sweepBehind e.cxlLeft e.cxlRate then s.raise swpEvt 0 1
  else s

/-- SWP_CARRY as read. -/
def State.sweepCarry (s : State) : Word := BitVec.ofNat 32 (min 65535 s.ecc.cxlCarry * 65536 + min 65535 s.ecc.sramCarry)

/-! ### Where a key is (R175 to R179) -/

/-- The Copse way that holds a key, other than as NEGATIVE. -/
def State.heldWay (s : State) (key : List Byte) : Option (Nat × CpsWay) :=
  (s.copseNow key).filter (fun x => decide (x.2.st ≠ .negative))

/-- The key is pinned. -/
def State.pinnedWay (s : State) (key : List Byte) : Option (Nat × CpsWay) :=
  (s.heldWay key).filter (fun x => decide (x.2.st = .pinned))

/-- The entry of a key as held now, with frame state from Copse (R175). -/
def State.entryOf (s : State) (key : List Byte) : Option GrvEntry :=
  match s.heldWay key with
  | some (_, w) => some w.entry
  | none => if s.groveWalks then (s.findLine s.region key).map (·.2) else none

/-- What a command that needs the entry of a key meets: the copy in Copse is poisoned (R190), or a candidate line is and
no copy of the key is found, for the key could be the one lost (R170). -/
def State.keyPoison (s : State) (key : List Byte) : Option Reply :=
  match s.heldWay key with
  | some (i, _) =>
    if s.poisoned 1 (2 * i) then some ⟨St.memoryPoison, cwDetail 1 (2 * i), []⟩
    else if s.poisoned 1 (2 * i + 1) then some ⟨St.memoryPoison, cwDetail 1 (2 * i + 1), []⟩
    else none
  | none =>
    if !s.groveWalks || (s.findLine s.region key).isSome then none
    else ((s.keyLines key).find? (fun e => (s.lineRead s.region e none).2 = .bad)).map (fun e => ⟨St.memoryPoison, cwDetail (10 + s.region) e, []⟩)

/-- The lines that a command reads for a key, where Copse does not hold it (R169). -/
def State.seeKey (s : State) (key : List Byte) : State := if s.groveWalks && (s.heldWay key).isNone then s.seeLines key else s

def notServing (s : State) : Reply := coded St.busy Dt.notServing s.grvSt

/-- The first field of an ENTRY that breaks R59, R60 or R103. `pinned` is the entry's PINNED as it will act. -/
def entryRule (b : List Byte) (pinned : Bool) : Option Nat :=
  let e := GrvEntry.ofBytes b
  if matchReserved e.mtch then some 0
  else if 3 < e.action then some 0x18
  else if 8 ≤ e.tc then some 0x19
  else if decide (512 ≤ e.flags) || (e.prp && e.hsr) || (e.tc = 7 && !pinned) || (e.replay && !e.verify) then some 0x1A
  else if bitsOf e.egress 12 18 ≠ 0 then some 0x20
  else if 32768 ≤ e.counter then some 0x24
  else none

/-- The write of an entry in Grove, with the copies of the entries moved (R167, R175): none where it finds no place. -/
def State.groveWrite (s : State) (x : GrvEntry) : State × Bool :=
  let s := s.seeLines x.mkey
  match s.placeLine s.region s.grv.hashKey s.kInForce x with
  | (s, none) => (s, false)
  | (s, some moved) =>
    let s := s.relink (moved.filter (fun m => m.1.mkey ≠ x.mkey))
    let w := mkWay s .clean x ((moved.find? (fun m => m.1.mkey = x.mkey)).map (·.2))
    match s.copseNow x.mkey with
    | some (i, _) => (s.writeWay i w, true)
    | none => ((s.keepWay w).1, true)

/-! ### The Grove commands (Tables GRV-6 and CMD-9) -/

def Held.entry (h : Held) : List Byte := sliceB h.params 0 64
def Held.mkey (h : Held) : List Byte := matchedBytes (sliceB h.params 0 24)

def keyAbsent : Reply := coded St.badParam Dt.keyAbsent 0
def staticHeld : Reply := coded St.badParam Dt.staticEntry 0
def tableFull : Reply := coded St.busy Dt.tableFull 0

/-- The pipelines' shared section, which Grove commands reach into, from B4 on (R411). -/
def State.grvDom (s : State) : Option Nat := if s.f F.RST_STS_STAGE < 4 || s.sharedOn then none else some dPipe0

/-- CMD_GROVE_MEM_ADD and CMD_GROVE_REBUILD wake the CXL domain too, from B5 on (Table PWR-3). -/
def State.cxlDom (s : State) : Option Nat := if 5 ≤ s.f F.RST_STS_STAGE && !s.domOn dCxl then some dCxl else s.grvDom

def specGroveInsert : CmdSpec where
  opc := 0x0601
  dom := State.grvDom
  need := needs Role.operator
  len h := lenFixed [(0, 64)] h.len
  pre h :=
    let e := GrvEntry.ofBytes h.entry
    refuse (e.static || !e.valid) (badField 0x1A) <|> (entryRule h.entry e.pinnedFlag).map badField
  check h s :=
    let e := GrvEntry.ofBytes h.entry
    refuse (s.entryOf h.mkey).isSome (coded St.badParam Dt.keyExists 0)
    <|> refuse (e.pinnedFlag && decide (65536 ≤ s.pinnedCount)) (coded St.badParam Dt.pinLimit 0)
  busy h s := refuse (!(GrvEntry.ofBytes h.entry).pinnedFlag && decide (s.grvSt ≠ grvServing)) (notServing s)
  act h s :=
    let x := { GrvEntry.ofBytes h.entry with version := 0 }
    if x.pinnedFlag then
      let s' := match s.copseNow x.mkey with | some (i, _) => s.setWay i none | none => s
      match s'.placeWay (mkWay s .pinned x none) with
      | some t => .done (Reply.ok []) t
      | none => .done (coded St.badParam Dt.pinConflict 0) s
    else match s.groveWrite x with
      | (t, true) => .done (Reply.ok []) t
      | (t, false) => .done tableFull t

/-- CMD_GROVE_INSERT. -/
def execCmdGroveInsert (sl : Slot) (s : State) : Res := runCmd specGroveInsert sl s

/-- The entry after an update (R175, R242). -/
def updatedEntry (o n : GrvEntry) (reset : Bool) : GrvEntry :=
  let fl := putBits (putBits o.flags 3 2 (bitsOf n.flags 3 2)) 6 3 (bitsOf n.flags 6 3)
  let x := { o with action := n.action, tc := n.tc, keySlot := n.keySlot, egress := n.egress, counter := n.counter, flags := fl,
                    version := (o.version + 1) % 65536 }
  if reset then x.withState n else x

def specGroveUpdate : CmdSpec where
  opc := 0x0602
  dom := State.grvDom
  need := needs Role.operator
  len h := lenFixed [(0, 64), (64, 2), (66, 2)] h.len
  pre h := refuse (GrvEntry.ofBytes h.entry).static (badField 0x1A) <|> refuse (decide (2 ≤ h.u 66 2)) (badField 66)
  check h s :=
    s.keyPoison h.mkey <|> match s.entryOf h.mkey with
    | none => some keyAbsent
    | some o =>
      refuse o.static staticHeld
      <|> (entryRule h.entry o.pinnedFlag).map badField
      <|> refuse (decide (o.version ≠ h.u 64 2)) (coded St.badParam Dt.versionStale o.version)
  busy h s := refuse ((s.pinnedWay h.mkey).isNone && decide (s.grvSt ≠ grvServing)) (notServing s)
  refused h _ s := s.seeKey h.mkey
  act h s :=
    match s.entryOf h.mkey with
    | none => .done keyAbsent s
    | some o =>
      let x := updatedEntry o (GrvEntry.ofBytes h.entry) (h.u 66 2 = 1)
      let ok := Reply.ok (toLe 2 x.version)
      match s.heldWay h.mkey with
      | some (i, w) =>
        if w.st = .pinned then .done ok (s.writeWay i { w with entry := x })
        else .done ok ((s.doIf w.line.isSome (fun s => s.writeLine s.region (w.line.getD 0) x)).writeWay i { w with entry := x, st := .clean })
      | none =>
        let s := s.seeLines h.mkey
        match s.findLine s.region h.mkey with
        | none => .done keyAbsent s
        | some (e, _) => let s := s.writeLine s.region e x; .done ok (s.keepWay (mkWay s .clean x (some e))).1

/-- CMD_GROVE_UPDATE. -/
def execCmdGroveUpdate (sl : Slot) (s : State) : Res := runCmd specGroveUpdate sl s

/-- The three steps of a delete (R176): the NEGATIVE entry, the Grove line, and the hold until the outstanding fills have
ended. -/
def State.deleteKey (s : State) (key : List Byte) : State :=
  let s := ((s.seeLines key).deleteNeg key).clearLine key
  match s.copseNow key with
  | some (i, w) => s.doIf (w.st = .negative && w.ttl = 0 && w.hold = []) (·.setWay i none)
  | none => s

def specGroveDelete : CmdSpec where
  opc := 0x0603
  dom := State.grvDom
  need := needs Role.operator
  len h := lenFixed [(0, 24)] h.len
  check h s :=
    match s.entryOf h.mkey with
    | none => s.keyPoison h.mkey <|> some keyAbsent
    | some o => refuse o.static staticHeld
  busy h s := refuse ((s.pinnedWay h.mkey).isNone && decide (s.grvSt ≠ grvServing)) (notServing s)
  refused h _ s := s.seeKey h.mkey
  act h s := .done (Reply.ok []) (s.deleteKey h.mkey)

/-- CMD_GROVE_DELETE. -/
def execCmdGroveDelete (sl : Slot) (s : State) : Res := runCmd specGroveDelete sl s

def specGrovePin : CmdSpec where
  opc := 0x0604
  dom := State.grvDom
  need := needs Role.operator
  len h := lenFixed [(0, 24)] h.len
  check h s :=
    s.keyPoison h.mkey <|> if (s.entryOf h.mkey).isNone then some keyAbsent
    else refuse (s.pinnedWay h.mkey).isSome keyAbsent
      <|> refuse (decide (65536 ≤ s.pinnedCount)) (coded St.badParam Dt.pinLimit 0)
  busy _ s := refuse (decide (s.grvSt ≠ grvServing)) (notServing s)
  refused h _ s := s.seeKey h.mkey
  act h s :=
    match s.entryOf h.mkey with
    | none => .done keyAbsent s
    | some o =>
      let x := o.setFl 1 true
      let s := s.seeLines h.mkey
      let s' := match s.copseNow h.mkey with | some (i, _) => s.setWay i none | none => s
      match s'.placeWay (mkWay s .pinned x none) with
      | some t => .done (Reply.ok []) (t.clearLine h.mkey)
      | none => .done (coded St.badParam Dt.pinConflict 0) s

/-- CMD_GROVE_PIN. -/
def execCmdGrovePin (sl : Slot) (s : State) : Res := runCmd specGrovePin sl s

def specGroveUnpin : CmdSpec where
  opc := 0x0605
  dom := State.grvDom
  need := needs Role.operator
  len h := lenFixed [(0, 24)] h.len
  check h s :=
    s.keyPoison h.mkey <|> match s.pinnedWay h.mkey with
    | none => some keyAbsent
    | some (_, w) => refuse w.entry.static staticHeld <|> refuse (decide (w.entry.tc % 8 = 7)) (coded St.badParam Dt.none 0)
  busy _ s := refuse (decide (s.grvSt ≠ grvServing)) (notServing s)
  act h s :=
    match s.pinnedWay h.mkey with
    | none => .done keyAbsent s
    | some (_, w) =>
      match s.groveWrite (w.entry.setFl 1 false) with
      | (t, true) => .done (Reply.ok []) t
      | (t, false) => .done tableFull t

/-- CMD_GROVE_UNPIN. -/
def execCmdGroveUnpin (sl : Slot) (s : State) : Res := runCmd specGroveUnpin sl s

def specGroveLookup : CmdSpec where
  opc := 0x0606
  dom := State.grvDom
  need := needs Role.auditor
  sync := true
  len h := lenFixed [(0, 24)] h.len
  check h s := s.keyPoison h.mkey
  refused h _ s := s.seeKey h.mkey
  act h s :=
    match s.entryOf h.mkey with
    | none => .done (Reply.ok (List.replicate 65 0)) (s.seeKey h.mkey)
    | some e => .done (Reply.ok (e.toBytes ++ toLe 1 (if e.static then 3 else if e.pinnedFlag then 2 else 1))) (s.seeKey h.mkey)

/-- CMD_GROVE_LOOKUP. -/
def execCmdGroveLookup (sl : Slot) (s : State) : Res := runCmd specGroveLookup sl s

/-- The 32 bytes of a stream counter set (R73). -/
def State.counterSet (s : State) (n : Nat) : List Byte :=
  [0, 8, 0x10, 0x18].flatMap (fun o => toLe 8 (s.ctr (scKey n o)))

def specGroveCounterRead : CmdSpec where
  opc := 0x0607
  dom := State.grvDom
  need := needs Role.auditor
  len h := lenFixed [(0, 2), (2, 2), (4, 8)] h.len
  bufs := [(4, true)]
  pre h :=
    refuse (h.u 2 2 = 0 || decide (32768 < h.u 0 2 + h.u 2 2)) (badField 2) <|> h.short 4 (32 * h.u 2 2)
  act h s :=
    let b := (rangeFrom (h.u 0 2) (h.u 2 2)).flatMap s.counterSet
    .done (Reply.ok (toLe 4 b.length)) (s.putBuf h 4 b)

/-- CMD_GROVE_COUNTER_READ. -/
def execCmdGroveCounterRead (sl : Slot) (s : State) : Res := runCmd specGroveCounterRead sl s

def specGroveLineClear : CmdSpec where
  opc := 0x0608
  dom := State.grvDom
  need := needs Role.operator
  len h := lenFixed [(0, 4)] h.len
  check h s := refuse (decide (2 ^ 24 ≤ h.u 0 4) || (s.groveWalks && decide (4 * 2 ^ s.kInForce ≤ h.u 0 4))) (badField 0)
  busy _ s := refuse (decide (s.grvSt ≠ grvServing)) (notServing s)
  act h s :=
    let e := h.u 0 4
    let s := s.mapWays (fun w => if (w.st = .clean || w.st = .dirty) && w.line = some e then none else some w)
    .done (Reply.ok []) (s.wipeLine s.region e)

/-- CMD_GROVE_LINE_CLEAR. -/
def execCmdGroveLineClear (sl : Slot) (s : State) : Res := runCmd specGroveLineClear sl s

def specGroveMemAdd : CmdSpec where
  opc := 0x0609
  dom := State.cxlDom
  need := needs Role.integrator
  len h := lenFixed [(0, 1)] h.len
  pre h := refuse (decide (2 ≤ h.u 0 1)) (badField 0)
  check h s := refuse (!(s.link (h.u 0 1)).awaiting) (badState (h.u 0 1))
  act h s :=
    let l := s.link (h.u 0 1)
    .done (Reply.ok (toLe 4 l.cap)) (s.setLink (h.u 0 1) { l with awaiting := false, mapped := true })

/-- CMD_GROVE_MEM_ADD. -/
def execCmdGroveMemAdd (sl : Slot) (s : State) : Res := runCmd specGroveMemAdd sl s

/-- The first link that a rebuild lacks: a configured one not trained and mapped, or link 0 where no memory is mapped. -/
def State.linkLacks (s : State) : Option Nat :=
  (s.configured.find? (fun j => !((s.link j).trained && (s.link j).mapped))).or
    (if s.cxlSize < 4 * 2 ^ 30 then some 0 else none)

def specGroveRebuild : CmdSpec where
  opc := 0x060A
  dom := State.cxlDom
  need := needs Role.integrator
  len h := lenFixed [] h.len
  busy _ s :=
    refuse (decide (s.grvSt ≠ grvLost) && decide (s.grvSt ≠ grvAbsent) || !s.fb F.GRV_CTL_EN) (busyState s.grvSt)
    <|> s.linkLacks.map (fun j => busyState (0x100 + j))
  act _ s := .done (Reply.ok []) s.startBuild

/-- CMD_GROVE_REBUILD. -/
def execCmdGroveRebuild (sl : Slot) (s : State) : Res := runCmd specGroveRebuild sl s

end Sys2Proof.Machine
end

