-- ==== Sys2Proof/Machine/PortRows.lean ====
section
/-! DEFINITION. The commands of ports, extenders, time, device status and echo, and a slot with an undefined opcode (R36, R208,
R229, R238, R241, R247). -/

namespace Sys2Proof.Machine

/-! ### Undefined slots (R229) -/

/-- The opcodes that the family tables define: by family, the number of actions from 0x01 up. -/
def familySize : List Nat := [0, 7, 5, 10, 5, 3, 10, 2, 5, 2, 6, 8, 6, 6, 6, 3]
def opcodeDefined (opc : Nat) : Bool := opc % 256 ≠ 0 && decide (opc % 256 ≤ familySize.getD (opc / 256) 0)

/-- CMD_UNDEFINED: a slot whose VER or opcode is not defined is taken and refused with BAD_OPCODE. A slot with VER 1 and
a defined opcode is the concern of its own row. -/
def execCmdUndefined (sl : Slot) (opc : BitVec 16) (s : State) : Res :=
  let r := sl.ring.val
  if !s.turn r || (sl.ver = 1 && opcodeDefined opc.toNat) then .next s
  else if sl.own ≠ 1 then .next { s with cul := { s.cul with stalled := r :: s.cul.stalled } }
  else
    let h := slotHeld sl opc.toNat (s.f (F.CUL_CRING_IDX_HEAD r) % s.cringSize r)
    let s := s.takeSlot r
    .next (s.putReply h (if sl.ver = 1 then ⟨St.badOpcode, 0, []⟩ else coded St.badOpcode Dt.version sl.ver.toNat) s.gacNow)

/-! ### Device status and echo -/

def specDevStatus : CmdSpec where
  opc := 0x0107
  need := needs Role.auditor
  sync := true
  len h := lenFixed [] h.len
  act _ s :=
    let one := fun (d : Nat) => (match s.domTrans d with | some t => t.src | none => s.domSt d) * 4 ^ d
    let doms := ((List.range 25).map one).foldl (· + ·) 0
    let open_ := (s.cul.sessions.filter (fun e => e.2.isSome)).length
    .done (Reply.ok (packR [(8, doms), (1, s.level), (1, s.coresIn.length), (1, open_)] [])) s

/-- CMD_DEV_STATUS: a domain in transition shows the state it leaves. -/
def execCmdDevStatus (sl : Slot) (s : State) : Res := runCmd specDevStatus sl s

def specDiagEcho : CmdSpec where
  opc := 0x0F01
  need := needs Role.auditor
  sync := true
  len h := if 104 < h.len then some 104 else none
  act h s := .done (Reply.ok (h.params.take h.len)) s

/-- CMD_DIAG_ECHO. -/
def execCmdDiagEcho (sl : Slot) (s : State) : Res := runCmd specDiagEcho sl s

/-! ### Ports and extenders (Table CMD-8) -/

def specPortStatus : CmdSpec where
  opc := 0x0401
  need := needs Role.auditor
  sync := true
  len h := lenFixed [(0, 2)] h.len
  pre h := refuse (decide (1024 ≤ h.u 0 2)) (badField 0)
  act h s :=
    let p := h.u 0 2
    let ws := [s.extPortId p, s.rd (R.LNE_LANE_STS (s.portLane p)), s.rd (s.secyOf p), s.portCells p,
               s.rd (R.SLU_TX_STATE p), s.rd (R.SLU_TX_LEFT p)]
    .done (Reply.ok (ws.flatMap (fun w => toLe 4 w.toNat))) s

/-- CMD_PORT_STATUS. -/
def execCmdPortStatus (sl : Slot) (s : State) : Res := runCmd specPortStatus sl s

/-- The counters of a block of a port: first offset and number of 64-bit pairs (Tables FPA-11, SLU-13, FPX-12, LNE-16). -/
def counterBlock (b : Nat) : Nat × Nat := [(0x300, 22), (0x400, 9), (0x500, 19), (0x610, 2)].getD b (0, 0)

/-- The counters of a block as bytes. -/
def State.blockBytes (s : State) (p b : Nat) : List Byte :=
  let (o, n) := counterBlock b
  (List.range n).flatMap (fun i => toLe 8 (s.ctr (0x200000 + p * 0x800 + o + 8 * i)))

def specPortCounters : CmdSpec where
  opc := 0x0402
  need := needs Role.auditor
  len h := lenFixed [(0, 2), (2, 1), (4, 8)] h.len
  bufs := [(4, true)]
  pre h :=
    refuse (decide (1024 ≤ h.u 0 2)) (badField 0) <|> refuse (decide (4 ≤ h.u 2 1)) (badField 2)
    <|> h.short 4 (8 * (counterBlock (h.u 2 1)).2)
  act h s :=
    let b := s.blockBytes (h.u 0 2) (h.u 2 1)
    .done (Reply.ok (toLe 4 b.length)) (s.putBuf h 4 b)

/-- CMD_PORT_COUNTERS. -/
def execCmdPortCounters (sl : Slot) (s : State) : Res := runCmd specPortCounters sl s

def specPortExtStatus : CmdSpec where
  opc := 0x0403
  need := needs Role.auditor
  sync := true
  len h := lenFixed [(0, 1)] h.len
  pre h := refuse (decide (32 ≤ h.u 0 1)) (badField 0)
  act h s :=
    let k := h.u 0 1
    let mine := s.ctxsOf k [ctxAssigned, ctxHeld]
    let first := (mine.min?).getD 0
    .done (Reply.ok (toLe 4 (s.extLaneSts k).toNat ++ toLe 4 (s.rd (R.EXT_LANE_FAIL k)).toNat ++ fitB 32 (s.xt k).ident
      ++ toLe 2 first ++ toLe 1 mine.length)) s

/-- CMD_PORT_EXT_STATUS. -/
def execCmdPortExtStatus (sl : Slot) (s : State) : Res := runCmd specPortExtStatus sl s

def specPortExtFree : CmdSpec where
  opc := 0x0404
  need := needs Role.operator
  len h := lenFixed [(0, 2), (2, 2)] h.len
  pre h := refuse (decide (h.u 0 2 < 32) || decide (1024 ≤ h.u 0 2)) (badField 0) <|> refuse (decide (1024 < h.u 0 2 + h.u 2 2)) (badField 2)
  check h s := ((rangeFrom (h.u 0 2) (h.u 2 2)).find? (fun p => (s.ctx p).st ≠ ctxQuarantined)).map badState
  act h s := .done (Reply.ok []) (s.forEach (rangeFrom (h.u 0 2) (h.u 2 2)) (fun s p => s.setCtx p Ctx.free))

/-- CMD_PORT_EXT_FREE. -/
def execCmdPortExtFree (sl : Slot) (s : State) : Res := runCmd specPortExtFree sl s

def specPortExtRelease : CmdSpec where
  opc := 0x0405
  need := needs Role.operator
  len h := lenFixed [(0, 1)] h.len
  pre h := refuse (decide (32 ≤ h.u 0 1)) (badField 0)
  check h s := refuse (decide ((s.xt (h.u 0 1)).st ≠ xLost)) (badState (h.u 0 1))
  act h s :=
    let k := h.u 0 1
    let held := s.ctxsOf k [ctxHeld]
    let s := (s.forEach held (fun s p => s.setCtx p { s.ctx p with st := ctxQuarantined })).extFlag 4 k 0xFFFF
    .done (Reply.ok (toLe 1 held.length)) (s.setXt k { s.xt k with hold := 0, st := xNone, reused := [] })

/-- CMD_PORT_EXT_RELEASE. -/
def execCmdPortExtRelease (sl : Slot) (s : State) : Res := runCmd specPortExtRelease sl s

/-! ### Time (Table CMD-8, R36, R37) -/

def specGacStatus : CmdSpec where
  opc := 0x0501
  need := needs Role.auditor
  sync := true
  len h := lenFixed [] h.len
  act _ s :=
    let w := fun (a : Nat) => (4, (s.rd a).toNat)
    let d := fun (a : Nat) => (8, s.rd64 a)
    .done (Reply.ok (packR [w R.GAC_STATUS, w R.GAC_FREQ, w R.GAC_PHERR_RMS, w R.GAC_PTP_STATUS, (8, s.gacNow.toNat),
      d R.GAC_ZERO_CYC_LO, w R.GAC_PTP_OFS, w R.GAC_ZERO_NS, d R.GAC_ZERO_SEC_LO] [])) s

/-- CMD_GAC_STATUS. -/
def execCmdGacStatus (sl : Slot) (s : State) : Res := runCmd specGacStatus sl s

/-- The first reserved field of an estimate that is not 0 (Table GAC-1). -/
def phasorReserved (h : Held) : Option Nat :=
  if 2 ^ 48 ≤ h.u 0 8 then some 0 else if 2 ^ 24 ≤ h.u 0xC 4 then some 0xC
  else (rangeFrom 0x19 7).find? (fun o => h.u o 1 ≠ 0) |>.map (fun _ => 0x19)

/-- TAI of an estimate in ns. -/
def phasorNs (h : Held) : Int := ((h.u 0 8 * 10 ^ 9 + h.u 8 4 : Nat) : Int)

/-- The instant lies no more than 1 s in the past and 1 ms in the future. -/
def State.phasorInTime (s : State) (h : Held) : Bool :=
  let d := phasorNs h - s.taiNs
  decide (-(10 ^ 9 : Int) ≤ d) && decide (d ≤ 10 ^ 6)

/-- An accepted estimate: the cycle's phase error, and validity from the eighth cycle in a row on (R36). -/
def State.phasorTake (s : State) (h : Held) : State :=
  let e := signedAngle ((s.angleAtTai (phasorNs h) : Int) - h.u 0xC 4)
  let s := { s with gac := { s.gac with phasor := some e, phasorFreq := h.u 0x10 4 } }
  if !s.phasorValid && decide (7 ≤ s.gac.phasorRun) then (s.setF F.GAC_STATUS_PHASOR_VALID 1).phasorUp else s

def specGacPhasor : CmdSpec where
  opc := 0x0502
  need := needs Role.operator
  len h := if h.len < 32 then some ([0x19, 0x18, 0x14, 0x10, 0xC, 8, 0].find? (· ≤ h.len) |>.getD 0) else if 32 < h.len then some 32 else none
  check h s :=
    refuse (!s.ptpLocked) (badState 0)
    <|> (phasorReserved h).map badField
    <|> refuse (h.u 0x18 1 ≠ 0) (badField 0x18)
    <|> refuse (decide (h.u 0x10 4 < 40000000) || decide (70000000 < h.u 0x10 4)) (badField 0x10)
    <|> refuse (decide (10 ^ 9 ≤ h.u 8 4)) (badField 8)
    <|> refuse (!s.phasorInTime h) (badField 0)
  refused _ _ s := s.gacFlag 5
  act h s := .done (Reply.ok []) (s.phasorTake h)

/-- CMD_GAC_PHASOR. -/
def execCmdGacPhasor (sl : Slot) (s : State) : Res := runCmd specGacPhasor sl s

def specGacTaiSet : CmdSpec where
  opc := 0x0503
  need := needs Role.operator
  len h := lenFixed [(0, 8)] h.len
  pre h := refuse (decide (2 ^ 48 ≤ h.u 0 8)) (badField 0)
  check _ s := refuse (!s.fb F.GAC_PPS_CTL_PPS_IN_EN) (badState 0)
  act h s := .done (Reply.ok []) { s with gac := { s.gac with taiSet := some (h.u 0 8) } }

/-- CMD_GAC_TAI_SET. -/
def execCmdGacTaiSet (sl : Slot) (s : State) : Res := runCmd specGacTaiSet sl s

end Sys2Proof.Machine
end

