-- ==== Sys2Proof/Machine/RollOps.lean ====
section
/-! DEFINITION. Planned rollovers: their acceptance, the command, and the withholding of TWIN (R114, R285). -/

namespace Sys2Proof.Machine

/-- What refuses a rollover (R114): an exhausted or zeroized slot has its own status. -/
def State.rollCheck (s : State) (old new n : Nat) : Option Reply :=
  slotDead s old <|> slotDead s new
  <|> slotIn s old [Ks.active] <|> slotIn s new [Ks.loaded]
  <|> refuse (s.ks old).rollPend (badState old) <|> refuse (s.ks new).rollPend (badState new)
  <|> refuse (decide (n < s.cycle + 2)) (coded St.badParam Dt.cycle 0)

/-- The rollover is accepted: the successor link and ROLL_PEND on both slots. -/
def State.rollTake (s : State) (old new n grace : Nat) (fold : Bool) : State :=
  let s := s.setKs old { s.ks old with succ := some new, rollPend := true, roll := n, fold := fold }
  let s := s.setKs new { s.ks new with rollPend := true, roll := n, fold := fold }
  { s with keys := { s.keys with rolls := s.keys.rolls ++ [{ old := old, new := new, cycle := n, grace := grace, fold := fold, switched := false }] } }

/-- GRACE and FLAGS of Table FPX-6. -/
def rollForm (h : Held) : Option Reply :=
  badSlot h 0 <|> badSlot h 2
  <|> refuse (h.u 4 1 = 0 || (bitAt (h.u 5 1) 1 && h.u 4 1 = 1)) (badField 4)
  <|> refuse (decide (3 < h.u 5 1)) (badField 5)
  <|> refuse (h.u 6 2 ≠ 0) (badField 6)
  <|> refuse (decide (2 ^ 40 ≤ h.u 8 8)) (badField 8)

/-- The READY of a rollover: SHA-384 of the KEY_SLOT_ID of NEW_SLOT (R285). -/
def State.rollReady (s : State) (h : Held) : Ready := ⟨0x0304, h.u 8 8, sha384 (toBe 4 (s.ks (h.u 2 2)).id)⟩

/-- The rollover of a command, made once the command proceeds: the checks are those of its acceptance. -/
def State.rollDo (s : State) (h : Held) : Reply × State :=
  match s.rollCheck (h.u 0 2) (h.u 2 2) (h.u 8 8) with
  | some r => (r, s)
  | none => (.ok [], s.rollTake (h.u 0 2) (h.u 2 2) (h.u 8 8) (h.u 4 1) (bitAt (h.u 5 1) 0))

def specKeyRollover : CmdSpec where
  opc := 0x0304
  dom := fun _ => some dKeys
  need := officer
  own := true
  twin := true
  len := fun h => lenFixed [(0, 2), (2, 2), (4, 1), (5, 1), (6, 2), (8, 8)] h.len
  pre := rollForm
  check := fun h s => s.rollCheck (h.u 0 2) (h.u 2 2) (h.u 8 8)
  objs := fun h => [.slot (h.u 0 2), .slot (h.u 2 2)]
  busy := fun h s => refuse (bitAt h.flags 3 && s.twinRefuse) (coded St.peerMismatch Dt.none 0)
  act := fun h s =>
    let r := s.rollReady h
    if bitAt h.flags 3 then
      let s := s.sendReady r
      if s.twinMatched r && s.twinInTime r.cycle then
        let (rep, s) := (s.twinTake r).rollDo h
        .done rep s
      else .later (.twin r.cycle) s
    else
      let (rep, s) := s.rollDo h
      .done rep s

/-- CMD_KEY_ROLLOVER. -/
def execCmdKeyRollover (sl : Slot) (s : State) : Res := runCmd specKeyRollover sl s

end Sys2Proof.Machine
end

