-- ==== Sys2Proof/Machine/ExtRows.lean ====
section
/-! DEFINITION. The enrolment handshake as extenders and twins run it, the assignment of contexts, and key agreement
(R98 to R101, R134 to R140, R277, R278, R286). -/

namespace Sys2Proof.Machine

/-! ### Messages (R134, R135, R278) -/

/-- The header of a message (Table LNE-6); the twin link uses SUBTYPE 0x03. -/
def hsHead (twin : Bool) (msg session : Nat) : List Byte := [if twin then 3 else 1, 1, BitVec.ofNat 8 msg, 0] ++ toBe 4 session

def hsSession (p : List Byte) : Nat := beAt p 4 4

/-- A payload is the message `msg` of its handshake. -/
def hsIs (twin : Bool) (msg : Nat) (p : List Byte) : Bool :=
  decide (8 ≤ p.length) && byteAt p 0 = (if twin then 3 else 1) && (byteAt p 2).toNat = msg

/-- The key material (R135): 80 bytes over SESSION, LANE and both nonces. -/
def hsKm (twin : Bool) (z : List Byte) (session lane : Nat) (nd ne : List Byte) : List Byte :=
  kdf z (ascii (if twin then "PW1024 TWIN LINK" else "PW1024 EXT ENROL") ++ [0] ++ toBe 4 session ++ toBe 1 lane ++ nd ++ ne) 80

/-- CONF_D (0x44) and CONF_E (0x45), over SHA-256 of the transcript through SIG_D. -/
def hsConf (km : List Byte) (b : Byte) (script : List Byte) : List Byte := (hmac256 (sliceB km 48 32) (b :: sha256 script)).take 16

/-- The frame that carries an enrolment message on a lane: reserved group address, EtherType 0x88B5, and the payload,
padded to the least length of a frame (R134). -/
def hsFrame (k : Nat) (p : List Byte) : List Byte :=
  let b := toBe 6 0x0180C200000E ++ toBe 6 (Config.portMac k).toNat ++ toBe 2 0x88B5 ++ p
  fitB (max 60 b.length) b

/-- Send an enrolment message on a lane; lane 32 stands for the twin link. -/
def State.hsSend (s : State) (link : Nat) (p : List Byte) : State :=
  if link < 32 then s.emit (.frame link (hsFrame link p) false) else s.emit (.twin p)

def State.hsReject (s : State) (twin : Bool) (link session cause : Nat) : State :=
  s.hsSend link (hsHead twin 0xF session ++ toBe 2 cause)

/-! ### The extender side (R136 to R140, Table LNE-11) -/

/-- The extender enrolment key (Table KEY-1). -/
def State.enrolKey (s : State) : Option (List Byte) := s.rootScalar 1 "PW1024 EXT ENROL KEY"

/-- The back-off of an extender ends: OFFER (Table LNE-11). -/
def State.sendOffer (s : State) (k : Nat) (key : List Byte) : State :=
  let (r, s) := s.drawBytes 84
  let e := scalarOf 1 (r.drop 36)
  let n := sliceB r 4 32
  let ses := beAt r 0 4
  let p := hsHead false 1 ses ++ toBe 1 k ++ [0, 0, 0] ++ n ++ pubOf 1 e ++ pubOf 1 key
  let x := s.xt k
  (s.hsSend k p).setXt k { x with st := xEnrolling, session := ses, nonce := n, eph := e, offer := p, accept := [], confirm := [], sends := 1 }

/-- EXT_BACKOFF_END: no OFFER can be formed without the root secret or without random bits. -/
def execExtBackoffEnd (lane : Fin 32) (s : State) : Res :=
  let k := lane.val
  if (s.xt k).st ≠ xAnnounced || !s.laneUp k || s.rngDown || (s.service ≠ 2 && s.boot.full) then .next s
  else match s.enrolKey with
    | none => .next s
    | some key => .next (s.sendOffer k key)

/-- A handshake fails with a cause (Table LNE-11). -/
def State.hsFail (s : State) (k cause : Nat) : State :=
  let x := s.xt k
  let s := (s.addF (F.EXT_LANE_FAIL_FAILS k) 1).setF (F.EXT_LANE_FAIL_CAUSE k) cause
  let s := s.forEach x.taken (fun s p => s.setCtx p Ctx.free)
  let back := if x.backoff = 0 then 1 else min 64 (2 * x.backoff)
  let st := if s.ctxsOf k [ctxHeld] = [] then xAnnounced else xLost
  (s.setXt k { x.wiped with st := st, backoff := back }).extFlag 0 k 0xFFFF

/-- The E-CIDs of an ACCEPT, where the list is well formed: 1 to 128 of them, ascending, without repeats. -/
def ecidList (p : List Byte) : Option (List Nat) :=
  let n := (byteAt p 170).toNat
  let l := (List.range n).map (fun i => beAt p (172 + 2 * i) 2)
  if n = 0 || decide (128 < n) || byteAt p 171 ≠ 0 || p.length ≠ 172 + 2 * n + 64 then none
  else if l.any (fun e => decide (4095 < e) || e = 0) || !(decide (l.Pairwise (· < ·))) then none
  else some l

/-- The first failing check of an ACCEPT, in the order of R136; none where it is valid. -/
def State.acceptCause (s : State) (k : Nat) (p : List Byte) : Option Nat :=
  let q := sliceB p 40 65
  let id := sliceB p 105 65
  let d := sha256 id
  let x := s.xt k
  if byteAt p 1 ≠ 1 then some 4
  else if p.length < 172 then some 5
  else if !(byteAt q 0 = 4 && pointGood 1 q && byteAt id 0 = 4 && pointGood 1 id) then some 3
  else if !decide (d ∈ s.cfg.active.trust) then some 2
  else if (List.range 32).any (fun j => decide (j ≠ k) && ((s.xt j).st = xActive || (s.xt j).st = xLost) && (s.xt j).ident = d) then some 8
  else match ecidList p with
    | none => some 5
    | some l =>
      let n := 172 + 2 * l.length
      if verifies 1 id (x.offer ++ p.take n) (sliceB p n 64) then none else some 1

/-- The lowest-numbered FREE context. -/
def State.freeCtx (s : State) : Option Nat := (rangeFrom 32 992).find? (fun p => (s.ctx p).st = ctxFree)

/-- One E-CID takes its reused context, or a FREE one (R139). -/
def State.assignOne (k : Nat) (ident : List Byte) (a : State × List Nat × List Nat × List Nat) (e : Nat) :
    State × List Nat × List Nat × List Nat :=
  let (s, ports, taken, reused) := a
  match (s.ctxsOf k [ctxHeld]).find? (fun p => (s.ctx p).ecid = e && decide (p ∉ taken)) with
  | some p => (s, ports ++ [p], taken, reused ++ [p])
  | none =>
    match s.freeCtx with
    | some p => (s.setCtx p { st := ctxHeld, lane := k, ecid := e, ident := ident }, ports ++ [p], taken ++ [p], reused)
    | none => (s.extFlag 5 k 0xFFFF, ports ++ [0xFFFF], taken, reused)

/-- The contexts for a valid ACCEPT (R139): a held context of another identity, or one whose E-CID the list omits, is
quarantined first. -/
def State.assign (s : State) (k : Nat) (ident : List Byte) (l : List Nat) : State × List Nat × List Nat × List Nat :=
  let gone := (s.ctxsOf k [ctxHeld]).filter (fun p => (s.ctx p).ident ≠ ident || !decide ((s.ctx p).ecid ∈ l))
  let s := s.forEach gone (fun s p => s.setCtx p { s.ctx p with st := ctxQuarantined })
  l.foldl (State.assignOne k ident) (s, [], [], [])

/-- A valid ACCEPT: contexts, and CONFIRM. -/
def State.sendConfirm (s : State) (k : Nat) (p : List Byte) (l : List Nat) (key : List Byte) : State :=
  let ident := sha256 (sliceB p 105 65)
  let (s, ports, taken, reused) := s.assign k ident l
  let x := s.xt k
  let acc := p.take (172 + 2 * l.length)
  let con := hsHead false 3 x.session ++ toBe 1 ports.length ++ [0] ++ ports.flatMap (toBe 2) ++ toBe 2 s.extHold
  let (sig, s) := s.sign 1 key (x.offer ++ acc ++ con)
  let km := hsKm false (shared 0x10 x.eph (sliceB p 40 65)) x.session k x.nonce (sliceB p 8 32)
  let msg := con ++ sig ++ hsConf km 0x44 (x.offer ++ acc ++ con ++ sig)
  let s := s.setF (F.EXT_LANE_ID_ID k) (beNat (ident.take 4))
  (s.hsSend k msg).setXt k { x with accept := acc, confirm := msg, sends := 1, ident := ident, taken := taken, reused := reused, km := km }

def State.extAccept (s : State) (k : Nat) (p : List Byte) : State :=
  let x := s.xt k
  if x.st ≠ xEnrolling || x.confirm ≠ [] || hsSession p ≠ x.session then s
  else match s.acceptCause k p, ecidList p, s.enrolKey with
    | none, some l, some key => s.sendConfirm k p l key
    | some c, _, _ => (s.hsReject false k x.session c).hsFail k c
    -- the root secret is gone: the device cannot sign, and the handshake is left unanswered
    | none, _, _ => s

/-- A slot for a CAK (R137): the one that held the last, or the lowest EMPTY one. -/
def State.cakPlace (s : State) (was : Option Nat) : Option Nat :=
  match was with
  | some i => some i
  | none => (List.range 32768).find? (fun i => (s.ks i).state = Ks.empty)

/-- A valid DONE: the CAK is installed and MKA starts (R137). -/
def State.extDone (s : State) (k : Nat) (p : List Byte) : State :=
  let x := s.xt k
  if x.st ≠ xEnrolling || x.confirm = [] || hsSession p ≠ x.session then s
  else
    let script := x.offer ++ x.accept ++ x.confirm.take (x.confirm.length - 16)
    let bad := if byteAt p 1 ≠ 1 then some 4 else if p.length ≠ 24 then some 5 else if p.drop 8 ≠ hsConf x.km 0x45 script then some 6 else none
    match bad with
    | some c => (s.hsReject false k x.session c).hsFail k c
    | none =>
      let cak := x.km.take 32
      let ckn := sliceB x.km 32 16
      let place := s.cakPlace x.cakSlot
      let s := match place with
        | some i =>
          let s := (s.emptySlot i).loadSlot i 9 false cak [] (beNat (ckn.take 4))
          s.setKs i { s.ks i with aeduf := true }
        | none => s
      s.setXt k { x.wiped with st := xSecuring, backoff := 0, cakSlot := place, cak := cak, ckn := ckn, taken := x.taken, reused := x.reused,
                               rxSak := false, txSak := false }

/-- SAKs stand in both directions: the contexts of the lane are bound with their settings (R137, R140). -/
def State.extSecured (s : State) (k : Nat) : State :=
  let x := s.xt k
  if x.st ≠ xSecuring || !x.rxSak || !x.txSak then s
  else
    let ps := s.ctxsOf k [ctxHeld]
    let s := s.forEach ps (fun s p => (s.setCtx p { s.ctx p with st := ctxAssigned }).bindPort s.cfg.active p)
    (s.setXt k { x.wiped with st := xActive, hold := 0 }).extFlag 1 k 0xFFFF

/-! ### The twin side (R278, Table TWN-5) -/

def TwinHs.none_ : TwinHs :=
  { phase := 0, session := 0, eph := [], offer := [], accept := [], confirm := [], sends := 0, peerPub := [], km := [] }

def State.ths (s : State) : TwinHs := s.twin.hs
def State.setThs (s : State) (h : TwinHs) : State := { s with twin := { s.twin with hs := h } }
def State.ownDigest (s : State) : List Byte := sha384 s.keys.idPub

def State.twnFlag (s : State) (bit item : Nat) : State := s.raise twnEvt bit item
/-- The peer as a TWIN event names it (Table CUL-14). -/
def State.peerTag (s : State) : Nat := leNat (s.twin.peerDigest.take 4)
def State.twinSt (s : State) : Nat := s.f F.TWN_STATUS_STATE

/-- The handshake begins: the device of the lower identity digest sends OFFER (R278). Before the first handshake the
devices do not know each other's digests, and which side sends is open. -/
def State.twinOffer (s : State) : State :=
  let (v, s) := s.openBelow 2
  let first := if s.twin.peerDigest = [] then v = 0 else decide (beNat s.ownDigest < beNat s.twin.peerDigest)
  let s := { s with twin := { s.twin with cak := [], rxSak := false, txSak := false } }
  if !first || s.rngDown || s.identity.isNone then s.setThs TwinHs.none_
  else
    let (r, s) := s.drawBytes 100
    let e := scalarOf 2 (r.drop 36)
    let p := hsHead true 1 (beAt r 0 4) ++ [0, 0, 0, 0] ++ sliceB r 4 32 ++ pubOf 2 e ++ s.keys.idPub
    (s.hsSend 32 p).setThs { TwinHs.none_ with phase := 1, session := beAt r 0 4, eph := e, offer := p, sends := 1 }

/-- A twin lane has come up: the handshake, unless the link is keyed or a handshake runs (Table TWN-5). -/
def State.twinStart (s : State) : State :=
  if !s.fb F.TWN_CTL_EN || s.fb F.TWN_LINK_STS_KEYED || s.ths.phase ≠ 0 then s
  else
    let s := s.doIf (s.twinSt = twAlone) (fun s => s.setF F.TWN_STATUS_STATE twPairing)
    s.twinOffer

/-- A handshake of the twin link fails: another begins after 1 s (Table TWN-5). -/
def State.twinHsFail (s : State) : State := s.setThs TwinHs.none_

/-- What ends an OFFER, in the order of R136; a device without a credential answers every OFFER with cause 2. -/
def State.twinOfferCause (s : State) (p : List Byte) : Option Nat :=
  let q := sliceB p 44 97
  let id := sliceB p 141 97
  if s.twin.cred.isNone then some 2
  else if byteAt p 1 ≠ 1 then some 4
  else if p.length ≠ 238 then some 5
  else if !(byteAt q 0 = 4 && pointGood 2 q && byteAt id 0 = 4 && pointGood 2 id) then some 3
  else none

/-- An OFFER of the twin link is answered with ACCEPT or REJECT (R278). -/
def State.twinOfferRx (s : State) (p : List Byte) : State :=
  let ses := hsSession p
  let id := sliceB p 141 97
  if s.ths.phase = 2 && s.ths.session = ses then s.hsSend 32 s.ths.accept
  else match s.twinOfferCause p with
    | some c => s.hsReject true 32 ses c
    | none =>
      if beNat s.ownDigest ≤ beNat (sha384 id) then s
      else match s.identity, s.twin.cred with
        | some key, some cred =>
          if s.rngDown then s
          else
            let (r, s) := s.drawBytes 96
            let e := scalarOf 2 (r.drop 32)
            let acc := hsHead true 2 ses ++ r.take 32 ++ pubOf 2 e ++ s.keys.idPub ++ cred
            let (sig, s) := s.sign 2 key (p ++ acc)
            let km := hsKm true (shared 0x11 e (sliceB p 44 97)) ses (byteAt p 8).toNat (sliceB p 12 32) (r.take 32)
            let s := s.doIf (s.twinSt = twAlone) (fun s => s.setF F.TWN_STATUS_STATE twPairing)
            (s.hsSend 32 (acc ++ sig)).setThs
              { TwinHs.none_ with phase := 2, session := ses, eph := e, offer := p, accept := acc ++ sig, sends := 1, peerPub := id, km := km }
        | _, _ => s

/-- The failing check of the peer's ACCEPT: the credential names the same Polder and authority and verifies. -/
def State.twinAcceptCause (s : State) (p : List Byte) : Option Nat :=
  let q := sliceB p 40 97
  let id := sliceB p 137 97
  let c := sliceB p 234 261
  if byteAt p 1 ≠ 1 then some 4
  else if p.length ≠ 591 then some 5
  else if !(byteAt q 0 = 4 && pointGood 2 q && byteAt id 0 = 4 && pointGood 2 id) then some 3
  else if !(match s.twin.cred with
    | some own => credSigned c && credId c = credId own && credAuth c = credAuth own && sliceB c 0xC 48 = sha384 id
    | none => false) then some 2
  else if verifies 2 id (s.ths.offer ++ p.take 495) (sliceB p 495 96) then none else some 1

def State.twinAccept (s : State) (p : List Byte) : State :=
  let h := s.ths
  if h.phase ≠ 1 || hsSession p ≠ h.session then s
  else match s.twinAcceptCause p, s.identity with
    | some c, _ => (s.hsReject true 32 h.session c).twinHsFail
    | none, none => s
    | none, some key =>
      let con := hsHead true 3 h.session
      let script := h.offer ++ p.take 495 ++ con
      let (sig, s) := s.sign 2 key script
      let km := hsKm true (shared 0x11 h.eph (sliceB p 40 97)) h.session (byteAt h.offer 8).toNat (sliceB h.offer 12 32) (sliceB p 8 32)
      let msg := con ++ sig ++ hsConf km 0x44 (script ++ sig)
      (s.hsSend 32 msg).setThs
        { h with phase := 3, accept := p.take 495, confirm := msg, sends := 1, peerPub := sliceB p 137 97, km := km }

/-- The handshake has succeeded: the CAK keys MKA on the link SecY, and the secrets of the handshake are wiped. -/
def State.twinKeyable (s : State) : State :=
  let h := s.ths
  let d := sha384 h.peerPub
  let cred := if h.phase = 3 then sliceB h.accept 234 261 else if d = s.twin.peerDigest then s.twin.peerCred else []
  let s := { s with twin := { s.twin with peerDigest := d, peerPub := h.peerPub, peerCred := cred, cak := h.km.take 32, hs := TwinHs.none_ } }
  s.setF F.TWN_PEER_ID_ID (beNat (d.take 4))

/-- CONFIRM at the device that sent ACCEPT: DONE. -/
def State.twinConfirm (s : State) (p : List Byte) : State :=
  let h := s.ths
  if h.phase ≠ 2 || hsSession p ≠ h.session then s
  else
    let script := h.offer ++ h.accept.take 495 ++ p.take 8
    let sig := sliceB p 8 96
    let bad := if byteAt p 1 ≠ 1 then some 4 else if p.length ≠ 120 then some 5
      else if !verifies 2 h.peerPub script sig then some 1
      else if p.drop 104 ≠ hsConf h.km 0x44 (script ++ sig) then some 6 else none
    match bad with
    | some c => (s.hsReject true 32 h.session c).twinHsFail
    | none => (s.hsSend 32 (hsHead true 4 h.session ++ hsConf h.km 0x45 (script ++ sig))).twinKeyable

/-- DONE at the device that sent CONFIRM. -/
def State.twinDone (s : State) (p : List Byte) : State :=
  let h := s.ths
  if h.phase ≠ 3 || hsSession p ≠ h.session then s
  else
    let script := h.offer ++ h.accept ++ h.confirm.take (h.confirm.length - 16)
    let bad := if byteAt p 1 ≠ 1 then some 4 else if p.length ≠ 24 then some 5 else if p.drop 8 ≠ hsConf h.km 0x45 script then some 6 else none
    match bad with
    | some c => (s.hsReject true 32 h.session c).twinHsFail
    | none => s.twinKeyable

/-! ### The rows of the handshake -/

/-- A message that an UP lane receives may be the first frame of a TS_LOOP turn (R151). -/
def State.heard (s : State) (link : Nat) : State := if link < 32 && s.laneUp link then s.calReceive link else s

/-- OFFER_RX: an extender lane discards it (R136). -/
def execOfferRx (link : Fin 33) (payload : List Byte) (s : State) : Res :=
  let s := s.heard link.val
  if link.val = 32 && s.twinLaneUp && s.fb F.TWN_CTL_EN && hsIs true 1 payload then .next (s.twinOfferRx payload) else .next s

/-- ACCEPT_RX. -/
def execAcceptRx (link : Fin 33) (payload : List Byte) (s : State) : Res :=
  let s := s.heard link.val
  if link.val = 32 then (if s.twinLaneUp && hsIs true 2 payload then .next (s.twinAccept payload) else .next s)
  else if s.laneUp link.val && hsIs false 2 payload then .next (s.extAccept link.val payload) else .next s

/-- CONFIRM_RX: an extender lane discards it (R136). -/
def execConfirmRx (link : Fin 33) (payload : List Byte) (s : State) : Res :=
  let s := s.heard link.val
  if link.val = 32 && s.twinLaneUp && hsIs true 3 payload then .next (s.twinConfirm payload) else .next s

/-- DONE_RX. -/
def execDoneRx (link : Fin 33) (payload : List Byte) (s : State) : Res :=
  let s := s.heard link.val
  if link.val = 32 then (if s.twinLaneUp && hsIs true 4 payload then .next (s.twinDone payload) else .next s)
  else if s.laneUp link.val && hsIs false 4 payload then .next (s.extDone link.val payload) else .next s

/-- REJECT_RX: a REJECT of an unknown SESSION is discarded (R136). -/
def execRejectRx (link : Fin 33) (payload : List Byte) (s : State) : Res :=
  let k := link.val
  let s := s.heard k
  if k = 32 then
    if s.twinLaneUp && hsIs true 0xF payload && s.ths.phase ≠ 0 && hsSession payload = s.ths.session then .next s.twinHsFail else .next s
  else if s.laneUp k && hsIs false 0xF payload && (s.xt k).st = xEnrolling && hsSession payload = (s.xt k).session then
    .next (s.hsFail k (beAt payload 8 2))
  else .next s

/-- HANDSHAKE_RETRY: OFFER and CONFIRM are sent up to five times, 100 ms apart (R136). -/
def execHandshakeRetry (link : Fin 33) (s : State) : Res :=
  let k := link.val
  if k = 32 then
    let h := s.ths
    if !(h.phase = 1 || h.phase = 3) then .next s
    else if 5 ≤ h.sends then .next s.twinHsFail
    else if h.phase = 1 then .next ((s.hsSend 32 h.offer).setThs { h with sends := h.sends + 1 })
    else .next ((s.hsSend 32 h.confirm).setThs { h with sends := h.sends + 1 })
  else
    let x := s.xt k
    if x.st ≠ xEnrolling then .next s
    else if 5 ≤ x.sends then .next (s.hsFail k 7)
    else if x.confirm = [] then .next ((s.hsSend k x.offer).setXt k { x with sends := x.sends + 1 })
    else .next ((s.hsSend k x.confirm).setXt k { x with sends := x.sends + 1 })

/-- TWIN_PAIRING_RETRY: one second after a failed handshake (Table TWN-5). -/
def execTwinPairingRetry (s : State) : Res :=
  if s.twinSt = twPairing && s.twinLaneUp && s.ths.phase = 0 && s.twin.cak = [] then .next s.twinStart else .next s

/-- LANE_UP: qualified, and held so for UP_HOLD; a twin lane starts the handshake (R130, R278). -/
def execLaneUp (lane : Fin 34) (speed : Fin 3) (s : State) : Res :=
  match twinLane lane with
  | some j => if s.tl j = lAlign then .next ((s.setTl j lUp).twinStart) else .next s
  | none => if s.laneSt lane.val = lAlign then .next ((s.laneIsUp lane.val speed.val).calRestart lane.val) else .next s

/-! ### MKA and GDOI (R99, R100, R137) -/

/-- The base of a SecY's registers, where it has registers. -/
def secyBase (y : MkaSecy) : Option Nat :=
  match y with
  | .port p => some (R.FPX_SECY_CTL p.val)
  | .lane k => some (0x61000 + 0x200 * k.val)
  | .twin => none

/-- MKA runs on the SecY: its lane is up, and an extender lane or the twin link holds the CAK of its handshake. -/
def State.mkaLive (s : State) (y : MkaSecy) : Bool :=
  match y with
  | .port p => s.laneUp p.val && !s.isExt p.val
  | .lane k => s.laneUp k.val && s.isExt k.val && ((s.xt k.val).st = xSecuring || (s.xt k.val).st = xActive)
  | .twin => s.twinLaneUp && s.twin.cak ≠ []

/-- A SAK enters an EMPTY slot as through the window and is LOADED (R340, Table FPX-5); a slot that Aeduf holds already
is kept; a ZEROIZED slot takes no binding (R113), and any other refuses the load. -/
def State.sakLoad (s : State) (slot alg : Nat) (key salt : List Byte) (id : Nat) : State × Bool :=
  let k := s.ks slot
  if k.state = Ks.empty then
    let s := s.loadSlot slot alg true (fitB (algBytes alg) key) salt id
    (s.setKs slot { s.ks slot with aeduf := true }, true)
  else if k.aeduf && k.state ≠ Ks.zeroized then (s, true)
  else (s.doIf (k.state ≠ Ks.zeroized) (·.keyFlag 4 slot), false)

/-- A transmit SA other than `an` of the SecY is keyed by the slot: a second one would use its PNs again (R109). -/
def State.txElsewhere (s : State) (b an slot : Nat) : Bool :=
  s.secys.any (fun b' => [0, 1, 2, 3].any (fun a =>
    decide (b' ≠ b ∨ a ≠ an) && saEn (s.rd (txCtl b' a)) && saSlot (s.rd (txCtl b' a)) = slot))

/-- A SAK is bound to an association number of a SecY (R99, Table FPX-10). An SA that the slot keys already keeps its
packet numbers (R109). An SA in use makes its LOADED slot ACTIVE (Table FPX-5). -/
def State.sakBind (s : State) (b an slot : Nat) (rx tx inUse : Bool) (ssciRx ssciTx : Word) : State :=
  let v := BitVec.ofNat 32 (2 ^ 31 + slot)
  let tx := tx && !s.txElsewhere b an slot
  let s := s.doIf (rx && s.rd (rxCtl b an) ≠ v) (fun s =>
    (((s.wr (rxCtl b an) v).wr64 (lpnA b an) 1).wr (rxCtl b an + 0xC) ssciRx).wr64 (hpnA b an) 0)
  let s := s.doIf (tx && s.rd (txCtl b an) ≠ v) (fun s => ((s.wr (txCtl b an) v).wr64 (npnA b an) 1).wr (txCtl b an + 0xC) ssciTx)
  let s := s.doIf (tx && inUse) (fun s => s.wr b (BitVec.ofNat 32 (putBits (s.rd b).toNat 16 2 an)))
  s.doIf ((rx || tx) && inUse && (s.ks slot).state = Ks.loaded) (·.wakeSlot slot)

/-- The entries whose windows the twin link mirrors are sent before the first HELLO (R281). -/
def State.sendMirror (s : State) : State :=
  s.forEach (s.ways.filter (fun e => mirrored e.2)) (fun s e => s.sendReplay e.2.entry)

/-- SAKs stand in both directions on the link SecY: the session is keyed (R277, Table TWN-5). -/
def State.twinKeyed (s : State) : State :=
  if !s.twin.rxSak || !s.twin.txSak || s.fb F.TWN_LINK_STS_KEYED then s
  else
    let c := if s.twinSt = twLead then 1 else if s.twinSt = twFollow then 2 else 0
    let s := { s with twin := { s.twin with claim := c, peerLeads := false, txSeq := 0, rxSeen := [], peer := none, readies := [], time := none, sent := none } }
    let s := (s.setF F.TWN_LINK_STS_KEYED 1).setF F.TWN_STATUS_STATE twPairing
    (s.twnFlag 0 s.peerTag).sendMirror

/-- The directions of a SAK as the extender or the twin link counts them. -/
def State.sakMark (s : State) (y : MkaSecy) (rx tx : Bool) : State :=
  match y with
  | .port _ => s
  | .lane k => (s.setXt k.val { s.xt k.val with rxSak := (s.xt k.val).rxSak || rx, txSak := (s.xt k.val).txSak || tx }).extSecured k.val
  | .twin => ({ s with twin := { s.twin with rxSak := s.twin.rxSak || rx, txSak := s.twin.txSak || tx } }).twinKeyed

/-- A SAK is retired: its associations are disabled and its slot is bound no longer; the slot's state changes only as
Table FPX-5 gives. -/
def State.sakRetire (s : State) (b an : Nat) : State :=
  let slots := ([rxCtl b an, txCtl b an].map s.rd).filterMap (fun v => if saEn v then some (saSlot v) else none)
  let s := (s.wr (rxCtl b an) (s.rd (rxCtl b an) &&& 0x7FFFFFFF)).wr (txCtl b an) (s.rd (txCtl b an) &&& 0x7FFFFFFF)
  s.forEach slots.dedup (fun s i => s.setKs i { s.ks i with aeduf := false })

/-- A rollover that Aeduf issues for an MKA or GDOI schedule is accepted or refused as the command is (R114). -/
def State.rollIssue (s : State) (old new cycle grace : Nat) (fold polder : Bool) : State :=
  if grace < (if polder then 2 else 1) then s
  else match s.rollCheck old new cycle with
    | some _ => s
    | none => s.rollTake old new cycle grace fold

/-- The lane of a SecY; 32 stands for the twin link. -/
def mkaLink (y : MkaSecy) : Nat := match y with | .port p => p.val | .lane k => k.val | .twin => 32

/-- MKA_RX: an EAPOL frame for MKA is consumed. -/
def execMkaRx (secy : MkaSecy) (act : MkaAct) (s : State) : Res :=
  let s := s.heard (mkaLink secy)
  if !s.mkaLive secy then .next s
  else match act with
    | .hello => .next s
    | .retire an => match secyBase secy with | some b => .next (s.sakRetire b an.val) | none => .next s
    | .roll old new grace cycle => .next (s.rollIssue old.toNat new.toNat cycle.toNat grace.toNat false false)
    | .sak an slot key salt id rx tx inUse ssciRx ssciTx =>
      let alg := match secyBase secy with | some b => bitsOf (s.rd b).toNat 28 2 | none => 3
      let (s, ok) := s.sakLoad slot.toNat alg key salt id.toNat
      if !ok then .next s
      else
        let s := match secyBase secy with
          | some b => s.sakBind b an.val slot.toNat rx tx inUse ssciRx ssciTx
          | none => s.doIf ((rx || tx) && (s.ks slot.toNat).state = Ks.loaded) (·.wakeSlot slot.toNat)
        .next (s.sakMark secy rx tx)

/-- MKA_TX_INTERVAL: an MKPDU is sent; the key server may distribute a SAK of its own, which it first installs for
receive (R99). On the link SecY the LEAD is the key server (R286). -/
def execMkaTxInterval (secy : MkaSecy) (gen : Option (Fin 4 × BitVec 15)) (s : State) : Res :=
  if !s.mkaLive secy then .next s
  else
    let link := mkaLink secy
    match gen with
    | none => .next (s.emit (.control link kMka []))
    | some (an, slot) =>
      if s.rngDown || (s.ks slot.toNat).state ≠ Ks.empty || (secy = .twin && s.twinSt = twFollow) then .next (s.emit (.control link kMka []))
      else
        let alg := match secyBase secy with | some b => bitsOf (s.rd b).toNat 28 2 | none => 3
        let (r, s) := s.drawBytes 48
        let (s, _) := s.sakLoad slot.toNat alg r (r.drop 32) (beNat (r.drop 44))
        let s := match secyBase secy with
          | some b => s.sakBind b an.val slot.toNat true false true 0 0
          | none => s.wakeSlot slot.toNat
        .next ((s.sakMark secy true false).emit (.control link kMka [an.val]))

/-- GDOI_MESSAGE_RX: a group key is loaded, activated, or scheduled for a rollover (R100, R114). -/
def execGdoiMessageRx (act : GdoiAct) (s : State) : Res :=
  match act with
  | .load slot long key spi =>
    let i := slot.toNat
    let alg := if long then 5 else 4
    if (s.ks i).state ≠ Ks.empty then .next (s.keyFlag 4 i)
    else
      let s := s.loadSlot i alg true (fitB (algBytes alg) key) [] spi.toNat
      .next (s.setKs i { s.ks i with aeduf := true })
  | .activate slot =>
    let i := slot.toNat
    if (s.ks i).state = Ks.loaded then .next (s.wakeSlot i) else .next s
  | .roll old new grace fold cycle =>
    .next (s.rollIssue old.toNat new.toNat cycle.toNat grace.toNat fold false)

end Sys2Proof.Machine
end

