-- ==== Sys2Proof/Machine/TwnRows.lean ====
section
/-! DEFINITION. Twin messages, roles and takeover, and the commands that both devices of a Twin carry out (R279 to R286). -/

namespace Sys2Proof.Machine

/-! ### What a device tells its twin (Tables TWN-2 and TWN-3, R282) -/

/-- The place of a GAC state in the order of R282, best first. -/
def gacOrder (st : Nat) : Nat := if st = gMains then 0 else if st = gPhasor then 1 else if st = gHoldover then 2 else if st = gNominal then 3 else 4

/-- RANK[4]: the place of the GAC state, CYCLE_SET, the PTP clock class, and 0. -/
def State.rankBytes (s : State) : List Byte :=
  [BitVec.ofNat 8 (gacOrder s.gst), BitVec.ofNat 8 (s.f F.GAC_STATUS_CYCLE_SET), BitVec.ofNat 8 (s.f F.GAC_PTP_STATUS_CLASS), 0]

/-- A rank as a number: the lower, the better. -/
def rankKey (b : List Byte) : Nat := (byteAt b 0).toNat * 65536 + (1 - min 1 (byteAt b 1).toNat) * 256 + (byteAt b 2).toNat

/-- KEY_DIGEST: SHA-384 over STATE, KEY_SLOT_ID, KEY_SLOT_SUCC and the pending rollover cycle of every slot. -/
def State.keyDigest (s : State) : List Byte :=
  sha384 ((List.range 32768).flatMap (fun i =>
    let k := s.ks i
    toBe 1 k.state ++ toBe 4 k.id ++ toBe 4 (s.succWord k) ++ toBe 8 k.roll))

/-- ROLE as HELLO carries it: the role held, or the role claimed while PAIRING. -/
def State.roleByte (s : State) : Nat :=
  if s.twinSt = twLead then 1 else if s.twinSt = twFollow then 2 else if s.twinSt = twPairing then s.twin.claim else 0

/-- TWIN_HELLO_SEND: every eighth of a cycle. -/
def execTwinHelloSend (s : State) : Res :=
  if !s.twinUp then .next s
  else .next (s.twinSend mHello (toBe 1 s.roleByte ++ s.rankBytes ++ toBe 4 (s.rd R.DEV_AEDUF_VER).toNat ++ toBe 1 (s.f F.DEV_VER_STEP)
    ++ toBe 8 (s.rd64 R.CFG_ACTIVE_SEQ_LO) ++ fitB 48 s.cfg.active.digest ++ s.keyDigest ++ s.ownDigest))

/-- A twin message arrives, as its payload and whether its MACsec verification passed: one that fails is discarded and
counted, and so, without a count, are the second copy of a SEQ and a payload of another header (R277 to R279). -/
def State.twinIn (s : State) (msg : Nat) (p : List Byte) (ok : Bool) (g : List Byte → State → State) : State :=
  let seq := beAt p 4 4
  if !s.twinUp then s
  else if !ok then s.addF F.TWN_LINK_STS_BAD 1
  else if seq ∈ s.twin.rxSeen || p.take 3 ≠ (twinPayload msg 0 []).take 3 then s
  else g (p.drop 8) ({ s with twin := { s.twin with rxSeen := seq :: s.twin.rxSeen } }.irqAll 54)

/-! ### Roles (R282 to R284, Table TWN-5) -/

/-- Polder leadership passes to this device, or away from it with the twin role (R286). -/
def State.moveLeader (s : State) (lead : Bool) : State :=
  if lead then
    if s.twin.peerLeads then { s.setF F.TWN_PLD_STATUS_LEADER 1 with twin := { s.twin with peerLeads := false } } else s
  else if s.fb F.TWN_PLD_STATUS_LEADER then { s.setF F.TWN_PLD_STATUS_LEADER 0 with twin := { s.twin with peerLeads := true } } else s

/-- A role is taken; a change of it sets ROLE_CHG and moves the node duties. -/
def State.takeRole (s : State) (lead : Bool) : State :=
  let st := if lead then twLead else twFollow
  let was := if s.twinSt = twPairing then s.twin.claim else s.roleByte
  let s := { s.setF F.TWN_STATUS_STATE st with twin := { s.twin with claim := 0 } }
  s.doIf (was ≠ 0 && was ≠ (if lead then 1 else 2)) (fun s => (s.moveLeader lead).twnFlag 2 s.peerTag)

/-- A takeover ends without effect. -/
def State.dropTakeover (s : State) : State :=
  let hs := (s.waitsFor (fun w => match w with | .twin _ => true | _ => false)).filter (fun h => h.opc = 0x0D02)
  let s := { s.setF F.TWN_STATUS_TAKEOVER_PEND 0 with twin := { s.twin with takeover := none } }
  s.forEach hs (fun s h => s.finishWait h (coded St.peerMismatch Dt.none 0))

/-- Versions disagree: each device runs alone (R283). -/
def State.runAlone (s : State) : State :=
  let first := s.twinSt ≠ twAlone
  let s := ((s.setF F.TWN_STATUS_STATE twAlone).setF F.TWN_STATUS_PEER_REF 0).setF F.TWN_STATUS_AGREE_TIME 0
  s.doIf first (fun s => (s.twnFlag 3 s.peerTag).dropTakeover)

/-- The role of a device that pairs (Table TWN-5): claims first, then the identity digests. -/
def State.pairRole (s : State) (m : Hello) : State :=
  let higher := decide (beNat m.id < beNat s.ownDigest)
  match m.role with
  | 1 => if s.twin.claim = 1 then s.takeRole higher else s.takeRole false
  | 2 => s.takeRole true
  | _ => s.takeRole higher

/-- HELLO_RX. -/
def execHelloRx (payload : List Byte) (ok : Bool) (s : State) : Res :=
  .next (s.twinIn mHello payload ok (fun b s =>
    let first := s.twin.peer.isNone
    let msg := helloOf b
    let ver := msg.ver = (s.rd R.DEV_AEDUF_VER).toNat && msg.step = s.f F.DEV_VER_STEP
    let cfg := msg.cfgSeq = s.rd64 R.CFG_ACTIVE_SEQ_LO && msg.cfgDigest = fitB 48 s.cfg.active.digest
    let was := first || s.fb F.TWN_STATUS_AGREE_CFG
    let s := { s with twin := { s.twin with peer := some msg } }
    let s := ((s.setB F.TWN_STATUS_AGREE_VER ver).setB F.TWN_STATUS_AGREE_CFG cfg).setB F.TWN_STATUS_AGREE_KEY (msg.keyDigest = s.keyDigest)
    if !ver then s.runAlone
    else
      let s := s.doIf (was && !cfg) (fun s => s.twnFlag 4 s.peerTag)
      if s.twinSt = twAlone || s.twinSt = twPairing then s.pairRole msg else s))

/-! ### Time (R282) -/

/-- A difference of counts as a signed 64-bit value. -/
def diff64 (a b : Nat) : Int := (BitVec.ofNat 64 (a + 2 ^ 64 - b % 2 ^ 64)).toInt

/-- The cycle whose angle 0 lies nearest now. -/
def State.nearCycle (s : State) : Nat := if s.angle < 0x800000 then s.cycle else (s.cycle + 1) % 2 ^ 40

/-- The peer's rank is better, or equal and the peer is LEAD: this device follows. -/
def State.follows (s : State) : Bool :=
  match s.twin.peer with
  | some p =>
    let a := rankKey s.rankBytes
    let b := rankKey (toBe 4 p.rank)
    decide (b < a) || (a = b && s.twinSt ≠ twLead)
  | none => false

/-- The GAC values disagree: the role of better rank leads, and the other re-aligns (R282). -/
def State.timeRule (s : State) (cycle : Nat) : State :=
  if !(s.twinSt = twLead || s.twinSt = twFollow) then s
  else if s.follows then
    let d : Int := (cycle : Int) - s.nearCycle
    let s := ((s.doIf (s.twinSt = twLead) (·.takeRole false)).setF F.TWN_STATUS_PEER_REF 1).setF F.GAC_STATUS_CYCLE_SET 1
    let s := { s with twin := { s.twin with close := 0 } }
    if d = 0 then s else { s with gac := { s.gac with step := some d } }
  else s.doIf (s.twinSt = twFollow) (·.takeRole true)

/-- TIME_RX: the two-way offset of R282, in units of 2^-16 ns, and its rule. -/
def execTimeRx (payload : List Byte) (ok : Bool) (s : State) : Res :=
  .next (s.twinIn mTime payload ok (fun b s =>
    let cycle := beAt b 0 8 % 2 ^ 40
    let t1 := beAt b 8 8
    let t2 := beAt b 16 8
    let now := s.tai % 2 ^ 64
    let s := { s with twin := { s.twin with time := some (cycle, t1, t2, now) } }
    match s.twin.sent with
    | none => s
    | some (a1, a2) =>
      if !s.twinVer || a2 = 0 || t2 = 0 then s
      else
        let ofs := (diff64 a2 a1 - diff64 t2 t1) / 2
        let near := decide (-65536000 ≤ ofs) && decide (ofs ≤ 65536000)
        let agree := near && cycle = s.nearCycle
        let s := (s.wr R.TWN_OFS (satInt 32 (ofs / 65536))).setB F.TWN_STATUS_AGREE_TIME agree
        if !agree then s.timeRule cycle
        else s.doIf (s.fb F.TWN_STATUS_PEER_REF) (fun s => { s with twin := { s.twin with close := s.twin.close + 1 } })))

/-- PEER_REF_CLEAR: 16 consecutive cycles within 1 us (R282). -/
def execPeerRefClear (s : State) : Res :=
  if s.fb F.TWN_STATUS_PEER_REF && decide (16 ≤ s.twin.close) then .next (s.setF F.TWN_STATUS_PEER_REF 0) else .next s

/-- What angle 0 does on the twin link: TIME goes out, and cycles with a key difference are counted (Table TWN-3). -/
def State.twinAtZero (s : State) : State :=
  if !s.mirroring then { s with twin := { s.twin with keyDiff := 0 } }
  else
    let t1 := s.tai % 2 ^ 64
    let t2 := match s.twin.time with | some (_, _, _, r) => r | none => 0
    let s := { s with twin := { s.twin with sent := some (t1, t2) } }.twinSend mTime (toBe 8 s.cycle ++ toBe 8 t1 ++ toBe 8 t2)
    let n := if s.fb F.TWN_STATUS_AGREE_KEY then 0 else if s.twin.keyDiff = 3 then 3 else min 2 (s.twin.keyDiff + 1)
    { s with twin := { s.twin with keyDiff := n } }

/-- KEY_DIFF_DETECT: a difference of KEY_DIGEST has lasted two consecutive cycles (Table TWN-3). -/
def execKeyDiffDetect (s : State) : Res :=
  if s.twin.keyDiff = 2 then .next ({ s with twin := { s.twin with keyDiff := 3 } }.twnFlag 5 s.peerTag) else .next s

/-- TWIN_MISMATCH_REPEAT: every 3,000 cycles of disagreement (R283). -/
def execTwinMismatchRepeat (s : State) : Res :=
  if s.twinUp && s.twinSt = twAlone && s.twin.peer.isSome && !s.twinVer then .next (s.twnFlag 3 s.peerTag) else .next s

/-! ### Replay windows (R281) -/

/-- The merge of R281. -/
def replayMerge (e : GrvEntry) (b w : Nat) : GrvEntry :=
  let bb := e.replayBase
  if bb < b then
    { e with replayWin := (if 64 ≤ b - bb then 0 else e.replayWin * 2 ^ (b - bb) % 2 ^ 64) ||| w, replayBase := b }
  else if bb - b < 64 then { e with replayWin := e.replayWin ||| w * 2 ^ (bb - b) % 2 ^ 64 }
  else e

/-- REPLAY_RX: merged into the own entry with the same MATCH, and discarded where there is none, or while the versions
of the two devices disagree (R283). -/
def execReplayRx (payload : List Byte) (ok : Bool) (s : State) : Res :=
  .next (s.twinIn mReplay payload ok (fun b s =>
    if s.twin.peer.isSome && !s.twinVer then s
    else s.forEach (s.ways.filter (fun e => mirrored e.2 && e.2.entry.mtch = sliceB b 0 24)) (fun s e =>
      s.setWay e.1 (some { e.2 with entry := replayMerge e.2.entry (beAt b 24 8) (beAt b 32 8) }))))

/-! ### READY, takeover and peer loss (R285, R286) -/

/-- The READY of a takeover: the device that becomes LEAD. -/
def State.takeoverReady (s : State) (n : Nat) : Ready :=
  ⟨0x0D02, n, if s.twinSt = twLead then s.twin.peerDigest else s.ownDigest⟩

/-- The READY of a withheld command. -/
def State.readyOf (s : State) (h : Held) (n : Nat) : Ready :=
  if h.opc = 0x0202 then commitReady h else if h.opc = 0x0304 then s.rollReady h else s.takeoverReady n

/-- A takeover is agreed: ROLE announces it. -/
def State.agreeTakeover (s : State) (n : Nat) : State :=
  let d := if s.twinSt = twLead then s.twin.peerDigest else s.ownDigest
  { s with twin := { s.twin with takeover := some (n, true) } }.twinSend mRole (fitB 48 d ++ toBe 8 n)

/-- A withheld command proceeds (R285). -/
def State.twinGo (s : State) (h : Held) (n : Nat) : State :=
  let s := s.twinTake (s.readyOf h n)
  if h.opc = 0x0202 then settle specCfgCommit h false (s.commitTake n h)
  else if h.opc = 0x0304 then
    let (r, s) := s.rollDo h
    s.finishWait h r
  else s.agreeTakeover n

/-- The commands withheld for the peer, with their cycles. -/
def State.withheld (s : State) : List (Held × Nat) :=
  s.cul.waits.filterMap (fun w => match w.wait with
    | .twin n => if w.cmd.opc = 0x0D02 && (match s.twin.takeover with | some (_, b) => b | none => false) then none else some (w.cmd, n)
    | _ => none)

/-- READY_RX. -/
def execReadyRx (payload : List Byte) (ok : Bool) (s : State) : Res :=
  .next (s.twinIn mReady payload ok (fun b s =>
    let r : Ready := ⟨beAt b 0 2, beAt b 2 8, sliceB b 10 48⟩
    let s := { s with twin := { s.twin with readies := s.twin.readies ++ [r] } }
    s.forEach (s.withheld.filter (fun x => s.readyOf x.1 x.2 = r && s.twinMatched r && s.twinInTime x.2)) (fun s x => s.twinGo x.1 x.2)))

/-- TWIN_READY_DEADLINE: 180 degrees of cycle N - 2. -/
def execTwinReadyDeadline (cycle : BitVec 40) (s : State) : Res :=
  let n := cycle.toNat
  if s.cycle + 2 < n then .next s
  else
    let s := s.forEach (s.withheld.filter (fun x => x.2 = n)) (fun s x =>
      if s.twinMatched (s.readyOf x.1 n) then s.twinGo x.1 n
      else if x.1.opc = 0x0D02 then s.dropTakeover.twnFlag 9 s.peerTag
      else (s.finishWait x.1 (coded St.peerMismatch Dt.none 0)).twnFlag 9 s.peerTag)
    .next { s with twin := { s.twin with readies := s.twin.readies.filter (fun r => decide (n < r.cycle)) } }

/-- ROLE_RX: the peer announces a takeover. -/
def execRoleRx (payload : List Byte) (ok : Bool) (s : State) : Res :=
  .next (s.twinIn mRole payload ok (fun b s =>
    let mine := sliceB b 0 48 = s.ownDigest
    if (s.twinSt = twFollow && mine) || (s.twinSt = twLead && !mine) then
      { s.setF F.TWN_STATUS_TAKEOVER_PEND 1 with twin := { s.twin with takeover := some (beAt b 48 8, true) } }
    else s))

/-- TWIN_TAKEOVER_EFFECT: at angle 0 of the announced cycle LEAD and FOLLOW exchange roles. -/
def execTwinTakeoverEffect (s : State) : Res :=
  match s.twin.takeover with
  | some (n, true) =>
    if s.cycle < n || !(s.twinSt = twLead || s.twinSt = twFollow) then .next s
    else
      let lead := s.twinSt = twFollow
      let hs := (s.waitsFor (fun w => match w with | .twin _ => true | _ => false)).filter (fun h => h.opc = 0x0D02)
      let s := { s.setF F.TWN_STATUS_TAKEOVER_PEND 0 with twin := { s.twin with takeover := none } }
      let s := s.takeRole lead
      .next (s.forEach hs (fun s h => s.finishWait h (.ok [])))
  | _ => .next s

/-- TWIN_PEER_LOST: four HELLOs are missing or both lanes have left UP (R279, Table TWN-5). -/
def execTwinPeerLost (s : State) : Res :=
  let s := { s with twin := { s.twin with peer := none } }
  let s := (s.setF F.TWN_STATUS_AGREE_TIME 0).doIf s.twin.takeover.isSome (·.dropTakeover)
  if s.twinSt = twFollow then .next ((s.setF F.TWN_STATUS_PEER_REF 0).takeRole true) else .next s

/-- LEADSTATE_RX: what the device needs to continue the Polder leadership of its peer, where it is newer than what it
holds (R280, Table TWN-3). -/
def execLeadstateRx (payload : List Byte) (ok : Bool) (s : State) : Res :=
  .next (s.twinIn mLeadState payload ok (fun b s =>
    if !s.twinVer then s
    else
      let l := (List.range ((b.length - 4) / 24)).map (fun i => schedAt b (4 + 24 * i))
      let s' := { s with twin := { s.twin with peerLeads := true } }
      if s.twin.peerLeads && decide (beAt b 0 4 < s.twin.nextSeq) then s'
      else { s' with twin := { s'.twin with nextSeq := beAt b 0 4 + 1, scheds := l } }))

/-! ### Commands -/

def specTwnStatus : CmdSpec where
  opc := 0x0D01
  need := needs Role.auditor
  sync := true
  len := fun h => lenFixed [] h.len
  act := fun _ s =>
    let role := if s.twinSt = twLead then 1 else if s.twinSt = twFollow then 2 else 0
    let agree := s.f F.TWN_STATUS_AGREE_VER + 2 * s.f F.TWN_STATUS_AGREE_CFG + 4 * s.f F.TWN_STATUS_AGREE_TIME
    let seq := match s.twin.peer with | some p => p.cfgSeq | none => 0
    .done (.ok (packR [(1, role), (1, b2n s.twinUp), (1, agree), (8, seq)] [] ++ fitB 48 s.twin.peerDigest)) s

/-- CMD_TWN_STATUS. -/
def execCmdTwnStatus (sl : Slot) (s : State) : Res := runCmd specTwnStatus sl s

def specTwnTakeover : CmdSpec where
  opc := 0x0D02
  need := needs Role.operator
  len := fun h => lenFixed [] h.len
  busy := fun _ s =>
    refuse (s.twinRefuse || !s.fb F.TWN_STATUS_AGREE_TIME || !(s.twinSt = twLead || s.twinSt = twFollow)) (coded St.peerMismatch Dt.none 0)
    <|> refuse (s.fb F.TWN_STATUS_TAKEOVER_PEND) (busyState 0)
  act := fun _ s =>
    let n := s.cycle + 2
    let r := s.takeoverReady n
    let s := ({ s.setF F.TWN_STATUS_TAKEOVER_PEND 1 with twin := { s.twin with takeover := some (n, false) } }).sendReady r
    if s.twinMatched r && s.twinInTime n then .later (.twin n) ((s.twinTake r).agreeTakeover n) else .later (.twin n) s

/-- CMD_TWN_TAKEOVER. -/
def execCmdTwnTakeover (sl : Slot) (s : State) : Res := runCmd specTwnTakeover sl s

end Sys2Proof.Machine
end

