-- ==== Sys2Proof/Machine/PwrOps.lean ====
section
/-! DEFINITION. Requests to leave ON and the wake register (R409 to R411, R417, Tables PWR-1, PWR-2, PWR-5 and PWR-6). -/

namespace Sys2Proof.Machine

/-- The states a domain takes (Table PWR-1). -/
def domTakes (d t : Nat) : Bool :=
  if 3 ≤ t then false
  else if d = dBerm || d = dRoot then t = dsOn
  else if d = dKeys || d = dHost then t = dsOn || t = dsRet
  else true

/-- Ports whose frames a lane carries, direct or extended. -/
def State.portsOn (s : State) (p : Nat → Bool) : List Nat := s.boundPorts.filter (fun q => p (s.portLane q))

/-- The conditions of Table PWR-2 that keep a domain ON. -/
def State.sleepBusy (s : State) (d t : Nat) (l12 : Bool) : Bool :=
  let dike := fun (p : Nat → Bool) => (s.portsOn p).any s.dikeInService
  if d = dPipe0 || d = dPipe1 then
    (rangeFrom (dTract0 + 4 * (d - dPipe0)) 4).any (fun x => s.domSt x ≠ dsOff) || dike (fun k => k / 16 = d - dPipe0)
  else if dTract0 ≤ d && d < dTwin then
    (rangeFrom (4 * (d - dTract0)) 4).any (fun k => s.laneUp k) || dike (fun k => k / 4 = d - dTract0)
  else if d = dCipher then
    s.domOn dPipe0 || s.domOn dPipe1 || s.ciq.queues.any (· ≠ []) || s.ciq.running ≠ []
  else if d = dPke then s.pke.queue ≠ [] || s.pke.running.isSome || s.pke.suspended ≠ [] || s.pke.aborted ≠ []
  else if 4 ≤ d && d ≤ 7 then
    s.pairSt (d - 3) = pRunning && !(t = dsRet && (s.pr (d - 3)).wfi)
  else if d = dNva then s.nv.op.isSome || s.nv.queue ≠ [] || s.fieldSession
  else if d = dHost then !l12
  else if d = dCxl then
    s.grvSt = grvBuilding || s.grvSt = grvServing || s.grvSt = grvMigrating
      || (List.range 64).any (fun n => s.dmaSt n ≠ dmaDisabled && bitAt (s.f (F.DMA_GRANT_EP n)) 2)
  else if d = dTwin then s.fb F.TWN_CTL_EN && s.twinLaneUp
  else if d = dCard || d = dField then
    s.fieldSession || s.cul.waits.any (fun w => .card ∈ w.objs || .smartCard ∈ w.objs)
  else false

/-- A write of PWR_CTL_d (R409, R410): `l12` says that the PCIe link is in L1.2. -/
def State.sleepRequest (s : State) (d : Nat) (v : Word) (l12 : Bool) : State :=
  let t := bitsOf v.toNat 24 2
  let s := s.setF (F.PWR_CTL_TARGET d) t
  let res := fun (c : Nat) (s : State) => s.setF (F.PWR_CTL_RESULT d) c
  let refused := fun (c : Nat) => (res c s).pwrFlag 1 d
  if !bitAt v.toNat 31 then s
  else if !domTakes d t then refused St.badParam
  else if t = dsOn then
    let s := { s with pwr := { s.pwr with stuck := s.pwr.stuck.filter (· ≠ d) } }
    match s.domTrans d with
    | some x => if x.dst = dsOn then res St.accepted s else s.domWake d
    | none => if s.domOn d then res St.done s else (res St.accepted s).domWake d
  else
    match s.domTrans d with
    | some x => if x.dst = t then s else refused St.busy
    | none =>
      if s.domSt d = t then res St.done s
      else if s.sleepBusy d t l12 then refused St.busy
      else (res St.accepted s).domMove d (s.domSt d) t

/-- A write of PWR_WAKE (R411, R417): each bit asks for a domain that is not ON. -/
def State.wakeWrite (s : State) (v : Word) : State :=
  s.forEach (List.range 25) (fun s d =>
    if bitAt v.toNat d && !s.domOn d then (s.wr R.PWR_WAKE (s.rd R.PWR_WAKE ||| BitVec.ofNat 32 (2 ^ d))).domWake d else s)

end Sys2Proof.Machine
end

