-- ==== Sys2Proof/Machine/RngRows.lean ====
section
/-! DEFINITION. The random bit source: its cells, states and reads, and CMD_DIAG_RNG_HEALTH (R369 to R379). -/

namespace Sys2Proof.Machine

/-! States of Table RNG-2. -/
namespace RngSt
def startup : Nat := 0
def running : Nat := 1
def blocked : Nat := 2
def test : Nat := 3
end RngSt

def State.rngState (s : State) : Nat := s.f F.RNG_STS_STATE

/-- A raw word of a cell reaches its conditioner: 16 words, all of one cell in service, make a block (R373). Samples
taken during a dip or in TEST are never used (R372, R377). -/
def State.rngWord (s : State) (x : Fin 4 × Word) : State :=
  let k := x.1.val
  if s.berm.dipping || s.rngState = RngSt.test || !bitAt (s.f F.RNG_STS_CELL_OK) k then s
  else
    let l := s.rng.acc.getD k [] ++ [x.2]
    if l.length < 16 then { s with rng := { s.rng with acc := setL s.rng.acc k l } }
    else { s with rng := { s.rng with acc := setL s.rng.acc k [],
                                      blocks := s.rng.blocks ++ [(List.range 16).map (Config.cbcMacByte l)] } }

def State.rngFeed (s : State) (raw : List (Fin 4 × Word)) : State := s.forEach raw State.rngWord

/-- Three blocks are conditioned since seed material was last used. -/
def State.rngReady (s : State) : Bool := decide (3 ≤ s.rng.blocks.length)

/-- The DRBG takes three blocks as its seed: the source runs, and what its conditioners hold is not used again (R374,
R375). -/
def State.rngRun (s : State) : State :=
  let s := (s.setF F.RNG_STS_STATE RngSt.running).setF F.RNG_STS_REQUESTS 0
  { s with rng := { s.rng with live := true, zeros := 0, reqs := 0, seed := (s.rng.blocks.take 3).flatten, acc := Rng.reset.acc,
                               blocks := [] } }

/-- The source is BLOCKED: the DRBG is uninstantiated, and a NOTIFY response is raised (Table RNG-3). -/
def State.rngBlock (s : State) (cell : Nat) : State :=
  let s := s.setF F.RNG_STS_STATE RngSt.blocked
  (({ s with rng := { s.rng with live := false } }).raise rngEvt 3 cell).notify 0x28

/-- RNG_INSTANTIATE: at start-up the cells named have passed their tests, and raw words of the cells in service follow;
three conditioned blocks instantiate the DRBG, as they do where a cell has returned to a BLOCKED source. -/
def execRngInstantiate (cells : BitVec 4) (raw : List (Fin 4 × Word)) (s : State) : Res :=
  let ok := (s.f F.RNG_STS_CELL_OK ||| cells.toNat) &&& (15 - s.f F.RNG_STS_CELL_RETIRED) &&& (15 - s.f F.RNG_STS_CELL_RETRY)
  let s := s.doIf (s.rngState = RngSt.startup) (fun s => s.setF F.RNG_STS_CELL_OK ok)
  let s := s.rngFeed raw
  .next (s.doIf ((s.rngState = RngSt.startup || s.rngState = RngSt.blocked) && s.f F.RNG_STS_CELL_OK ≠ 0 && s.rngReady) State.rngRun)

/-- One failure of a health test is counted under its test (Table RNG-4). -/
def State.rngCount (s : State) (test : Nat) : State :=
  s.addSat (match test with | 0 => F.RNG_FAILS_REP | 1 => F.RNG_FAILS_PROP | 2 => F.RNG_FAILS_LIVE | _ => F.RNG_FAILS_LOCK) 1

/-- A cell has failed: its block in progress is discarded (R373), and it retries the first
time and is retired the second (R372). -/
def State.rngFailCell (s : State) (k : Nat) : State :=
  if bitAt (s.f F.RNG_STS_CELL_RETIRED) k then s
  else
    let clr := fun (v : Nat) => v &&& (15 - 2 ^ k)
    let s := s.setF F.RNG_STS_CELL_OK (clr (s.f F.RNG_STS_CELL_OK))
    let s := { s with rng := { s.rng with acc := setL s.rng.acc k [] } }
    if k ∈ s.rng.failed then
      let s := s.setF F.RNG_STS_CELL_RETRY (clr (s.f F.RNG_STS_CELL_RETRY))
      (s.setF F.RNG_STS_CELL_RETIRED (s.f F.RNG_STS_CELL_RETIRED ||| 2 ^ k)).raise rngEvt 2 k
    else
      let s := s.setF F.RNG_STS_CELL_RETRY (s.f F.RNG_STS_CELL_RETRY ||| 2 ^ k)
      ({ s with rng := { s.rng with failed := k :: s.rng.failed } }).raise rngEvt 1 k

/-- RNG_CELL_FAIL: a health test fails for the cells named: 0 repetition count, 1 adaptive proportion, 2 liveness, 3
no-lock, 4 balance. Samples taken during a dip are never tested, and a failure in TEST is only counted. -/
def execRngCellFail (cells : BitVec 4) (test : Fin 5) (s : State) : Res :=
  if s.berm.dipping || cells = 0 then .next s
  else
    let s := s.rngCount test.val
    if s.rngState = RngSt.test then .next s
    else
      let s := s.forEach ((List.range 4).filter (fun k => bitAt cells.toNat k)) State.rngFailCell
      if s.f F.RNG_STS_CELL_RETIRED = 15 && decide (s.rngState ≤ RngSt.running) then .next (s.rngBlock 0xFF) else .next s

/-- RNG_CELL_RETURN: a retrying cell has passed 4,096 samples, and raw words of the cells in service follow; a BLOCKED
source is instantiated once three blocks are conditioned. -/
def execRngCellReturn (k : Fin 4) (raw : List (Fin 4 × Word)) (s : State) : Res :=
  if !bitAt (s.f F.RNG_STS_CELL_RETRY) k.val then .next s
  else
    let s := s.setF F.RNG_STS_CELL_RETRY (s.f F.RNG_STS_CELL_RETRY &&& (15 - 2 ^ k.val))
    let s := s.setF F.RNG_STS_CELL_OK (s.f F.RNG_STS_CELL_OK ||| 2 ^ k.val)
    let s := s.rngFeed raw
    .next (s.doIf (s.rngState = RngSt.blocked && s.rngReady) State.rngRun)

/-- RNG_RESEED: 65,536 requests, or the 64th angle 0, since the last reseed, and three blocks conditioned (R374). -/
def execRngReseed (raw : List (Fin 4 × Word)) (s : State) : Res :=
  let s := s.rngFeed raw
  let due := decide (65536 ≤ s.rng.reqs) || decide (64 ≤ s.rng.zeros)
  .next (s.doIf (s.rngState = RngSt.running && due && s.rngReady) (fun s => s.rngRun.addF F.RNG_RESEEDS_COUNT 1))

/-- RNG_BLOCK_TIMEOUT: no cell has been in service for 100 us while one or more retry. -/
def execRngBlockTimeout (s : State) : Res :=
  if decide (s.rngState ≤ RngSt.running) && s.f F.RNG_STS_CELL_OK = 0 && s.f F.RNG_STS_CELL_RETRY ≠ 0 then .next (s.rngBlock 0xFF)
  else .next s

/-- A write of RNG_TEST (R377). -/
def State.rngTestWrite (s : State) (v : Word) : State :=
  let s := s.wr R.RNG_TEST (v &&& 0x80000003)
  let st := s.rngState
  if bitAt v.toNat 31 then
    if st = RngSt.running || st = RngSt.blocked then
      (({ s with rng := { s.rng with live := false } }).setF F.RNG_STS_STATE RngSt.test).raise rngEvt 0 (bitsOf v.toNat 0 2)
    else s
  else if st = RngSt.test then
    ({ s with rng := { s.rng with raw := [], acc := Rng.reset.acc, blocks := [] } }).setF F.RNG_STS_STATE RngSt.startup
  else s

/-- RNG_TEST_ENTER: RNG_TEST.EN is written 1. -/
def execRngTestEnter (value : Word) (s : State) : Res :=
  if bitAt value.toNat 31 then .next (s.rngTestWrite value) else .next s

/-- RNG_TEST_EXIT: RNG_TEST.EN is written 0. -/
def execRngTestExit (value : Word) (s : State) : Res :=
  if bitAt value.toNat 31 then .next s else .next (s.rngTestWrite value)

/-- What a core's read of RNG_DATA gives, and whether it carries poison (R377). -/
def State.rngTake (s : State) : Word × Bool × State :=
  if s.rngState = RngSt.running then
    let (b, s) := s.drawBytes 4
    (BitVec.ofNat 32 (leNat b), false, s)
  else (0, true, s)

/-- RNG_DATA_READ: a read of RNG_DATA; a host read returns 0 and consumes nothing (R378). -/
def execRngDataRead (host : Bool) (s : State) : Res :=
  if host then .next (s.emit (.read R.RNG_DATA 0 false))
  else
    let (v, p, s) := s.rngTake
    .next (s.emit (.read R.RNG_DATA v.toNat p))

/-- The raw words sampled in TEST fill the buffer; those beyond 1,024 are dropped. -/
def State.rngFill (s : State) (ws : List Word) : State :=
  if s.rngState = RngSt.test then { s with rng := { s.rng with raw := (s.rng.raw ++ ws).take 1024 } } else s

/-- What a core's read of RNG_RAW gives. -/
def State.rngRawTake (s : State) : Word × State :=
  match s.rng.raw with
  | v :: t => (v, { s with rng := { s.rng with raw := t } })
  | [] => (0, s)

/-- RNG_RAW_READ: a read of RNG_RAW; `samples` are the raw words of the named cell since the last read. -/
def execRngRawRead (host : Bool) (samples : List Word) (s : State) : Res :=
  let s := s.rngFill samples
  if host then .next (s.emit (.read R.RNG_RAW 0 false))
  else
    let (v, s) := s.rngRawTake
    .next (s.emit (.read R.RNG_RAW v.toNat false))

def specRngHealth : CmdSpec where
  opc := 0x0F03
  need := needs 0x001
  sync := true
  len := fun h => lenFixed [] h.len
  act := fun _ s => .done (.ok (toLe 4 (s.rd R.RNG_STS).toNat ++ toLe 4 (s.rd R.RNG_FAILS).toNat)) s

/-- CMD_DIAG_RNG_HEALTH. -/
def execCmdDiagRngHealth (sl : Slot) (s : State) : Res := runCmd specRngHealth sl s

end Sys2Proof.Machine
end

