-- ==== Sys2Proof/Machine/RegAcc.lean ====
section
/-! DEFINITION. The registers as the host and the control cores reach them (R9 to R14, R25, R74, R94, R204, R224 to R228,
R249, R331, R411): what a read returns and clears, what a write sets, and where either starts an operation. -/

namespace Sys2Proof.Machine

/-! ### Interrupts and pairs (R327, R331) -/

/-- Sources of a pair that are pending and enabled, ascending. -/
def State.irqReady (s : State) (k : Nat) : List Nat :=
  (List.range 256).filter (fun n =>
    bitAt (s.rd (R.DEV_IRQ_PEND (8 * k + n / 32))).toNat (n % 32) && s.fb (F.DEV_IRQ_CFG_EN (256 * k + n)))

/-- The source next taken and its priority: the highest priority, the lowest number first. -/
def State.irqNext (s : State) (k : Nat) : Option (Nat × Nat) :=
  let l := (s.irqReady k).map (fun n => (n, s.f (F.DEV_IRQ_CFG_PRIO (256 * k + n))))
  let top := (l.map (·.2)).foldl max 0
  l.find? (fun e => e.2 = top)

/-- A write of DEV_IRQ_SET_k. -/
def State.irqSet (s : State) (k src : Nat) : State := s.irq k (src % 16)

/-- DEV_PAIR_CTL_k: RESET, then START. Pair 0 ignores it; an application pair whose domain is not ON stays as it is. The
applets of a pair that had halted start again as it is reset (Table EXC-8). -/
def State.pairCtl (s : State) (k : Nat) (v : Word) : State :=
  if k = 0 then s
  else
    let halted := s.pairSt k = pHalted
    let s := s.doIf (bitAt v.toNat 0) (fun s => (s.pairReset k).doIf halted (·.appsRestart k))
    s.doIf (bitAt v.toNat 1 && s.pairSt k = pHeld) (fun s => s.setF (F.DEV_PAIR_STS_STATE k) pRunning)

/-- The compartment whose code a pair runs: Aeduf, 0xFFFF, while pcc holds SYS, else the running applet. -/
def State.compOf (s : State) (k : Nat) : Nat :=
  if (s.pr k).pcc.has Perm.sys then 0xFFFF
  else match (s.runningOn k).find? (fun e => (s.pr k).runs e.2) with | some e => e.1 | none => 0

/-! ### The domain of a register (Table PWR-1) -/

/-- The domain that must be ON for an access: none where the block is always powered. -/
def State.regDom (s : State) (a : Nat) : Option Nat :=
  let shared := if s.sharedOn then none else some dPipe0
  let pipe := fun (k : Nat) => some (dPipe0 + k / 16 % 2)
  let b := a / 0x10000
  if R.DEV_PAIR_CTL 1 ≤ a && a < R.DEV_PAIR_CTL 5 then some (3 + (a - R.DEV_PAIR_CTL 0) / 16)
  else if b = 3 then if 0x30100 ≤ a && a < 0x30500 then some (dTract0 + (a - 0x30100) / 0x80) else none
  else if b = 5 then
    if 0x50400 ≤ a && a < 0x50500 then pipe ((a - 0x50400) / 8)
    else if 0x50500 ≤ a && a < 0x50580 then pipe ((a - 0x50500) / 4)
    else shared
  else if b = 6 then
    if a = R.FPX_CORE_STS then some dCipher
    else if 0x61000 ≤ a && a < 0x65000 then pipe ((a - 0x61000) / 0x200)
    else shared
  else if b = 7 then some dCipher
  else if b = 8 then some dKeys
  else if b = 9 then some dPke
  else if b = 0xB then shared
  else if b = 0xD then some dHost
  else if b = 0x11 then some dNva
  else if b = 0x13 then some dField
  else if b = 0x14 then some dCard
  else if b = 0x15 then
    if a = R.CAL_KAT_STS then some dCipher
    else if 0x150100 ≤ a && a < 0x150300 then some (dTract0 + (a - 0x150100) / 0x40)
    else none
  else if 0x20 ≤ b && b < 0x40 then
    let p := (a - 0x200000) / 0x800
    if p < 32 then pipe p else if (s.ctx p).st = ctxFree then shared else pipe (s.portLane p)
  else if 0x40 ≤ b && b < 0x80 then some dKeys
  else if 0x100 ≤ b then some dHost
  else none

/-- The domain that an access waits for, if any. -/
def State.regWaits (s : State) (a : Nat) : Option Nat :=
  match s.regDom a with
  | some d => if s.domOn d then none else some d
  | none => none

/-! ### Reading -/

/-- The low half of a 64-bit quantity (R10). -/
def isLowHalf (a : Nat) : Bool :=
  decide (a ∈ [R.GAC_NOW_LO, R.GAC_INCR_LO, R.GAC_ZERO_CYC_LO, R.GAC_ZERO_SEC_LO, R.KEY_SLOT_USE_LO, R.KEY_SLOT_LIMIT_LO,
    R.KEY_SLOT_WARN_LO, R.KEY_SLOT_ROLL_LO, R.CIQ_BLOCKS_LO, R.GRV_FILLS_LO, R.GRV_WB_LO, R.CPS_HITS_LO, R.CPS_MISSES_LO,
    R.CPS_NEG_HITS_LO, R.ECC_UNC_ADDR_LO, R.CUL_WIN_BASE_LO, R.FLD_UID_LO, R.CFG_ACTIVE_SEQ_LO, R.CFG_PEND_CYCLE_LO,
    R.CFG_SEQ_A_LO, R.CFG_SEQ_B_LO, R.TWN_PLD_CYC_LO, R.DMA_HALTED_LO, R.PWR_STS_LO])
  || (decide (0xC0500 ≤ a) && decide (a < 0xC0700) && a % 8 = 0)
  || (let o := if decide (0x200000 ≤ a) && decide (a < 0x400000) then (a - 0x200000) % 0x800
        else if decide (0x61000 ≤ a) && decide (a < 0x65000) then (a - 0x61000) % 0x200 + 0x180 else 0
      o = 0x184 || o = 0x18C
      || (decide (0x1C0 ≤ o) && decide (o < 0x240) && (o % 0x20 = 4 || o % 0x20 = 0x10))
      || (decide (0x240 ≤ o) && decide (o < 0x2C0) && o % 0x20 = 4)
      || (((decide (0x300 ≤ o) && decide (o < 0x600)) || (decide (0x610 ≤ o) && decide (o < 0x620))) && o % 8 = 0))

/-- A half of a 64-bit value. -/
def half64 (v : Nat) (high : Bool) : Word := BitVec.ofNat 32 (if high then v / 2 ^ 32 else v)

/-- The 64-bit counters that the model holds by the address of their low half. -/
def isCounter (a : Nat) : Bool :=
  let o := (a - 0x200000) % 0x800
  (decide (0x200000 ≤ a) && decide (a < 0x400000)
    && ((decide (0x300 ≤ o) && decide (o < 0x600)) || (decide (0x610 ≤ o) && decide (o < 0x620))))
  || (decide (R.GRV_FILLS_LO ≤ a) && decide (a ≤ R.GRV_WB_HI)) || (decide (R.CPS_HITS_LO ≤ a) && decide (a ≤ R.CPS_NEG_HITS_HI))

/-- The Clearings of a lane's egress schedule. -/
def State.clearingsOf (s : State) (k : Nat) : Nat := min 7 ((s.sched k true).filter (fun e => bitAt e.2.toNat 1)).length

/-- The registers that show what the model holds elsewhere; none: the register holds its own value. -/
def State.liveReg (s : State) (a : Nat) : Option Word :=
  let n := fun (x : Nat) => some (BitVec.ofNat 32 x)
  if a = R.DEV_AEDUF_VER then some (s.rd R.RST_AEDUF_VER)
  else if a = R.DEV_STATE then
    n (s.f F.RST_STS_STAGE * 2 ^ 29 + s.f F.RST_STS_SERVICE * 2 ^ 27 + s.f F.RST_STS_BOOT_HOLD * 2 ^ 26 + s.f F.RST_STS_CAUSE)
  else if R.DEV_IRQ_STS 0 ≤ a && a < R.DEV_IRQ_STS 5 then
    match s.irqNext ((a - R.DEV_IRQ_STS 0) / 4) with
    | some (src, p) => n (2 ^ 31 + src * 2 ^ 16 + p)
    | none => n 0
  else if a = R.GAC_NOW_LO || a = R.GAC_NOW_HI then some (half64 s.gacNow.toNat (a = R.GAC_NOW_HI))
  else if a = R.GAC_INCR_LO || a = R.GAC_INCR_HI then some (half64 s.gac.incr.toNat (a = R.GAC_INCR_HI))
  else if a = R.GAC_TAI_NS then n (s.taiNs % 10 ^ 9)
  else if R.KEY_SLOT_CTL ≤ a && a ≤ R.KEY_SLOT_ROLL_HI then
    n ((s.slotView (s.f F.KEY_SLOT_SEL_SEL)).getD ((a - R.KEY_SLOT_CTL) / 4) 0)
  else if a = R.KEY_STATUS then
    let c := (s.keys.slots.filter (fun e => e.2.state = Ks.loaded || e.2.state = Ks.active || e.2.state = Ks.draining)).length
    n (b2n s.keys.work.isSome * 2 ^ 31 + b2n s.keys.kdf.isSome * 2 ^ 30 + b2n s.keys.zeroizing * 2 ^ 29 + c % 65536)
  else if a = R.KEY_WIN_STS then
    match s.keys.stage with
    | some g => n (2 ^ 31 + g.slot)
    | none => n 0
  else if a = R.CIQ_STS then n (putBits (s.rd R.CIQ_STS).toNat 0 16 s.ciq.running.length)
  else if R.CIQ_DEPTH 0 ≤ a && a < R.CIQ_DEPTH 4 then n (s.ciq.queues.getD ((a - R.CIQ_DEPTH 0) / 4) []).length
  else if a = R.CIQ_BLOCKS_LO || a = R.CIQ_BLOCKS_HI then some (half64 s.ciq.blocks (a = R.CIQ_BLOCKS_HI))
  else if a = R.PKE_STS then
    let o := match s.pke.running with | some j => j.owner | none => 0
    n (b2n s.pke.running.isSome * 2 ^ 31 + s.f F.PKE_STS_FULL * 2 ^ 30 + s.f F.PKE_STS_QUIESCED * 2 ^ 29
      + b2n s.pke.kreg.isSome * 2 ^ 28 + s.pke.suspended.length % 16 * 2 ^ 20 + o % 65536)
  else if a = R.RNG_RAW_CNT then n s.rng.raw.length
  else if a = R.GRV_ENTRIES then n (s.validLines s.region).length
  else if a = R.GRV_CXL_STS then some s.cxlSts
  else if a = R.GRV_CXL_CAP 0 || a = R.GRV_CXL_CAP 1 then
    let l := s.link ((a - R.GRV_CXL_CAP 0) / 4)
    n (if l.trained then l.cap else 0)
  else if a = R.CPS_PINNED then n s.pinnedCount
  else if a = R.CPS_STATUS then
    n ((s.ways.filter (fun e => e.2.st = .shadow)).length * 2 ^ 16 + (s.ways.filter (fun e => stashBase ≤ e.1)).length)
  else if a = R.SWP_CARRY then some s.sweepCarry
  else if a = R.BLZ_STATUS then n (b2n (decide (32 ≤ s.ecc.blaze.length)) * 2 ^ 31 + s.ecc.blaze.length)
  else if R.BLZ_ADDR_LO 0 ≤ a && a < R.BLZ_ADDR_LO 32 then
    match s.ecc.blaze[(a - R.BLZ_ADDR_LO 0) / 16]? with
    | none => n 0
    | some e =>
      if a % 16 = 0 then n e.addr
      else if a % 16 = 4 then n (e.region * 2 ^ 24 + e.kind * 2 ^ 16 + e.count * 2 ^ 8 + e.addr / 2 ^ 32 % 256)
      else if a % 16 = 8 then n (e.gac.toNat / 2 ^ 24)
      else n (e.gac.toNat % 2 ^ 24 * 256 + e.gac.toNat / 2 ^ 56)
  else if a = R.CUL_STATUS then some s.culStatus
  else if a = R.DMA_HALTED_LO then some (s.dmaHaltedBits 0)
  else if a = R.DMA_HALTED_HI then some (s.dmaHaltedBits 32)
  else if a = R.NVA_SPARE then some s.nvSpare
  else if a = R.FLD_UID_LO then n (leNat (s.fld.uid.take 4))
  else if a = R.FLD_UID_HI then n (leNat ((s.fld.uid.drop 4).take 3))
  else if R.EXT_LANE_STS 0 ≤ a && a < R.EXT_LANE_STS 32 && a % 16 = 0 then some (s.extLaneSts ((a - R.EXT_LANE_STS 0) / 16))
  else if R.CAL_LANE_STS 0 ≤ a && a < R.CAL_LANE_STS 32 && a % 16 = 4 then
    let k := (a - R.CAL_LANE_STS 0) / 16
    n (s.f (F.CAL_LANE_STS_NEXT k) * 2 ^ 29 + s.clearingsOf k * 2 ^ 16)
  else if isCounter a then some (half64 (s.ctr (a - a % 8)) (a % 8 = 4))
  else if 0x200000 ≤ a && a < 0x400000 then
    let p := (a - 0x200000) / 0x800
    let o := (a - 0x200000) % 0x800
    if o = 0x14 then some (s.portCells p)
    else if o = 0xA0 then some (s.dikeqNow p)
    else if o = 0x600 then some (s.extPortId p)
    else none
  else none

/-- The word of the schedule window (Tables SLU-5 to SLU-7); an entry that nothing has written is open. -/
def State.sluWindow (s : State) (a : Nat) : Word × State :=
  let i := (a - R.SLU_ENTRY 0) / 8
  let key := dirKey (s.f F.SLU_WIN_SEL_PORT) (s.fb F.SLU_WIN_SEL_DIR)
  let bank := if s.fb F.SLU_WIN_SEL_BANK then s.slu.shd else s.slu.act
  match (Tbl.get (fun _ => []) bank key)[i]? with
  | some e => (if a % 8 = 0 then e.1 else e.2, s)
  | none =>
    let (v, s) := s.openBelow (2 ^ 32)
    (BitVec.ofNat 32 (if a % 8 = 0 then v else v % 4), s)

def isSluWindow (a : Nat) : Bool := decide (R.SLU_ENTRY 0 ≤ a) && decide (a < R.SLU_ENTRY 64) && a % 4 = 0

/-- The word of a register, with no effect of the read but an open value drawn. -/
def State.regWord (s : State) (a : Nat) : Word × State :=
  if isSluWindow a then s.sluWindow a
  else if R.RNG_CELL 0 ≤ a && a < R.RNG_CELL 4 then
    let (t, s) := s.openBelow 256
    let (o, s) := s.openBelow 1025
    (BitVec.ofNat 32 (t * 2 ^ 24 + o), s)
  else match s.liveReg a with
    | some v => (v, s)
    | none => match regDesc a with | some d => (s.rd a &&& ~~~d.wo, s) | none => (0, s)

def State.latched (s : State) (a : Nat) : Option Word := Tbl.get (fun _ => none) s.latch a
def State.setLatch (s : State) (a : Nat) (v : Option Word) : State := { s with latch := Tbl.set (fun _ => none) s.latch a v }

/-- Registers whose value the active configuration set gives (R25): of the SecYs of a lane's direct port and of its
extender lane, the one in use, and of the two schedule banks the active one. -/
def State.setHolds (s : State) (a : Nat) : Bool :=
  decide (a ∈ gacRegs) || decide (a ∈ deviceRegs) || a = R.TMP_LEVEL
  || (decide (R.CUL_EVMAP 0 ≤ a) && decide (a < R.CUL_EVMAP 16))
  || (List.range 32).any (fun k => a = R.LNE_LANE_CTL k || a = R.SLU_MM_CTL k || a = R.CAL_LANE_CTL k || (a = R.FPX_LANE_SECY_CTL k && s.isExt k)
        || (a = R.FPX_SECY_CTL k && !s.isExt k))
  || (decide (0x200000 ≤ a) && decide (a < 0x400000)
      && decide ((a - 0x200000) % 0x800 ∈ [0, 4, 8, 0xC, 0x10, 0x80, 0x84, 0x88, 0x8C, 0x690]))
  || (isSluWindow a && !s.fb F.SLU_WIN_SEL_BANK)

/-- A register of the active set is restored from the copy of that set (R25). -/
def State.regRestore (s : State) (a : Nat) : State :=
  let c := s.cfg.active
  match (gacRegs.zip c.gacVals ++ deviceRegs.zip c.deviceVals).find? (fun x => x.1 = a) with
  | some x => s.put a x.2
  | none =>
    if a = R.TMP_LEVEL then s.wr a c.tmpLevel
    else if R.CUL_EVMAP 0 ≤ a && a < R.CUL_EVMAP 16 then
      s.wr a (if c.evmap = [] then 0x80 else BitVec.ofNat 32 ((byteAt c.evmap ((a - R.CUL_EVMAP 0) / 4)).toNat &&& 0xBF))
    else if 0x200000 ≤ a && a < 0x400000 then
      let p := (a - 0x200000) / 0x800
      let o := (a - 0x200000) % 0x800
      if o = 0x80 || o = 0x88 then s.wr a (if o = 0x80 then (c.sluVals (s.keyOf p) false).1 else (c.sluVals (s.keyOf p) false).2.1)
      else if o = 0x84 || o = 0x8C then s.wr a (if o = 0x84 then (c.sluVals (s.keyOf p) true).1 else (c.sluVals (s.keyOf p) true).2.1)
      else s.wr a ((s.putPort c p).rd a)
    else if isSluWindow a then
      let tx := s.fb F.SLU_WIN_SEL_DIR
      let p := s.f F.SLU_WIN_SEL_PORT
      let i := (a - R.SLU_ENTRY 0) / 8
      match (c.sluVals (s.keyOf p) tx).2.2[i]? with
      | some e => { s with slu := { s.slu with act := Tbl.set (fun _ => []) s.slu.act (dirKey p tx)
                                                        (setL (Tbl.get (fun _ => []) s.slu.act (dirKey p tx)) i e) } }
      | none => s
    else
      match (List.range 32).find? (fun k => a = R.LNE_LANE_CTL k || a = R.SLU_MM_CTL k || a = R.CAL_LANE_CTL k) with
      | some k => s.wr a ((s.putLane c k (match s.cfg.drain with | some d => decide (k ∈ d.lanes) | none => false)).rd a)
      | none => s.put a ((c.portVals ((a - 0x61000) / 0x200) ((a - 0x61000) / 0x200)).getD 5 0)

/-- What a disagreement of a register's two copies does (R25), counted in region 12 (R187), and whether the value carries
poison. -/
def State.regMismatch (s : State) (a : Nat) : Bool × State :=
  if s.setHolds a then (false, (s.regRestore a).eccCorr 12 a 3)
  else
  let s := s.addF (F.ECC_UNCORR_COUNT 12) 1
  if a = R.KEY_SLOT_CTL then (false, (s.zeroSlot (s.f F.KEY_SLOT_SEL_SEL)).notify 0x24)
  else (true, { s with regBad := (a :: s.regBad).dedup }.notify 0x24)

/-- A read of a register: its value, whether it carries poison, and what the read changes. -/
def State.regRead (s : State) (ag : Bus) (x : AccIn) (a : Nat) : Word × Bool × State :=
  let (p, s) := if (x.bad && (regDesc a).isSome) || decide (a ∈ s.regBad) then s.regMismatch a else (false, s)
  if a = R.RNG_DATA then if ag = .host then (0, p, s) else let (v, q, s) := s.rngTake; (v, p || q, s)
  else if a = R.RNG_RAW then
    let s := s.rngFill x.samples
    if ag = .host then (0, p, s) else let (v, s) := s.rngRawTake; (v, p, s)
  else if a = R.GAC_TAI_SEC_LO || a = R.GAC_TAI_SEC_HI then ((s.latched a).getD 0, p, s)
  else
    match s.latched a with
    | some v => (v, p, s.setLatch a none)
    | none =>
      let (v, s) := s.regWord a
      let s := if isLowHalf a then let (h, s) := s.regWord (a + 4); s.setLatch (a + 4) (some h) else s
      let s := if a = R.GAC_TAI_NS then
          let sec := s.taiNs / 10 ^ 9
          (s.setLatch R.GAC_TAI_SEC_LO (some (BitVec.ofNat 32 sec))).setLatch R.GAC_TAI_SEC_HI (some (BitVec.ofNat 32 (sec / 2 ^ 32 % 65536)))
        else s
      let s := match regDesc a with
        | some d => if d.rc = 0 then s else s.wr a (s.rd a &&& ~~~d.rc)
        | none => s
      (v, p, s)

/-! ### Writing -/

/-- A write by access code (R11, R12): RW bits are set, W1C bits cleared, W1S bits set, and every other bit kept. -/
def State.regPut (s : State) (a : Nat) (v : Word) : State :=
  match regDesc a with
  | none => s
  | some d =>
    let o := s.rd a
    let v := storedForm a v
    { s.wr a (o &&& ~~~d.rw &&& ~~~(v &&& d.w1c) ||| v &&& d.rw ||| v &&& d.w1s) with regBad := s.regBad.filter (· ≠ a) }

/-- The registers of BAR 0 and BAR 2 that a host write reaches (R13, R204, R224). -/
def hostWritable (a : Nat) : Bool :=
  (decide (R.DEV_SCRATCH 0 ≤ a) && decide (a < R.DEV_SCRATCH 4)) || a = R.PWR_WAKE
  || (decide (0xD0000 ≤ a) && decide (a < 0xE0000) && !(decide (R.CUL_EVMAP 0 ≤ a) && decide (a < R.CUL_EVMAP 16)))
  || decide (0x1000000 ≤ a)

/-- The state a meaning answers with. -/
def resState (s : State) : Res → State
  | .next t => t
  | _ => s

def fin64 (x : Nat) : Fin 64 := ⟨x % 64, Nat.mod_lt _ (by decide)⟩
def fin256 (x : Nat) : Fin 256 := ⟨x % 256, Nat.mod_lt _ (by decide)⟩

/-- A write of the schedule window: only the shadow bank takes it; entries below it that nothing has written are open. -/
def State.sluWrite (s : State) (a : Nat) (v : Word) : State :=
  if !s.fb F.SLU_WIN_SEL_BANK then s
  else
    let i := (a - R.SLU_ENTRY 0) / 8
    let key := dirKey (s.f F.SLU_WIN_SEL_PORT) (s.fb F.SLU_WIN_SEL_DIR)
    let l := Tbl.get (fun _ => []) s.slu.shd key
    let (l, s) := (List.range (i + 1 - l.length)).foldl (fun (acc : Sched × State) _ =>
      let (x, t) := acc.2.openBelow (2 ^ 32)
      let (y, t) := t.openBelow 4
      (acc.1 ++ [(BitVec.ofNat 32 x, BitVec.ofNat 32 y)], t)) (l, s)
    let e := l.getD i (0, 0)
    let l := l.set i (if a % 8 = 0 then (v, e.2) else (e.1, v &&& 3))
    { s with slu := { s.slu with shd := Tbl.set (fun _ => []) s.slu.shd key l } }

/-- A write of the write-only key slot window (R340). -/
def State.keyWindow (s : State) (a : Nat) (v : Word) : State :=
  let slot := BitVec.ofNat 15 ((a - 0x400000) / 128)
  let o := (a - 0x400000) % 128
  if h : o / 4 < 20 then resState s (execKeyWindowStage slot ⟨o / 4, h⟩ v s)
  else if o = 0x70 then resState s (execKeyWindowCommit slot v s)
  else s

/-- A write of a register of DMA channel n by a compartment (R248, R249). -/
def State.dmaRegWrite (s : State) (comp : Nat) (x : AccIn) (a : Nat) (v : Word) : State :=
  let n := fin64 ((a - R.DMA_CTL 0) / 0x40)
  let c := BitVec.ofNat 16 comp
  let o := (a - R.DMA_CTL 0) % 0x40
  if 0x20 ≤ o then if comp = 0xFFFF then s.regPut a v else s
  else if !s.dmaOwner n.val c then s
  else if o = 0 then
    let s := resState s (execDmaEnable n c v s)
    let s := resState s (execDmaDisable n c v s)
    if bitAt v.toNat 30 then resState s (execDmaAbort n c x.blocks x.feed s) else s
  else if o = 8 then resState s (execDmaDoorbell n c (BitVec.ofNat 16 (v.toNat % 65536)) x.descs s)
  else if o = 4 && s.fb (F.DMA_CTL_EN n.val) then s
  else s.regPut a v

/-- A write of a register of the CUL block (R199, R202, R224). -/
def State.culRegWrite (s : State) (a : Nat) (v : Word) : State :=
  if a = R.CUL_WIN_CTL then resState s (execCulWinCtlWrite v s)
  else if R.CUL_WIN_BASE_LO ≤ a && a ≤ R.CUL_WIN_SIZE then if s.fb F.CUL_WIN_CTL_EN then s else s.regPut a v
  else if 0xD1000 ≤ a && a < 0xD2000 then
    let r := fin256 ((a - 0xD1000) / 0x10)
    if a % 0x10 = 4 then let s := resState s (execCringEnable r v s); resState s (execCringDisable r v s)
    else if a % 0x10 = 0 && s.fb (F.CUL_CRING_CTL_EN r.val) then s
    else s.regPut a v
  else if 0xD3000 ≤ a && a < 0xD3800 then
    let e := fin64 ((a - 0xD3000) / 0x20)
    if a % 0x20 = 4 then let s := resState s (execEringEnable e v s); resState s (execEringDisable e v s)
    else if (a % 0x20 = 0 || a % 0x20 = 8) && s.fb (F.CUL_ERING_CTL_EN e.val) then s
    else s.regPut a v
  else s.regPut a v

/-- A write in BAR 2 (R204, R228): a doorbell, or the MSI-X table; an entry that is unmasked sends what is pending. -/
def State.bar2Write (s : State) (a : Nat) (v : Word) : State :=
  let o := a - 0x1000000
  if o < 0x4000 then if o % 0x40 = 0 then resState s (execCringDoorbell (fin256 (o / 0x40)) v s) else s
  else if o < 0x5000 then if o % 0x40 = 0 then resState s (execEringDoorbell (fin64 ((o - 0x4000) / 0x40)) v s) else s
  else if 0x8000 ≤ o && o < 0xA000 then
    let s := s.regPut a v
    let n := (o - 0x8000) / 16
    if o % 16 = 0xC && !bitAt v.toNat 0 && bitAt (s.rd (R.MSIX_PBA (n / 32))).toNat (n % 32) then
      (s.wr (R.MSIX_PBA (n / 32)) (s.rd (R.MSIX_PBA (n / 32)) &&& ~~~BitVec.ofNat 32 (2 ^ (n % 32)))).emit (.msix n)
    else s
  else s

/-- A write of RST_WDT_KICK. -/
def State.wdtKick (s : State) (v : Word) : State :=
  if v = 0x5AA5 then { s with boot := { s.boot with wdtAt := s.gac.now } } else s

/-- A write that reaches the register block: by the host, or by code of compartment `comp`. -/
def State.regWrite (s : State) (ag : Bus) (comp : Nat) (x : AccIn) (a : Nat) (v : Word) : State :=
  if ag = .host && !hostWritable a then s
  else if 0x1000000 ≤ a then s.bar2Write a v
  else if 0x400000 ≤ a then if a < 0x800000 then s.keyWindow a v else s
  else if R.DEV_IRQ_SET 0 ≤ a && a < R.DEV_IRQ_SET 5 then s.irqSet ((a - R.DEV_IRQ_SET 0) / 4) v.toNat
  else if R.DEV_PAIR_CTL 0 ≤ a && a < R.DEV_PAIR_CTL 5 && a % 16 = 0 then s.pairCtl ((a - R.DEV_PAIR_CTL 0) / 16) v
  else if a = R.PWR_WAKE then s.wakeWrite v
  else if R.PWR_CTL 0 ≤ a && a < R.PWR_CTL 25 then s.sleepRequest ((a - R.PWR_CTL 0) / 4) v x.l12
  else if a = R.RST_WDT_KICK then s.wdtKick v
  else if a = R.TWN_CTL then (s.regPut a v).twinLanes
  else if a = R.GAC_CTL then (s.regPut a v).gacReselect (s.rd a)
  else if R.LNE_LANE_CTL 0 ≤ a && a < R.LNE_LANE_CTL 32 && a % 0x20 = 0 then (s.regPut a v).laneEnable ((a - R.LNE_LANE_CTL 0) / 0x20)
  else if R.CAL_LANE_CTL 0 ≤ a && a < R.CAL_LANE_CTL 32 && a % 16 = 0 then
    (s.regPut a v).calChange ((a - R.CAL_LANE_CTL 0) / 16) (s.rd a)
  else if R.SLU_MM_CTL 0 ≤ a && a < R.SLU_MM_CTL 32 && a % 8 = 0 then
    let k := (a - R.SLU_MM_CTL 0) / 8
    (s.regPut a v).mmChange k (s.fb (F.SLU_MM_CTL_EN k))
  else if isSluWindow a then s.sluWrite a v
  else if isSluBank a then
    match regDesc a with
    | some d => s.shdWr a (s.shdRd a &&& ~~~d.rw ||| v &&& d.rw)
    | none => s
  else if a = R.CIQ_CRING_IDX then resState s (execCiqCringHeadWrite (BitVec.ofNat 16 v.toNat) s)
  else if R.CIQ_SUBMIT 0 ≤ a && a < R.CIQ_SUBMIT 4 then if a % 0x40 = 0 then s.ciqWord ((a - R.CIQ_SUBMIT 0) / 0x40) v else s
  else if a = R.KEY_KDF_CTL then let s := resState s (execKdfToWork v s); resState s (execKdfToFld v s)
  else if a = R.KEY_MOVE then
    let s := resState s (execKeyWorkClear v s)
    let s := resState s (execKeyMoveSlot v s)
    resState s (execKeyMovePke v s)
  else if a = R.KEY_MOVE_ID then { s with keys := { s.keys with moveId := v.toNat } }
  else if a = R.PKE_CTL then (s.regPut a v).pkeNext
  else if a = R.PKE_CRING_IDX then resState s (execPkeCringHeadWrite (BitVec.ofNat 16 v.toNat) s)
  else if a = R.PKE_SUBMIT then s.pkeWord v comp
  else if a = R.RNG_TEST then s.rngTestWrite v
  else if 0xD0000 ≤ a && a < 0xE0000 then s.culRegWrite a v
  else if R.DMA_CTL 0 ≤ a && a < R.DMA_CTL 64 then s.dmaRegWrite comp x a v
  else if a = R.NVA_OP then s.nvOpWrite v
  else if a = R.TMP_LEVEL then s.tmpLevelWrite v
  else if a = R.FLD_CTL then
    let m := s.f F.FLD_CTL_MODE
    let s := s.regPut a v
    if s.f F.FLD_CTL_MODE = m then s else s.fldMode (s.f F.FLD_CTL_MODE)
  else s.regPut a v

/-! ### The rows -/

/-- The access is one that registers take (R9). -/
def regShape (a bytes : Nat) : Bool := bytes = 4 && a % 4 = 0

/-- An access of the host that waits for a domain (R411); one to a stuck domain ends at once (R413). -/
def State.hostStall (s : State) (d : Nat) (acc : Access) : State :=
  if d ∈ s.pwr.stuck then (if acc.write then s else s.emit (.abort acc.addr)) else
  let t := s.domWake d
  { t with pwr := { t.pwr with stalled := t.pwr.stalled ++ [(d, acc)] } }

/-- An access of a pair that waits for a domain: the pair waits with it (R316, R411). -/
def State.coreStall (s : State) (k d addr acc : Nat) : State :=
  let t := s.domWake d
  t.setPr k { t.pr k with stall := some (d, addr, acc) }

/-- The core address of the BAR 0 layout (Table ISA-5). -/
def bar0Base : Nat := 0x8000000000

/-- The permission that R302 asks of a core for an access to the register at `a`: KEYLOAD or DMA in a capability that it
holds, or SYS in pcc. The capability that authorises an access is the operand of LD and ST alone. -/
def State.mayReach (s : State) (k a : Nat) : Bool :=
  let p := s.pr k
  let holds := fun (n : Nat) => (List.range 16).any (fun r => (p.reg r).tag && (p.reg r).otype = 0 && (p.reg r).has n)
  if 0x400000 ≤ a && a < 0x800000 then holds Perm.keyload
  else if R.DMA_CTL 0 ≤ a && a < R.DMA_CTL 64 then holds Perm.dma
  else p.pcc.has Perm.sys

/-- REGISTER_WRITE. -/
def execRegisterWrite (agent : Bus) (addr : BitVec 26) (bytes : Fin 17) (value : Word) (x : AccIn) (s : State) : Res :=
  let a := addr.toNat
  if !regShape a bytes.val then .next s
  else match agent with
    | .host =>
      if !hostWritable a then .next s
      else match s.regWaits a with
        | some d => .next (s.hostStall d ⟨true, true, a, bytes.val, value⟩)
        | none => .next (s.regWrite .host 0 x a value)
    | .core k =>
      if 0x1000000 ≤ a || !s.mayReach k.val a then .next s
      else match s.regWaits a with
        | some d => .next (s.coreStall k.val d (bar0Base + a) 2)
        | none => .next (s.regWrite agent (s.compOf k.val) x a value)

/-- The agent may read the register at `a`: a core under R302. -/
def State.mayRead (s : State) (ag : Bus) (a : Nat) : Bool := match ag with | .host => true | .core k => s.mayReach k.val a

/-- REGISTER_READ: what the read returns leaves the device. -/
def execRegisterRead (agent : Bus) (addr : BitVec 26) (bytes : Fin 17) (x : AccIn) (s : State) : Res :=
  let a := addr.toNat
  if !regShape a bytes.val then .next (s.emit (.read a 0 false))
  else if !s.mayRead agent a then .next s
  else match s.regWaits a, agent with
    | some d, .host => .next (s.hostStall d ⟨true, false, a, bytes.val, 0⟩)
    | some d, .core k => .next (s.coreStall k.val d (bar0Base + a) 1)
    | none, _ =>
      let (v, p, s) := s.regRead agent x a
      .next (s.emit (.read a v.toNat p))

end Sys2Proof.Machine
end

