-- ==== Sys2Proof/Machine/CpuOps.lean ====
section
/-! DEFINITION. What every instruction of a control pair shares: the access checks and the MPU (R302, R326), memory and
tags (R299, R325), poison (R190, R191), address modes (R303), exception entry and the halt of a pair (R319 to R323). -/

namespace Sys2Proof.Machine

/-! ### How an instruction or one step of it ends -/

/-- A value; a fault with its CODE, ACCESS and eval (none: the manual gives eval no value there); an access that waits
for a domain, with its address and ACCESS; or a step that cannot complete yet. A trap is a fault after reads have been
made: each as its address, its bytes and what the decoder found, for what a read finds stays (R188). -/
inductive Ex (α : Type) where
  | ok (a : α)
  | fault (code acc : Nat) (eval : Option Nat)
  | trap (reads : List (Nat × Nat × List EccHit)) (code acc : Nat) (eval : Option Nat)
  | stall (dom addr acc : Nat)
  | hold

def Ex.bind {α β : Type} (x : Ex α) (f : α → Ex β) : Ex β :=
  match x with
  | .ok a => f a
  | .fault c a v => .fault c a v
  | .trap l c a v => .trap l c a v
  | .stall d a c => .stall d a c
  | .hold => .hold

/-- What follows reads that have been made. -/
def Ex.after {α : Type} (l : List (Nat × Nat × List EccHit)) (x : Ex α) : Ex α :=
  match x with
  | .fault c a v => .trap l c a v
  | .trap l' c a v => .trap (l ++ l') c a v
  | .ok a => .ok a
  | .stall d a c => .stall d a c
  | .hold => .hold

/-- The fault codes of Table EXC-2. -/
def fcIllegal : Nat := 0x01
def fcTag : Nat := 0x02
def fcSealed : Nat := 0x03
def fcPerm : Nat := 0x04
def fcBounds : Nat := 0x05
def fcAlign : Nat := 0x06
def fcFetch : Nat := 0x07
def fcBus : Nat := 0x08
def fcMpu : Nat := 0x09
def fcRetBad : Nat := 0x0A
def fcEretUnsealed : Nat := 0x0B
def fcScallNest : Nat := 0x0C
def fcScallBad : Nat := 0x0D
def fcSretBad : Nat := 0x0E
def fcPoisonUse : Nat := 0x0F
def fcBreak : Nat := 0x10

/-- The object types of Table ISA-4. -/
def otRet : Nat := 1
def otEret : Nat := 2
def otSentry : Nat := 3
def otSret : Nat := 4

/-- The ACCESS codes of Table EXC-1. -/
def acNone : Nat := 0
def acLoad : Nat := 1
def acStore : Nat := 2
def acFetch : Nat := 3

/-! ### The core address map (Table ISA-5) -/

/-- The regions of Table ISA-5. -/
inductive CoreReg where
  | rom | tcm (k : Nat) | sram | nv | cxl | culvert | bar0
deriving DecidableEq, Repr

/-- The region of a core address. -/
def coreRegion (x : Nat) : Option CoreReg :=
  if x < 0x40000 then some .rom
  else if 0x10000000 ≤ x && x < 0x10500000 then
    if (x - 0x10000000) % 0x100000 < 0x80000 then some (.tcm ((x - 0x10000000) / 0x100000)) else none
  else if sramBase ≤ x && x < sramBase + 0x400000 then some .sram
  else if 0x40000000 ≤ x && x < 0x41000000 then some .nv
  else if cxlBase ≤ x && x < culvertBase then some .cxl
  else if culvertBase ≤ x && x < culvertBase + 0x40000000 then some .culvert
  else if bar0Base ≤ x && x < bar0Base + 0x1000000 then some .bar0
  else none

/-- Regions that Table ISA-5 marks fetchable. -/
def CoreReg.fetchable : CoreReg → Bool
  | .rom | .tcm _ | .sram | .nv => true
  | _ => false

/-- On-chip SRAM: the tightly coupled memories and shared SRAM. -/
def onChip (x : Nat) : Bool := (codewordOf x).isSome

/-- The pair's own tightly coupled memory. -/
def ownTcm (k x : Nat) : Bool := coreRegion x = some (.tcm k)

/-! ### Checks (R302, R326) -/

/-- The rights that permissions ask of the MPU: R 1, W 2, X 4. -/
def mpuNeed (need : Nat) : Nat :=
  (if need &&& Perm.load ≠ 0 then 1 else 0) + (if need &&& Perm.store ≠ 0 then 2 else 0) + (if need &&& Perm.exec ≠ 0 then 4 else 0)

/-- The size, as its log2, that a region's attribute gives. -/
def mpuSize (attr : BitVec 64) : Nat := min 40 (max 5 (bitsOf attr.toNat 16 6))

/-- The attributes of the enabled regions that an address meets. -/
def Pair.mpuHits (p : Pair) (x : Nat) : List Nat :=
  (List.range 16).filterMap (fun i =>
    let at_ := Tbl.get (fun _ => 5 * 2 ^ 16) p.mpuAttr i
    let b := (Tbl.get (fun _ => 0) p.mpuBase i).toNat
    let z := 2 ^ mpuSize at_
    if bitAt at_.toNat 31 && x / z = b / z then some at_.toNat else none)

/-- The MPU check of R326: the fault it raises, if any. -/
def Pair.mpuCheck (p : Pair) (x need : Nat) : Option Nat :=
  let sys := p.pcc.has Perm.sys
  let r := mpuNeed need
  match p.mpuHits x with
  | [] =>
    if sys && (coreRegion x).isSome then
      if bitAt r 2 && !(match coreRegion x with | some c => c.fetchable | none => false) then some fcFetch else none
    else some fcMpu
  | hits => if hits.any (fun a => (a &&& r ≠ r) || (!sys && !bitAt a 3)) then some fcMpu else none

/-- The rules of R302 for the BAR 0 layout: the permission that the authority, or pcc, lacks. -/
def Pair.bar0Perm (p : Pair) (a : CReg) (x : Nat) : Bool :=
  if coreRegion x ≠ some .bar0 then true
  else
    let o := x - bar0Base
    if 0x400000 ≤ o && o < 0x800000 then a.has Perm.keyload
    else if R.DMA_CTL 0 ≤ o && o < R.DMA_CTL 64 then a.has Perm.dma
    else p.pcc.has Perm.sys

/-- The checks of R302 for `n` bytes at `x`, aligned to `al`: the code of the first that fails. -/
def Pair.checkAl (p : Pair) (a : CReg) (x n al need : Nat) : Option Nat :=
  if !a.tag then some fcTag
  else if a.otype ≠ 0 then some fcSealed
  else if !a.has need then some fcPerm
  else if decide ((x : Int) < a.base) || decide (a.top < ((x + n : Nat) : Int)) then some fcBounds
  else if x % al ≠ 0 then some fcAlign
  else if !p.bar0Perm a x then some fcPerm
  else p.mpuCheck x need

def Pair.check (p : Pair) (a : CReg) (x n need : Nat) : Option Nat := p.checkAl a x n n need

/-! ### Where an access goes (R163, R200, R302, R411) -/

/-- The access cannot be made now, or cannot be made at all: BUS. `acc` is its ACCESS code. -/
def State.busCheck (s : State) (x n acc : Nat) : Ex Unit :=
  let dom := fun (d : Nat) => if s.domOn d then Ex.ok () else Ex.stall d x acc
  match coreRegion x with
  | none => .fault fcBus acc (some x)
  | some .rom | some .sram => .ok ()
  | some (.tcm k) => if k = 0 then .ok () else dom (3 + k)
  | some .nv => dom dNva
  | some .cxl =>
    if x - cxlBase < 0xA0000000 then .fault fcBus acc (some x)
    else if !s.domOn dCxl then .stall dCxl x acc
    else if s.cxlSize < x - cxlBase + n then .fault fcBus acc (some x)
    else .ok ()
  | some .culvert =>
    if !s.fb F.CUL_WIN_CTL_EN || decide (s.winBytes < x - culvertBase + n) then .fault fcBus acc (some x)
    else if !s.cul.bme then .hold
    else .ok ()
  | some .bar0 => match s.regWaits (x - bar0Base) with | some d => .stall d x acc | none => .ok ()

/-- The same for the 64 bytes of an exception frame at `f`, granule by granule. -/
def State.busFrame (s : State) (f acc : Nat) : Ex Unit :=
  (s.busCheck f 16 acc).bind fun _ => (s.busCheck (f + 16) 16 acc).bind fun _ =>
    (s.busCheck (f + 32) 16 acc).bind fun _ => s.busCheck (f + 48) 16 acc

/-! ### Memory, tags and poison (R191, R299, R325) -/

def State.tagAt (s : State) (x : Nat) : Bool := Tbl.get (fun _ => false) s.tags (x / 16)
def State.setTag16 (s : State) (x : Nat) (b : Bool) : State := { s with tags := Tbl.set (fun _ => false) s.tags (x / 16) b }

/-- The stored poison of the codeword at a core address. -/
def State.poisonAt (s : State) (x : Nat) : Bool := match codewordOf x with | some (r, c) => s.poisoned r c | none => false

/-- A codeword that `n` bytes at a core address cover carries poison. -/
def State.spanBad (s : State) (x n : Nat) : Bool := onChip x && (s.firstPoison x n).isSome

/-- `n` bytes read at `x`: the bytes, whether they carry poison, and the state after; checks have passed. -/
def State.coreRead (s : State) (k x n : Nat) (i : AccIn) : Ex (List Byte × Bool × State) :=
  match coreRegion x with
  | some .rom => .ok ((rangeFrom x n).map Config.romByte, false, s)
  | some .nv => .ok (s.nvRead (x - 0x40000000) n, false, s)
  | some .cxl => .ok ((rangeFrom (x - cxlBase) n).map (fun j => Tbl.get (fun _ => 0) s.cxl j), i.bad, s)
  | some .culvert =>
    match i.host with
    | some b => .ok (fitB n b, false, s)
    | none => .fault fcBus acLoad (some x)
  | some .bar0 =>
    if h : k < 5 then
      if n = 4 then
        let (v, p, s) := s.regRead (.core ⟨k, h⟩) i (x - bar0Base)
        .ok (toLe 4 v.toNat, p, s)
      else .ok (fitB n [], false, s)
    else .ok (fitB n [], false, s)
  | _ =>
    let s := s.eccSpan x n i.ecc
    .ok (s.memRead x n, s.spanBad x n, s)

/-- Bytes written at `x` with a poison mark; the granule's tag is cleared (R189, R299). -/
def State.coreWrite (s : State) (k x : Nat) (bs : List Byte) (poison : Bool) (i : AccIn) : State :=
  match coreRegion x with
  | some .cxl => { s with cxl := memPut s.cxl (x - cxlBase) bs }
  | some .culvert => s.emit (.hostWrite (x - culvertBase) bs)
  | some .bar0 =>
    if h : k < 5 then
      if bs.length = 4 then s.regWrite (.core ⟨k, h⟩) (s.compOf k) i (x - bar0Base) (BitVec.ofNat 32 (leNat bs)) else s
    else s
  | some .sram | some (.tcm _) =>
    let s := s.memWrite x bs
    match poison, codewordOf x with
    | true, some (r, c) => s.setPoison r c
    | _, _ => s
  | _ => s

/-- The tag that a store of a capability leaves at `x` (R299). -/
def keepsTag (k x : Nat) (c : CReg) : Bool := c.tag && onChip x && (c.has Perm.global || ownTcm k x)

/-- A capability stored where checks have passed; `hw` where hardware pushes it (R325). -/
def State.putCap (s : State) (k x : Nat) (c : CReg) (hw : Bool) (i : AccIn) : State :=
  let s := s.coreWrite k x (toLe 16 c.v.toNat) c.poison i
  let own := c.otype = otRet || c.otype = otEret || c.otype = otSret
  s.doIf (keepsTag k x c && (hw || !own)) (fun s => s.setTag16 x true)

/-- The value of 16 bytes read at `x`, with the tag it may keep. -/
def capOf (bs : List Byte) (poison tag : Bool) : CReg := ⟨BitVec.ofNat 128 (leNat bs), tag && !poison, poison⟩

/-- An integer of the size code read from memory: zero- or sign-extended. -/
def loadInt (size : Nat) (bs : List Byte) (poison : Bool) : CReg :=
  let v := leNat bs
  CReg.int (if size = 5 then sextN 8 v else if size = 6 then sextN 16 v else if size = 7 then sextN 32 v else BitVec.ofNat 64 v) poison

/-- A load of a size code at `x` through `a`: check, BUS, and the value (R307). -/
def State.doLoad (s : State) (k : Nat) (a : CReg) (x size : Nat) (i : AccIn) : Ex (CReg × State) :=
  let p := s.pr k
  let n := sizeBytes size
  match p.check a x n Perm.load with
  | some c => .fault c acLoad (some x)
  | none => (s.busCheck x n acLoad).bind fun _ =>
      (s.coreRead k x n i).bind fun r =>
        .ok (if size = 4 then capOf r.1 r.2.1 (s.tagAt x && onChip x && a.has Perm.loadcap) else loadInt size r.1 r.2.1, r.2.2)

/-- A store of a size code at `x` through `a`, the stored register being number `rt` where one is named (R307). -/
def State.doStore (s : State) (k : Nat) (a : CReg) (x size : Nat) (v : CReg) (rt : Option Nat) (i : AccIn) : Ex State :=
  let p := s.pr k
  let n := sizeBytes size
  match p.check a x n Perm.store with
  | some c => .fault c acStore (some x)
  | none =>
    if size = 4 && v.tag && !a.has Perm.storecap then .fault fcPerm acStore (some x)
    else (s.busCheck x n acStore).bind fun _ =>
      if v.poison && !onChip x then .fault fcPoisonUse acNone rt
      else .ok (if size = 4 then s.putCap k x v false i else s.coreWrite k x (toLe n v.lo.toNat) v.poison i)

/-! ### Address modes (R303) -/

/-- What an addressing mode forms: the authority, the address, and the address the base register takes. -/
structure EffAddr where
  auth : CReg
  x : Nat
  back : Option Nat
deriving DecidableEq, Repr

/-- The address of a mode: `low` is the encoding's low 12 bits; poison in a register it uses is a fault (R191). -/
def Pair.effAddr (p : Pair) (rb mode size low : Nat) : Ex EffAddr :=
  let b := p.reg rb
  let wrap := fun (v : Int) => (v % (2 ^ 64 : Int)).toNat
  let n := sizeBytes size
  let d : Int := (sextN 12 low).toInt
  if mode = 4 then .ok ⟨p.pcc, wrap ((p.pcc.addr : Int) + (sextN 16 (rb * 4096 + low)).toInt), none⟩
  else if b.poison then .fault fcPoisonUse acNone (some rb)
  else if mode = 0 then .ok ⟨b, wrap ((b.addr : Int) + d), none⟩
  else if mode = 1 then .ok ⟨b, b.addr, some (b.addr + n)⟩
  else if mode = 2 then let x := wrap ((b.addr : Int) - n); .ok ⟨b, x, some x⟩
  else
    let ri := bitsOf low 8 4
    let sh := bitsOf low 6 2
    let o := p.reg ri
    if o.poison then .fault fcPoisonUse acNone (some ri)
    else .ok ⟨b, wrap ((b.addr : Int) + ((o.addr <<< sh : Nat) : Int)), none⟩

/-- The base register after an access of modes 1 and 2 (R298, R303). -/
def Pair.writeBack (p : Pair) (rb : Nat) (e : EffAddr) : Pair :=
  match e.back with
  | some a => p.setReg rb ((p.reg rb).setAddr a)
  | none => p

/-! ### Exception entry and the halt of a pair (R317, R320 to R323) -/

/-- A pair halts: its reason and the cause it was entering; the root pair hears of an application pair by interrupt
16 + k, and a halt of the root pair raises NOTIFY. -/
def State.haltPair (s : State) (k reason : Nat) (cause : BitVec 64) : State :=
  let s := (s.setF (F.DEV_PAIR_STS_STATE k) pHalted).setF (F.DEV_PAIR_STS_REASON k) reason
  let s := s.wr (R.DEV_PAIR_CAUSE k) (cause.setWidth 32)
  if k = 0 then s.notify 0x27 else (s.irq 0 (16 + k)).appsHalted k

/-- ecause or eval carries poison. -/
def Pair.causeBad (p : Pair) : Bool := decide (2 ∈ p.marked) || decide (3 ∈ p.marked)

/-- The 64 bytes of a frame and the tags of its first two granules (Table EXC-3, R322); what carries poison is stored
with it (R191). -/
def State.pushFrame (s : State) (k f : Nat) (p : Pair) (state : Nat) : State :=
  let saved := p.pcc.withType otEret
  let i : AccIn := ⟨none, false, [], [], 0, ⟨[], [], none, none, []⟩, [], false⟩
  let tail := toLe 8 p.ecause.toNat ++ toLe 8 p.eval.toNat ++ toLe 8 state ++ toLe 8 0
  let s := s.coreWrite k f (toLe 16 saved.v.toNat ++ toLe 16 p.scret.v.toNat ++ tail) false i
  let mark := fun (x : Nat) (s : State) => match codewordOf x with | some (r, c) => s.setPoison r c | none => s
  let s := (s.doIf p.scret.poison (mark (f + 16))).doIf p.causeBad (mark (f + 32))
  let s := s.doIf (keepsTag k f saved) (fun s => s.setTag16 f true)
  s.doIf (keepsTag k (f + 16) p.scret) (fun s => s.setTag16 (f + 16) true)

/-- What stops the frame of an exception at `f`: its checks, poison in csp or in what would leave the chip (R191), and
where its bytes go (R163, R320); and the wait for a domain. -/
def State.frameStop (s : State) (f : Nat) (p : Pair) : Ex Unit :=
  let csp := p.reg 15
  if csp.poison || ((p.scret.poison || p.causeBad) && !onChip f)
      || [0, 16, 32, 48].any (fun g => (p.check csp (f + g) 16 (Perm.store + Perm.storecap)).isSome) then .fault fcPoisonUse acNone none
  else s.busFrame f acStore

/-- enter of R320: a fault (`irq` none) or the interrupt source `code` at priority `irq`. An entry whose frame goes to a
domain that is not ON waits for it, and the instruction meets its fault again (R411). -/
def State.enter (s : State) (k code acc eval : Nat) (irq : Option Nat) : State :=
  let p := s.pr k
  let csp := p.reg 15
  let f := (csp.addr + 2 ^ 64 - 64) % 2 ^ 64
  let cause := BitVec.ofNat 64 ((if irq.isSome then 2 ^ 63 else 0) + acc * 2 ^ 8 + code)
  match s.frameStop f p with
  | .stall d y a => if d ∈ s.pwr.stuck then s.haltPair k 2 cause else s.coreStall k d y a
  | .hold => s
  | .fault _ _ _ | .trap _ _ _ _ => s.haltPair k 2 cause
  | .ok _ =>
  if !p.ecp.tag || p.ecp.otype ≠ 0 || !p.ecp.has Perm.exec then s.haltPair k 3 cause
  else
    let app := s.compOf k
    let cur := (s.rd (R.DEV_IRQ_CUR k)).toNat % 32
    let s := s.pushFrame k f p (cur + b2n p.repi.isSome * 2 ^ 8)
    let s := s.setPr k { p.setReg 15 (csp.setAddr f) with
      pcc := p.ecp, scret := CReg.null, ecause := cause, eval := BitVec.ofNat 64 eval, wfi := false, repi := none, stall := none,
      marked := p.marked.filter (fun n => n ≠ 2 && n ≠ 3) }
    match irq with
    | some lvl =>
      let a := R.DEV_IRQ_PEND (8 * k + code / 32)
      (s.wr (R.DEV_IRQ_CUR k) (BitVec.ofNat 32 (16 + lvl))).wr a (s.rd a &&& ~~~BitVec.ofNat 32 (2 ^ (code % 32)))
    | none => if app = 0xFFFF then s else s.appFault app cause (BitVec.ofNat 64 eval)

/-- The end of an instruction: its effect, the entry of its fault, or the wait for a domain; a stuck domain raises BUS (R413). -/
def State.settle (s : State) (k : Nat) (e : Ex State) : State :=
  match e with
  | .ok t => t
  | .fault c a (some v) => s.enter k c a v none
  | .fault c a none => let (v, t) := s.openBelow (2 ^ 64); t.enter k c a v none
  | .trap l c a v =>
    let s := s.forEach l (fun s x => s.eccSpan x.1 x.2.1 x.2.2)
    let (n, t) := match v with | some v => (v, s) | none => s.openBelow (2 ^ 64)
    t.enter k c a n none
  | .stall d x a => if d ∈ s.pwr.stuck then s.enter k fcBus a x none else s.coreStall k d x a
  | .hold => s

/-! ### Issue (R302, R316) -/

/-- The pair can issue an instruction. -/
def State.canIssue (s : State) (k : Nat) : Bool :=
  let p := s.pr k
  s.pairSt k = pRunning && !p.wfi && p.repi.isNone && p.stall.isNone

/-- The checks of a fetch at `x` (R302). -/
def State.fetchCheck (s : State) (k x : Nat) : Ex Unit :=
  let p := s.pr k
  match p.check p.pcc x 4 Perm.exec with
  | some c => .fault c acFetch (some x)
  | none =>
    match coreRegion x with
    | none => .fault fcBus acFetch (some x)
    | some r => if !r.fetchable then .fault fcFetch acFetch (some x) else s.busCheck x 4 acFetch

/-- The state after the read of an instruction's codewords, whose poison marks it may set (R188). -/
def State.fetched (s : State) (k x : Nat) (ecc : List EccHit) : State :=
  match s.fetchCheck k x with | .ok _ => s.eccSpan x 4 ecc | _ => s

/-- The read of the instruction after the one at `x`, where it lies in another codeword. -/
def nextReads (x : Nat) (ecc : List EccHit) : List (Nat × Nat × List EccHit) :=
  if codewordOf (x + 4) = codewordOf x then [] else [(x + 4, 4, ecc)]

/-- The fetch of the instruction at `x`: the checks, and a poisoned codeword (R190). -/
def State.fetch (s : State) (k x : Nat) : Ex Unit :=
  (s.fetchCheck k x).bind fun _ => if s.poisonAt x then .fault fcPoisonUse acFetch (some x) else .ok ()

/-- An instruction of pair k: its fetch, then its body; a fault leaves every register and memory unchanged (R316). -/
def State.issue (s : State) (k : Issue) (body : State → Pair → Ex State) : State :=
  if !s.canIssue k.val then s
  else
    let x := (s.pr k.val).pcc.addr
    let s := s.fetched k.val x k.ecc
    s.settle k.val ((s.fetch k.val x).bind fun _ => body s (s.pr k.val))

/-- pcc moves on by `n` bytes. -/
def Pair.adv (p : Pair) (n : Nat) : Pair := { p with pcc := p.pcc.setAddr (p.pcc.addr + n) }

/-- A register takes a value and execution goes on. -/
def State.put1 (s : State) (k : Nat) (p : Pair) (rd : Nat) (v : CReg) : Ex State := .ok (s.setPr k ((p.setReg rd v).adv 4))

end Sys2Proof.Machine
end

