-- ==== Sys2Proof/Machine/CpuRows.lean ====
section
/-! DEFINITION. The instructions of the control pairs (R304 to R315, Tables ISA-9 to ISA-11): one meaning for each. The
command names the pair and the instruction's fields; the pair fetches it at pcc. -/

namespace Sys2Proof.Machine

/-- Nothing comes from outside with the access. -/
def AccIn.blank : AccIn := ⟨none, false, [], [], 0, ⟨[], [], none, none, []⟩, [], false⟩

/-! ### Integer instructions (R305, R306) -/

/-- An operation on two registers. -/
def Pair.alu (p : Pair) (o : Alu) (rd a b : Nat) : Pair :=
  p.setReg rd (CReg.int (o.run (p.reg a).lo (p.reg b).lo) ((p.reg a).poison || (p.reg b).poison))

/-- An operation on a register and a sign-extended immediate of 12 bits. -/
def Pair.alui (p : Pair) (o : Alu) (rd a imm : Nat) : Pair :=
  p.setReg rd (CReg.int (o.run (p.reg a).lo (sextN 12 imm)) (p.reg a).poison)

def State.alu (s : State) (k : Issue) (o : Alu) (rd a b : Fin 16) : State :=
  s.issue k (fun s p => .ok (s.setPr k.val ((p.alu o rd.val a.val b.val).adv 4)))
def State.alui (s : State) (k : Issue) (o : Alu) (rd a : Fin 16) (imm : Nat) : State :=
  s.issue k (fun s p => .ok (s.setPr k.val ((p.alui o rd.val a.val imm).adv 4)))

/-- ADD. -/
def execAdd (pair : Issue) (rd rs1 rs2 : Fin 16) (s : State) : Res := .next (s.alu pair .add rd rs1 rs2)
/-- SUB. -/
def execSub (pair : Issue) (rd rs1 rs2 : Fin 16) (s : State) : Res := .next (s.alu pair .sub rd rs1 rs2)
/-- AND. -/
def execAnd (pair : Issue) (rd rs1 rs2 : Fin 16) (s : State) : Res := .next (s.alu pair .and rd rs1 rs2)
/-- OR. -/
def execOr (pair : Issue) (rd rs1 rs2 : Fin 16) (s : State) : Res := .next (s.alu pair .or rd rs1 rs2)
/-- XOR. -/
def execXor (pair : Issue) (rd rs1 rs2 : Fin 16) (s : State) : Res := .next (s.alu pair .xor rd rs1 rs2)
/-- SHL. -/
def execShl (pair : Issue) (rd rs1 rs2 : Fin 16) (s : State) : Res := .next (s.alu pair .shl rd rs1 rs2)
/-- SHR. -/
def execShr (pair : Issue) (rd rs1 rs2 : Fin 16) (s : State) : Res := .next (s.alu pair .shr rd rs1 rs2)
/-- SAR. -/
def execSar (pair : Issue) (rd rs1 rs2 : Fin 16) (s : State) : Res := .next (s.alu pair .sar rd rs1 rs2)
/-- SLT. -/
def execSlt (pair : Issue) (rd rs1 rs2 : Fin 16) (s : State) : Res := .next (s.alu pair .slt rd rs1 rs2)
/-- SLTU. -/
def execSltu (pair : Issue) (rd rs1 rs2 : Fin 16) (s : State) : Res := .next (s.alu pair .sltu rd rs1 rs2)
/-- MUL. -/
def execMul (pair : Issue) (rd rs1 rs2 : Fin 16) (s : State) : Res := .next (s.alu pair .mul rd rs1 rs2)
/-- MULHU. -/
def execMulhu (pair : Issue) (rd rs1 rs2 : Fin 16) (s : State) : Res := .next (s.alu pair .mulhu rd rs1 rs2)
/-- MULHS. -/
def execMulhs (pair : Issue) (rd rs1 rs2 : Fin 16) (s : State) : Res := .next (s.alu pair .mulhs rd rs1 rs2)
/-- DIVU. -/
def execDivu (pair : Issue) (rd rs1 rs2 : Fin 16) (s : State) : Res := .next (s.alu pair .divu rd rs1 rs2)
/-- DIVS. -/
def execDivs (pair : Issue) (rd rs1 rs2 : Fin 16) (s : State) : Res := .next (s.alu pair .divs rd rs1 rs2)
/-- REMU. -/
def execRemu (pair : Issue) (rd rs1 rs2 : Fin 16) (s : State) : Res := .next (s.alu pair .remu rd rs1 rs2)
/-- REMS. -/
def execRems (pair : Issue) (rd rs1 rs2 : Fin 16) (s : State) : Res := .next (s.alu pair .rems rd rs1 rs2)

/-- ADDI. -/
def execAddi (pair : Issue) (rd rs1 : Fin 16) (imm : BitVec 12) (s : State) : Res := .next (s.alui pair .add rd rs1 imm.toNat)
/-- ANDI. -/
def execAndi (pair : Issue) (rd rs1 : Fin 16) (imm : BitVec 12) (s : State) : Res := .next (s.alui pair .and rd rs1 imm.toNat)
/-- ORI. -/
def execOri (pair : Issue) (rd rs1 : Fin 16) (imm : BitVec 12) (s : State) : Res := .next (s.alui pair .or rd rs1 imm.toNat)
/-- XORI. -/
def execXori (pair : Issue) (rd rs1 : Fin 16) (imm : BitVec 12) (s : State) : Res := .next (s.alui pair .xor rd rs1 imm.toNat)
/-- SLTI. -/
def execSlti (pair : Issue) (rd rs1 : Fin 16) (imm : BitVec 12) (s : State) : Res := .next (s.alui pair .slt rd rs1 imm.toNat)
/-- SLTUI. -/
def execSltui (pair : Issue) (rd rs1 : Fin 16) (imm : BitVec 12) (s : State) : Res := .next (s.alui pair .sltu rd rs1 imm.toNat)
/-- SHLI. -/
def execShli (pair : Issue) (rd rs1 : Fin 16) (imm : BitVec 6) (s : State) : Res := .next (s.alui pair .shl rd rs1 imm.toNat)
/-- SHRI. -/
def execShri (pair : Issue) (rd rs1 : Fin 16) (imm : BitVec 6) (s : State) : Res := .next (s.alui pair .shr rd rs1 imm.toNat)
/-- SARI. -/
def execSari (pair : Issue) (rd rs1 : Fin 16) (imm : BitVec 6) (s : State) : Res := .next (s.alui pair .sar rd rs1 imm.toNat)

/-- LI. -/
def execLi (pair : Issue) (rd : Fin 16) (imm : BitVec 22) (s : State) : Res :=
  .next (s.issue pair (fun s p => s.put1 pair.val p rd.val (CReg.int (imm.signExtend 64) false)))

/-- LIS: the register moves up by 22 bits and takes the immediate below. -/
def execLis (pair : Issue) (rd : Fin 16) (imm : BitVec 22) (s : State) : Res :=
  .next (s.issue pair (fun s p =>
    let c := p.reg rd.val
    s.put1 pair.val p rd.val (CReg.int (c.lo <<< 22 ||| imm.setWidth 64) c.poison)))

/-! ### Memory instructions (R303, R307) -/

/-- A register takes a loaded value and the base register is written back; where both are one register the manual does
not say which value it keeps. -/
def State.loadAndBack (s : State) (p : Pair) (rt rb : Nat) (e : EffAddr) (v : CReg) : Pair × State :=
  if rt = rb && e.back.isSome then
    let (w, s) := s.openBelow 2
    (if w = 0 then (p.writeBack rb e).setReg rt v else (p.setReg rt v).writeBack rb e, s)
  else ((p.writeBack rb e).setReg rt v, s)

/-- LD without the move of pcc. -/
def State.ldOp (s : State) (k rt rb mode size low : Nat) (x : AccIn) : Ex State :=
  ((s.pr k).effAddr rb mode size low).bind fun e =>
    (s.doLoad k e.auth e.x size x).bind fun r =>
      let (p, s) := r.2.loadAndBack (r.2.pr k) rt rb e r.1
      .ok (s.setPr k p)

/-- ST without the move of pcc. -/
def State.stOp (s : State) (k rt rb mode size low : Nat) (x : AccIn) : Ex State :=
  ((s.pr k).effAddr rb mode size low).bind fun e =>
    (s.doStore k e.auth e.x size ((s.pr k).reg rt) (some rt) x).bind fun s =>
      .ok (s.setPr k ((s.pr k).writeBack rb e))

/-- MCPY without the move of pcc. -/
def State.mcpyOp (s : State) (k rd rs1 size : Nat) (x y : AccIn) : Ex State :=
  let p := s.pr k
  let a := p.reg rs1
  let b := p.reg rd
  let n := sizeBytes size
  if a.poison then .fault fcPoisonUse acNone (some rs1)
  else if b.poison then .fault fcPoisonUse acNone (some rd)
  else
    match p.check a a.addr n Perm.load, p.check b b.addr n Perm.store with
    | some c, _ => .fault c acLoad (some a.addr)
    | none, some c => .fault c acStore (some b.addr)
    | none, none =>
      (s.doLoad k a a.addr size x).bind fun r =>
        ((r.2.doStore k b b.addr size r.1 none y).after [(a.addr, n, x.ecc)]).bind fun s =>
          let p := s.pr k
          let p := p.setReg rs1 ((p.reg rs1).setAddr ((p.reg rs1).addr + n))
          .ok (s.setPr k (p.setReg rd ((p.reg rd).setAddr ((p.reg rd).addr + n))))

/-- The instruction is complete: pcc moves on. -/
def State.done (s : State) (k n : Nat) : Ex State := .ok (s.setPr k ((s.pr k).adv n))

/-- An encoding that is not defined raises ILLEGAL with its word (R304). -/
def ifLegal (ok : Bool) (w : Word) (e : Ex State) : Ex State := if ok then e else .fault fcIllegal acNone (some w.toNat)

/-- LD. -/
def execLd (pair : Issue) (rt rb : Fin 16) (mode size : Fin 8) (low : BitVec 12) (x : AccIn) (s : State) : Res :=
  let k := pair.val
  .next (s.issue pair (fun s _ =>
    ifLegal (memFormOk true mode.val size.val low.toNat) (encM 8 rt.val rb.val mode.val size.val low.toNat)
      ((s.ldOp k rt.val rb.val mode.val size.val low.toNat x).bind fun s => s.done k 4)))

/-- ST. -/
def execSt (pair : Issue) (rt rb : Fin 16) (mode size : Fin 8) (low : BitVec 12) (x : AccIn) (s : State) : Res :=
  let k := pair.val
  .next (s.issue pair (fun s _ =>
    ifLegal (memFormOk false mode.val size.val low.toNat) (encM 9 rt.val rb.val mode.val size.val low.toNat)
      ((s.stOp k rt.val rb.val mode.val size.val low.toNat x).bind fun s => s.done k 4)))

/-- The address of LEA: no access and no check, so a poisoned register only marks the result. -/
def Pair.leaAddr (p : Pair) (rb mode size low : Nat) : EffAddr × Bool :=
  let clean := fun (c : CReg) => { c with poison := false }
  let q := { p with c := p.c.map (fun (e : Nat × CReg) => (e.1, clean e.2)) }
  let bad := (mode ≠ 4 && (p.reg rb).poison) || (mode = 3 && (p.reg (bitsOf low 8 4)).poison)
  match q.effAddr rb mode size low with
  | .ok e => ({ e with auth := if mode = 4 then p.pcc else p.reg rb }, bad)
  | _ => (⟨p.pcc, 0, none⟩, bad)

/-- LEA. -/
def execLea (pair : Issue) (rt rb : Fin 16) (mode size : Fin 8) (low : BitVec 12) (s : State) : Res :=
  let k := pair.val
  .next (s.issue pair (fun s p =>
    ifLegal (memFormOk false mode.val size.val low.toNat) (encM 0xA rt.val rb.val mode.val size.val low.toNat)
      (let e : EffAddr × Bool := p.leaAddr rb.val mode.val size.val low.toNat
       let v := e.1.auth.setAddr e.1.x
       let r := s.loadAndBack p rt.val rb.val e.1 { v with poison := v.poison || e.2 }
       .ok (r.2.setPr k (r.1.adv 4)))))

/-- An atomic operation: what is written for the old doubleword, and whether anything is. -/
def State.atomic (s : State) (k rd rs1 rs2 : Nat) (cas : Bool) (f : BitVec 64 → BitVec 64 → BitVec 64) (i : AccIn) : Ex State :=
  let p := s.pr k
  let a := p.reg rs1
  let x := a.addr
  if a.poison then .fault fcPoisonUse acNone (some rs1)
  else match p.check a x 8 (Perm.load + Perm.store) with
    | some c => .fault c acStore (some x)
    | none =>
      if !onChip x then .fault fcBus acStore (some x)
      else (s.busCheck x 8 acStore).bind fun _ =>
        let s := s.eccSpan x 8 i.ecc
        let old := BitVec.ofNat 64 (leNat (s.memRead x 8))
        let bad := s.poisonAt x
        let b := p.reg rs2
        let same := !cas || old = (p.reg rd).lo
        let s := if same then s.coreWrite k x (toLe 8 (f old b.lo).toNat) b.poison i else s
        .ok (s.setPr k (((s.pr k).setReg rd (CReg.int old (bad || b.poison || (cas && (p.reg rd).poison)))).adv 4))

/-- CAS. -/
def execCas (pair : Issue) (rd rs1 rs2 : Fin 16) (x : AccIn) (s : State) : Res :=
  .next (s.issue pair (fun s _ => s.atomic pair.val rd.val rs1.val rs2.val true (fun _ b => b) x))

/-- SWAP. -/
def execSwap (pair : Issue) (rd rs1 rs2 : Fin 16) (x : AccIn) (s : State) : Res :=
  .next (s.issue pair (fun s _ => s.atomic pair.val rd.val rs1.val rs2.val false (fun _ b => b) x))

/-- AMOADD. -/
def execAmoadd (pair : Issue) (rd rs1 rs2 : Fin 16) (x : AccIn) (s : State) : Res :=
  .next (s.issue pair (fun s _ => s.atomic pair.val rd.val rs1.val rs2.val false (fun old b => old + b) x))

/-- MCPY: `x` goes with its load, `y` with its store. -/
def execMcpy (pair : Issue) (rd rs1 : Fin 16) (size : Fin 5) (x y : AccIn) (s : State) : Res :=
  let k := pair.val
  .next (s.issue pair (fun s _ => (s.mcpyOp k rd.val rs1.val size.val x y).bind fun s => s.done k 4))

/-! ### Branches, calls and returns (R305, R309, R312) -/

/-- pcc moves by a signed count of words. -/
def Pair.jump (p : Pair) (w : Int) : Pair := { p with pcc := p.pcc.setAddr (((p.pcc.addr : Int) + 4 * w) % (2 ^ 64 : Int)).toNat }

/-- Bcond. -/
def execBcond (pair : Issue) (cond : Fin 6) (rs1 rs2 : Fin 16) (off : BitVec 15) (s : State) : Res :=
  let k := pair.val
  .next (s.issue pair (fun s p =>
    let a := p.reg rs1.val
    let b := p.reg rs2.val
    if a.poison then .fault fcPoisonUse acNone (some rs1.val)
    else if b.poison then .fault fcPoisonUse acNone (some rs2.val)
    else .ok (s.setPr k (if condHolds cond.val a.lo b.lo then p.jump off.toInt else p.adv 4))))

/-- JMP. -/
def execJmp (pair : Issue) (off : BitVec 26) (s : State) : Res :=
  .next (s.issue pair (fun s p => .ok (s.setPr pair.val (p.jump off.toInt))))

/-- The target of JR and CALLR: tagged, unsealed and with EXEC. -/
def Pair.target (p : Pair) (r : Nat) : Ex CReg :=
  let c := p.reg r
  if c.poison then .fault fcPoisonUse acNone (some r)
  else if !c.tag then .fault fcTag acFetch (some c.addr)
  else if c.otype ≠ 0 then .fault fcSealed acFetch (some c.addr)
  else if !c.has Perm.exec then .fault fcPerm acFetch (some c.addr)
  else .ok c

/-- The push of CALL and CALLR, with the target that pcc then takes. -/
def State.callTo (s : State) (k : Nat) (t : CReg) (x : AccIn) : Ex State :=
  let p := s.pr k
  let csp := p.reg 15
  let at_ := (csp.addr + 2 ^ 64 - 16) % 2 ^ 64
  let ret := (p.pcc.setAddr (p.pcc.addr + 4)).withType otRet
  if csp.poison then .fault fcPoisonUse acNone (some 15)
  else match p.check csp at_ 16 (Perm.store + Perm.storecap) with
    | some c => .fault c acStore (some at_)
    | none => (s.busCheck at_ 16 acStore).bind fun _ =>
        let s := s.putCap k at_ ret true x
        .ok (s.setPr k { (s.pr k).setReg 15 (csp.setAddr at_) with pcc := t })

/-- CALL. -/
def execCall (pair : Issue) (off : BitVec 26) (x : AccIn) (s : State) : Res :=
  .next (s.issue pair (fun s p => s.callTo pair.val (p.jump off.toInt).pcc x))

/-- JR. -/
def execJr (pair : Issue) (rs1 : Fin 16) (s : State) : Res :=
  .next (s.issue pair (fun s p => (p.target rs1.val).bind fun c => .ok (s.setPr pair.val { p with pcc := c })))

/-- CALLR. -/
def execCallr (pair : Issue) (rs1 : Fin 16) (x : AccIn) (s : State) : Res :=
  .next (s.issue pair (fun s p => (p.target rs1.val).bind fun c => s.callTo pair.val c x))

/-- RET. -/
def execRet (pair : Issue) (x : AccIn) (s : State) : Res :=
  let k := pair.val
  .next (s.issue pair (fun s p =>
    let csp := p.reg 15
    let a := csp.addr
    if csp.poison then .fault fcPoisonUse acNone (some 15)
    else (s.doLoad k csp a 4 x).bind fun r =>
      let v := r.1
      let s := r.2
      if !v.tag || v.otype ≠ otRet || v.poison then .trap [(a, 16, x.ecc)] fcRetBad acNone (some a)
      else
        let s := s.setTag16 a false
        .ok (s.setPr k { (s.pr k).setReg 15 (csp.setAddr (a + 16)) with pcc := v.withType 0 })))

/-! ### Special registers and the system instructions (R300, R312, R324, R326) -/

/-- A special register as CSRR reads it. -/
def Pair.special (p : Pair) (sel : Nat) : CReg :=
  match sel with
  | 0 => p.pcc
  | 1 => p.ecp
  | 2 => CReg.int p.ecause (p.marked.contains 2)
  | 3 => CReg.int p.eval (p.marked.contains 3)
  | 4 => p.scentry
  | 5 => p.scsp
  | 6 => p.scret
  | n =>
    if n < 0x30 then CReg.int (Tbl.get (fun _ => 0) p.mpuBase (n - 0x20)) (p.marked.contains n)
    else CReg.int (Tbl.get (fun _ => 5 * 2 ^ 16) p.mpuAttr (n - 0x30)) (p.marked.contains n)

/-- A special register written by CSRW, with its poison (R191): reserved bits of the MPU registers stay 0 (Tables EXC-4,
EXC-5). -/
def Pair.setSpecial (p : Pair) (sel : Nat) (c : CReg) : Pair :=
  let p := { p with marked := p.marked.filter (· ≠ sel) ++ (if c.poison && sel ∉ [1, 4, 5, 6] then [sel] else []) }
  match sel with
  | 1 => { p with ecp := c }
  | 2 => { p with ecause := c.lo }
  | 3 => { p with eval := c.lo }
  | 4 => { p with scentry := if c.tag && c.otype = 0 then c.withType otSentry else { c with tag := false } }
  | 5 => { p with scsp := c }
  | 6 => { p with scret := c }
  | n =>
    if n < 0x30 then { p with mpuBase := Tbl.set (fun _ => 0) p.mpuBase (n - 0x20) (c.lo &&& 0xFFFFFFFFFFFFFFE0) }
    else { p with mpuAttr := Tbl.set (fun _ => 5 * 2 ^ 16) p.mpuAttr (n - 0x30) (c.lo &&& 0x803F000F) }

/-- A special register access: a SEL that Table ISA-6 does not list, then SYS in pcc. -/
def Pair.selCheck (p : Pair) (sel : Nat) (w : Word) (e : Ex State) : Ex State :=
  if !selOk sel then .fault fcIllegal acNone (some w.toNat)
  else if !p.pcc.has Perm.sys then .fault fcPerm acNone none
  else e

/-- CSRR. -/
def execCsrr (pair : Issue) (rd : Fin 16) (sel : BitVec 8) (s : State) : Res :=
  .next (s.issue pair (fun s p =>
    p.selCheck sel.toNat (encS rd.val sel.toNat 1) (s.put1 pair.val p rd.val (p.special sel.toNat))))

/-- CSRW. -/
def execCsrw (pair : Issue) (rs : Fin 16) (sel : BitVec 8) (s : State) : Res :=
  let w := encS rs.val sel.toNat 2
  .next (s.issue pair (fun s p =>
    p.selCheck sel.toNat w
      (if sel = 0 then .fault fcIllegal acNone (some w.toNat)
       else .ok (s.setPr pair.val ((p.setSpecial sel.toNat (p.reg rs.val)).adv 4)))))

/-- SCALL. -/
def execScall (pair : Issue) (s : State) : Res :=
  .next (s.issue pair (fun s p =>
    if p.scret.tag then .fault fcScallNest acNone (some 0)
    else if !p.scentry.tag || p.scentry.otype ≠ otSentry then .fault fcScallBad acNone (some 0)
    else .ok (s.setPr pair.val { p.setReg 15 p.scsp with
      scret := (p.pcc.setAddr (p.pcc.addr + 4)).withType otSret, scsp := p.reg 15, pcc := p.scentry.withType 0 })))

/-- SRET. -/
def execSret (pair : Issue) (s : State) : Res :=
  .next (s.issue pair (fun s p =>
    if !p.scret.tag || p.scret.otype ≠ otSret then .fault fcSretBad acNone (some 0)
    else .ok (s.setPr pair.val { p.setReg 15 p.scsp with
      scsp := p.reg 15, pcc := p.scret.withType 0, scret := CReg.null })))

/-- RETX: the frame at csp is checked as one range, by the granule for alignment and the MPU. -/
def execRetx (pair : Issue) (x : AccIn) (s : State) : Res :=
  let k := pair.val
  .next (s.issue pair (fun s p =>
    let csp := p.reg 15
    let f := csp.addr
    if csp.poison then .fault fcPoisonUse acNone (some 15)
    else
      let bad := (p.checkAl csp f 64 16 Perm.load) <|> ([16, 32, 48].filterMap (fun g => p.check csp (f + g) 16 Perm.load)).head?
      match bad with
      | some c => .fault c acLoad (some f)
      | none => (s.busFrame f acLoad).bind fun _ => (s.coreRead k f 64 x).bind fun r =>
          let b := r.1
          let s := r.2.2
          let tagAt := fun (a : Nat) => s.tagAt a && onChip a && !s.poisonAt a
          let saved := capOf (b.take 16) (s.poisonAt f) (tagAt f && csp.has Perm.loadcap)
          if !saved.tag || saved.otype ≠ otEret then .trap [(f, 64, x.ecc)] fcEretUnsealed acNone (some f)
          else
            let sr := capOf (sliceB b 16 16) (s.poisonAt (f + 16)) (tagAt (f + 16))
            let cur := BitVec.ofNat 32 (leAt b 0x30 8 % 32)
            let s := s.doIf (p.pcc.has Perm.sys) (fun s => s.wr (R.DEV_IRQ_CUR k) cur)
            let s := s.forEach [0, 16, 32, 48] (fun s g => s.setTag16 (f + g) false)
            .ok (s.setPr k { p.setReg 15 (csp.setAddr (f + 64)) with
              pcc := saved.withType 0, scret := if sr.tag && sr.otype = otSret then sr else CReg.null,
              ecause := BitVec.ofNat 64 (leAt b 0x20 8), eval := BitVec.ofNat 64 (leAt b 0x28 8),
              marked := p.marked.filter (fun n => n ≠ 2 && n ≠ 3) ++ (if s.poisonAt (f + 0x20) then [2, 3] else []) })))

/-- FENCE: every access of the model is complete when its instruction is (R308). -/
def execFence (pair : Issue) (s : State) : Res :=
  .next (s.issue pair (fun s p => .ok (s.setPr pair.val (p.adv 4))))

/-- WFI. -/
def execWfi (pair : Issue) (s : State) : Res :=
  .next (s.issue pair (fun s p =>
    if !p.pcc.has Perm.sys then .fault fcPerm acNone none
    else .ok (s.setPr pair.val { p.adv 4 with wfi := true })))

/-- EBREAK. -/
def execEbreak (pair : Issue) (s : State) : Res :=
  .next (s.issue pair (fun _ _ => .fault fcBreak acNone (some 0)))

/-! ### Repeat prefixes (R313 to R315) -/

/-- One iteration of a repeated instruction. -/
def State.runRep (s : State) (k : Nat) (o : RepOp) (x y : AccIn) : Ex State :=
  match o with
  | .alu a rd r1 r2 => .ok (s.setPr k ((s.pr k).alu a rd r1 r2))
  | .alui a rd r1 imm => .ok (s.setPr k ((s.pr k).alui a rd r1 imm))
  | .ld rt rb m z => s.ldOp k rt rb m z 0 x
  | .st rt rb m z => s.stOp k rt rb m z 0 x
  | .mcpy rd r1 z => s.mcpyOp k rd r1 z x y

/-- The read that an iteration makes of on-chip memory. -/
def State.repReads (s : State) (k : Nat) (o : RepOp) (x : AccIn) : List (Nat × Nat × List EccHit) :=
  match o with
  | .ld _ rb m z => match (s.pr k).effAddr rb m z 0 with | .ok e => [(e.x, sizeBytes z, x.ecc)] | _ => []
  | .mcpy _ r1 z => [(((s.pr k).reg r1).addr, sizeBytes z, x.ecc)]
  | _ => []

/-- `n` iterations in order. -/
def State.runReps (k : Nat) (o : RepOp) : Nat → List (AccIn × AccIn) → State → Ex State
  | 0, _, s => .ok s
  | n + 1, xs, s =>
    let i := xs.headD (AccIn.blank, AccIn.blank)
    (s.runRep k o i.1 i.2).bind fun t => (State.runReps k o n xs.tail t).after (s.repReads k o i.1)

/-- REP: `n` is the field count - 1, `word` the instruction that follows. -/
def execRep (pair : Issue) (n : Fin 16) (word : Word) (xs : List (AccIn × AccIn)) (s : State) : Res :=
  let k := pair.val
  .next (s.issue pair (fun s p =>
    let y := p.pcc.addr + 4
    let l := nextReads p.pcc.addr pair.ecc
    let s := if l = [] then s else s.fetched k y pair.ecc
    Ex.after l <| (s.fetch k y).bind fun _ =>
      match repOpOf word with
      | none => .fault fcIllegal acNone (some (encP 0x3E n.val).toNat)
      | some o => (State.runReps k o (n.val + 1) xs s).bind fun s => s.done k 8))

/-- REPI: the sequence starts, or c13 is 0 and it is over. -/
def execRepi (pair : Issue) (word : Word) (s : State) : Res :=
  let k := pair.val
  .next (s.issue pair (fun s p =>
    let y := p.pcc.addr + 4
    let l := nextReads p.pcc.addr pair.ecc
    let s := if l = [] then s else s.fetched k y pair.ecc
    Ex.after l <| (s.fetch k y).bind fun _ =>
      let c := p.reg 13
      match repOpOf word with
      | none => .fault fcIllegal acNone (some (encP 0x3F 0).toNat)
      | some o =>
        if o.names 13 || c.tag || decide (2 ^ 32 < c.lo.toNat) then .fault fcIllegal acNone (some (encP 0x3F 0).toNat)
        else if c.lo = 0 then s.done k 8
        else .ok (s.setPr k { p with repi := some o })))

/-- REPI_ITERATION: one iteration, and c13 counts down. -/
def execRepiIteration (pair : Fin 5) (x y : AccIn) (s : State) : Res :=
  let k := pair.val
  let p := s.pr k
  match p.repi with
  | none => .next s
  | some o =>
    if s.pairSt k ≠ pRunning || p.stall.isSome then .next s
    else .next (s.settle k ((s.runRep k o x y).bind fun s =>
      let p := s.pr k
      let c := p.reg 13
      let p := p.setReg 13 (CReg.int (c.lo - 1) c.poison)
      .ok (s.setPr k (if c.lo = 1 then { p.adv 8 with repi := none } else p))))

/-- ILLEGAL_INSTRUCTION: a word that encodes no instruction. -/
def execIllegalInstruction (pair : Issue) (word : Word) (s : State) : Res :=
  .next (s.issue pair (fun _ _ => if wordDefined word then .hold else .fault fcIllegal acNone (some word.toNat)))

/-! ### Capability instructions (R310, R311) -/

/-- A result of a capability operation on two registers, with their poison. -/
def State.capOp (s : State) (k : Issue) (rd a b : Fin 16) (f : CReg → CReg → CReg) : State :=
  s.issue k (fun s p =>
    let x := p.reg a.val
    let y := p.reg b.val
    let v := f x y
    s.put1 k.val p rd.val { v with poison := x.poison || y.poison })

/-- CMV. -/
def execCmv (pair : Issue) (rd rs1 : Fin 16) (s : State) : Res := .next (s.capOp pair rd rs1 rs1 (fun a _ => a))
/-- CADDR. -/
def execCaddr (pair : Issue) (rd rs1 rs2 : Fin 16) (s : State) : Res := .next (s.capOp pair rd rs1 rs2 (fun a b => a.setAddr b.addr))
/-- CDROP. -/
def execCdrop (pair : Issue) (rd rs1 rs2 : Fin 16) (s : State) : Res := .next (s.capOp pair rd rs1 rs2 (fun a b => a.drop b.addr))
/-- CCLIP. -/
def execCclip (pair : Issue) (rd rs1 rs2 : Fin 16) (s : State) : Res := .next (s.capOp pair rd rs1 rs2 (fun a b => a.clip b.addr))
/-- CCLIPX. -/
def execCclipx (pair : Issue) (rd rs1 rs2 : Fin 16) (s : State) : Res := .next (s.capOp pair rd rs1 rs2 (fun a b => a.clipx b.addr))
/-- CBIND. -/
def execCbind (pair : Issue) (rd rs1 rs2 : Fin 16) (s : State) : Res := .next (s.capOp pair rd rs1 rs2 CReg.bind)
/-- CUNBIND. -/
def execCunbind (pair : Issue) (rd rs1 rs2 : Fin 16) (s : State) : Res := .next (s.capOp pair rd rs1 rs2 CReg.unbind)
/-- CSTRIP. -/
def execCstrip (pair : Issue) (rd rs1 : Fin 16) (s : State) : Res :=
  .next (s.capOp pair rd rs1 rs1 (fun a _ => { a with tag := false }))
/-- CWITHIN. -/
def execCwithin (pair : Issue) (rd rs1 rs2 : Fin 16) (s : State) : Res := .next (s.capOp pair rd rs1 rs2 (fun a b => CReg.int (if a.within b then 1 else 0) false))
/-- CSAME. -/
def execCsame (pair : Issue) (rd rs1 rs2 : Fin 16) (s : State) : Res := .next (s.capOp pair rd rs1 rs2 (fun a b => CReg.int (if a.tag = b.tag && a.v = b.v then 1 else 0) false))

/-- CINSP: a selector above 7 is no encoding. -/
def execCinsp (pair : Issue) (rd rs1 : Fin 16) (sel : BitVec 12) (s : State) : Res :=
  .next (s.issue pair (fun s p =>
    ifLegal (decide (sel.toNat ≤ 7)) (encI 0x21 rd.val rs1.val 0 sel.toNat)
      (s.put1 pair.val p rd.val (CReg.int ((p.reg rs1.val).inspect sel.toNat) (p.reg rs1.val).poison))))

/-- CADDI. -/
def execCaddi (pair : Issue) (rd rs1 : Fin 16) (imm : BitVec 12) (s : State) : Res :=
  .next (s.issue pair (fun s p =>
    let c := p.reg rs1.val
    s.put1 pair.val p rd.val (c.setAddr (((c.addr : Int) + imm.toInt) % (2 ^ 64 : Int)).toNat)))

/-! ### Pairs and interrupts (R301, R317, R327, R331) -/

/-- DEV_IRQ_SET_WRITE: software source `src` of a pair. -/
def execDevIrqSetWrite (pair : Fin 5) (src : Fin 16) (s : State) : Res := .next (s.irqSet pair.val src.val)

/-- The domain of an application pair is not ON: the access that names the pair wakes it first. -/
def State.pairAsleep (s : State) (k : Nat) : Bool := decide (0 < k) && !s.domOn (3 + k)

/-- PAIR_START: a write of DEV_PAIR_CTL_k with START. -/
def execPairStart (pair : Fin 5) (s : State) : Res :=
  .next (if s.pairAsleep pair.val then s.domWake (3 + pair.val) else s.pairCtl pair.val 2)

/-- PAIR_RESET: a write of DEV_PAIR_CTL_k with RESET. -/
def execPairReset (pair : Fin 5) (s : State) : Res :=
  .next (if s.pairAsleep pair.val then s.domWake (3 + pair.val) else s.pairCtl pair.val 1)

/-- INTERRUPT_TAKE: between instructions, or between the iterations of REPI; an enabled source wakes the pair's domain. -/
def execInterruptTake (pair : Fin 5) (s : State) : Res :=
  let k := pair.val
  match s.irqNext k with
  | none => .next s
  | some (src, prio) =>
    if s.pairAsleep k then .next (s.domWake (3 + k))
    else if s.pairSt k ≠ pRunning || (s.pr k).stall.isSome then .next s
    else if s.fb (F.DEV_IRQ_CUR_ACTIVE k) && decide (prio ≤ s.f (F.DEV_IRQ_CUR_LEVEL k)) then .next s
    else .next (s.enter k src acNone 0 (some prio))

/-- LOCKSTEP_MISMATCH: the pair halts, QUIESCE is raised, and the root pair hears of an application pair. -/
def execLockstepMismatch (pair : Fin 5) (s : State) : Res :=
  let k := pair.val
  if s.pairSt k ≠ pRunning then .next s
  else
    let s := (s.setF (F.DEV_PAIR_STS_STATE k) pHalted).setF (F.DEV_PAIR_STS_REASON k) 1
    let s := s.doIf (k ≠ 0) (fun s => (s.irq 0 (16 + k)).appsHalted k)
    .next (s.respond 0x20 3 k)

end Sys2Proof.Machine
end

