-- ==== Sys2Proof/Machine/EgrRows.lean ====
section
/-! DEFINITION. The transmissions of a lane: start, FCS of a cut-through copy, and end (R84 to R92, R108, R117, R148). -/

namespace Sys2Proof.Machine

/-- The bytes of a Pdelay_Req on the lane, destination address to FCS. -/
def State.pdelayLen (s : State) (k : Nat) : Nat := (s.pdelayReq k).length + 4

/-- A preempted copy may resume: the gate of its class is open (R85, R88). -/
def State.mayResume (s : State) (x : Nat × FCopy) : Bool := s.txGate x.2.port x.2.cls

/-- A free lane takes its next transmission in the order of R84: a due Dike copy, a frame of the Clearing's task, the
preempted copy before any other of its kind (R87), and the next copy of classes 6 to 0. -/
def State.egressIdle (s : State) (k : Nat) : State :=
  match (s.dikeHead k).filter (s.dikeDue k) with
  | some x => s.startId x
  | none =>
    if (s.lane k).pdReq && s.calMaySend k (s.pdelayLen k) then s.sendPdelay k
    else if decide (0 < (s.lane k).calLeft) && s.calMaySend k 96 then s.sendCal k
    else
      match s.preemptedOn k with
      | some x => if s.mayResume x then s.resume k x else s
      | none =>
        match s.nextLow k [6, 5, 4, 3, 2, 1, 0] with
        | some x => s.startLow k x
        | none => s.lowStarve k

/-- A lane whose transmission is a preemptable copy gives way to a due Dike copy where preemption is active (R84, R87). -/
def State.egressBusy (s : State) (k : Nat) (x : Nat × FCopy) : State :=
  match (s.dikeHead k).filter (s.dikeDue k) with
  | some y => if s.mmActive k && s.preemptable k x.2 then ((s.preempt k x).taskNow k).startId y else s
  | none => s

/-- EGRESS_TX_START: a lane chooses its next transmission (R84 to R88, R92, R148). -/
def execEgressTxStart (lane : Fin 32) (s : State) : Res :=
  let k := lane.val
  if !s.laneUp k then .next s
  else
    let s := s.countWaits k
    match s.sendingOn k with
    | some x => .next (s.egressBusy k x)
    | none => .next (s.egressIdle k)

/-- EGRESS_FCS: the FCS of a cut-through copy falls due. It is correct after a passed verdict whose cipher output met no
dip, and otherwise its complement, also where the verdict is late (R108, R117). -/
def execEgressFcs (lane : Fin 32) (s : State) : Res :=
  let k := lane.val
  match s.sendingOn k with
  | none => .next s
  | some (id, c) =>
    match c.fcs, s.frame id with
    | none, some f =>
      let good := f.verdict = some .pass && !c.spoilt
      let s := (s.setCopy id { c with fcs := some good }).emit (c.out k (!good))
      .next (s.doIf (!good) (fun s => ((s.countStomp f c).stompEvt c.port).countDiscard f))
    | _, _ => .next s

/-- The end of a stored copy whose cipher output met a dip after its first bit: it leaves with the complement of its FCS,
and the poison is counted, for a Dike copy as a stomp and otherwise as a drop (R117, R118). -/
def State.endSpoilt (s : State) (f : Frame) (c : FCopy) : State :=
  (if c.cls = 7 then (s.pc c.port 0x568).stompEvt c.port else s.pc f.port 0x580).countDiscard f

/-- EGRESS_TX_END: the transmission of a lane ends. A stored copy has left with its FCS; a Dike copy is charged against the
egress budget (R89), the copy leaves its queue, and a Clearing's task that waited for it starts (R147). -/
def execEgressTxEnd (lane : Fin 32) (s : State) : Res :=
  let k := lane.val
  match s.sendingOn k with
  | none => .next s
  | some (id, c) =>
    match c.fcs, s.frame id with
    | some _, some f =>
      let s := s.doIf c.stored (fun s => (s.emit (c.out k c.spoilt)).doIf c.spoilt (·.endSpoilt f c))
      let s := s.doIf (c.cls = 7) (·.charge (R.SLU_TX_LEFT c.port) c.len)
      .next ((s.dropCopy id c).taskNow k)
    | _, _ => .next s

end Sys2Proof.Machine
end

