-- ==== Sys2Proof/Machine/PkeCmds.lean ====
section
/-! DEFINITION. The commands of the public-key engine, family 0x08 (R244, R362). -/

namespace Sys2Proof.Machine

/-- A refusal of an operation as a command's reply. -/
def pkeReply (off : PkeField → Nat) (x : PkeStop) : Reply := let (st, d) := x.code off; ⟨st, d, []⟩

/-- The check and effect of a command that is one operation: output to the BUF at `outOff`, BYTES or OK in RESULT. -/
def pkeCheck (off : PkeField → Nat) (j : PkeIn) (s : State) : Option Reply :=
  (j.check s).map (pkeReply off)

/-- A discarded run takes its random bits, which are not used again. -/
def PkeIn.discard (j : PkeIn) (s : State) : State :=
  let t := (j.run s).2.2
  { s.wr R.RNG_STS (t.rd R.RNG_STS) with rng := t.rng }

/-- One PKE fault of a host command (R362). -/
def State.pkeFault (s : State) (lvl : Nat) : State := ((s.addF F.PKE_FAULTS_COUNT 1).pkeFlag 0 0).respond 0x22 lvl 0

/-- An operation runs twice, and its runs are compared (R360). The first PKE fault discards the result and starts it
again, the second ends it with INTERNAL; an operation that ends so gives back nothing (R362). -/
def pkeAct (faults : Fin 3) (j : PkeIn) (outOff : Nat) (h : Held) (s : State) : CmdRes :=
  let s := s.addF F.PKE_JOBS_COUNT 1
  let s := s.doIf (decide (1 ≤ faults.val)) (fun s => (j.discard s).pkeFault 2)
  if faults = 2 then .done ⟨St.internal, 0, []⟩ ((j.discard s).pkeFault 3)
  else
    let (ok, out, s) := j.run s
    .done (.ok (if j.op = 2 then toLe 1 ok else toLe 4 out.length)) (s.putBuf h outOff out)

/-- A PkeIn with nothing set. -/
def pkeNone : PkeIn := ⟨0, 0, false, false, false, 0, 0, [], [], [], 0⟩

def signIn (h : Held) : PkeIn :=
  { pkeNone with op := 1, alg := h.u 0 1, digest := bitAt (h.u 1 1) 0, slot := h.u 2 2, msg := h.inp 0 4, room := (h.buf 12).2 }
def signField : PkeField → Nat | .flags => 1 | .msg => 4 | .out => 12 | _ => 0

def specPkeSign (faults : Fin 3) : CmdSpec where
  opc := 0x0801
  need := needs 0x002
  len := fun h => lenFixed [(0, 1), (1, 1), (2, 2), (4, 8), (12, 8)] h.len
  bufs := [(4, false), (12, true)]
  pre := fun h => badSlot h 2
  check := fun h s => pkeCheck signField (signIn h) s
  objs := fun h => [.slot (h.u 2 2)]
  reads := fun h s => (signIn h).slotsRead s
  busy := fun _ s => pkeBusy s
  act := fun h s => pkeAct faults (signIn h) 12 h s

/-- CMD_PKE_SIGN. -/
def execCmdPkeSign (sl : Slot) (faults : Fin 3) (s : State) : Res := runCmd (specPkeSign faults) sl s

def verifyIn (h : Held) : PkeIn :=
  { pkeNone with op := 2, alg := h.u 0 1, digest := bitAt (h.u 1 1) 0, key := h.inp 0 4, msg := h.inp 1 12, sig := h.inp 2 20 }
def verifyField : PkeField → Nat | .flags => 1 | .key => 4 | .msg => 12 | .sig => 20 | _ => 0

def specPkeVerify (faults : Fin 3) : CmdSpec where
  opc := 0x0802
  need := needs 0x001
  len := fun h => lenFixed [(0, 1), (1, 1), (4, 8), (12, 8), (20, 8)] h.len
  bufs := [(4, false), (12, false), (20, false)]
  check := fun h s => pkeCheck verifyField (verifyIn h) s
  busy := fun _ s => pkeBusy s
  act := fun h s => pkeAct faults (verifyIn h) 0 h s

/-- CMD_PKE_VERIFY. -/
def execCmdPkeVerify (sl : Slot) (faults : Fin 3) (s : State) : Res := runCmd (specPkeVerify faults) sl s

def ecdhIn (h : Held) : PkeIn :=
  { pkeNone with op := 3, alg := h.u 0 1, eph := bitAt (h.u 1 1) 0, slot := h.u 2 2, outSlot := h.u 4 2, key := h.inp 0 8, room := (h.buf 16).2 }
def ecdhField : PkeField → Nat | .flags => 1 | .key => 8 | .out => 16 | _ => 0

def specPkeEcdh (faults : Fin 3) : CmdSpec where
  opc := 0x0803
  need := needs 0x100
  len := fun h => lenFixed [(0, 1), (1, 1), (2, 2), (4, 2), (8, 8), (16, 8)] h.len
  bufs := [(8, false), (16, true)]
  pre := fun h => (if bitAt (h.u 1 1) 0 then none else badSlot h 2) <|> badSlot h 4
  check := fun h s => pkeCheck ecdhField (ecdhIn h) s
  objs := fun h => (if bitAt (h.u 1 1) 0 then [] else [.slot (h.u 2 2)]) ++ [.slot (h.u 4 2)]
  reads := fun h s => (ecdhIn h).slotsRead s
  busy := fun _ s => pkeBusy s
  act := fun h s => pkeAct faults (ecdhIn h) 16 h s

/-- CMD_PKE_ECDH. -/
def execCmdPkeEcdh (sl : Slot) (faults : Fin 3) (s : State) : Res := runCmd (specPkeEcdh faults) sl s

def keygenIn (h : Held) : PkeIn := { pkeNone with op := 4, alg := h.u 0 1, slot := h.u 2 2, room := (h.buf 4).2 }
def keygenField : PkeField → Nat | .out => 4 | _ => 0

def specPkeKeygen (faults : Fin 3) : CmdSpec where
  opc := 0x0804
  need := needs 0x100
  len := fun h => lenFixed [(0, 1), (2, 2), (4, 8)] h.len
  bufs := [(4, true)]
  pre := fun h => badSlot h 2
  check := fun h s => pkeCheck keygenField (keygenIn h) s
  objs := fun h => [.slot (h.u 2 2)]
  busy := fun _ s => pkeBusy s
  act := fun h s => pkeAct faults (keygenIn h) 4 h s

/-- CMD_PKE_KEYGEN. -/
def execCmdPkeKeygen (sl : Slot) (faults : Fin 3) (s : State) : Res := runCmd (specPkeKeygen faults) sl s

def pubkeyIn (h : Held) : PkeIn := { pkeNone with op := 5, slot := h.u 0 2, room := (h.buf 4).2 }

def specPkePubkey (faults : Fin 3) : CmdSpec where
  opc := 0x0805
  need := needs 0x001
  len := fun h => lenFixed [(0, 2), (4, 8)] h.len
  bufs := [(4, true)]
  pre := fun h => badSlot h 0
  check := fun h s => pkeCheck keygenField (pubkeyIn h) s
  objs := fun h => [.slot (h.u 0 2)]
  reads := fun h s => (pubkeyIn h).slotsRead s
  busy := fun _ s => pkeBusy s
  act := fun h s => pkeAct faults (pubkeyIn h) 4 h s

/-- CMD_PKE_PUBKEY. -/
def execCmdPkePubkey (sl : Slot) (faults : Fin 3) (s : State) : Res := runCmd (specPkePubkey faults) sl s

end Sys2Proof.Machine
end

