-- ==== Sys2Proof/Machine/PldRows.lean ====
section
/-! DEFINITION. The Polder: beacons, reports, leadership, group key schedules and their commands (R276, R287 to R291). -/

namespace Sys2Proof.Machine

def State.pldMember (s : State) : Bool := s.twin.cred.isSome
def State.pldCred (s : State) : List Byte := s.twin.cred.getD []
def State.pldInt (s : State) : Nat := credInt s.pldCred
def State.pldLeads (s : State) : Bool := s.fb F.TWN_PLD_STATUS_LEADER

/-- The header of a Polder control message (R287). -/
def pldHead (msg id : Nat) : List Byte := [4, 1, BitVec.ofNat 8 msg, 0] ++ toBe 4 id

/-- The device injects a message into its own frame path: it is looked up by its stream key, with no ingress port to
remove (R287). Its source address is open. -/
def State.pldInject (s : State) (payload : List Byte) : State :=
  let (sa, s) := s.openBytes 6
  let b := sliceB s.pldCred 0x3C 6 ++ sa ++ [0x88, 0xB5] ++ payload
  let s := s.emit (.polder payload)
  if s.service = 0 || s.halted then s
  else
    let id := s.fp.nextId
    match s.takeCells noPort 0 (cellsOf (frameLen b)) with
    | none => s
    | some (own, sh) =>
      let f : Frame :=
        { id := id, lane := 0, port := noPort, wire := b, bytes := b, fault := false, dipped := false, core := 0, poison := false, gac := s.gacNow,
          tick := s.gac.now, epoch := s.cfg.epoch, cfg := { ctl := 0, pcp := 0, adm := 0, host := 0, vid := 0, secy := 0, gates := 255 },
          key := matchedBytes (streamKey 0 b 0 0).1, entry := none, goose := none, secy := none, tagged := false, cls := 0, held := false,
          phase := .admitted, own := own, shared := sh, short := false, ord := 0, verdict := some .pass, begun := false, host := none,
          toAeduf := false, counted := false, copies := [] }
      ({ s with fp := { s.fp with frames := s.fp.frames ++ [f], nextId := id + 1 } }).lookup f none

/-! ### Beacons (R288, R289, Table TWN-6) -/

/-- Schedules still carried: until cycle CYCLE_N + GRACE (R290). -/
def State.carried (s : State) : List PldSched := s.twin.scheds.filter (fun x => decide (s.cycle ≤ x.cycle + x.grace))

/-- BEACON_SEND: the leader, at angle 0 of a cycle that is a multiple of BEACON_INT. -/
def execBeaconSend (s : State) : Res :=
  if !s.pldMember || !s.pldLeads || s.cycle % (max 1 s.pldInt) ≠ 0 then .next s
  else match s.identity with
    | none => .next s
    | some key =>
      let l := s.carried
      let sec := s.rd64 R.GAC_ZERO_SEC_LO % 2 ^ 48
      let body := pldHead 1 (credId s.pldCred) ++ toBe 2 (credMember s.pldCred) ++ toBe 1 l.length ++ toBe 1 (s.f F.GAC_CTL_NOM)
        ++ toBe 4 s.twin.nextSeq ++ toBe 8 s.cycle ++ toBe 8 sec ++ toBe 4 (s.f F.GAC_ZERO_NS_NS) ++ toBe 4 (s.rd R.GAC_FREQ).toNat
        ++ l.flatMap schedBytes
      let (sig, s) := s.sign 2 key body
      let n := s.twin.nextSeq
      let s := { s with twin := { s.twin with nextSeq := (n + 1) % 2 ^ 32, scheds := l } }.pldInject (body ++ sig)
      .next (s.doIf s.mirroring (fun s => s.twinSend mLeadState (toBe 4 n ++ l.flatMap schedBytes)))

/-- The local cycle whose angle 0 lies nearest a TAI instant (ns), and the signed angle of that instant (R44). -/
def State.zeroNear (s : State) (ns : Int) : Int × Int :=
  let x := s.placeAtTai ns
  if x.2 < 0x800000 then (x.1, (x.2 : Int)) else (x.1 + 1, (x.2 : Int) - 0x1000000)

/-- What a beacon says. -/
structure Beacon where
  id : Nat
  leader : Nat
  seq : Nat
  cycle : Nat
  tm : Nat
  scheds : List PldSched

/-- A BEACON payload of the right form, with its signature still to be verified. -/
def beaconOf (p : List Byte) : Option Beacon :=
  let n := (byteAt p 10).toNat
  if p.take 4 ≠ [4, 1, 1, 0] || decide (16 < n) || p.length ≠ 40 + 24 * n + 96 then none
  else
    let sched := fun (i : Nat) =>
      let o := 40 + 24 * i
      (⟨beAt p o 4, beAt p (o + 4) 4, beAt p (o + 8) 4, beAt p (o + 12) 8 % 2 ^ 40, beAt p (o + 20) 1, bitAt (beAt p (o + 21) 1) 0⟩ : PldSched)
    some ⟨beAt p 4 4, beAt p 8 2, beAt p 12 4, beAt p 16 8 % 2 ^ 40, beAt p 24 8 % 2 ^ 48 * 10 ^ 9 + beAt p 32 4, (List.range n).map sched⟩

def State.member (s : State) (i : Nat) : Option PldMember := Tbl.get (fun _ => none) s.twin.members i

/-- The credential and the identity key of a member: from its last valid REPORT, or, of the twin peer, from the handshake
(R278, R288). -/
def State.known (s : State) (i : Nat) : Option (List Byte × List Byte) :=
  match s.member i with
  | some m => some (m.cred, m.pub)
  | none => if s.twin.peerCred ≠ [] && credMember s.twin.peerCred = i then some (s.twin.peerCred, s.twin.peerPub) else none

/-- The checks of R288 and R44 on a beacon. -/
def State.beaconOk (s : State) (p : List Byte) (b : Beacon) : Bool :=
  b.id = credId s.pldCred
  && (s.twin.leaderIdx ≠ some b.leader || decide ((s.rd R.TWN_PLD_SEQ).toNat < b.seq))
  && (match s.known b.leader with
      | some m => credLeader m.1 && credAuth m.1 = credAuth s.pldCred && credMember m.1 = b.leader
          && verifies 2 m.2 (p.take (p.length - 96)) (p.drop (p.length - 96))
      | none => false)
  && s.ptpLocked && !s.fb F.TWN_STATUS_PEER_REF
  && (let d := (s.zeroNear b.tm).2; decide (-5592405 ≤ d) && decide (d ≤ 5592405))

/-- The twin peer assigns this device's numbering (R44, R286). -/
def State.numberedByPeer (s : State) : Bool := s.twinSt = twFollow && s.twinUp

/-- The slot with a key identifier in a state. -/
def State.slotWith (s : State) (st id : Nat) : Option Nat :=
  (s.keys.slots.find? (fun e => e.2.state = st && e.2.id = id)).map (·.1)

/-- One schedule of a beacon at a member (R291). -/
def State.handleSched (s : State) (x : PldSched) : State :=
  if x ∈ s.twin.handled then s
  else
    let s := { s with twin := { s.twin with handled := s.twin.handled ++ [x] } }
    let c := s.cycle
    let at_ := if c + 2 ≤ x.cycle then some (x.cycle, false)
      else if x.cycle < c + 2 && c + 1 < x.cycle + x.grace then some (c + 2, true) else none
    match at_, s.slotWith Ks.active x.oldId, s.slotWith Ks.loaded x.newId with
    | some (n, late), some o, some w =>
      if x.grace < 2 then s.twnFlag 8 x.group
      else match s.rollCheck o w n with
      | none => (s.rollTake o w n x.grace x.fold).doIf late (·.twnFlag 7 x.group)
      | some _ => s.twnFlag 8 x.group
    | _, _, _ => s.twnFlag 8 x.group

/-- The lower-indexed leader wins (R289). -/
def State.yieldLead (s : State) (b : Beacon) : State :=
  s.doIf (s.pldLeads && decide (b.leader < credMember s.pldCred)) (fun s => s.setF F.TWN_PLD_STATUS_LEADER 0)

/-- An accepted beacon: numbering, the registers of the last beacon, and its schedules. -/
def State.takeBeacon (s : State) (b : Beacon) : State :=
  let d : Int := (b.cycle : Int) - (s.zeroNear b.tm).1
  let s := s.setF F.GAC_STATUS_CYCLE_SET 1
  let s := s.doIf (!s.numberedByPeer && d ≠ 0) (fun s => { s with gac := { s.gac with step := some d } })
  let s := ((s.wr R.TWN_PLD_SEQ (BitVec.ofNat 32 b.seq)).wr64 R.TWN_PLD_CYC_LO b.cycle).yieldLead b
  let s := { s with twin := { s.twin with leaderIdx := some b.leader, lastBeacon := s.gac.passed, lastTm := b.tm } }
  let s := s.doIf (!s.pldLeads) (fun s => { s with twin := { s.twin with scheds := b.scheds, nextSeq := (b.seq + 1) % 2 ^ 32 } })
  s.forEach b.scheds State.handleSched

/-- BEACON_RX: a beacon that reaches Aeduf (R287); one that is rejected sets GAC_EVT.BEACON_REJ. -/
def execBeaconRx (payload : List Byte) (s : State) : Res :=
  if !s.pldMember then .next s
  else match beaconOf payload with
    | some b => if s.beaconOk payload b then .next (s.takeBeacon b |>.irqAll 54) else .next (s.gacFlag F.GAC_EVT_BEACON_REJ.lo)
    | none => .next (s.gacFlag F.GAC_EVT_BEACON_REJ.lo)

/-- LEADER_TIMEOUT: no accepted beacon for 3 x BEACON_INT and a further 2 x MEMBER cycles (R289). The node's Polder
leadership belongs to the twin LEAD (R286). -/
def execLeaderTimeout (s : State) : Res :=
  let c := s.pldCred
  if !s.pldMember || !credLeader c || s.pldLeads || s.numberedByPeer
      || decide (s.gac.passed < s.twin.lastBeacon + 3 * credInt c + 2 * credMember c) then .next s
  else .next ((s.setF F.TWN_PLD_STATUS_LEADER 1).twnFlag 6 (leNat (s.ownDigest.take 4)))

/-! ### Reports (R288, Table TWN-7) -/

/-- REPORT_SEND: every member, in every 16 BEACON_INT-th cycle. -/
def execReportSend (s : State) : Res :=
  if !s.pldMember || s.cycle % (16 * max 1 s.pldInt) ≠ 0 then .next s
  else match s.identity with
    | none => .next s
    | some key =>
      let zero : Int := (s.rd64 R.GAC_ZERO_SEC_LO % 2 ^ 48 * 10 ^ 9 + s.f F.GAC_ZERO_NS_NS : Nat)
      let body := pldHead 2 (credId s.pldCred) ++ toBe 2 (credMember s.pldCred) ++ s.rankBytes ++ [0, 0]
        ++ toBe 8 s.cycle ++ toBe 4 (satInt 32 (zero - s.twin.lastTm)).toNat ++ toBe 8 (s.rd64 R.CFG_ACTIVE_SEQ_LO) ++ fitB 261 s.pldCred ++ fitB 97 s.keys.idPub
      let (sig, s) := s.sign 2 key body
      .next (s.pldInject (body ++ sig))

/-- Members whose last valid report is less than 64 intervals old are counted. -/
def State.countMembers (s : State) : State :=
  let l := s.twin.members.filter (fun e => match e.2 with | some m => decide (s.gac.passed < m.seen + 64 * s.pldInt) | none => false)
  { s with twin := { s.twin with members := l } }.setF F.TWN_PLD_STATUS_COUNTED l.length

/-- A valid REPORT (R288). -/
def State.reportOk (s : State) (p : List Byte) : Bool :=
  let c := sliceB p 36 261
  let pub := sliceB p 297 97
  p.take 4 = [4, 1, 2, 0] && p.length = 490 && beAt p 4 4 = credId s.pldCred
  && sliceB c 0xC 48 = sha384 pub && credSigned c && credId c = credId s.pldCred && credAuth c = credAuth s.pldCred
  && credMember c = beAt p 8 2 && verifies 2 pub (p.take 394) (p.drop 394)

/-- REPORT_RX. -/
def execReportRx (payload : List Byte) (s : State) : Res :=
  if !s.pldMember || !s.reportOk payload then .next s
  else
    let m : PldMember := ⟨sliceB payload 36 261, sliceB payload 297 97, s.gac.passed⟩
    let s := { s with twin := { s.twin with members := Tbl.set (fun _ => none) s.twin.members (beAt payload 8 2) (some m) } }
    .next (s.countMembers.irqAll 54)

/-! ### Commands -/

def specPldStatus : CmdSpec where
  opc := 0x0D03
  need := needs Role.auditor
  sync := true
  len := fun h => lenFixed [] h.len
  act := fun _ s =>
    .done (.ok (packR [(4, (s.rd R.TWN_PLD_ID).toNat), (2, s.f F.TWN_PLD_STATUS_COUNTED), (1, s.f F.TWN_PLD_STATUS_LEADER),
      (8, s.rd64 R.TWN_PLD_CYC_LO)] [])) s

/-- CMD_PLD_STATUS. -/
def execCmdPldStatus (sl : Slot) (s : State) : Res := runCmd specPldStatus sl s

/-- The credential that a join takes: CRED, or the three reads of the enrolment card (R447). -/
def joinCred (h : Held) (s : State) (card : Option (List Byte)) : List Byte :=
  if (h.buf 4).2 = 0 then (card.filter (fun _ => s.fb F.SCD_STS_ACTIVE)).getD [] else h.inp 0 4

def specPldJoin (card : Option (List Byte)) : CmdSpec where
  opc := 0x0D04
  need := needs Role.integrator
  len := fun h => lenFixed [(0, 4), (4, 8)] h.len
  bufs := [(4, false)]
  check := fun h s =>
    let c := joinCred h s card
    refuse (!(s.credGood c && credId c = h.u 0 4)) (coded St.badParam Dt.signature 0)
  act := fun h s => .done (.ok []) (s.takeCred (joinCred h s card))

/-- CMD_PLD_JOIN, with the credential of the enrolment card where it gave one. -/
def execCmdPldJoin (sl : Slot) (card : Option (List Byte)) (s : State) : Res := runCmd (specPldJoin card) sl s

def specPldLeave : CmdSpec where
  opc := 0x0D05
  need := needs Role.integrator
  len := fun h => lenFixed [] h.len
  check := fun _ s => refuse (!s.pldMember) (badState 0)
  act := fun _ s =>
    let s := s.recordWrite s.nv.opKeys none
    let s := { s with twin := { s.twin with cred := none, authPub := none, members := [], leaderIdx := none, scheds := [], handled := [], peerLeads := false } }
    .done (.ok []) (s.showCred.setF F.TWN_PLD_STATUS_COUNTED 0)

/-- CMD_PLD_LEAVE. -/
def execCmdPldLeave (sl : Slot) (s : State) : Res := runCmd specPldLeave sl s

def specPldKeySchedule : CmdSpec where
  opc := 0x0D06
  need := needs 0x100
  len := fun h => lenFixed [(0, 2), (2, 2), (4, 1), (5, 1), (6, 2), (8, 8), (16, 4)] h.len
  pre := fun h => rollForm h <|> refuse (!bitAt (h.u 5 1) 1) (badField 5)
  check := fun h s =>
    refuse (!s.pldLeads) (badState 0)
    <|> refuse (decide (h.u 8 8 < s.cycle + 2 * s.pldInt + 2)) (badField 8)
    <|> s.rollCheck (h.u 0 2) (h.u 2 2) (h.u 8 8)
  objs := fun h => [.slot (h.u 0 2), .slot (h.u 2 2)]
  busy := fun _ s => refuse (decide (16 ≤ s.carried.length)) (coded St.busy Dt.tableFull 0)
  act := fun h s =>
    let fold := bitAt (h.u 5 1) 0
    let x : PldSched := ⟨h.u 16 4, (s.ks (h.u 0 2)).id, (s.ks (h.u 2 2)).id, h.u 8 8, h.u 4 1, fold⟩
    let l := s.carried ++ [x]
    let s := s.rollTake (h.u 0 2) (h.u 2 2) (h.u 8 8) (h.u 4 1) fold
    .done (.ok []) { s with twin := { s.twin with scheds := l, handled := s.twin.handled ++ [x] } }

/-- CMD_PLD_KEY_SCHEDULE. -/
def execCmdPldKeySchedule (sl : Slot) (s : State) : Res := runCmd specPldKeySchedule sl s

end Sys2Proof.Machine
end

