-- ==== Sys2Proof/Machine/PwrRows.lean ====
section
/-! DEFINITION. Power domains: the rows of a request to leave ON and of a wake (R408 to R415, Tables PWR-1 to PWR-3). -/

namespace Sys2Proof.Machine

/-! ### Reduced places of the pinned entries (R177) -/

/-- The static entries of a set placed in Copse with the keys drawn; the entries that found no place. -/
def placeAll : List GrvEntry → State → State × List GrvEntry
  | [], s => (s, [])
  | e :: es, s =>
    match s.placeWay (mkWay s .pinned e none) with
    | some t => placeAll es t
    | none => ((placeAll es s).1, e :: (placeAll es s).2)

/-- A Copse hash key is drawn and the entries placed; again with a new key where one found no place, `n` times in all. -/
def placeTries : Nat → List GrvEntry → State → State × List GrvEntry
  | 0, es, s => (s, es)
  | n + 1, es, s =>
    let d := (s.drawBytes 16).2
    let s := { d with grv := { d.grv with copseKey := d.rng.draws, copse := [], hands := [] } }
    let r := placeAll es s
    if r.2 = [] || n = 0 then r else placeTries n es s

/-- The static entries of the active set are placed; each left out is entered in the boot report (R177, R459). -/
def State.placeStatics (s : State) : State :=
  let r := placeTries 8 s.cfg.active.statics s
  r.1.forEach r.2 (fun s e => s.rstFlag 2 (leNat (e.mtch.take 16)))

/-! ### What a domain loses (Table PWR-1) -/

def inRange (lo n a : Nat) : Bool := decide (lo ≤ a) && decide (a < lo + n)

/-- The ports and contexts of a pipeline. -/
def State.pipePorts (s : State) (j : Nat) : List Nat :=
  rangeFrom (16 * j) 16 ++ ((s.ctxs.filter (fun e => e.2.st ≠ ctxFree)).map (·.1)).filter (fun p => s.portLane p / 16 = j)

/-- A pipeline leaves ON: its schedules and its lane SecYs end; in OFF also its port contexts and their counters. -/
def State.pipeLoses (s : State) (j : Nat) (off : Bool) : State :=
  let ps := s.pipePorts j
  let ctx := fun (a : Nat) => decide (0x200000 ≤ a) && decide (a < 0x400000) && decide ((a - 0x200000) / 0x800 ∈ ps)
  let s := s.resetRegs (fun a => inRange (R.SLU_MM_CTL (16 * j)) 0x80 a || inRange (R.SLU_MM_FRAG (16 * j)) 0x40 a
    || inRange (R.FPX_LANE_SECY_CTL (16 * j)) 0x2000 a || (off && ctx a))
  let s := { s with ctrs := if off then Tbl.clear s.ctrs ctx else s.ctrs }
  { s with slu := { act := Tbl.clear s.slu.act (fun k => decide (k / 2 ∈ ps)), shd := Tbl.clear s.slu.shd (fun k => decide (k / 2 ∈ ps)),
                    shdRegs := Tbl.clear s.slu.shdRegs ctx } }

/-- The shared section goes OFF: Basin, Copse, GRV and CPS hold nothing, and Grove is ABSENT. -/
def State.sharedLoses (s : State) : State :=
  let s := { s with fp := { s.fp with frames := [], hostCount := [], demoted := false, stomped := false, syncs := [] } }
  let s := { s with grv := { s.grv with copse := [], hands := [], fills := [], lines := [], mig := none, kgEnc := none, kgMac := none } }
  let s := s.enterGrv grvAbsent
  let s := s.resetRegs (fun a => inRange R.GRV_CTL 0x10000 a)
  { s with ctrs := Tbl.clear s.ctrs (fun a => inRange R.GRV_CTL 0x10000 a) }

/-- What a domain gives up as it enters RETENTION, or OFF where `off`. -/
def State.domLoses (s : State) (d : Nat) (off : Bool) : State :=
  if d = dNva then
    let s := s.resetRegs (fun a => inRange 0x110000 0x100 a && a ≠ R.NVA_JOURNAL)
    if off then { s with nv := { s.nv with staging := [] } } else s
  else if 4 ≤ d && d ≤ 7 then
    let k := d - 3
    if off then
      let s := (s.setPr k Pair.reset).resetRegs (fun a => a = R.DEV_IRQ_CUR k)
      (s.setF (F.DEV_PAIR_STS_STATE k) pHeld).memZero (tcmBase k) 0x80000
    else s
  else if d = dPipe0 || d = dPipe1 then
    let s := s.pipeLoses (d - dPipe0) off
    let s := s.doIf (!s.sharedOn) (fun s => s.resetRegs (fun a => inRange R.SLU_WIN_SEL 0x300 a || a = R.FPX_EVT || a = R.FPX_EVT_EN))
    s.doIf (s.domSt dPipe0 = dsOff && s.domSt dPipe1 = dsOff) (·.sharedLoses)
  else if d = dCipher then
    if off then
      let s := s.katAbandon.resetRegs (fun a => a = R.FPX_CORE_STS || inRange R.CIQ_CTL 0x10000 a || a = R.CAL_KAT_STS)
      { s with ciq := { Ciq.reset with nextTag := s.ciq.nextTag } }
    else s
  else if d = dPke then
    let s := s.resetRegs (fun a => inRange R.PKE_CTL 0x10000 a && decide (a ∉ [R.PKE_CTL, R.PKE_CRING_BASE, R.PKE_CRING_IDX]))
    { s with pke := { s.pke with kreg := none, words := [], area := none, parts := Pke.reset.parts } }
  else if dTract0 ≤ d && d < dTwin then
    s.forEach (rangeFrom (4 * (d - dTract0)) 4) (fun s k =>
      let coef := s.rd (R.CAL_LANE_EYE k) &&& 0x1FFF
      let s := (s.lanePower k false).resetRegs (fun a => a = R.LNE_LANE_STS k || a = R.CAL_LANE_STS k || a = R.CAL_LANE_EYE k)
      let s := if off then s.setCalLane k { s.calLane k with ctle := 0, dfe := List.replicate 8 0 } else s.wr (R.CAL_LANE_EYE k) coef
      s.setF (F.LNE_LANE_STS_STATE k) lOff)
  else if d = dTwin then (s.setTl 0 lOff).setTl 1 lOff
  else if d = dCxl then
    { s with grv := { s.grv with links := s.grv.links.map (fun (l : CxlLink) => { l with trained := false }) } }
  else if d = dCard then
    let mmc := s.fb F.CRD_CTL_TYPE
    let stays := mmc || !off
    let s := s.resetRegs (fun a => inRange R.CRD_CTL 0x10000 a
      && decide (a ∉ [R.CRD_CTL, R.CRD_EVT_EN, R.SCD_CTL, R.SCD_EVT_EN])
      && !(stays && (a = R.CRD_STS || a = R.CRD_CAP)))
    s.doIf (mmc && s.f F.CRD_STS_STATE = cdReady) (·.setF F.CRD_STS_STATE 3)
  else if d = dField then
    s.fieldGone.resetRegs (fun a => inRange R.FLD_CTL 0x10000 a && decide (a ∉ [R.FLD_CTL, R.FLD_EVT_EN, R.FLD_FDT_ADJ, R.FLD_RD_CTL]))
  else s

/-! ### What the active set gives a domain (R412) -/

/-- Aeduf writes into a domain that has woken the registers of the active set that belong to it. -/
def State.domWritten (s : State) (d : Nat) (wasShared : Bool) : State :=
  let c := s.cfg.active
  if d = dPipe0 || d = dPipe1 then
    let j := d - dPipe0
    let s := s.doIf (!wasShared) (fun s => s.putAll ((deviceRegs.zip c.deviceVals).filter (fun e => inRange R.GRV_CTL 0x10000 e.1)))
    let s := s.forEach (rangeFrom (16 * j) 16) (fun s k => s.putAll [(R.SLU_MM_CTL k, (c.laneVals k).getD 1 0)])
    s.forEach (s.pipePorts j) (fun s p => s.bindPort c p)
  else if dTract0 ≤ d && d < dTwin then
    s.forEach (rangeFrom (4 * (d - dTract0)) 4) (fun s k => (s.putLane c k false).lanePower k true)
  else if d = dTwin then s.twinLanes
  else if d = dHost then
    s.forEach (List.range 16) (fun s i =>
      s.wr (R.CUL_EVMAP i) (if c.evmap = [] then 0x80 else BitVec.ofNat 32 ((byteAt c.evmap i).toNat &&& 0xBF)))
  else s

/-! ### The rows -/

/-- DOMAIN_SLEEP_REQUEST: Aeduf writes PWR_CTL_d; `l12` where the PCIe link is in L1.2. -/
def execDomainSleepRequest (d : Fin 25) (value : Word) (l12 : Bool) (s : State) : Res := .next (s.sleepRequest d.val value l12)

/-- PWR_WAKE_WRITE. -/
def execPwrWakeWrite (value : Word) (s : State) : Res := .next (s.wakeWrite value)

/-- DOMAIN_WAKE: a trigger of Table PWR-3; for a Tract, also the wake detector of one of its lanes, on signal or on the
wake pattern (R141). -/
def execDomainWake (d : Fin 25) (det : Option (Fin 4 × Bool)) (s : State) : Res :=
  if d.val = dBerm || d.val = dRoot then .next s
  else match det with
    | some (j, pattern) => if dTract0 ≤ d.val && d.val < dTwin then .next (s.laneWake (4 * (d.val - dTract0) + j.val) pattern) else .next (s.domWake d.val)
    | none => .next (s.domWake d.val)

/-- A domain has entered its state (R410). -/
def State.domEnter (s : State) (d dst : Nat) : State :=
  let s := (s.dropTrans d).setDom d dst
  ((s.domLoses d (dst = dsOff)).setF (F.PWR_CTL_RESULT d) St.done).pwrFlag 0 d

/-- DOMAIN_ENTER_DONE: the listed registers are saved and the domain enters its target state. A dip pauses it. -/
def execDomainEnterDone (d : Fin 25) (s : State) : Res :=
  if s.berm.dipping || s.berm.settling then .next s
  else match s.domTrans d.val with
    | some t => if t.dst = dsOn then .next s else .next (s.domEnter d.val t.dst)
    | none => .next s

/-- Stalled host accesses of a domain complete in order (R411). -/
def State.runStalled (s : State) (d : Nat) (x : AccIn) : State :=
  let mine := s.pwr.stalled.filter (fun e => e.1 = d)
  let s := { s with pwr := { s.pwr with stalled := s.pwr.stalled.filter (fun e => e.1 ≠ d) } }
  s.forEach mine (fun s e =>
    if e.2.write then s.regWrite .host 0 x e.2.addr e.2.value
    else
      let r := s.regRead .host x e.2.addr
      r.2.2.emit (.read e.2.addr r.1.toNat r.2.1))

/-- Pairs whose access waited for a domain go on (R316). -/
def State.unstall (s : State) (d : Nat) : State :=
  s.forEach (List.range 5) (fun s k =>
    match (s.pr k).stall with
    | some q => if q.1 = d then s.setPr k { s.pr k with stall := none } else s
    | none => s)

/-- As the CIPHER domain leaves reset, every core has run one test; those that failed are retired (R156). -/
def State.cipherTested (s : State) (fails : BitVec 12) : State :=
  let s := s.setF F.CAL_KAT_STS_TESTED (4095 - fails.toNat)
  let s := { s with cal := { s.cal with tested := List.replicate 12 s.gac.passed, lastStart := s.gac.passed } }
  s.forEach ((List.range 12).filter (fun c => bitAt fails.toNat c)) (·.retireCore)

/-- A domain is ready (R411, R412, R414): `lost` are the listed registers whose saved copy is uncorrectable, `fails` the
cores of the CIPHER domain that failed their test (R156), `x` what the stalled accesses meet. -/
def State.domReady (s : State) (d src : Nat) (lost : List Nat) (fails : BitVec 12) (x : AccIn) : State :=
  let shared := s.sharedOn
  let kept := s.domSt dPipe0 = dsRet || s.domSt dPipe1 = dsRet || src = dsRet
  let asked := s.f (F.PWR_CTL_RESULT d) = St.accepted && s.f (F.PWR_CTL_TARGET d) = dsOn
  let bad := lost.filter (fun a => s.regDom a = some d)
  let s := s.doIf (bad ≠ []) (fun s =>
    let q := (s.resetRegs (fun a => decide (a ∈ bad))).openBelow 256
    (q.2.pwrFlag 3 d).notify q.1)
  let s := (s.dropTrans d).setDom d dsOn
  let s := { s with pwr := { s.pwr with stuck := s.pwr.stuck.filter (· ≠ d) } }
  let s := s.addF (F.PWR_WAKES_COUNT d) 1
  let s := s.wr R.PWR_WAKE (s.rd R.PWR_WAKE &&& ~~~(BitVec.ofNat 32 (2 ^ d)))
  let s := s.domWritten d shared
  let s := s.doIf ((d = dPipe0 || d = dPipe1) && !shared && !kept) (·.placeStatics)
  let s := s.doIf (d = dNva && src = dsOff) (·.badLoad)
  let s := s.doIf (d = dCipher && src = dsOff) (·.cipherTested fails)
  let s := s.doIf (d = dCard && s.f F.CRD_STS_STATE = 3) (·.setF F.CRD_STS_STATE cdReady)
  let s := s.doIf asked (·.setF (F.PWR_CTL_RESULT d) St.done)
  let s := s.pwrFlag 4 d
  (s.runStalled d x).unstall d

/-- DOMAIN_READY. A dip pauses it. -/
def execDomainReady (d : Fin 25) (lost : List (BitVec 26)) (fails : BitVec 12) (x : AccIn) (s : State) : Res :=
  if s.berm.dipping || s.berm.settling then .next s
  else match s.domTrans d.val with
    | some t => if t.dst = dsOn then .next (s.domReady d.val t.src (lost.map (·.toNat)) fails x) else .next s
    | none => .next s

/-- The command waits of a stuck domain: a cipher request, an NV operation. -/
def stuckWaits (d : Nat) (w : Wait) : Bool :=
  match w with
  | .ciq _ => d = dCipher
  | .nv => d = dNva
  | _ => false

/-- A domain is stuck (R413). -/
def State.domStuck (s : State) (d : Nat) : State :=
  let mine := s.pwr.stalled.filter (fun e => e.1 = d)
  let s := { s with pwr := { s.pwr with stalled := s.pwr.stalled.filter (fun e => e.1 ≠ d), stuck := (d :: s.pwr.stuck).dedup } }
  let s := s.forEach mine (fun s e => if e.2.write then s else s.emit (.abort e.2.addr))
  let s := s.forEach (List.range 5) (fun s k =>
    match (s.pr k).stall with
    | some (q, addr, acc) => if q = d then (s.setPr k { s.pr k with stall := none }).enter k fcBus acc addr none else s
    | none => s)
  let s := if d = dCxl then s.dmaCxlLost
    else if d = dNva then
      s.forEach (List.range 64) (fun s n =>
        match (s.ch n).active with
        | some q => if epOf q.src = 4 || epOf q.dst = 4 then s.dmaEnd n q 0x103 0 0 0 [] else s
        | none => s)
    else s
  let s := s.forEach (s.waitsFor (stuckWaits d)) (fun s h => s.finishWait h (busyState d))
  let q := (s.pwrFlag 2 d).openBelow 256
  q.2.notify q.1

/-- DOMAIN_WAKE_TIMEOUT: the domain was not ready within its limit. It stays in the transition. -/
def execDomainWakeTimeout (d : Fin 25) (s : State) : Res :=
  match s.domTrans d.val with
  | some t => if t.dst = dsOn && decide (d.val ∉ s.pwr.stuck) then .next (s.domStuck d.val) else .next s
  | none => .next s

end Sys2Proof.Machine
end

