-- ==== Sys2Proof/Machine/ResetRows.lean ====
section
/-! DEFINITION. Reset sources, the bring-up stages and the loss of main power (R402, R405, R431, R450 to R461, Tables BRU-1 and
BRU-2). -/

namespace Sys2Proof.Machine

/-! ### What a reset leaves -/

/-- The boot report starts again with the reset cause (R459, Table CUL-14). -/
def State.causeEntry (s : State) (c : Nat) : State := ({ s with boot := { Boot.reset with wdtAt := s.boot.wdtAt, full := s.boot.full } }).bootEntry 2 0 c

/-- A reset source of a code has acted (Table BRU-4). -/
def State.resetCause (s : State) (c : Nat) : State :=
  ((s.wr R.RST_CAUSE (s.rd R.RST_CAUSE ||| BitVec.ofNat 32 (2 ^ c))).addF F.RST_COUNT_COUNT 1).setF F.RST_STS_CAUSE c

/-- Registers outside the domains that POWER_ON and RAIL reset: the GAC core and the Berm (R450), fuses, and, where they
keep their supply, KEYS with the poison marks of its slot file (R189, R451) and the ECC record (R198). -/
def keptReg (keys ecc : Bool) (a : Nat) : Bool :=
  (inRange 0x20000 0x10000 a) || (inRange R.TMP_STS 0x10000 a && a ≠ R.TMP_HALT_DROP) || a = R.RST_CAUSE || a = R.RST_COUNT || a = R.RST_FUSE
  || (keys && (inRange 0x80000 0x10000 a || inRange 0x400000 0x400000 a))
  || (ecc && (a = R.ECC_UNC_ADDR_LO || a = R.ECC_UNC_ADDR_HI || inRange (R.ECC_CORR 0) 0x100 a || inRange R.BLZ_STATUS 0x300 a))

/-- Every domain but the Berm loses what it holds. NV contents, the root area and what is derived from them stay; `keys`
where KEYS keeps its supply, `ecc` where the stored-data record stays. -/
def State.unpower (s : State) (keys ecc : Bool) : State :=
  let s := match s.nv.op with | some o => s.nvCut o | none => s
  let r := State.reset
  { r with
    regs := Tbl.clear s.regs (fun a => !keptReg keys ecc a)
    regBad := s.regBad.filter (keptReg keys ecc)
    free := s.free
    gac := s.gac
    keys := if keys then { s.keys with kdf := none, stage := none, fldKeys := none }
      else { r.keys with root := if s.keys.rootErasing then .erased else s.keys.root, rootGen := s.keys.rootGen, factoryGen := s.keys.factoryGen,
                         idCert := s.keys.idCert, idPub := s.keys.idPub }
    rng := { r.rng with draws := s.rng.draws }
    nv := { s.nv with op := none, queue := [], staging := [] }
    berm := { s.berm with dipping := false, settling := false }
    ecc := { r.ecc with blaze := if ecc then s.ecc.blaze else [], fullSeen := ecc && s.ecc.fullSeen,
                        poison := if keys then s.ecc.poison.filter (fun (e : Nat × BitVec 3) => decide (e.1 / 2 ^ 24 = 3)) else [] }
    cal := { r.cal with tested := List.replicate 12 s.gac.passed, lastStart := s.gac.passed }
    twin := { r.twin with cred := s.twin.cred, authPub := s.twin.authPub }
    apps := s.apps.map (fun (e : Nat × Option App) => (e.1, e.2.map (fun a => { a with st := 0, chans := [] })))
    fld := { r.fld with uid := s.fld.uid }
    cxl := []
    out := s.out
    pending := s.pending }

/-- Stage B1: the rails are good; BERM, KEYS, NVA and ROOT are ON, the root pair runs from boot ROM, and Aeduf's channels are its
own (R248, R301, Table BRU-2). -/
def State.b1 (s : State) : State :=
  let s := s.wr R.PWR_STS_LO 0xAA
  let s := s.setF (F.DEV_PAIR_STS_STATE 0) pRunning
  s.forEach (List.range 16) (fun s n => s.wr (R.DMA_GRANT n) 0x800FFFFF)

/-- The Berm has started with neither supply having held it (R405). -/
def State.coldStart (s : State) : State :=
  let s := s.resetRegs (fun a => inRange 0x20000 0x10000 a || inRange R.TMP_STS 0x10000 a || a = R.RST_CAUSE || a = R.RST_COUNT)
  { s with gac := Gac.reset, berm := Berm.reset }

/-- The field interface goes on as it was in `u`, on harvested power or not (R431). -/
def State.fieldFrom (t u : State) (harvested : Bool) : State :=
  let t := t.forEach (List.range 11) (fun s i => s.wr (R.FLD_CTL + 4 * i) (u.rd (R.FLD_CTL + 4 * i)))
  { t.setB F.FLD_STS_HARVESTED harvested with fld := u.fld }

/-- POWER_ON: the main supplies rise. On harvested power the field interface goes on, and a session with it (R431). -/
def execPowerOn (s : State) : Res :=
  let u := s
  let s := s.unpower false false
  let s := if s.berm.coldNext then s.coldStart else s
  let s := { s with berm := { s.berm with backup := false } }
  let s := s.gacPowerOn
  let s := (s.b1.resetCause 1).causeEntry 1
  .next (s.doIf (u.fb F.FLD_STS_HARVESTED) (fun s => (s.fieldFrom u false).setDom dField dsOn))

/-- VDD_CORE, VDD_SRAM or VDD_IO has fallen; `sram` where it was VDD_SRAM. -/
def State.railReset (s : State) (sram : Bool) : State := (((s.unpower (!sram) true).b1).resetCause 2).causeEntry 2

/-- RAIL_RESET. -/
def execRailReset (sram : Bool) (s : State) : Res := .next (s.railReset sram)

/-- A domain restarts as from OFF. -/
def State.restartDom (s : State) (d : Nat) : State :=
  let s := (s.dropTrans d).setDom d dsOff
  (s.domLoses d true).domMove d dsOff dsOn

/-- The HOST domain loses power: the window loss, and the counters that only this clears (R225). -/
def State.hostLoses (s : State) : State :=
  let s := s.windowLoss.resetRegs (fun a => inRange 0xD0000 0x10000 a)
  { s with cul := { s.cul with bme := false } }

/-- SERDES_RAIL_RESET: Tracts, TWINLINK, HOST and CXL restart as from OFF. -/
def execSerdesRailReset (s : State) : Res :=
  let s := (s.resetCause 3).bootEntry 2 0 3
  let s := (s.cxlLost 0).cxlLost 1
  let s := s.hostLoses
  .next (s.forEach (rangeFrom dTract0 8 ++ [dTwin, dHost, dCxl]) State.restartDom)

/-- IO33_RAIL_RESET: CARD and FIELD are reset. -/
def execIo33RailReset (s : State) : Res :=
  let s := (s.resetCause 4).bootEntry 2 0 4
  let s := if s.f F.CRD_STS_STATE = cdEmpty then s else (s.cardGone 0xFFFFFFFF).cardWaits .card 0xFFFFFFFF
  let s := s.fieldGone.cardWaits .smartCard 0xFFFFFFFF
  .next (s.resetRegs (fun a => inRange 0x130000 0x20000 a))

/-- PERST: PERST_N resets the HOST domain, as the window loss (R201, R225). -/
def execPerst (s : State) : Res :=
  let s := ((s.resetCause 5).bootEntry 2 0 5).windowLoss
  .next { s with cul := { s.cul with bme := false } }

/-! ### Stage B2: the boot ROM -/

/-- A sensor whose response is BREACH is active (R402). -/
def State.breachHeld (s : State) : Bool := s.berm.breach && (List.range 8).any (fun k => s.sensorOn k && s.sensorLevel k = 5)

/-- The boot ROM processes the journal (R388). -/
def State.journalRedo (s : State) : State :=
  let last := fun (x : Nat) => (s.nv.journal.find? (fun r => r.sector = x && r.kind ≠ jRemap)).map (·.kind)
  let redo := ((s.nv.journal.map (·.sector)).dedup.filter (fun x => last x = some jIntent)).mergeSort (· ≤ ·)
  let head := ((s.nv.journal.head?).map (fun r => r.place / 256)).getD 0
  let s := { s with nv := { s.nv with journal := s.nv.journal.filter (fun (r : JRec) => decide (r.place / 256 ≠ (head + 1) % 16)) } }
  let s := s.forEach redo (fun s x => (s.nvErase x).journal jDone x 0)
  let s := s.setF F.NVA_JOURNAL_REDO redo.length
  s.doIf (redo ≠ []) (·.nvFlag 6 0 0)

/-- KEY_ROOT_STS and the identity that Aeduf derives from the root (R343, R344). -/
def State.showRoot (s : State) : State :=
  let s := (s.setB F.KEY_ROOT_STS_VALID s.root.isSome).setF F.KEY_ROOT_STS_GEN s.keys.rootGen
  let s := s.setB F.KEY_ROOT_STS_REGEN (s.keys.rootGen ≠ s.keys.factoryGen)
  match s.identity with
  | some k => { s with keys := { s.keys with idPub := pubOf 2 k } }
  | none => s

/-- A new root is generated in an erased area (R333). -/
def State.rootNew (s : State) : State :=
  let d := s.drawBytes 32
  { d.2 with keys := { d.2.keys with root := .cell (rootCell d.1), rootGen := min 0xFFFE (d.2.keys.rootGen + 1) } }

/-- The header of an image slot names a version: MAGIC and VER are correct. -/
def fwHeaded (b : List Byte) : Bool := b.take 4 = ascii "PWFW" && leAt b 4 2 = 1

/-- The boot ROM's choice (R455, R456): the slot (2 for the card), whether by FALLBACK, and the image. -/
def State.bootChoice (s : State) (cardA cardB : List Byte) : Option (Nat × Bool × List Byte) :=
  let a := s.fwSlot 0
  let b := s.fwSlot 1
  let ver := fun (x : List Byte) => if fwHeaded x then leAt x 8 4 + 1 else 0
  let first := if ver a < ver b then 1 else 0
  let img := fun (n : Nat) => if n = 0 then a else b
  if s.fwValid (img first) then some (first, false, img first)
  else if s.fwValid (img (1 - first)) then some (1 - first, decide (ver (img first) ≠ 0), img (1 - first))
  else match recPick 0 cardA cardB with
    | some c => if s.fwValid (recData c) then some (2, true, recData c) else none
    | none => none

/-- The image boots: RST_BOOT, the version registers, and a fallback in the boot report; one from the card is written to slot A. -/
def State.bootImage (s : State) (n : Nat) (fb : Bool) (img : List Byte) : State :=
  let s := (s.setB F.RST_BOOT_SLOT_B (n = 1)).setB F.RST_BOOT_FALLBACK (fb && n < 2)
  let s := (s.setB F.RST_BOOT_CARD (n = 2)).setF F.RST_BOOT_SVN (leAt img 0xC 1)
  let s := (s.setF F.RST_AEDUF_VER_VER (leAt img 8 4)).wr R.DEV_AEDUF_VER (BitVec.ofNat 32 (leAt img 8 4))
  let s := { s with nv := { s.nv with booted := if n = 1 then 1 else 0 } }
  let s := s.doIf (n = 2) (fun s =>
    let s := s.forEach (rangeFrom (fwSector 0) (ceilDiv img.length 4096)) State.nvEraseJ
    s.nvWrite (fwSector 0 * 4096) img)
  s.doIf fb (fun s => s.rstFlag 3 (s.rd R.RST_BOOT).toNat)

/-- The BREACH in force ends once the new root stands (R402). -/
def State.breachRelease (s : State) : State :=
  if s.berm.breach then { s with berm := { s.berm with breach := false } }.setF F.TMP_STS_LEVEL 0 else s

/-- The boot ROM from the journal to the start of Aeduf; with no valid image it holds (R456). True where Aeduf has started. -/
def State.bootRom (s : State) (cardA cardB : List Byte) : Bool × State :=
  let s := s.doIf s.berm.coldNext (fun s =>
    ({ s with berm := { s.berm with coldNext := false } }.setB F.TMP_STS_COLD true).notify 0x11)
  let s := s.journalRedo.badLoad
  let s := if s.keys.root = .erased then s.rootNew else s
  let s := s.showRoot.breachRelease
  match s.bootChoice cardA cardB with
  | some c => (true, (s.setB F.RST_STS_BOOT_HOLD false).bootImage c.1 c.2.1 c.2.2)
  | none => (false, s.setB F.RST_STS_BOOT_HOLD true)

/-- The boot ROM cannot pass the root area yet: a BREACH sensor is active, the area is neither erased nor valid, or a new
root waits for the random bit source (R333, R402). -/
def State.romHolds (s : State) : Bool :=
  s.breachHeld || (decide (s.keys.root ≠ .erased) && s.keys.root.secret.isNone) || (decide (s.keys.root = .erased) && s.rngState ≠ RngSt.running)

/-- BREACH_N is low from the Breach line to the release of R402 (R406). -/
def State.breachLow (s : State) : Bool := s.berm.breach

/-- The boot ROM holds stage B2 with ALERT_N low: a BREACH sensor is active, or the root area is neither erased nor valid
(R333, R402). -/
def State.romAlert (s : State) : Bool :=
  (decide (s.f F.RST_STS_STAGE = 1) || s.boot.atRom) && !s.berm.backup && (s.breachHeld || (decide (s.keys.root ≠ .erased) && s.keys.root.secret.isNone))

/-- ALERT_N is low (R406): the response in force is QUIESCE or stronger, the boot ROM holds stage B2, or an enabled TMP_EVT
bit is set. -/
def State.alertLow (s : State) : Bool :=
  decide (3 ≤ s.level) || s.romAlert || decide (s.rd R.TMP_EVT &&& s.rd R.TMP_ALERT_EN ≠ 0)

/-! ### Stage B3: the configuration set and the device records (R274, R381) -/

/-- The operator keys and the credential of the valid record copy with the higher SEQ. -/
def State.loadRecords (s : State) : State :=
  let pick := match s.recordValid 3096, s.recordValid 3100 with
    | some a, some b => if a < b then some (3100, b) else some (3096, a)
    | some a, none => some (3096, a)
    | none, some b => some (3100, b)
    | none, none => none
  match pick with
  | none => { s with nv := { s.nv with opKeys := [], recSeq := 0 }, twin := { s.twin with cred := none, authPub := none } }
  | some (sec, q) =>
    let c := s.nvRead (sec * 4096) 0x1DAD
    let keys := (List.range 64).foldl (fun (t : Tbl (Option OpKey)) i =>
      let e := sliceB c (0x40 + 112 * i) 112
      if leAt e 0 1 = 0 then t else Tbl.set (fun _ => none) t (leAt e 2 2) (some ⟨leAt e 0 1, sliceB e 4 97⟩)) []
    let cred := if leAt c 0x1C40 2 = 261 then some (sliceB c 0x1C48 261) else none
    { s with nv := { s.nv with opKeys := keys, recSeq := q }, twin := { s.twin with cred := cred, authPub := cred.map credAuth } }

/-- The SEQ of a configuration slot's record, and its set where the slot is valid. -/
def State.cfgSlot (s : State) (n : Nat) : Option (Nat × Option CfgSet) :=
  let r := s.nvRead (slotSector n * 4096) 128
  let q := leAt r 0x48 8
  if r.take 4 ≠ ascii "PWCR" || leAt r 4 2 ≠ 1 || q = 0 || q = 2 ^ 64 - 1 then none
  else
    let len := leAt r 0x10 4
    let img := s.nvRead (slotSector n * 4096 + 128) (min len 2097024)
    let good := decide (len ≤ 2097024) && sha384 img = sliceB r 0x18 48 && imageForm img && s.setRules (setOfImage img q)
    some (q, if good then some (setOfImage img q) else none)

/-- Aeduf loads the active configuration set. -/
def State.loadSet (s : State) : State :=
  let c := fun (n : Nat) => s.cfgSlot n
  let seq := fun (n : Nat) => ((c n).map (·.1)).getD 0
  let set := fun (n : Nat) => ((c n).map (·.2)).getD none
  let first := if seq 0 < seq 1 then 1 else 0
  let s := (s.wr64 R.CFG_SEQ_A_LO (if (set 0).isSome then seq 0 else 0)).wr64 R.CFG_SEQ_B_LO (if (set 1).isSome then seq 1 else 0)
  let use := fun (n : Nat) (x : CfgSet) (s : State) =>
    let s := { s with cfg := { Cfg.reset with active := x } }
    (((s.putSet x [] false).gacReselect (s.rd R.GAC_CTL)).setF F.CFG_STATUS_SLOT n).wr64 R.CFG_ACTIVE_SEQ_LO x.seq
  match set first, set (1 - first) with
  | some x, _ => use first x s
  | none, some x => (use (1 - first) x s).doIf (seq first ≠ 0) (·.cfgFlag 4 x.seq 0)
  | none, none => { s with cfg := Cfg.reset }.setF F.CFG_STATUS_DEFAULTS 1

/-- Aeduf protects the factory info block and the booted image slot (R386). -/
def State.protectBoot (s : State) : State := s.forEach (rangeFrom 0 16 ++ rangeFrom (fwSector s.nv.booted) 512) State.setProt

/-- The root watchdog starts (R453). -/
def State.wdtStart (s : State) : State := { s.setB F.RST_WDT_EN true with boot := { s.boot with wdtAt := s.gac.now } }

/-! ### The stages (R454) -/

/-- A stage is reached. -/
def State.stage_ (s : State) (n : Nat) : State :=
  if s.f F.RST_STS_STAGE < n then ((s.setF F.RST_STS_STAGE n).rstFlag 0 n).updService else s
def State.atStage (s : State) (n : Nat) : Bool := s.f F.RST_STS_STAGE = n

/-- STAGE_B1: reached with the reset; it enters the boot report. -/
def execStageB1 (s : State) : Res :=
  if s.atStage 1 && decide ((8, 1, 0, 1) ∉ s.boot.report) then .next (s.b1.rstFlag 0 1) else .next s

/-- The boot ROM has started Aeduf, or holds: a restart that waits for it is over, or not. -/
def State.romDone (s : State) (started restart : Bool) : State := { s with boot := { s.boot with atRom := restart && !started } }

/-- STAGE_B2: record 0 of a card in the port is what the ROM reads when neither slot is valid. After a ROOT_RESTART that the
ROM holds, it runs B2 again; the stage does not fall back (R452, R454). -/
def execStageB2 (cardA cardB : List Byte) (s : State) : Res :=
  if !(s.atStage 1 || s.boot.atRom) || s.romHolds || s.berm.backup then .next s
  else
    let r := (s.doIf (s.atStage 1) (fun s => s.setDom dHost dsOn)).bootRom cardA cardB
    let t := r.2.romDone r.1 s.boot.atRom
    if r.1 then .next (t.stage_ 2) else .next t

/-- STAGE_B3. -/
def execStageB3 (s : State) : Res :=
  if !s.atStage 2 then .next s
  else
    let s := s.protectBoot.loadRecords
    let s := s.doIf (s.fb F.KEY_ROOT_STS_REGEN && s.twin.cred.isSome) (fun s => s.recordWrite s.nv.opKeys none)
    let s := s.loadSet.placeStatics
    let s := s.wdtStart
    let s := s.doIf (bitAt (leAt (s.fwSlot s.nv.booted) 6 2) 0) (fun s => s.setF F.RST_FUSE_FLOOR (max (s.f F.RST_FUSE_FLOOR) (s.f F.RST_BOOT_SVN)))
    let s := s.doIf (!s.fieldSession) (·.mailbox)
    .next (s.stage_ 3)

/-- STAGE_B4: the pipelines and CIPHER are ON, `fails` the cores that failed their test, and every Tract with an enabled lane. -/
def execStageB4 (fails : BitVec 12) (s : State) : Res :=
  if !s.atStage 3 then .next s
  else
    let s := s.forEach [dPipe0, dPipe1, dCipher] (fun s d => (s.dropTrans d).setDom d dsOn)
    let s := s.cipherTested fails
    let s := s.forEach [dPipe0, dPipe1] (fun s d => s.domWritten d true)
    let ts := (List.range 8).filter (fun t => (rangeFrom (4 * t) 4).any (fun k => s.fb (F.LNE_LANE_CTL_EN k)))
    let s := s.forEach ts (fun s t => ((s.dropTrans (dTract0 + t)).setDom (dTract0 + t) dsOn).domWritten (dTract0 + t) true)
    .next (s.stage_ 4)

/-- STAGE_B5: CXL comes ON with a device present on the links named; the stage is complete once Grove serves, or with Grove
ABSENT; `late` at the 100 ms limit. -/
def execStageB5 (present : BitVec 2) (late : Bool) (s : State) : Res :=
  if !s.atStage 4 then .next s
  else
    let s := if s.domOn dCxl then s
      else
        let s := (s.dropTrans dCxl).setDom dCxl dsOn
        let ls := s.grv.links.mapIdx (fun j (l : CxlLink) => { l with present := bitAt present.toNat j })
        { s with grv := { s.grv with links := ls, atB5 := true } }
    let untrained := s.configured.any (fun j => !(s.link j).trained)
    let stop := !s.fb F.GRV_CTL_EN || s.configured = [] || (late && untrained)
    if stop || s.grvSt = grvServing || s.grvSt = grvMigrating then
      let s := { s with grv := { s.grv with atB5 := false } }
      let s := s.doIf (s.configured = [] || (s.fb F.GRV_CTL_EN && late && untrained)) (·.grvFlag 1 0xFF 0xFFFFFFFF)
      .next (s.stage_ 5)
    else .next s

/-- STAGE_B6: every extender lane that is UP has its extender ACTIVE, or 10 s have passed. -/
def execStageB6 (late : Bool) (s : State) : Res :=
  let wait := (List.range 32).any (fun k => s.fb (F.LNE_LANE_CTL_EXT k) && s.laneUp k && (s.xt k).st ≠ xActive)
  if s.atStage 5 && (late || !wait) then .next (s.stage_ 6) else .next s

/-- STAGE_B7: the Twin is synchronised, or there is none. -/
def execStageB7 (s : State) : Res :=
  let synced := decide (1 ≤ s.f F.TWN_STATUS_STATE) && decide (s.f F.TWN_STATUS_STATE ≤ 2)
    && s.fb F.TWN_STATUS_AGREE_VER && s.fb F.TWN_STATUS_AGREE_CFG && s.fb F.TWN_STATUS_AGREE_TIME
  if s.atStage 6 && (!s.fb F.TWN_CTL_EN || synced) then .next (s.stage_ 7) else .next s

/-! ### The restart of the root pair (R318, R323, R452, R453) -/

/-- The root pair, its memory, Aeduf's channels, the random bit source and the write-protect bits reset; the boot ROM runs. -/
def State.rootRestart (s : State) (cardA cardB : List Byte) : State :=
  let reason := s.f (F.DEV_PAIR_STS_REASON 0)
  let s := (s.pairReset 0).memZero (tcmBase 0) 0x80000
  let s := (s.setF (F.DEV_PAIR_STS_REASON 0) reason).setF (F.DEV_PAIR_STS_STATE 0) pRunning
  let s := s.forEach (List.range 16) (fun s n => (s.setCh n DmaCh.idle).resetRegs (fun a =>
    inRange (R.DMA_CTL n) 0x40 a && decide (a ∉ [R.DMA_GRANT n, R.DMA_SRAM_LO n, R.DMA_SRAM_HI n])))
  let s := { s.resetRegs (fun a => inRange R.RNG_STS 0x10000 a) with rng := { Rng.reset with draws := s.rng.draws } }
  let s := s.resetRegs (fun a => inRange (R.NVA_WPROT 0) 0x200 a)
  let st := s.f F.RST_STS_STAGE
  let sv := s.f F.RST_STS_SERVICE
  let s := s.resetRegs (fun a => inRange R.RST_STS 0x400 a && decide (a ∉ [R.RST_CAUSE, R.RST_COUNT, R.RST_FUSE]))
  let s := ((s.setF F.RST_STS_STAGE st).setF F.RST_STS_SERVICE sv).resetCause 6
  let s := (s.bootEntry 2 0 6).rstFlag 4 6
  if s.romHolds then s.romDone false true
  else
    let r := s.bootRom cardA cardB
    r.2.romDone r.1 true

/-- ROOT_RESTART: after a lockstep mismatch or a halt of the root pair. -/
def execRootRestart (cardA cardB : List Byte) (s : State) : Res :=
  if s.pairSt 0 = pHalted then .next (s.rootRestart cardA cardB) else .next s

/-- WATCHDOG_EXPIRE: the root watchdog has reached 0. -/
def execWatchdogExpire (cardA cardB : List Byte) (s : State) : Res :=
  if s.fb F.RST_WDT_EN then .next (s.rootRestart cardA cardB) else .next s

/-- WATCHDOG_KICK: a write of RST_WDT_KICK. -/
def execWatchdogKick (value : Word) (s : State) : Res := .next (s.wdtKick value)

/-- ROOT_RESUME: the restarted Aeduf takes up its work (R452). -/
def execRootResume (s : State) : Res :=
  if s.f F.RST_STS_STAGE < 3 || s.fb F.RST_WDT_EN || s.boot.atRom || s.fb F.RST_STS_BOOT_HOLD || s.pairSt 0 ≠ pRunning then .next s
  else
    let n := s.f F.CFG_STATUS_SLOT
    if !s.fb F.CFG_STATUS_DEFAULTS && s.rd64 R.CFG_ACTIVE_SEQ_LO ≠ ((s.cfgSlot n).map (·.1)).getD 0 then .next (s.railReset false)
    else
      let s := match s.cfg.shadow with
        | some sh => s.dropShadowAll.cfgFlag 3 sh.set.seq 0
        | none => s
      let s := s.closeSessions (fun _ => true) 6
      let ws := (s.cul.waits.map (·.cmd)).mergeSort (fun a b => decide (a.ring < b.ring) || (a.ring = b.ring && decide (a.idx ≤ b.idx)))
      let s := s.forEach ws (fun s h => s.finishWait h (coded St.internal Dt.none 0))
      let ac := s.cul.atCycle
      let s := { s with cul := { s.cul with atCycle := [] } }
      let s := s.forEach ac (fun s h => s.finish h (coded St.noAuthority Dt.cancelled 0) false)
      let s := s.protectBoot
      let s := s.forEach (List.range 16) (fun s n => (s.setF (F.DMA_CTL_EN n) 1).dmaShow n dmaWaiting)
      .next s.wdtStart

/-! ### The loss of main power (R405, R431) -/

/-- A sealed field session goes on in the open, its keys cleared (R431). -/
def State.unsealField (s : State) : State := s.unseal.doIf (s.f F.FLD_STS_TAG_STATE = 6) (·.setF F.FLD_STS_TAG_STATE 5)

/-- MAIN_POWER_LOSS: the Berm moves to the backup cell where VBAT is fitted; otherwise it holds nothing at the next power-on.
`strong` where a field of at least 1.5 A/m is present: the field interface goes on with it. -/
def execMainPowerLoss (vbat strong : Bool) (s : State) : Res :=
  if s.berm.backup then .next s
  else
    let goes := strong && s.fb F.FLD_STS_FIELD
    let b := { s.berm with backup := true, lossGac := s.gacNow, lossTai := s.taiNs, lossPtp := s.ptpLocked, counted := 0,
                           coldNext := s.berm.coldNext || !vbat }
    let t := s.unsealField.unpower false false
    let t := { t with berm := { b with dipping := false, settling := false } }
    let t := t.wr R.PWR_STS_LO 2
    let t := t.setB F.TMP_STS_BACKUP_SEEN vbat
    .next (t.doIf goes (fun t => t.fieldFrom s.unsealField true))

end Sys2Proof.Machine
end

