-- ==== Sys2Proof/Machine/ZeroRows.lean ====
section
/-! DEFINITION. Asynchronous commands and commands at a cycle (R211 to R213), and angle 0 with the order of R16. -/

namespace Sys2Proof.Machine

/-! ### Commands that end later (R211, R212) -/

/-- The command of an opcode that may be asynchronous, with what it meets outside the device (Table CUL-6). -/
def cmdSpecOf (x : ExtIn) : Nat → Option CmdSpec
  | 0x0201 => some specCfgStage | 0x0202 => some specCfgCommit | 0x0203 => some specCfgAbort | 0x0204 => some specCfgRead
  | 0x0301 => some specKeyLoad | 0x0302 => some specKeyDerive | 0x0303 => some specKeyActivate | 0x0304 => some specKeyRollover
  | 0x0305 => some specKeyArm | 0x0306 => some specKeyLimit | 0x0307 => some specKeyDelete | 0x0308 => some specKeyZeroize
  | 0x0309 => some specKeyClear
  | 0x0402 => some specPortCounters | 0x0404 => some specPortExtFree | 0x0405 => some specPortExtRelease
  | 0x0502 => some specGacPhasor | 0x0503 => some specGacTaiSet
  | 0x0601 => some specGroveInsert | 0x0602 => some specGroveUpdate | 0x0603 => some specGroveDelete | 0x0604 => some specGrovePin
  | 0x0605 => some specGroveUnpin | 0x0607 => some specGroveCounterRead | 0x0608 => some specGroveLineClear
  | 0x0609 => some specGroveMemAdd | 0x060A => some specGroveRebuild
  | 0x0701 => some specCiqSubmit
  | 0x0801 => some (specPkeSign x.faults) | 0x0802 => some (specPkeVerify x.faults) | 0x0803 => some (specPkeEcdh x.faults)
  | 0x0804 => some (specPkeKeygen x.faults) | 0x0805 => some (specPkePubkey x.faults)
  | 0x0901 => some specAttStatement | 0x0902 => some specAttCert
  | 0x0A01 => some specNvaRead | 0x0A02 => some specNvaProgram | 0x0A03 => some specNvaErase | 0x0A04 => some specNvaProtect
  | 0x0A06 => some specNvaImageLoad
  | 0x0B02 => some specFldMode | 0x0B04 => some (specCardRead x.card) | 0x0B05 => some (specCardWrite x.card)
  | 0x0B06 => some (specCardStage x.card) | 0x0B08 => some (specScdApdu x.scd)
  | 0x0C02 => some specLogTamperRead | 0x0C03 => some specLogBlazeRead | 0x0C04 => some specLogBlazeClear | 0x0C05 => some specTmpRelease
  | 0x0D02 => some specTwnTakeover | 0x0D04 => some (specPldJoin x.cred) | 0x0D05 => some specPldLeave | 0x0D06 => some specPldKeySchedule
  | 0x0E01 => some specAppLoad | 0x0E02 => some specAppStart | 0x0E03 => some specAppStop | 0x0E04 => some specAppDelete
  | 0x0E05 => some specAppList | 0x0E06 => some (specAppMsg x.reply x.badge)
  | 0x0F02 => some specDiagKat
  | _ => none

/-- The domain that a command waits for as it is executed (R411). -/
def State.heldSleeps (s : State) (x : ExtIn) (opc : Nat) : Option Nat := (cmdSpecOf x opc).bind (·.sleeps s)

/-- A command that was accepted is checked in full and executed; its completion follows. -/
def State.runHeld (s : State) (x : ExtIn) (h : Held) (late : Bool) : State :=
  match cmdSpecOf x h.opc with
  | some c => Sys2Proof.Machine.settle c h late (runBody (c.inDom s) h s)
  | none => s

/-- ASYNC_COMPLETION: an accepted command of a ring and slot index is executed to its end. -/
def execAsyncCompletion (r : Fin 256) (idx : BitVec 16) (x : ExtIn) (s : State) : Res :=
  match s.cul.waits.find? (fun w => w.wait = .async && w.cmd.ring = r.val && w.cmd.idx = idx.toNat) with
  | none => .next s
  | some w =>
    match s.heldSleeps x w.cmd.opc with
    | some d => .next (s.domWake d)
    | none => .next ((s.endWait w.cmd).runHeld x w.cmd false)

/-- AT_CYCLE_EXECUTE: the first pending command whose cycle has come, late where the cycle was skipped (R212, R213). -/
def execAtCycleExecute (x : ExtIn) (s : State) : Res :=
  match s.cul.atCycle.find? (fun h => decide (h.cycle ≤ s.cycle)) with
  | none => .next s
  | some h =>
    match s.heldSleeps x h.opc with
    | some d => .next (s.domWake d)
    | none =>
      let s := { s with cul := { s.cul with atCycle := s.cul.atCycle.erase h } }
      .next (s.runHeld x h (decide (h.cycle < s.cycle)))

/-! ### Angle 0 (R16) -/

/-- Step 3: entry 0 of every schedule takes effect, and a port with no entry holds every gate open (R78, R80). -/
def State.schedulesAtZero (s : State) : State :=
  s.forEach s.boundPorts (fun s p => s.forEach [false, true] (fun s tx => s.takeEntry p tx 0))

/-- The ports with a budget, or with something left of one. -/
def State.budgetPorts (s : State) : List Nat :=
  ((s.regs.filter (fun e => inRange 0x200000 0x200000 e.1 && decide ((e.1 - 0x200000) % 0x800 ∈ [0x88, 0x8C, 0x90, 0x94]))).map
    (fun e => (e.1 - 0x200000) / 0x800)).dedup

/-- Step 4: the Dike budgets, the host deliveries and the Sweep rate are reloaded (R65, R89, R193). -/
def State.budgetsAtZero (s : State) : State :=
  let s := s.forEach s.budgetPorts (fun s p =>
    (s.wr (R.SLU_RX_LEFT p) (s.rd (R.SLU_RX_BUDGET p))).wr (R.SLU_TX_LEFT p) (s.rd (R.SLU_TX_BUDGET p)))
  { s with fp := { s.fp with hostCount := [], demoted := false, stomped := false } }.sweepReload

/-- NEGATIVE entries count down, and one that has none left and that no fill holds becomes FREE (R174, R176). -/
def State.negAtZero (s : State) : State :=
  (s.mapWays (fun w => if w.st = .negative then some { w with ttl := w.ttl - 1 } else some w)).freeSpentNeg

/-- What angle 0 does once the angle has wrapped: the step of the cycle number and the GAC core, the changes of R16 in
their order, and the counts that run over cycles; the events of the GAC core are posted together, from bit 0 up (R49).
On the backup cell the GAC core alone runs. -/
def State.angleZero (s : State) : State :=
  let s := s.gacAtZero
  if s.berm.backup then s.postGathered
  else
    let s := s.cfgAtZero
    let s := s.graceAtZero.rollsAtZero
    let s := { s with cal := { s.cal with gacDone := false } }.schedulesAtZero
    let s := s.budgetsAtZero
    let s := s.negAtZero
    let s := { s with rng := { s.rng with zeros := s.rng.zeros + 1 } }
    let s := s.katStale.migAtZero
    let s := s.twinAtZero.countMembers
    let s := s.forEach (List.range 32) State.adapt
    (s.irqAll 48).postGathered

/-- ANGLE_ZERO. -/
def execAngleZero (s : State) : Res := .next { s with gac := s.gac.toZero }.angleZero

/-- HOLDOVER_EXPIRE: HOLD_LEFT has counted to 0, and the angle 0 at which the slew to the nominal frequency begins comes
(R40, R42, Table GAC-4). -/
def execHoldoverExpire (s : State) : Res :=
  if s.gst = gHoldover && s.f F.GAC_STATUS_HOLD_LEFT = 0 then .next { s with gac := s.gac.toZero }.angleZero else .next s

/-- One TBCLK tick of an idle block: the accumulator advances, and angle 0 does what it does where the tick wraps it. -/
def State.idleTick (s : State) : State :=
  let t := s.gac.tick
  let s := { s with gac := t.1 }
  if t.2 then s.angleZero else s

end Sys2Proof.Machine
end

