-- ==== Sys2Proof/Machine/Dispatch.lean ====
section
/-! DEFINITION. What each command does: one arm per row of the table, each a direct call of its meaning. -/

namespace Sys2Proof.Machine

/-- The effect of a command on everything but the queue of waiting commands. -/
def exec (i : Instr) (s : State) : Host.Outcome State Fault Refusal :=
  match i with
  | .angleZero => Sys2Proof.Machine.execAngleZero s
  | .sluiceEntry port tx => Sys2Proof.Machine.execSluiceEntry port tx s
  | .katDone pass => Sys2Proof.Machine.execKatDone pass s
  | .mrefEdge n rise high => Sys2Proof.Machine.execMrefEdge n rise high s
  | .mrefTimeout n => Sys2Proof.Machine.execMrefTimeout n s
  | .acquisitionComplete => Sys2Proof.Machine.execAcquisitionComplete s
  | .holdoverExpire => Sys2Proof.Machine.execHoldoverExpire s
  | .phasorTimeout => Sys2Proof.Machine.execPhasorTimeout s
  | .ptpLock => Sys2Proof.Machine.execPtpLock s
  | .syncTimeout => Sys2Proof.Machine.execSyncTimeout s
  | .ptpMessageRx lane msg => Sys2Proof.Machine.execPtpMessageRx lane msg s
  | .ptpTxInterval lane kind twoStep => Sys2Proof.Machine.execPtpTxInterval lane kind twoStep s
  | .ppsInEdge => Sys2Proof.Machine.execPpsInEdge s
  | .ppsOutPulse => Sys2Proof.Machine.execPpsOutPulse s
  | .frameRx lane wire fcsOk cells goose ecc pcs => Sys2Proof.Machine.execFrameRx lane wire fcsOk cells goose ecc pcs s
  | .groveFillReturn fill errs => Sys2Proof.Machine.execGroveFillReturn fill errs s
  | .missTimeout frame => Sys2Proof.Machine.execMissTimeout frame s
  | .frameVerdict frame agree cells key => Sys2Proof.Machine.execFrameVerdict frame agree cells key s
  | .egressHandover port cls => Sys2Proof.Machine.execEgressHandover port cls s
  | .egressTxStart lane => Sys2Proof.Machine.execEgressTxStart lane s
  | .egressFcs lane => Sys2Proof.Machine.execEgressFcs lane s
  | .egressTxEnd lane => Sys2Proof.Machine.execEgressTxEnd lane s
  | .mmVerifyTimer lane => Sys2Proof.Machine.execMmVerifyTimer lane s
  | .mmVerifyRx lane => Sys2Proof.Machine.execMmVerifyRx lane s
  | .calFrameRx lane => Sys2Proof.Machine.execCalFrameRx lane s
  | .pdelayInterval lane => Sys2Proof.Machine.execPdelayInterval lane s
  | .lldpRx lane preempt portExt => Sys2Proof.Machine.execLldpRx lane preempt portExt s
  | .lldpTtlExpire lane => Sys2Proof.Machine.execLldpTtlExpire lane s
  | .mkaRx secy act => Sys2Proof.Machine.execMkaRx secy act s
  | .mkaPeerTimeout lane => Sys2Proof.Machine.execMkaPeerTimeout lane s
  | .extBackoffEnd lane => Sys2Proof.Machine.execExtBackoffEnd lane s
  | .handshakeRetry link => Sys2Proof.Machine.execHandshakeRetry link s
  | .offerRx link payload => Sys2Proof.Machine.execOfferRx link payload s
  | .acceptRx link payload => Sys2Proof.Machine.execAcceptRx link payload s
  | .confirmRx link payload => Sys2Proof.Machine.execConfirmRx link payload s
  | .doneRx link payload => Sys2Proof.Machine.execDoneRx link payload s
  | .rejectRx link payload => Sys2Proof.Machine.execRejectRx link payload s
  | .extHoldExpire lane => Sys2Proof.Machine.execExtHoldExpire lane s
  | .refclkLoss n => Sys2Proof.Machine.execRefclkLoss n s
  | .refclkRestored n => Sys2Proof.Machine.execRefclkRestored n s
  | .signalDetect lane => Sys2Proof.Machine.execSignalDetect lane s
  | .signalLoss lane => Sys2Proof.Machine.execSignalLoss lane s
  | .linkFault lane cause => Sys2Proof.Machine.execLinkFault lane cause s
  | .laneUp lane speed => Sys2Proof.Machine.execLaneUp lane speed s
  | .alignTimeout lane => Sys2Proof.Machine.execAlignTimeout lane s
  | .sweepLine first second line cxl => Sys2Proof.Machine.execSweepLine first second line cxl s
  | .cxlLinkDown link => Sys2Proof.Machine.execCxlLinkDown link s
  | .cxlReadTimeout link => Sys2Proof.Machine.execCxlReadTimeout link s
  | .cxlFatalError link => Sys2Proof.Machine.execCxlFatalError link s
  | .cxlDeviceTrained link cap gt32 => Sys2Proof.Machine.execCxlDeviceTrained link cap gt32 s
  | .groveBuildDone => Sys2Proof.Machine.execGroveBuildDone s
  | .groveMigrateBucket => Sys2Proof.Machine.execGroveMigrateBucket s
  | .groveRegionSwitch => Sys2Proof.Machine.execGroveRegionSwitch s
  | .negEntryExpire way => Sys2Proof.Machine.execNegEntryExpire way s
  | .staticEntryFree => Sys2Proof.Machine.execStaticEntryFree s
  | .keyGraceEnd slot => Sys2Proof.Machine.execKeyGraceEnd slot s
  | .culWinCtlWrite value => Sys2Proof.Machine.execCulWinCtlWrite value s
  | .functionLevelReset => Sys2Proof.Machine.execFunctionLevelReset s
  | .hostLinkDown => Sys2Proof.Machine.execHostLinkDown s
  | .busMasterChange on descs => Sys2Proof.Machine.execBusMasterChange on descs s
  | .cringEnable r value => Sys2Proof.Machine.execCringEnable r value s
  | .cringDisable r value => Sys2Proof.Machine.execCringDisable r value s
  | .eringEnable e value => Sys2Proof.Machine.execEringEnable e value s
  | .eringDisable e value => Sys2Proof.Machine.execEringDisable e value s
  | .cringDoorbell r value => Sys2Proof.Machine.execCringDoorbell r value s
  | .slotReadError r => Sys2Proof.Machine.execSlotReadError r s
  | .eringDoorbell e value => Sys2Proof.Machine.execEringDoorbell e value s
  | .asyncCompletion r idx x => Sys2Proof.Machine.execAsyncCompletion r idx x s
  | .atCycleExecute x => Sys2Proof.Machine.execAtCycleExecute x s
  | .sessionIdleExpire n => Sys2Proof.Machine.execSessionIdleExpire n s
  | .opkeyLockExpire k => Sys2Proof.Machine.execOpkeyLockExpire k s
  | .cmdUndefined slot opc => Sys2Proof.Machine.execCmdUndefined slot opc s
  | .cmdDevInfo sl => Sys2Proof.Machine.execCmdDevInfo sl s
  | .cmdDevSessionChallenge sl => Sys2Proof.Machine.execCmdDevSessionChallenge sl s
  | .cmdDevSessionOpen sl card => Sys2Proof.Machine.execCmdDevSessionOpen sl card s
  | .cmdDevSessionClose sl => Sys2Proof.Machine.execCmdDevSessionClose sl s
  | .cmdDevOpkeyEnrol sl => Sys2Proof.Machine.execCmdDevOpkeyEnrol sl s
  | .cmdDevOpkeyRevoke sl => Sys2Proof.Machine.execCmdDevOpkeyRevoke sl s
  | .cmdDevStatus slot => Sys2Proof.Machine.execCmdDevStatus slot s
  | .cmdCfgStage sl => Sys2Proof.Machine.execCmdCfgStage sl s
  | .cmdCfgCommit sl => Sys2Proof.Machine.execCmdCfgCommit sl s
  | .cfgCommitRecord => Sys2Proof.Machine.execCfgCommitRecord s
  | .drainPhaseEnd => Sys2Proof.Machine.execDrainPhaseEnd s
  | .cmdCfgAbort sl => Sys2Proof.Machine.execCmdCfgAbort sl s
  | .cmdCfgRead sl => Sys2Proof.Machine.execCmdCfgRead sl s
  | .cmdCfgStatus sl => Sys2Proof.Machine.execCmdCfgStatus sl s
  | .cmdKeyLoad sl => Sys2Proof.Machine.execCmdKeyLoad sl s
  | .cmdKeyDerive sl => Sys2Proof.Machine.execCmdKeyDerive sl s
  | .cmdKeyActivate sl => Sys2Proof.Machine.execCmdKeyActivate sl s
  | .cmdKeyRollover sl => Sys2Proof.Machine.execCmdKeyRollover sl s
  | .cmdKeyArm sl => Sys2Proof.Machine.execCmdKeyArm sl s
  | .cmdKeyLimit sl => Sys2Proof.Machine.execCmdKeyLimit sl s
  | .cmdKeyDelete sl => Sys2Proof.Machine.execCmdKeyDelete sl s
  | .cmdKeyZeroize sl => Sys2Proof.Machine.execCmdKeyZeroize sl s
  | .cmdKeyClear sl => Sys2Proof.Machine.execCmdKeyClear sl s
  | .cmdKeySlotRead sl => Sys2Proof.Machine.execCmdKeySlotRead sl s
  | .cmdPortStatus slot => Sys2Proof.Machine.execCmdPortStatus slot s
  | .cmdPortCounters slot => Sys2Proof.Machine.execCmdPortCounters slot s
  | .cmdPortExtStatus slot => Sys2Proof.Machine.execCmdPortExtStatus slot s
  | .cmdPortExtFree slot => Sys2Proof.Machine.execCmdPortExtFree slot s
  | .cmdPortExtRelease slot => Sys2Proof.Machine.execCmdPortExtRelease slot s
  | .cmdGacStatus slot => Sys2Proof.Machine.execCmdGacStatus slot s
  | .cmdGacPhasor slot => Sys2Proof.Machine.execCmdGacPhasor slot s
  | .cmdGacTaiSet slot => Sys2Proof.Machine.execCmdGacTaiSet slot s
  | .cmdGroveInsert slot => Sys2Proof.Machine.execCmdGroveInsert slot s
  | .cmdGroveUpdate slot => Sys2Proof.Machine.execCmdGroveUpdate slot s
  | .cmdGroveDelete slot => Sys2Proof.Machine.execCmdGroveDelete slot s
  | .cmdGrovePin slot => Sys2Proof.Machine.execCmdGrovePin slot s
  | .cmdGroveUnpin slot => Sys2Proof.Machine.execCmdGroveUnpin slot s
  | .cmdGroveLookup slot => Sys2Proof.Machine.execCmdGroveLookup slot s
  | .cmdGroveCounterRead slot => Sys2Proof.Machine.execCmdGroveCounterRead slot s
  | .cmdGroveLineClear slot => Sys2Proof.Machine.execCmdGroveLineClear slot s
  | .cmdGroveMemAdd slot => Sys2Proof.Machine.execCmdGroveMemAdd slot s
  | .cmdGroveRebuild slot => Sys2Proof.Machine.execCmdGroveRebuild slot s
  | .cmdCiqSubmit sl => Sys2Proof.Machine.execCmdCiqSubmit sl s
  | .cmdCiqStatus sl => Sys2Proof.Machine.execCmdCiqStatus sl s
  | .cmdPkeSign sl faults => Sys2Proof.Machine.execCmdPkeSign sl faults s
  | .cmdPkeVerify sl faults => Sys2Proof.Machine.execCmdPkeVerify sl faults s
  | .cmdPkeEcdh sl faults => Sys2Proof.Machine.execCmdPkeEcdh sl faults s
  | .cmdPkeKeygen sl faults => Sys2Proof.Machine.execCmdPkeKeygen sl faults s
  | .cmdPkePubkey sl faults => Sys2Proof.Machine.execCmdPkePubkey sl faults s
  | .cmdAttStatement sl => Sys2Proof.Machine.execCmdAttStatement sl s
  | .cmdAttCert sl => Sys2Proof.Machine.execCmdAttCert sl s
  | .cmdNvaRead sl => Sys2Proof.Machine.execCmdNvaRead sl s
  | .cmdNvaProgram sl => Sys2Proof.Machine.execCmdNvaProgram sl s
  | .cmdNvaErase sl => Sys2Proof.Machine.execCmdNvaErase sl s
  | .cmdNvaProtect sl => Sys2Proof.Machine.execCmdNvaProtect sl s
  | .cmdNvaStatus sl => Sys2Proof.Machine.execCmdNvaStatus sl s
  | .cmdNvaImageLoad sl => Sys2Proof.Machine.execCmdNvaImageLoad sl s
  | .cmdFldStatus sl => Sys2Proof.Machine.execCmdFldStatus sl s
  | .cmdFldMode sl => Sys2Proof.Machine.execCmdFldMode sl s
  | .cmdFldReaderPoll sl ext badges errs => Sys2Proof.Machine.execCmdFldReaderPoll sl ext badges errs s
  | .cmdCrdRecordRead sl run => Sys2Proof.Machine.execCmdCrdRecordRead sl run s
  | .cmdCrdRecordWrite sl run => Sys2Proof.Machine.execCmdCrdRecordWrite sl run s
  | .cmdCrdBundleStage sl run => Sys2Proof.Machine.execCmdCrdBundleStage sl run s
  | .cmdScdStatus sl => Sys2Proof.Machine.execCmdScdStatus sl s
  | .cmdScdApdu sl run => Sys2Proof.Machine.execCmdScdApdu sl run s
  | .cmdTmpStatus sl => Sys2Proof.Machine.execCmdTmpStatus sl s
  | .cmdLogTamperRead sl => Sys2Proof.Machine.execCmdLogTamperRead sl s
  | .cmdLogBlazeRead sl => Sys2Proof.Machine.execCmdLogBlazeRead sl s
  | .cmdLogBlazeClear sl => Sys2Proof.Machine.execCmdLogBlazeClear sl s
  | .cmdTmpRelease sl => Sys2Proof.Machine.execCmdTmpRelease sl s
  | .cmdTmpBreach sl => Sys2Proof.Machine.execCmdTmpBreach sl s
  | .cmdTwnStatus sl => Sys2Proof.Machine.execCmdTwnStatus sl s
  | .cmdTwnTakeover sl => Sys2Proof.Machine.execCmdTwnTakeover sl s
  | .cmdPldStatus sl => Sys2Proof.Machine.execCmdPldStatus sl s
  | .cmdPldJoin sl card => Sys2Proof.Machine.execCmdPldJoin sl card s
  | .cmdPldLeave sl => Sys2Proof.Machine.execCmdPldLeave sl s
  | .cmdPldKeySchedule sl => Sys2Proof.Machine.execCmdPldKeySchedule sl s
  | .cmdAppLoad sl => Sys2Proof.Machine.execCmdAppLoad sl s
  | .cmdAppStart sl => Sys2Proof.Machine.execCmdAppStart sl s
  | .cmdAppStop sl => Sys2Proof.Machine.execCmdAppStop sl s
  | .cmdAppDelete sl => Sys2Proof.Machine.execCmdAppDelete sl s
  | .cmdAppList sl => Sys2Proof.Machine.execCmdAppList sl s
  | .cmdAppMsg sl reply badge => Sys2Proof.Machine.execCmdAppMsg sl reply badge s
  | .cmdDiagEcho slot => Sys2Proof.Machine.execCmdDiagEcho slot s
  | .cmdDiagKat slot => Sys2Proof.Machine.execCmdDiagKat slot s
  | .cmdDiagRngHealth sl => Sys2Proof.Machine.execCmdDiagRngHealth sl s
  | .dmaEnable n comp value => Sys2Proof.Machine.execDmaEnable n comp value s
  | .dmaDisable n comp value => Sys2Proof.Machine.execDmaDisable n comp value s
  | .dmaAbort n comp blocks feed => Sys2Proof.Machine.execDmaAbort n comp blocks feed s
  | .dmaDoorbell n comp tail descs => Sys2Proof.Machine.execDmaDoorbell n comp tail descs s
  | .dmaCopy n feed next => Sys2Proof.Machine.execDmaCopy n feed next s
  | .dmaFill n next => Sys2Proof.Machine.execDmaFill n next s
  | .dmaCompare n feed next => Sys2Proof.Machine.execDmaCompare n feed next s
  | .keyWindowStage slot off value => Sys2Proof.Machine.execKeyWindowStage slot off value s
  | .keyWindowCommit slot value => Sys2Proof.Machine.execKeyWindowCommit slot value s
  | .kdfToWork value => Sys2Proof.Machine.execKdfToWork value s
  | .kdfToFld value => Sys2Proof.Machine.execKdfToFld value s
  | .keyDeriveDone => Sys2Proof.Machine.execKeyDeriveDone s
  | .keyMoveSlot value => Sys2Proof.Machine.execKeyMoveSlot value s
  | .keyMovePke value => Sys2Proof.Machine.execKeyMovePke value s
  | .keyWorkClear value => Sys2Proof.Machine.execKeyWorkClear value s
  | .rootEraseDone => Sys2Proof.Machine.execRootEraseDone s
  | .slotOverwriteDone => Sys2Proof.Machine.execSlotOverwriteDone s
  | .ciqDescriptorSubmit q value => Sys2Proof.Machine.execCiqDescriptorSubmit q value s
  | .ciqRequestStart core aad inp tag key => Sys2Proof.Machine.execCiqRequestStart core aad inp tag key s
  | .ciqRequestDone core poison agree ecc => Sys2Proof.Machine.execCiqRequestDone core poison agree ecc s
  | .ciqCringHeadWrite head => Sys2Proof.Machine.execCiqCringHeadWrite head s
  | .pkeJobSubmit value owner => Sys2Proof.Machine.execPkeJobSubmit value owner s
  | .pkeYieldPoint => Sys2Proof.Machine.execPkeYieldPoint s
  | .pkeJobDone fault msg key sig ecc => Sys2Proof.Machine.execPkeJobDone fault msg key sig ecc s
  | .pkeCringHeadWrite head => Sys2Proof.Machine.execPkeCringHeadWrite head s
  | .rngInstantiate cells raw => Sys2Proof.Machine.execRngInstantiate cells raw s
  | .rngCellFail cells test => Sys2Proof.Machine.execRngCellFail cells test s
  | .rngCellReturn k raw => Sys2Proof.Machine.execRngCellReturn k raw s
  | .rngReseed raw => Sys2Proof.Machine.execRngReseed raw s
  | .rngBlockTimeout => Sys2Proof.Machine.execRngBlockTimeout s
  | .rngTestEnter value => Sys2Proof.Machine.execRngTestEnter value s
  | .rngTestExit value => Sys2Proof.Machine.execRngTestExit value s
  | .rngDataRead host => Sys2Proof.Machine.execRngDataRead host s
  | .rngRawRead host samples => Sys2Proof.Machine.execRngRawRead host samples s
  | .nvaProgramStart restore sector => Sys2Proof.Machine.execNvaProgramStart restore sector s
  | .nvaEraseStart restore sector => Sys2Proof.Machine.execNvaEraseStart restore sector s
  | .nvOpDone fail => Sys2Proof.Machine.execNvOpDone fail s
  | .sensorAlarm k fails data => Sys2Proof.Machine.execSensorAlarm k fails data s
  | .bermSample fails vbat => Sys2Proof.Machine.execBermSample fails vbat s
  | .tmpLevelWrite value => Sys2Proof.Machine.execTmpLevelWrite value s
  | .supplyDip => Sys2Proof.Machine.execSupplyDip s
  | .dipRecovery => Sys2Proof.Machine.execDipRecovery s
  | .dipSettled exact => Sys2Proof.Machine.execDipSettled exact s
  | .mainPowerLoss vbat strong => Sys2Proof.Machine.execMainPowerLoss vbat strong s
  | .domainSleepRequest d value l12 => Sys2Proof.Machine.execDomainSleepRequest d value l12 s
  | .domainEnterDone d => Sys2Proof.Machine.execDomainEnterDone d s
  | .domainWake d det => Sys2Proof.Machine.execDomainWake d det s
  | .pwrWakeWrite value => Sys2Proof.Machine.execPwrWakeWrite value s
  | .domainReady d lost fails x => Sys2Proof.Machine.execDomainReady d lost fails x s
  | .domainWakeTimeout d => Sys2Proof.Machine.execDomainWakeTimeout d s
  | .fieldPresent strong => Sys2Proof.Machine.execFieldPresent strong s
  | .fieldLost => Sys2Proof.Machine.execFieldLost s
  | .reqa => Sys2Proof.Machine.execReqa s
  | .wupa => Sys2Proof.Machine.execWupa s
  | .anticollision level known => Sys2Proof.Machine.execAnticollision level known s
  | .select level id => Sys2Proof.Machine.execSelect level id s
  | .hlta => Sys2Proof.Machine.execHlta s
  | .rats => Sys2Proof.Machine.execRats s
  | .pps dri dsi => Sys2Proof.Machine.execPps dri dsi s
  | .sDeselect => Sys2Proof.Machine.execSDeselect s
  | .fldWtxSend => Sys2Proof.Machine.execFldWtxSend s
  | .getIdentity p1 p2 data => Sys2Proof.Machine.execGetIdentity p1 p2 data s
  | .getCert p1 p2 data => Sys2Proof.Machine.execGetCert p1 p2 data s
  | .getAttest p1 p2 data => Sys2Proof.Machine.execGetAttest p1 p2 data s
  | .sealInit p1 p2 data => Sys2Proof.Machine.execSealInit p1 p2 data s
  | .sealFinish p1 p2 data => Sys2Proof.Machine.execSealFinish p1 p2 data s
  | .mbxRead p1 p2 data le => Sys2Proof.Machine.execMbxRead p1 p2 data le s
  | .mbxProgram p1 p2 data good => Sys2Proof.Machine.execMbxProgram p1 p2 data good s
  | .mbxErase p1 p2 data good => Sys2Proof.Machine.execMbxErase p1 p2 data good s
  | .apduUnsupported cla ins => Sys2Proof.Machine.execApduUnsupported cla ins s
  | .mailboxProcess => Sys2Proof.Machine.execMailboxProcess s
  | .cardInsert card => Sys2Proof.Machine.execCardInsert card s
  | .cardRemove block => Sys2Proof.Machine.execCardRemove block s
  | .scdInsert card => Sys2Proof.Machine.execScdInsert card s
  | .scdRemove => Sys2Proof.Machine.execScdRemove s
  | .twinHelloSend => Sys2Proof.Machine.execTwinHelloSend s
  | .helloRx payload ok => Sys2Proof.Machine.execHelloRx payload ok s
  | .timeRx payload ok => Sys2Proof.Machine.execTimeRx payload ok s
  | .replayRx payload ok => Sys2Proof.Machine.execReplayRx payload ok s
  | .readyRx payload ok => Sys2Proof.Machine.execReadyRx payload ok s
  | .roleRx payload ok => Sys2Proof.Machine.execRoleRx payload ok s
  | .leadstateRx payload ok => Sys2Proof.Machine.execLeadstateRx payload ok s
  | .twinPeerLost => Sys2Proof.Machine.execTwinPeerLost s
  | .twinReadyDeadline cycle => Sys2Proof.Machine.execTwinReadyDeadline cycle s
  | .twinTakeoverEffect => Sys2Proof.Machine.execTwinTakeoverEffect s
  | .peerRefClear => Sys2Proof.Machine.execPeerRefClear s
  | .twinMismatchRepeat => Sys2Proof.Machine.execTwinMismatchRepeat s
  | .keyDiffDetect => Sys2Proof.Machine.execKeyDiffDetect s
  | .beaconSend => Sys2Proof.Machine.execBeaconSend s
  | .beaconRx payload => Sys2Proof.Machine.execBeaconRx payload s
  | .reportSend => Sys2Proof.Machine.execReportSend s
  | .reportRx payload => Sys2Proof.Machine.execReportRx payload s
  | .leaderTimeout => Sys2Proof.Machine.execLeaderTimeout s
  | .powerOn => Sys2Proof.Machine.execPowerOn s
  | .railReset sram => Sys2Proof.Machine.execRailReset sram s
  | .serdesRailReset => Sys2Proof.Machine.execSerdesRailReset s
  | .io33RailReset => Sys2Proof.Machine.execIo33RailReset s
  | .perst => Sys2Proof.Machine.execPerst s
  | .rootRestart cardA cardB => Sys2Proof.Machine.execRootRestart cardA cardB s
  | .rootResume => Sys2Proof.Machine.execRootResume s
  | .watchdogExpire cardA cardB => Sys2Proof.Machine.execWatchdogExpire cardA cardB s
  | .watchdogKick value => Sys2Proof.Machine.execWatchdogKick value s
  | .stageB1 => Sys2Proof.Machine.execStageB1 s
  | .stageB2 cardA cardB => Sys2Proof.Machine.execStageB2 cardA cardB s
  | .stageB3 => Sys2Proof.Machine.execStageB3 s
  | .stageB4 fails => Sys2Proof.Machine.execStageB4 fails s
  | .stageB5 present late => Sys2Proof.Machine.execStageB5 present late s
  | .stageB6 late => Sys2Proof.Machine.execStageB6 late s
  | .stageB7 => Sys2Proof.Machine.execStageB7 s
  | .devIrqSetWrite pair src => Sys2Proof.Machine.execDevIrqSetWrite pair src s
  | .pairStart pair => Sys2Proof.Machine.execPairStart pair s
  | .pairReset pair => Sys2Proof.Machine.execPairReset pair s
  | .interruptTake pair => Sys2Proof.Machine.execInterruptTake pair s
  | .lockstepMismatch pair => Sys2Proof.Machine.execLockstepMismatch pair s
  | .add pair rd rs1 rs2 => Sys2Proof.Machine.execAdd pair rd rs1 rs2 s
  | .sub pair rd rs1 rs2 => Sys2Proof.Machine.execSub pair rd rs1 rs2 s
  | .and pair rd rs1 rs2 => Sys2Proof.Machine.execAnd pair rd rs1 rs2 s
  | .or pair rd rs1 rs2 => Sys2Proof.Machine.execOr pair rd rs1 rs2 s
  | .xor pair rd rs1 rs2 => Sys2Proof.Machine.execXor pair rd rs1 rs2 s
  | .shl pair rd rs1 rs2 => Sys2Proof.Machine.execShl pair rd rs1 rs2 s
  | .shr pair rd rs1 rs2 => Sys2Proof.Machine.execShr pair rd rs1 rs2 s
  | .sar pair rd rs1 rs2 => Sys2Proof.Machine.execSar pair rd rs1 rs2 s
  | .slt pair rd rs1 rs2 => Sys2Proof.Machine.execSlt pair rd rs1 rs2 s
  | .sltu pair rd rs1 rs2 => Sys2Proof.Machine.execSltu pair rd rs1 rs2 s
  | .mul pair rd rs1 rs2 => Sys2Proof.Machine.execMul pair rd rs1 rs2 s
  | .mulhu pair rd rs1 rs2 => Sys2Proof.Machine.execMulhu pair rd rs1 rs2 s
  | .mulhs pair rd rs1 rs2 => Sys2Proof.Machine.execMulhs pair rd rs1 rs2 s
  | .divu pair rd rs1 rs2 => Sys2Proof.Machine.execDivu pair rd rs1 rs2 s
  | .divs pair rd rs1 rs2 => Sys2Proof.Machine.execDivs pair rd rs1 rs2 s
  | .remu pair rd rs1 rs2 => Sys2Proof.Machine.execRemu pair rd rs1 rs2 s
  | .rems pair rd rs1 rs2 => Sys2Proof.Machine.execRems pair rd rs1 rs2 s
  | .addi pair rd rs1 imm => Sys2Proof.Machine.execAddi pair rd rs1 imm s
  | .andi pair rd rs1 imm => Sys2Proof.Machine.execAndi pair rd rs1 imm s
  | .ori pair rd rs1 imm => Sys2Proof.Machine.execOri pair rd rs1 imm s
  | .xori pair rd rs1 imm => Sys2Proof.Machine.execXori pair rd rs1 imm s
  | .shli pair rd rs1 imm => Sys2Proof.Machine.execShli pair rd rs1 imm s
  | .shri pair rd rs1 imm => Sys2Proof.Machine.execShri pair rd rs1 imm s
  | .sari pair rd rs1 imm => Sys2Proof.Machine.execSari pair rd rs1 imm s
  | .slti pair rd rs1 imm => Sys2Proof.Machine.execSlti pair rd rs1 imm s
  | .sltui pair rd rs1 imm => Sys2Proof.Machine.execSltui pair rd rs1 imm s
  | .li pair rd imm => Sys2Proof.Machine.execLi pair rd imm s
  | .lis pair rd imm => Sys2Proof.Machine.execLis pair rd imm s
  | .ld pair rt rb mode size low x => Sys2Proof.Machine.execLd pair rt rb mode size low x s
  | .st pair rt rb mode size low x => Sys2Proof.Machine.execSt pair rt rb mode size low x s
  | .lea pair rt rb mode size low => Sys2Proof.Machine.execLea pair rt rb mode size low s
  | .cas pair rd rs1 rs2 x => Sys2Proof.Machine.execCas pair rd rs1 rs2 x s
  | .swap pair rd rs1 rs2 x => Sys2Proof.Machine.execSwap pair rd rs1 rs2 x s
  | .amoadd pair rd rs1 rs2 x => Sys2Proof.Machine.execAmoadd pair rd rs1 rs2 x s
  | .mcpy pair rd rs1 size x y => Sys2Proof.Machine.execMcpy pair rd rs1 size x y s
  | .bcond pair cond rs1 rs2 off => Sys2Proof.Machine.execBcond pair cond rs1 rs2 off s
  | .jmp pair off => Sys2Proof.Machine.execJmp pair off s
  | .call pair off x => Sys2Proof.Machine.execCall pair off x s
  | .jr pair rs1 => Sys2Proof.Machine.execJr pair rs1 s
  | .callr pair rs1 x => Sys2Proof.Machine.execCallr pair rs1 x s
  | .ret pair x => Sys2Proof.Machine.execRet pair x s
  | .csrr pair rd sel => Sys2Proof.Machine.execCsrr pair rd sel s
  | .csrw pair rs sel => Sys2Proof.Machine.execCsrw pair rs sel s
  | .scall pair => Sys2Proof.Machine.execScall pair s
  | .sret pair => Sys2Proof.Machine.execSret pair s
  | .retx pair x => Sys2Proof.Machine.execRetx pair x s
  | .fence pair => Sys2Proof.Machine.execFence pair s
  | .wfi pair => Sys2Proof.Machine.execWfi pair s
  | .ebreak pair => Sys2Proof.Machine.execEbreak pair s
  | .rep pair n word xs => Sys2Proof.Machine.execRep pair n word xs s
  | .repi pair word => Sys2Proof.Machine.execRepi pair word s
  | .repiIteration pair x y => Sys2Proof.Machine.execRepiIteration pair x y s
  | .illegalInstruction pair word => Sys2Proof.Machine.execIllegalInstruction pair word s
  | .cmv pair rd rs1 => Sys2Proof.Machine.execCmv pair rd rs1 s
  | .caddr pair rd rs1 rs2 => Sys2Proof.Machine.execCaddr pair rd rs1 rs2 s
  | .cdrop pair rd rs1 rs2 => Sys2Proof.Machine.execCdrop pair rd rs1 rs2 s
  | .cclip pair rd rs1 rs2 => Sys2Proof.Machine.execCclip pair rd rs1 rs2 s
  | .cclipx pair rd rs1 rs2 => Sys2Proof.Machine.execCclipx pair rd rs1 rs2 s
  | .cbind pair rd rs1 rs2 => Sys2Proof.Machine.execCbind pair rd rs1 rs2 s
  | .cunbind pair rd rs1 rs2 => Sys2Proof.Machine.execCunbind pair rd rs1 rs2 s
  | .cstrip pair rd rs1 => Sys2Proof.Machine.execCstrip pair rd rs1 s
  | .cwithin pair rd rs1 rs2 => Sys2Proof.Machine.execCwithin pair rd rs1 rs2 s
  | .csame pair rd rs1 rs2 => Sys2Proof.Machine.execCsame pair rd rs1 rs2 s
  | .cinsp pair rd rs1 sel => Sys2Proof.Machine.execCinsp pair rd rs1 sel s
  | .caddi pair rd rs1 imm => Sys2Proof.Machine.execCaddi pair rd rs1 imm s
  | .registerWrite agent addr bytes value x => Sys2Proof.Machine.execRegisterWrite agent addr bytes value x s
  | .registerRead agent addr bytes x => Sys2Proof.Machine.execRegisterRead agent addr bytes x s
  | .twinPairingRetry => Sys2Proof.Machine.execTwinPairingRetry s
  | .gdoiMessageRx act => Sys2Proof.Machine.execGdoiMessageRx act s
  | .lldpTxInterval lane => Sys2Proof.Machine.execLldpTxInterval lane s
  | .mkaTxInterval secy gen => Sys2Proof.Machine.execMkaTxInterval secy gen s

end Sys2Proof.Machine
end

