-- ==== Sys2Proof/Safety.lean ====
section
/-! DEFINITION. What a sound state and a safe run are, and how a command slot begins and ends, in the terms the statements
use. -/

namespace Sys2Proof.Machine

/-- The tables of the device that software reads by address are in canonical form: keys rising, no entry at its default. -/
structure State.Sound (s : State) : Prop where
  /-- The register file is in canonical form. -/
  regs : Tbl.wf regReset s.regs = true
  /-- On-chip memory is in canonical form. -/
  mem : Tbl.wf (fun _ => (0 : Byte)) s.mem = true

/-- No link of a run of `n` steps from a state stops with a fault or a refusal. -/
def runsOn : Nat → State → Prop
  | 0, _ => True
  | n + 1, s => ∃ t, step s = .next t ∧ runsOn n t

/-! ### What a command leaves alone -/

/-- The parts of State, but its queue. -/
inductive StatePart where
  | regs | regBad | latch | ctrs | free | gac | cul | keys | ciq | pke | rng | nv | berm | pwr | dma | pairs | ecc | grv | fp | slu | lanes
  | ctxs | ext | cal | cfg | boot | twin | apps | fld | crd | mem | tags | cxl | out
deriving DecidableEq, Repr

/-- Two states agree in a part. -/
def State.agree (s t : State) : StatePart → Prop
  | .regs => t.regs = s.regs
  | .regBad => t.regBad = s.regBad
  | .latch => t.latch = s.latch
  | .ctrs => t.ctrs = s.ctrs
  | .free => t.free = s.free
  | .gac => t.gac = s.gac
  | .cul => t.cul = s.cul
  | .keys => t.keys = s.keys
  | .ciq => t.ciq = s.ciq
  | .pke => t.pke = s.pke
  | .rng => t.rng = s.rng
  | .nv => t.nv = s.nv
  | .berm => t.berm = s.berm
  | .pwr => t.pwr = s.pwr
  | .dma => t.dma = s.dma
  | .pairs => t.pairs = s.pairs
  | .ecc => t.ecc = s.ecc
  | .grv => t.grv = s.grv
  | .fp => t.fp = s.fp
  | .slu => t.slu = s.slu
  | .lanes => t.lanes = s.lanes
  | .ctxs => t.ctxs = s.ctxs
  | .ext => t.ext = s.ext
  | .cal => t.cal = s.cal
  | .cfg => t.cfg = s.cfg
  | .boot => t.boot = s.boot
  | .twin => t.twin = s.twin
  | .apps => t.apps = s.apps
  | .fld => t.fld = s.fld
  | .crd => t.crd = s.crd
  | .mem => t.mem = s.mem
  | .tags => t.tags = s.tags
  | .cxl => t.cxl = s.cxl
  | .out => t.out = s.out

/-- The two states agree in every part but those listed, and in the queue. -/
def State.onlyIn (s t : State) (l : List StatePart) : Prop := (∀ p, p ∉ l → s.agree t p) ∧ t.pending = s.pending

/-- The registers of a block of addresses agree. -/
def State.sameRegs (s t : State) (p : Nat → Bool) : Prop := ∀ a, p a = true → t.rd a = s.rd a

/-- A register that placing an event or a reply changes: the pending interrupt sources, the count of unmapped events, the index and the
lost count of an event ring, the index of a command ring, and the pending bits of MSI-X. -/
def eventReg (a : Nat) : Bool :=
  (decide (R.DEV_IRQ_PEND 0 ≤ a) && decide (a < R.DEV_IRQ_PEND 40)) || decide (a = R.CUL_EV_UNMAPPED)
    || (List.range 64).any (fun e => decide (a = R.CUL_ERING_IDX e) || decide (a = R.CUL_ERING_LOST e))
    || (List.range 256).any (fun r => decide (a = R.CUL_CRING_IDX r)) || decide (R.MSIX_PBA 0 ≤ a)

/-! ### Command slots (R206 to R213) -/

/-- The slot at HEAD of its ring, as the device takes it for an opcode. -/
def CmdSpec.held (c : CmdSpec) (sl : Slot) (s : State) : Held :=
  slotHeld sl c.opc (s.f (F.CUL_CRING_IDX_HEAD sl.ring) % s.cringSize sl.ring)

/-- The state in which the command begins: its slot taken and its session in use. -/
def CmdSpec.taken (c : CmdSpec) (sl : Slot) (s : State) : State := (s.takeSlot sl.ring).touch (c.held sl s)

/-- The slot's turn has come, OWN is 1, the domain that the command reaches into is ON, neither ASYNC nor AT_CYCLE is set, and every check of Table CUL-4 passes. -/
def CmdSpec.starts (c : CmdSpec) (sl : Slot) (s : State) : Bool :=
  s.turn sl.ring && decide (sl.own = 1) && (c.asleep s).isNone && !bitAt sl.flags.toNat 0 && !bitAt sl.flags.toNat 2
    && (frontCheck c sl.ver.toNat (c.held sl s) (s.takeSlot sl.ring)).isNone && (fullCheck c (c.held sl s) (c.taken sl s)).isNone

/-- The command has ended in a state with a reply. -/
def CmdSpec.ends (c : CmdSpec) (sl : Slot) (s : State) (r : Reply) (u : State) : State := u.finish (c.held sl s) r false

/-- The command has started in a state and waits. -/
def CmdSpec.waits (c : CmdSpec) (sl : Slot) (s : State) (w : Wait) (u : State) : State :=
  (u.endWait (c.held sl s)).pushWait (c.held sl s) w (c.objs (c.held sl s))

/-- The reply of the command is among what has left the device. -/
def CmdSpec.replied (c : CmdSpec) (sl : Slot) (s : State) (r : Reply) (t : State) : Prop :=
  .reply sl.ring (c.held sl s).idx r.status c.opc sl.tag.toNat r.detail r.result s.gacNow ∈ t.out

/-! ### Instructions of the control pairs (R293 to R316) -/

/-- The pair can issue an instruction, and the fetch at pcc meets no fault and no wait; what the decoder finds of its
codewords, if anything, changes nothing. -/
def State.issues (s : State) (k : Issue) : Prop :=
  s.canIssue k.val = true ∧ s.fetched k.val (s.pr k.val).pcc.addr k.ecc = s ∧ s.fetch k.val (s.pr k.val).pcc.addr = .ok ()

/-- The special registers and the condition of a pair, beside pcc and the general registers, are as they were. -/
def Pair.sameRest (p q : Pair) : Prop :=
  q.ecp = p.ecp ∧ q.scentry = p.scentry ∧ q.scsp = p.scsp ∧ q.scret = p.scret ∧ q.ecause = p.ecause ∧ q.eval = p.eval ∧
    q.mpuBase = p.mpuBase ∧ q.mpuAttr = p.mpuAttr ∧ q.marked = p.marked ∧ q.wfi = p.wfi ∧ q.repi = p.repi ∧ q.stall = p.stall

/-- A pair's registers after an instruction that writes one register: c_rd holds the value (c0 stays null, R293), pcc has
moved on by `n` bytes, and nothing else of the pair has changed. -/
def Pair.gives (p q : Pair) (rd : Nat) (v : CReg) (n : Nat) : Prop :=
  q.reg rd = (if rd = 0 then CReg.null else v) ∧ (∀ i, i ≠ rd → q.reg i = p.reg i) ∧ q.pcc = p.pcc.setAddr (p.pcc.addr + n) ∧ p.sameRest q

/-- The instruction has written one register of its pair and changed nothing else of the device. -/
def State.gives (s t : State) (k : Issue) (rd : Fin 16) (v : CReg) : Prop :=
  (s.pr k.val).gives (t.pr k.val) rd.val v 4 ∧ (∀ j, j ≠ k.val → t.pr j = s.pr j) ∧ s.onlyIn t [.pairs]

/-- The integer instructions of a pair (majors 0x01 to 0x04 of Table ISA-9). -/
def isInteger (i : Instr) (k : Issue) : Bool :=
  match i with
  | .add q .. | .sub q .. | .and q .. | .or q .. | .xor q .. | .shl q .. | .shr q .. | .sar q .. | .slt q .. | .sltu q ..
  | .mul q .. | .mulhu q .. | .mulhs q .. | .divu q .. | .divs q .. | .remu q .. | .rems q ..
  | .addi q .. | .andi q .. | .ori q .. | .xori q .. | .shli q .. | .shri q .. | .sari q .. | .slti q .. | .sltui q ..
  | .li q .. | .lis q .. => q = k
  | _ => false

/-- What R295 states of every tagged capability. -/
structure CReg.Legal (c : CReg) : Prop where
  span : c.zc ≤ 60
  start : 0 ≤ c.spanStart
  addr : (c.addr : Int) - c.spanStart ≤ (2 ^ c.spanLog : Nat)
  order : c.loU ≤ c.hiU
  units : c.hiU < min (2 ^ c.spanLog) 16384
  top : c.top ≤ (2 ^ 64 : Nat)
  pos : c.pos = 2 → (c.addr : Int) = c.spanStart + (2 ^ c.spanLog : Nat)

/-- The rows that are a slot of a command ring with a defined opcode: what the device does with that opcode, and the slot. -/
def slotOf (i : Instr) : Option (CmdSpec × Slot) :=
  match i with
  | .cmdAppDelete sl => some (specAppDelete, sl)
  | .cmdAppList sl => some (specAppList, sl)
  | .cmdAppLoad sl => some (specAppLoad, sl)
  | .cmdAppMsg sl reply badge => some (specAppMsg reply badge, sl)
  | .cmdAppStart sl => some (specAppStart, sl)
  | .cmdAppStop sl => some (specAppStop, sl)
  | .cmdAttCert sl => some (specAttCert, sl)
  | .cmdAttStatement sl => some (specAttStatement, sl)
  | .cmdCfgAbort sl => some (specCfgAbort, sl)
  | .cmdCfgCommit sl => some (specCfgCommit, sl)
  | .cmdCfgRead sl => some (specCfgRead, sl)
  | .cmdCfgStage sl => some (specCfgStage, sl)
  | .cmdCfgStatus sl => some (specCfgStatus, sl)
  | .cmdCiqStatus sl => some (specCiqStatus, sl)
  | .cmdCiqSubmit sl => some (specCiqSubmit, sl)
  | .cmdCrdBundleStage sl run => some (specCardStage run, sl)
  | .cmdCrdRecordRead sl run => some (specCardRead run, sl)
  | .cmdCrdRecordWrite sl run => some (specCardWrite run, sl)
  | .cmdDevInfo sl => some (specDevInfo, sl)
  | .cmdDevOpkeyEnrol sl => some (specEnrol, sl)
  | .cmdDevOpkeyRevoke sl => some (specRevoke, sl)
  | .cmdDevSessionChallenge sl => some (specChallenge, sl)
  | .cmdDevSessionClose sl => some (specClose, sl)
  | .cmdDevSessionOpen sl card => some (specOpen card, sl)
  | .cmdDevStatus slot => some (specDevStatus, slot)
  | .cmdDiagEcho slot => some (specDiagEcho, slot)
  | .cmdDiagKat slot => some (specDiagKat, slot)
  | .cmdDiagRngHealth sl => some (specRngHealth, sl)
  | .cmdFldMode sl => some (specFldMode, sl)
  | .cmdFldStatus sl => some (specFldStatus, sl)
  | .cmdGacPhasor slot => some (specGacPhasor, slot)
  | .cmdGacStatus slot => some (specGacStatus, slot)
  | .cmdGacTaiSet slot => some (specGacTaiSet, slot)
  | .cmdGroveCounterRead slot => some (specGroveCounterRead, slot)
  | .cmdGroveDelete slot => some (specGroveDelete, slot)
  | .cmdGroveInsert slot => some (specGroveInsert, slot)
  | .cmdGroveLineClear slot => some (specGroveLineClear, slot)
  | .cmdGroveLookup slot => some (specGroveLookup, slot)
  | .cmdGroveMemAdd slot => some (specGroveMemAdd, slot)
  | .cmdGrovePin slot => some (specGrovePin, slot)
  | .cmdGroveRebuild slot => some (specGroveRebuild, slot)
  | .cmdGroveUnpin slot => some (specGroveUnpin, slot)
  | .cmdGroveUpdate slot => some (specGroveUpdate, slot)
  | .cmdKeyActivate sl => some (specKeyActivate, sl)
  | .cmdKeyArm sl => some (specKeyArm, sl)
  | .cmdKeyClear sl => some (specKeyClear, sl)
  | .cmdKeyDelete sl => some (specKeyDelete, sl)
  | .cmdKeyDerive sl => some (specKeyDerive, sl)
  | .cmdKeyLimit sl => some (specKeyLimit, sl)
  | .cmdKeyLoad sl => some (specKeyLoad, sl)
  | .cmdKeyRollover sl => some (specKeyRollover, sl)
  | .cmdKeySlotRead sl => some (specKeySlotRead, sl)
  | .cmdKeyZeroize sl => some (specKeyZeroize, sl)
  | .cmdLogBlazeClear sl => some (specLogBlazeClear, sl)
  | .cmdLogBlazeRead sl => some (specLogBlazeRead, sl)
  | .cmdLogTamperRead sl => some (specLogTamperRead, sl)
  | .cmdNvaErase sl => some (specNvaErase, sl)
  | .cmdNvaImageLoad sl => some (specNvaImageLoad, sl)
  | .cmdNvaProgram sl => some (specNvaProgram, sl)
  | .cmdNvaProtect sl => some (specNvaProtect, sl)
  | .cmdNvaRead sl => some (specNvaRead, sl)
  | .cmdNvaStatus sl => some (specNvaStatus, sl)
  | .cmdPkeEcdh sl faults => some (specPkeEcdh faults, sl)
  | .cmdPkeKeygen sl faults => some (specPkeKeygen faults, sl)
  | .cmdPkePubkey sl faults => some (specPkePubkey faults, sl)
  | .cmdPkeSign sl faults => some (specPkeSign faults, sl)
  | .cmdPkeVerify sl faults => some (specPkeVerify faults, sl)
  | .cmdPldJoin sl card => some (specPldJoin card, sl)
  | .cmdPldKeySchedule sl => some (specPldKeySchedule, sl)
  | .cmdPldLeave sl => some (specPldLeave, sl)
  | .cmdPldStatus sl => some (specPldStatus, sl)
  | .cmdPortCounters slot => some (specPortCounters, slot)
  | .cmdPortExtFree slot => some (specPortExtFree, slot)
  | .cmdPortExtRelease slot => some (specPortExtRelease, slot)
  | .cmdPortExtStatus slot => some (specPortExtStatus, slot)
  | .cmdPortStatus slot => some (specPortStatus, slot)
  | .cmdScdApdu sl run => some (specScdApdu run, sl)
  | .cmdScdStatus sl => some (specScdStatus, sl)
  | .cmdTmpBreach sl => some (specTmpBreach, sl)
  | .cmdTmpRelease sl => some (specTmpRelease, sl)
  | .cmdTmpStatus sl => some (specTmpStatus, sl)
  | .cmdTwnStatus sl => some (specTwnStatus, sl)
  | .cmdTwnTakeover sl => some (specTwnTakeover, sl)
  | .cmdFldReaderPoll sl ext badges errs => some (specReaderPoll ext badges errs, sl)
  | _ => none

end Sys2Proof.Machine
end

