-- ==== Sys2Proof/Certificates/Slice0/Obligations.lean ====
section
/-! DEFINITION. The statements about the model, each a `def Obligations.<Name> : Prop`, for the provers. -/

open Sys2Proof Sys2Proof.Machine

/-- A step with a command in front of the queue executes that command on the state with the rest of the queue. On an empty queue the block idles for one tick of its clock (the queue and the idle tick are the
model's own: log entries 2 and 3). -/
def Obligations.StepRunsExec : Prop :=
  (∀ (s : State) (c : Instr) (rest : List Instr), s.pending = c :: rest → step s = exec c { s with pending := rest })
  ∧ (∀ s : State, s.pending = [] → step s = .next s.idleTick)

/-- No command ends in a fault or a refusal, on any state and any operands, and none adds a command to the queue or takes another one from it: after n steps the first n commands are gone and the rest stand as they were. -/
def Obligations.QueueDrains : Prop :=
  (∀ (s : State) (c : Instr) (rest : List Instr), s.pending = c :: rest → ∃ t, step s = .next t ∧ t.pending = rest)
  ∧ (∀ (i : Instr) (s : State), ∃ t, exec i s = .next t ∧ t.pending = s.pending)

/-- From every state whose register file and on-chip memory are in canonical form (keys rising, no entry at its reset value or at what unwritten memory reads as), a step leads to such a state, so that equal registers and equal memory stay equal
data. -/
def Obligations.SoundKept : Prop := ∀ s t : State, s.Sound → step s = .next t → t.Sound

/-- The state after reset has an empty queue and its register file and on-chip memory in canonical form, memory listing nothing. -/
def Obligations.SoundReset : Prop := State.reset.Sound ∧ State.reset.mem = [] ∧ State.reset.pending = []

/-- MREF_EDGE: a candidate that R31 discards, or one on a disabled input, changes nothing; an accepted one is recorded with its
period and the count of the good edges before it. MREF_TIMEOUT: the input becomes invalid, and LOCKED_MAINS with no other valid input goes to HOLDOVER with HOLD_LEFT 64
and the applied frequency latched. PHASOR_TIMEOUT: the phasor becomes invalid, and LOCKED_PHASOR goes to HOLDOVER.
ACQUISITION_COMPLETE: ACQ is 0 and the state is that of the source acquired. HOLDOVER_EXPIRE, once HOLD_LEFT is 0, is that angle 0
(log entry 60): on the backup cell, where the GAC core alone runs, the state is NOMINAL with PTP locked, else FREE, and, unless
acquisition runs, the first step of the slew is applied; before, it changes nothing. -/
def Obligations.GacReferences : Prop :=
  ∀ s : State,
    (∀ (n : Fin 3) (rise high : Nat),
      (bitAt (s.f F.GAC_CTL_MREF_EN) n = false ∨ edgeDiscarded (s.f F.GAC_CTL_MINW) (s.mrefIn n).last rise high = true →
        exec (.mrefEdge n rise high) s = .next s)
      ∧ (bitAt (s.f F.GAC_CTL_MREF_EN) n = true → edgeDiscarded (s.f F.GAC_CTL_MINW) (s.mrefIn n).last rise high = false →
        ∃ t, exec (.mrefEdge n rise high) s = .next t ∧
          t.gac.mref = s.gac.mref.set n ⟨some rise, (s.mrefIn n).last.map (rise - ·),
            goodAfter (s.mrefIn n).good ((s.mrefIn n).last.map (rise - ·)) (s.mrefIn n).period⟩))
    ∧ (∀ n : Fin 3, bitAt (s.f F.GAC_STATUS_MREF_VALID) n = true →
        ∃ t, exec (.mrefTimeout n) s = .next t ∧ bitAt (t.f F.GAC_STATUS_MREF_VALID) n = false ∧
          (s.gst = gMains → s.f F.GAC_STATUS_MREF_VALID &&& s.f F.GAC_CTL_MREF_EN = 2 ^ n.val →
            t.gst = gHoldover ∧ t.f F.GAC_STATUS_HOLD_LEFT = 64 ∧ t.rd R.GAC_FREQ_HOLD = s.rd R.GAC_FREQ))
    ∧ (s.phasorValid = true → 5 ≤ s.gac.phasorMiss →
        ∃ t, exec .phasorTimeout s = .next t ∧ t.phasorValid = false ∧
          (s.gst = gPhasor → t.gst = gHoldover ∧ t.f F.GAC_STATUS_HOLD_LEFT = 64 ∧ t.rd R.GAC_FREQ_HOLD = s.rd R.GAC_FREQ))
    ∧ (s.fb F.GAC_STATUS_ACQ = true → 16 ≤ s.gac.close →
        ∃ t, exec .acquisitionComplete s = .next t ∧ t.fb F.GAC_STATUS_ACQ = false ∧ t.f F.GAC_STATUS_HOLD_LEFT = 0 ∧
          t.gst = (if s.gac.acqMains then gMains else gPhasor))
    ∧ (s.gst ≠ gHoldover ∨ s.f F.GAC_STATUS_HOLD_LEFT ≠ 0 → exec .holdoverExpire s = .next s)
    ∧ (s.gst = gHoldover → s.f F.GAC_STATUS_HOLD_LEFT = 0 →
        ∃ t, exec .holdoverExpire s = .next t ∧ exec .angleZero s = .next t ∧
          (s.berm.backup = true → s.fb F.TWN_STATUS_PEER_REF = false →
            t.gst = (if s.ptpLocked then gNominal else gFree) ∧
            (s.fb F.GAC_STATUS_ACQ = false → t.rd R.GAC_FREQ = BitVec.ofNat 32 (slewStep (s.f F.GAC_FREQ_FREQ) s.nominal))))

/-- PTP_LOCK with the servo offset within 100 ns sets LOCK and takes FREE to NOMINAL. SYNC_TIMEOUT loses the lock: LOCK and
TAI_OK are 0, the class is 255, PTP_LOST is set, and NOMINAL goes to FREE. PPS_IN_EDGE applies the TAI seconds that were set by
command. PPS_OUT_PULSE drives PPS_OUT for WIDTH microseconds and changes nothing else. -/
def Obligations.PtpTime : Prop :=
  ∀ s : State,
    (s.ptpLocked = false → -100 ≤ (s.rd R.GAC_PTP_OFS).toInt → (s.rd R.GAC_PTP_OFS).toInt ≤ 100 →
      ∃ t, exec .ptpLock s = .next t ∧ t.ptpLocked = true ∧ t.f F.GAC_PTP_STATUS_CLASS = s.ptpClass % 256 ∧
        t.gst = (if s.gst = gFree then gNominal else s.gst))
    ∧ (s.ptpLocked = true →
      ∃ t, exec .syncTimeout s = .next t ∧ t.ptpLocked = false ∧ t.f F.GAC_PTP_STATUS_CLASS = 255 ∧
        t.fb F.GAC_ZERO_SEQ_TAI_OK = false ∧ bitAt (t.rd R.GAC_EVT).toNat 6 = true ∧ (s.gst = gNominal → t.gst = gFree))
    ∧ (∀ sec, s.fb F.GAC_PPS_CTL_PPS_IN_EN = true → s.gac.taiSet = some sec →
      ∃ t, exec .ppsInEdge s = .next t ∧ t.taiNs = sec * 10 ^ 9 ∧ t.gac.taiSet = none ∧ t.gac.master = true ∧ t.regs = s.regs)
    ∧ exec .ppsOutPulse s = .next (s.emit (.pps (s.f F.GAC_PPS_CTL_WIDTH)))

/-- FRAME_RX on a direct lane that is UP, with no receive SecY in force: a runt is counted, and nothing more is done with it; a good frame that
is neither MAC control nor sent to a reserved address counts in RX_FRAMES and its octets in RX_OCTETS, enters the Basin as one frame under the
stream key of its headers, and goes to its one lookup. While HALT is in force a frame only counts in TMP_HALT_DROP; a lane that is not UP takes nothing.
What the lane's receiver has counted is shown first, and the receive strobe of calibration comes before the frame is looked at. -/
def Obligations.FrameArrival : Prop :=
  ∀ (s : State) (lane : Fin 32) (wire : List Byte) (fcs : Bool) (cells : BitVec 8) (goose : Option GooseInfo) (ecc : Option EccHit) (pcs : PcsCount)
    (v w : State), v = s.pcsCount lane pcs → w = v.calReceive lane →
    (s.laneUp lane = false → exec (.frameRx lane wire fcs cells goose ecc pcs) s = .next s)
    ∧ (s.laneUp lane = true → v.service ≠ 0 → 4 ≤ v.level →
        exec (.frameRx lane wire fcs cells goose ecc pcs) s = .next (v.addF F.TMP_HALT_DROP_COUNT 1))
    ∧ (s.laneUp lane = true → v.service ≠ 0 → v.level < 4 → w.isExt lane = false → bitAt (w.rd (w.secyOf lane)).toNat 31 = false →
        hasETag wire = false → w.oos lane = false → frameLen wire < 64 → fcs = true →
        exec (.frameRx lane wire fcs cells goose ecc pcs) s =
          .next (((w.pc lane 0x300).bump (0x200000 + lane * 0x800 + 0x308) (frameLen wire)).pc lane 0x318))
    ∧ (s.laneUp lane = true → v.service ≠ 0 → v.level < 4 → w.isExt lane = false → bitAt (w.rd (w.secyOf lane)).toNat 31 = false →
        hasETag wire = false → w.oos lane = false → 64 ≤ frameLen wire → frameLen wire ≤ maxLen (w.rd (R.LNE_PORT_CTL lane)) →
        fcs = true → reservedDa wire = false → (hdrsOf wire).et wire ≠ 0x8808 →
        ∃ (f : Frame) (u : State), exec (.frameRx lane wire fcs cells goose ecc pcs) s = .next (u.lookup f ecc) ∧
          u.fp.frames = w.fp.frames ++ [f] ∧ f.port = lane.val ∧ f.bytes = wire ∧ f.fault = false ∧ f.verdict = none ∧ f.copies = [] ∧
          f.key = matchedBytes (streamKey 0 wire (w.rd (R.LNE_PORT_CTL lane)) (bitsOf (w.rd (R.LNE_PORT_VID lane)).toNat 0 12)).1 ∧
          f.goose = gooseOf 0 wire goose ∧
          u.ctr (0x200000 + lane * 0x800 + 0x300) = (w.ctr (0x200000 + lane * 0x800 + 0x300) + 1) % 2 ^ 64 ∧
          u.ctr (0x200000 + lane * 0x800 + 0x308) = (w.ctr (0x200000 + lane * 0x800 + 0x308) + frameLen wire) % 2 ^ 64 ∧
          u.regs = w.regs ∧ u.mem = w.mem)

/-- MISS_TIMEOUT drops the waiting frame. GROVE_FILL_RETURN of a fill whose lines, read as they were written, hold no entry makes its
waiting frames unknown; with none waiting and no NEGATIVE caching only the fill ends, and what NEGATIVE entries were held for. FRAME_VERDICT of an
unprotected frame that no entry claims passes. EGRESS_HANDOVER gives the next frame of the queue one copy for each egress port. NEG_ENTRY_EXPIRE frees a
spent NEGATIVE way. STATIC_ENTRY_FREE leaves no way of a set that has been swapped out. -/
def Obligations.FrameProgress : Prop :=
  ∀ s : State,
    (∀ (i : Nat) (f : Frame) (fill : Nat), s.frame i = some f → f.phase = .waiting fill →
      ∃ t, exec (.missTimeout i) s = .next t ∧ t.fp.frames = s.fp.frames.filter (fun g => g.id ≠ f.id) ∧ t.regs = s.regs ∧ t.mem = s.mem)
    ∧ (∀ (i : Nat) (x : Fill), s.grv.fills.find? (·.id = i) = some x → s.copseNow x.key = none → s.waitingOn i = [] → s.f F.CPS_CTL_NEG_TTL = 0 →
        (∀ e ∈ x.lines, (s.line x.region e).poison = false ∧ (s.line x.region e).flips = [] ∧ (s.line x.region e).entry.valid = false) →
        ∃ t, exec (.groveFillReturn i []) s = .next t ∧ t.grv.fills = s.grv.fills.filter (·.id ≠ i) ∧ t.grv.copse = (s.releaseHold i).grv.copse ∧
          t.grv.lines = s.grv.lines ∧ t.fp = s.fp ∧ (∀ a, a ≠ R.GRV_FILL_LAT_MAX → t.rd a = s.rd a))
    ∧ (∀ (i : Nat) (f : Frame) (agree : Bool), s.frame i = some f → f.phase = .admitted → f.verdict = none → f.fault = false → f.secy = none → f.entry = none →
        f.poison = false → f.dipped = false → f.copies = [] →
        exec (.frameVerdict i agree none none) s = .next (s.setFrame { f with verdict := some .pass }))
    ∧ (∀ (p : Fin 1025) (c : Fin 7) (f : Frame), s.handoverNext p c = some f →
        exec (.egressHandover p c) s =
          .next ((((s.setFrame { f with phase := .handed }).handTo f (s.portsOf f)).hostDeliver f).settleFrame f.id))
    ∧ (∀ (i : Fin 131328) (w : CpsWay), s.way i = some w → w.st = .negative → w.ttl = 0 → w.hold = [] →
        exec (.negEntryExpire i) s = .next (s.setWay i none))
    ∧ (∃ t, exec .staticEntryFree s = .next t ∧ t.cfg = s.cfg ∧ t.regs = s.regs ∧
        ∀ x ∈ t.grv.copse, ∀ w u, x.2 = some w → w.upto = some u → s.cfg.epoch < u)

/-- SLUICE_ENTRY runs to the START of the next entry, which then takes effect: the state register shows it with the gates it gives, and no other register
changes where no Clearing begins or ends and none has work left; a schedule with no further entry changes nothing. EGRESS_TX_START on an idle lane starts the Dike head
that is due, else (with no frame of a Clearing due and none preempted) the next copy of classes 6 to 0, and moves the round robin of its class on.
EGRESS_FCS sends a cut-through copy with its FCS correct after a passed verdict, and complemented otherwise. EGRESS_TX_END sends a stored copy, charges a Dike copy to the
egress budget of its port, and the copy leaves its queue. -/
def Obligations.SluiceEgress : Prop :=
  ∀ s : State,
    (∀ (p : Fin 1024) (tx : Bool), s.nent p tx ≤ s.entryNow p tx + 1 → exec (.sluiceEntry p tx) s = .next s)
    ∧ (∀ (p : Fin 1024) (tx : Bool), s.entryNow p tx + 1 < s.nent p tx →
        exec (.sluiceEntry p tx) s =
          .next ({ s with gac := s.gac.toAngle (entStart (s.entAt p tx (s.entryNow p tx + 1))) }.takeEntry p tx (s.entryNow p tx + 1)))
    ∧ (∀ (p : Fin 1024) (tx : Bool), s.entryNow p tx + 1 < s.nent p tx →
        (tx = false ∨ (s.clearing p = false ∧ entClearing (s.entAt p tx (s.entryNow p tx + 1)) = false ∧
          (s.lane (s.portLane p)).taskDue = false ∧ (s.lane (s.portLane p)).calLeft = 0 ∧ (s.lane (s.portLane p)).pdReq = false)) →
        ∃ t, exec (.sluiceEntry p tx) s = .next t ∧
          t.rd (sluState p tx) = BitVec.ofNat 32 (s.gatesOf p tx (s.entAt p tx (s.entryNow p tx + 1)) * 2 ^ 24 + (s.entryNow p tx + 1) * 2 ^ 16
            + b2n (entClearing (s.entAt p tx (s.entryNow p tx + 1)))) ∧
          (∀ a, a ≠ sluState p tx → t.rd a = s.rd a) ∧ t.mem = s.mem ∧ t.keys = s.keys)
    ∧ (∀ (k : Fin 32) (d : Nat × FCopy) (u : State), u = s.countWaits k → s.laneUp k = true → u.sendingOn k = none → u.dikeHead k = some d →
        u.dikeDue k d = true → exec (.egressTxStart k) s = .next (u.startId d))
    ∧ (∀ (k : Fin 32) (x : Nat × FCopy) (u : State), u = s.countWaits k → s.laneUp k = true → u.sendingOn k = none →
        (u.dikeHead k).filter (u.dikeDue k) = none → (u.lane k).pdReq = false → (u.lane k).calLeft = 0 → u.preemptedOn k = none →
        u.nextLow k [6, 5, 4, 3, 2, 1, 0] = some x →
        ∃ t, exec (.egressTxStart k) s = .next t ∧ (t.lane k).rr = ((u.startId x).lane k).rr.set x.2.cls (some x.2.port) ∧
          t.fp = (u.startId x).fp)
    ∧ (∀ (k : Fin 32) (id : Nat) (c : FCopy) (f : Frame), s.sendingOn k = some (id, c) → s.frame id = some f → c.fcs = none → f.verdict = some .pass →
        c.spoilt = false → exec (.egressFcs k) s = .next ((s.setCopy id { c with fcs := some true }).emit (c.out k false)))
    ∧ (∀ (k : Fin 32) (id : Nat) (c : FCopy) (f : Frame), s.sendingOn k = some (id, c) → s.frame id = some f → c.fcs = none → f.verdict ≠ some .pass →
        ∃ t, exec (.egressFcs k) s = .next t ∧ c.out k true ∈ t.out ∧ t.mem = s.mem ∧ t.keys = s.keys)
    ∧ (∀ (k : Fin 32) (id : Nat) (c : FCopy) (f : Frame) (b : Bool), s.sendingOn k = some (id, c) → s.frame id = some f → c.fcs = some b → c.cls ≠ 7 →
        c.stored = true → c.spoilt = false →
        exec (.egressTxEnd k) s = .next (((s.emit (c.out k false)).dropCopy id c).taskNow k))
    ∧ (∀ (k : Fin 32) (id : Nat) (c : FCopy) (f : Frame) (b : Bool), s.sendingOn k = some (id, c) → s.frame id = some f → c.fcs = some b → c.cls = 7 →
        c.stored = false →
        exec (.egressTxEnd k) s = .next (((s.charge (R.SLU_TX_LEFT c.port) c.len).dropCopy id c).taskNow k))

/-- KAT_DONE: an abandoned test returns the core untested; a passed one is recorded and the core stays in service. CAL_FRAME_RX is the
receive strobe of a lane that is UP. PDELAY_INTERVAL makes a request due, and queues one still due in class 6 and counts it. PTP_MESSAGE_RX of the device's domain: a Sync
offset within 1 us becomes the servo offset, an Announce gives the class where the device is no grandmaster, a request is answered. PTP_TX_INTERVAL queues the device's next
Sync or Announce. The form of the messages is the model's (log entry 53). -/
def Obligations.CalibrationPtp : Prop :=
  ∀ s : State,
    (∀ (c : Nat) (k : Option Nat), s.cal.testing = some (c, k) → exec (.katDone none) s = .next s.katAbandon)
    ∧ (∀ (c : Nat) (k : Option Nat), s.cal.testing = some (c, k) →
        ∃ t, exec (.katDone (some true)) s = .next t ∧ t.cal.testing = none ∧ t.f F.CAL_KAT_STS_BUSY = 0 ∧ t.f F.CAL_KAT_STS_RESULT = 1 ∧
          t.f F.CAL_KAT_PASS_COUNT = (s.f F.CAL_KAT_PASS_COUNT + 1) % 2 ^ F.CAL_KAT_PASS_COUNT.w ∧ t.coresIn = s.coresIn)
    ∧ (∀ k : Fin 32, s.laneUp k = true → exec (.calFrameRx k) s = .next (s.calReceive k))
    ∧ (∀ k : Fin 32, s.laneUp k = true → (s.calLane k).due = false →
        exec (.pdelayInterval k) s = .next (s.setCalLane k { s.calLane k with due := true }))
    ∧ (∀ k : Fin 32, s.laneUp k = true → (s.calLane k).due = true →
        ∃ t, exec (.pdelayInterval k) s = .next t ∧ (t.calLane k).due = true ∧ t.out = s.out ∧
          (∃ (f : Frame) (c : FCopy), t.fp.frames = s.fp.frames ++ [f] ∧ f.copies = [c] ∧ c.port = k.val ∧ c.cls = 6 ∧ c.phase = .queued ∧
            c.bytes = fitB (max 60 (s.pdelayReq k).length) (s.pdelayReq k)) ∧
          t.f (F.CAL_PDELAY_NOCLR_COUNT k) = (s.f (F.CAL_PDELAY_NOCLR_COUNT k) + 1) % 2 ^ (F.CAL_PDELAY_NOCLR_COUNT k).w)
    ∧ (∀ (k : Fin 32) (m : PtpMsg) (o : Int), s.laneUp k = true → m.domain.toNat = (s.calReceive k).ptpDomain → m.kind = 0 → m.offset = some o →
        -1000 ≤ o → o ≤ 1000 →
        ∃ t, exec (.ptpMessageRx k m) s = .next t ∧ t.rd R.GAC_PTP_OFS = BitVec.ofInt 32 o ∧ t.gst = (s.calReceive k).gst ∧
          t.ptpLocked = (s.calReceive k).ptpLocked)
    ∧ (∀ (k : Fin 32) (m : PtpMsg), s.laneUp k = true → m.domain.toNat = (s.calReceive k).ptpDomain → m.kind = 2 →
        exec (.ptpMessageRx k m) s = .next ((s.calReceive k).queueOwn k ((s.calReceive k).pdelayResp k m)))
    ∧ (∀ (k : Fin 32) (m : PtpMsg), s.laneUp k = true → m.domain.toNat = (s.calReceive k).ptpDomain → m.kind = 0xB → (s.calReceive k).ptpMaster = false →
        ∃ t, exec (.ptpMessageRx k m) s = .next t ∧ t.gac.gmClass = m.clockClass.toNat ∧ t.mem = s.mem)
    ∧ (∀ (k : Fin 32) (two : Bool), s.laneUp k = true →
        exec (.ptpTxInterval k .sync two) s = .next (s.nextPtpSeq.queueOwn k (s.ptpOwn 0 two k s.gac.ptpSeq 0 (toBe 10 0)))
        ∧ exec (.ptpTxInterval k .announce two) s = .next (s.nextPtpSeq.queueOwn k (s.announce k))
        ∧ exec (.ptpTxInterval k .pdelayReq two) s = exec (.pdelayInterval k) s)

/-- A DOWN lane whose clock is good starts to align on a signal. ALIGN_TIMEOUT takes an aligning lane DOWN; a lane woken by its
detector counts WAKE_FALSE. LANE_UP takes it to UP with its lock and, without auto-negotiation, full speed. A loss of signal or a
link fault takes an UP lane DOWN, counts one LINK_DOWN, ends preemption, leaves the queue of commands and all on-chip memory alone. REFCLK_LOSS
clears the bit of its input and leaves no lane of the input UP or aligning; REFCLK_RESTORED sets the bit. The twin lanes move in the same way. -/
def Obligations.LaneStates : Prop :=
  ∀ (s : State) (k : Fin 32),
    (s.laneSt k = lDown → (s.lane k).noClock = false →
        exec (.signalDetect (k.castLE (by decide))) s = .next ((s.setF (F.LNE_LANE_STS_SIG k) 1).setF (F.LNE_LANE_STS_STATE k) lAlign))
    ∧ (s.laneSt k = lAlign →
        ∃ t, exec (.alignTimeout (k.castLE (by decide))) s = .next t ∧ t.laneSt k = lDown ∧ (t.lane k).woken = false ∧
          t.f (F.LNE_LANE_WAKE_FALSE_COUNT k) = (s.f (F.LNE_LANE_WAKE_FALSE_COUNT k) + b2n (s.lane k).woken) % 2 ^ (F.LNE_LANE_WAKE_FALSE_COUNT k).w)
    ∧ (∀ speed : Fin 3, s.laneSt k = lAlign →
        ∃ t, exec (.laneUp (k.castLE (by decide)) speed) s = .next t ∧ t.laneUp k = true ∧ t.fb (F.LNE_LANE_STS_LOCK k) = true ∧
          (s.fb (F.LNE_LANE_CTL_AN k) = false → t.f (F.LNE_LANE_STS_SPEED k) = 2))
    ∧ (s.laneUp k = true →
        ∃ t, exec (.signalLoss (k.castLE (by decide))) s = .next t ∧ t.laneSt k = lDown ∧ t.fb (F.LNE_LANE_STS_SIG k) = false ∧ t.mmActive k = false ∧
          t.f (F.LNE_LANE_LINK_DOWNS_COUNT k) = (s.f (F.LNE_LANE_LINK_DOWNS_COUNT k) + 1) % 2 ^ (F.LNE_LANE_LINK_DOWNS_COUNT k).w ∧
          t.pending = s.pending ∧ t.mem = s.mem)
    ∧ (s.laneUp k = true →
        ∃ t, exec (.linkFault (k.castLE (by decide)) .remoteFault) s = .next t ∧ t.laneSt k = lDown ∧ t.fb (F.LNE_LANE_STS_RF k) = true ∧
          t.mmActive k = false ∧ t.pending = s.pending ∧ t.mem = s.mem)
    ∧ (∀ n : Fin 4, ∃ t, exec (.refclkLoss n) s = .next t ∧ bitAt (t.f F.LNE_REFCLK_STS_GOOD) n = false ∧
        (k.val / 8 = n.val → t.laneUp k = false ∧ t.laneSt k ≠ lAlign ∧ (t.lane k).noClock = true))
    ∧ (∀ n : Fin 4, ∃ t, exec (.refclkRestored n) s = .next t ∧ bitAt (t.f F.LNE_REFCLK_STS_GOOD) n = true ∧
        (k.val / 8 = n.val → (t.lane k).noClock = false ∧ t.laneSt k = s.laneSt k))
    ∧ (∀ j : Fin 2, s.twin.tl.length = 2 → s.tl j = lDown → bitAt (s.f F.LNE_REFCLK_STS_GOOD) 0 = true →
        ∃ t, exec (.signalDetect ⟨32 + j.val, by omega⟩) s = .next t ∧ t.tl j = lAlign)

/-- MM_VERIFY_TIMER sends the next of three verify frames and then fails the verification; MM_VERIFY_RX ends it and preemption is active.
LLDP_RX from a lane in UP records the partner, and announces the extender of an extender lane. LLDP_TX_INTERVAL sends one LLDPDU.
LLDP_TTL_EXPIRE and MKA_PEER_TIMEOUT lose an ACTIVE extender: it is LOST, no context of its lane is ASSIGNED any more, and its hold time
starts. EXT_HOLD_EXPIRE of a lost extender leaves it NONE and quarantines what is HELD: no context of the lane stays HELD. -/
def Obligations.MergeAndLoss : Prop :=
  ∀ (s : State) (k : Fin 32),
    (s.f (F.SLU_MM_STS_VSTATE k) = 2 → (s.lane k).verifies < 3 →
        exec (.mmVerifyTimer k) s =
          .next ((s.emit (.control k kVerify [])).setLane k { s.lane k with verifies := (s.lane k).verifies + 1 }))
    ∧ (s.f (F.SLU_MM_STS_VSTATE k) = 2 → 3 ≤ (s.lane k).verifies →
        ∃ t, exec (.mmVerifyTimer k) s = .next t ∧ t.f (F.SLU_MM_STS_VSTATE k) = 4 ∧ (s.laneHasDike k = true → bitAt (t.rd R.SLU_EVT).toNat 0 = true))
    ∧ (s.f (F.SLU_MM_STS_VSTATE k) = 2 →
        ∃ t, exec (.mmVerifyRx k) s = .next t ∧ t.f (F.SLU_MM_STS_VSTATE k) = 3 ∧ t.mmActive k = true)
    ∧ (∀ pre ext : Bool, s.laneUp k = true →
        ∃ t, exec (.lldpRx k pre ext) s = .next t ∧ (t.lane k).partner = pre ∧
          (ext = true → s.isExt k = true → (s.xt k).st = xNone ∨ (s.xt k).st = xLost → (t.xt k).st = xAnnounced) ∧
          (ext = false → t.ext = s.ext))
    ∧ (s.laneUp k = true →
        exec (.lldpTxInterval k) s = .next (s.emit (.control k kLldp [b2n (s.fb (F.SLU_MM_CTL_EN k)), b2n (s.mmActive k), 0])))
    ∧ ((s.xt k).st = xActive →
        ∃ t, exec (.lldpTtlExpire k) s = .next t ∧ (t.xt k).st = xLost ∧ (t.xt k).hold = s.gac.now + s.extHold * 1250000000 ∧
          (∀ p, 32 ≤ p → (t.ctx p).lane = k.val → (t.ctx p).st ≠ ctxAssigned) ∧ t.mem = s.mem)
    ∧ ((s.xt k).st = xActive ∨ (s.xt k).st = xSecuring →
        ∃ t, exec (.mkaPeerTimeout k) s = .next t ∧ (t.xt k).st = xLost ∧ (t.xt k).rxSak = false ∧ (∀ p, 32 ≤ p → (t.ctx p).lane = k.val → (t.ctx p).st ≠ ctxAssigned) ∧ t.mem = s.mem)
    ∧ ((s.xt k).st = xLost → (s.xt k).hold ≠ 0 → (s.xt k).taken = [] →
        ∃ t, exec (.extHoldExpire k) s = .next t ∧ (t.xt k).st = xNone ∧ (t.xt k).hold = 0 ∧ (∀ p, 32 ≤ p → (t.ctx p).lane = k.val → (t.ctx p).st ≠ ctxHeld) ∧ t.mem = s.mem)

/-- EXT_BACKOFF_END sends OFFER with a fresh session and nonce. HANDSHAKE_RETRY sends the message again, up to five times in all, and then fails
the handshake with cause 7. ACCEPT_RX of the session in progress is answered: with REJECT and a failure for the first failing check, or with CONFIRM
to the identity that signed it. REJECT_RX fails the handshake with the cause it carries. After a failure the secrets of the handshake are
gone and the back-off has doubled, from 1 up to 64. A message of another session changes nothing of the handshake; the first frame that a TS_LOOP turn
receives is measured, this one too. -/
def Obligations.Enrolment : Prop :=
  ∀ (s : State) (k : Fin 32),
    (∀ key, (s.xt k).st = xAnnounced → s.laneUp k = true → s.rngDown = false → s.service = 2 ∨ s.boot.full = false → s.enrolKey = some key →
        ∃ t, exec (.extBackoffEnd k) s = .next t ∧ (t.xt k).st = xEnrolling ∧ (t.xt k).sends = 1 ∧ (t.xt k).confirm = [] ∧
          (t.xt k).nonce.length = 32 ∧ t.out = .frame k (hsFrame k (t.xt k).offer) false :: s.out ∧ t.mem = s.mem ∧ t.keys = s.keys)
    ∧ ((s.xt k).st = xEnrolling → (s.xt k).sends < 5 → (s.xt k).confirm = [] →
        exec (.handshakeRetry (k.castLE (by decide))) s =
          .next ((s.hsSend k (s.xt k).offer).setXt k { s.xt k with sends := (s.xt k).sends + 1 }))
    ∧ ((s.xt k).st = xEnrolling → (s.xt k).sends < 5 → (s.xt k).confirm ≠ [] →
        exec (.handshakeRetry (k.castLE (by decide))) s =
          .next ((s.hsSend k (s.xt k).confirm).setXt k { s.xt k with sends := (s.xt k).sends + 1 }))
    ∧ ((s.xt k).st = xEnrolling → 5 ≤ (s.xt k).sends →
        ∃ t, exec (.handshakeRetry (k.castLE (by decide))) s = .next t ∧ t.f (F.EXT_LANE_FAIL_CAUSE k) = 7 ∧ (t.xt k).eph = [] ∧
          ((t.xt k).st = xAnnounced ∨ (t.xt k).st = xLost) ∧ bitAt (t.rd R.EXT_EVT).toNat 0 = true ∧
          (t.xt k).backoff = (if (s.xt k).backoff = 0 then 1 else min 64 (2 * (s.xt k).backoff)))
    ∧ (∀ (p : List Byte) (u : State), u = s.calReceive k → s.laneUp k = true → hsIs false 2 p = true → (u.xt k).st = xEnrolling → (u.xt k).confirm = [] →
        hsSession p = (u.xt k).session →
        ∃ t, exec (.acceptRx (k.castLE (by decide)) p) s = .next t ∧
          (∀ c, u.acceptCause k p = some c → t.f (F.EXT_LANE_FAIL_CAUSE k) = c % 2 ^ (F.EXT_LANE_FAIL_CAUSE k).w ∧ (t.xt k).km = [] ∧
            ((t.xt k).st = xAnnounced ∨ (t.xt k).st = xLost)) ∧
          (∀ l key, u.acceptCause k p = none → ecidList p = some l → u.enrolKey = some key →
            (t.xt k).st = xEnrolling ∧ (t.xt k).ident = sha256 (sliceB p 105 65) ∧ (t.xt k).sends = 1 ∧
            t.out.head? = some (.frame k (hsFrame k (t.xt k).confirm) false)))
    ∧ (∀ (p : List Byte) (u : State), u = s.calReceive k → s.laneUp k = true → (u.xt k).st = xEnrolling → hsSession p ≠ (u.xt k).session →
        exec (.acceptRx (k.castLE (by decide)) p) s = .next u ∧ exec (.doneRx (k.castLE (by decide)) p) s = .next u ∧
        exec (.rejectRx (k.castLE (by decide)) p) s = .next u)
    ∧ (∀ (p : List Byte) (u : State), u = s.calReceive k → s.laneUp k = true → hsIs false 0xF p = true → (u.xt k).st = xEnrolling →
        hsSession p = (u.xt k).session →
        ∃ t, exec (.rejectRx (k.castLE (by decide)) p) s = .next t ∧ t.f (F.EXT_LANE_FAIL_CAUSE k) = beAt p 8 2 % 2 ^ (F.EXT_LANE_FAIL_CAUSE k).w ∧
          ((t.xt k).st = xAnnounced ∨ (t.xt k).st = xLost) ∧ (t.xt k).session = 0 ∧ t.mem = s.mem)

/-- DONE_RX with the right confirmation takes the extender to SECURING under the CAK of the handshake; with a wrong one the handshake fails. On the twin
link an OFFER to a device without a credential is rejected with cause 2, a repeated one of the session in progress is answered with the same ACCEPT, a good one from the device of the lower identity digest is answered with ACCEPT, and a CONFIRM or a DONE that verifies makes the CAK of the handshake the twin's.
An extender lane takes no OFFER and no CONFIRM. MKA_RX installs a SAK in an EMPTY slot, ACTIVE, and binds it; MKA_TX_INTERVAL sends an MKPDU.
GDOI_MESSAGE_RX loads an EMPTY slot and activates a LOADED one. -/
def Obligations.KeyAgreement : Prop :=
  ∀ s : State,
    (∀ (k : Fin 32) (p : List Byte) (u : State), u = s.calReceive k → s.laneUp k = true → hsIs false 4 p = true → (u.xt k).st = xEnrolling →
        (u.xt k).confirm ≠ [] → hsSession p = (u.xt k).session → p.length = 24 →
        ∃ t, exec (.doneRx (k.castLE (by decide)) p) s = .next t ∧
          (byteAt p 1 = 1 → p.drop 8 = hsConf (u.xt k).km 0x45 ((u.xt k).offer ++ (u.xt k).accept ++ (u.xt k).confirm.take ((u.xt k).confirm.length - 16)) →
            (t.xt k).st = xSecuring ∧ (t.xt k).cak = (u.xt k).km.take 32 ∧ (t.xt k).km = [] ∧ (t.xt k).backoff = 0 ∧ t.mem = s.mem) ∧
          (byteAt p 1 ≠ 1 → t.f (F.EXT_LANE_FAIL_CAUSE k) = 4 ∧ (t.xt k).km = [] ∧ ((t.xt k).st = xAnnounced ∨ (t.xt k).st = xLost)))
    ∧ (∀ p : List Byte, s.twinLaneUp = true → s.fb F.TWN_CTL_EN = true → hsIs true 1 p = true → s.ths.phase = 0 → s.twin.cred = none →
        exec (.offerRx 32 p) s = .next (s.hsReject true 32 (hsSession p) 2))
    ∧ (∀ p : List Byte, s.twinLaneUp = true → s.fb F.TWN_CTL_EN = true → hsIs true 1 p = true → s.ths.phase = 2 → s.ths.session = hsSession p →
        exec (.offerRx 32 p) s = .next (s.emit (.twin s.ths.accept)))
    ∧ (∀ (p key cred : List Byte), s.twinLaneUp = true → s.fb F.TWN_CTL_EN = true → hsIs true 1 p = true → ¬(s.ths.phase = 2 ∧ s.ths.session = hsSession p) →
        s.twinOfferCause p = none → beNat (sha384 (sliceB p 141 97)) < beNat s.ownDigest → s.identity = some key → s.twin.cred = some cred →
        s.rngDown = false →
        ∃ t, exec (.offerRx 32 p) s = .next t ∧ t.out = .twin t.ths.accept :: s.out ∧ t.ths.phase = 2 ∧ t.ths.session = hsSession p ∧ t.ths.offer = p ∧
          t.ths.peerPub = sliceB p 141 97 ∧ t.ths.accept.take 8 = hsHead true 2 (hsSession p) ∧ t.keys = s.keys ∧ t.mem = s.mem)
    ∧ (∀ (k : Fin 32) (p : List Byte), exec (.offerRx (k.castLE (by decide)) p) s = .next (s.heard k) ∧
        exec (.confirmRx (k.castLE (by decide)) p) s = .next (s.heard k))
    ∧ (∀ p : List Byte, s.twinLaneUp = true → hsIs true 3 p = true → s.ths.phase = 2 → hsSession p = s.ths.session → p.length = 120 →
        ∃ t, exec (.confirmRx 32 p) s = .next t ∧ t.ths.phase = 0 ∧ t.mem = s.mem ∧
          (byteAt p 1 = 1 → verifies 2 s.ths.peerPub (s.ths.offer ++ s.ths.accept.take 495 ++ p.take 8) (sliceB p 8 96) = true →
            p.drop 104 = hsConf s.ths.km 0x44 (s.ths.offer ++ s.ths.accept.take 495 ++ p.take 8 ++ sliceB p 8 96) →
            t.twin.cak = s.ths.km.take 32 ∧ t.twin.peerDigest = sha384 s.ths.peerPub))
    ∧ (∀ p : List Byte, s.twinLaneUp = true → hsIs true 4 p = true → s.ths.phase = 3 → hsSession p = s.ths.session → p.length = 24 → byteAt p 1 = 1 →
        p.drop 8 = hsConf s.ths.km 0x45 (s.ths.offer ++ s.ths.accept ++ s.ths.confirm.take (s.ths.confirm.length - 16)) →
        ∃ t, exec (.doneRx 32 p) s = .next t ∧ t.ths.phase = 0 ∧ t.twin.cak = s.ths.km.take 32 ∧ t.twin.peerDigest = sha384 s.ths.peerPub ∧ t.mem = s.mem)
    ∧ (∀ (p : Fin 32) (an : Fin 4) (slot : BitVec 15) (key salt : List Byte) (id : Word) (sr st : Word) (u : State), u = s.heard p → u.laneUp p = true →
        u.isExt p = false → (u.ks slot.toNat).state = Ks.empty → u.txElsewhere (R.FPX_SECY_CTL p) an slot.toNat = false →
        u.rd (rxCtl (R.FPX_SECY_CTL p) an) ≠ BitVec.ofNat 32 (2 ^ 31 + slot.toNat) →
        u.rd (txCtl (R.FPX_SECY_CTL p) an) ≠ BitVec.ofNat 32 (2 ^ 31 + slot.toNat) →
        ∃ t, exec (.mkaRx (.port p) (.sak an slot key salt id true true true sr st)) s = .next t ∧
          (t.ks slot.toNat).state = Ks.active ∧ (t.ks slot.toNat).aeduf = true ∧ (t.ks slot.toNat).id = id.toNat ∧
          (t.ks slot.toNat).material = fitB (algBytes (bitsOf (u.rd (R.FPX_SECY_CTL p)).toNat 28 2)) key ∧
          (∀ i, i ≠ slot.toNat → t.ks i = u.ks i) ∧
          t.rd (rxCtl (R.FPX_SECY_CTL p) an) = BitVec.ofNat 32 (2 ^ 31 + slot.toNat) ∧ t.rd64 (lpnA (R.FPX_SECY_CTL p) an) = 1 ∧
          t.rd (txCtl (R.FPX_SECY_CTL p) an) = BitVec.ofNat 32 (2 ^ 31 + slot.toNat) ∧ t.rd64 (npnA (R.FPX_SECY_CTL p) an) = 1 ∧ t.mem = u.mem)
    ∧ (∀ (p : Fin 32), s.laneUp p = true → s.isExt p = false → exec (.mkaTxInterval (.port p) none) s = .next (s.emit (.control p kMka [])))
    ∧ (∀ (slot : BitVec 15) (key : List Byte) (spi : Word), (s.ks slot.toNat).state = Ks.empty →
        ∃ t, exec (.gdoiMessageRx (.load slot false key spi)) s = .next t ∧ (t.ks slot.toNat).state = Ks.loaded ∧ (t.ks slot.toNat).alg = 4 ∧
          (t.ks slot.toNat).material = fitB 16 key ∧ (t.ks slot.toNat).id = spi.toNat ∧ (∀ i, i ≠ slot.toNat → t.ks i = s.ks i) ∧ t.mem = s.mem)
    ∧ (∀ slot : BitVec 15, (s.ks slot.toNat).state = Ks.loaded → (s.ks slot.toNat).use < (s.ks slot.toNat).limit →
        exec (.gdoiMessageRx (.activate slot)) s = .next (s.wakeSlot slot.toNat) ∧ ((s.wakeSlot slot.toNat).ks slot.toNat).state = Ks.active)

/-- A slot whose ring's turn has not come is not taken, and one whose OWN is not 1 stops its ring. A slot that fails a check of
steps 1 to 6 is answered with that check's reply and nothing else; one that fails a later check is answered after what a refusal of
that opcode leaves. A command that reaches into a domain that is not ON wakes it and keeps its slot. One that passes runs to its reply or to its wait. Taking a slot changes its ring's index and the Culvert's own records only. Ending it with a reply other
than INTERNAL changes those, what has left the device and the pending bits of MSI-X, and the reply leaves the device while Bus Master Enable is 1. Leaving it waiting changes the Culvert's records only. -/
def Obligations.SlotTaken : Prop :=
  (∀ (i : Instr) (c : CmdSpec) (sl : Slot) (s : State), slotOf i = some (c, sl) →
    (s.turn sl.ring = false → exec i s = .next s)
    ∧ (s.turn sl.ring = true → sl.own ≠ 1 → exec i s = .next { s with cul := { s.cul with stalled := sl.ring.val :: s.cul.stalled } })
    ∧ (∀ r, s.turn sl.ring = true → sl.own = 1 → bitAt sl.flags.toNat 0 = false → bitAt sl.flags.toNat 2 = false →
        frontCheck c sl.ver.toNat (c.held sl s) (s.takeSlot sl.ring) = some r →
        exec i s = .next ((s.takeSlot sl.ring).putReply (c.held sl s) r s.gacNow))
    ∧ (∀ d, s.turn sl.ring = true → sl.own = 1 → bitAt sl.flags.toNat 0 = false → bitAt sl.flags.toNat 2 = false →
        frontCheck c sl.ver.toNat (c.held sl s) (s.takeSlot sl.ring) = none → c.sleeps s = some d → exec i s = .next (s.domWake d))
    ∧ (∀ r, s.turn sl.ring = true → sl.own = 1 → c.asleep s = none → bitAt sl.flags.toNat 0 = false → bitAt sl.flags.toNat 2 = false →
        frontCheck c sl.ver.toNat (c.held sl s) (s.takeSlot sl.ring) = none → fullCheck c (c.held sl s) (c.taken sl s) = some r →
        exec i s = .next (c.ends sl s r (c.refused (c.held sl s) r (c.taken sl s))))
    ∧ (∀ r u, c.starts sl s = true → c.act (c.held sl s) (c.taken sl s) = .done r u → exec i s = .next (c.ends sl s r u))
    ∧ (∀ w u, c.starts sl s = true → c.act (c.held sl s) (c.taken sl s) = .later w u → exec i s = .next (c.waits sl s w u)))
  ∧ (∀ (c : CmdSpec) (sl : Slot) (s : State),
      (s.onlyIn (c.taken sl s) [.regs, .cul] ∧ (∀ a, a ≠ R.CUL_CRING_IDX sl.ring → (c.taken sl s).rd a = s.rd a) ∧
        (c.taken sl s).f (F.CUL_CRING_IDX_HEAD sl.ring) = (s.f (F.CUL_CRING_IDX_HEAD sl.ring) + 1) % 65536)
      ∧ (∀ (r : Reply) (u : State), r.status ≠ St.internal → bitAt sl.flags.toNat 0 = false → bitAt sl.flags.toNat 2 = false →
          u.onlyIn (c.ends sl s r u) [.regs, .cul, .out] ∧ (∀ a, (∀ n, a ≠ R.MSIX_PBA n) → (c.ends sl s r u).rd a = u.rd a) ∧
          (u.cul.bme = true → .reply sl.ring (c.held sl s).idx r.status c.opc sl.tag.toNat r.detail r.result u.gacNow ∈ (c.ends sl s r u).out) ∧
          (u.cul.bme = false → (c.held sl s, r.status, r.detail, r.result, u.gacNow) ∈ (c.ends sl s r u).cul.owed))
      ∧ (∀ (w : Wait) (u : State), u.onlyIn (c.waits sl s w u) [.cul] ∧ ⟨c.held sl s, w, c.objs (c.held sl s)⟩ ∈ (c.waits sl s w u).cul.waits))

/-- A slot refused by a check of steps 1 to 6 of Table CUL-4 leaves a reply of that check's status and changes no register but its ring's
index and the pending bits of MSI-X, and no memory, key, table entry, configuration, NV byte, frame or domain. An ASYNC slot that passes
its checks is answered with ACCEPTED and waits; an AT_CYCLE slot that passes those of its acceptance is answered with ACCEPTED and is pending at its cycle. -/
def Obligations.SlotRefused : Prop :=
  ∀ (i : Instr) (c : CmdSpec) (sl : Slot) (s : State), slotOf i = some (c, sl) → c.asleep s = none →
    s.turn sl.ring = true → sl.own = 1 →
    (∀ r, bitAt sl.flags.toNat 0 = false → bitAt sl.flags.toNat 2 = false → frontCheck c sl.ver.toNat (c.held sl s) (s.takeSlot sl.ring) = some r →
        ∃ t, exec i s = .next t ∧
          .reply sl.ring (s.f (F.CUL_CRING_IDX_HEAD sl.ring) % s.cringSize sl.ring) r.status c.opc sl.tag.toNat r.detail r.result s.gacNow ∈ t.out ∧
          (∀ a, a ≠ R.CUL_CRING_IDX sl.ring → (∀ n, a ≠ R.MSIX_PBA n) → t.rd a = s.rd a) ∧
          t.mem = s.mem ∧ t.tags = s.tags ∧ t.keys = s.keys ∧ t.nv = s.nv ∧ t.grv = s.grv ∧ t.cfg = s.cfg ∧ t.fp = s.fp ∧ t.twin = s.twin ∧
          t.pwr = s.pwr ∧ t.pairs = s.pairs ∧ t.gac = s.gac ∧ t.pending = s.pending)
    ∧ (bitAt sl.flags.toNat 0 = true → bitAt sl.flags.toNat 2 = false → (s.heldEv (s.f (F.CUL_CRING_CTL_ERING sl.ring))).length < 64 →
        frontCheck c sl.ver.toNat (c.held sl s) (s.takeSlot sl.ring) = none → fullCheck c (c.held sl s) (c.taken sl s) = none →
        ∃ t, exec i s = .next t ∧ ⟨c.held sl s, .async, c.objs (c.held sl s)⟩ ∈ t.cul.waits ∧
          .reply sl.ring (s.f (F.CUL_CRING_IDX_HEAD sl.ring) % s.cringSize sl.ring) St.accepted c.opc sl.tag.toNat 0 [] s.gacNow ∈ t.out ∧
          t.mem = s.mem ∧ t.keys = s.keys ∧ t.nv = s.nv ∧ t.grv = s.grv ∧ t.cfg = s.cfg)
    ∧ (bitAt sl.flags.toNat 2 = true → (s.heldEv (s.f (F.CUL_CRING_CTL_ERING sl.ring))).length < 64 → s.cul.atCycle.length < 256 →
        frontCheck c sl.ver.toNat (c.held sl s) (s.takeSlot sl.ring) = none →
        (bufCheck (c.taken sl s).winBytes (c.held sl s) c.bufs <|> c.pre (c.held sl s)) = none →
        ∃ t, exec i s = .next t ∧ t.cul.atCycle = s.cul.atCycle ++ [c.held sl s] ∧
          .reply sl.ring (s.f (F.CUL_CRING_IDX_HEAD sl.ring) % s.cringSize sl.ring) St.accepted c.opc sl.tag.toNat 0 [] s.gacNow ∈ t.out ∧
          t.mem = s.mem ∧ t.keys = s.keys ∧ t.nv = s.nv ∧ t.grv = s.grv ∧ t.cfg = s.cfg)

/-- A well-formed window is registered and a bad one sets WIN_BAD. The window loss, a function level reset and a link down leave no
ring enabled and no session open; the event map stays. Bus Master Enable set writes what was owed. A ring that fits
the window is enabled with its indices at 0, another sets RING_BAD; a ring that is disabled stops, and a command ring's sessions close. A doorbell moves the
index, and one past the ring or past the entries written puts it in ERROR with INDEX_BAD. A slot that cannot be read puts its ring in ERROR. -/
def Obligations.WindowAndRings : Prop :=
  ∀ s : State,
    (∀ v : Word, bitAt v.toNat 0 = true → s.fb F.CUL_WIN_CTL_EN = false →
        20 ≤ s.f F.CUL_WIN_SIZE_SIZE → s.f F.CUL_WIN_SIZE_SIZE ≤ 30 → s.rd64 R.CUL_WIN_BASE_LO % 2 ^ s.f F.CUL_WIN_SIZE_SIZE = 0 → s.anyRing = false →
        exec (.culWinCtlWrite v) s = .next (s.setF F.CUL_WIN_CTL_EN 1))
    ∧ (∀ v : Word, bitAt v.toNat 0 = true → s.fb F.CUL_WIN_CTL_EN = false →
        ¬(20 ≤ s.f F.CUL_WIN_SIZE_SIZE ∧ s.f F.CUL_WIN_SIZE_SIZE ≤ 30 ∧ s.rd64 R.CUL_WIN_BASE_LO % 2 ^ s.f F.CUL_WIN_SIZE_SIZE = 0 ∧ s.anyRing = false) →
        exec (.culWinCtlWrite v) s = .next (s.setF F.CUL_ERR_WIN_BAD 1))
    ∧ (∀ i : Instr, i = .culWinCtlWrite 0 ∧ s.fb F.CUL_WIN_CTL_EN = true ∨ i = .functionLevelReset ∨ i = .hostLinkDown →
        ∃ t, exec i s = .next t ∧ t.fb F.CUL_WIN_CTL_EN = false ∧ (∀ r : Fin 256, t.fb (F.CUL_CRING_CTL_EN r) = false) ∧
          (∀ e : Fin 64, t.fb (F.CUL_ERING_CTL_EN e) = false) ∧ (∀ n, t.session n = none) ∧
          (∀ c : Fin 16, t.rd (R.CUL_EVMAP c) = s.rd (R.CUL_EVMAP c)) ∧ t.mem = s.mem ∧ t.keys = s.keys)
    ∧ (∀ ds, exec (.busMasterChange false ds) s = .next { s with cul := { s.cul with bme := false } })
    ∧ (s.cul.bme = false → ∃ t, exec (.busMasterChange true []) s = .next t ∧ t.cul.bme = true ∧ t.cul.owed = [] ∧ t.mem = s.mem)
    ∧ (∀ (r : Fin 256) (v : Word), bitAt v.toNat 31 = true → s.fb (F.CUL_CRING_CTL_EN r) = false → s.fb F.CUL_WIN_CTL_EN = true →
        (s.f (F.CUL_CRING_BASE_BASE r) * 128 + 128 * (s.cringCtl r v).cringSize r ≤ s.winBytes →
          ∃ t, exec (.cringEnable r v) s = .next t ∧ t.fb (F.CUL_CRING_CTL_EN r) = true ∧ t.rd (R.CUL_CRING_IDX r) = 0 ∧ t.f (F.CUL_CRING_STS_STATE r) = 1)
        ∧ (s.winBytes < s.f (F.CUL_CRING_BASE_BASE r) * 128 + 128 * (s.cringCtl r v).cringSize r →
          exec (.cringEnable r v) s = .next ((s.cringCtl r v).ringBad false r)))
    ∧ (∀ (r : Fin 256) (v : Word), bitAt v.toNat 31 = false → s.fb (F.CUL_CRING_CTL_EN r) = true →
        ∃ t, exec (.cringDisable r v) s = .next t ∧ t.fb (F.CUL_CRING_CTL_EN r) = false ∧ t.f (F.CUL_CRING_STS_STATE r) = 0 ∧
          (∀ n x, t.session n = some x → x.ring ≠ r.val) ∧ t.mem = s.mem ∧ t.keys = s.keys)
    ∧ (∀ (e : Fin 64) (v : Word), bitAt v.toNat 31 = true → s.fb (F.CUL_ERING_CTL_EN e) = false → s.fb F.CUL_WIN_CTL_EN = true → bitAt v.toNat 30 = false →
        s.f (F.CUL_ERING_BASE_BASE e) * 32 + 32 * (s.eringCtl e v).eringSize e ≤ s.winBytes →
        ∃ t, exec (.eringEnable e v) s = .next t ∧ t.eringOn e = true ∧ t.f (F.CUL_ERING_IDX_HEAD e) = 0 ∧ t.mem = s.mem)
    ∧ (∀ (e : Fin 64) (v : Word), bitAt v.toNat 31 = false → s.fb (F.CUL_ERING_CTL_EN e) = true →
        ∃ t, exec (.eringDisable e v) s = .next t ∧ t.fb (F.CUL_ERING_CTL_EN e) = false ∧ t.heldEv e = [] ∧ t.f (F.CUL_ERING_STS_STATE e) = 0 ∧ t.mem = s.mem)
    ∧ (∀ (r : Fin 256) (v : Word), s.fb (F.CUL_CRING_CTL_EN r) = true → s.f (F.CUL_CRING_STS_STATE r) = 1 →
        ∃ t, exec (.cringDoorbell r v) s = .next t ∧ t.mem = s.mem ∧
          (if s.cringSize r < (v.toNat % 65536 + 65536 - s.f (F.CUL_CRING_IDX_HEAD r)) % 65536
            then t.f (F.CUL_CRING_STS_STATE r) = 2 ∧ t.f (F.CUL_CRING_STS_CAUSE r) = 1 ∧ t.f (F.CUL_CRING_IDX_TAIL r) = s.f (F.CUL_CRING_IDX_TAIL r)
            else t.f (F.CUL_CRING_IDX_TAIL r) = v.toNat % 65536 ∧ t.f (F.CUL_CRING_STS_STATE r) = 1 ∧ r.val ∉ t.cul.stalled))
    ∧ (∀ r : Fin 256, s.ringReady r = true →
        ∃ t, exec (.slotReadError r) s = .next t ∧ t.f (F.CUL_CRING_STS_STATE r) = 2 ∧ t.f (F.CUL_CRING_STS_CAUSE r) = 2 ∧ t.fb F.CUL_ERR_PCIE_ERR = true ∧
          t.f (F.CUL_CRING_IDX_HEAD r) = s.f (F.CUL_CRING_IDX_HEAD r) ∧ t.mem = s.mem)
    ∧ (∀ (e : Fin 64) (v : Word), s.eringOn e = true →
        ∃ t, exec (.eringDoorbell e v) s = .next t ∧ t.mem = s.mem ∧
          (if s.eringUsed e < (v.toNat % 65536 + 65536 - s.f (F.CUL_ERING_IDX_HEAD e)) % 65536
            then t.f (F.CUL_ERING_STS_STATE e) = 2 ∧ t.f (F.CUL_ERING_STS_CAUSE e) = 1
            else t.f (F.CUL_ERING_IDX_HEAD e) = v.toNat % 65536 ∧ t.eringOn e = true))

/-- ASYNC_COMPLETION runs an accepted command and takes it from the waiting ones. AT_CYCLE_EXECUTE runs the first pending command whose cycle
has come, and it is no longer pending. A session idle for its limit closes, and a locked operator key is free after 3,000 cycles.
A slot with an undefined opcode or version is answered with BAD_OPCODE and changes nothing else. -/
def Obligations.LateCommands : Prop :=
  ∀ s : State,
    (∀ (r : Fin 256) (idx : BitVec 16) (x : ExtIn) (w : Waiting) (c : CmdSpec),
        s.cul.waits.find? (fun w => w.wait = .async && w.cmd.ring = r.val && w.cmd.idx = idx.toNat) = some w → cmdSpecOf x w.cmd.opc = some c →
        c.sleeps s = none →
        exec (.asyncCompletion r idx x) s =
          .next (settle c w.cmd false (runBody (c.inDom (s.endWait w.cmd)) w.cmd (s.endWait w.cmd))))
    ∧ (∀ (x : ExtIn) (h : Held) (c : CmdSpec), s.cul.atCycle.find? (fun h => decide (h.cycle ≤ s.cycle)) = some h → cmdSpecOf x h.opc = some c →
        c.sleeps s = none →
        ∃ u, u = { s with cul := { s.cul with atCycle := s.cul.atCycle.erase h } } ∧
          exec (.atCycleExecute x) s = .next (settle c h (decide (h.cycle < s.cycle)) (runBody (c.inDom u) h u)))
    ∧ (∀ (n : Fin 64) (x : Session), s.session n = some x → x.seen + s.cfg.active.idle ≤ s.gac.passed →
        ∃ t, exec (.sessionIdleExpire n) s = .next t ∧ t.session n = none ∧ (∀ m, m ≠ n.val → t.session m = s.session m) ∧
          (∀ h ∈ t.cul.atCycle, h.session ≠ n.val) ∧ t.mem = s.mem ∧ t.keys = s.keys)
    ∧ (∀ (k : BitVec 16) (b : Nat), Tbl.get (fun _ => none) s.cul.locked k.toNat = some b → b + 3000 ≤ s.gac.passed →
        ∃ t, exec (.opkeyLockExpire k) s = .next t ∧ t.keyLocked k.toNat = false ∧ (∀ j, j ≠ k.toNat → t.keyLocked j = s.keyLocked j) ∧
          t.regs = s.regs ∧ t.mem = s.mem)
    ∧ (∀ (sl : Slot) (opc : BitVec 16), s.turn sl.ring = true → sl.own = 1 → sl.ver ≠ 1 ∨ opcodeDefined opc.toNat = false →
        ∃ t, exec (.cmdUndefined sl opc) s = .next t ∧
          .reply sl.ring (s.f (F.CUL_CRING_IDX_HEAD sl.ring) % s.cringSize sl.ring) St.badOpcode opc.toNat sl.tag.toNat
            (if sl.ver = 1 then 0 else Dt.version * 65536 + sl.ver.toNat) [] s.gacNow ∈ t.out ∧
          (∀ a, a ≠ R.CUL_CRING_IDX sl.ring → (∀ n, a ≠ R.MSIX_PBA n) → t.rd a = s.rd a) ∧ t.mem = s.mem ∧ t.keys = s.keys ∧ t.nv = s.nv ∧ t.grv = s.grv)

/-- A stage that passes leaves the set of the image as the shadow of its session under the next sequence number, the active set as it was, and no
valid set in the target slot; a stage that fails a check changes nothing and replies with it. A commit waits for its cycle. At angle 0 of N - 1 a complete body of the
staged digest gets its record, and an incomplete one ends the commit. A drain goes from phase 1 to 2, and then ends with its lanes out of UP and DRAIN_DONE set. An abort
leaves no shadow. CMD_CFG_READ and CMD_CFG_STATUS return what is held and change nothing else. -/
def Obligations.ConfigurationSets : Prop :=
  ∀ s : State,
    (∀ (sl : Slot) (t : State), specCfgStage.starts sl s = true →
        (specCfgStage.taken sl s).stageCheck ((specCfgStage.held sl s).inp 0 0) 0 (bitAt sl.flags.toNat 1) false = none →
        (specCfgStage.taken sl s).pinnedAfter (setOfImage ((specCfgStage.held sl s).inp 0 0) (s.cfg.active.seq + 1)) ≤ 65536 →
        (specCfgStage.taken sl s).dropShadow.placeShadow (setOfImage ((specCfgStage.held sl s).inp 0 0) (s.cfg.active.seq + 1)).statics = some t →
        ∃ u sh, exec (.cmdCfgStage sl) s = .next u ∧ u.cfg.shadow = some sh ∧ sh.set = setOfImage ((specCfgStage.held sl s).inp 0 0) (s.cfg.active.seq + 1) ∧
          sh.drain = bitAt sl.flags.toNat 1 ∧ sh.holder = (specCfgStage.held sl s).session ∧ u.cfg.active = s.cfg.active ∧ u.cfg.epoch = s.cfg.epoch ∧
          u.mem = s.mem ∧ u.keys = s.keys ∧
          .reply sl.ring (specCfgStage.held sl s).idx St.done 0x0201 sl.tag.toNat 0 (toLe 8 sh.set.seq ++ sh.set.digest) s.gacNow ∈ u.out)
    ∧ (∀ (sl : Slot) (r : Reply), specCfgStage.starts sl s = true →
        (specCfgStage.taken sl s).stageCheck ((specCfgStage.held sl s).inp 0 0) 0 (bitAt sl.flags.toNat 1) false = some r →
        exec (.cmdCfgStage sl) s = .next (specCfgStage.ends sl s r (specCfgStage.taken sl s)))
    ∧ (∀ (sl : Slot) (sh : Shadow) (b : Byte) (img : List Byte), specCfgCommit.starts sl s = true → bitAt sl.flags.toNat 3 = false → s.cfg.shadow = some sh →
        sl.bufs = [b :: img] → (specCfgCommit.taken sl s).bufReadable sh = true →
        exec (.cmdCfgCommit sl) s =
          .next (specCfgCommit.waits sl s .commit ((specCfgCommit.taken sl s).commitStart ((specCfgCommit.held sl s).u 0 8) (b :: img))))
    ∧ (∀ (c : Commit) (sh : Shadow), s.cfg.commit = some c → s.cfg.shadow = some sh → s.cycle + 1 = c.cycle → c.recorded = false →
        ∃ t, exec .cfgCommitRecord s = .next t ∧ t.cfg.shadow = some sh ∧ t.cfg.active = s.cfg.active ∧
          (c.body = false → t.cfg.commit = none) ∧
          (c.body = true → sha384 (c.image.take sh.set.len) = sh.set.digest →
            t.cfg.commit = some { c with recorded := true } ∧ t.rd64 (slotSeqReg s.targetSlot) = sh.set.seq % 2 ^ 64))
    ∧ (∀ d : Drain, s.cfg.drain = some d → d.phase = 1 →
        exec .drainPhaseEnd s = .next (({ s with cfg := { s.cfg with drain := some { d with phase := 2 } } }).setF F.CFG_STATUS_DRAIN 2))
    ∧ (∀ d : Drain, s.cfg.drain = some d → d.phase = 2 → (∀ k ∈ d.lanes, k < 32) →
        ∃ t, exec .drainPhaseEnd s = .next t ∧ t.cfg.drain = none ∧ t.f F.CFG_STATUS_DRAIN = 0 ∧ bitAt (t.rd R.CFG_EVT).toNat 2 = true ∧
          (∀ k ∈ d.lanes, t.laneUp k = false) ∧ t.cfg.active = s.cfg.active ∧ t.mem = s.mem)
    ∧ (∀ sl : Slot, specCfgAbort.starts sl s = true →
        ∃ t, exec (.cmdCfgAbort sl) s = .next t ∧ t.cfg.shadow = none ∧ t.cfg.commit = none ∧ (∀ e ∈ t.ways, e.2.st ≠ .shadow) ∧ t.cfg.active = s.cfg.active ∧
          t.mem = s.mem ∧ t.keys = s.keys)
    ∧ (∀ sl : Slot, specCfgRead.starts sl s = true → (specCfgRead.held sl s).u 0 1 = 0 →
        exec (.cmdCfgRead sl) s = .next (specCfgRead.ends sl s
          (.ok (toLe 4 ((((s.cfg.active.raw.find? (·.1 = (specCfgRead.held sl s).u 1 1)).map (·.2)).getD []).drop ((specCfgRead.held sl s).u 4 4)
            |>.take ((specCfgRead.held sl s).buf 8).2).length))
          ((specCfgRead.taken sl s).putBuf (specCfgRead.held sl s) 8
            ((((s.cfg.active.raw.find? (·.1 = (specCfgRead.held sl s).u 1 1)).map (·.2)).getD []).drop ((specCfgRead.held sl s).u 4 4)
              |>.take ((specCfgRead.held sl s).buf 8).2))))
    ∧ (∀ sl : Slot, specCfgStatus.starts sl s = true →
        ∃ t, exec (.cmdCfgStatus sl) s = .next t ∧ t.cfg = s.cfg ∧ t.mem = s.mem ∧ t.keys = s.keys ∧ t.grv = s.grv ∧
          .reply sl.ring (specCfgStatus.held sl s).idx St.done 0x0205 sl.tag.toNat 0
            (toLe 8 (s.rd64 R.CFG_ACTIVE_SEQ_LO) ++ toLe 8 (s.rd64 R.CFG_PEND_CYCLE_LO) ++ toLe 8 (s.rd64 R.CFG_SEQ_A_LO)
              ++ toLe 8 (s.rd64 R.CFG_SEQ_B_LO) ++ toLe 1 (s.f F.CFG_STATUS_SHADOW) ++ toLe 1 (s.f F.CFG_STATUS_HOLDER)
              ++ fitB 48 s.cfg.active.digest) s.gacNow ∈ t.out)

/-- CMD_KEY_LOAD unwraps under a wrapping slot and leaves an EMPTY slot LOADED with the key; a wrapped key that does not unwrap leaves it EMPTY and is
refused. CMD_KEY_DERIVE loads a key of the root, or of a SHARED slot, which empties. CMD_KEY_ACTIVATE, CMD_KEY_ARM,
CMD_KEY_LIMIT, CMD_KEY_DELETE and CMD_KEY_CLEAR change their slot as Table FPX-5 says and nothing else. CMD_KEY_ZEROIZE leaves every slot of its range ZEROIZED without
material and every other slot as it was. CMD_KEY_SLOT_READ returns the eleven words of the slot view. -/
def Obligations.KeyCommands : Prop :=
  ∀ (sl : Slot) (s : State),
    (∀ p, specKeyLoad.starts sl s = true →
        Config.kwpUnwrap (s.ks ((specKeyLoad.held sl s).u 8 2)).material (sliceB (specKeyLoad.held sl s).params 11 ((specKeyLoad.held sl s).u 10 1)) = p →
        ∃ t, exec (.cmdKeyLoad sl) s = .next t ∧ s.onlyIn t [.regs, .cul, .keys, .rng, .ecc, .out] ∧
          (∀ b, p = some b →
            b.length = algBytes ((specKeyLoad.held sl s).u 2 1) + (if (specKeyLoad.held sl s).u 2 1 = 2 ∨ (specKeyLoad.held sl s).u 2 1 = 3 then 12 else 0) →
            (t.ks ((specKeyLoad.held sl s).u 0 2)).state = Ks.loaded ∧ (t.ks ((specKeyLoad.held sl s).u 0 2)).alg = (specKeyLoad.held sl s).u 2 1 ∧
            (t.ks ((specKeyLoad.held sl s).u 0 2)).material = b.take (algBytes ((specKeyLoad.held sl s).u 2 1)) ∧
            (t.ks ((specKeyLoad.held sl s).u 0 2)).id = (specKeyLoad.held sl s).u 4 4 ∧ (t.ks ((specKeyLoad.held sl s).u 0 2)).limit = 2 ^ 40 ∧
            (t.ks ((specKeyLoad.held sl s).u 0 2)).use = 0 ∧ (t.ks ((specKeyLoad.held sl s).u 8 2)).use = (s.ks ((specKeyLoad.held sl s).u 8 2)).use + 1) ∧
          (p = none → (t.ks ((specKeyLoad.held sl s).u 0 2)).state = Ks.empty))
    ∧ (∀ b, specKeyDerive.starts sl s = true → (specKeyDerive.held sl s).u 9 1 = 0 → s.root = some b →
        ∃ t, exec (.cmdKeyDerive sl) s = .next t ∧ s.onlyIn t [.regs, .cul, .keys, .rng, .free, .ecc, .out] ∧ specKeyDerive.replied sl s (.ok []) t ∧
          (t.ks ((specKeyDerive.held sl s).u 0 2)).state = Ks.loaded ∧
          (t.ks ((specKeyDerive.held sl s).u 0 2)).material = fitB (algBytes ((specKeyDerive.held sl s).u 2 1))
            (kdf b (ascii "PW1024 USER " ++ sliceB (specKeyDerive.held sl s).params 10 ((specKeyDerive.held sl s).u 8 1 - 1) ++ [0] ++ s.rootContext)
              (algBytes ((specKeyDerive.held sl s).u 2 1))) ∧
          (∀ i, i ≠ (specKeyDerive.held sl s).u 0 2 → t.ks i = s.ks i))
    ∧ (specKeyDerive.starts sl s = true → (specKeyDerive.held sl s).u 9 1 = 1 →
        ∃ t, exec (.cmdKeyDerive sl) s = .next t ∧ (t.ks ((specKeyDerive.held sl s).u 0 2)).state = Ks.loaded ∧
          (labelSlot (specKeyDerive.held sl s) ≠ (specKeyDerive.held sl s).u 0 2 → t.ks (labelSlot (specKeyDerive.held sl s)) = KeySlot.empty))
    ∧ (specKeyActivate.starts sl s = true →
        exec (.cmdKeyActivate sl) s =
            .next (specKeyActivate.ends sl s (.ok []) ((specKeyActivate.taken sl s).wakeSlot ((specKeyActivate.held sl s).u 0 2)))
          ∧ ((s.ks ((specKeyActivate.held sl s).u 0 2)).use < (s.ks ((specKeyActivate.held sl s).u 0 2)).limit →
            (((specKeyActivate.taken sl s).wakeSlot ((specKeyActivate.held sl s).u 0 2)).ks ((specKeyActivate.held sl s).u 0 2)).state = Ks.active))
    ∧ (specKeyArm.starts sl s = true →
        exec (.cmdKeyArm sl) s = .next (specKeyArm.ends sl s (.ok []) ((specKeyArm.taken sl s).setKs ((specKeyArm.held sl s).u 0 2)
          { s.ks ((specKeyArm.held sl s).u 0 2) with succ := some ((specKeyArm.held sl s).u 2 2) })))
    ∧ (specKeyLimit.starts sl s = true →
        exec (.cmdKeyLimit sl) s = .next (specKeyLimit.ends sl s (.ok []) ((specKeyLimit.taken sl s).setKs ((specKeyLimit.held sl s).u 0 2)
          { s.ks ((specKeyLimit.held sl s).u 0 2) with limit := (specKeyLimit.held sl s).u 8 8, warn := (specKeyLimit.held sl s).u 16 8 })))
    ∧ (specKeyDelete.starts sl s = true →
        ∃ t, exec (.cmdKeyDelete sl) s = .next t ∧ t.ks ((specKeyDelete.held sl s).u 0 2) = KeySlot.empty ∧
          (∀ i, i ≠ (specKeyDelete.held sl s).u 0 2 → t.ks i = s.ks i) ∧ s.onlyIn t [.regs, .cul, .keys, .ecc, .out] ∧ specKeyDelete.replied sl s (.ok []) t)
    ∧ (specKeyClear.starts sl s = true →
        exec (.cmdKeyClear sl) s = .next (specKeyClear.ends sl s (.ok []) ((specKeyClear.taken sl s).emptySlot ((specKeyClear.held sl s).u 0 2)))
          ∧ ((specKeyClear.taken sl s).emptySlot ((specKeyClear.held sl s).u 0 2)).ks ((specKeyClear.held sl s).u 0 2) = KeySlot.empty)
    ∧ (specKeyZeroize.starts sl s = true →
        ∃ t, exec (.cmdKeyZeroize sl) s = .next t ∧
          (∀ i, (specKeyZeroize.held sl s).u 0 2 ≤ i → i < (specKeyZeroize.held sl s).u 0 2 + (specKeyZeroize.held sl s).u 2 2 → i < 32768 →
            (t.ks i).state = Ks.zeroized ∧ ((s.ks i).state ≠ Ks.zeroized → (t.ks i).material = [] ∧ (t.ks i).salt = [])) ∧
          (∀ i, i < (specKeyZeroize.held sl s).u 0 2 ∨ (specKeyZeroize.held sl s).u 0 2 + (specKeyZeroize.held sl s).u 2 2 ≤ i → t.ks i = s.ks i) ∧ t.nv = s.nv)
    ∧ (specKeySlotRead.starts sl s = true →
        exec (.cmdKeySlotRead sl) s = .next (specKeySlotRead.ends sl s
          (.ok ((s.slotView ((specKeySlotRead.held sl s).u 0 2)).flatMap (toLe 4))) (specKeySlotRead.taken sl s)))

/-- CMD_KEY_ROLLOVER without TWIN links the two slots, sets ROLL_PEND with the cycle on both and lists the rollover. A rollover whose switch is made leaves the new
slot ACTIVE and the old one DRAINING with its grace. KEY_GRACE_END empties the old slot of an unfolded rollover, and of a folded one it
holds the new slot's key while the new slot empties; a slot whose grace has not ended stays as it is. -/
def Obligations.Rollovers : Prop :=
  ∀ s : State,
    (∀ sl : Slot, specKeyRollover.starts sl s = true → bitAt sl.flags.toNat 3 = false → (specKeyRollover.held sl s).u 0 2 ≠ (specKeyRollover.held sl s).u 2 2 →
        exec (.cmdKeyRollover sl) s = .next (specKeyRollover.ends sl s (.ok []) ((specKeyRollover.taken sl s).rollTake ((specKeyRollover.held sl s).u 0 2)
          ((specKeyRollover.held sl s).u 2 2) ((specKeyRollover.held sl s).u 8 8) ((specKeyRollover.held sl s).u 4 1) (bitAt ((specKeyRollover.held sl s).u 5 1) 0))))
    ∧ (∀ (o n c g : Nat) (fo : Bool), o ≠ n →
        ((s.rollTake o n c g fo).ks o).succ = some n ∧ ((s.rollTake o n c g fo).ks o).rollPend = true ∧ ((s.rollTake o n c g fo).ks n).rollPend = true ∧
        ((s.rollTake o n c g fo).ks n).roll = c ∧ (∀ i, i ≠ o → i ≠ n → (s.rollTake o n c g fo).ks i = s.ks i) ∧
        (s.rollTake o n c g fo).keys.rolls = s.keys.rolls ++ [⟨o, n, c, g, fo, false⟩])
    ∧ (∀ r : Roll, r.old ≠ r.new → (s.ks r.new).state = Ks.loaded → (s.ks r.new).use < (s.ks r.new).limit →
        (s.ks r.old).state = Ks.active →
        ((s.rollSwitch r false).ks r.new).state = Ks.active ∧ ((s.rollSwitch r false).ks r.new).rollPend = false ∧
        ((s.rollSwitch r false).ks r.old).state = Ks.draining ∧ ((s.rollSwitch r false).ks r.old).grace = r.grace ∧
        (∀ i, i ≠ r.old → i ≠ r.new → (s.rollSwitch r false).ks i = s.ks i))
    ∧ (∀ slot : BitVec 15, (s.ks slot.toNat).state = Ks.draining → (s.ks slot.toNat).grace = 0 → (s.ks slot.toNat).fold = false →
        ∃ t, exec (.keyGraceEnd slot) s = .next t ∧ t.ks slot.toNat = KeySlot.empty ∧ (∀ i, i ≠ slot.toNat → t.ks i = s.ks i) ∧
          s.onlyIn t [.regs, .keys, .ecc])
    ∧ (∀ (slot : BitVec 15) (r : Roll), (s.ks slot.toNat).state = Ks.draining → (s.ks slot.toNat).grace = 0 → (s.ks slot.toNat).fold = true →
        s.keys.rolls.find? (fun r => r.old = slot.toNat && r.switched) = some r → (s.ks r.new).state = Ks.active → r.new ≠ slot.toNat →
        ∃ t, exec (.keyGraceEnd slot) s = .next t ∧ (t.ks slot.toNat).state = Ks.active ∧ (t.ks slot.toNat).material = (s.ks r.new).material ∧
          (t.ks slot.toNat).use = (s.ks r.new).use ∧ t.ks r.new = KeySlot.empty ∧ (∀ i, i ≠ slot.toNat → i ≠ r.new → t.ks i = s.ks i))
    ∧ (∀ slot : BitVec 15,
        ((s.ks slot.toNat).state = Ks.draining ∧ (s.ks slot.toNat).grace ≠ 0) ∨
          ((s.ks slot.toNat).state ≠ Ks.draining ∧ ∀ r ∈ s.keys.rolls, r.old = slot.toNat → r.switched = true → s.cycle < r.cycle + r.grace) →
        exec (.keyGraceEnd slot) s = .next s)

/-- A word staged for a slot is in the staging buffer of that slot and no slot changes. A commit to an EMPTY slot with a loadable ALG loads it and empties the staging; to another
slot it sets WIN_REFUSED and changes no slot. KEY_KDF_CTL starts a derivation only while KEY_WORK is empty and none runs, and refuses with
DERIVE_ERR otherwise; its end fills KEY_WORK or the FLD key registers and empties a SHARED source. A move out of KEY_WORK empties it; a move that
cannot be made sets MOVE_ERR and leaves it. KEY_WORK_CLEAR empties it. While the
KEYS domain is not ON each of these accesses wakes it and waits. -/
def Obligations.KeyWork : Prop :=
  ∀ s : State,
    (∀ (slot : BitVec 15) (off : Fin 20) (v : Word), s.domOn dKeys = false →
        exec (.keyWindowStage slot off v) s = .next (s.domWake dKeys) ∧ exec (.keyWindowCommit slot v) s = .next (s.domWake dKeys) ∧
        exec (.kdfToWork v) s = .next (s.domWake dKeys) ∧ exec (.kdfToFld v) s = .next (s.domWake dKeys) ∧ exec (.keyMoveSlot v) s = .next (s.domWake dKeys) ∧
        exec (.keyMovePke v) s = .next (s.domWake dKeys) ∧ exec (.keyWorkClear v) s = .next (s.domWake dKeys) ∧ (s.domWake dKeys).keys = s.keys)
    ∧ (s.domOn dKeys = true →
    (∀ (slot : BitVec 15) (off : Fin 20) (v : Word), (∀ g, s.keys.stage = some g → g.slot = slot.toNat ∧ g.material.length = 64) →
        ∃ t g, exec (.keyWindowStage slot off v) s = .next t ∧ t.keys.stage = some g ∧ g.slot = slot.toNat ∧
          (off.val = 19 → g.id = v.toNat) ∧ (off.val < 16 → sliceB g.material (4 * off.val) 4 = toLe 4 v.toNat) ∧
          t.keys.slots = s.keys.slots ∧ s.onlyIn t [.keys])
    ∧ (∀ (slot : BitVec 15) (off : Fin 20) (v : Word) (g : KeyStage), s.keys.stage = some g → g.slot ≠ slot.toNat →
        ∃ t g', exec (.keyWindowStage slot off v) s = .next t ∧ t.keys.stage = some g' ∧ g'.slot = slot.toNat ∧ t.keys.slots = s.keys.slots ∧
          t.f F.KEY_WIN_DROP_COUNT = (s.f F.KEY_WIN_DROP_COUNT + 1) % 2 ^ F.KEY_WIN_DROP_COUNT.w)
    ∧ (∀ (slot : BitVec 15) (v : Word) (g : KeyStage), s.keys.stage = some g → g.slot = slot.toNat → (s.ks slot.toNat).state = Ks.empty →
        algLoadable (bitsOf v.toNat 12 4) = true → s.rngDown = false →
        ∃ t, exec (.keyWindowCommit slot v) s = .next t ∧ t.keys.stage = none ∧ (t.ks slot.toNat).state = Ks.loaded ∧ (t.ks slot.toNat).alg = bitsOf v.toNat 12 4 ∧
          (t.ks slot.toNat).material = fitB (algBytes (bitsOf v.toNat 12 4)) g.material ∧ (t.ks slot.toNat).id = g.id ∧ (∀ i, i ≠ slot.toNat → t.ks i = s.ks i) ∧
          s.onlyIn t [.regs, .keys, .rng, .ecc])
    ∧ (∀ (slot : BitVec 15) (v : Word) (g : KeyStage), s.keys.stage = some g → g.slot = slot.toNat →
        (s.ks slot.toNat).state ≠ Ks.empty ∨ algLoadable (bitsOf v.toNat 12 4) = false →
        ∃ t, exec (.keyWindowCommit slot v) s = .next t ∧ t.keys.slots = s.keys.slots ∧ t.keys.stage = none ∧ bitAt (t.rd R.KEY_EVT).toNat 4 = true)
    ∧ (∀ v : Word, bitAt v.toNat 31 = true → bitAt v.toNat 29 = false → bitAt v.toNat 30 = true → s.keys.work = none → s.keys.kdf = none →
        1 ≤ bitsOf v.toNat 16 7 → bitsOf v.toNat 16 7 ≤ 64 → (s.ks (bitsOf v.toNat 0 15)).shared = true → 1 ≤ s.f F.KEY_KDF_LEN_LEN → s.f F.KEY_KDF_LEN_LEN ≤ 256 →
        exec (.kdfToWork v) s = .next { s with keys := { s.keys with kdf := some ⟨some (bitsOf v.toNat 0 15), false, bitsOf v.toNat 16 7,
          s.memRead (sramBase + s.f F.KEY_KDF_ADDR_ADDR) (s.f F.KEY_KDF_LEN_LEN)⟩ } })
    ∧ (∀ v : Word, bitAt v.toNat 31 = true → bitAt v.toNat 29 = true → bitAt v.toNat 30 = true → s.keys.work = none → s.keys.kdf = none →
        bitsOf v.toNat 16 7 = 96 → (s.ks (bitsOf v.toNat 0 15)).shared = true → 1 ≤ s.f F.KEY_KDF_LEN_LEN → s.f F.KEY_KDF_LEN_LEN ≤ 256 →
        exec (.kdfToFld v) s = .next { s with keys := { s.keys with kdf := some ⟨some (bitsOf v.toNat 0 15), true, 96,
          s.memRead (sramBase + s.f F.KEY_KDF_ADDR_ADDR) (s.f F.KEY_KDF_LEN_LEN)⟩ } })
    ∧ (∀ v : Word, bitAt v.toNat 31 = true → s.keys.work.isSome = true →
        ∃ t, (if bitAt v.toNat 29 then exec (.kdfToFld v) s else exec (.kdfToWork v) s) = .next t ∧ t.keys = s.keys ∧ bitAt (t.rd R.KEY_EVT).toNat 2 = true)
    ∧ (∀ (j : KdfJob) (i : Nat), s.keys.kdf = some j → j.src = some i → (s.ks i).shared = true →
        ∃ t, exec .keyDeriveDone s = .next t ∧ t.keys.kdf = none ∧ t.ks i = KeySlot.empty ∧ (∀ n, n ≠ i → t.ks n = s.ks n) ∧
          (j.toFld = true → t.keys.fldKeys = some (kdf (s.ks i).material j.input j.bytes) ∧ t.keys.work = s.keys.work) ∧
          (j.toFld = false → t.keys.work = some (kdf (s.ks i).material j.input j.bytes) ∧ t.keys.fldKeys = s.keys.fldKeys) ∧ s.onlyIn t [.keys, .ecc])
    ∧ (∀ (v : Word) (w : List Byte), bitAt v.toNat 31 = true → bitAt v.toNat 30 = false → bitAt v.toNat 29 = false → s.keys.work = some w →
        (s.ks (bitsOf v.toNat 0 15)).state = Ks.empty → algLoadable (bitsOf v.toNat 16 4) = true → s.rngDown = false →
        ∃ t, exec (.keyMoveSlot v) s = .next t ∧ t.keys.work = none ∧ (t.ks (bitsOf v.toNat 0 15)).state = Ks.loaded ∧
          (t.ks (bitsOf v.toNat 0 15)).material = fitB (algBytes (bitsOf v.toNat 16 4)) w ∧ (t.ks (bitsOf v.toNat 0 15)).id = s.keys.moveId ∧
          (∀ i, i ≠ bitsOf v.toNat 0 15 → t.ks i = s.ks i) ∧ s.onlyIn t [.regs, .keys, .rng, .free, .ecc])
    ∧ (∀ v : Word, bitAt v.toNat 31 = true → bitAt v.toNat 30 = false → bitAt v.toNat 29 = false → (s.ks (bitsOf v.toNat 0 15)).state ≠ Ks.empty →
        ∃ t, exec (.keyMoveSlot v) s = .next t ∧ t.keys = s.keys ∧ bitAt (t.rd R.KEY_EVT).toNat 3 = true)
    ∧ (∀ (v : Word) (w : List Byte), bitAt v.toNat 31 = true → bitAt v.toNat 30 = true → bitAt v.toNat 29 = false → s.keys.work = some w →
        bitsOf v.toNat 16 4 = 1 ∨ bitsOf v.toNat 16 4 = 2 →
        exec (.keyMovePke v) s = .next { s with keys := { s.keys with work := none },
                                                pke := { s.pke with kreg := some (bitsOf v.toNat 16 4, scalarOf (bitsOf v.toNat 16 4) w) } })
    ∧ (∀ v : Word, bitAt v.toNat 29 = true → exec (.keyWorkClear v) s = .next { s with keys := { s.keys with work := none } }))

/-- When the root area is erased no root is left and every CMD_TMP_BREACH ends. When the overwriting of the slots ends KEY_EVT.OVERWRITE_DONE is set. CMD_ATT_CERT
writes the identity certificate and its length. CMD_ATT_STATEMENT answers with a statement the identity key has signed, or is refused. -/
def Obligations.IdentityAndErasure : Prop :=
  ∀ s : State,
    (s.keys.rootErasing = true →
        ∃ t, exec .rootEraseDone s = .next t ∧ t.keys.root = .erased ∧ t.keys.rootErasing = false ∧ t.fb F.KEY_ROOT_STS_VALID = false ∧
          (∀ w ∈ t.cul.waits, w.wait ≠ .breach) ∧ t.keys.slots = s.keys.slots ∧ t.mem = s.mem ∧ t.nv = s.nv)
    ∧ (s.keys.zeroizing = true →
        ∃ t, exec .slotOverwriteDone s = .next t ∧ t.keys = { s.keys with zeroizing := false } ∧ bitAt (t.rd R.KEY_EVT).toNat 1 = true ∧ t.mem = s.mem)
    ∧ (∀ sl : Slot, specAttCert.starts sl s = true →
        exec (.cmdAttCert sl) s = .next (specAttCert.ends sl s (.ok (toLe 4 s.keys.idCert.length)) ((specAttCert.taken sl s).putBuf (specAttCert.held sl s) 0 s.keys.idCert)))
    ∧ (∀ (sl : Slot) (k : List Byte), specAttStatement.starts sl s = true → s.identity = some k →
        ∃ b u, (specAttStatement.taken sl s).attest (sliceB (specAttStatement.held sl s).params 0 32) (specAttStatement.taken sl s).appList = some (b, u) ∧
          exec (.cmdAttStatement sl) s = .next (specAttStatement.ends sl s (.ok (toLe 4 b.length)) (u.putBuf (specAttStatement.held sl s) 32 b)) ∧
          b.take ((specAttStatement.taken sl s).statement (sliceB (specAttStatement.held sl s).params 0 32) (specAttStatement.taken sl s).appList).length =
            (specAttStatement.taken sl s).statement (sliceB (specAttStatement.held sl s).params 0 32) (specAttStatement.taken sl s).appList ∧
          u.mem = s.mem ∧ u.keys = s.keys)

/-- A challenge draws a fresh nonce of 32 bytes for its ring. An opening that nothing refuses opens the lowest free session with the permissions of its role, whose handle the reply
gives, and spends its challenge; one that is refused opens none and counts against its key, the eighth in a row locking it. Closing a session leaves it closed and every
other one open. Enrolling and revoking an operator key wait for the device records to be written, and the key table changes only then. -/
def Obligations.SessionCommands : Prop :=
  ∀ (sl : Slot) (s : State),
    (specChallenge.starts sl s = true →
        ∃ t c, exec (.cmdDevSessionChallenge sl) s = .next t ∧ c ∈ t.cul.challenges ∧ c.ring = sl.ring.val ∧ c.nonce.length = 32 ∧ c.born = s.gac.passed ∧
          specChallenge.replied sl s (.ok (c.nonce ++ toLe 4 c.id)) t ∧ s.onlyIn t [.regs, .cul, .rng, .free, .out])
    ∧ (∀ (card : Option (List Byte)) (i : Nat), (specOpen card).starts sl s = true →
        ((specOpen card).taken sl s).openRefused ((specOpen card).held sl s) card = none →
        (List.range 64).find? (fun i => (((specOpen card).taken sl s).session i).isNone) = some i →
        ∃ t x, exec (.cmdDevSessionOpen sl card) s = .next t ∧ t.session i = some x ∧ x.ring = sl.ring.val ∧
          x.perms = rolePerms (((specOpen card).held sl s).u 0 1) ∧ x.key = ((specOpen card).held sl s).u 2 2 ∧ x.gen = s.genOf i % 1023 + 1 ∧
          (∀ c ∈ t.cul.challenges, ¬(c.id = ((specOpen card).held sl s).u 4 4 ∧ c.ring = sl.ring.val)) ∧
          (specOpen card).replied sl s (.ok (toLe 4 (x.gen * 2 ^ 22 + i * 2 ^ 16 + x.perms) ++ toLe 4 s.cfg.active.idle)) t ∧
          s.onlyIn t [.regs, .cul, .out])
    ∧ (∀ (card : Option (List Byte)) (d : Nat), (specOpen card).starts sl s = true →
        ((specOpen card).taken sl s).openRefused ((specOpen card).held sl s) card = some d →
        ∃ t, exec (.cmdDevSessionOpen sl card) s = .next t ∧ (specOpen card).replied sl s (coded St.noAuthority d 0) t ∧
          (∀ i x, t.session i = some x → ∃ y, s.session i = some y ∧ y.perms = x.perms ∧ y.ring = x.ring) ∧
          (7 ≤ Tbl.get (fun _ => 0) s.cul.refusals (((specOpen card).held sl s).u 2 2) → t.keyLocked (((specOpen card).held sl s).u 2 2) = true) ∧
          (Tbl.get (fun _ => 0) s.cul.refusals (((specOpen card).held sl s).u 2 2) < 7 →
            Tbl.get (fun _ => 0) t.cul.refusals (((specOpen card).held sl s).u 2 2) =
              Tbl.get (fun _ => 0) s.cul.refusals (((specOpen card).held sl s).u 2 2) + 1) ∧ s.onlyIn t [.regs, .cul, .out])
    ∧ (specClose.starts sl s = true →
        ∃ t, exec (.cmdDevSessionClose sl) s = .next t ∧ t.session (specClose.held sl s).session = none ∧ t.mem = s.mem ∧ t.keys = s.keys ∧
          (∀ m, m ≠ (specClose.held sl s).session → t.session m = s.session m))
    ∧ (specEnrol.starts sl s = true →
        ∃ t, exec (.cmdDevOpkeyEnrol sl) s = .next t ∧ ⟨specEnrol.held sl s, .nv, []⟩ ∈ t.cul.waits ∧ t.nv.opKeys = s.nv.opKeys ∧ t.mem = s.mem ∧ t.keys = s.keys ∧
          (s.nv.op = none → ∃ o, t.nv.op = some o ∧
            o.eff = .opKey ((specEnrol.held sl s).u 2 2) (some ⟨(specEnrol.held sl s).u 0 1, sliceB (specEnrol.held sl s).params 4 97⟩) ∧ o.sectors.all (fun x => nvArea x = .records) = true))
    ∧ (specRevoke.starts sl s = true →
        ∃ t, exec (.cmdDevOpkeyRevoke sl) s = .next t ∧ ⟨specRevoke.held sl s, .nv, []⟩ ∈ t.cul.waits ∧ t.nv.opKeys = s.nv.opKeys ∧ t.mem = s.mem ∧ t.keys = s.keys ∧
          (s.nv.op = none → ∃ o, t.nv.op = some o ∧ o.eff = .opKey ((specRevoke.held sl s).u 0 2) none ∧ o.sectors.all (fun x => nvArea x = .records) = true))

/-- Each of these commands returns what its table gives and changes nothing else, but for CMD_PORT_EXT_FREE, which frees the QUARANTINED contexts of its range;
CMD_PORT_EXT_RELEASE, which quarantines the contexts held for a lost extender and forgets it; CMD_GAC_PHASOR, which takes an estimate; CMD_GAC_TAI_SET, which sets the seconds of the next
pulse; and CMD_DIAG_KAT, which waits for the core's test. -/
def Obligations.StatusCommands : Prop :=
  ∀ (sl : Slot) (s : State),
    (specDevInfo.starts sl s = true → exec (.cmdDevInfo sl) s = .next (specDevInfo.ends sl s
        (.ok (toLe 4 (s.rd R.DEV_ID).toNat ++ toLe 1 (bitsOf (s.rd R.DEV_VER).toNat 8 8) ++ toLe 1 (s.f F.RST_STS_STAGE) ++ toLe 1 s.service ++ toLe 1 s.gst
          ++ toLe 4 (s.rd R.DEV_AEDUF_VER).toNat ++ fitB 4 [] ++ toLe 8 (s.rd64 R.CFG_ACTIVE_SEQ_LO) ++ sha384 s.keys.idPub)) (specDevInfo.taken sl s)))
    ∧ (specDevStatus.starts sl s = true → ∃ r, r.length = 11 ∧ exec (.cmdDevStatus sl) s = .next (specDevStatus.ends sl s (.ok r) (specDevStatus.taken sl s)) ∧
        byteAt r 8 = BitVec.ofNat 8 s.level ∧ byteAt r 9 = BitVec.ofNat 8 s.coresIn.length)
    ∧ (specDiagEcho.starts sl s = true →
        exec (.cmdDiagEcho sl) s = .next (specDiagEcho.ends sl s (.ok ((fitB 104 sl.params).take sl.len.toNat)) (specDiagEcho.taken sl s)))
    ∧ (specDiagKat.starts sl s = true →
        exec (.cmdDiagKat sl) s = .next (specDiagKat.waits sl s (.kat ((specDiagKat.held sl s).u 0 1)) (specDiagKat.taken sl s)))
    ∧ (specRngHealth.starts sl s = true →
        exec (.cmdDiagRngHealth sl) s = .next (specRngHealth.ends sl s (.ok (toLe 4 (s.rd R.RNG_STS).toNat ++ toLe 4 (s.rd R.RNG_FAILS).toNat)) (specRngHealth.taken sl s)))
    ∧ (specPortStatus.starts sl s = true →
        ∃ r, r.length = 24 ∧ exec (.cmdPortStatus sl) s = .next (specPortStatus.ends sl s (.ok r) (specPortStatus.taken sl s)) ∧
          r.take 8 = toLe 4 (s.extPortId ((specPortStatus.held sl s).u 0 2)).toNat ++ toLe 4 (s.rd (R.LNE_LANE_STS (s.portLane ((specPortStatus.held sl s).u 0 2)))).toNat)
    ∧ (specPortCounters.starts sl s = true →
        exec (.cmdPortCounters sl) s = .next (specPortCounters.ends sl s
          (.ok (toLe 4 (s.blockBytes ((specPortCounters.held sl s).u 0 2) ((specPortCounters.held sl s).u 2 1)).length))
          ((specPortCounters.taken sl s).putBuf (specPortCounters.held sl s) 4 (s.blockBytes ((specPortCounters.held sl s).u 0 2) ((specPortCounters.held sl s).u 2 1)))))
    ∧ (specPortExtStatus.starts sl s = true →
        ∃ r, exec (.cmdPortExtStatus sl) s = .next (specPortExtStatus.ends sl s (.ok r) (specPortExtStatus.taken sl s)) ∧ r.length = 43 ∧
          r.take 8 = toLe 4 (s.extLaneSts ((specPortExtStatus.held sl s).u 0 1)).toNat ++ toLe 4 (s.rd (R.EXT_LANE_FAIL ((specPortExtStatus.held sl s).u 0 1))).toNat)
    ∧ (specPortExtFree.starts sl s = true →
        ∃ t, exec (.cmdPortExtFree sl) s = .next t ∧ specPortExtFree.replied sl s (.ok []) t ∧ s.onlyIn t [.regs, .cul, .ctxs, .out] ∧
          (∀ p, (specPortExtFree.held sl s).u 0 2 ≤ p → p < (specPortExtFree.held sl s).u 0 2 + (specPortExtFree.held sl s).u 2 2 → t.ctx p = Ctx.free) ∧
          (∀ p, p < (specPortExtFree.held sl s).u 0 2 ∨ (specPortExtFree.held sl s).u 0 2 + (specPortExtFree.held sl s).u 2 2 ≤ p → t.ctx p = s.ctx p))
    ∧ (specPortExtRelease.starts sl s = true →
        ∃ t, exec (.cmdPortExtRelease sl) s = .next t ∧ (t.xt ((specPortExtRelease.held sl s).u 0 1)).st = xNone ∧ s.onlyIn t [.regs, .cul, .ctxs, .ext, .out] ∧
          bitAt (t.rd R.EXT_EVT).toNat 4 = true ∧ (∀ p, (t.ctx p).st = (s.ctx p).st ∨ ((s.ctx p).st = ctxHeld ∧ (t.ctx p).st = ctxQuarantined)))
    ∧ (specGacStatus.starts sl s = true →
        ∃ r, exec (.cmdGacStatus sl) s = .next (specGacStatus.ends sl s (.ok r) (specGacStatus.taken sl s)) ∧ r.length = 48 ∧
          r.take 24 = toLe 4 (s.rd R.GAC_STATUS).toNat ++ toLe 4 (s.rd R.GAC_FREQ).toNat ++ toLe 4 (s.rd R.GAC_PHERR_RMS).toNat
            ++ toLe 4 (s.rd R.GAC_PTP_STATUS).toNat ++ toLe 8 s.gacNow.toNat)
    ∧ (specGacPhasor.starts sl s = true →
        exec (.cmdGacPhasor sl) s = .next (specGacPhasor.ends sl s (.ok []) ((specGacPhasor.taken sl s).phasorTake (specGacPhasor.held sl s))) ∧
        (s.phasorTake (specGacPhasor.held sl s)).gac.phasor =
          some (signedAngle ((s.angleAtTai (phasorNs (specGacPhasor.held sl s)) : Int) - (specGacPhasor.held sl s).u 0xC 4)) ∧
        (s.phasorValid = false → 7 ≤ s.gac.phasorRun → (s.phasorTake (specGacPhasor.held sl s)).phasorValid = true))
    ∧ (∀ r, specGacPhasor.starts sl s = false → s.turn sl.ring = true → sl.own = 1 → bitAt sl.flags.toNat 0 = false → bitAt sl.flags.toNat 2 = false →
        frontCheck specGacPhasor sl.ver.toNat (specGacPhasor.held sl s) (s.takeSlot sl.ring) = none → fullCheck specGacPhasor (specGacPhasor.held sl s) (specGacPhasor.taken sl s) = some r →
        exec (.cmdGacPhasor sl) s = .next (specGacPhasor.ends sl s r ((specGacPhasor.taken sl s).gacFlag 5)))
    ∧ (specGacTaiSet.starts sl s = true →
        exec (.cmdGacTaiSet sl) s = .next (specGacTaiSet.ends sl s (.ok [])
          { specGacTaiSet.taken sl s with gac := { s.gac with taiSet := some ((specGacTaiSet.held sl s).u 0 8) } }))

/-- The sixteenth word of a descriptor puts its request at the tail of its queue; a full queue discards it and sets FULL. A core with capacity takes the head of the highest queue that holds
work: a request that passes its checks runs under a nonce from the slot and counts one invocation, and one that fails completes. A request that verifies completes with OK 1 only where both comparisons
agree and the tag is the computed one; otherwise it writes no byte but its completion. A host request waits for its
completion, which it replies with. -/
def Obligations.CipherRequests : Prop :=
  ∀ s : State,
    (∀ (q : Fin 4) (v : Word), s.ciq.queues.length = 4 → s.ciq.words.length = 4 → (s.ciq.words.getD q.val []).length = 15 → s.fb F.CIQ_STS_QUIESCED = false →
        ∃ t, exec (.ciqDescriptorSubmit q v) s = .next t ∧ t.ciq.words.getD q.val [] = [] ∧ t.mem = s.mem ∧ t.keys = s.keys ∧
          ((s.ciq.queues.getD q.val []).length < 256 →
            t.ciq.queues.getD q.val [] = s.ciq.queues.getD q.val [] ++ [ciqOfWords q.val (s.ciq.words.getD q.val [] ++ [v])]) ∧
          (256 ≤ (s.ciq.queues.getD q.val []).length → t.ciq.queues = s.ciq.queues ∧ bitAt (t.f F.CIQ_STS_FULL) q.val = true) ∧
          (∀ p, p ≠ q.val → t.ciq.queues.getD p [] = s.ciq.queues.getD p []))
    ∧ (∀ (core : Fin 12) (aad inp tag : List Byte) (r : CiqReq), s.ciqHead = some r → s.ciqCheck { r with core := core.val } = none →
        bitAt (s.f F.FPX_CORE_STS_INSVC) core.val = true → (∀ x ∈ s.ciq.running, x.core ≠ core.val) → (∀ d ∈ s.ciq.waiting, d.req.core ≠ core.val) →
        s.fb F.CIQ_CTL_EN = true → s.domOn dCipher = true →
        (∀ t ∈ s.cal.testing, t.1 ≠ core.val) → s.slotPoison [s.effSlot r.slot] = none →
        ∃ t x, exec (.ciqRequestStart core aad inp tag none) s = .next t ∧ t.ciq.running = s.ciq.running ++ [x] ∧ x.core = core.val ∧ x.slot = r.slot ∧
          x.key = (s.ks (s.effSlot r.slot)).material ∧ x.iv = (s.ciqIv { r with core := core.val } (s.effSlot r.slot)).1 ∧
          (t.ks (s.effSlot r.slot)).use = (s.ks (s.effSlot r.slot)).use + 1 ∧ t.mem = s.mem)
    ∧ (∀ (core : Fin 12) (poison : Option Nat) (agree : Bool) (r : CiqReq), s.ciq.running.find? (fun r => r.core = core.val) = some r → s.ciqPoison r poison = none →
        ciqVerifies r.op = true → 3 < r.op ∨ (r.dipped = false ∧ s.berm.dipping = false ∧ s.berm.settling = false) → s.ciq.waiting = [] → s.ciqFull = false →
        agree = false ∨ r.tagOk s = false →
        ∃ t, exec (.ciqRequestDone core poison agree []) s = .next t ∧ (∀ x ∈ t.ciq.running, x.core ≠ core.val) ∧
          (∀ a, (a < sramBase + s.f F.CIQ_CRING_BASE_BASE * 32 + 32 * (s.f F.CIQ_CRING_IDX_TAIL % s.ciqRing) ∨
              sramBase + s.f F.CIQ_CRING_BASE_BASE * 32 + 32 * (s.f F.CIQ_CRING_IDX_TAIL % s.ciqRing) + 32 ≤ a) → t.memB a = s.memB a) ∧
          (∀ o n, .hostWrite o n ∈ t.out → .hostWrite o n ∈ s.out) ∧
          t.memB (sramBase + s.f F.CIQ_CRING_BASE_BASE * 32 + 32 * (s.f F.CIQ_CRING_IDX_TAIL % s.ciqRing) + 6) = 0 ∧ t.cxl = s.cxl ∧ t.keys = s.keys)
    ∧ (∀ (core : Fin 12) (poison : Option Nat) (r : CiqReq), s.ciq.running.find? (fun r => r.core = core.val) = some r → s.ciqPoison r poison = none →
        ciqVerifies r.op = false → 3 < r.op ∨ (r.dipped = false ∧ s.berm.dipping = false ∧ s.berm.settling = false) →
        ∃ (t : List Byte) (u : State), exec (.ciqRequestDone core poison true []) s = .next (u.ciqEnd ⟨r, St.done, 1, 0, if ciqHasOut r.op then r.inLen else 0, t⟩) ∧ u.keys = s.keys ∧
          (5 < r.op → t = []) ∧ (r.op ≤ 5 → t = fitB 16 (r.tagBytes s)))
    ∧ (∀ head : BitVec 16, s.ciq.waiting = [] → exec (.ciqCringHeadWrite head) s = .next (s.setF F.CIQ_CRING_IDX_HEAD head.toNat))
    ∧ (∀ (head : BitVec 16) (d : CiqDone) (l : List CiqDone), s.ciq.waiting = d :: l →
        (s.setF F.CIQ_CRING_IDX_HEAD head.toNat).ciqFull = false → d.req.host = none →
        ∃ t, exec (.ciqCringHeadWrite head) s = .next t ∧ t.ciq.waiting.length ≤ l.length)
    ∧ (∀ sl : Slot, specCiqSubmit.starts sl s = true →
        ∃ u, exec (.cmdCiqSubmit sl) s = .next (specCiqSubmit.waits sl s (.ciq s.ciq.nextTag) u) ∧ u.mem = s.mem ∧ u.keys = s.keys ∧
          u.ciq.nextTag = (s.ciq.nextTag + 1) % 2 ^ 32 ∧
          (s.ciq.queues.length = 4 → ∃ r, u.ciq.queues.getD ((specCiqSubmit.held sl s).u 1 1) [] = s.ciq.queues.getD ((specCiqSubmit.held sl s).u 1 1) [] ++ [r] ∧
            r.rtag = s.ciq.nextTag ∧ r.slot = (specCiqSubmit.held sl s).u 2 2 ∧ r.op = (specCiqSubmit.held sl s).u 0 1 ∧ r.host = some (sl.ring.val, (specCiqSubmit.held sl s).idx)))
    ∧ (∀ sl : Slot, specCiqStatus.starts sl s = true →
        exec (.cmdCiqStatus sl) s = .next (specCiqStatus.ends sl s (.ok ((s.ciq.queues.flatMap (fun q => toLe 2 q.length)) ++ toLe 8 s.ciq.blocks)) (specCiqStatus.taken sl s)))

/-- The sixteenth word of a descriptor queues its job, and the engine runs it when idle. At a yield point the running job has one interval fewer, and a queued job with fewer intervals takes its
place while fewer than four jobs are suspended and it was suspended fewer than eight times. A job that ends without a fault, and that no check stops, completes with DONE; a first fault
restarts the job with its result discarded, and a second ends it. A job under KREG leaves the private-key register empty. Of the commands, a signature, a shared value, a new key and a public key are what the operation
computes; CMD_PKE_VERIFY changes no key; CMD_PKE_ECDH leaves its OUT_SLOT LOADED with ALG 0xF and CMD_PKE_KEYGEN its head slot LOADED with ALG 0x6; a command
whose operation meets a second PKE fault replies INTERNAL. -/
def Obligations.PublicKeyEngine : Prop :=
  ∀ s : State,
    (∀ (v : Word) (o : BitVec 16), s.pke.words.length = 15 → s.fb F.PKE_STS_QUIESCED = false → s.pke.queue.length < 16 →
        exec (.pkeJobSubmit v o) s = .next (({ s with pke := { s.pke with words := [], queue := s.pke.queue ++ [s.pkeJob (s.pke.words ++ [v]) o.toNat], order := s.pke.order + 1 } }.domWake dPke).pkeNext))
    ∧ (∀ j : PkeJob, s.pke.running = none → s.pke.waiting = [] → s.fb F.PKE_CTL_EN = true → s.berm.dipping = false → s.berm.settling = false → s.domOn dPke = true →
        pkeBest (s.pke.suspended ++ s.pke.queue) = some j → s.pkeNext.pke.running = some j ∧ (∀ i ∈ s.pke.queue, j.left ≤ i.left) ∧
          (j.owner ≠ 0xFFFF → s.pkeNext.pke.kreg = none))
    ∧ (∀ j : PkeJob, s.pke.running = some j → pkeBest s.pke.queue = none →
        exec .pkeYieldPoint s = .next { s with pke := { s.pke with running := some { j with left := j.left - 1 } } })
    ∧ (∀ j q : PkeJob, s.pke.running = some j → pkeBest s.pke.queue = some q → q.left < j.left - 1 → s.pke.suspended.length < 4 → j.susp < 8 →
        ∃ t, exec .pkeYieldPoint s = .next t ∧ t.pke.running = some q ∧ t.pke.suspended = s.pke.suspended ++ [{ j with left := j.left - 1, susp := j.susp + 1 }] ∧
          s.onlyIn t [.pke])
    ∧ (∀ (msg key sig : List Byte) (j : PkeJob), s.pke.running = some j → j.faults = 0 →
        ∃ t, exec (.pkeJobDone true msg key sig []) s = .next t ∧ bitAt (t.rd R.PKE_EVT).toNat 0 = true ∧ t.keys = s.keys ∧
          t.pke.running = some { j with faults := 1, left := j.total } ∧ t.pke.queue = s.pke.queue ∧ t.mem = s.mem)
    ∧ (∀ (msg key sig : List Byte) (j : PkeJob), s.pke.running = some j → s.pkePoison j = none → (j.kreg = true → j.owner = 0xFFFF) →
        (j.inputs s msg key sig).check { s with pke := { s.pke with running := none } } = none → j.op = 2 →
        exec (.pkeJobDone false msg key sig []) s = .next (({ s with pke := { s.pke with running := none } }.pkeEnd j St.done
          (b2n (Config.sigVerify j.alg (j.inputs s msg key sig).key (signedForm j.alg (bitAt j.flags 0) (j.inputs s msg key sig).msg) (j.inputs s msg key sig).sig)) 0 0).pkeNext))
    ∧ (∀ (j : PkeJob) (st ok n d : Nat), j.kreg = true → j.owner = 0xFFFF → (s.pkeEnd j st ok n d).pke.kreg = none)
    ∧ (∀ head : BitVec 16, s.pke.waiting = [] → exec (.pkeCringHeadWrite head) s = .next (s.setF F.PKE_CRING_IDX_HEAD head.toNat).pkeNext)
    ∧ (∀ sl : Slot, (specPkeSign 0).starts sl s = true →
        exec (.cmdPkeSign sl 0) s = .next ((specPkeSign 0).ends sl s (.ok (toLe 4 ((signIn ((specPkeSign 0).held sl s)).run (((specPkeSign 0).taken sl s).addF F.PKE_JOBS_COUNT 1)).2.1.length))
          (((signIn ((specPkeSign 0).held sl s)).run (((specPkeSign 0).taken sl s).addF F.PKE_JOBS_COUNT 1)).2.2.putBuf ((specPkeSign 0).held sl s) 12
            ((signIn ((specPkeSign 0).held sl s)).run (((specPkeSign 0).taken sl s).addF F.PKE_JOBS_COUNT 1)).2.1)) ∧
        ((signIn ((specPkeSign 0).held sl s)).run (((specPkeSign 0).taken sl s).addF F.PKE_JOBS_COUNT 1)).2.1.length =
          sigLen (((specPkeSign 0).held sl s).u 0 1) (storedType s (((specPkeSign 0).held sl s).u 2 2)))
    ∧ (∀ sl : Slot, (specPkeVerify 0).starts sl s = true →
        ∃ t, exec (.cmdPkeVerify sl 0) s = .next t ∧ t.keys = s.keys ∧ t.mem = s.mem ∧ s.onlyIn t [.regs, .cul, .out] ∧
          (specPkeVerify 0).replied sl s (.ok [BitVec.ofNat 8 (b2n (Config.sigVerify (((specPkeVerify 0).held sl s).u 0 1) (((specPkeVerify 0).held sl s).inp 0 4)
            (signedForm (((specPkeVerify 0).held sl s).u 0 1) (bitAt (((specPkeVerify 0).held sl s).u 1 1) 0) (((specPkeVerify 0).held sl s).inp 1 12)) (((specPkeVerify 0).held sl s).inp 2 20)))]) t)
    ∧ (∀ sl : Slot, (specPkeEcdh 0).starts sl s = true →
        ∃ t, exec (.cmdPkeEcdh sl 0) s = .next t ∧ (t.ks (((specPkeEcdh 0).held sl s).u 4 2)).state = Ks.loaded ∧ (t.ks (((specPkeEcdh 0).held sl s).u 4 2)).alg = 15 ∧
          (bitAt (((specPkeEcdh 0).held sl s).u 1 1) 0 = false → (t.ks (((specPkeEcdh 0).held sl s).u 4 2)).material =
            shared (((specPkeEcdh 0).held sl s).u 0 1) (storedKey s (((specPkeEcdh 0).held sl s).u 2 2)) (((specPkeEcdh 0).held sl s).inp 0 8)) ∧ t.mem = s.mem ∧ t.nv = s.nv)
    ∧ (∀ sl : Slot, (specPkeKeygen 0).starts sl s = true →
        ∃ t, exec (.cmdPkeKeygen sl 0) s = .next t ∧ (t.ks (((specPkeKeygen 0).held sl s).u 2 2)).state = Ks.loaded ∧ (t.ks (((specPkeKeygen 0).held sl s).u 2 2)).alg = 6 ∧
          (∀ i, (i < ((specPkeKeygen 0).held sl s).u 2 2 ∨ ((specPkeKeygen 0).held sl s).u 2 2 + contSlots ((keygenIn ((specPkeKeygen 0).held sl s)).keyType s) < i) → t.ks i = s.ks i) ∧
          t.mem = s.mem ∧ t.nv = s.nv)
    ∧ (∀ sl : Slot, (specPkePubkey 0).starts sl s = true →
        ∃ t, exec (.cmdPkePubkey sl 0) s = .next t ∧ (specPkePubkey 0).replied sl s (.ok (toLe 4 (pubLen (storedType s (((specPkePubkey 0).held sl s).u 0 2))))) t ∧
          (t.ks (((specPkePubkey 0).held sl s).u 0 2)).use = (s.ks (((specPkePubkey 0).held sl s).u 0 2)).use + 1 ∧ t.mem = s.mem ∧ t.nv = s.nv)
    ∧ (∀ (c : CmdSpec) (sl : Slot) (i : Instr), c.starts sl s = true →
        (c = specPkeSign 2 ∧ i = .cmdPkeSign sl 2 ∨ c = specPkeVerify 2 ∧ i = .cmdPkeVerify sl 2 ∨ c = specPkeEcdh 2 ∧ i = .cmdPkeEcdh sl 2 ∨
          c = specPkeKeygen 2 ∧ i = .cmdPkeKeygen sl 2 ∨ c = specPkePubkey 2 ∧ i = .cmdPkePubkey sl 2) →
        ∃ t, exec i s = .next t ∧ c.replied sl s ⟨St.internal, 0, []⟩ t ∧ bitAt (t.rd R.PKE_EVT).toNat 0 = true)

/-- Sixteen raw words of a cell in service make a conditioned block, and at start-up three blocks instantiate the DRBG and the source runs, as they do for a BLOCKED one whose cell has returned. A failing cell leaves service and retries, and one that failed before is retired; when every cell is retired, or none has served for
100 µs, the source is BLOCKED with RNG_EVT.BLOCKED set. A retrying cell that passes returns to service. A reseed that is due takes three blocks,
starts both counts again and adds one to RNG_RESEEDS. TEST is entered from RUNNING or BLOCKED and left to STARTUP with the raw buffer discarded. Outside
RUNNING a read of RNG_DATA gives 0 with poison, and a host read gives 0 and takes nothing. RNG_RAW gives the oldest raw word. -/
def Obligations.RandomBits : Prop :=
  ∀ s : State,
    (∀ (c : BitVec 4) (raw : List (Fin 4 × Word)) (u : State), u = (s.setF F.RNG_STS_CELL_OK (s.f F.RNG_STS_CELL_OK ||| c.toNat)).rngFeed raw →
        s.rngState = RngSt.startup → c ≠ 0 → s.f F.RNG_STS_CELL_RETIRED = 0 → s.f F.RNG_STS_CELL_RETRY = 0 →
        ∃ t, exec (.rngInstantiate c raw) s = .next t ∧ t.f F.RNG_STS_CELL_OK = (s.f F.RNG_STS_CELL_OK ||| c.toNat) ∧ s.onlyIn t [.regs, .rng] ∧
          (u.rng.blocks.length < 3 → t.rngState = RngSt.startup) ∧
          (3 ≤ u.rng.blocks.length → t.rngState = RngSt.running ∧ t.rng.live = true ∧ t.rng.reqs = 0 ∧ t.rng.zeros = 0 ∧
            t.rng.seed = (u.rng.blocks.take 3).flatten ∧ t.rng.blocks = []))
    ∧ (∀ raw : List (Fin 4 × Word), s.rngState = RngSt.blocked → s.f F.RNG_STS_CELL_OK ≠ 0 → 3 ≤ (s.rngFeed raw).rng.blocks.length →
        ∃ t, exec (.rngInstantiate 0 raw) s = .next t ∧ t.rngState = RngSt.running ∧ t.rng.live = true)
    ∧ (∀ (k : Fin 4) (w : Word), s.berm.dipping = false → s.rngState ≠ RngSt.test → bitAt (s.f F.RNG_STS_CELL_OK) k.val = true → s.rng.acc.length = 4 →
        (s.rng.acc.getD k.val []).length = 15 →
        (s.rngFeed [(k, w)]).rng.blocks = s.rng.blocks ++ [(List.range 16).map (Config.cbcMacByte (s.rng.acc.getD k.val [] ++ [w]))] ∧
          (s.rngFeed [(k, w)]).rng.acc.getD k.val [] = [])
    ∧ (∀ (k : Fin 4) (n : Fin 5), s.berm.dipping = false → s.rngState ≤ RngSt.running → bitAt (s.f F.RNG_STS_CELL_RETIRED) k.val = false →
        ∃ t, exec (.rngCellFail (BitVec.ofNat 4 (2 ^ k.val)) n) s = .next t ∧ bitAt (t.f F.RNG_STS_CELL_OK) k.val = false ∧
          (k.val ∈ s.rng.failed → bitAt (t.f F.RNG_STS_CELL_RETIRED) k.val = true) ∧
          (k.val ∉ s.rng.failed → bitAt (t.f F.RNG_STS_CELL_RETRY) k.val = true ∧ k.val ∈ t.rng.failed) ∧ t.mem = s.mem ∧ t.keys = s.keys)
    ∧ (∀ (k : Fin 4) (n : Fin 5), s.berm.dipping = false → s.rngState ≤ RngSt.running → k.val ∈ s.rng.failed →
        s.f F.RNG_STS_CELL_RETIRED = 15 - 2 ^ k.val →
        ∃ t, exec (.rngCellFail (BitVec.ofNat 4 (2 ^ k.val)) n) s = .next t ∧ t.rngState = RngSt.blocked ∧ t.rng.live = false ∧ bitAt (t.rd R.RNG_EVT).toNat 3 = true)
    ∧ (∀ (k : Fin 4) (raw : List (Fin 4 × Word)), bitAt (s.f F.RNG_STS_CELL_RETRY) k.val = true →
        ∃ t, exec (.rngCellReturn k raw) s = .next t ∧ bitAt (t.f F.RNG_STS_CELL_OK) k.val = true ∧ bitAt (t.f F.RNG_STS_CELL_RETRY) k.val = false ∧
          (s.rngState = RngSt.blocked → 3 ≤ s.rng.blocks.length → t.rngState = RngSt.running) ∧ (s.rngState ≠ RngSt.blocked → t.rngState = s.rngState) ∧
          s.onlyIn t [.regs, .rng])
    ∧ (∀ raw : List (Fin 4 × Word), s.rngState = RngSt.running → 3 ≤ s.rng.blocks.length → 65536 ≤ s.rng.reqs ∨ 64 ≤ s.rng.zeros →
        ∃ t, exec (.rngReseed raw) s = .next t ∧ t.rng.seed = (s.rng.blocks.take 3).flatten ∧ t.rng.reqs = 0 ∧ t.rng.zeros = 0 ∧ t.f F.RNG_STS_REQUESTS = 0 ∧ t.rngState = RngSt.running ∧
          t.rd R.RNG_RESEEDS = s.rd R.RNG_RESEEDS + 1 ∧ s.onlyIn t [.regs, .rng])
    ∧ (s.rngState ≤ RngSt.running → s.f F.RNG_STS_CELL_OK = 0 → s.f F.RNG_STS_CELL_RETRY ≠ 0 →
        ∃ t, exec .rngBlockTimeout s = .next t ∧ t.rngState = RngSt.blocked ∧ bitAt (t.rd R.RNG_EVT).toNat 3 = true ∧ 2 ≤ t.level ∧ t.keys = s.keys)
    ∧ (∀ v : Word, bitAt v.toNat 31 = true → s.rngState = RngSt.running ∨ s.rngState = RngSt.blocked →
        ∃ t, exec (.rngTestEnter v) s = .next t ∧ t.rngState = RngSt.test ∧ t.rng.live = false ∧ bitAt (t.rd R.RNG_EVT).toNat 0 = true ∧ t.rd R.RNG_TEST = v &&& 0x80000003)
    ∧ (∀ v : Word, bitAt v.toNat 31 = false → s.rngState = RngSt.test →
        ∃ t, exec (.rngTestExit v) s = .next t ∧ t.rngState = RngSt.startup ∧ t.rng.raw = [] ∧ s.onlyIn t [.regs, .rng])
    ∧ (exec (.rngDataRead true) s = .next (s.emit (.read R.RNG_DATA 0 false)) ∧
        (s.rngState ≠ RngSt.running → exec (.rngDataRead false) s = .next (s.emit (.read R.RNG_DATA 0 true))) ∧
        (s.rngState = RngSt.running → ∃ t v, exec (.rngDataRead false) s = .next t ∧ t.out = .read R.RNG_DATA v false :: s.out ∧ t.rng.draws = s.rng.draws + 1 ∧
          t.rng.reqs = s.rng.reqs + 1 ∧ s.onlyIn t [.regs, .rng, .out]))
    ∧ (∀ (v : Word) (l : List Word), s.rngState = RngSt.test → s.rng.raw = v :: l →
        ∃ t, exec (.rngRawRead false []) s = .next t ∧ t.out = .read R.RNG_RAW v.toNat false :: s.out ∧ t.rng.raw = l.take 1023 ∧ s.onlyIn t [.rng, .out])

/-- A write of NVA_OP with GO is discarded while the controller is BUSY; a program or an erase of a sector that is protected or not Aeduf's ends with BAD_PARAM and touches nothing; a program of erased words is
taken up with its data, and one whose first word is not erased ends with PROG_NOT_ERASED; an erase that passes is taken up with its first sector's ERASE_INTENT in the journal. An erase that ends leaves its sector all ones with an ERASE_DONE, and a program
leaves its data, other sectors as they were. Host commands wait for the controller; a read returns the array; an image is taken up for
the slot that did not boot; and protection is only ever added. -/
def Obligations.NvController : Prop :=
  ∀ s : State,
    (∀ (r : Bool) (x : Fin 4096), s.nv.op.isSome = true →
        ∃ t u, exec (.nvaEraseStart r x) s = .next t ∧ exec (.nvaProgramStart r x) s = .next u ∧ t.nv = s.nv ∧ u.nv = s.nv ∧ t.mem = s.mem ∧ u.mem = s.mem)
    ∧ (∀ (r : Bool) (x : Fin 4096), s.nv.op = none → s.nvProt x.val = true → s.f F.NVA_OP_ARG_COUNT = 1 → s.f F.NVA_OP_ARG_WORD ≤ 511 → s.aedufMay x.val = true →
        ∃ t, exec (.nvaProgramStart r x) s = .next t ∧ t.nv = s.nv ∧ t.f F.NVA_STATUS_RESULT = St.badParam ∧ bitAt (t.rd R.NVA_EVT).toNat 7 = true)
    ∧ (∀ (r : Bool) (x : Fin 4096), s.nv.op = none → s.nvProt x.val = false → s.aedufMay x.val = true → 1 ≤ s.f F.NVA_OP_ARG_COUNT →
        s.f F.NVA_OP_ARG_WORD + s.f F.NVA_OP_ARG_COUNT ≤ 512 →
        (∀ i, i < s.f F.NVA_OP_ARG_COUNT → s.nvErased (x.val * 4096 + 8 * (s.f F.NVA_OP_ARG_WORD + i)) = true) →
        ∃ t o, exec (.nvaProgramStart r x) s = .next t ∧ t.nv.op = some o ∧ o.program = true ∧ o.erase = false ∧ o.sector = x.val ∧ o.first = s.f F.NVA_OP_ARG_WORD ∧
          o.restore = r ∧ o.data = (List.range (8 * s.f F.NVA_OP_ARG_COUNT)).map (fun i => Tbl.get (fun _ => 0) s.nv.staging i) ∧
          t.nv.bytes = s.nv.bytes ∧ t.nv.journal = s.nv.journal ∧ t.fb F.NVA_STATUS_BUSY = true ∧ t.mem = s.mem ∧ t.keys = s.keys)
    ∧ (∀ (r : Bool) (x : Fin 4096), s.nv.op = none → s.nvProt x.val = false → s.aedufMay x.val = true → 1 ≤ s.f F.NVA_OP_ARG_COUNT →
        s.f F.NVA_OP_ARG_WORD + s.f F.NVA_OP_ARG_COUNT ≤ 512 → s.nvErased (x.val * 4096 + 8 * s.f F.NVA_OP_ARG_WORD) = false →
        ∃ t, exec (.nvaProgramStart r x) s = .next t ∧ t.nv = s.nv ∧ t.f F.NVA_STATUS_RESULT = St.progNotErased ∧
          t.f F.NVA_FAIL_ADDR_ADDR = x.val * 4096 + 8 * s.f F.NVA_OP_ARG_WORD)
    ∧ (∀ (r : Bool) (x : Fin 4096), s.nv.op = none → s.nvProt x.val = false → s.f F.NVA_OP_ARG_COUNT = 1 → s.aedufMay x.val = true →
        ∃ t o, exec (.nvaEraseStart r x) s = .next t ∧ t.nv.op = some o ∧ o.erase = true ∧ o.sector = x.val ∧ o.count = 1 ∧ o.restore = r ∧ t.nv.bytes = s.nv.bytes ∧
          t.fb F.NVA_STATUS_BUSY = true ∧ (∃ j ∈ t.nv.journal, j.kind = jIntent ∧ j.sector = x.val) ∧ t.mem = s.mem ∧ t.keys = s.keys)
    ∧ (∀ o : NvOp, s.nv.op = some o → o.dipped = false → o.refused = false → s.domOn dNva = true → o.erase = true → o.program = false → o.count = 1 → o.done = 0 → o.user = .reg →
        o.eff = .none → nvArea o.sector ≠ .journal → s.nv.queue = [] →
        ∃ t, exec (.nvOpDone none) s = .next t ∧ t.nv.op = none ∧ (∀ i, i < 4096 → t.nvByte (o.sector * 4096 + i) = 0xFF) ∧
          (∀ a, nvArea (a / 4096) ≠ .journal → s.nvPhys (a / 4096) ≠ s.nvPhys o.sector → t.nvByte a = s.nvByte a) ∧ t.f F.NVA_STATUS_RESULT = St.done ∧
          t.fb F.NVA_STATUS_BUSY = false ∧ bitAt (t.rd R.NVA_EVT).toNat 0 = true)
    ∧ (∀ (o : NvOp) (a : Nat), s.nv.op = some o → o.dipped = false → o.refused = false → s.domOn dNva = true → s.progBlocked o = some a → o.user = .reg → s.nv.queue = [] →
        ∃ t, exec (.nvOpDone none) s = .next t ∧ t.nv.op = none ∧ t.nv.bytes = s.nv.bytes ∧ t.f F.NVA_STATUS_RESULT = St.progNotErased ∧ t.f F.NVA_FAIL_ADDR_ADDR = a % 2 ^ 24)
    ∧ (∀ sl : Slot, specNvaRead.starts sl s = true →
        exec (.cmdNvaRead sl) s = .next (specNvaRead.ends sl s
          (.ok (toLe 4 (min ((specNvaRead.held sl s).buf 4).2 (2 ^ 24 - ((specNvaRead.held sl s).u 0 2 * 4096 + (specNvaRead.held sl s).u 2 2)))))
          ((specNvaRead.taken sl s).putBuf (specNvaRead.held sl s) 4 (s.nvRead ((specNvaRead.held sl s).u 0 2 * 4096 + (specNvaRead.held sl s).u 2 2)
            (min ((specNvaRead.held sl s).buf 4).2 (2 ^ 24 - ((specNvaRead.held sl s).u 0 2 * 4096 + (specNvaRead.held sl s).u 2 2)))))))
    ∧ (∀ sl : Slot, specNvaErase.starts sl s = true → s.nv.op = none →
        ∃ u o, exec (.cmdNvaErase sl) s = .next (specNvaErase.waits sl s .nv u) ∧ u.nv.op = some o ∧ o.erase = true ∧ o.sector = (specNvaErase.held sl s).u 0 2 ∧
          o.count = (specNvaErase.held sl s).u 2 2 ∧ o.restore = true ∧ u.nv.bytes = s.nv.bytes ∧ (∀ x ∈ o.sectors, hostMay x = true))
    ∧ (∀ sl : Slot, specNvaProgram.starts sl s = true → s.nv.op = none →
        (s.nvErased ((specNvaProgram.held sl s).u 0 2 * 4096 + (specNvaProgram.held sl s).u 2 2) = false →
          ∃ u, exec (.cmdNvaProgram sl) s = .next (specNvaProgram.ends sl s
              ⟨St.progNotErased, (specNvaProgram.held sl s).u 0 2 * 4096 + (specNvaProgram.held sl s).u 2 2, []⟩ u) ∧ u.nv.bytes = s.nv.bytes)
        ∧ ((∀ i, i < ((specNvaProgram.held sl s).buf 4).2 / 8 → s.nvErased ((specNvaProgram.held sl s).u 0 2 * 4096 + (specNvaProgram.held sl s).u 2 2 + 8 * i) = true) →
          ∃ u o, exec (.cmdNvaProgram sl) s = .next (specNvaProgram.waits sl s .nv u) ∧ u.nv.op = some o ∧ o.program = true ∧ o.restore = true ∧
            o.data = (specNvaProgram.held sl s).inp 0 4 ∧ hostMay o.sector = true))
    ∧ (∀ sl : Slot, specNvaProtect.starts sl s = true →
        ∃ t, exec (.cmdNvaProtect sl) s = .next t ∧ specNvaProtect.replied sl s (.ok []) t ∧ s.onlyIn t [.regs, .cul, .out] ∧
          (∀ x, x < 4096 → (t.nvProt x = true ↔ s.nvProt x = true ∨
            ((specNvaProtect.held sl s).u 0 2 ≤ x ∧ x < (specNvaProtect.held sl s).u 0 2 + (specNvaProtect.held sl s).u 2 2))))
    ∧ (∀ sl : Slot, specNvaStatus.starts sl s = true →
        exec (.cmdNvaStatus sl) s = .next (specNvaStatus.ends sl s (.ok (toLe 2 s.nv.remap.length ++ toLe 2 s.sparesLeft ++ toLe 1 s.nv.booted)) (specNvaStatus.taken sl s)))
    ∧ (∀ sl : Slot, specNvaImageLoad.starts sl s = true → s.nv.op = none → s.nv.booted ≤ 1 →
        ∃ u o, exec (.cmdNvaImageLoad sl) s = .next (specNvaImageLoad.waits sl s .nv u) ∧ u.nv.op = some o ∧ o.sector = fwSector (1 - s.nv.booted) ∧
          o.sector ≠ fwSector s.nv.booted ∧ o.eff = .image (1 - s.nv.booted) (fwDigest ((specNvaImageLoad.held sl s).inp 0 0)))

/-- A failing comparison of a sensor that was not active makes it active, writes one log entry, and raises the response in force to its response; one of a sensor already active does not alarm again. The response in
force never falls by an alarm. TMP_LEVEL holds no response below a floor. A dip aborts and a recovery writes the brownout notice; one microsecond later the device goes on. CMD_TMP_RELEASE
leaves the strongest response that an active sensor demands; CMD_TMP_BREACH leaves BREACH in force with every key slot ZEROIZED, and
waits while the root is erased. The log commands return what the logs hold. -/
def Obligations.TamperResponses : Prop :=
  ∀ s : State,
    (∀ (k : Fin 3) (d : Byte), s.berm.backup = false → s.sensorOn (k.val + 1) = false → s.f F.TMP_LOG_COUNT ≤ 256 →
        ∃ t, exec (.sensorAlarm k true d) s = .next t ∧ t.sensorOn (k.val + 1) = true ∧ t.level = max s.level (s.sensorLevel (k.val + 1)) ∧
          t.f F.TMP_LOG_SEQ_SEQ = (s.f F.TMP_LOG_SEQ_SEQ + 1) % 2 ^ 32 ∧ t.f F.TMP_LOG_COUNT = min 256 (s.f F.TMP_LOG_COUNT + 1) ∧ bitAt (t.f F.TMP_HIST_SENSORS) (k.val + 1) = true ∧
          bitAt (t.rd R.TMP_EVT).toNat 0 = true)
    ∧ (∀ (k : Fin 3) (d : Byte), s.berm.backup = false → s.sensorOn (k.val + 1) = true →
        ∃ t u, exec (.sensorAlarm k true d) s = .next t ∧ exec (.sensorAlarm k false d) s = .next u ∧ t.sensorOn (k.val + 1) = true ∧ u.sensorOn (k.val + 1) = false ∧
          t.level = s.level ∧ u.level = s.level ∧ t.berm = s.berm ∧ u.berm = s.berm)
    ∧ (∀ (fails : BitVec 8) (v : BitVec 12), ∃ t, exec (.bermSample fails v) s = .next t ∧ s.level ≤ t.level ∧ t.f F.TMP_VBAT_MV = v.toNat ∧
          (∀ k ∈ sampled, t.sensorOn k = bitAt fails.toNat k) ∧ (v.toNat < 2000 → t.fb F.TMP_STS_VBAT_LOW = true))
    ∧ (∀ v : Word, ∃ t, exec (.tmpLevelWrite v) s = .next t ∧ s.onlyIn t [.regs] ∧ (∀ a, a ≠ R.TMP_LEVEL → t.rd a = s.rd a) ∧
          (∀ k, k < 8 → bitsOf (t.rd R.TMP_LEVEL).toNat (3 * k) 3 = max (bitsOf v.toNat (3 * k) 3) (alarmFloor k)))
    ∧ (s.berm.dipping = false → s.berm.backup = false →
        ∃ t, exec .supplyDip s = .next t ∧ t.berm.dipping = true ∧ t.berm.dipTick = s.gac.now ∧ bitAt (t.rd R.FPX_EVT).toNat 7 = true ∧ t.pke.running = none ∧
          t.pke.suspended = [] ∧ t.keys = s.keys ∧ t.mem = s.mem)
    ∧ (s.berm.dipping = true → s.berm.backup = false →
        ∃ t, exec .dipRecovery s = .next t ∧ t.berm.dipping = false ∧ t.berm.settling = true ∧ t.level = s.level ∧ bitAt (t.rd R.TMP_EVT).toNat 2 = true ∧
          t.f F.TMP_BROWN_CNT_COUNT = (s.f F.TMP_BROWN_CNT_COUNT + 1) % 2 ^ 32 ∧ t.f F.TMP_LOG_SEQ_SEQ = (s.f F.TMP_LOG_SEQ_SEQ + 1) % 2 ^ 32 ∧ t.mem = s.mem ∧ t.keys = s.keys)
    ∧ (∀ x : Bool, s.berm.settling = true → ∃ t, exec (.dipSettled x) s = .next t ∧ t.berm.settling = false ∧ t.pke.aborted = [] ∧ t.level = s.level)
    ∧ (∀ sl : Slot, specTmpStatus.starts sl s = true →
        exec (.cmdTmpStatus sl) s = .next (specTmpStatus.ends sl s
          (.ok (packR [(1, s.level), (4, s.f F.TMP_STS_ACTIVE), (1, s.f F.TMP_LOG_HEAD), (2, s.f F.TMP_LOG_COUNT)] [])) (specTmpStatus.taken sl s)))
    ∧ (∀ sl : Slot, specTmpRelease.starts sl s = true → s.berm.backup = false →
        ∃ t, exec (.cmdTmpRelease sl) s = .next t ∧ t.level = s.demanded ∧ t.level < s.level ∧ bitAt (t.rd R.TMP_EVT).toNat 5 = true ∧
          t.f F.TMP_LOG_SEQ_SEQ = (s.f F.TMP_LOG_SEQ_SEQ + 1) % 2 ^ 32 ∧ (3 ≤ s.level → t.level < 3 → t.fb F.CIQ_STS_QUIESCED = false ∧ t.fb F.PKE_STS_QUIESCED = false))
    ∧ (∀ sl : Slot, specTmpBreach.starts sl s = true → s.berm.backup = false → s.level < 5 →
        ∃ t, exec (.cmdTmpBreach sl) s = .next t ∧ t.level = 5 ∧ t.keys.rootErasing = true ∧ (∀ i, i < 32768 → (t.ks i).state = Ks.zeroized) ∧ t.keys.work = none ∧
          ⟨specTmpBreach.held sl s, .breach, []⟩ ∈ t.cul.waits ∧ (∀ n, t.session n = none) ∧ t.grvSt = grvAbsent)
    ∧ (∀ sl : Slot, specLogTamperRead.starts sl s = true →
        exec (.cmdLogTamperRead sl) s = .next (specLogTamperRead.ends sl s
          (.ok (toLe 4 ((List.range ((specLogTamperRead.held sl s).u 2 2)).flatMap (fun i => s.logAt ((specLogTamperRead.held sl s).u 0 1 + i))).length))
          ((specLogTamperRead.taken sl s).putBuf (specLogTamperRead.held sl s) 4
            ((List.range ((specLogTamperRead.held sl s).u 2 2)).flatMap (fun i => s.logAt ((specLogTamperRead.held sl s).u 0 1 + i))))))
    ∧ (∀ sl : Slot, specLogBlazeRead.starts sl s = true →
        exec (.cmdLogBlazeRead sl) s = .next (specLogBlazeRead.ends sl s
          (.ok (packR [(1, s.ecc.blaze.length), (1, b2n (decide (32 ≤ s.ecc.blaze.length))), (4, s.f F.BLZ_LOST_COUNT)] []))
          ((specLogBlazeRead.taken sl s).putBuf (specLogBlazeRead.held sl s) 0 (fitB 512 (s.ecc.blaze.flatMap BlzEntry.bytes)))))
    ∧ (∀ sl : Slot, specLogBlazeClear.starts sl s = true →
        ∃ t, exec (.cmdLogBlazeClear sl) s = .next t ∧ t.ecc.blaze = s.ecc.blaze.drop ((specLogBlazeClear.held sl s).u 0 1) ∧
          specLogBlazeClear.replied sl s (.ok (toLe 1 (s.ecc.blaze.length - (specLogBlazeClear.held sl s).u 0 1))) t ∧ s.onlyIn t [.regs, .cul, .ecc, .out])

/-- A request for a state that the domain does not take is refused with BAD_PARAM, one that a condition of Table PWR-2 meets with BUSY, each with PWR_EVT.REFUSED set and the domain as it was; one that passes
puts the domain in transition with RESULT ACCEPTED; without GO only TARGET changes. A wake puts a domain that is not ON in transition to ON and leaves one that is ON alone. An entry that ends
leaves the domain in its target state with RESULT DONE; a domain that is ready is ON and its wakes are counted; a dip pauses both. A wake that times out leaves the
domain in its transition, stuck, with WAKE_FAIL set and a response of at least NOTIFY. -/
def Obligations.PowerDomains : Prop :=
  ∀ (s : State) (d : Fin 25),
    (∀ (v : Word) (l : Bool), bitAt v.toNat 31 = false →
        ∃ t, exec (.domainSleepRequest d v l) s = .next t ∧ t.f (F.PWR_CTL_TARGET d) = bitsOf v.toNat 24 2 ∧ (∀ a, a ≠ R.PWR_CTL d → t.rd a = s.rd a) ∧ s.onlyIn t [.regs])
    ∧ (∀ (v : Word) (l : Bool), bitAt v.toNat 31 = true → domTakes d (bitsOf v.toNat 24 2) = false →
        ∃ t, exec (.domainSleepRequest d v l) s = .next t ∧ t.f (F.PWR_CTL_RESULT d) = St.badParam ∧ bitAt (t.rd R.PWR_EVT).toNat 1 = true ∧ t.domSt d = s.domSt d ∧ t.pwr = s.pwr)
    ∧ (∀ (v : Word) (l : Bool), bitAt v.toNat 31 = true → domTakes d (bitsOf v.toNat 24 2) = true → bitsOf v.toNat 24 2 ≠ dsOn → s.domTrans d = none →
        s.domSt d ≠ bitsOf v.toNat 24 2 →
        ∃ t, exec (.domainSleepRequest d v l) s = .next t ∧
          (s.sleepBusy d (bitsOf v.toNat 24 2) l = true → t.f (F.PWR_CTL_RESULT d) = St.busy ∧ bitAt (t.rd R.PWR_EVT).toNat 1 = true ∧ t.domSt d = s.domSt d ∧ t.pwr = s.pwr) ∧
          (s.sleepBusy d (bitsOf v.toNat 24 2) l = false → t.f (F.PWR_CTL_RESULT d) = St.accepted ∧ t.domSt d = dsMove ∧
            t.domTrans d = some ⟨d, s.domSt d, bitsOf v.toNat 24 2⟩ ∧ s.onlyIn t [.regs, .pwr]))
    ∧ (∀ v : Word, (∀ e, e < 25 → bitAt v.toNat e = true → s.domOn e = true) → exec (.pwrWakeWrite v) s = .next s)
    ∧ (s.domOn dTwin = false → s.domTrans dTwin = none →
        ∃ t, exec (.pwrWakeWrite (BitVec.ofNat 32 (2 ^ 20))) s = .next t ∧ bitAt (t.rd R.PWR_WAKE).toNat 20 = true ∧ t.domSt dTwin = dsMove ∧ s.onlyIn t [.regs, .pwr])
    ∧ (20 ≤ d.val → s.domTrans d = none →
        (s.domOn d = true → exec (.domainWake d none) s = .next s) ∧
        (s.domOn d = false → ∃ t, exec (.domainWake d none) s = .next t ∧ t.domSt d = dsMove ∧ t.domTrans d = some ⟨d, s.domSt d, dsOn⟩ ∧ s.onlyIn t [.regs, .pwr]))
    ∧ (∀ x : Trans, s.berm.dipping = false → s.berm.settling = false → s.domTrans d = some x → x.dst ≤ dsRet →
        ∃ t, exec (.domainEnterDone d) s = .next t ∧ t.domSt d = x.dst ∧ t.domTrans d = none ∧ t.f (F.PWR_CTL_RESULT d) = St.done ∧ bitAt (t.rd R.PWR_EVT).toNat 0 = true ∧
          t.keys.slots = s.keys.slots ∧ t.nv.bytes = s.nv.bytes)
    ∧ (∀ (x : Trans) (f : BitVec 12) (y : AccIn), s.berm.dipping = false → s.berm.settling = false → s.domTrans d = some x → x.dst = dsOn → (∀ e ∈ s.pwr.stalled, e.1 ≠ d.val) →
        ∃ t, exec (.domainReady d [] f y) s = .next t ∧ t.domOn d = true ∧ t.domTrans d = none ∧ bitAt (t.rd R.PWR_EVT).toNat 4 = true ∧ bitAt (t.rd R.PWR_WAKE).toNat d = false ∧
          t.f (F.PWR_WAKES_COUNT d) = (s.f (F.PWR_WAKES_COUNT d) + 1) % 2 ^ (F.PWR_WAKES_COUNT d).w ∧ d.val ∉ t.pwr.stuck)
    ∧ (s.berm.dipping = true → ∀ (f : BitVec 12) (y : AccIn), exec (.domainEnterDone d) s = .next s ∧ exec (.domainReady d [] f y) s = .next s)
    ∧ (∀ x : Trans, s.domTrans d = some x → x.dst = dsOn → d.val ∉ s.pwr.stuck →
        ∃ t, exec (.domainWakeTimeout d) s = .next t ∧ d.val ∈ t.pwr.stuck ∧ t.domTrans d = some x ∧ (∀ e ∈ t.pwr.stalled, e.1 ≠ d.val) ∧
          bitAt (t.rd R.PWR_EVT).toNat 2 = true ∧ 2 ≤ t.level)

/-- POWER_ON returns the device to stage B1 with every key slot EMPTY and on-chip memory without contents, and keeps the NV array; the GAC and the log are reset only by a cold start. On harvested power the
field interface goes on with it. A RAIL reset keeps the GAC, the log and, unless VDD_SRAM fell,
the key slots. SERDES_RAIL restarts its domains and closes the window; IO33_RAIL resets the registers of CARD and FIELD; PERST closes the window. A restart
of the root pair keeps the key slots, the active set, the GAC, lanes and Grove; its resumption leaves no shadow set, no session and no command unanswered. The kick word alone
reloads the watchdog. The loss of main power leaves the Berm on the backup cell with the time of the loss held. -/
def Obligations.ResetSources : Prop :=
  ∀ s : State,
    (∃ t, exec .powerOn s = .next t ∧ t.f F.RST_STS_STAGE = 1 ∧ t.f F.RST_STS_CAUSE = 1 ∧ bitAt (t.rd R.RST_CAUSE).toNat 1 = true ∧ (∀ i, t.ks i = KeySlot.empty) ∧
        t.mem = [] ∧ t.cul.sessions = [] ∧ t.berm.backup = false ∧ t.pairSt 0 = pRunning ∧ t.domOn dRoot = true ∧ t.domSt dPipe0 = dsOff ∧
        (s.nv.op = none → t.nv.bytes = s.nv.bytes) ∧ (s.berm.coldNext = false → t.gac.cycle = s.gac.cycle ∧ t.gac.acc = s.gac.acc ∧ t.berm.log = s.berm.log ∧ t.level = s.level) ∧
        (s.berm.coldNext = true → t.gac.cycle = 0 ∧ t.berm.log = [] ∧ t.f F.TMP_LOG_COUNT = 0) ∧
        (s.fb F.FLD_STS_HARVESTED = true → t.fld = s.fld ∧ t.tag = s.tag ∧ t.fb F.FLD_STS_HARVESTED = false ∧ t.domOn dField = true))
    ∧ (∀ b : Bool, ∃ t, exec (.railReset b) s = .next t ∧ t.f F.RST_STS_STAGE = 1 ∧ t.f F.RST_STS_CAUSE = 2 ∧ t.gac = s.gac ∧ t.berm.log = s.berm.log ∧ t.level = s.level ∧
        t.cul.sessions = [] ∧ t.mem = [] ∧ (b = false → t.keys.slots = s.keys.slots) ∧ (b = true → t.keys.slots = []))
    ∧ (∃ t, exec .serdesRailReset s = .next t ∧ t.f F.RST_STS_CAUSE = 3 ∧ (∀ n, t.session n = none) ∧ t.fb F.CUL_WIN_CTL_EN = false ∧ t.keys.slots = s.keys.slots ∧ t.nv.bytes = s.nv.bytes ∧
        t.gac = s.gac ∧ t.cfg.active = s.cfg.active ∧ (∀ d, d ∈ rangeFrom dTract0 8 ++ [dTwin, dHost, dCxl] → ∃ x, t.domTrans d = some x ∧ x.dst = dsOn ∧ t.domSt d = dsMove))
    ∧ (∃ t, exec .io33RailReset s = .next t ∧ t.f F.RST_STS_CAUSE = 4 ∧ (∀ a, 0x130000 ≤ a → a < 0x150000 → t.rd a = regReset a) ∧ t.keys.slots = s.keys.slots ∧ t.gac = s.gac ∧ t.mem = s.mem)
    ∧ (∃ t, exec .perst s = .next t ∧ t.f F.RST_STS_CAUSE = 5 ∧ (∀ n, t.session n = none) ∧ t.fb F.CUL_WIN_CTL_EN = false ∧ t.cul.bme = false ∧ t.keys = s.keys ∧ t.gac = s.gac ∧ t.mem = s.mem)
    ∧ (∀ a b : List Byte, (s.pairSt 0 = pHalted → exec (.rootRestart a b) s = .next (s.rootRestart a b)) ∧
        (s.fb F.RST_WDT_EN = true → exec (.watchdogExpire a b) s = .next (s.rootRestart a b)) ∧
        (s.rootRestart a b).f F.RST_STS_STAGE = s.f F.RST_STS_STAGE ∧ (s.rootRestart a b).f F.RST_STS_CAUSE = 6 ∧ (s.rootRestart a b).keys.slots = s.keys.slots ∧
        (s.rootRestart a b).cfg.active = s.cfg.active ∧ (s.rootRestart a b).gac = s.gac ∧ (s.rootRestart a b).lanes = s.lanes ∧ (s.rootRestart a b).grv = s.grv ∧
        (s.rootRestart a b).slu = s.slu ∧ (s.rootRestart a b).pairSt 0 = pRunning ∧ (s.rootRestart a b).rng.live = false ∧
        (∀ k, 1 ≤ k → k < 5 → (s.rootRestart a b).pr k = s.pr k))
    ∧ (3 ≤ s.f F.RST_STS_STAGE → s.fb F.RST_WDT_EN = false → s.boot.atRom = false → s.fb F.RST_STS_BOOT_HOLD = false → s.pairSt 0 = pRunning → s.fb F.CFG_STATUS_DEFAULTS = true →
        ∃ t, exec .rootResume s = .next t ∧ t.cfg.shadow = none ∧ (∀ n, t.session n = none) ∧ t.cul.waits = [] ∧ t.cul.atCycle = [] ∧ t.fb F.RST_WDT_EN = true ∧
          t.keys.slots = s.keys.slots ∧ t.gac = s.gac)
    ∧ (∀ v : Word, exec (.watchdogKick v) s = .next (if v = 0x5AA5 then { s with boot := { s.boot with wdtAt := s.gac.now } } else s))
    ∧ (∀ v w : Bool, s.berm.backup = false →
        ∃ t, exec (.mainPowerLoss v w) s = .next t ∧ t.berm.backup = true ∧ t.berm.lossGac = s.gacNow ∧ t.berm.lossTai = s.taiNs ∧ t.berm.log = s.berm.log ∧ t.level = s.level ∧
          (∀ i, t.ks i = KeySlot.empty) ∧ t.mem = [] ∧ t.gac = s.gac ∧ (v = false → t.berm.coldNext = true) ∧ (v = true → t.berm.coldNext = s.berm.coldNext))

/-- Stage B1 enters the boot report once. The boot ROM reaches B2 where it finds a valid image and otherwise holds with BOOT_HOLD set; it does nothing while it may not pass the root area. After a restart that it
holds it runs again, and the stage stays. B3 protects the
factory block and the booted image slot and starts the root watchdog; B4 brings the pipelines and CIPHER ON and begins reduced service; B5 is complete at once with GRV_CTL.EN 0; B6 is complete at its limit, with full
service where Grove serves; and B7 is complete at once without a Twin. A stage whose predecessor has not been reached, or that has been reached, changes nothing. -/
def Obligations.BringUpStages : Prop :=
  ∀ s : State,
    (s.f F.RST_STS_STAGE = 1 → (8, 1, 0, 1) ∉ s.boot.report → s.boot.open_ = false → s.boot.count < 256 →
        ∃ t, exec .stageB1 s = .next t ∧ (8, 1, 0, 1) ∈ t.boot.report ∧ bitAt (t.rd R.RST_EVT).toNat 0 = true ∧ t.f F.RST_STS_STAGE = 1 ∧ t.mem = s.mem ∧ t.keys = s.keys)
    ∧ (∀ a b : List Byte, s.f F.RST_STS_STAGE = 1 → s.romHolds = false → s.berm.backup = false → s.keys.rootErasing = false →
        ∃ t, exec (.stageB2 a b) s = .next t ∧ t.domOn dHost = true ∧ t.root.isSome = true ∧
          (((s.setDom dHost dsOn).bootRom a b).1 = true → t.f F.RST_STS_STAGE = 2 ∧ t.fb F.RST_STS_BOOT_HOLD = false) ∧
          (((s.setDom dHost dsOn).bootRom a b).1 = false → t.f F.RST_STS_STAGE = 1 ∧ t.fb F.RST_STS_BOOT_HOLD = true) ∧ t.gac = s.gac ∧ t.keys.slots = s.keys.slots)
    ∧ (∀ a b : List Byte, s.romHolds = true → exec (.stageB2 a b) s = .next s)
    ∧ (∀ a b : List Byte, s.boot.atRom = true → 2 ≤ s.f F.RST_STS_STAGE → s.romHolds = false → s.berm.backup = false →
        ∃ t, exec (.stageB2 a b) s = .next t ∧ t.boot.atRom = !(s.bootRom a b).1 ∧ t.f F.RST_STS_STAGE = s.f F.RST_STS_STAGE ∧ t.gac = s.gac ∧ t.keys.slots = s.keys.slots)
    ∧ (s.f F.RST_STS_STAGE = 2 → s.nv.booted ≤ 1 → s.fieldSession = true →
        ∃ t, exec .stageB3 s = .next t ∧ t.f F.RST_STS_STAGE = 3 ∧ t.fb F.RST_WDT_EN = true ∧ (∀ x, x < 16 → t.nvProt x = true) ∧
          (∀ x, fwSector s.nv.booted ≤ x → x < fwSector s.nv.booted + 512 → t.nvProt x = true))
    ∧ (s.f F.RST_STS_STAGE = 2 → ∃ t, exec .stageB3 s = .next t)
    ∧ (∀ f : BitVec 12, s.f F.RST_STS_STAGE = 3 →
        ∃ t, exec (.stageB4 f) s = .next t ∧ t.f F.RST_STS_STAGE = 4 ∧ t.domOn dPipe0 = true ∧ t.domOn dPipe1 = true ∧ t.domOn dCipher = true ∧ t.service = 1 ∧
          t.gac = s.gac ∧ t.keys.slots = s.keys.slots)
    ∧ (∀ (p : BitVec 2) (l : Bool), s.f F.RST_STS_STAGE = 4 → s.fb F.GRV_CTL_EN = false →
        ∃ t, exec (.stageB5 p l) s = .next t ∧ t.f F.RST_STS_STAGE = 5 ∧ t.domOn dCxl = true ∧ t.grvSt = s.grvSt ∧ t.mem = s.mem ∧ t.keys = s.keys)
    ∧ (s.f F.RST_STS_STAGE = 5 →
        ∃ t, exec (.stageB6 true) s = .next t ∧ t.f F.RST_STS_STAGE = 6 ∧ t.service = (if s.grvSt = grvServing ∨ s.grvSt = grvMigrating then 2 else 1) ∧
          t.mem = s.mem ∧ t.keys = s.keys ∧ t.ext = s.ext)
    ∧ (s.f F.RST_STS_STAGE = 6 → s.fb F.TWN_CTL_EN = false → ∃ t, exec .stageB7 s = .next t ∧ t.f F.RST_STS_STAGE = 7 ∧ t.twin = s.twin ∧ t.mem = s.mem)
    ∧ (∀ (a b : List Byte) (f : BitVec 12) (p : BitVec 2) (l : Bool), s.f F.RST_STS_STAGE = 7 → s.boot.atRom = false →
        exec (.stageB2 a b) s = .next s ∧ exec .stageB3 s = .next s ∧ exec (.stageB4 f) s = .next s ∧ exec (.stageB5 p l) s = .next s ∧ exec (.stageB6 l) s = .next s ∧
        exec .stageB7 s = .next s)

/-- Each frame of ISO/IEC 14443-3 and -4 that a tag expects is answered as the rules give and moves the tag: REQA and WUPA with ATQA, ANTICOLLISION with the bits not yet known, SELECT with
SAK 0x04 and then 0x20, RATS with the ATS, PPS and S(DESELECT) with their own, HLTA with silence. An answered frame is counted. Without a field, in
another mode or with the domain not running, no frame has an effect. On main power a field wakes the FIELD domain and sets FIELD_ON; on the backup cell a field of 1.5 A/m brings harvested power and a weaker
one nothing; the loss of the field ends a session, clears its keys and sets FIELD_LOST. -/
def Obligations.TagStates : Prop :=
  ∀ s : State,
    (∀ a : Byte, ∀ (l : Fin 3) (k : List Bool) (b : List Byte) (x y : Fin 4), s.tagOn = false →
        exec .reqa s = .next s ∧ exec .wupa s = .next s ∧ exec (.anticollision l k) s = .next s ∧ exec (.select l b) s = .next s ∧ exec .hlta s = .next s ∧
        exec .rats s = .next s ∧ exec (.pps x y) s = .next s ∧ exec .sDeselect s = .next s ∧ exec .fldWtxSend s = .next s ∧ exec (.apduUnsupported a a) s = .next s)
    ∧ (s.tagOn = true → s.tag = tgIdle →
        ∃ t, exec .reqa s = .next t ∧ t.tag = tgReady ∧ t.out = .field [0x44, 0x00] :: s.out ∧ t.fld.star = false ∧ t.fld.level = 0 ∧ t.rd R.FLD_FRAMES = s.rd R.FLD_FRAMES + 1 ∧
          s.onlyIn t [.regs, .fld, .out])
    ∧ (s.tagOn = true → s.tag = tgHalt →
        ∃ t u, exec .reqa s = .next t ∧ t.tag = tgHalt ∧ t.out = s.out ∧ t.fld = s.fld ∧ exec .wupa s = .next u ∧ u.tag = tgReady ∧ u.out = .field [0x44, 0x00] :: s.out ∧ u.fld.star = true ∧
          s.onlyIn t [.regs] ∧ s.onlyIn u [.regs, .fld, .out])
    ∧ (∀ (l : Fin 3) (n : Fin 40), s.tagOn = true → s.tag = tgReady → l.val = s.fld.level →
        ∃ t, exec (.anticollision l ((bitsOfBytes (s.cascade l.val)).take n.val)) s = .next t ∧ t.tag = tgReady ∧ t.fld = s.fld ∧
          t.out = .field (bytesOfBits ((bitsOfBytes (s.cascade l.val)).drop ((bitsOfBytes (s.cascade l.val)).take n.val).length)) :: s.out ∧ s.onlyIn t [.regs, .out])
    ∧ (s.tagOn = true → s.tag = tgReady → s.fld.level = 0 →
        ∃ t, exec (.select 0 (s.cascade 0)) s = .next t ∧ t.tag = tgReady ∧ t.fld.level = 1 ∧ t.out = .field ([0x04] ++ crcA [0x04]) :: s.out ∧ s.onlyIn t [.regs, .fld, .out])
    ∧ (s.tagOn = true → s.tag = tgReady → s.fld.level = 1 →
        ∃ t, exec (.select 1 (s.cascade 1)) s = .next t ∧ t.tag = tgActive ∧ t.out = .field ([0x20] ++ crcA [0x20]) :: s.out ∧ s.onlyIn t [.regs, .out])
    ∧ (s.tagOn = true → s.tag = tgActive →
        ∃ t u, exec .hlta s = .next t ∧ t.tag = tgHalt ∧ t.out = s.out ∧ s.onlyIn t [.regs] ∧ exec .reqa s = .next u ∧ u.tag = (if s.fld.star then tgHalt else tgIdle) ∧ u.out = s.out)
    ∧ (s.tagOn = true → s.tag = tgActive →
        ∃ t, exec .rats s = .next t ∧ t.tag = tgOpen ∧ t.fieldSession = true ∧ s.onlyIn t [.regs, .fld, .out] ∧
          (s.fb F.FLD_CTL_HIGH_RATE = false → t.out = .field ([0x05, 0x78, 0x80, 0x60, 0x00] ++ crcA [0x05, 0x78, 0x80, 0x60, 0x00]) :: s.out) ∧
          (s.fb F.FLD_CTL_HIGH_RATE = true → t.out = .field ([0x05, 0x78, 0xB3, 0x60, 0x00] ++ crcA [0x05, 0x78, 0xB3, 0x60, 0x00]) :: s.out))
    ∧ (∀ x y : Fin 4, s.tagOn = true → s.tag = tgOpen → s.fb F.FLD_CTL_HIGH_RATE = true → x.val ≤ 2 → y.val ≤ 2 →
        ∃ t, exec (.pps x y) s = .next t ∧ t.tag = tgOpen ∧ t.f F.FLD_STS_RATE = x.val ∧ t.fld.rateTx = y.val ∧ t.out = .field ([0xD0] ++ crcA [0xD0]) :: s.out ∧ s.onlyIn t [.regs, .fld, .out])
    ∧ (s.tagOn = true → s.fieldSession = true →
        ∃ t, exec .sDeselect s = .next t ∧ t.tag = tgHalt ∧ .field ([0xC2] ++ crcA [0xC2]) ∈ t.out ∧ t.keys.fldKeys = none ∧ t.fld.hs = none ∧ bitAt (t.rd R.FLD_EVT).toNat 3 = true ∧
          t.fld.mbxDue = (s.fld.mbxDue || !s.berm.backup) ∧ t.nv = s.nv ∧ t.gac = s.gac)
    ∧ (s.tagOn = true → s.fieldSession = true → exec .fldWtxSend s = .next (s.emit (.field ([0xF2, 0x01] ++ crcA [0xF2, 0x01]))))
    ∧ (∀ b : Bool, s.fb F.FLD_STS_FIELD = false → s.berm.backup = false →
        ∃ t, exec (.fieldPresent b) s = .next t ∧ t.fb F.FLD_STS_FIELD = true ∧ t.tag = (if s.f F.FLD_CTL_MODE = 1 then tgIdle else tgNone) ∧ bitAt (t.rd R.FLD_EVT).toNat 0 = true ∧
          (s.domTrans dField = none → s.domOn dField = true → t.domOn dField = true) ∧ t.nv = s.nv ∧ t.keys = s.keys ∧ t.mem = s.mem)
    ∧ (s.fb F.FLD_STS_FIELD = false → s.berm.backup = true →
        exec (.fieldPresent false) s = .next s ∧ ∃ t, exec (.fieldPresent true) s = .next t ∧ t.fb F.FLD_STS_FIELD = true ∧ t.fb F.FLD_STS_HARVESTED = true ∧ t.tag = tgIdle ∧
          t.tagOn = true ∧ t.fb F.FLD_CTL_VHARV_EN = true ∧ t.nv = s.nv ∧ t.keys = s.keys)
    ∧ (s.fb F.FLD_STS_FIELD = true →
        ∃ t, exec .fieldLost s = .next t ∧ t.tag = tgNone ∧ t.fb F.FLD_STS_FIELD = false ∧ t.tagOn = false ∧ t.keys.fldKeys = none ∧ t.keys.slots = s.keys.slots ∧
          bitAt (t.rd R.FLD_EVT).toNat 1 = true ∧ (s.fieldSession = true → bitAt (t.rd R.FLD_EVT).toNat 3 = true) ∧ t.nv = s.nv)

/-- In OPEN each command is answered in clear with its data and status word. The identity record and the certificate need no key; a statement and the seal need main power. A seal that verifies
makes the session SECURED under the key's role with the session keys installed; one that does not is counted. In SECURED a command that fails its tag or sequence clears the keys and falls back to
OPEN with 0x6982. On harvested power the inbound area is read, and its erased words are programmed, with no credential; erasing needs a SECURED session whose role has it. Any other instruction is
answered with 0x6D00 and any other class with 0x6E00. -/
def Obligations.FieldCommands : Prop :=
  ∀ (s : State) (p1 p2 : Byte), s.tagOn = true →
    (s.tag = tgOpen →
        ∃ t, exec (.getIdentity p1 p2 []) s = .next t ∧ t.out = .field (s.idRecord ++ [0x90, 0x00]) :: s.out ∧ s.idRecord.length = 72 ∧ t.tag = tgOpen ∧
          t.rd R.FLD_FRAMES = s.rd R.FLD_FRAMES + 1 ∧ s.onlyIn t [.regs, .out])
    ∧ (s.tag = tgOpen → 128 * (256 * p1.toNat + p2.toNat) < s.keys.idCert.length →
        ∃ t, exec (.getCert p1 p2 []) s = .next t ∧ t.out = .field ((s.keys.idCert.drop (128 * (256 * p1.toNat + p2.toNat))).take 128 ++ [0x90, 0x00]) :: s.out ∧ s.onlyIn t [.regs, .out])
    ∧ (s.tag = tgOpen → s.keys.idCert.length ≤ 128 * (256 * p1.toNat + p2.toNat) →
        ∃ t, exec (.getCert p1 p2 []) s = .next t ∧ t.out = .field [0x6A, 0x86] :: s.out ∧ s.onlyIn t [.regs, .out])
    ∧ (∀ d b u, s.tag = tgOpen → s.canSign = true → d.length = 32 → s.frameIn.attest d [] = some (b, u) →
        exec (.getAttest p1 p2 d) s = .next (u.answer (b ++ [0x90, 0x00])))
    ∧ (∀ d, s.tag = tgOpen → s.canSign = false →
        ∃ t u, exec (.getAttest p1 p2 d) s = .next t ∧ t.out = .field [0x69, 0x85] :: s.out ∧ s.onlyIn t [.regs, .out] ∧
          exec (.sealInit p1 p2 d) s = .next u ∧ u.out = .field [0x69, 0x85] :: s.out ∧ u.f F.FLD_SESSIONS_FAILS = (s.f F.FLD_SESSIONS_FAILS + 1) % 2 ^ 16 ∧ u.fld.hs = none)
    ∧ (∀ d, s.tag = tgOpen → s.canSign = true → d.length = 97 → byteAt d 32 = 4 → pointGood 1 (sliceB d 32 65) = true →
        ∃ t x sig, exec (.sealInit p1 p2 d) s = .next t ∧ t.fld.hs = some x ∧ x.nonceR = d.take 32 ∧ x.qR = sliceB d 32 65 ∧ x.nonceD.length = 32 ∧
          x.script = d ++ x.nonceD ++ pubOf 1 x.eph ∧ .field (x.nonceD ++ pubOf 1 x.eph ++ sig ++ [0x90, 0x00]) ∈ t.out ∧ t.tag = tgOpen ∧ t.keys.fldKeys = s.keys.fldKeys ∧ t.nv = s.nv)
    ∧ (∀ d, s.tag = tgOpen → s.fld.hs = none →
        ∃ t, exec (.sealFinish p1 p2 d) s = .next t ∧ t.f F.FLD_SESSIONS_FAILS = (s.f F.FLD_SESSIONS_FAILS + 1) % 2 ^ 16 ∧ (s.keys.fldKeys = none → t.tag = tgOpen) ∧
          .field [0x69, 0x85] ∈ t.out ∧ t.keys = s.keys)
    ∧ (∀ d (x : FldSeal) (k : OpKey) (km : List Byte), s.tag = tgOpen → s.canSign = true → s.fld.hs = some x → d.length = 114 → beAt d 0 2 < 64 → s.keyLocked (beAt d 0 2) = false →
        s.opKey (beAt d 0 2) = some k → km = kdf (shared 0x10 x.eph x.qR) (ascii "PW1024 FIELD SEAL" ++ [0] ++ x.nonceR ++ x.nonceD ++ s.fld.uid) 96 →
        verifies 2 k.pub (x.script ++ d.take 2) (sliceB d 2 96) = true → sliceB d 98 16 = sealConf km 0x52 (x.script ++ d.take 2 ++ sliceB d 2 96) →
        ∃ t, exec (.sealFinish p1 p2 d) s = .next t ∧ t.tag = tgSecured ∧ t.keys.fldKeys = some km ∧ t.f F.FLD_STS_KEY_INDEX = beAt d 0 2 ∧ t.fld.role = k.role ∧ t.fld.seq = 0 ∧ t.fld.hs = none ∧
          bitAt (t.rd R.FLD_EVT).toNat 2 = true ∧ .field (sealConf km 0x44 (x.script ++ d.take 2 ++ sliceB d 2 96) ++ [0x90, 0x00]) ∈ t.out ∧ t.nv = s.nv ∧ t.keys.slots = s.keys.slots)
    ∧ (∀ d (x : FldSeal), s.tag = tgOpen → s.canSign = true → s.fld.hs = some x → d.length = 114 → s.keyLocked (beAt d 0 2) = true → s.keys.fldKeys = none →
        ∃ t, exec (.sealFinish p1 p2 d) s = .next t ∧ t.tag = tgOpen ∧ t.keys.fldKeys = none ∧ t.fld.hs = none ∧ .field [0x69, 0x83] ∈ t.out ∧
          t.f F.FLD_SESSIONS_FAILS = (s.f F.FLD_SESSIONS_FAILS + 1) % 2 ^ 16)
    ∧ (∀ d, s.tag = tgSecured → s.plain 0x10 p1 p2 d = none →
        ∃ t, exec (.getIdentity p1 p2 d) s = .next t ∧ t.tag = tgOpen ∧ t.keys.fldKeys = none ∧ t.out = .field [0x69, 0x82] :: s.out ∧ t.fld.mbxDue = s.fld.mbxDue ∧ t.nv = s.nv)
    ∧ (∀ le : BitVec 9, s.tag = tgOpen → s.fb F.FLD_STS_HARVESTED = true → s.fb F.FLD_CTL_HARV_PROV = true → le ≠ 0 → le.toNat % 8 = 0 → le.toNat ≤ 128 →
        256 * p1.toNat + p2.toNat < 4096 → (256 * p1.toNat + p2.toNat) % 512 + le.toNat / 8 ≤ 512 →
        ∃ t, exec (.mbxRead p1 p2 [] le) s = .next t ∧ t.out = .field (s.nvRead (3104 * 4096 + 8 * (256 * p1.toNat + p2.toNat)) le.toNat ++ [0x90, 0x00]) :: s.out ∧ s.onlyIn t [.regs, .out])
    ∧ (∀ le : BitVec 9, s.tag = tgOpen → s.fb F.FLD_STS_HARVESTED = false → le ≠ 0 → le.toNat % 8 = 0 → le.toNat ≤ 128 →
        256 * p1.toNat + p2.toNat < 8192 → (256 * p1.toNat + p2.toNat) % 512 + le.toNat / 8 ≤ 512 →
        ∃ t, exec (.mbxRead p1 p2 [] le) s = .next t ∧ t.out = .field [0x69, 0x82] :: s.out ∧ s.onlyIn t [.regs, .out])
    ∧ (∀ (d : List Byte) (w : Nat), w = 256 * p1.toNat + p2.toNat → s.tag = tgOpen → s.fb F.FLD_STS_HARVESTED = true → s.fb F.FLD_CTL_HARV_PROV = true → d ≠ [] → d.length % 8 = 0 → d.length ≤ 128 →
        w < 4096 → w % 512 + d.length / 8 ≤ 512 → s.nvProt (3104 + w / 512) = false → (∀ i, i < d.length / 8 → s.nvErased (3104 * 4096 + 8 * w + 8 * i) = true) →
        ∃ t, exec (.mbxProgram p1 p2 d true) s = .next t ∧ t.out = .field [0x90, 0x00] :: s.out ∧ t.nvRead (3104 * 4096 + 8 * w) d.length = d ∧ s.onlyIn t [.regs, .nv, .out] ∧
          (∀ a, nvArea (a / 4096) ≠ .journal → s.nvPhys (a / 4096) * 4096 + a % 4096 < s.nvPhys (3104 + w / 512) * 4096 + 8 * w % 4096 ∨
            s.nvPhys (3104 + w / 512) * 4096 + 8 * w % 4096 + d.length ≤ s.nvPhys (a / 4096) * 4096 + a % 4096 → t.nvByte a = s.nvByte a))
    ∧ (∀ (d : List Byte) (w i : Nat) (g : Bool), w = 256 * p1.toNat + p2.toNat → s.tag = tgOpen → s.fb F.FLD_STS_HARVESTED = true → s.fb F.FLD_CTL_HARV_PROV = true → d ≠ [] → d.length % 8 = 0 →
        d.length ≤ 128 → w < 4096 → w % 512 + d.length / 8 ≤ 512 → s.nvProt (3104 + w / 512) = false → i < d.length / 8 → s.nvErased (3104 * 4096 + 8 * w + 8 * i) = false →
        ∃ t, exec (.mbxProgram p1 p2 d g) s = .next t ∧ t.out = .field [0x65, 0x81] :: s.out ∧ t.nv = s.nv)
    ∧ (∀ d : List Byte, s.tag = tgSecured → s.berm.backup = false → s.plain 0x34 p1 1 d = some [] → p1.toNat < 16 → s.fld.role = 4 ∨ s.fld.role = 2 ∧ p1.toNat < 8 → s.nvProt (3104 + p1.toNat) = false →
        ∃ t, exec (.mbxErase p1 1 d true) s = .next t ∧ (∀ i, i < 4096 → t.nvByte ((3104 + p1.toNat) * 4096 + i) = 0xFF) ∧ t.tag = tgSecured ∧ t.fld.seq = s.fld.seq + 1 ∧
          t.out = .field [0x90, 0x00] :: s.out ∧ s.onlyIn t [.regs, .nv, .fld, .out] ∧
          (∀ a, nvArea (a / 4096) ≠ .journal → s.nvPhys (a / 4096) ≠ s.nvPhys (3104 + p1.toNat) → t.nvByte a = s.nvByte a))
    ∧ (∀ (c i : Byte), s.fieldSession = true → i.toNat ∉ fldIns →
        ∃ t u, exec (.apduUnsupported 0x80 i) s = .next t ∧ t.out = .field [0x6D, 0x00] :: s.out ∧ s.onlyIn t [.regs, .out] ∧
          (c ≠ 0x80 → exec (.apduUnsupported c i) s = .next u ∧ u.out = .field [0x6E, 0x00] :: s.out ∧ s.onlyIn u [.regs, .out]))

/-- Mailbox processing that is owed runs once no field session is open: it leaves the inbound area erased, is owed no longer, and sets MBX_DONE or MBX_REJECT. Otherwise nothing happens.
CMD_FLD_STATUS reports mode, tag state, field and UID; CMD_FLD_MODE sets MODE; CMD_FLD_READER_POLL answers BUSY in an external field and otherwise the UIDs of the badges selected, counting the turns
that ended in an error and setting MORE where a badge stays unselected. A poll finds at most eight badges, none twice; every badge in the field is found or left. -/
def Obligations.FieldMailbox : Prop :=
  ∀ s : State,
    (s.fld.mbxDue = true → s.berm.backup = false → s.fieldSession = false →
        ∃ t, exec .mailboxProcess s = .next t ∧ t.fld.mbxDue = false ∧ (bitAt (t.rd R.FLD_EVT).toNat 4 = true ∨ bitAt (t.rd R.FLD_EVT).toNat 5 = true) ∧
          (∀ x i, x < 8 → i < 4096 → t.nvProt (3104 + x) = false → t.nvByte ((3104 + x) * 4096 + i) = 0xFF))
    ∧ (s.fld.mbxDue = false ∨ s.berm.backup = true ∨ s.fieldSession = true → exec .mailboxProcess s = .next s)
    ∧ (∀ sl : Slot, specFldStatus.starts sl s = true →
        exec (.cmdFldStatus sl) s = .next (specFldStatus.ends sl s (.ok (toLe 1 (s.f F.FLD_CTL_MODE) ++ toLe 1 (if s.tag = tgOpen then 1 else if s.tag = tgSecured then 2 else 0) ++
          toLe 1 (s.f F.FLD_STS_FIELD) ++ fitB 7 s.fld.uid)) (specFldStatus.taken sl s)))
    ∧ (∀ sl : Slot, specFldMode.starts sl s = true →
        ∃ t, exec (.cmdFldMode sl) s = .next t ∧ t.f F.FLD_CTL_MODE = (specFldMode.held sl s).u 0 1 ∧ specFldMode.replied sl s (.ok []) t ∧ t.mem = s.mem ∧ t.keys = s.keys ∧ t.nv = s.nv ∧
          t.tag = (if (specFldMode.held sl s).u 0 1 = 1 ∧ s.fb F.FLD_STS_FIELD = true then tgIdle else tgNone))
    ∧ (∀ (sl : Slot) (bs : List Badge) (n : Nat), (specReaderPoll true bs n).starts sl s = true →
        ∃ t, exec (.cmdFldReaderPoll sl true bs n) s = .next t ∧ (specReaderPoll true bs n).replied sl s (busyState 0) t ∧ bitAt (t.rd R.FLD_EVT).toNat 7 = true ∧ t.keys = s.keys)
    ∧ (∀ (sl : Slot) (bs : List Badge) (n : Nat), (specReaderPoll false bs n).starts sl s = true →
        ∃ t, exec (.cmdFldReaderPoll sl false bs n) s = .next t ∧ (specReaderPoll false bs n).replied sl s (.ok (pollReply (poll bs).found)) t ∧
          t.rd R.FLD_ERRS = s.rd R.FLD_ERRS + BitVec.ofNat 32 n ∧ ((poll bs).left ≠ [] → bitAt (t.rd R.FLD_EVT).toNat 6 = true) ∧ s.onlyIn t [.regs, .cul, .out])
    ∧ (∀ bs : List Badge, (poll bs).found.length ≤ 8 ∧ (∀ b ∈ (poll bs).found, b ∈ bs) ∧ (∀ b ∈ bs, b.uid ∈ (poll bs).found.map (·.uid) ∨ b ∈ (poll bs).left) ∧
        ((poll bs).found.map (·.uid)).Nodup)

/-- A card that appears in a CARD domain that is ON is identified and raised to the highest of its modes that its own limit permits and that verifies; in a domain that is not ON it wakes
it. A card that is lost leaves the port EMPTY with the block recorded, and every command of the port ends. A read returns the valid copy of higher SEQ; a write touches blocks of its
target copy only, and ends in its SEQ where the copy reads back valid; a bundle is staged as an image whose signature is mandatory. A transfer that fails ends each of them with BUSY, and a card lost
with CARD_LOST and the block. -/
def Obligations.CardRecords : Prop :=
  ∀ s : State,
    (∀ c : CardId, s.domOn dCard = false → exec (.cardInsert c) s = .next (s.domWake dCard))
    ∧ (∀ c : CardId, s.domOn dCard = true → s.fb F.CRD_CTL_EN = true → s.f F.CRD_STS_STATE = cdEmpty → c.ok = true →
        ∃ t, exec (.cardInsert c) s = .next t ∧ t.f F.CRD_STS_STATE = cdReady ∧ t.rd R.CRD_CAP = c.blocks ∧ bitAt (t.rd R.CRD_EVT).toNat 0 = true ∧ t.crd.off = false ∧
          t.f F.CRD_STS_MODE = (match (s.cardModes c).find? (fun m => bitAt c.good.toNat m) with | some m => m | none => if s.fb F.CRD_CTL_TYPE then 8 else 0) ∧
          (s.fb F.CRD_CTL_TYPE = false → t.f F.CRD_STS_MODE ≤ min (s.f F.CRD_CTL_MAXMODE) 6) ∧
          (s.fb F.CRD_CTL_TYPE = true → 8 ≤ t.f F.CRD_STS_MODE ∧ t.f F.CRD_STS_MODE ≤ 8 + min (s.f F.CRD_CTL_EMMC_MAX) 2) ∧ t.mem = s.mem ∧ t.keys = s.keys ∧ t.nv = s.nv)
    ∧ (∀ c : CardId, s.domOn dCard = true → s.fb F.CRD_CTL_EN = true → s.f F.CRD_STS_STATE = cdEmpty → c.ok = false →
        ∃ t, exec (.cardInsert c) s = .next t ∧ t.f F.CRD_STS_STATE = cdFailed ∧ bitAt (t.rd R.CRD_EVT).toNat 0 = true)
    ∧ (∀ b : Option Word, s.domOn dCard = true → s.f F.CRD_STS_STATE ≠ cdEmpty → s.fb F.CRD_CTL_CD_EN = true →
        ∃ t, exec (.cardRemove b) s = .next t ∧ t.f F.CRD_STS_STATE = cdEmpty ∧ t.rd R.CRD_CAP = 0 ∧ t.rd R.CRD_LOST_ADDR = b.getD 0xFFFFFFFF ∧ t.crd.off = true ∧
          bitAt (t.rd R.CRD_EVT).toNat 1 = true ∧ (∀ w ∈ t.cul.waits, w ∈ s.cul.waits ∧ Obj.card ∉ w.objs) ∧ t.mem = s.mem ∧ t.keys = s.keys ∧ t.nv = s.nv)
    ∧ (∀ b : Option Word, s.fb F.CRD_CTL_CD_EN = false → exec (.cardRemove b) s = .next s)
    ∧ (∀ (sl : Slot) (run : CardRun) (c : List Byte), (specCardRead run).starts sl s = true → run.stop = .done →
        recPick (((specCardRead run).held sl s).u 0 4) run.copyA run.copyB = some c → recLen c ≤ (((specCardRead run).held sl s).buf 4).2 → recData c ≠ [] →
        ∃ t, exec (.cmdCrdRecordRead sl run) s = .next t ∧ (specCardRead run).replied sl s (.ok (packR [(4, recLen c), (8, recSeq c)] [])) t ∧
          .hostWrite (((specCardRead run).held sl s).buf 4).1 (recData c) ∈ t.out ∧ t.rd R.CRD_CRC_ERR = s.rd R.CRD_CRC_ERR + run.fails ∧ t.mem = s.mem ∧ t.keys = s.keys ∧ t.nv = s.nv)
    ∧ (∀ (sl : Slot) (run : CardRun), (specCardRead run).starts sl s = true → run.stop = .done → recPick (((specCardRead run).held sl s).u 0 4) run.copyA run.copyB = none →
        ∃ t, exec (.cmdCrdRecordRead sl run) s = .next t ∧ (specCardRead run).replied sl s (badState (((specCardRead run).held sl s).u 0 4)) t)
    ∧ (∀ (sl : Slot) (run : CardRun) (b : Word), (specCardRead run).starts sl s = true → run.stop = .lost b →
        ∃ t, exec (.cmdCrdRecordRead sl run) s = .next t ∧ (specCardRead run).replied sl s ⟨St.cardLost, b.toNat, []⟩ t ∧ t.rd R.CRD_LOST_ADDR = b ∧ t.f F.CRD_STS_STATE = cdEmpty)
    ∧ (∀ (sl : Slot) (run : CardRun), (specCardWrite run).starts sl s = true →
        ∃ t base, base = recBase (((specCardWrite run).held sl s).u 0 4) + (if recTargetB (((specCardWrite run).held sl s).u 0 4) run.copyA run.copyB then 8192 else 0) ∧
          exec (.cmdCrdRecordWrite sl run) s = .next t ∧ (∀ b d, .card b d ∈ t.out → .card b d ∈ s.out ∨ (base ≤ b ∧ b < base + 8192)) ∧
          (∀ n, run.stop = .done → n = recNext (((specCardWrite run).held sl s).u 0 4) run.copyA run.copyB →
            .card base (recHeader (((specCardWrite run).held sl s).u 0 4) (((specCardWrite run).held sl s).inp 0 4).length n (((specCardWrite run).held sl s).inp 0 4)) ∈ t.out ∧
            (recValid (((specCardWrite run).held sl s).u 0 4) run.back = true → recSeq run.back = n → (specCardWrite run).replied sl s (.ok (toLe 8 n)) t) ∧
            (recValid (((specCardWrite run).held sl s).u 0 4) run.back = false → (specCardWrite run).replied sl s (badState (((specCardWrite run).held sl s).u 0 4)) t)) ∧
          (run.stop = .spent → (specCardWrite run).replied sl s (busyState 0) t ∧ bitAt (t.rd R.CRD_EVT).toNat 3 = true) ∧ t.mem = s.mem ∧ t.keys = s.keys ∧ t.nv = s.nv)
    ∧ (∀ (sl : Slot) (run : CardRun), (specCardStage run).starts sl s = true → run.stop = .done → recPick (((specCardStage run).held sl s).u 0 4) run.copyA run.copyB = none →
        ∃ t, exec (.cmdCrdBundleStage sl run) s = .next t ∧ (specCardStage run).replied sl s (badState (((specCardStage run).held sl s).u 0 4)) t ∧ t.cfg.shadow = s.cfg.shadow ∧
          t.cfg.active = s.cfg.active)
    ∧ (∀ (sl : Slot) (run : CardRun) (c : List Byte) (r : Reply), (specCardStage run).starts sl s = true → run.stop = .done →
        recPick (((specCardStage run).held sl s).u 0 4) run.copyA run.copyB = some c →
        ((((specCardStage run).taken sl s).cardFail run).2.irqAll 53).stageCheck (recData c) 0 false true = some r →
        ∃ t, exec (.cmdCrdBundleStage sl run) s = .next t ∧ (specCardStage run).replied sl s r t ∧ t.cfg.shadow = s.cfg.shadow ∧ t.cfg.active = s.cfg.active)
    ∧ (∀ (sl : Slot) (run : CardRun) (c : List Byte) (u v : State), (specCardStage run).starts sl s = true → run.stop = .done →
        recPick (((specCardStage run).held sl s).u 0 4) run.copyA run.copyB = some c → u = (((specCardStage run).taken sl s).cardFail run).2.irqAll 53 →
        u.stageCheck (recData c) 0 false true = none → u.pinnedAfter (setOfImage (recData c) (s.cfg.active.seq + 1)) ≤ 65536 →
        u.dropShadow.placeShadow (setOfImage (recData c) (s.cfg.active.seq + 1)).statics = some v →
        ∃ t sh, exec (.cmdCrdBundleStage sl run) s = .next t ∧ t.cfg.shadow = some sh ∧ sh.set = setOfImage (recData c) (s.cfg.active.seq + 1) ∧
          sh.card = some (((specCardStage run).held sl s).u 0 4) ∧ t.cfg.active = s.cfg.active ∧ (specCardStage run).replied sl s (.ok (toLe 8 sh.set.seq ++ sh.set.digest)) t)

/-- A smart card that gives a valid answer to reset with parameters that the port supports is active, at class C, or else at class B, with its protocol, Fi/Di and ATR in the registers; one that gives none sets
ATR_FAIL. Its removal clears the port and ends the commands that use it. An APDU goes to the card and its response to the buffer; a protocol failure deactivates the card. -/
def Obligations.SmartCard : Prop :=
  ∀ s : State,
    (∀ c : ScdId, s.domOn dCard = false → exec (.scdInsert c) s = .next (s.domWake dCard))
    ∧ (∀ (c : ScdId) (cls t1 fd : Nat) (b : List Byte), s.domOn dCard = true → s.fb F.SCD_CTL_EN = true → s.fb F.SCD_STS_PRESENT = false → scdAtr c = some (cls, b) →
        atrChoice (atrParse b) c.pps = some (t1, fd) → c.linkUp = true →
        ∃ t, exec (.scdInsert c) s = .next t ∧ t.fb F.SCD_STS_PRESENT = true ∧ t.fb F.SCD_STS_ACTIVE = true ∧ t.f F.SCD_STS_CLASS = cls ∧ t.f F.SCD_STS_T1 = t1 ∧ t.f F.SCD_STS_FIDI = fd ∧
          t.f F.SCD_STS_ALEN = b.length ∧ (∀ i, i < 9 → t.rd (R.SCD_ATR i) = BitVec.ofNat 32 (leAt b (4 * i) 4)) ∧ bitAt (t.rd R.SCD_EVT).toNat 0 = true ∧
          t.mem = s.mem ∧ t.keys = s.keys ∧ t.nv = s.nv)
    ∧ (∀ c : ScdId, s.domOn dCard = true → s.fb F.SCD_CTL_EN = true → s.fb F.SCD_STS_PRESENT = false → scdAtr c = none →
        ∃ t, exec (.scdInsert c) s = .next t ∧ t.fb F.SCD_STS_PRESENT = true ∧ t.fb F.SCD_STS_ACTIVE = s.fb F.SCD_STS_ACTIVE ∧ bitAt (t.rd R.SCD_EVT).toNat 2 = true)
    ∧ (s.domOn dCard = true → s.fb F.SCD_STS_PRESENT = true →
        ∃ t, exec .scdRemove s = .next t ∧ t.rd R.SCD_STS = 0 ∧ (∀ i, i < 9 → t.rd (R.SCD_ATR i) = 0) ∧ bitAt (t.rd R.SCD_EVT).toNat 1 = true ∧
          (∀ w ∈ t.cul.waits, w ∈ s.cul.waits ∧ Obj.smartCard ∉ w.objs) ∧ t.mem = s.mem ∧ t.keys = s.keys)
    ∧ (∀ sl : Slot, specScdStatus.starts sl s = true →
        exec (.cmdScdStatus sl) s = .next (specScdStatus.ends sl s (.ok (toLe 1 (s.f F.SCD_STS_PRESENT) ++ toLe 1 (s.f F.SCD_STS_CLASS) ++ toLe 1 (s.f F.SCD_STS_T1) ++
          toLe 1 (s.f F.SCD_STS_ALEN) ++ fitB 33 ((List.range 9).flatMap (fun i => toLe 4 (s.rd (R.SCD_ATR i)).toNat)))) (specScdStatus.taken sl s)))
    ∧ (∀ (sl : Slot) (r : List Byte), (specScdApdu (.answer r)).starts sl s = true → r ≠ [] → r.length ≤ (((specScdApdu (.answer r)).held sl s).buf 8).2 →
        ∃ t, exec (.cmdScdApdu sl (.answer r)) s = .next t ∧ .scd (((specScdApdu (.answer r)).held sl s).inp 0 0) ∈ t.out ∧
          .hostWrite (((specScdApdu (.answer r)).held sl s).buf 8).1 r ∈ t.out ∧ (specScdApdu (.answer r)).replied sl s (.ok (toLe 4 r.length)) t ∧ s.onlyIn t [.regs, .cul, .out])
    ∧ (∀ sl : Slot, (specScdApdu .failed).starts sl s = true →
        ∃ t, exec (.cmdScdApdu sl .failed) s = .next t ∧ (specScdApdu .failed).replied sl s (badState 0) t ∧ t.fb F.SCD_STS_ACTIVE = false ∧ bitAt (t.rd R.SCD_EVT).toNat 3 = true)
    ∧ (∀ sl : Slot, (specScdApdu .lost).starts sl s = true →
        ∃ t, exec (.cmdScdApdu sl .lost) s = .next t ∧ (specScdApdu .lost).replied sl s ⟨St.cardLost, 0xFFFFFFFF, []⟩ t ∧ t.rd R.SCD_STS = 0 ∧ bitAt (t.rd R.SCD_EVT).toNat 1 = true)

/-- While the link is down a twin message has no effect; one that fails its verification is counted in BAD, and the second copy of a SEQ or a payload of another header changes nothing. HELLO goes out with the next SEQ, big-endian as Table TWN-2 lays it out. A HELLO of
another version makes the device ALONE; one of the same version gives a device that pairs its role by the claims and then the identity digests. TIME sets AGREE_TIME by
the two-way offset, and a disagreement makes the device that follows re-align by a step of the cycle number, its angle untouched. A replay window is merged into the
entry of the same MATCH by R281. -/
def Obligations.TwinMessages : Prop :=
  ∀ s : State,
    (∀ (p : List Byte) (ok : Bool), s.twinUp = false →
        exec (.helloRx p ok) s = .next s ∧ exec (.timeRx p ok) s = .next s ∧ exec (.replayRx p ok) s = .next s ∧ exec (.readyRx p ok) s = .next s ∧
        exec (.roleRx p ok) s = .next s ∧ exec (.leadstateRx p ok) s = .next s ∧ exec .twinHelloSend s = .next s)
    ∧ (∀ p : List Byte, s.twinUp = true →
        exec (.helloRx p false) s = .next (s.addF F.TWN_LINK_STS_BAD 1) ∧ exec (.timeRx p false) s = .next (s.addF F.TWN_LINK_STS_BAD 1) ∧
        exec (.replayRx p false) s = .next (s.addF F.TWN_LINK_STS_BAD 1) ∧ exec (.readyRx p false) s = .next (s.addF F.TWN_LINK_STS_BAD 1) ∧
        exec (.roleRx p false) s = .next (s.addF F.TWN_LINK_STS_BAD 1) ∧ exec (.leadstateRx p false) s = .next (s.addF F.TWN_LINK_STS_BAD 1))
    ∧ (∀ p : List Byte, beAt p 4 4 ∈ s.twin.rxSeen ∨ p.take 2 ≠ [5, 1] →
        (s.twinUp = true → exec (.helloRx p true) s = .next s ∧ exec (.timeRx p true) s = .next s ∧ exec (.replayRx p true) s = .next s ∧
          exec (.readyRx p true) s = .next s ∧ exec (.roleRx p true) s = .next s ∧ exec (.leadstateRx p true) s = .next s))
    ∧ (s.twinUp = true →
        ∃ t b, exec .twinHelloSend s = .next t ∧ t.out = .twin ([5, 1, 1, 0] ++ toBe 4 s.twin.txSeq ++ b) :: s.out ∧ t.twin.txSeq = (s.twin.txSeq + 1) % 2 ^ 32 ∧
          beAt b 0 1 = s.roleByte % 256 ∧ sliceB b 1 4 = s.rankBytes ∧ beAt b 5 4 = (s.rd R.DEV_AEDUF_VER).toNat ∧ beAt b 9 1 = s.f F.DEV_VER_STEP ∧
          beAt b 10 8 = s.rd64 R.CFG_ACTIVE_SEQ_LO ∧ sliceB b 18 48 = fitB 48 s.cfg.active.digest ∧ sliceB b 66 48 = s.keyDigest ∧ sliceB b 114 48 = s.ownDigest ∧
          b.length = 162 ∧ s.onlyIn t [.twin, .out])
    ∧ (∀ (n : Word) (b : List Byte), s.twinUp = true → n.toNat ∉ s.twin.rxSeen → (helloOf b).ver ≠ (s.rd R.DEV_AEDUF_VER).toNat ∨ (helloOf b).step ≠ s.f F.DEV_VER_STEP →
        ∃ t, exec (.helloRx (twinPayload mHello n.toNat b) true) s = .next t ∧ t.twinSt = twAlone ∧ t.twinVer = false ∧ t.fb F.TWN_STATUS_PEER_REF = false ∧
          t.fb F.TWN_STATUS_AGREE_TIME = false ∧ (s.twinSt ≠ twAlone → bitAt (t.rd R.TWN_EVT).toNat 3 = true) ∧ t.gac = s.gac ∧ t.grv = s.grv ∧ t.keys = s.keys)
    ∧ (∀ (n : Word) (b : List Byte) (m : Hello), m = helloOf b → s.twinUp = true → n.toNat ∉ s.twin.rxSeen → m.ver = (s.rd R.DEV_AEDUF_VER).toNat → m.step = s.f F.DEV_VER_STEP →
        s.twinSt = twAlone ∨ s.twinSt = twPairing →
        ∃ t, exec (.helloRx (twinPayload mHello n.toNat b) true) s = .next t ∧ t.twinVer = true ∧ s.onlyIn t [.regs, .cul, .twin, .out] ∧ n.toNat ∈ t.twin.rxSeen ∧
          t.fb F.TWN_STATUS_AGREE_CFG = decide (m.cfgSeq = s.rd64 R.CFG_ACTIVE_SEQ_LO ∧ m.cfgDigest = fitB 48 s.cfg.active.digest) ∧
          (m.role = 1 → s.twin.claim ≠ 1 → t.twinSt = twFollow) ∧ (m.role = 2 → t.twinSt = twLead) ∧
          (m.role = 1 ∧ s.twin.claim = 1 ∨ m.role = 0 → t.twinSt = (if beNat m.id < beNat s.ownDigest then twLead else twFollow)))
    ∧ (∀ (n : Word) (c : BitVec 40) (x y : BitVec 64) (a b : Nat) (d : Int), s.twinUp = true → n.toNat ∉ s.twin.rxSeen → s.twinVer = true → s.twin.sent = some (a, b) → b ≠ 0 → y ≠ 0 →
        d = (diff64 b a - diff64 y.toNat x.toNat) / 2 →
        ∃ t, exec (.timeRx (twinPayload mTime n.toNat (toBe 8 c.toNat ++ toBe 8 x.toNat ++ toBe 8 y.toNat)) true) s = .next t ∧ t.gac.acc = s.gac.acc ∧ t.gac.now = s.gac.now ∧
          t.mem = s.mem ∧ t.keys = s.keys ∧ t.rd R.TWN_OFS = satInt 32 (d / 65536) ∧
          (-65536000 ≤ d → d ≤ 65536000 → c.toNat = s.nearCycle → t.fb F.TWN_STATUS_AGREE_TIME = true ∧ t.twinSt = s.twinSt ∧ t.gac = s.gac) ∧
          ((d < -65536000 ∨ 65536000 < d ∨ c.toNat ≠ s.nearCycle) → t.fb F.TWN_STATUS_AGREE_TIME = false ∧
            (s.twinSt = twLead ∨ s.twinSt = twFollow → s.follows = true → t.twinSt = twFollow ∧ t.fb F.TWN_STATUS_PEER_REF = true ∧ t.f F.GAC_STATUS_CYCLE_SET = 1 ∧
              (c.toNat ≠ s.nearCycle → t.gac.step = some ((c.toNat : Int) - s.nearCycle))) ∧
            (s.twinSt = twLead ∨ s.twinSt = twFollow → s.follows = false → t.twinSt = twLead ∧ t.gac = s.gac)))
    ∧ (∀ (n : Word) (k : List Byte) (x y : BitVec 64) (i : Nat) (w : CpsWay), Tbl.wf (fun _ => none) s.grv.copse = true → s.twinUp = true → n.toNat ∉ s.twin.rxSeen →
        s.way i = some w → w.st = .pinned → w.entry.replay = true → k.length = 24 → w.entry.mtch = k → s.twin.peer = none ∨ s.twinVer = true →
        ∃ t, exec (.replayRx (twinPayload mReplay n.toNat (k ++ toBe 8 x.toNat ++ toBe 8 y.toNat)) true) s = .next t ∧
          t.way i = some { w with entry := replayMerge w.entry x.toNat y.toNat } ∧
          (∀ j v, s.way j = some v → v.entry.mtch ≠ k → t.way j = some v) ∧ t.mem = s.mem ∧ t.gac = s.gac ∧ t.keys = s.keys)
    ∧ (∀ (n : Word) (b : List Byte), s.twinUp = true → n.toNat ∉ s.twin.rxSeen → s.twin.peer.isSome = true → s.twinVer = false →
        ∃ t, exec (.replayRx (twinPayload mReplay n.toNat b) true) s = .next t ∧ n.toNat ∈ t.twin.rxSeen ∧ s.onlyIn t [.regs, .twin])
    ∧ (∀ (e : GrvEntry) (b w : Nat), e.replayBase < b → b - e.replayBase < 64 →
        (replayMerge e b w).replayBase = b ∧ (replayMerge e b w).replayWin = ((e.replayWin <<< (b - e.replayBase)) % 2 ^ 64 ||| w))
    ∧ (∀ (e : GrvEntry) (b w : Nat), 64 ≤ b - e.replayBase → (replayMerge e b w).replayBase = b ∧ (replayMerge e b w).replayWin = w)
    ∧ (∀ (e : GrvEntry) (b w : Nat), b ≤ e.replayBase → e.replayBase - b < 64 →
        (replayMerge e b w).replayBase = e.replayBase ∧ (replayMerge e b w).replayWin = (e.replayWin ||| ((w <<< (e.replayBase - b)) % 2 ^ 64)))
    ∧ (∀ (e : GrvEntry) (b w : Nat), 64 ≤ e.replayBase - b → replayMerge e b w = e)

/-- CMD_TWN_TAKEOVER withholds itself for two cycles and sends READY. Without the peer's READY by 180° of cycle N - 2 a withheld command ends with PEER_MISMATCH and no effect, and TWIN_FAIL is set; with it a takeover is
announced by ROLE. At its angle 0 the roles are exchanged with no forwarding state changed. A FOLLOW that loses its peer claims LEAD and a LEAD keeps it. PEER_REF clears after 16 cycles within 1 µs;
a lasting key difference and a lasting version mismatch are reported; LEADSTATE is held for a later leadership. -/
def Obligations.TwinTakeover : Prop :=
  ∀ s : State,
    (∀ sl : Slot, specTwnTakeover.starts sl s = true →
        ∃ t, exec (.cmdTwnTakeover sl) s = .next t ∧ ⟨specTwnTakeover.held sl s, .twin (s.cycle + 2), []⟩ ∈ t.cul.waits ∧ t.fb F.TWN_STATUS_TAKEOVER_PEND = true ∧
          (∃ b, t.twin.takeover = some (s.cycle + 2, b)) ∧ .twin (twinPayload mReady s.twin.txSeq (toBe 2 0x0D02 ++ toBe 8 (s.cycle + 2) ++ fitB 48 (s.takeoverReady (s.cycle + 2)).digest)) ∈ t.out ∧ t.twinSt = s.twinSt ∧ s.onlyIn t [.regs, .cul, .twin, .out])
    ∧ (∀ sl : Slot, specTwnStatus.starts sl s = true →
        exec (.cmdTwnStatus sl) s = .next (specTwnStatus.ends sl s (.ok (packR [(1, if s.twinSt = twLead then 1 else if s.twinSt = twFollow then 2 else 0), (1, b2n s.twinUp),
          (1, s.f F.TWN_STATUS_AGREE_VER + 2 * s.f F.TWN_STATUS_AGREE_CFG + 4 * s.f F.TWN_STATUS_AGREE_TIME), (8, match s.twin.peer with | some p => p.cfgSeq | none => 0)] [] ++
          fitB 48 s.twin.peerDigest)) (specTwnStatus.taken sl s)))
    ∧ (∀ c : BitVec 40, s.cycle + 2 < c.toNat → exec (.twinReadyDeadline c) s = .next s)
    ∧ (∀ (c : BitVec 40) (w : Held) (l : List Obj), c.toNat ≤ s.cycle + 2 → s.cul.waits = [⟨w, .twin c.toNat, l⟩] → w.opc = 0x0202 ∨ w.opc = 0x0304 → s.twinMatched (s.readyOf w c.toNat) = false →
        ∃ t, exec (.twinReadyDeadline c) s = .next t ∧ t.cul.waits = [] ∧ bitAt (t.rd R.TWN_EVT).toNat 9 = true ∧ s.onlyIn t [.regs, .cul, .twin, .out] ∧
          (w.async = false → w.mute = false → s.cul.bme = true → .reply w.ring w.idx St.peerMismatch w.opc w.tag 0 [] s.gacNow ∈ t.out))
    ∧ (∀ (q : Word) (n : BitVec 64) (d : List Byte) (w : Held) (l : List Obj), s.twinUp = true → q.toNat ∉ s.twin.rxSeen → s.fb F.TWN_STATUS_AGREE_CFG = true → d.length = 48 →
        s.cul.waits = [⟨w, .twin n.toNat, l⟩] → w.opc = 0x0D02 → s.twin.takeover = some (n.toNat, false) → s.takeoverReady n.toNat = ⟨0x0D02, n.toNat, d⟩ → s.twinInTime n.toNat = true →
        ∃ t, exec (.readyRx (twinPayload mReady q.toNat (toBe 2 0x0D02 ++ toBe 8 n.toNat ++ d)) true) s = .next t ∧ t.twin.takeover = some (n.toNat, true) ∧
          .twin (twinPayload mRole s.twin.txSeq (d ++ toBe 8 n.toNat)) ∈ t.out ∧ t.cul.waits = s.cul.waits ∧ s.onlyIn t [.regs, .twin, .out])
    ∧ (∀ (q : Word) (n : BitVec 64), s.twinUp = true → q.toNat ∉ s.twin.rxSeen → s.twinSt = twFollow →
        ∃ t, exec (.roleRx (twinPayload mRole q.toNat (s.ownDigest ++ toBe 8 n.toNat)) true) s = .next t ∧ t.twin.takeover = some (n.toNat, true) ∧ t.fb F.TWN_STATUS_TAKEOVER_PEND = true ∧ t.twinSt = twFollow ∧ s.onlyIn t [.regs, .twin])
    ∧ (∀ (n : Nat) (b : Bool), s.twin.takeover = some (n, true) → n ≤ s.cycle → s.twinSt = (if b then twLead else twFollow) →
        ∃ t, exec .twinTakeoverEffect s = .next t ∧ t.twinSt = (if b then twFollow else twLead) ∧ t.twin.takeover = none ∧ t.fb F.TWN_STATUS_TAKEOVER_PEND = false ∧
          bitAt (t.rd R.TWN_EVT).toNat 2 = true ∧ s.onlyIn t [.regs, .cul, .twin, .out])
    ∧ (s.twin.takeover = none ∨ (∃ n, s.twin.takeover = some (n, false)) → exec .twinTakeoverEffect s = .next s)
    ∧ (s.twinSt = twFollow → s.twin.takeover = none →
        ∃ t, exec .twinPeerLost s = .next t ∧ t.twinSt = twLead ∧ t.twin.peer = none ∧ bitAt (t.rd R.TWN_EVT).toNat 2 = true ∧ t.fb F.TWN_STATUS_PEER_REF = false ∧ s.onlyIn t [.regs, .cul, .twin, .out])
    ∧ (s.twinSt = twLead → s.twin.takeover = none → ∃ t, exec .twinPeerLost s = .next t ∧ t.twinSt = twLead ∧ t.twin.peer = none ∧ s.onlyIn t [.regs, .twin])
    ∧ (s.fb F.TWN_STATUS_PEER_REF = true →
        (16 ≤ s.twin.close → ∃ t, exec .peerRefClear s = .next t ∧ t.fb F.TWN_STATUS_PEER_REF = false ∧ t.twinSt = s.twinSt ∧ s.onlyIn t [.regs]) ∧ (s.twin.close < 16 → exec .peerRefClear s = .next s))
    ∧ (s.twinUp = true → s.twinSt = twAlone → s.twin.peer.isSome = true → s.twinVer = false →
        ∃ t, exec .twinMismatchRepeat s = .next t ∧ bitAt (t.rd R.TWN_EVT).toNat 3 = true ∧ t.twin = s.twin ∧ t.mem = s.mem)
    ∧ (s.twin.keyDiff = 2 → ∃ t, exec .keyDiffDetect s = .next t ∧ bitAt (t.rd R.TWN_EVT).toNat 5 = true ∧ t.keys = s.keys ∧ t.mem = s.mem)
    ∧ (s.twin.keyDiff ≠ 2 → exec .keyDiffDetect s = .next s)
    ∧ (s.twinSt ≠ twPairing ∨ s.twinLaneUp = false ∨ s.ths.phase ≠ 0 ∨ s.twin.cak ≠ [] → exec .twinPairingRetry s = .next s)
    ∧ (s.twinSt = twPairing → s.twinLaneUp = true → s.ths.phase = 0 → s.twin.cak = [] → s.fb F.TWN_CTL_EN = true → s.fb F.TWN_LINK_STS_KEYED = false →
        exec .twinPairingRetry s = .next s.twinOffer)
    ∧ (∀ (n q : Word) (z : List PldSched), s.twinUp = true → n.toNat ∉ s.twin.rxSeen → s.twinVer = true → s.twin.peerLeads = false ∨ s.twin.nextSeq ≤ q.toNat →
        (∀ x ∈ z, x.group < 2 ^ 32 ∧ x.oldId < 2 ^ 32 ∧ x.newId < 2 ^ 32 ∧ x.cycle < 2 ^ 40 ∧ x.grace < 256) →
        ∃ t, exec (.leadstateRx (twinPayload mLeadState n.toNat (toBe 4 q.toNat ++ z.flatMap schedBytes)) true) s = .next t ∧ t.twin.peerLeads = true ∧
          t.twin.nextSeq = q.toNat + 1 ∧ t.twin.scheds = z ∧ s.onlyIn t [.regs, .twin])
    ∧ (∀ (n q : Word) (z : List Byte), s.twinUp = true → n.toNat ∉ s.twin.rxSeen → s.twinVer = true → s.twin.peerLeads = true → q.toNat < s.twin.nextSeq →
        ∃ t, exec (.leadstateRx (twinPayload mLeadState n.toNat (toBe 4 q.toNat ++ z)) true) s = .next t ∧ t.twin.peerLeads = true ∧
          t.twin.nextSeq = s.twin.nextSeq ∧ t.twin.scheds = s.twin.scheds ∧ s.onlyIn t [.regs, .twin])

/-- Only a leader beacons, at its cycles, with its index and the next BEACON_SEQ. A beacon that passes every check numbers the member's cycles and is shown in the registers; it makes a leader
of higher index stop; any other sets BEACON_REJ. A member that may lead does so when the wait without a beacon has run out. A valid report is kept under its member's index. A join stores the credential; a leave
ends every Polder function; a schedule of the leader is carried in its beacons and made on its own slots; and a member that handles a schedule does so once. -/
def Obligations.Polder : Prop :=
  ∀ s : State,
    (∀ k, s.pldMember = true → s.pldLeads = true → s.cycle % (max 1 s.pldInt) = 0 → s.identity = some k →
        ∃ t p, exec .beaconSend s = .next t ∧ .polder p ∈ t.out ∧ p.take 8 = pldHead 1 (credId s.pldCred) ∧ beAt p 8 2 = credMember s.pldCred ∧
          beAt p 12 4 = s.twin.nextSeq % 2 ^ 32 ∧ beAt p 16 8 = s.cycle ∧ t.twin.nextSeq = (s.twin.nextSeq + 1) % 2 ^ 32 ∧ t.twin.scheds = s.carried)
    ∧ (s.pldMember = false ∨ s.pldLeads = false ∨ s.cycle % (max 1 s.pldInt) ≠ 0 → exec .beaconSend s = .next s)
    ∧ (∀ (p : List Byte) (b : Beacon), s.pldMember = true → beaconOf p = some b → s.beaconOk p b = true →
        ∃ t, exec (.beaconRx p) s = .next t ∧ t.rd R.TWN_PLD_SEQ = BitVec.ofNat 32 b.seq ∧ t.rd64 R.TWN_PLD_CYC_LO = b.cycle ∧ t.twin.leaderIdx = some b.leader ∧ t.twin.lastBeacon = s.gac.passed ∧
          t.f F.GAC_STATUS_CYCLE_SET = 1 ∧ (s.numberedByPeer = false →
            t.gac.step = (if (b.cycle : Int) = (s.zeroNear b.tm).1 then s.gac.step else some ((b.cycle : Int) - (s.zeroNear b.tm).1))) ∧
          (s.numberedByPeer = true → t.gac = s.gac) ∧ (b.leader < credMember s.pldCred → t.pldLeads = false) ∧ (∀ x ∈ b.scheds, x ∈ t.twin.handled) ∧ t.gac.acc = s.gac.acc ∧ t.mem = s.mem)
    ∧ (∀ p : List Byte, s.pldMember = true → (∀ b, beaconOf p = some b → s.beaconOk p b = false) →
        ∃ t, exec (.beaconRx p) s = .next t ∧ bitAt (t.rd R.GAC_EVT).toNat F.GAC_EVT_BEACON_REJ.lo = true ∧ t.twin = s.twin ∧ t.gac = s.gac ∧ t.keys = s.keys)
    ∧ (∀ (x : PldSched) (o n : Nat), x ∉ s.twin.handled → s.cycle + 2 ≤ x.cycle → 2 ≤ x.grace → s.slotWith Ks.active x.oldId = some o → s.slotWith Ks.loaded x.newId = some n →
        s.rollCheck o n x.cycle = none →
        (s.handleSched x).twin.handled = s.twin.handled ++ [x] ∧ (s.handleSched x).keys = (s.rollTake o n x.cycle x.grace x.fold).keys)
    ∧ (∀ x : PldSched, x ∉ s.twin.handled → s.slotWith Ks.active x.oldId = none →
        (s.handleSched x).keys = s.keys ∧ bitAt ((s.handleSched x).rd R.TWN_EVT).toNat 8 = true)
    ∧ (∀ x : PldSched, x ∈ s.twin.handled → s.handleSched x = s)
    ∧ (s.pldMember = true → credLeader s.pldCred = true → s.pldLeads = false → s.numberedByPeer = false →
        s.twin.lastBeacon + 3 * credInt s.pldCred + 2 * credMember s.pldCred ≤ s.gac.passed →
        ∃ t, exec .leaderTimeout s = .next t ∧ t.pldLeads = true ∧ bitAt (t.rd R.TWN_EVT).toNat 6 = true ∧ t.gac = s.gac ∧ t.twin = s.twin)
    ∧ (s.pldMember = true → s.gac.passed < s.twin.lastBeacon + 3 * credInt s.pldCred + 2 * credMember s.pldCred → exec .leaderTimeout s = .next s)
    ∧ (∀ k, s.pldMember = true → s.cycle % (16 * max 1 s.pldInt) = 0 → s.identity = some k →
        ∃ t p, exec .reportSend s = .next t ∧ .polder p ∈ t.out ∧ p.take 8 = pldHead 2 (credId s.pldCred) ∧ beAt p 8 2 = credMember s.pldCred ∧ beAt p 16 8 = s.cycle ∧ t.twin.members = s.twin.members ∧ t.twin.scheds = s.twin.scheds)
    ∧ (∀ p : List Byte, s.pldMember = true → 0 < s.pldInt → s.reportOk p = true →
        ∃ t, exec (.reportRx p) s = .next t ∧ t.member (beAt p 8 2) = some ⟨sliceB p 36 261, sliceB p 297 97, s.gac.passed⟩ ∧ t.f F.TWN_PLD_STATUS_COUNTED = t.twin.members.length % 2 ^ 13 ∧
          s.onlyIn t [.regs, .twin])
    ∧ (∀ p : List Byte, s.pldMember = false ∨ s.reportOk p = false → exec (.reportRx p) s = .next s)
    ∧ (∀ sl : Slot, specPldStatus.starts sl s = true →
        exec (.cmdPldStatus sl) s = .next (specPldStatus.ends sl s (.ok (packR [(4, (s.rd R.TWN_PLD_ID).toNat), (2, s.f F.TWN_PLD_STATUS_COUNTED), (1, s.f F.TWN_PLD_STATUS_LEADER),
          (8, s.rd64 R.TWN_PLD_CYC_LO)] [])) (specPldStatus.taken sl s)))
    ∧ (∀ (sl : Slot) (card : Option (List Byte)) (c : List Byte), (specPldJoin card).starts sl s = true → c = joinCred ((specPldJoin card).held sl s) s card →
        ∃ t, exec (.cmdPldJoin sl card) s = .next t ∧ t.twin.cred = some c ∧ t.twin.authPub = some (credAuth c) ∧ t.pldMember = true ∧ (t.rd R.TWN_PLD_ID).toNat = credId c ∧
          credId c = ((specPldJoin card).held sl s).u 0 4 ∧ (specPldJoin card).replied sl s (.ok []) t ∧ t.keys = s.keys ∧ t.mem = s.mem)
    ∧ (∀ sl : Slot, specPldLeave.starts sl s = true →
        ∃ t, exec (.cmdPldLeave sl) s = .next t ∧ t.pldMember = false ∧ t.pldLeads = false ∧ t.twin.authPub = none ∧ t.rd R.TWN_PLD_ID = 0 ∧ specPldLeave.replied sl s (.ok []) t ∧
          t.keys = s.keys ∧ t.mem = s.mem)
    ∧ (∀ sl : Slot, specPldKeySchedule.starts sl s = true → (specPldKeySchedule.held sl s).u 0 2 ≠ (specPldKeySchedule.held sl s).u 2 2 →
        ∃ t x, exec (.cmdPldKeySchedule sl) s = .next t ∧ t.twin.scheds = s.carried ++ [x] ∧ x.group = (specPldKeySchedule.held sl s).u 16 4 ∧ x.cycle = (specPldKeySchedule.held sl s).u 8 8 ∧
          x.oldId = (s.ks ((specPldKeySchedule.held sl s).u 0 2)).id ∧ x.newId = (s.ks ((specPldKeySchedule.held sl s).u 2 2)).id ∧
          (t.ks ((specPldKeySchedule.held sl s).u 0 2)).rollPend = true ∧ (t.ks ((specPldKeySchedule.held sl s).u 2 2)).roll = x.cycle ∧
          specPldKeySchedule.replied sl s (.ok []) t ∧ s.onlyIn t [.regs, .cul, .keys, .twin, .out])

/-- A write to a channel by a compartment that its grant does not name changes nothing. Enabling starts a channel WAITING with HEAD and TAIL at 0, and fails with RING_BAD where the ring does not fit. Disabling discards both
sets. A doorbell fetches an owned descriptor into the active set and the next into the shadow, HEAD moving past each. An abort ends the active descriptor with ABORTED and halts the channel, HEAD behind it
and the shadow gone. -/
def Obligations.DmaChannels : Prop :=
  ∀ (s : State) (n : Fin 64) (comp : BitVec 16),
    (∀ (v : Word) (b : BitVec 17) (f : DmaFeed) (t : BitVec 16) (l : List DmaRaw), s.f (F.DMA_GRANT_OWNER n) ≠ comp.toNat →
        exec (.dmaEnable n comp v) s = .next s ∧ exec (.dmaDisable n comp v) s = .next s ∧ exec (.dmaAbort n comp b f) s = .next s ∧ exec (.dmaDoorbell n comp t l) s = .next s)
    ∧ (∀ v : Word, s.f (F.DMA_GRANT_OWNER n) = comp.toNat → bitAt v.toNat 31 = true → s.fb (F.DMA_CTL_EN n) = false → s.fb F.CUL_WIN_CTL_EN = true → s.fb (F.DMA_GRANT_ASSIGNED n) = true →
        s.f (F.DMA_RING_BASE_BASE n) * 32 + 32 * 2 ^ (min (v.toNat % 16) 8 + 4) ≤ s.winBytes →
        ∃ t, exec (.dmaEnable n comp v) s = .next t ∧ t.fb (F.DMA_CTL_EN n) = true ∧ t.dmaSt n = dmaWaiting ∧ t.rd (R.DMA_RING_IDX n) = 0 ∧ t.ch n = DmaCh.idle ∧
          t.dmaSize n = 2 ^ (min (v.toNat % 16) 8 + 4) ∧ (∀ m, m ≠ n.val → t.ch m = s.ch m) ∧ s.onlyIn t [.regs, .dma])
    ∧ (∀ v : Word, s.f (F.DMA_GRANT_OWNER n) = comp.toNat → bitAt v.toNat 31 = true → s.fb (F.DMA_CTL_EN n) = false →
        s.fb F.CUL_WIN_CTL_EN = false ∨ s.fb (F.DMA_GRANT_ASSIGNED n) = false ∨ s.winBytes < s.f (F.DMA_RING_BASE_BASE n) * 32 + 32 * 2 ^ (min (v.toNat % 16) 8 + 4) →
        ∃ t, exec (.dmaEnable n comp v) s = .next t ∧ t.fb (F.DMA_CTL_EN n) = false ∧ t.f (F.DMA_STS_CAUSE n) = 0x200 ∧ s.onlyIn t [.regs])
    ∧ (∀ v : Word, s.f (F.DMA_GRANT_OWNER n) = comp.toNat → bitAt v.toNat 31 = false →
        ∃ t, exec (.dmaDisable n comp v) s = .next t ∧ t.fb (F.DMA_CTL_EN n) = false ∧ t.dmaSt n = dmaDisabled ∧ t.ch n = DmaCh.idle ∧ (∀ m, m ≠ n.val → t.ch m = s.ch m) ∧ s.onlyIn t [.regs, .dma])
    ∧ (∀ (v : BitVec 16) (d : DmaRaw), s.f (F.DMA_GRANT_OWNER n) = comp.toNat → s.dmaSt n = dmaWaiting → s.ch n = DmaCh.idle → s.cul.bme = true → d.op = 1 ∨ d.op = 2 ∨ d.op = 3 →
        s.f (F.DMA_RING_IDX_HEAD n) ≠ v.toNat →
        ∃ t, exec (.dmaDoorbell n comp v [d]) s = .next t ∧ t.ch n = ⟨some (dmaDesc (s.f (F.DMA_RING_IDX_HEAD n)) d), none⟩ ∧ t.dmaSt n = dmaRunning ∧
          t.f (F.DMA_RING_IDX_HEAD n) = (s.f (F.DMA_RING_IDX_HEAD n) + 1) % 2 ^ 16 ∧ t.f (F.DMA_RING_IDX_TAIL n) = v.toNat ∧ s.onlyIn t [.regs, .dma])
    ∧ (∀ v : BitVec 16, s.f (F.DMA_GRANT_OWNER n) = comp.toNat → s.dmaSt n = dmaWaiting → s.ch n = DmaCh.idle → s.cul.bme = true →
        ∃ t, exec (.dmaDoorbell n comp v []) s = .next t ∧ t.dmaSt n = dmaWaiting ∧ t.ch n = DmaCh.idle ∧ t.f (F.DMA_RING_IDX_TAIL n) = v.toNat ∧ s.onlyIn t [.regs])
    ∧ (∀ v : BitVec 16, ∀ l, s.dmaSt n = dmaHalted ∨ s.dmaSt n = dmaDisabled → exec (.dmaDoorbell n comp v l) s = .next s)
    ∧ (∀ (b : BitVec 17) (f : DmaFeed), s.f (F.DMA_GRANT_OWNER n) = comp.toNat → s.dmaSt n = dmaWaiting ∨ s.dmaSt n = dmaRunning → (s.ch n).active = none →
        ∃ t, exec (.dmaAbort n comp b f) s = .next t ∧ t.dmaSt n = dmaHalted ∧ t.ch n = DmaCh.idle ∧ t.f (F.DMA_STS_CAUSE n) = 0x106 ∧ t.mem = s.mem ∧ t.cxl = s.cxl ∧ t.nv = s.nv)
    ∧ (∀ (b : BitVec 17) (f : DmaFeed) (d : DmaDesc), s.f (F.DMA_GRANT_OWNER n) = comp.toNat → s.dmaSt n = dmaRunning → (s.ch n).active = some d → b = 0 → d.bad = false →
        s.dmaAddrOk n d.dst d.len = true → s.dmaAddrOk n d.src d.len = true → d.op = 1 →
        ∃ t, exec (.dmaAbort n comp b f) s = .next t ∧ t.dmaSt n = dmaHalted ∧ t.ch n = DmaCh.idle ∧ t.f (F.DMA_STS_CAUSE n) = 0x106 ∧
          t.f (F.DMA_RING_IDX_HEAD n) = (d.idx + 1) % 2 ^ 16 ∧ .dmaBack n (d.idx % s.dmaSize n) 0x106 0 0 0 s.gacNow ∈ t.out ∧ t.mem = s.mem ∧ t.cxl = s.cxl ∧ t.nv = s.nv)

/-- A copy in range moves every byte and touches no other, clearing the tags of the SRAM granules it writes; a fill repeats its constant; a comparison writes nothing and reports its first mismatch. A descriptor that is
malformed or leaves its range moves no byte and halts the channel. A read that meets poison stops before the poisoned codeword; a read of SRAM whose decoder finds
errors is the one made once they are recorded. The end of a descriptor is written back
once, and the shadow becomes active. A descriptor whose accesses stall waits. -/
def Obligations.DmaTransfers : Prop :=
  ∀ (s : State) (n : Fin 64) (d : DmaDesc) (f : DmaFeed) (l : List DmaRaw), (s.ch n).active = some d → s.dmaStalls d = false → s.dmaAsleep d = [] →
    (d.op = 1 → d.bad = false → epOf d.src = 2 → epOf d.dst = 2 → s.dmaAddrOk n d.dst d.len = true → s.dmaAddrOk n d.src d.len = true →
        f.ecc = [] → s.firstPoison (sramBase + offOf d.src) d.len = none → bitAt d.flags 2 = true →
        ∃ t, exec (.dmaCopy n f l) s = .next t ∧ t.memRead (sramBase + offOf d.dst) d.len = s.memRead (sramBase + offOf d.src) d.len ∧
          (∀ a, a < sramBase + offOf d.dst ∨ sramBase + offOf d.dst + d.len ≤ a → t.memB a = s.memB a) ∧
          .dmaBack n (d.idx % s.dmaSize n) 0 d.len 0 0 s.gacNow ∈ t.out ∧ t.dmaSt n = dmaHalted ∧ t.nv = s.nv ∧ t.cxl = s.cxl ∧ t.keys = s.keys)
    ∧ (d.op = 1 → d.bad = false → epOf d.src = 1 → epOf d.dst = 2 → s.dmaAddrOk n d.dst d.len = true → s.dmaAddrOk n d.src d.len = true → f.badSrc = none → bitAt d.flags 2 = true →
        ∃ t, exec (.dmaCopy n f l) s = .next t ∧ t.memRead (sramBase + offOf d.dst) d.len = fitB d.len f.src ∧ .dmaBack n (d.idx % s.dmaSize n) 0 d.len 0 0 s.gacNow ∈ t.out)
    ∧ (∀ o, d.op = 1 → d.bad = false → epOf d.src = 1 → epOf d.dst = 2 → s.dmaAddrOk n d.dst d.len = true → s.dmaAddrOk n d.src d.len = true → f.badSrc = some o → o < d.len →
        ∃ t, exec (.dmaCopy n f l) s = .next t ∧ .dmaBack n (d.idx % s.dmaSize n) 0x104 o 0 0 s.gacNow ∈ t.out ∧ t.dmaSt n = dmaHalted ∧ t.f (F.DMA_STS_CAUSE n) = 0x104 ∧
          (∀ a, a < sramBase + offOf d.dst ∨ sramBase + offOf d.dst + o ≤ a → t.memB a = s.memB a))
    ∧ (∀ o, d.op = 1 → d.bad = false → epOf d.src = 2 → epOf d.dst = 1 → s.dmaAddrOk n d.dst d.len = true → s.dmaAddrOk n d.src d.len = true →
        f.ecc = [] → s.firstPoison (sramBase + offOf d.src) d.len = some o → o ≠ 0 →
        ∃ t, exec (.dmaCopy n f l) s = .next t ∧ .hostWrite (offOf d.dst) ((s.memRead (sramBase + offOf d.src) d.len).take o) ∈ t.out ∧
          .dmaBack n (d.idx % s.dmaSize n) 0x60 o 0 (poisonDetail (sramBase + offOf d.src + o)) s.gacNow ∈ t.out ∧ t.dmaSt n = dmaHalted ∧ t.mem = s.mem)
    ∧ (d.op = 1 → d.bad = false → epOf d.src = 2 → s.dmaAddrOk n d.dst d.len = true → s.dmaAddrOk n d.src d.len = true →
        exec (.dmaCopy n f l) s = exec (.dmaCopy n { f with ecc := [] } l) (s.eccSpan (sramBase + offOf d.src) d.len f.ecc))
    ∧ (d.op = 2 → d.bad = false → epOf d.dst = 2 → s.dmaAddrOk n d.dst d.len = true → bitAt d.flags 2 = true →
        ∃ t, exec (.dmaFill n l) s = .next t ∧ (∀ i, i < d.len → t.memB (sramBase + offOf d.dst + i) = BitVec.ofNat 8 (d.value.toNat / 2 ^ (8 * (i % 4)))) ∧
          (∀ a, a < sramBase + offOf d.dst ∨ sramBase + offOf d.dst + d.len ≤ a → t.memB a = s.memB a) ∧
          .dmaBack n (d.idx % s.dmaSize n) 0 d.len 0 0 s.gacNow ∈ t.out)
    ∧ (d.op = 3 → d.bad = false → epOf d.src = 1 → epOf d.dst = 1 → s.dmaAddrOk n d.dst d.len = true → s.dmaAddrOk n d.src d.len = true → f.badSrc = none → f.badDst = none → bitAt d.flags 2 = true →
        ∃ t, exec (.dmaCompare n f l) s = .next t ∧ t.mem = s.mem ∧ t.cxl = s.cxl ∧ t.nv = s.nv ∧ (∀ a b, .hostWrite a b ∈ t.out → .hostWrite a b ∈ s.out) ∧
          (fitB d.len f.src = fitB d.len f.dst → .dmaBack n (d.idx % s.dmaSize n) 0 d.len 0xFFFFFFFF 0 s.gacNow ∈ t.out) ∧
          (∀ i, i < d.len → (fitB d.len f.src).take i = (fitB d.len f.dst).take i → (fitB d.len f.src)[i]? ≠ (fitB d.len f.dst)[i]? →
            .dmaBack n (d.idx % s.dmaSize n) 0x101 i i 0 s.gacNow ∈ t.out))
    ∧ (d.op = 1 → d.bad = true →
        ∃ t, exec (.dmaCopy n f l) s = .next t ∧ .dmaBack n (d.idx % s.dmaSize n) 0x102 0 0 0 s.gacNow ∈ t.out ∧ t.dmaSt n = dmaHalted ∧ t.f (F.DMA_STS_CAUSE n) = 0x102 ∧ t.mem = s.mem ∧
          t.cxl = s.cxl ∧ t.nv = s.nv)
    ∧ (d.op = 1 → d.bad = false → s.dmaAddrOk n d.dst d.len = false ∨ s.dmaAddrOk n d.src d.len = false →
        ∃ t, exec (.dmaCopy n f l) s = .next t ∧ .dmaBack n (d.idx % s.dmaSize n) 0x103 0 0 0 s.gacNow ∈ t.out ∧ t.dmaSt n = dmaHalted ∧ t.f (F.DMA_STS_CAUSE n) = 0x103 ∧ t.mem = s.mem ∧
          t.cxl = s.cxl ∧ t.nv = s.nv)
    ∧ (∀ e, d.op = 2 → d.bad = false → s.dmaAddrOk n d.dst d.len = true → bitAt d.flags 2 = false → (s.ch n).shadow = some e → e.op = 1 ∨ e.op = 2 ∨ e.op = 3 →
        ∃ t, exec (.dmaFill n []) s = .next t ∧ t.ch n = ⟨some e, none⟩ ∧ t.dmaSt n = dmaRunning ∧ t.rd (R.DMA_COUNT n) = s.rd (R.DMA_COUNT n) + 1)
    ∧ (∀ op : Nat, d.op ≠ op → (op = 1 → exec (.dmaCopy n f l) s = .next s) ∧ (op = 2 → exec (.dmaFill n l) s = .next s) ∧ (op = 3 → exec (.dmaCompare n f l) s = .next s))

/-- GROVE_BUILD_DONE takes BUILDING to SERVING. GROVE_MIGRATE_BUCKET moves the walk on by one bucket: one that holds no valid entry writes no line; a single valid entry goes to the first free way of its
new candidate bucket with more free ways; a placement that fails returns to SERVING with the old region as it was. GROVE_REGION_SWITCH changes the region only once an angle 0 has come after the walk. The
loss of a trained device that holds Grove empties every unpinned Copse way, counts the DIRTY ones, ends every waiting frame and goes to LOST; the loss of another device changes no Grove
entry. A device that trains late awaits CMD_GROVE_MEM_ADD, one that would exceed 64 GiB does not train, and the last one to train at stage B5 starts the build from 4 GiB on. -/
def Obligations.GroveService : Prop :=
  ∀ s : State,
    (s.grvSt = grvBuilding →
        ∃ t, exec .groveBuildDone s = .next t ∧ t.grvSt = grvServing ∧ bitAt (t.rd R.GRV_EVT).toNat 0 = true ∧ t.grv = s.grv ∧ t.mem = s.mem ∧ t.keys = s.keys)
    ∧ (s.grvSt ≠ grvBuilding → exec .groveBuildDone s = .next s)
    ∧ (s.grv.mig = none ∨ s.grvSt ≠ grvMigrating → exec .groveMigrateBucket s = .next s ∧ exec .groveRegionSwitch s = .next s)
    ∧ (∀ m : Migration, s.grv.mig = some m → s.grvSt = grvMigrating → m.walked = true → exec .groveMigrateBucket s = .next s)
    ∧ (∀ m : Migration, s.grv.mig = some m → s.grvSt = grvMigrating → m.walked = false → (∀ w, w < 4 → (s.line s.region (4 * m.bucket + w)).flips = [] ∧ (s.line s.region (4 * m.bucket + w)).entry.valid = false) →
        ∃ t, exec .groveMigrateBucket s = .next t ∧ t.grv = { s.grv with mig := some { m with bucket := m.bucket + 1, walked := decide (m.bucket + 1 = 2 ^ s.kInForce) } } ∧
          t.f F.GRV_STATUS_MIGRATED = (m.bucket + 1) / 64 % 2 ^ 16 ∧ s.onlyIn t [.regs, .grv])
    ∧ (∀ (m : Migration) (w v : Nat), s.grv.mig = some m → s.grvSt = grvMigrating → m.walked = false → m.toK ≤ 22 → w < 4 →
        (s.line s.region (4 * m.bucket + w)).entry.valid = true → (s.line s.region (4 * m.bucket + w)).poison = false →
        (∀ j, j < 4 → (s.line s.region (4 * m.bucket + j)).flips = []) → (∀ j, j < 4 → j ≠ w → (s.line s.region (4 * m.bucket + j)).entry.valid = false) →
        (s.freeWays (1 - s.region) (bucketsOf s.grv.newKey m.toK (s.line s.region (4 * m.bucket + w)).entry.mkey).1).head? = some v →
        (s.freeWays (1 - s.region) (bucketsOf s.grv.newKey m.toK (s.line s.region (4 * m.bucket + w)).entry.mkey).2).length ≤
          (s.freeWays (1 - s.region) (bucketsOf s.grv.newKey m.toK (s.line s.region (4 * m.bucket + w)).entry.mkey).1).length →
        ∃ t, exec .groveMigrateBucket s = .next t ∧
          (t.line (1 - s.region) (4 * (bucketsOf s.grv.newKey m.toK (s.line s.region (4 * m.bucket + w)).entry.mkey).1 + v)).entry = (s.line s.region (4 * m.bucket + w)).entry ∧
          (∀ e, e < 2 ^ 24 → t.line s.region e = s.line s.region e) ∧ (∃ m', t.grv.mig = some m' ∧ m'.bucket = m.bucket + 1))
    ∧ (∀ m : Migration, s.grv.mig = some m → s.grvSt = grvMigrating → m.walked = false → m.toK ≤ 22 → (∀ j, j < 4 → (s.line s.region (4 * m.bucket + j)).flips = []) →
        (s.copyLines s.grv.newKey m.toK (s.bucketEntries m.bucket)).2 = false →
        ∃ t, exec .groveMigrateBucket s = .next t ∧ t.grvSt = grvServing ∧ t.grv.mig = none ∧ t.region = s.region ∧ t.kInForce = s.kInForce ∧ t.f F.GRV_STATUS_MIGRATED = 0 ∧
          bitAt (t.rd R.GRV_EVT).toNat 6 = true ∧ (∀ e, e < 2 ^ 24 → t.line s.region e = s.line s.region e) ∧ t.grv.copse = s.grv.copse)
    ∧ (∀ m : Migration, s.grv.mig = some m → s.grvSt = grvMigrating → m.due = false → exec .groveRegionSwitch s = .next s)
    ∧ (∀ m : Migration, s.grv.mig = some m → s.grvSt = grvMigrating → m.due = true →
        ∃ t, exec .groveRegionSwitch s = .next t ∧ t.region = 1 - s.region ∧ t.kInForce = m.toK % 64 ∧ t.grvSt = grvServing ∧ t.grv.mig = none ∧ t.grv.hashKey = s.grv.newKey ∧
          t.grv.fills = s.grv.fills.map (fun x => x.moveTo (1 - s.region) s.grv.newKey m.toK) ∧
          t.f F.GRV_STATUS_MIGRATED = 0 ∧ bitAt (t.rd R.GRV_EVT).toNat 5 = true ∧ t.f F.SWP_CXL_POS_LINE = 0 ∧
          (∀ e, e < 2 ^ 24 → t.line (1 - s.region) e = s.line (1 - s.region) e ∧ t.line s.region e = GrvLine.empty) ∧
          (∀ i w, Tbl.wf (fun _ => none) s.grv.copse = true → s.way i = some w → w.st = .pinned → t.way i = some w))
    ∧ (∀ link : Fin 2, (s.link link.val).trained = false →
        exec (.cxlLinkDown link) s = .next s ∧ exec (.cxlReadTimeout link) s = .next s ∧ exec (.cxlFatalError link) s = .next s)
    ∧ (∀ (link : Fin 2) (i : Instr), i = .cxlLinkDown link ∨ i = .cxlReadTimeout link ∨ i = .cxlFatalError link → (s.link link.val).trained = true → (s.link link.val).holds = true →
        s.grvSt = grvBuilding ∨ s.grvSt = grvServing ∨ s.grvSt = grvMigrating → Tbl.wf (fun _ => none) s.grv.copse = true →
        ∃ t, exec i s = .next t ∧ t.grvSt = grvLost ∧ bitAt (t.rd R.GRV_EVT).toNat 1 = true ∧ t.grv.fills = [] ∧ t.grv.mig = none ∧ t.grv.lines = [] ∧
          (t.link link.val).trained = false ∧ (t.link link.val).mapped = false ∧ (t.link link.val).cap = 0 ∧
          (∀ i w, s.way i = some w → w.st = .pinned ∨ w.st = .shadow → t.way i = some w) ∧ (∀ i w, t.way i = some w → w.st = .pinned ∨ w.st = .shadow) ∧
          t.f F.CPS_WB_LOST_COUNT = (s.f F.CPS_WB_LOST_COUNT + (s.ways.filter (fun e => decide (e.2.st = .dirty))).length) % 2 ^ 32 ∧
          (∀ f ∈ t.fp.frames, ∀ id, f.phase ≠ .waiting id))
    ∧ (∀ (link : Fin 2) (i : Instr), i = .cxlLinkDown link ∨ i = .cxlReadTimeout link ∨ i = .cxlFatalError link → (s.link link.val).trained = true → (s.link link.val).holds = false →
        ∃ t, exec i s = .next t ∧ t.grvSt = s.grvSt ∧ t.grv = { s.grv with links := t.grv.links } ∧ (t.link link.val).trained = false ∧ (t.link link.val).mapped = false ∧
          (∀ j, j ≠ link.val → t.link j = s.link j) ∧ t.fp = s.fp)
    ∧ (∀ (link : Fin 2) (cap : Fin 65537) (g : Bool), s.domOn dCxl = false ∨ (s.link link.val).trained = true ∨ cap.val = 0 ∨ (link.val = 1 ∧ s.fb F.GRV_CTL_IL2 = false) ∨ 65536 < (s.link (1 - link.val)).cap + cap.val →
        exec (.cxlDeviceTrained link cap g) s = .next s)
    ∧ (∀ (link : Fin 2) (cap : Fin 65537) (g : Bool), s.domOn dCxl = true → (s.link link.val).trained = false → cap.val ≠ 0 → (s.link (1 - link.val)).cap + cap.val ≤ 65536 →
        link.val = 0 ∨ s.fb F.GRV_CTL_IL2 = true → (s.link link.val).mapped = true → exec (.cxlDeviceTrained link cap g) s = .next (s.setLink link.val { s.link link.val with trained := true, gt32 := g }))
    ∧ (∀ (link : Fin 2) (cap : Fin 65537) (g : Bool), s.grv.links.length = 2 → s.domOn dCxl = true → (s.link link.val).trained = false → cap.val ≠ 0 → (s.link (1 - link.val)).cap + cap.val ≤ 65536 →
        link.val = 0 ∨ s.fb F.GRV_CTL_IL2 = true → (s.link link.val).mapped = false → s.grv.atB5 = false →
        ∃ t, exec (.cxlDeviceTrained link cap g) s = .next t ∧
          t.link link.val = { s.link link.val with trained := true, mapped := false, awaiting := true, gt32 := g, cap := cap.val } ∧
          (∀ j, j ≠ link.val → t.link j = s.link j) ∧ bitAt (t.rd R.GRV_EVT).toNat 4 = true ∧ t.grvSt = s.grvSt ∧ s.onlyIn t [.regs, .cul, .grv, .out])
    ∧ (∀ (link : Fin 2) (cap : Fin 65537) (g : Bool), s.grv.links.length = 2 → s.domOn dCxl = true → (s.link link.val).trained = false → cap.val ≠ 0 → (s.link (1 - link.val)).cap + cap.val ≤ 65536 →
        link.val = 0 ∨ s.fb F.GRV_CTL_IL2 = true → (s.link link.val).mapped = false → s.grv.atB5 = true → (s.link link.val).present = true → s.fb F.GRV_CTL_EN = true →
        (∀ j ∈ s.configured, j = link.val ∨ (s.link j).trained = true) → 4096 ≤ (s.configured.map (fun j => if j = link.val then cap.val else (s.link j).cap)).foldl (· + ·) 0 →
        ∃ t, exec (.cxlDeviceTrained link cap g) s = .next t ∧ t.grvSt = grvBuilding ∧ t.grv.lines = [] ∧ t.grv.atB5 = false ∧ (t.link link.val).mapped = true ∧
          (t.link link.val).holds = true ∧ t.kInForce = kOf (s.f F.GRV_CTL_BKT_LOG2) ∧ t.grv.copse = s.grv.copse ∧ t.grv.kgEnc.isSome = true ∧ t.grv.kgMac.isSome = true)

/-- A walk reads no line that it has not been granted. The SRAM walk goes from line to line and region to region, and counts a pass at the end of region 8; the Grove walk wraps after
the last line of the region in force, counting its passes. A correctable error is counted for its region, and an uncorrectable one sets the poison mark
of its codeword alone. A Grove line that is corrected is written back, its LVER counted up. -/
def Obligations.SweepWalks : Prop :=
  ∀ s : State,
    (∀ a b l, s.fb F.SWP_CTL_SRAM_EN = false ∨ s.ecc.sramLeft = 0 → exec (.sweepLine a b l false) s = .next s)
    ∧ (∀ a b l, s.fb F.SWP_CTL_CXL_EN = false ∨ s.ecc.cxlLeft = 0 ∨ (s.grvSt ≠ grvServing ∧ s.grvSt ≠ grvMigrating) → exec (.sweepLine a b l true) s = .next s)
    ∧ (∀ l, s.fb F.SWP_CTL_SRAM_EN = true → 0 < s.ecc.sramLeft → s.f F.SWP_SRAM_POS_LINE + 1 < sweepLines (s.f F.SWP_SRAM_POS_REGION) →
        ∃ t, exec (.sweepLine none none l false) s = .next t ∧ t.f F.SWP_SRAM_POS_LINE = s.f F.SWP_SRAM_POS_LINE + 1 ∧ t.f F.SWP_SRAM_POS_REGION = s.f F.SWP_SRAM_POS_REGION ∧
          t.ecc = { s.ecc with sramLeft := s.ecc.sramLeft - 1, sramCarry := min s.ecc.sramCarry (s.ecc.sramLeft - 1) } ∧ s.onlyIn t [.regs, .ecc])
    ∧ (∀ l, s.fb F.SWP_CTL_SRAM_EN = true → 0 < s.ecc.sramLeft → s.f F.SWP_SRAM_POS_REGION < 8 → s.f F.SWP_SRAM_POS_LINE + 1 = sweepLines (s.f F.SWP_SRAM_POS_REGION) →
        ∃ t, exec (.sweepLine none none l false) s = .next t ∧ t.f F.SWP_SRAM_POS_LINE = 0 ∧ t.f F.SWP_SRAM_POS_REGION = s.f F.SWP_SRAM_POS_REGION + 1 ∧ s.onlyIn t [.regs, .ecc])
    ∧ (∀ l, s.fb F.SWP_CTL_SRAM_EN = true → 0 < s.ecc.sramLeft → s.f F.SWP_SRAM_POS_REGION = 8 → s.f F.SWP_SRAM_POS_LINE + 1 = sweepLines 8 →
        ∃ t, exec (.sweepLine none none l false) s = .next t ∧ t.f F.SWP_SRAM_POS_LINE = 0 ∧ t.f F.SWP_SRAM_POS_REGION = 0 ∧ t.f F.SWP_PASSES_SRAM = (s.f F.SWP_PASSES_SRAM + 1) % 2 ^ 16 ∧
          bitAt (t.rd R.SWP_EVT).toNat 1 = true ∧ t.mem = s.mem ∧ t.grv = s.grv)
    ∧ (∀ (h : EccHit) (r cw n : Nat) (left : List Byte) (l : Option LineErr), s.fb F.SWP_CTL_SRAM_EN = true → 0 < s.ecc.sramLeft → r = s.f F.SWP_SRAM_POS_REGION → r ≤ 8 →
        cw = 2 * s.f F.SWP_SRAM_POS_LINE → cw < 2 ^ 24 → h.marks = 0 → s.poisoned r cw = false →
        eccOf r cw (s.cwData r cw) { h with cw := BitVec.ofNat 24 cw } = .corr n left → (∀ x ∈ left, x = 0) →
        ∃ t, exec (.sweepLine (some h) none l false) s = .next t ∧ t.f (F.ECC_CORR_COUNT r) = (s.f (F.ECC_CORR_COUNT r) + 1) % 2 ^ 32 ∧ (∀ c, t.poisoned r c = s.poisoned r c) ∧ t.mem = s.mem)
    ∧ (∀ (h : EccHit) (r cw : Nat) (l : Option LineErr), s.fb F.SWP_CTL_SRAM_EN = true → 0 < s.ecc.sramLeft → r = s.f F.SWP_SRAM_POS_REGION → r ≤ 8 →
        cw = 2 * s.f F.SWP_SRAM_POS_LINE → cw < 2 ^ 24 → h.marks = 0 → s.poisoned r cw = false →
        eccOf r cw (s.cwData r cw) { h with cw := BitVec.ofNat 24 cw } = .uncorr →
        ∃ t, exec (.sweepLine (some h) none l false) s = .next t ∧ t.poisoned r cw = true ∧ (∀ c, c ≠ cw → c < 2 ^ 24 → t.poisoned r c = s.poisoned r c) ∧
          t.f (F.ECC_UNCORR_COUNT r) = (s.f (F.ECC_UNCORR_COUNT r) + 1) % 2 ^ 32 ∧ bitAt (t.rd R.ECC_EVT).toNat 0 = true ∧ t.mem = s.mem)
    ∧ (∀ a b, s.fb F.SWP_CTL_CXL_EN = true → s.grvSt = grvServing ∨ s.grvSt = grvMigrating → 0 < s.ecc.cxlLeft → s.f F.SWP_CXL_POS_LINE + 1 < 4 * 2 ^ s.kInForce → s.kInForce ≤ 22 →
        (s.line s.region (s.f F.SWP_CXL_POS_LINE)).flips = [] →
        ∃ t, exec (.sweepLine a b none true) s = .next t ∧ t.f F.SWP_CXL_POS_LINE = s.f F.SWP_CXL_POS_LINE + 1 ∧
          t.ecc = { s.ecc with cxlLeft := s.ecc.cxlLeft - 1, cxlCarry := min s.ecc.cxlCarry (s.ecc.cxlLeft - 1) } ∧ s.onlyIn t [.regs, .ecc])
    ∧ (∀ a b, s.fb F.SWP_CTL_CXL_EN = true → s.grvSt = grvServing ∨ s.grvSt = grvMigrating → 0 < s.ecc.cxlLeft → s.f F.SWP_CXL_POS_LINE + 1 = 4 * 2 ^ s.kInForce →
        (s.line s.region (s.f F.SWP_CXL_POS_LINE)).flips = [] →
        ∃ t, exec (.sweepLine a b none true) s = .next t ∧ t.f F.SWP_CXL_POS_LINE = 0 ∧ t.f F.SWP_PASSES_GROVE = (s.f F.SWP_PASSES_GROVE + 1) % 2 ^ 16 ∧
          bitAt (t.rd R.SWP_EVT).toNat 1 = true ∧ t.grv = s.grv)
    ∧ (∀ a b fl, s.fb F.SWP_CTL_CXL_EN = true → s.grvSt = grvServing ∨ s.grvSt = grvMigrating → 0 < s.ecc.cxlLeft → (s.line s.region (s.f F.SWP_CXL_POS_LINE)).poison = false →
        ∃ t, exec (.sweepLine a b (some ⟨fl, true⟩) true) s = .next t ∧ (t.line s.region (s.f F.SWP_CXL_POS_LINE)).poison = true ∧ t.f F.GRV_ERR_ENTRY_INDEX = s.f F.SWP_CXL_POS_LINE ∧
          t.fb F.GRV_ERR_ENTRY_VALID = true ∧ bitAt (t.rd R.GRV_EVT).toNat 2 = true ∧ (∀ e, e ≠ s.f F.SWP_CXL_POS_LINE → e < 2 ^ 24 → t.line s.region e = s.line s.region e))
    ∧ (∀ a b fl (l : GrvLine) (e n : Nat), s.fb F.SWP_CTL_CXL_EN = true → s.grvSt = grvServing ∨ s.grvSt = grvMigrating → 0 < s.ecc.cxlLeft → e = s.f F.SWP_CXL_POS_LINE →
        l = s.line s.region e → l.poison = false → l.flips = [] → fl ≠ [] →
        lineDecode (s.lineBytes s.region e { l with flips := fl.map (fun (x : Fin 80 × Byte) => (x.1.val, x.2)) }) = some (s.lineBytes s.region e l, n) → 0 < n →
        ∃ t, exec (.sweepLine a b (some ⟨fl, false⟩) true) s = .next t ∧ t.line s.region e = s.sealLine s.region e ((l.lver + 1) % 65536) l.entry false ∧
          t.f (F.ECC_CORR_COUNT (10 + s.region)) = (s.f (F.ECC_CORR_COUNT (10 + s.region)) + 1) % 2 ^ 32 ∧ (∀ j, j ≠ e → j < 2 ^ 24 → t.line s.region j = s.line s.region j))

/-- An insert writes the entry, its VERSION 0: unpinned, in the line of the first free way of the candidate bucket with more free ways, or refused with TABLE_FULL where none can be made; pinned, in Copse alone. An
update of a pinned entry replaces its settings, counts its VERSION and keeps its frame state, VALID, PINNED and STATIC. A delete of a pinned entry leaves a NEGATIVE one for NEG_TTL crossings. A pin
moves the entry into Copse and clears its line. A lookup returns the entry as held and changes nothing but what reading its lines finds. LINE_CLEAR empties one line. MEM_ADD maps the device that
waits, and REBUILD starts with no line. -/
def Obligations.GroveCommands : Prop :=
  ∀ (s : State) (sl : Slot),
    (∀ u x, u = specGroveInsert.taken sl s → x = { GrvEntry.ofBytes (specGroveInsert.held sl s).entry with version := 0 } → specGroveInsert.starts sl s = true → x.pinnedFlag = false →
        ((u.groveWrite x).2 = false → exec (.cmdGroveInsert sl) s = .next (specGroveInsert.ends sl s tableFull (u.groveWrite x).1)) ∧
        (∀ v, (u.freeWays u.region (bucketsOf u.grv.hashKey u.kInForce x.mkey).1).head? = some v →
          (u.freeWays u.region (bucketsOf u.grv.hashKey u.kInForce x.mkey).2).length ≤ (u.freeWays u.region (bucketsOf u.grv.hashKey u.kInForce x.mkey).1).length →
          (∀ i w, u.way i = some w → w.st ≠ .dirty) → (∀ e ∈ u.keyLines x.mkey, (u.line u.region e).flips = []) →
          ∃ t, exec (.cmdGroveInsert sl) s = .next t ∧ (t.line s.region (4 * (bucketsOf u.grv.hashKey u.kInForce x.mkey).1 + v)).entry = x ∧
            (∀ e, e ≠ 4 * (bucketsOf u.grv.hashKey u.kInForce x.mkey).1 + v → t.line s.region e = s.line s.region e) ∧ t.keys = s.keys ∧ t.mem = s.mem ∧ t.cfg = s.cfg))
    ∧ (∀ u x v, u = specGroveInsert.taken sl s → x = { GrvEntry.ofBytes (specGroveInsert.held sl s).entry with version := 0 } → specGroveInsert.starts sl s = true → x.pinnedFlag = true →
        u.copseNow x.mkey = none → u.fillPlace x.mkey = (u, some v) →
        ∃ t, exec (.cmdGroveInsert sl) s = .next t ∧ t.way v = some (mkWay s .pinned x none) ∧ (∀ j, j ≠ v → t.way j = s.way j) ∧ t.grv.lines = s.grv.lines)
    ∧ (∀ (o : GrvEntry) (i : Nat) (w : CpsWay), specGroveUpdate.starts sl s = true → (specGroveUpdate.taken sl s).entryOf (specGroveUpdate.held sl s).mkey = some o → (specGroveUpdate.taken sl s).pinnedWay (specGroveUpdate.held sl s).mkey = some (i, w) →
        ∃ t, exec (.cmdGroveUpdate sl) s = .next t ∧
          t.way i = some { w with entry := updatedEntry o (GrvEntry.ofBytes (specGroveUpdate.held sl s).entry) (decide ((specGroveUpdate.held sl s).u 66 2 = 1)) } ∧
          (∀ j, j ≠ i → t.way j = s.way j) ∧ t.grv.lines = s.grv.lines ∧ t.mem = s.mem ∧ t.keys = s.keys)
    ∧ (∀ o n : GrvEntry, (updatedEntry o n false).version = (o.version + 1) % 65536 ∧ (updatedEntry o n false).action = n.action ∧ (updatedEntry o n false).tc = n.tc ∧
        (updatedEntry o n false).keySlot = n.keySlot ∧ (updatedEntry o n false).egress = n.egress ∧ (updatedEntry o n false).counter = n.counter ∧ (updatedEntry o n false).mtch = o.mtch ∧
        (updatedEntry o n false).prp = n.prp ∧ (updatedEntry o n false).hsr = n.hsr ∧ (updatedEntry o n false).verify = n.verify ∧ (updatedEntry o n false).macsecReq = n.macsecReq ∧
        (updatedEntry o n false).replay = n.replay ∧ (updatedEntry o n false).valid = o.valid ∧ (updatedEntry o n false).pinnedFlag = o.pinnedFlag ∧ (updatedEntry o n false).static = o.static ∧
        (updatedEntry o n false).seqValid = o.seqValid ∧ (updatedEntry o n false).replayBase = o.replayBase ∧ (updatedEntry o n false).replayWin = o.replayWin ∧
        (updatedEntry o n false).seqLast = o.seqLast ∧ (updatedEntry o n true).seqValid = n.seqValid ∧ (updatedEntry o n true).replayBase = n.replayBase ∧
        (updatedEntry o n true).replayWin = n.replayWin ∧ (updatedEntry o n true).seqBase = n.seqBase ∧ (updatedEntry o n true).seqLast = n.seqLast ∧ (updatedEntry o n true).seqWin = n.seqWin)
    ∧ (∀ (i : Nat) (w : CpsWay), specGroveDelete.starts sl s = true → (specGroveDelete.taken sl s).copseNow (specGroveDelete.held sl s).mkey = some (i, w) → w.st = .pinned → Tbl.wf (fun _ => none) s.grv.copse = true →
        0 < s.f F.CPS_CTL_NEG_TTL →
        ∃ t, exec (.cmdGroveDelete sl) s = .next t ∧ (∃ x, t.way i = some x ∧ x.st = .negative ∧ x.ttl = s.f F.CPS_CTL_NEG_TTL ∧ x.hold = s.grv.fills.map (·.id)) ∧
          (∀ j, j ≠ i → t.way j = s.way j))
    ∧ (specGroveDelete.starts sl s = true →
        exec (.cmdGroveDelete sl) s = .next (specGroveDelete.ends sl s (.ok []) ((specGroveDelete.taken sl s).deleteKey (specGroveDelete.held sl s).mkey)))
    ∧ (∀ (o : GrvEntry) (v : Nat), specGrovePin.starts sl s = true → (specGrovePin.taken sl s).entryOf (specGrovePin.held sl s).mkey = some o → (specGrovePin.taken sl s).copseNow (specGrovePin.held sl s).mkey = none →
        (∀ e ∈ s.keyLines (specGrovePin.held sl s).mkey, (s.line s.region e).flips = []) →
        (specGrovePin.taken sl s).fillPlace o.mkey = (specGrovePin.taken sl s, some v) →
        ∃ t, exec (.cmdGrovePin sl) s = .next t ∧ t.way v = some (mkWay s .pinned (o.setFl 1 true) none) ∧ (∀ j, j ≠ v → t.way j = s.way j) ∧
          t.grv.lines = (s.clearLine (specGrovePin.held sl s).mkey).grv.lines)
    ∧ (∀ (i : Nat) (w : CpsWay) (u : State) (ok : Bool), specGroveUnpin.starts sl s = true → (specGroveUnpin.taken sl s).pinnedWay (specGroveUnpin.held sl s).mkey = some (i, w) →
        (specGroveUnpin.taken sl s).groveWrite (w.entry.setFl 1 false) = (u, ok) →
        exec (.cmdGroveUnpin sl) s = .next (specGroveUnpin.ends sl s (if ok then .ok [] else tableFull) u))
    ∧ (specGroveLookup.starts sl s = true →
        exec (.cmdGroveLookup sl) s = .next (specGroveLookup.ends sl s (.ok (match (specGroveLookup.taken sl s).entryOf (specGroveLookup.held sl s).mkey with
          | none => List.replicate 65 0
          | some e => e.toBytes ++ toLe 1 (if e.static then 3 else if e.pinnedFlag then 2 else 1)))
          ((specGroveLookup.taken sl s).seeKey (specGroveLookup.held sl s).mkey)))
    ∧ (specGroveCounterRead.starts sl s = true →
        ∃ t, exec (.cmdGroveCounterRead sl) s = .next t ∧ t.ctrs = s.ctrs ∧ t.grv = s.grv ∧
          .hostWrite ((specGroveCounterRead.held sl s).buf 4).1 ((rangeFrom ((specGroveCounterRead.held sl s).u 0 2) ((specGroveCounterRead.held sl s).u 2 2)).flatMap (specGroveCounterRead.taken sl s).counterSet) ∈ t.out)
    ∧ (specGroveLineClear.starts sl s = true →
        ∃ t, exec (.cmdGroveLineClear sl) s = .next t ∧ t.line s.region ((specGroveLineClear.held sl s).u 0 4) =
            s.sealLine s.region ((specGroveLineClear.held sl s).u 0 4) (((s.line s.region ((specGroveLineClear.held sl s).u 0 4)).lver + 1) % 65536) GrvEntry.empty false ∧
          (∀ e, e < 2 ^ 24 → e ≠ (specGroveLineClear.held sl s).u 0 4 → t.line s.region e = s.line s.region e) ∧ t.keys = s.keys ∧ t.mem = s.mem)
    ∧ (specGroveMemAdd.starts sl s = true →
        ∃ t, exec (.cmdGroveMemAdd sl) s = .next t ∧
          t.link ((specGroveMemAdd.held sl s).u 0 1) = { s.link ((specGroveMemAdd.held sl s).u 0 1) with awaiting := false, mapped := true } ∧
          (∀ j, j ≠ (specGroveMemAdd.held sl s).u 0 1 → t.link j = s.link j) ∧ t.grvSt = s.grvSt ∧ t.grv.lines = s.grv.lines)
    ∧ (specGroveRebuild.starts sl s = true →
        ∃ t, exec (.cmdGroveRebuild sl) s = .next t ∧ t.grvSt = grvBuilding ∧ t.grv.lines = [] ∧ t.grv.mig = none ∧ t.kInForce = kOf (s.f F.GRV_CTL_BKT_LOG2) ∧ t.grv.copse = s.grv.copse ∧
          t.mem = s.mem ∧ t.keys = s.keys)

/-- CMD_APP_LOAD stores a signed image in the lowest free run of sectors and the applet is LOADED. CMD_APP_START lets it run where it fits: its channels are granted to its compartment and its endpoints, its
sources are enabled, and the pair enters ENTRY with pcc over the code alone, csp over the stack, and every other register null. CMD_APP_STOP takes the channels back, disables the sources and clears the memory, no
byte or tag left. CMD_APP_DELETE removes it. CMD_APP_LIST counts the applets; CMD_APP_MSG passes on what the applet answers, or refuses a buffer that is too short, after the exchange with a
badge that the applet makes where its grant names the field interface in MODE 2. No command touches another applet. -/
def Obligations.Applets : Prop :=
  ∀ (s : State) (sl : Slot),
    (∀ u x, u = specAppLoad.taken sl s → specAppLoad.starts sl s = true → u.storeRun (appOf ((specAppLoad.held sl s).inp 0 0)).sectors = some x →
        ∃ t, exec (.cmdAppLoad sl) s = .next t ∧ t.app u.freeApp = some { appOf ((specAppLoad.held sl s).inp 0 0) with sector := x } ∧
          (∀ i, i ≠ u.freeApp → t.app i = s.app i) ∧ t.mem = s.mem ∧ t.pairs = s.pairs ∧ t.keys = s.keys)
    ∧ (∀ u v, u = specAppStart.taken sl s → specAppStart.starts sl s = true → u.appStart ((specAppStart.held sl s).u 0 2) ((specAppStart.held sl s).u 2 1) = some v →
        exec (.cmdAppStart sl) s = .next (specAppStart.ends sl s (.ok []) v))
    ∧ (∀ (a : App) (id : BitVec 16) (core : Fin 4) (t : State), s.app id.toNat = some a → s.appStart id.toNat core.val = some t →
        ∃ b, t.app id.toNat = some b ∧ b.st = apRunning ∧ b.core = core.val ∧ b.chans = s.freeChans.take a.dmaCh ∧ b.chans.length = a.dmaCh ∧
          (∀ n ∈ b.chans, s.fb (F.DMA_GRANT_ASSIGNED n) = false ∧ t.fb (F.DMA_GRANT_ASSIGNED n) = true ∧ t.f (F.DMA_GRANT_OWNER n) = id.toNat ∧ t.f (F.DMA_GRANT_EP n) = a.dmaEp % 16) ∧
          (∀ i, i < 24 → bitAt a.irqMask i = true → t.fb (F.DEV_IRQ_CFG_EN (256 * (core.val + 1) + (32 + i))) = true) ∧
          t.pr (core.val + 1) = (s.pr (core.val + 1)).enterApp b ∧ (∀ k, k ≠ core.val + 1 → t.pr k = s.pr k) ∧ (∀ i, i ≠ id.toNat → t.app i = s.app i) ∧
          tcmBase (core.val + 1) + 0x10000 ≤ b.mem ∧ b.mem + b.codeRoom ≤ tcmBase (core.val + 1) + 0x80000 ∧
          tcmBase (core.val + 1) + 0x10000 ≤ b.dmem ∧ b.dmem + b.dataRoom ≤ tcmBase (core.val + 1) + 0x80000 ∧ (b.dmem + b.dataRoom ≤ b.mem ∨ b.mem + b.codeRoom ≤ b.dmem))
    ∧ (∀ (p : Pair) (a : App), (p.enterApp a).scret = CReg.null ∧ (p.enterApp a).ecp = p.ecp ∧ (p.enterApp a).scentry = p.scentry ∧ (p.enterApp a).scsp = p.scsp ∧
        (∀ i, i ≠ 15 → (p.enterApp a).reg i = CReg.null) ∧ (p.enterApp a).wfi = false ∧ (p.enterApp a).repi = none ∧ (p.enterApp a).stall = none)
    ∧ (∀ a : App, specAppStop.starts sl s = true → (specAppStop.taken sl s).app ((specAppStop.held sl s).u 0 2) = some a → a.core < 4 → (∀ n ∈ a.chans, n < 64) →
        ∃ t, exec (.cmdAppStop sl) s = .next t ∧ t.app ((specAppStop.held sl s).u 0 2) = some { a with st := apStopped, chans := [] } ∧
          (∀ i, i ≠ (specAppStop.held sl s).u 0 2 → t.app i = s.app i) ∧
          (∀ x, a.mem ≤ x → x < a.mem + a.codeRoom → t.memB x = 0 ∧ t.tagAt x = false) ∧ (∀ x, a.dmem ≤ x → x < a.dmem + a.dataRoom → t.memB x = 0 ∧ t.tagAt x = false) ∧
          (∀ n ∈ a.chans, t.fb (F.DMA_GRANT_ASSIGNED n) = false ∧ t.f (F.DMA_GRANT_OWNER n) = 0 ∧ t.ch n = DmaCh.idle ∧ t.fb (F.DMA_CTL_EN n) = false) ∧
          (∀ i, i < 24 → bitAt a.irqMask i = true → t.fb (F.DEV_IRQ_CFG_EN (256 * (a.core + 1) + (32 + i))) = false) ∧ t.keys = s.keys)
    ∧ (specAppDelete.starts sl s = true →
        ∃ t, exec (.cmdAppDelete sl) s = .next t ∧ t.app ((specAppDelete.held sl s).u 0 2) = none ∧ (∀ i, i ≠ (specAppDelete.held sl s).u 0 2 → t.app i = s.app i) ∧ t.mem = s.mem ∧
          t.pairs = s.pairs ∧ t.keys = s.keys)
    ∧ (specAppList.starts sl s = true →
        ∃ t, exec (.cmdAppList sl) s = .next t ∧ t.apps = s.apps ∧ t.mem = s.mem ∧ t.nv = s.nv ∧
          (s.cul.bme = true → specAppList.replied sl s (.ok (toLe 2 s.appList.length)) t))
    ∧ (∀ (reply : List Byte) (badge : Option BadgeRun) (a : App) (u : State), (specAppMsg reply badge).starts sl s = true →
        ((specAppMsg reply badge).taken sl s).app (((specAppMsg reply badge).held sl s).u 0 2) = some a →
        (badge = none ∨ a.mayField = false) ∧ u = (specAppMsg reply badge).taken sl s ∨
          (∃ b, badge = some b ∧ a.mayField = true ∧ u = ((specAppMsg reply badge).taken sl s).badgeExchange b) →
        ((((specAppMsg reply badge).held sl s).buf 12).2 < reply.length →
          exec (.cmdAppMsg sl reply badge) s = .next ((specAppMsg reply badge).ends sl s (badField 12) u)) ∧
        (reply.length ≤ (((specAppMsg reply badge).held sl s).buf 12).2 →
          exec (.cmdAppMsg sl reply badge) s = .next ((specAppMsg reply badge).ends sl s (.ok (toLe 4 reply.length))
            (u.putBuf ((specAppMsg reply badge).held sl s) 12 reply))))
    ∧ (∀ b : BadgeRun, s.f F.FLD_CTL_MODE ≠ 2 → s.badgeExchange b = s)
    ∧ (∀ b : BadgeRun, s.onlyIn (s.badgeExchange b) [.out])

/-- Each integer instruction that issues writes its result to bits 63:0 of c_rd with the tag clear and bits 127:64 zero, poisoned where a source is, moves pcc on by 4 and changes nothing else; c0 stays null. Operands are
bits 63:0 of the sources whatever their tags. The results are those of Table ISA-9; division is by a divisor other than 0 here. -/
def Obligations.IntegerResults : Prop :=
  ∀ (s : State) (k : Issue) (rd a b : Fin 16) (m : BitVec 12) (n : BitVec 6) (u : BitVec 22) (x y : BitVec 64) (p q : Bool), s.issues k →
    x = ((s.pr k.val).reg a.val).v.setWidth 64 → y = ((s.pr k.val).reg b.val).v.setWidth 64 → p = ((s.pr k.val).reg a.val).poison → q = ((s.pr k.val).reg b.val).poison →
    (∃ t, exec (.add k rd a b) s = .next t ∧ s.gives t k rd (CReg.int (x + y) (p || q)))
    ∧ (∃ t, exec (.sub k rd a b) s = .next t ∧ s.gives t k rd (CReg.int (x - y) (p || q)))
    ∧ (∃ t, exec (.and k rd a b) s = .next t ∧ s.gives t k rd (CReg.int (x &&& y) (p || q)))
    ∧ (∃ t, exec (.or k rd a b) s = .next t ∧ s.gives t k rd (CReg.int (x ||| y) (p || q)))
    ∧ (∃ t, exec (.xor k rd a b) s = .next t ∧ s.gives t k rd (CReg.int (x ^^^ y) (p || q)))
    ∧ (∃ t, exec (.shl k rd a b) s = .next t ∧ s.gives t k rd (CReg.int (x <<< (y.toNat % 64)) (p || q)))
    ∧ (∃ t, exec (.shr k rd a b) s = .next t ∧ s.gives t k rd (CReg.int (x >>> (y.toNat % 64)) (p || q)))
    ∧ (∃ t, exec (.sar k rd a b) s = .next t ∧ s.gives t k rd (CReg.int (x.sshiftRight (y.toNat % 64)) (p || q)))
    ∧ (∃ t, exec (.slt k rd a b) s = .next t ∧ s.gives t k rd (CReg.int (if x.slt y then 1 else 0) (p || q)))
    ∧ (∃ t, exec (.sltu k rd a b) s = .next t ∧ s.gives t k rd (CReg.int (if x.ult y then 1 else 0) (p || q)))
    ∧ (∃ t, exec (.mul k rd a b) s = .next t ∧ s.gives t k rd (CReg.int (x * y) (p || q)))
    ∧ (∃ t, exec (.mulhu k rd a b) s = .next t ∧ s.gives t k rd (CReg.int ((x.setWidth 128 * y.setWidth 128) >>> 64 |>.setWidth 64) (p || q)))
    ∧ (∃ t, exec (.mulhs k rd a b) s = .next t ∧ s.gives t k rd (CReg.int ((x.signExtend 128 * y.signExtend 128) >>> 64 |>.setWidth 64) (p || q)))
    ∧ (y ≠ 0 → (∃ t, exec (.divu k rd a b) s = .next t ∧ s.gives t k rd (CReg.int (BitVec.ofNat 64 (x.toNat / y.toNat)) (p || q)))
      ∧ (∃ t, exec (.remu k rd a b) s = .next t ∧ s.gives t k rd (CReg.int (BitVec.ofNat 64 (x.toNat % y.toNat)) (p || q)))
      ∧ (∃ t, exec (.divs k rd a b) s = .next t ∧ s.gives t k rd (CReg.int (x.sdiv y) (p || q)))
      ∧ (∃ t, exec (.rems k rd a b) s = .next t ∧ s.gives t k rd (CReg.int (x.srem y) (p || q))))
    ∧ (∃ t, exec (.addi k rd a m) s = .next t ∧ s.gives t k rd (CReg.int (x + m.signExtend 64) p))
    ∧ (∃ t, exec (.andi k rd a m) s = .next t ∧ s.gives t k rd (CReg.int (x &&& m.signExtend 64) p))
    ∧ (∃ t, exec (.ori k rd a m) s = .next t ∧ s.gives t k rd (CReg.int (x ||| m.signExtend 64) p))
    ∧ (∃ t, exec (.xori k rd a m) s = .next t ∧ s.gives t k rd (CReg.int (x ^^^ m.signExtend 64) p))
    ∧ (∃ t, exec (.slti k rd a m) s = .next t ∧ s.gives t k rd (CReg.int (if x.slt (m.signExtend 64) then 1 else 0) p))
    ∧ (∃ t, exec (.sltui k rd a m) s = .next t ∧ s.gives t k rd (CReg.int (if x.ult (m.signExtend 64) then 1 else 0) p))
    ∧ (∃ t, exec (.shli k rd a n) s = .next t ∧ s.gives t k rd (CReg.int (x <<< n.toNat) p))
    ∧ (∃ t, exec (.shri k rd a n) s = .next t ∧ s.gives t k rd (CReg.int (x >>> n.toNat) p))
    ∧ (∃ t, exec (.sari k rd a n) s = .next t ∧ s.gives t k rd (CReg.int (x.sshiftRight n.toNat) p))
    ∧ (∃ t, exec (.li k rd u) s = .next t ∧ s.gives t k rd (CReg.int (u.signExtend 64) false))
    ∧ (∃ t, exec (.lis k a u) s = .next t ∧ s.gives t k a (CReg.int ((x <<< 22) ||| u.setWidth 64) p))

/-- DIVU by 0 gives 2^64 − 1, and REMU by 0 gives the dividend. DIVS by 0 gives −1, and REMS by 0 gives the dividend. DIVS of −2^63 by −1 gives −2^63, and REMS gives 0. No integer instruction faults: one that
issues moves pcc on by 4 and enters no handler. -/
def Obligations.DivisionCorners : Prop :=
  ∀ (s : State) (k : Issue), s.issues k →
    (∀ (rd a b : Fin 16) (x y : BitVec 64) (p : Bool), x = ((s.pr k.val).reg a.val).lo → y = ((s.pr k.val).reg b.val).lo →
      p = (((s.pr k.val).reg a.val).poison || ((s.pr k.val).reg b.val).poison) →
      (y = 0 →
        (∃ t, exec (.divu k rd a b) s = .next t ∧ s.gives t k rd (CReg.int (BitVec.ofNat 64 (2 ^ 64 - 1)) p))
        ∧ (∃ t, exec (.remu k rd a b) s = .next t ∧ s.gives t k rd (CReg.int x p))
        ∧ (∃ t, exec (.divs k rd a b) s = .next t ∧ s.gives t k rd (CReg.int (BitVec.ofInt 64 (-1)) p))
        ∧ (∃ t, exec (.rems k rd a b) s = .next t ∧ s.gives t k rd (CReg.int x p)))
      ∧ (x.toInt = -2 ^ 63 → y.toInt = -1 →
        (∃ t, exec (.divs k rd a b) s = .next t ∧ s.gives t k rd (CReg.int (BitVec.ofInt 64 (-2 ^ 63)) p))
        ∧ (∃ t, exec (.rems k rd a b) s = .next t ∧ s.gives t k rd (CReg.int 0 p))))
    ∧ (∀ i : Instr, isInteger i k = true →
        ∃ t, exec i s = .next t ∧ (t.pr k.val).pcc = (s.pr k.val).pcc.setAddr ((s.pr k.val).pcc.addr + 4) ∧ (s.pr k.val).sameRest (t.pr k.val) ∧
          (∀ j, j ≠ k.val → t.pr j = s.pr j) ∧ s.onlyIn t [.pairs])

/-- CADDR and CADDI give c_rs1 with the new address, taken modulo 2^64. A tagged capability keeps its tag exactly when it is unsealed and the new address lies in its span or one past its end; Z, LO, HI, PERMS and
OTYPE are kept, POS is (floor(a / h) * h - s) / h, and base and top decode unchanged. An untagged value stays untagged, with its other bits. Every address from base to top inclusive, and of the span below base, keeps the tag of a legal
unsealed capability; an address outside the span other than the one just past its end does not. -/
def Obligations.AddressChange : Prop :=
  (∀ (s : State) (k : Issue) (rd a b : Fin 16) (m : BitVec 12), s.issues k →
      (∃ t, exec (.caddr k rd a b) s = .next t ∧ s.gives t k rd
        { ((s.pr k.val).reg a.val).setAddr ((s.pr k.val).reg b.val).addr with poison := ((s.pr k.val).reg a.val).poison || ((s.pr k.val).reg b.val).poison })
      ∧ (∃ t, exec (.caddi k rd a m) s = .next t ∧ s.gives t k rd
        (((s.pr k.val).reg a.val).setAddr ((((s.pr k.val).reg a.val).lo + m.signExtend 64).toNat))))
  ∧ (∀ (c : CReg) (a : Nat), a < 2 ^ 64 →
      (c.setAddr a).addr = a ∧ (c.setAddr a).poison = c.poison ∧ (c.setAddr a).zc = c.zc ∧ (c.setAddr a).loU = c.loU ∧ (c.setAddr a).hiU = c.hiU ∧ (c.setAddr a).perms = c.perms ∧
      (c.setAddr a).otype = c.otype
      ∧ ((c.setAddr a).tag = true ↔ c.tag = true ∧ c.otype = 0 ∧ c.spanStart ≤ (a : Int) ∧ (a : Int) ≤ c.spanStart + (2 ^ c.spanLog : Nat))
      ∧ ((c.setAddr a).tag = true → (c.setAddr a).base = c.base ∧ (c.setAddr a).top = c.top ∧ (c.setAddr a).spanStart = c.spanStart ∧
          ((c.setAddr a).pos : Int) * (c.half : Int) = ((a / c.half * c.half : Nat) : Int) - c.spanStart)
      ∧ (c.tag = true → c.otype = 0 → c.Legal → c.base ≤ (a : Int) → (a : Int) ≤ c.top → (c.setAddr a).tag = true)
      ∧ (c.tag = true → c.otype = 0 → c.spanStart ≤ (a : Int) → (a : Int) < c.base → c.Legal → (c.setAddr a).tag = true)
      ∧ ((a : Int) < c.spanStart ∨ c.spanStart + (2 ^ c.spanLog : Nat) < (a : Int) → (c.setAddr a).tag = false))

/-- Each capability instruction that issues writes c_rd, moves pcc on by 4 and changes nothing else. CMV and CSTRIP keep the bits; CDROP removes the permissions named and clears the tag of a sealed one; CCLIP gives
bounds that hold the range asked for and lie within the old, exact up to 8,192 bytes; CCLIPX is tagged only where they are exact; CBIND seals with the type that the authority's address names, where it holds
SEAL over it; CUNBIND unseals a type inside the authority's bounds, without GLOBAL where the authority lacks it. CWITHIN, CSAME and CINSP give integers; a CINSP selector above 7 raises ILLEGAL. -/
def Obligations.CapabilityResults : Prop :=
  (∀ (s : State) (k : Issue) (rd a b : Fin 16) (sel : BitVec 12) (x y : CReg) (p : Bool), s.issues k → x = (s.pr k.val).reg a.val → y = (s.pr k.val).reg b.val →
      p = (x.poison || y.poison) →
      (∃ t, exec (.cmv k rd a) s = .next t ∧ s.gives t k rd x)
      ∧ (∃ t, exec (.cstrip k rd a) s = .next t ∧ s.gives t k rd { x with tag := false })
      ∧ (∃ t, exec (.cdrop k rd a b) s = .next t ∧ s.gives t k rd { x.drop y.addr with poison := p })
      ∧ (∃ t, exec (.cclip k rd a b) s = .next t ∧ s.gives t k rd { x.clip y.addr with poison := p })
      ∧ (∃ t, exec (.cclipx k rd a b) s = .next t ∧ s.gives t k rd { x.clipx y.addr with poison := p })
      ∧ (∃ t, exec (.cbind k rd a b) s = .next t ∧ s.gives t k rd { x.bind y with poison := p })
      ∧ (∃ t, exec (.cunbind k rd a b) s = .next t ∧ s.gives t k rd { x.unbind y with poison := p })
      ∧ (∃ t, exec (.cwithin k rd a b) s = .next t ∧
          s.gives t k rd (CReg.int (if x.tag = true ∧ y.tag = true ∧ x.base ≤ y.base ∧ y.top ≤ x.top ∧ x.perms &&& y.perms = y.perms then 1 else 0) p))
      ∧ (∃ t, exec (.csame k rd a b) s = .next t ∧ s.gives t k rd (CReg.int (if x.tag = y.tag ∧ x.v = y.v then 1 else 0) p))
      ∧ (sel.toNat ≤ 7 → ∃ t, exec (.cinsp k rd a sel) s = .next t ∧ s.gives t k rd (CReg.int (x.inspect sel.toNat) x.poison))
      ∧ (7 < sel.toNat → exec (.cinsp k rd a sel) s = .next (s.enter k.val 0x01 0 (encI 0x21 rd.val a.val 0 sel.toNat).toNat none)))
  ∧ (∀ (c : CReg) (n : Nat),
      (c.drop n).addr = c.addr ∧ (c.drop n).base = c.base ∧ (c.drop n).top = c.top ∧ (∀ i, i < 16 → (bitAt (c.drop n).perms i = true ↔ bitAt c.perms i = true ∧ bitAt n i = false)) ∧
      ((c.drop n).tag = true ↔ c.tag = true ∧ c.otype = 0)
      ∧ ((c.clip n).tag = true → (c.clip n).addr = c.addr ∧ (c.clip n).perms = c.perms ∧ (c.clip n).otype = 0 ∧ c.base ≤ (c.clip n).base ∧ (c.clip n).base ≤ (c.addr : Int) ∧
          ((c.addr + n : Nat) : Int) ≤ (c.clip n).top ∧ (c.clip n).top ≤ c.top)
      ∧ (1 ≤ n → n ≤ 8192 → c.addr + n ≤ 2 ^ 64 → (c.clip n).base = (c.addr : Int) ∧ (c.clip n).top = ((c.addr + n : Nat) : Int))
      ∧ ((c.clipx n).tag = true ↔ (c.clip n).tag = true ∧ (c.clip n).base = (c.addr : Int) ∧ (c.clip n).top = ((c.addr + n : Nat) : Int)))
  ∧ (∀ a b : CReg,
      ((a.bind b).tag = true ↔ a.tag = true ∧ a.otype = 0 ∧ b.tag = true ∧ b.otype = 0 ∧ bitAt b.perms 5 = true ∧ b.base ≤ (b.addr : Int) ∧ (b.addr : Int) < b.top ∧ 16 ≤ b.addr ∧ b.addr ≤ 4095)
      ∧ ((a.bind b).tag = true → (a.bind b).otype = b.addr ∧ (a.bind b).perms = a.perms ∧ (a.bind b).base = a.base ∧ (a.bind b).top = a.top ∧ (a.bind b).addr = a.addr)
      ∧ ((a.unbind b).tag = true ↔ a.tag = true ∧ 16 ≤ a.otype ∧ b.tag = true ∧ b.otype = 0 ∧ bitAt b.perms 6 = true ∧ b.base ≤ (a.otype : Int) ∧ (a.otype : Int) < b.top)
      ∧ (a.unbind b).otype = 0 ∧ (a.unbind b).base = a.base ∧ (a.unbind b).top = a.top ∧ (a.unbind b).addr = a.addr
      ∧ (∀ i, i < 16 → (bitAt (a.unbind b).perms i = true ↔ bitAt a.perms i = true ∧ (i = 10 → bitAt b.perms 10 = true)))
      ∧ (a.Legal → (a.bind b).Legal ∧ (a.unbind b).Legal))
  ∧ CReg.root.Legal ∧ CReg.root.base = 0 ∧ CReg.root.top = (2 ^ 64 : Nat)
  ∧ (∀ (c : CReg) (n : Nat), c.Legal → (c.drop n).Legal ∧ ((c.clip n).tag = true → (c.clip n).Legal) ∧ ((c.setAddr n).tag = true → (c.setAddr n).Legal))

/-- LD and ST form their address in one of the modes of Table ISA-7 and fault as R302 orders, changing nothing but the entry. A load gives c_rt the bytes, extended by their size, or a capability whose tag needs
LOADCAP, on-chip memory and no poison; the base register of modes 1 and 2 moves. A store to on-chip memory writes its bytes and no other, and clears the granule's tag unless it stores a capability that R299 and
R325 let keep it. A poisoned store off chip faults. An undefined form raises ILLEGAL. An access to a domain that is not ON wakes it and the pair waits. LEA makes no access. -/
def Obligations.LoadsAndStores : Prop :=
  ∀ (s : State) (k : Issue) (rt rb : Fin 16) (mode size : Fin 8) (low : BitVec 12) (x : AccIn), s.issues k →
    (memFormOk true mode.val size.val low.toNat = false →
        exec (.ld k rt rb mode size low x) s = .next (s.enter k.val 0x01 0 (encM 8 rt.val rb.val mode.val size.val low.toNat).toNat none))
    ∧ (memFormOk false mode.val size.val low.toNat = false →
        exec (.st k rt rb mode size low x) s = .next (s.enter k.val 0x01 0 (encM 9 rt.val rb.val mode.val size.val low.toNat).toNat none) ∧
        exec (.lea k rt rb mode size low) s = .next (s.enter k.val 0x01 0 (encM 10 rt.val rb.val mode.val size.val low.toNat).toNat none))
    ∧ (memFormOk true mode.val size.val low.toNat = true → mode.val ≠ 4 → ((s.pr k.val).reg rb.val).poison = true →
        exec (.ld k rt rb mode size low x) s = .next (s.enter k.val 0x0F 0 rb.val none))
    ∧ (∀ (e : EffAddr) (c : Nat), memFormOk true mode.val size.val low.toNat = true → (s.pr k.val).effAddr rb.val mode.val size.val low.toNat = .ok e →
        (s.pr k.val).check e.auth e.x (sizeBytes size.val) 1 = some c →
        exec (.ld k rt rb mode size low x) s = .next (s.enter k.val c 1 e.x none))
    ∧ (∀ (e : EffAddr) (c : Nat), memFormOk false mode.val size.val low.toNat = true → (s.pr k.val).effAddr rb.val mode.val size.val low.toNat = .ok e →
        (s.pr k.val).check e.auth e.x (sizeBytes size.val) 2 = some c →
        exec (.st k rt rb mode size low x) s = .next (s.enter k.val c 2 e.x none))
    ∧ (∀ (e : EffAddr) (d y : Nat), memFormOk true mode.val size.val low.toNat = true → (s.pr k.val).effAddr rb.val mode.val size.val low.toNat = .ok e →
        (s.pr k.val).check e.auth e.x (sizeBytes size.val) 1 = none → s.busCheck e.x (sizeBytes size.val) 1 = .stall d y 1 →
        exec (.ld k rt rb mode size low x) s = .next (if d ∈ s.pwr.stuck then s.enter k.val 0x08 1 y none else s.coreStall k.val d y 1))
    ∧ (∀ (e : EffAddr) (bs : List Byte) (bad : Bool) (u : State), memFormOk true mode.val size.val low.toNat = true → (s.pr k.val).effAddr rb.val mode.val size.val low.toNat = .ok e →
        (s.pr k.val).check e.auth e.x (sizeBytes size.val) 1 = none → s.busCheck e.x (sizeBytes size.val) 1 = .ok () →
        s.coreRead k.val e.x (sizeBytes size.val) x = .ok (bs, bad, u) → u.pr k.val = s.pr k.val → rt ≠ rb ∨ e.back = none →
        ∃ t, exec (.ld k rt rb mode size low x) s = .next t ∧ u.onlyIn t [.pairs] ∧ (∀ j, j ≠ k.val → t.pr j = u.pr j) ∧
          (t.pr k.val).pcc = (s.pr k.val).pcc.setAddr ((s.pr k.val).pcc.addr + 4) ∧ (s.pr k.val).sameRest (t.pr k.val) ∧
          (rt.val ≠ 0 → (t.pr k.val).reg rt.val =
            (if size.val = 4 then capOf bs bad (s.tagAt e.x && onChip e.x && e.auth.has 8) else loadInt size.val bs bad)) ∧
          (∀ i, i ≠ rt.val → i ≠ rb.val → (t.pr k.val).reg i = (s.pr k.val).reg i) ∧
          (rb ≠ rt → rb.val ≠ 0 → (t.pr k.val).reg rb.val = (match e.back with | some a => ((s.pr k.val).reg rb.val).setAddr a | none => (s.pr k.val).reg rb.val)))
    ∧ (∀ y n : Nat, x.ecc = [] → onChip y = true → s.coreRead k.val y n x = .ok (s.memRead y n, s.spanBad y n, s))
    ∧ (∀ e : EffAddr, memFormOk false mode.val size.val low.toNat = true → (s.pr k.val).effAddr rb.val mode.val size.val low.toNat = .ok e →
        (s.pr k.val).check e.auth e.x (sizeBytes size.val) 2 = none → s.busCheck e.x (sizeBytes size.val) 2 = .ok () → ((s.pr k.val).reg rt.val).poison = true → onChip e.x = false →
        ¬(size.val = 4 ∧ ((s.pr k.val).reg rt.val).tag = true ∧ e.auth.has 16 = false) →
        exec (.st k rt rb mode size low x) s = .next (s.enter k.val 0x0F 0 rt.val none))
    ∧ (∀ e : EffAddr, memFormOk false mode.val size.val low.toNat = true → (s.pr k.val).effAddr rb.val mode.val size.val low.toNat = .ok e →
        (s.pr k.val).check e.auth e.x (sizeBytes size.val) 2 = none → size.val = 4 → ((s.pr k.val).reg rt.val).tag = true → e.auth.has 16 = false →
        exec (.st k rt rb mode size low x) s = .next (s.enter k.val 0x04 2 e.x none))
    ∧ (∀ e : EffAddr, memFormOk false mode.val size.val low.toNat = true → (s.pr k.val).effAddr rb.val mode.val size.val low.toNat = .ok e →
        (s.pr k.val).check e.auth e.x (sizeBytes size.val) 2 = none → s.busCheck e.x (sizeBytes size.val) 2 = .ok () → onChip e.x = true →
        ¬(size.val = 4 ∧ ((s.pr k.val).reg rt.val).tag = true ∧ e.auth.has 16 = false) →
        ∃ t, exec (.st k rt rb mode size low x) s = .next t ∧ s.onlyIn t [.pairs, .mem, .tags, .ecc] ∧ (∀ j, j ≠ k.val → t.pr j = s.pr j) ∧
          (∀ j, j < sizeBytes size.val → t.memB (e.x + j) = BitVec.ofNat 8 (((s.pr k.val).reg rt.val).v.toNat / 2 ^ (8 * j))) ∧
          (∀ y, y < e.x ∨ e.x + sizeBytes size.val ≤ y → t.memB y = s.memB y) ∧
          t.tagAt e.x = (decide (size.val = 4) && keepsTag k.val e.x ((s.pr k.val).reg rt.val) && decide (((s.pr k.val).reg rt.val).otype ∉ [1, 2, 4])) ∧
          (∀ y, y / 16 ≠ e.x / 16 → t.tagAt y = s.tagAt y) ∧
          (((s.pr k.val).reg rt.val).poison = true → t.poisonAt e.x = true) ∧
          (t.pr k.val).pcc = (s.pr k.val).pcc.setAddr ((s.pr k.val).pcc.addr + 4) ∧ (s.pr k.val).sameRest (t.pr k.val) ∧
          (∀ i, i ≠ rb.val → (t.pr k.val).reg i = (s.pr k.val).reg i) ∧
          (rb.val ≠ 0 → (t.pr k.val).reg rb.val = (match e.back with | some a => ((s.pr k.val).reg rb.val).setAddr a | none => (s.pr k.val).reg rb.val)))
    ∧ (∀ e : EffAddr, memFormOk false mode.val size.val low.toNat = true → mode.val ≠ 1 → mode.val ≠ 2 → (s.pr k.val).effAddr rb.val mode.val size.val low.toNat = .ok e →
        ∃ t, exec (.lea k rt rb mode size low) s = .next t ∧ s.gives t k rt (e.auth.setAddr e.x))
    ∧ (∀ e : EffAddr, memFormOk false mode.val size.val low.toNat = true → mode.val = 1 ∨ mode.val = 2 → rt ≠ rb → (s.pr k.val).effAddr rb.val mode.val size.val low.toNat = .ok e →
        ∃ t, exec (.lea k rt rb mode size low) s = .next t ∧ s.onlyIn t [.pairs] ∧ (rt.val ≠ 0 → (t.pr k.val).reg rt.val = ((s.pr k.val).reg rb.val).setAddr e.x) ∧
          (rb.val ≠ 0 → ∃ a, e.back = some a ∧ (t.pr k.val).reg rb.val = ((s.pr k.val).reg rb.val).setAddr a))

/-- CAS, SWAP and AMOADD give c_rd the doubleword that stood at the address and write it as R307 gives, CAS only where it equals c_rd; they fault as R302 orders, with BUS off chip. MCPY copies one element between two
places in on-chip memory and moves both pointers by its size. No other byte, register or pair changes. -/
def Obligations.AtomicsAndCopy : Prop :=
  ∀ (s : State) (k : Issue) (rd a b : Fin 16) (x y : AccIn) (p q old : BitVec 64) (ad : Nat), s.issues k → p = ((s.pr k.val).reg rd.val).lo → q = ((s.pr k.val).reg b.val).lo →
    ad = ((s.pr k.val).reg a.val).addr → old = BitVec.ofNat 64 (leNat (s.memRead ad 8)) →
    (∀ i, i = Instr.cas k rd a b x ∨ i = Instr.swap k rd a b x ∨ i = Instr.amoadd k rd a b x →
        (((s.pr k.val).reg a.val).poison = true → exec i s = .next (s.enter k.val 0x0F 0 a.val none))
        ∧ (∀ c, ((s.pr k.val).reg a.val).poison = false → (s.pr k.val).check ((s.pr k.val).reg a.val) ad 8 3 = some c → exec i s = .next (s.enter k.val c 2 ad none))
        ∧ (((s.pr k.val).reg a.val).poison = false → (s.pr k.val).check ((s.pr k.val).reg a.val) ad 8 3 = none → onChip ad = false → exec i s = .next (s.enter k.val 0x08 2 ad none))
        ∧ (((s.pr k.val).reg a.val).poison = false → (s.pr k.val).check ((s.pr k.val).reg a.val) ad 8 3 = none → onChip ad = true → s.busCheck ad 8 2 = .ok () → x.ecc = [] →
            ∃ t, exec i s = .next t ∧ s.onlyIn t [.pairs, .mem, .tags, .ecc] ∧ (∀ j, j ≠ k.val → t.pr j = s.pr j) ∧ (s.pr k.val).sameRest (t.pr k.val) ∧
              (t.pr k.val).pcc = (s.pr k.val).pcc.setAddr ((s.pr k.val).pcc.addr + 4) ∧ (∀ j, j ≠ rd.val → (t.pr k.val).reg j = (s.pr k.val).reg j) ∧
              (rd.val ≠ 0 → ((t.pr k.val).reg rd.val).lo = old ∧ ((t.pr k.val).reg rd.val).tag = false) ∧
              (∀ z, z < ad ∨ ad + 8 ≤ z → t.memB z = s.memB z) ∧ (∀ z, z / 16 ≠ ad / 16 → t.tagAt z = s.tagAt z)))
    ∧ (((s.pr k.val).reg a.val).poison = false → (s.pr k.val).check ((s.pr k.val).reg a.val) ad 8 3 = none → onChip ad = true → s.busCheck ad 8 2 = .ok () → x.ecc = [] →
        (∀ t, exec (.cas k rd a b x) s = .next t → t.memRead ad 8 = (if old = p then toLe 8 q.toNat else s.memRead ad 8) ∧ (old = p → t.tagAt ad = false) ∧ (old ≠ p → t.mem = s.mem ∧ t.tags = s.tags))
        ∧ (∀ t, exec (.swap k rd a b x) s = .next t → t.memRead ad 8 = toLe 8 q.toNat ∧ t.tagAt ad = false)
        ∧ (∀ t, exec (.amoadd k rd a b x) s = .next t → t.memRead ad 8 = toLe 8 (old + q).toNat ∧ t.tagAt ad = false))
    ∧ (∀ size : Fin 5,
        (((s.pr k.val).reg a.val).poison = true → exec (.mcpy k rd a size x y) s = .next (s.enter k.val 0x0F 0 a.val none))
        ∧ (∀ c, ((s.pr k.val).reg a.val).poison = false → ((s.pr k.val).reg rd.val).poison = false →
            (s.pr k.val).check ((s.pr k.val).reg a.val) ad (sizeBytes size.val) 1 = some c → exec (.mcpy k rd a size x y) s = .next (s.enter k.val c 1 ad none))
        ∧ (∀ c, ((s.pr k.val).reg a.val).poison = false → ((s.pr k.val).reg rd.val).poison = false → (s.pr k.val).check ((s.pr k.val).reg a.val) ad (sizeBytes size.val) 1 = none →
            (s.pr k.val).check ((s.pr k.val).reg rd.val) ((s.pr k.val).reg rd.val).addr (sizeBytes size.val) 2 = some c →
            exec (.mcpy k rd a size x y) s = .next (s.enter k.val c 2 ((s.pr k.val).reg rd.val).addr none))
        ∧ (rd ≠ a → rd.val ≠ 0 → a.val ≠ 0 → size.val ≠ 4 → ((s.pr k.val).reg a.val).poison = false → ((s.pr k.val).reg rd.val).poison = false →
            (s.pr k.val).check ((s.pr k.val).reg a.val) ad (sizeBytes size.val) 1 = none →
            (s.pr k.val).check ((s.pr k.val).reg rd.val) ((s.pr k.val).reg rd.val).addr (sizeBytes size.val) 2 = none → x.ecc = [] → y.ecc = [] →
            onChip ad = true → onChip ((s.pr k.val).reg rd.val).addr = true → s.busCheck ad (sizeBytes size.val) 1 = .ok () →
            s.busCheck ((s.pr k.val).reg rd.val).addr (sizeBytes size.val) 2 = .ok () →
            ∃ t, exec (.mcpy k rd a size x y) s = .next t ∧ t.memRead ((s.pr k.val).reg rd.val).addr (sizeBytes size.val) = s.memRead ad (sizeBytes size.val) ∧
              t.tagAt ((s.pr k.val).reg rd.val).addr = false ∧
              (∀ z, z < ((s.pr k.val).reg rd.val).addr ∨ ((s.pr k.val).reg rd.val).addr + sizeBytes size.val ≤ z → t.memB z = s.memB z) ∧
              (t.pr k.val).reg a.val = ((s.pr k.val).reg a.val).setAddr (ad + sizeBytes size.val) ∧
              (t.pr k.val).reg rd.val = ((s.pr k.val).reg rd.val).setAddr (((s.pr k.val).reg rd.val).addr + sizeBytes size.val) ∧
              (∀ j, j ≠ rd.val → j ≠ a.val → (t.pr k.val).reg j = (s.pr k.val).reg j) ∧ (s.pr k.val).sameRest (t.pr k.val) ∧ s.onlyIn t [.pairs, .mem, .tags, .ecc]))

/-- A branch moves pcc by its offset in words where its condition holds and by 4 bytes where not; JMP always moves it. JR and CALLR fault on a target that is poisoned, untagged, sealed or without EXEC before they change
anything. CALL and CALLR push pcc + 4, sealed with RET, below csp with its tag as R299 gives, and jump. RET pops a tagged RET capability, unseals it into pcc and clears its granule's tag; anything else there faults
with RET_BAD. -/
def Obligations.ControlFlow : Prop :=
  ∀ (s : State) (k : Issue), s.issues k →
    (∀ (c : Fin 6) (a b : Fin 16) (off : BitVec 15) (x y : BitVec 64), x = ((s.pr k.val).reg a.val).lo → y = ((s.pr k.val).reg b.val).lo →
        (((s.pr k.val).reg a.val).poison = true → exec (.bcond k c a b off) s = .next (s.enter k.val 0x0F 0 a.val none))
        ∧ (((s.pr k.val).reg a.val).poison = false → ((s.pr k.val).reg b.val).poison = true → exec (.bcond k c a b off) s = .next (s.enter k.val 0x0F 0 b.val none))
        ∧ (((s.pr k.val).reg a.val).poison = false → ((s.pr k.val).reg b.val).poison = false →
            ∃ t, exec (.bcond k c a b off) s = .next t ∧ s.onlyIn t [.pairs] ∧ (∀ j, j ≠ k.val → t.pr j = s.pr j) ∧ (∀ j, (t.pr k.val).reg j = (s.pr k.val).reg j) ∧
              (s.pr k.val).sameRest (t.pr k.val) ∧
              (t.pr k.val).pcc = (s.pr k.val).pcc.setAddr
                (if (match c.val with | 0 => decide (x = y) | 1 => decide (x ≠ y) | 2 => x.slt y | 3 => !x.slt y | 4 => x.ult y | _ => !x.ult y) = true
                 then ((((s.pr k.val).pcc.addr : Int) + 4 * off.toInt) % (2 ^ 64 : Int)).toNat else (s.pr k.val).pcc.addr + 4)))
    ∧ (∀ off : BitVec 26, ∃ t, exec (.jmp k off) s = .next t ∧ s.onlyIn t [.pairs] ∧ (∀ j, j ≠ k.val → t.pr j = s.pr j) ∧ (∀ j, (t.pr k.val).reg j = (s.pr k.val).reg j) ∧
          (s.pr k.val).sameRest (t.pr k.val) ∧ (t.pr k.val).pcc = (s.pr k.val).pcc.setAddr ((((s.pr k.val).pcc.addr : Int) + 4 * off.toInt) % (2 ^ 64 : Int)).toNat)
    ∧ (∀ (a : Fin 16) (c : CReg) (i : Instr) (x : AccIn), c = (s.pr k.val).reg a.val → i = .jr k a ∨ i = .callr k a x →
        (c.poison = true → exec i s = .next (s.enter k.val 0x0F 0 a.val none))
        ∧ (c.poison = false → c.tag = false → exec i s = .next (s.enter k.val 0x02 3 c.addr none))
        ∧ (c.poison = false → c.tag = true → c.otype ≠ 0 → exec i s = .next (s.enter k.val 0x03 3 c.addr none))
        ∧ (c.poison = false → c.tag = true → c.otype = 0 → c.has 4 = false → exec i s = .next (s.enter k.val 0x04 3 c.addr none)))
    ∧ (∀ (a : Fin 16) (c : CReg), c = (s.pr k.val).reg a.val → c.poison = false → c.tag = true → c.otype = 0 → c.has 4 = true →
        ∃ t, exec (.jr k a) s = .next t ∧ s.onlyIn t [.pairs] ∧ (∀ j, j ≠ k.val → t.pr j = s.pr j) ∧ (∀ j, (t.pr k.val).reg j = (s.pr k.val).reg j) ∧
          (s.pr k.val).sameRest (t.pr k.val) ∧ (t.pr k.val).pcc = c)
    ∧ (∀ (i : Instr) (x : AccIn) (off : BitVec 26) (a : Fin 16) (c goal csp ret : CReg) (y : Nat), c = (s.pr k.val).reg a.val → csp = (s.pr k.val).reg 15 → y = (csp.addr + 2 ^ 64 - 16) % 2 ^ 64 →
        ret = ((s.pr k.val).pcc.setAddr ((s.pr k.val).pcc.addr + 4)).withType 1 →
        (i = .call k off x ∧ goal = (s.pr k.val).pcc.setAddr ((((s.pr k.val).pcc.addr : Int) + 4 * off.toInt) % (2 ^ 64 : Int)).toNat)
          ∨ (i = .callr k a x ∧ goal = c ∧ c.poison = false ∧ c.tag = true ∧ c.otype = 0 ∧ c.has 4 = true) →
        (csp.poison = true → exec i s = .next (s.enter k.val 0x0F 0 15 none))
        ∧ (∀ f, csp.poison = false → (s.pr k.val).check csp y 16 18 = some f → exec i s = .next (s.enter k.val f 2 y none))
        ∧ (csp.poison = false → (s.pr k.val).check csp y 16 18 = none → s.busCheck y 16 2 = .ok () → onChip y = true →
            ∃ t, exec i s = .next t ∧ s.onlyIn t [.pairs, .mem, .tags, .ecc] ∧ (∀ j, j ≠ k.val → t.pr j = s.pr j) ∧ (t.pr k.val).pcc = goal ∧ (t.pr k.val).reg 15 = csp.setAddr y ∧
              (∀ j, j ≠ 15 → (t.pr k.val).reg j = (s.pr k.val).reg j) ∧ (s.pr k.val).sameRest (t.pr k.val) ∧ t.memRead y 16 = toLe 16 ret.v.toNat ∧
              t.tagAt y = keepsTag k.val y ret ∧ (∀ z, z < y ∨ y + 16 ≤ z → t.memB z = s.memB z) ∧ (∀ z, z / 16 ≠ y / 16 → t.tagAt z = s.tagAt z)))
    ∧ (∀ (x : AccIn) (csp v : CReg), csp = (s.pr k.val).reg 15 → v = capOf (s.memRead csp.addr 16) (s.spanBad csp.addr 16) (s.tagAt csp.addr && onChip csp.addr && csp.has 8) →
        (csp.poison = true → exec (.ret k x) s = .next (s.enter k.val 0x0F 0 15 none))
        ∧ (∀ f, csp.poison = false → (s.pr k.val).check csp csp.addr 16 1 = some f → exec (.ret k x) s = .next (s.enter k.val f 1 csp.addr none))
        ∧ (csp.poison = false → (s.pr k.val).check csp csp.addr 16 1 = none → s.busCheck csp.addr 16 1 = .ok () → onChip csp.addr = true → x.ecc = [] →
            (v.tag = false ∨ v.otype ≠ 1 ∨ v.poison = true → exec (.ret k x) s = .next (s.enter k.val 0x0A 0 csp.addr none))
            ∧ (v.tag = true → v.otype = 1 → v.poison = false →
              ∃ t, exec (.ret k x) s = .next t ∧ s.onlyIn t [.pairs, .tags] ∧ (∀ j, j ≠ k.val → t.pr j = s.pr j) ∧ (t.pr k.val).pcc = v.withType 0 ∧
                (t.pr k.val).reg 15 = csp.setAddr (csp.addr + 16) ∧ (∀ j, j ≠ 15 → (t.pr k.val).reg j = (s.pr k.val).reg j) ∧ (s.pr k.val).sameRest (t.pr k.val) ∧
                t.tagAt csp.addr = false ∧ (∀ z, z / 16 ≠ csp.addr / 16 → t.tagAt z = s.tagAt z))))

/-- EBREAK and a word that encodes no instruction enter the handler, a word that encodes one does not. Entry writes the frame of Table EXC-3 below csp, its first two granules tagged as R299 gives, moves csp, clears scret, and
sets ecause, eval and pcc; no other register, byte or pair changes. A frame whose check fails halts the pair with STACK, and an invalid ecp with ECP_BAD, its registers and memory as they were; the cause stands in
DEV_PAIR_CAUSE. An applet whose code faults is FAULTED with the cause. A pair that cannot issue does nothing, a frame that
waits for a domain stalls, and an instruction whose fetch finds errors is the one issued once they are recorded. -/
def Obligations.FaultEntry : Prop :=
  ∀ (s : State) (k : Issue),
    (s.issues k → exec (.ebreak k) s = .next (s.enter k.val 0x10 0 0 none))
    ∧ (∀ w : Word, s.issues k → wordDefined w = false → exec (.illegalInstruction k w) s = .next (s.enter k.val 0x01 0 w.toNat none))
    ∧ (∀ w : Word, wordDefined w = true → s.issues k → exec (.illegalInstruction k w) s = .next s)
    ∧ (∀ w : Word, s.canIssue k.val = false → exec (.ebreak k) s = .next s ∧ exec (.illegalInstruction k w) s = .next s)
    ∧ (∀ (c a v : Nat), s.canIssue k.val = true → k.ecc = [] → s.fetch k.val (s.pr k.val).pcc.addr = .fault c a (some v) → exec (.ebreak k) s = .next (s.enter k.val c a v none))
    ∧ (s.canIssue k.val = true → ∀ (t : State) (j : Issue), t = s.fetched k.val (s.pr k.val).pcc.addr k.ecc → j = ⟨k.pair, []⟩ →
        exec (.ebreak k) s = exec (.ebreak j) t ∧ (∀ w, exec (.illegalInstruction k w) s = exec (.illegalInstruction j w) t) ∧
        (∀ rd a b, exec (.add k rd a b) s = exec (.add j rd a b) t) ∧ (∀ rt rb mode size low x, exec (.ld k rt rb mode size low x) s = exec (.ld j rt rb mode size low x) t) ∧
        (∀ rt rb mode size low x, exec (.st k rt rb mode size low x) s = exec (.st j rt rb mode size low x) t) ∧ (∀ off, exec (.jmp k off) s = exec (.jmp j off) t))
    ∧ (∀ (f : Nat) (p : Pair),
        ((p.reg 15).poison = true ∨ (∃ g, g ∈ [0, 16, 32, 48] ∧ (p.check (p.reg 15) (f + g) 16 18).isSome = true) → ∃ c a v, s.frameStop f p = .fault c a v) ∧
        ((p.reg 15).poison = false → (∀ g, g ∈ [0, 16, 32, 48] → p.check (p.reg 15) (f + g) 16 18 = none ∧ s.busCheck (f + g) 16 2 = .ok ()) → onChip f = true → s.frameStop f p = .ok ()))
    ∧ (∀ (code acc eval f d y : Nat) (p : Pair), p = s.pr k.val → f = ((p.reg 15).addr + 2 ^ 64 - 64) % 2 ^ 64 → s.frameStop f p = .stall d y 2 → d ∉ s.pwr.stuck →
        s.enter k.val code acc eval none = s.coreStall k.val d y 2)
    ∧ (∀ (code acc eval f : Nat) (p : Pair) (csp : CReg) (cause : BitVec 64), p = s.pr k.val → csp = p.reg 15 → f = (csp.addr + 2 ^ 64 - 64) % 2 ^ 64 →
        cause = BitVec.ofNat 64 (acc * 2 ^ 8 + code) →
        s.frameStop f p = .ok () → p.ecp.tag = true → p.ecp.otype = 0 → p.ecp.has 4 = true →
        onChip f = true → p.pcc.has 0x80 = true →
        (s.enter k.val code acc eval none).pr k.val = { p.setReg 15 (csp.setAddr f) with
            pcc := p.ecp, scret := CReg.null, ecause := cause, eval := BitVec.ofNat 64 eval, wfi := false, repi := none, stall := none,
            marked := p.marked.filter (fun n => n ≠ 2 && n ≠ 3) }
        ∧ (∀ j, j ≠ k.val → (s.enter k.val code acc eval none).pr j = s.pr j)
        ∧ (s.enter k.val code acc eval none).memRead f 64 = toLe 16 (p.pcc.withType 2).v.toNat ++ toLe 16 p.scret.v.toNat ++ toLe 8 p.ecause.toNat ++ toLe 8 p.eval.toNat ++
            toLe 8 ((s.rd (R.DEV_IRQ_CUR k.val)).toNat % 32 + b2n p.repi.isSome * 256) ++ toLe 8 0
        ∧ (s.enter k.val code acc eval none).tagAt f = keepsTag k.val f (p.pcc.withType 2)
        ∧ (s.enter k.val code acc eval none).tagAt (f + 16) = keepsTag k.val (f + 16) p.scret
        ∧ (∀ x, x < f ∨ f + 64 ≤ x → (s.enter k.val code acc eval none).memB x = s.memB x)
        ∧ s.onlyIn (s.enter k.val code acc eval none) [.pairs, .mem, .tags, .ecc])
    ∧ (∀ (code acc eval f : Nat) (p : Pair) (csp : CReg), p = s.pr k.val → csp = p.reg 15 → f = (csp.addr + 2 ^ 64 - 64) % 2 ^ 64 → s.runningOn k.val = [] → code < 256 → acc < 4 →
        (∃ c a v, s.frameStop f p = .fault c a v) →
        (s.enter k.val code acc eval none).pairSt k.val = pHalted ∧ (s.enter k.val code acc eval none).f (F.DEV_PAIR_STS_REASON k.val) = 2 ∧
        (s.enter k.val code acc eval none).rd (R.DEV_PAIR_CAUSE k.val) = BitVec.ofNat 32 (acc * 2 ^ 8 + code) ∧
        (s.enter k.val code acc eval none).pairs = s.pairs ∧ (s.enter k.val code acc eval none).mem = s.mem ∧ (s.enter k.val code acc eval none).tags = s.tags ∧
        (k.val ≠ 0 → bitAt ((s.enter k.val code acc eval none).rd (R.DEV_IRQ_PEND 0)).toNat (16 + k.val) = true))
    ∧ (∀ (code acc eval f : Nat) (p : Pair) (csp : CReg), p = s.pr k.val → csp = p.reg 15 → f = (csp.addr + 2 ^ 64 - 64) % 2 ^ 64 → s.runningOn k.val = [] →
        s.frameStop f p = .ok () → p.ecp.tag = false ∨ p.ecp.otype ≠ 0 ∨ p.ecp.has 4 = false →
        (s.enter k.val code acc eval none).pairSt k.val = pHalted ∧ (s.enter k.val code acc eval none).f (F.DEV_PAIR_STS_REASON k.val) = 3 ∧
        (s.enter k.val code acc eval none).pairs = s.pairs ∧ (s.enter k.val code acc eval none).mem = s.mem)
    ∧ (∀ (id code acc eval f : Nat) (a : App) (p : Pair) (csp : CReg), p = s.pr k.val → csp = p.reg 15 → f = (csp.addr + 2 ^ 64 - 64) % 2 ^ 64 →
        s.frameStop f p = .ok () → p.ecp.tag = true → p.ecp.otype = 0 → p.ecp.has 4 = true →
        s.compOf k.val = id → id ≠ 0xFFFF → s.app id = some a → a.st = apRunning →
        ∃ b, (s.enter k.val code acc eval none).app id = some b ∧ b.st = apFaulted ∧ b.ecause = BitVec.ofNat 64 (acc * 2 ^ 8 + code) ∧ b.eval = BitVec.ofNat 64 eval ∧ b.chans = [])

/-- CSRR and CSRW read and write the special registers of Table ISA-6 under SYS, scentry sealed as it is written, pcc not writable; without SYS they fault with PERM and an unlisted SEL is ILLEGAL. SCALL and SRET exchange csp and
scsp and move pcc through scentry and scret, faulting where these do not fit. RETX takes back what the frame saved, CUR only under SYS, and clears the tags of the granules it popped; a frame without a tagged ERET capability
faults. FENCE moves on; WFI waits under SYS. -/
def Obligations.SystemInstructions : Prop :=
  ∀ (s : State) (k : Issue) (p : Pair), s.issues k → p = s.pr k.val →
    (∀ (rd : Fin 16) (sel : BitVec 8), selOk sel.toNat = false →
        exec (.csrr k rd sel) s = .next (s.enter k.val 0x01 0 (encS rd.val sel.toNat 1).toNat none) ∧ exec (.csrw k rd sel) s = .next (s.enter k.val 0x01 0 (encS rd.val sel.toNat 2).toNat none))
    ∧ (∀ (rd : Fin 16) (sel : BitVec 8), selOk sel.toNat = true → p.pcc.has 0x80 = false →
        exec (.csrr k rd sel) s = .next ((s.openBelow (2 ^ 64)).2.enter k.val 0x04 0 (s.openBelow (2 ^ 64)).1 none) ∧
        exec (.csrw k rd sel) s = .next ((s.openBelow (2 ^ 64)).2.enter k.val 0x04 0 (s.openBelow (2 ^ 64)).1 none))
    ∧ (∀ (rd : Fin 16) (sel : BitVec 8), selOk sel.toNat = true → p.pcc.has 0x80 = true →
        ∃ t, exec (.csrr k rd sel) s = .next t ∧ s.gives t k rd (match sel.toNat with
          | 0 => p.pcc | 1 => p.ecp | 2 => CReg.int p.ecause (p.marked.contains 2) | 3 => CReg.int p.eval (p.marked.contains 3) | 4 => p.scentry | 5 => p.scsp | 6 => p.scret
          | n => if n < 0x30 then CReg.int (Tbl.get (fun _ => 0) p.mpuBase (n - 0x20)) (p.marked.contains n) else CReg.int (Tbl.get (fun _ => 0x50000) p.mpuAttr (n - 0x30)) (p.marked.contains n)))
    ∧ (∀ rs : Fin 16, p.pcc.has 0x80 = true → exec (.csrw k rs 0) s = .next (s.enter k.val 0x01 0 (encS rs.val 0 2).toNat none))
    ∧ (∀ (rs : Fin 16) (sel : BitVec 8) (c : CReg), selOk sel.toNat = true → sel ≠ 0 → p.pcc.has 0x80 = true → c = p.reg rs.val →
        ∃ t q, exec (.csrw k rs sel) s = .next t ∧ s.onlyIn t [.pairs] ∧ (∀ j, j ≠ k.val → t.pr j = s.pr j) ∧ q = t.pr k.val ∧ q.pcc = p.pcc.setAddr (p.pcc.addr + 4) ∧ (∀ j, q.reg j = p.reg j) ∧
          q.ecp = (if sel.toNat = 1 then c else p.ecp) ∧ q.ecause = (if sel.toNat = 2 then c.lo else p.ecause) ∧ q.eval = (if sel.toNat = 3 then c.lo else p.eval) ∧
          q.scentry = (if sel.toNat = 4 then (if c.tag = true ∧ c.otype = 0 then c.withType 3 else { c with tag := false }) else p.scentry) ∧
          (∀ n, n ≠ sel.toNat → (n ∈ q.marked ↔ n ∈ p.marked)) ∧ (sel.toNat ∈ q.marked ↔ c.poison = true ∧ sel.toNat ∉ [1, 4, 5, 6]) ∧
          q.scsp = (if sel.toNat = 5 then c else p.scsp) ∧ q.scret = (if sel.toNat = 6 then c else p.scret) ∧
          (∀ n : Fin 16, Tbl.get (fun _ => 0) q.mpuBase n.val = (if sel.toNat = 0x20 + n.val then c.lo &&& 0xFFFFFFFFFFFFFFE0 else Tbl.get (fun _ => 0) p.mpuBase n.val) ∧
            Tbl.get (fun _ => 0x50000) q.mpuAttr n.val = (if sel.toNat = 0x30 + n.val then c.lo &&& 0x803F000F else Tbl.get (fun _ => 0x50000) p.mpuAttr n.val)))
    ∧ (p.scret.tag = true → exec (.scall k) s = .next (s.enter k.val 0x0C 0 0 none))
    ∧ (p.scret.tag = false → p.scentry.tag = false ∨ p.scentry.otype ≠ 3 → exec (.scall k) s = .next (s.enter k.val 0x0D 0 0 none))
    ∧ (p.scret.tag = false → p.scentry.tag = true → p.scentry.otype = 3 →
        ∃ t, exec (.scall k) s = .next t ∧ s.onlyIn t [.pairs] ∧ (∀ j, j ≠ k.val → t.pr j = s.pr j) ∧
          t.pr k.val = { p.setReg 15 p.scsp with scret := (p.pcc.setAddr (p.pcc.addr + 4)).withType 4, scsp := p.reg 15, pcc := p.scentry.withType 0 })
    ∧ (p.scret.tag = false ∨ p.scret.otype ≠ 4 → exec (.sret k) s = .next (s.enter k.val 0x0E 0 0 none))
    ∧ (p.scret.tag = true → p.scret.otype = 4 →
        ∃ t, exec (.sret k) s = .next t ∧ s.onlyIn t [.pairs] ∧ (∀ j, j ≠ k.val → t.pr j = s.pr j) ∧
          t.pr k.val = { p.setReg 15 p.scsp with scret := CReg.null, scsp := p.reg 15, pcc := p.scret.withType 0 })
    ∧ (∀ (x : AccIn) (csp saved sr : CReg) (f : Nat), csp = p.reg 15 → f = csp.addr → saved = capOf (s.memRead f 16) (s.poisonAt f) (s.tagAt f && onChip f && !s.poisonAt f && csp.has 8) →
        sr = capOf (s.memRead (f + 16) 16) (s.poisonAt (f + 16)) (s.tagAt (f + 16) && onChip (f + 16) && !s.poisonAt (f + 16)) →
        csp.poison = false → p.checkAl csp f 64 16 1 = none → (∀ g, g ∈ [16, 32, 48] → p.check csp (f + g) 16 1 = none) → s.busFrame f 1 = .ok () → onChip f = true → x.ecc = [] →
        (saved.tag = false ∨ saved.otype ≠ 2 → exec (.retx k x) s = .next (s.enter k.val 0x0B 0 f none))
        ∧ (saved.tag = true → saved.otype = 2 →
          ∃ t, exec (.retx k x) s = .next t ∧ s.onlyIn t [.pairs, .tags, .regs] ∧ (∀ j, j ≠ k.val → t.pr j = s.pr j) ∧
            t.pr k.val = { p.setReg 15 (csp.setAddr (f + 64)) with
              pcc := saved.withType 0, scret := if sr.tag = true ∧ sr.otype = 4 then sr else CReg.null,
              ecause := BitVec.ofNat 64 (leNat (s.memRead (f + 32) 8)), eval := BitVec.ofNat 64 (leNat (s.memRead (f + 40) 8)),
              marked := p.marked.filter (fun n => n ≠ 2 && n ≠ 3) ++ (if s.poisonAt (f + 32) then [2, 3] else []) } ∧
            (∀ a, a ≠ R.DEV_IRQ_CUR k.val → t.rd a = s.rd a) ∧
            t.rd (R.DEV_IRQ_CUR k.val) = (if p.pcc.has 0x80 = true then BitVec.ofNat 32 (leNat (s.memRead (f + 48) 8) % 32) else s.rd (R.DEV_IRQ_CUR k.val)) ∧
            (∀ g, g ∈ [0, 16, 32, 48] → t.tagAt (f + g) = false) ∧ (∀ y, y / 16 < f / 16 ∨ f / 16 + 4 ≤ y / 16 → t.tagAt y = s.tagAt y)))
    ∧ (∃ t, exec (.fence k) s = .next t ∧ s.onlyIn t [.pairs] ∧ t.pr k.val = p.adv 4 ∧ (∀ j, j ≠ k.val → t.pr j = s.pr j))
    ∧ (p.pcc.has 0x80 = true → ∃ t, exec (.wfi k) s = .next t ∧ s.onlyIn t [.pairs] ∧ t.pr k.val = { p.adv 4 with wfi := true } ∧ (∀ j, j ≠ k.val → t.pr j = s.pr j))
    ∧ (p.pcc.has 0x80 = false → exec (.wfi k) s = .next ((s.openBelow (2 ^ 64)).2.enter k.val 0x04 0 (s.openBelow (2 ^ 64)).1 none))

/-- REP carries out its instruction count times and moves pcc past it; a fault in any iteration leaves the registers and memory as they were before the prefix, but
for what its reads have found. n + 1 repeated additions of an immediate add n + 1 times it.
REPI over c13 of 0 moves on; a tagged or too large c13, an instruction that names c13 or one that cannot be repeated is ILLEGAL at the prefix. Each iteration counts c13 down by one, and the last one ends the sequence; one that faults
has no effect but its entry. -/
def Obligations.RepeatPrefixes : Prop :=
  ∀ (s : State) (k : Issue) (word : Word) (xs : List (AccIn × AccIn)) (p : Pair), p = s.pr k.val → k.ecc = [] →
    (∀ n : Fin 16, s.issues k → s.fetch k.val (p.pcc.addr + 4) = .ok () → repOpOf word = none →
        exec (.rep k n word xs) s = .next (s.enter k.val 0x01 0 (encP 0x3E n.val).toNat none) ∧ exec (.repi k word) s = .next (s.enter k.val 0x01 0 (encP 0x3F 0).toNat none))
    ∧ (∀ (n : Fin 16) (o : RepOp) (c a v : Nat), s.issues k → s.fetch k.val (p.pcc.addr + 4) = .ok () → repOpOf word = some o → State.runReps k.val o (n.val + 1) xs s = .fault c a (some v) →
        exec (.rep k n word xs) s = .next (s.enter k.val c a v none))
    ∧ (∀ (n : Fin 16) (o : RepOp) (l : List (Nat × Nat × List EccHit)) (c a v : Nat), s.issues k → s.fetch k.val (p.pcc.addr + 4) = .ok () → repOpOf word = some o →
        State.runReps k.val o (n.val + 1) xs s = .trap l c a (some v) →
        exec (.rep k n word xs) s = .next ((s.forEach l (fun s x => s.eccSpan x.1 x.2.1 x.2.2)).enter k.val c a v none))
    ∧ (∀ (n : Fin 16) (o : RepOp) (u : State), s.issues k → s.fetch k.val (p.pcc.addr + 4) = .ok () → repOpOf word = some o → State.runReps k.val o (n.val + 1) xs s = .ok u →
        ∃ t, exec (.rep k n word xs) s = .next t ∧ t.pr k.val = (u.pr k.val).adv 8 ∧ (∀ j, j ≠ k.val → t.pr j = u.pr j) ∧ u.onlyIn t [.pairs])
    ∧ (∀ (n : Fin 16) (rd : Fin 16) (imm : BitVec 12), s.issues k → s.fetch k.val (p.pcc.addr + 4) = .ok () → rd.val ≠ 0 → repOpOf word = some (.alui .add rd.val rd.val imm.toNat) →
        ∃ t, exec (.rep k n word xs) s = .next t ∧ (t.pr k.val).reg rd.val = CReg.int ((p.reg rd.val).lo + BitVec.ofNat 64 (n.val + 1) * imm.signExtend 64) (p.reg rd.val).poison ∧
          (∀ i, i ≠ rd.val → (t.pr k.val).reg i = p.reg i) ∧ (t.pr k.val).pcc = p.pcc.setAddr (p.pcc.addr + 8) ∧ s.onlyIn t [.pairs])
    ∧ (∀ (n : Fin 16) (c a v : Nat), s.issues k → s.fetch k.val (p.pcc.addr + 4) = .fault c a (some v) →
        exec (.rep k n word xs) s = .next (s.enter k.val c a v none) ∧ exec (.repi k word) s = .next (s.enter k.val c a v none))
    ∧ (∀ o : RepOp, s.issues k → s.fetch k.val (p.pcc.addr + 4) = .ok () → repOpOf word = some o → o.names 13 = true ∨ (p.reg 13).tag = true ∨ 2 ^ 32 < (p.reg 13).lo.toNat →
        exec (.repi k word) s = .next (s.enter k.val 0x01 0 (encP 0x3F 0).toNat none))
    ∧ (∀ o : RepOp, s.issues k → s.fetch k.val (p.pcc.addr + 4) = .ok () → repOpOf word = some o → o.names 13 = false → (p.reg 13).tag = false → (p.reg 13).lo.toNat ≤ 2 ^ 32 →
        ∃ t, exec (.repi k word) s = .next t ∧ (∀ j, j ≠ k.val → t.pr j = s.pr j) ∧ s.onlyIn t [.pairs] ∧ t.pr k.val = (if (p.reg 13).lo = 0 then p.adv 8 else { p with repi := some o }))
    ∧ (∀ x y : AccIn, p.repi = none → exec (.repiIteration k.pair x y) s = .next s)
    ∧ (∀ (x y : AccIn) (o : RepOp) (c a v : Nat), p.repi = some o → s.pairSt k.val = pRunning → p.stall = none → s.runRep k.val o x y = .fault c a (some v) →
        exec (.repiIteration k.pair x y) s = .next (s.enter k.val c a v none))
    ∧ (∀ (x y : AccIn) (o : RepOp) (l : List (Nat × Nat × List EccHit)) (c a v : Nat), p.repi = some o → s.pairSt k.val = pRunning → p.stall = none →
        s.runRep k.val o x y = .trap l c a (some v) →
        exec (.repiIteration k.pair x y) s = .next ((s.forEach l (fun s x => s.eccSpan x.1 x.2.1 x.2.2)).enter k.val c a v none))
    ∧ (∀ (x y : AccIn) (o : RepOp) (u : State), p.repi = some o → s.pairSt k.val = pRunning → p.stall = none → s.runRep k.val o x y = .ok u →
        ∃ t, exec (.repiIteration k.pair x y) s = .next t ∧ u.onlyIn t [.pairs] ∧ (∀ j, j ≠ k.val → t.pr j = u.pr j) ∧
          (t.pr k.val).reg 13 = CReg.int (((u.pr k.val).reg 13).lo - 1) ((u.pr k.val).reg 13).poison ∧ (∀ i, i ≠ 13 → (t.pr k.val).reg i = (u.pr k.val).reg i) ∧
          (((u.pr k.val).reg 13).lo ≠ 1 → (t.pr k.val).pcc = (u.pr k.val).pcc ∧ (t.pr k.val).repi = (u.pr k.val).repi) ∧
          (((u.pr k.val).reg 13).lo = 1 → (t.pr k.val).pcc = (u.pr k.val).pcc.setAddr ((u.pr k.val).pcc.addr + 8) ∧ (t.pr k.val).repi = none))

/-- DEV_IRQ_SET makes one software source of one pair pending. START takes a HELD application pair to RUNNING and leaves any other as it is; RESET gives a pair the registers of R301 and holds it, and fills
the memory of the applets of a pair that had halted anew; both wake a domain that is not ON, and pair 0
ignores both. An interrupt is taken where its priority exceeds the level in force, or none is: its pending bit clears, CUR takes its priority, and the handler is entered; it is not taken otherwise, and a pair that waits in WFI goes on from it. A
mismatch halts a running pair, with REASON LOCKSTEP, and the root pair hears of an application pair. -/
def Obligations.PairControl : Prop :=
  ∀ (s : State) (k : Fin 5),
    (∀ src : Fin 16, ∃ t, exec (.devIrqSetWrite k src) s = .next t ∧ s.onlyIn t [.regs] ∧ bitAt (t.rd (R.DEV_IRQ_PEND (k.val * 8))).toNat src.val = true ∧
        (∀ i, i < 32 → i ≠ src.val → bitAt (t.rd (R.DEV_IRQ_PEND (k.val * 8))).toNat i = bitAt (s.rd (R.DEV_IRQ_PEND (k.val * 8))).toNat i) ∧
        (∀ a, a ≠ R.DEV_IRQ_PEND (k.val * 8) → t.rd a = s.rd a))
    ∧ (k.val = 0 → exec (.pairStart k) s = .next s ∧ exec (.pairReset k) s = .next s)
    ∧ (k.val ≠ 0 → s.domOn (3 + k.val) = false → exec (.pairStart k) s = .next (s.domWake (3 + k.val)) ∧ exec (.pairReset k) s = .next (s.domWake (3 + k.val)))
    ∧ (k.val ≠ 0 → s.domOn (3 + k.val) = true → s.pairSt k.val ≠ pHeld → exec (.pairStart k) s = .next s)
    ∧ (k.val ≠ 0 → s.domOn (3 + k.val) = true → s.pairSt k.val = pHeld →
        ∃ t, exec (.pairStart k) s = .next t ∧ t.pairSt k.val = pRunning ∧ s.onlyIn t [.regs] ∧ (∀ a, a ≠ R.DEV_PAIR_STS k.val → t.rd a = s.rd a))
    ∧ (k.val ≠ 0 → s.domOn (3 + k.val) = true →
        ∃ t q, exec (.pairReset k) s = .next t ∧ t.pairSt k.val = pHeld ∧ q = t.pr k.val ∧ q.pcc = CReg.root ∧ (∀ i, q.reg i = CReg.null) ∧ q.ecp = CReg.null ∧ q.scentry = CReg.null ∧ q.scsp = CReg.null ∧
          q.scret = CReg.null ∧ q.ecause = 0 ∧ q.eval = 0 ∧ (∀ i, bitAt (Tbl.get (fun _ => 0x50000) q.mpuAttr i).toNat 31 = false) ∧ (∀ j, j ≠ k.val → t.pr j = s.pr j) ∧ (s.pairSt k.val ≠ pHalted → t.mem = s.mem) ∧
          (s.pairSt k.val = pHalted → t.mem = ((s.pairReset k.val).appsRestart k.val).mem) ∧ t.apps = s.apps)
    ∧ (s.irqNext k.val = none → exec (.interruptTake k) s = .next s)
    ∧ (∀ src prio, s.irqNext k.val = some (src, prio) → k.val = 0 ∨ s.domOn (3 + k.val) = true →
        s.pairSt k.val ≠ pRunning ∨ (s.pr k.val).stall.isSome = true ∨ (s.fb (F.DEV_IRQ_CUR_ACTIVE k.val) = true ∧ prio ≤ s.f (F.DEV_IRQ_CUR_LEVEL k.val)) → exec (.interruptTake k) s = .next s)
    ∧ (∀ src prio, s.irqNext k.val = some (src, prio) → k.val ≠ 0 → s.domOn (3 + k.val) = false → exec (.interruptTake k) s = .next (s.domWake (3 + k.val)))
    ∧ (∀ (src prio f : Nat) (p : Pair) (csp : CReg), s.irqNext k.val = some (src, prio) → k.val = 0 ∨ s.domOn (3 + k.val) = true → s.pairSt k.val = pRunning → p = s.pr k.val → p.stall = none →
        s.fb (F.DEV_IRQ_CUR_ACTIVE k.val) = false ∨ s.f (F.DEV_IRQ_CUR_LEVEL k.val) < prio → csp = p.reg 15 → f = (csp.addr + 2 ^ 64 - 64) % 2 ^ 64 →
        s.frameStop f p = .ok () → p.ecp.tag = true → p.ecp.otype = 0 → p.ecp.has 4 = true → onChip f = true →
        ∃ t, exec (.interruptTake k) s = .next t ∧ (t.pr k.val).pcc = p.ecp ∧ (t.pr k.val).reg 15 = csp.setAddr f ∧ (t.pr k.val).ecause = BitVec.ofNat 64 (2 ^ 63 + src) ∧ (t.pr k.val).eval = 0 ∧
          (t.pr k.val).wfi = false ∧ (t.pr k.val).repi = none ∧ t.fb (F.DEV_IRQ_CUR_ACTIVE k.val) = true ∧ t.f (F.DEV_IRQ_CUR_LEVEL k.val) = prio ∧
          bitAt (t.rd (R.DEV_IRQ_PEND (8 * k.val + src / 32))).toNat (src % 32) = false ∧ (∀ i, i ≠ 15 → (t.pr k.val).reg i = p.reg i) ∧ (∀ j, j ≠ k.val → t.pr j = s.pr j) ∧
          t.memRead f 16 = toLe 16 (p.pcc.withType 2).v.toNat ∧ (∀ x, x < f ∨ f + 64 ≤ x → t.memB x = s.memB x) ∧ s.onlyIn t [.pairs, .mem, .tags, .ecc, .regs])
    ∧ (s.pairSt k.val ≠ pRunning → exec (.lockstepMismatch k) s = .next s)
    ∧ (s.pairSt k.val = pRunning →
        ∃ t, exec (.lockstepMismatch k) s = .next t ∧ t.pairSt k.val = pHalted ∧ t.f (F.DEV_PAIR_STS_REASON k.val) = 1 ∧
          (k.val ≠ 0 → bitAt (t.rd (R.DEV_IRQ_PEND 0)).toNat (16 + k.val) = true) ∧ 3 ≤ t.level)

/-- An access that is not of 4 aligned bytes writes nothing and reads 0; an offset that no table lists reads 0. The host writes only the registers that are its own, a core only those whose
permission it holds. A read whose two copies disagree carries poison. A plain register takes its RW bits, a W1C register loses the bits written as 1,
and a read-only one stays; no other register changes. A read returns the register and, of a 64-bit quantity, holds the high half for the next read of it; a read-to-clear register is cleared. An access to a
domain that is not ON wakes it and waits; one to a stuck domain ends. -/
def Obligations.RegisterAccess : Prop :=
  ∀ (s : State) (x : AccIn),
    (∀ (g : Bus) (a : BitVec 26) (n : Fin 17) (v : Word), n.val ≠ 4 ∨ a.toNat % 4 ≠ 0 →
        exec (.registerWrite g a n v x) s = .next s ∧ exec (.registerRead g a n x) s = .next (s.emit (.read a.toNat 0 false)))
    ∧ (∀ (a : BitVec 26) (v : Word), hostWritable a.toNat = false → exec (.registerWrite .host a 4 v x) s = .next s)
    ∧ (∀ (k : Fin 5) (a : BitVec 26) (v : Word), 0x1000000 ≤ a.toNat → exec (.registerWrite (.core k) a 4 v x) s = .next s)
    ∧ (∀ (k : Fin 5) (a : BitVec 26) (v : Word) (d : Nat), a.toNat % 4 = 0 → a.toNat < 0x1000000 → s.mayReach k.val a.toNat = true → s.regWaits a.toNat = some d →
        exec (.registerWrite (.core k) a 4 v x) s = .next (s.coreStall k.val d (0x8000000000 + a.toNat) 2) ∧
        exec (.registerRead (.core k) a 4 x) s = .next (s.coreStall k.val d (0x8000000000 + a.toNat) 1))
    ∧ (∀ (k : Fin 5) (a : BitVec 26) (v : Word), a.toNat % 4 = 0 → s.mayReach k.val a.toNat = false →
        exec (.registerWrite (.core k) a 4 v x) s = .next s ∧ exec (.registerRead (.core k) a 4 x) s = .next s)
    ∧ (∀ (a : BitVec 26) (v : Word) (d : Nat), a.toNat % 4 = 0 → hostWritable a.toNat = true → s.regWaits a.toNat = some d → d ∉ s.pwr.stuck →
        ∃ t, exec (.registerWrite .host a 4 v x) s = .next t ∧ t.pwr.stalled = s.pwr.stalled ++ [(d, ⟨true, true, a.toNat, 4, v⟩)] ∧ t.mem = s.mem ∧ t.keys = s.keys)
    ∧ (∀ (a : BitVec 26) (v : Word) (d : Nat), a.toNat % 4 = 0 → s.regWaits a.toNat = some d → d ∈ s.pwr.stuck →
        exec (.registerWrite .host a 4 v x) s = .next s ∧ exec (.registerRead .host a 4 x) s = .next (s.emit (.abort a.toNat)))
    ∧ (∀ (g : Bus) (i : Fin 4) (v : Word), s.mayRead g (R.DEV_SCRATCH i.val) = true → ∃ t, exec (.registerWrite g (BitVec.ofNat 26 (R.DEV_SCRATCH i.val)) 4 v x) s = .next t ∧ t.rd (R.DEV_SCRATCH i.val) = v ∧
        (∀ a, a ≠ R.DEV_SCRATCH i.val → t.rd a = s.rd a) ∧ s.onlyIn t [.regs, .regBad])
    ∧ (∀ (k : Fin 5) (v : Word), (s.pr k.val).pcc.has 0x80 = true → s.regWaits R.GRV_EVT = none →
        (∃ t, exec (.registerWrite (.core k) (BitVec.ofNat 26 R.GRV_EVT) 4 v x) s = .next t ∧
          (∀ i, i < 7 → bitAt (t.rd R.GRV_EVT).toNat i = (bitAt (s.rd R.GRV_EVT).toNat i && !bitAt v.toNat i)) ∧ (∀ a, a ≠ R.GRV_EVT → t.rd a = s.rd a) ∧ s.onlyIn t [.regs, .regBad])
        ∧ (∃ t, exec (.registerWrite (.core k) (BitVec.ofNat 26 R.GRV_EVT_EN) 4 v x) s = .next t ∧
          (∀ i, i < 7 → bitAt (t.rd R.GRV_EVT_EN).toNat i = bitAt v.toNat i) ∧ (∀ a, a ≠ R.GRV_EVT_EN → t.rd a = s.rd a) ∧ s.onlyIn t [.regs, .regBad])
        ∧ (∃ t, exec (.registerWrite (.core k) (BitVec.ofNat 26 R.GRV_ERR_ENTRY) 4 v x) s = .next t ∧ (∀ a, t.rd a = s.rd a) ∧ s.onlyIn t [.regs, .regBad]))
    ∧ (∀ (g : Bus) (a : BitVec 26), a.toNat % 4 = 0 → s.mayRead g a.toNat = true → regDesc a.toNat = none → s.liveReg a.toNat = none → s.regWaits a.toNat = none → a.toNat ∉ s.regBad → s.latched a.toNat = none →
        isLowHalf a.toNat = false → isSluWindow a.toNat = false →
        exec (.registerRead g a 4 x) s = .next (s.emit (.read a.toNat 0 false)))
    ∧ (∀ (g : Bus) (i : Fin 4), s.mayRead g (R.DEV_SCRATCH i.val) = true → x.bad = true → s.latched (R.DEV_SCRATCH i.val) = none →
        ∃ t, exec (.registerRead g (BitVec.ofNat 26 (R.DEV_SCRATCH i.val)) 4 x) s = .next t ∧ .read (R.DEV_SCRATCH i.val) (s.rd (R.DEV_SCRATCH i.val)).toNat true ∈ t.out ∧
          R.DEV_SCRATCH i.val ∈ t.regBad ∧ t.f (F.ECC_UNCORR_COUNT 12) = (s.f (F.ECC_UNCORR_COUNT 12) + 1) % 2 ^ 32)
    ∧ (∀ (g : Bus) (i : Fin 4), s.mayRead g (R.DEV_SCRATCH i.val) = true → x.bad = false → R.DEV_SCRATCH i.val ∉ s.regBad → s.latched (R.DEV_SCRATCH i.val) = none →
        exec (.registerRead g (BitVec.ofNat 26 (R.DEV_SCRATCH i.val)) 4 x) s = .next (s.emit (.read (R.DEV_SCRATCH i.val) (s.rd (R.DEV_SCRATCH i.val)).toNat false)))
    ∧ (∀ g : Bus, s.mayRead g R.GAC_NOW_LO = true → x.bad = false → R.GAC_NOW_LO ∉ s.regBad → s.latched R.GAC_NOW_LO = none →
        ∃ t, exec (.registerRead g (BitVec.ofNat 26 R.GAC_NOW_LO) 4 x) s = .next t ∧ t.out = .read R.GAC_NOW_LO (s.gacNow.toNat % 2 ^ 32) false :: s.out ∧
          t.latched R.GAC_NOW_HI = some (BitVec.ofNat 32 (s.gacNow.toNat / 2 ^ 32)) ∧ s.onlyIn t [.latch, .out])
    ∧ (∀ (g : Bus) (v : Word), s.mayRead g R.GAC_NOW_HI = true → x.bad = false → R.GAC_NOW_HI ∉ s.regBad → s.latched R.GAC_NOW_HI = some v →
        ∃ t, exec (.registerRead g (BitVec.ofNat 26 R.GAC_NOW_HI) 4 x) s = .next t ∧ t.out = .read R.GAC_NOW_HI v.toNat false :: s.out ∧ t.latched R.GAC_NOW_HI = none ∧ s.onlyIn t [.latch, .out])
    ∧ (∀ g : Bus, s.mayRead g R.GRV_FILL_LAT_MAX = true → x.bad = false → s.regWaits R.GRV_FILL_LAT_MAX = none → R.GRV_FILL_LAT_MAX ∉ s.regBad → s.latched R.GRV_FILL_LAT_MAX = none →
        ∃ t, exec (.registerRead g (BitVec.ofNat 26 R.GRV_FILL_LAT_MAX) 4 x) s = .next t ∧ t.out = .read R.GRV_FILL_LAT_MAX (s.rd R.GRV_FILL_LAT_MAX).toNat false :: s.out ∧
          t.rd R.GRV_FILL_LAT_MAX = 0 ∧ (∀ a, a ≠ R.GRV_FILL_LAT_MAX → t.rd a = s.rd a) ∧ s.onlyIn t [.regs, .out])

/-- The angle wraps: the time base has run on to the first tick at which the angle reads from 0 again, and the cycle number is one higher, or moved further by a step that was pending, which angle 0 uses up. With no swap and no rollover due, every Dike budget of a
port is full again, the host deliveries are counted from 0, the grace of every draining slot counts down, Sweep has the lines of its rate and its carry, and every pair sees source 48 pending. On the backup cell the GAC alone
runs. -/
def Obligations.AngleZero : Prop :=
  ∀ s : State,
    (s.berm.backup = true → ∃ t, exec .angleZero s = .next t ∧ t.gac.zeros ≠ [] ∧ t.keys = s.keys ∧ t.grv = s.grv ∧ t.fp = s.fp ∧ t.ecc = s.ecc ∧ t.mem = s.mem)
    ∧ (s.berm.backup = false → s.cfg.commit = none → s.keys.rolls = [] →
        ∃ t, exec .angleZero s = .next t ∧
          t.gac.now = s.gac.now + ceilDiv (2 ^ 64 - s.gac.acc.toNat) (max 1 s.gac.incr.toNat) ∧
          t.gac.acc = BitVec.ofNat 64 (s.gac.acc.toNat + ceilDiv (2 ^ 64 - s.gac.acc.toNat) (max 1 s.gac.incr.toNat) * s.gac.incr.toNat) ∧ t.gac.passed = s.gac.passed + 1 ∧
          t.gac.cycle = s.gac.cycle + 1 + (match s.gac.step with | none => 0 | some d => BitVec.ofInt 40 d) ∧ t.gac.step = none ∧
          t.f F.GAC_ZERO_SEQ_SEQ = (s.f F.GAC_ZERO_SEQ_SEQ + 1) % 2 ^ F.GAC_ZERO_SEQ_SEQ.w ∧
          (∀ p, p < 1024 → t.rd (R.SLU_TX_LEFT p) = s.rd (R.SLU_TX_BUDGET p) ∧ t.rd (R.SLU_RX_LEFT p) = s.rd (R.SLU_RX_BUDGET p)) ∧
          t.fp.hostCount = [] ∧ t.fp.demoted = false ∧ t.fp.stomped = false ∧ t.rng.zeros = s.rng.zeros + 1 ∧
          (∀ i, t.ks i = if (s.ks i).state = Ks.draining then { s.ks i with grace := (s.ks i).grace - 1 } else s.ks i) ∧
          (∀ q : Fin 5, bitAt (t.rd (R.DEV_IRQ_PEND (q.val * 8 + 1))).toNat 16 = true) ∧
          t.ecc.sramCarry = (if s.ecc.sramRate = 0 then s.ecc.sramCarry else min (4 * s.ecc.sramRate) s.ecc.sramLeft) ∧
          (s.fb F.SWP_CTL_SRAM_EN = true → 0 < s.f F.SWP_SRAM_RATE_RATE →
            t.ecc.sramLeft = s.f F.SWP_SRAM_RATE_RATE + t.ecc.sramCarry ∧ t.ecc.sramRate = s.f F.SWP_SRAM_RATE_RATE) ∧
          (s.fb F.SWP_CTL_SRAM_EN = false → t.ecc.sramLeft = 0 ∧ t.ecc.sramRate = 0))
end

