-- ==== Sys2Proof/Laws/Bytes.lean ====
section
/-! SUPPORT. Laws of byte strings: what a field reads from a string built of parts, and that what the record layer writes is a valid copy. -/

namespace Sys2Proof.Laws

open Sys2Proof.Machine

@[simp] theorem length_toLe (n v : Nat) : (toLe n v).length = n := by
  induction n generalizing v with
  | zero => rfl
  | succ n ih => simp [toLe, ih]

@[simp] theorem length_toBe (n v : Nat) : (toBe n v).length = n := by simp [toBe]
@[simp] theorem length_sliceB (b : List Byte) (i n : Nat) : (sliceB b i n).length = n := by simp [sliceB]
@[simp] theorem length_fitB (n : Nat) (b : List Byte) : (fitB n b).length = n := by simp [fitB]

theorem leNat_toLe (n v : Nat) : leNat (toLe n v) = v % 256 ^ n := by
  induction n generalizing v with
  | zero => simp [toLe, leNat, Nat.mod_one]
  | succ n ih =>
    simp only [toLe, leNat, ih, BitVec.toNat_ofNat]
    rw [show 256 ^ (n + 1) = 256 * 256 ^ n from Nat.pow_succ', Nat.mod_mul (x := v)]

theorem beNat_reverse (b : List Byte) : beNat b.reverse = leNat b := by
  induction b with
  | nil => rfl
  | cons x b ih =>
    rw [beNat, List.reverse_cons, List.foldl_append, ← beNat, ih]
    simp only [List.foldl_cons, List.foldl_nil, leNat]
    omega

theorem beNat_toBe (n v : Nat) : beNat (toBe n v) = v % 256 ^ n := by rw [toBe, beNat_reverse, leNat_toLe]

theorem sliceB_whole (b : List Byte) : sliceB b 0 b.length = b := by
  refine List.ext_getElem (by simp) fun i h _ => ?_
  have hi : i < b.length := by simpa using h
  simp [sliceB, byteAt, hi]

/-- A slice that lies in the second part of a string. -/
theorem sliceB_right (a b : List Byte) (i n : Nat) : sliceB (a ++ b) (a.length + i) n = sliceB b i n := by
  refine List.ext_getElem (by simp) fun j h _ => ?_
  simp [sliceB, byteAt, List.getD_eq_getElem?_getD, List.getElem?_append_right, Nat.add_assoc]

/-- A slice that lies in the first part of a string. -/
theorem sliceB_left (a b : List Byte) (i n : Nat) (h : i + n ≤ a.length) : sliceB (a ++ b) i n = sliceB a i n := by
  refine List.ext_getElem (by simp) fun j hj _ => ?_
  have : j < n := by simpa using hj
  simp [sliceB, byteAt, List.getD_eq_getElem?_getD, List.getElem?_append_left (show i + j < a.length by omega)]

/-- A field that stands between two parts. -/
theorem sliceB_mid (a m b : List Byte) : sliceB (a ++ (m ++ b)) a.length m.length = m := by
  rw [← Nat.add_zero a.length, sliceB_right, sliceB_left _ _ _ _ (by simp), sliceB_whole]

/-- A slice within a string fitted to a length reads the string itself. -/
theorem sliceB_fitB (m : Nat) (b : List Byte) (i n : Nat) (h : i + n ≤ m) : sliceB (fitB m b) i n = sliceB b i n := by
  refine List.ext_getElem (by simp) fun j hj _ => ?_
  have : j < n := by simpa using hj
  simp [sliceB, fitB, byteAt, List.getD_eq_getElem?_getD, show i + j < m by omega]

/-- A big-endian field that stands between two parts reads as the number written. -/
theorem beAt_mid (a : List Byte) (n v : Nat) (b : List Byte) : beAt (a ++ (toBe n v ++ b)) a.length n = v % 256 ^ n := by
  have := sliceB_mid a (toBe n v) b
  rw [length_toBe] at this
  rw [beAt, this, beNat_toBe]

/-- The part of a record header that its CRC covers. -/
def recFront (r len seq : Nat) (data : List Byte) : List Byte :=
  fitB 0x1FC (ascii "PWRC" ++ toBe 2 1 ++ [0, 0] ++ toBe 4 r ++ toBe 4 len ++ toBe 8 seq ++ toBe 4 (crc32 data).toNat)

theorem recHeader_eq (r len seq : Nat) (data : List Byte) :
    recHeader r len seq data = recFront r len seq data ++ toBe 4 (crc32 (recFront r len seq data)).toNat := rfl

/-- What R442 writes for a record is a valid copy of it, with the SEQ and the data written. -/
theorem recValid_written (r seq : Nat) (data : List Byte) (hr : r < 2 ^ 32) (hs : seq < 2 ^ 64) (hd : data.length ≤ recMax) :
    recValid r (recHeader r data.length seq data ++ data) = true ∧ recSeq (recHeader r data.length seq data ++ data) = seq ∧
      recData (recHeader r data.length seq data ++ data) = data := by
  set x := (crc32 data).toNat with hx
  set w := (crc32 (recFront r data.length seq data)).toNat with hw
  have hx32 : x < 256 ^ 4 := (crc32 data).isLt
  have hw32 : w < 256 ^ 4 := (crc32 (recFront r data.length seq data)).isLt
  have hl : data.length < 256 ^ 4 := lt_of_le_of_lt hd (by decide)
  have front : ∀ o n, o + n ≤ 0x1FC → sliceB (recHeader r data.length seq data ++ data) o n =
      sliceB (ascii "PWRC" ++ toBe 2 1 ++ [0, 0] ++ toBe 4 r ++ toBe 4 data.length ++ toBe 8 seq ++ toBe 4 x) o n := by
    intro o n h
    rw [recHeader_eq, List.append_assoc, sliceB_left _ _ _ _ (by simpa [recFront] using h), recFront, sliceB_fitB _ _ _ _ h]
  have field : ∀ (a b : List Byte) (n v : Nat), a.length + n ≤ 0x1FC → v < 256 ^ n →
      ascii "PWRC" ++ toBe 2 1 ++ [0, 0] ++ toBe 4 r ++ toBe 4 data.length ++ toBe 8 seq ++ toBe 4 x = a ++ (toBe n v ++ b) →
      beAt (recHeader r data.length seq data ++ data) a.length n = v := by
    intro a b n v h hv e
    rw [beAt, front _ _ h, e, ← beAt, beAt_mid, Nat.mod_eq_of_lt hv]
  have f4 := field (ascii "PWRC") ([0, 0] ++ toBe 4 r ++ toBe 4 data.length ++ toBe 8 seq ++ toBe 4 x) 2 1 (by decide) (by decide) (by simp)
  have f8 := field (ascii "PWRC" ++ toBe 2 1 ++ [0, 0]) (toBe 4 data.length ++ toBe 8 seq ++ toBe 4 x) 4 r (by decide) (by omega) (by simp)
  have fC := field (ascii "PWRC" ++ toBe 2 1 ++ [0, 0] ++ toBe 4 r) (toBe 8 seq ++ toBe 4 x) 4 data.length (by simp; decide) hl (by simp)
  have f10 := field (ascii "PWRC" ++ toBe 2 1 ++ [0, 0] ++ toBe 4 r ++ toBe 4 data.length) (toBe 4 x) 8 seq (by simp; decide) (by omega) (by simp)
  have f18 := field (ascii "PWRC" ++ toBe 2 1 ++ [0, 0] ++ toBe 4 r ++ toBe 4 data.length ++ toBe 8 seq) [] 4 x (by simp; decide) hx32 (by simp)
  have la : (ascii "PWRC").length = 4 := by decide
  have lh : (recHeader r data.length seq data).length = 512 := by simp [recHeader_eq, recFront]
  simp only [List.length_append, length_toBe, la, List.length_cons, List.length_nil] at f4 f8 fC f10 f18
  have fl : recLen (recHeader r data.length seq data ++ data) = data.length := fC
  have fd : recData (recHeader r data.length seq data ++ data) = data := by
    have := sliceB_right (recHeader r data.length seq data) data 0 data.length
    rw [lh, sliceB_whole] at this
    rw [recData, fl, this]
  have magic : (recHeader r data.length seq data ++ data).take 4 = ascii "PWRC" := by
    have e : ∀ b : List Byte, 4 ≤ b.length → b.take 4 = sliceB b 0 4 := by
      intro b h
      have := sliceB_left (b.take 4) (b.drop 4) 0 4 (by simp; omega)
      have w := sliceB_whole (b.take 4)
      rw [List.take_append_drop] at this
      rw [show (b.take 4).length = 4 by simp; omega] at w
      rw [this, w]
    rw [e _ (by simp [lh]; omega), front 0 4 (by decide)]
    simp only [List.append_assoc]
    rw [sliceB_left _ _ _ _ (by rw [la]), ← la, sliceB_whole]
  have cover : sliceB (recHeader r data.length seq data ++ data) 0 0x1FC = recFront r data.length seq data := by
    have h := sliceB_whole (recFront r data.length seq data)
    rw [show (recFront r data.length seq data).length = 0x1FC by simp [recFront]] at h
    rw [recHeader_eq, List.append_assoc, sliceB_left _ _ _ _ (by simp [recFront]), h]
  have fcrc : beAt (recHeader r data.length seq data ++ data) 0x1FC 4 = w := by
    have h := beAt_mid (recFront r data.length seq data) 4 w data
    rw [show (recFront r data.length seq data).length = 0x1FC by simp [recFront], Nat.mod_eq_of_lt hw32] at h
    rw [recHeader_eq, List.append_assoc, h]
  refine ⟨?_, f10, fd⟩
  simp only [recValid, Bool.and_eq_true, decide_eq_true_eq, magic, fl, fd, cover, fcrc]
  exact ⟨⟨⟨⟨⟨trivial, f4⟩, f8⟩, hd⟩, hw⟩, f18⟩

/-- What a read picks (R441): of two valid copies that of higher SEQ, else the valid one. -/
theorem recPick_second {r : Nat} {a b : List Byte} (ha : recValid r a = true) (hb : recValid r b = true) (h : recSeq a < recSeq b) : recPick r a b = some b := by
  simp [recPick, ha, hb, h]
theorem recPick_first {r : Nat} {a b : List Byte} (ha : recValid r a = true) (hb : recValid r b = false) : recPick r a b = some a := by
  simp [recPick, ha, hb]
theorem recNext_of_pick {r : Nat} {a b c : List Byte} (h : recPick r a b = some c) : recNext r a b = recSeq c + 1 := by simp [recNext, h]

end Sys2Proof.Laws
end

