-- ==== Sys2Proof/Laws/Tbl.lean ====
section
/-! SUPPORT. Laws of the sparse tables: what a key reads as after each operation, and that each keeps the canonical form. -/

namespace Sys2Proof.Machine

section
variable {α : Type}

@[simp] theorem Tbl.get_nil (d : Nat → α) (k : Nat) : Tbl.get d [] k = d k := rfl

theorem Tbl.get_insert (d : Nat → α) (t : Tbl α) (k : Nat) (v : α) (h : ∀ e ∈ t, e.1 ≠ k) (j : Nat) :
    Tbl.get d (Tbl.insert t k v) j = if j = k then v else Tbl.get d t j := by
  induction t with
  | nil => simp [Tbl.insert, Tbl.get]
  | cons e t ih =>
    obtain ⟨k', v'⟩ := e
    have hk : k' ≠ k := h (k', v') (by simp)
    have ht := ih (fun e he => h e (by simp [he]))
    unfold Tbl.insert
    split <;> simp only [Tbl.get, ht] <;> by_cases hj : j = k <;> simp [hj, Ne.symm hk]

theorem Tbl.get_filter (d : Nat → α) (t : Tbl α) (p : Nat → Bool) (j : Nat) :
    Tbl.get d (t.filter (fun e => p e.1)) j = if p j then Tbl.get d t j else d j := by
  induction t with
  | nil => simp
  | cons e t ih =>
    obtain ⟨k', v'⟩ := e
    by_cases hp : p k' <;> by_cases hj : j = k' <;> simp_all [List.filter, Tbl.get]

/-- A key reads as its reset value after it is cleared, and as before otherwise. -/
theorem Tbl.get_clear (d : Nat → α) (t : Tbl α) (p : Nat → Bool) (j : Nat) :
    Tbl.get d (Tbl.clear t p) j = if p j then d j else Tbl.get d t j := by
  have h := Tbl.get_filter d t (fun k => !p k) j
  simp only [Tbl.clear, h]
  cases p j <;> simp

/-- The key written reads as what was written; every other key as before. -/
theorem Tbl.get_set [DecidableEq α] (d : Nat → α) (t : Tbl α) (k : Nat) (v : α) (j : Nat) :
    Tbl.get d (Tbl.set d t k v) j = if j = k then v else Tbl.get d t j := by
  have hf : ∀ j, Tbl.get d (t.filter (fun e => decide (e.1 ≠ k))) j = if j = k then d j else Tbl.get d t j := by
    intro j
    have h := Tbl.get_filter d t (fun i => decide (i ≠ k)) j
    simp only [h]
    by_cases hj : j = k <;> simp [hj]
  unfold Tbl.set
  by_cases hv : v = d k
  · simp only [hv, if_true, hf]
    by_cases hj : j = k <;> simp [hj]
  · simp only [hv, if_false]
    rw [Tbl.get_insert _ _ _ _ (by simp), hf]
    by_cases hj : j = k <;> simp [hj]

@[simp] theorem Tbl.get_set_self [DecidableEq α] (d : Nat → α) (t : Tbl α) (k : Nat) (v : α) :
    Tbl.get d (Tbl.set d t k v) k = v := by
  simp [Tbl.get_set]

theorem Tbl.get_set_ne [DecidableEq α] (d : Nat → α) (t : Tbl α) {k j : Nat} (v : α) (h : j ≠ k) :
    Tbl.get d (Tbl.set d t k v) j = Tbl.get d t j := by
  simp [Tbl.get_set, h]

/-! ### The canonical form -/

variable [DecidableEq α]

theorem Tbl.wfFrom_none_of (d : Nat → α) (t : Tbl α) {lo : Option Nat} (h : Tbl.wfFrom d lo t = true) :
    Tbl.wfFrom d none t = true := by
  cases t with
  | nil => rfl
  | cons e t => simp_all [Tbl.wfFrom]

theorem Tbl.wfFrom_le (d : Nat → α) (t : Tbl α) {a b : Nat} (hab : a ≤ b) (h : Tbl.wfFrom d (some b) t = true) :
    Tbl.wfFrom d (some a) t = true := by
  cases t with
  | nil => rfl
  | cons e t => simp_all [Tbl.wfFrom]; omega

theorem Tbl.wfFrom_filter (d : Nat → α) (t : Tbl α) (p : Nat × α → Bool) :
    ∀ lo : Option Nat, Tbl.wfFrom d lo t = true → Tbl.wfFrom d lo (t.filter p) = true := by
  induction t with
  | nil => intro lo h; simp [Tbl.wfFrom]
  | cons e t ih =>
    intro lo h
    obtain ⟨k, v⟩ := e
    simp only [Tbl.wfFrom, Bool.and_eq_true] at h
    obtain ⟨⟨h1, h2⟩, h3⟩ := h
    by_cases hp : p (k, v)
    · simp [List.filter, hp, Tbl.wfFrom, ih _ h3, h1]
      simpa using h2
    · simp only [List.filter, hp]
      cases lo with
      | none => exact Tbl.wfFrom_none_of d _ (ih _ h3)
      | some l => exact Tbl.wfFrom_le d _ (Nat.le_of_lt (by simpa using h1)) (ih _ h3)

theorem Tbl.wfFrom_insert (d : Nat → α) (t : Tbl α) (k : Nat) (v : α) (hv : v ≠ d k) :
    ∀ lo : Option Nat, (∀ e ∈ t, e.1 ≠ k) → (∀ l, lo = some l → l < k) → Tbl.wfFrom d lo t = true →
      Tbl.wfFrom d lo (Tbl.insert t k v) = true := by
  induction t with
  | nil => intro lo _ hl _; cases lo <;> simp_all [Tbl.insert, Tbl.wfFrom]
  | cons e t ih =>
    intro lo hn hl h
    obtain ⟨k', v'⟩ := e
    have hk : k' ≠ k := hn (k', v') (by simp)
    unfold Tbl.insert
    split
    · cases lo <;> simp_all [Tbl.wfFrom]
    · simp only [Tbl.wfFrom, Bool.and_eq_true] at h ⊢
      exact ⟨h.1, ih (some k') (fun e he => hn e (by simp [he])) (fun l hl' => by cases hl'; omega) h.2⟩

/-- Writing a key keeps the canonical form. -/
theorem Tbl.wf_set (d : Nat → α) (t : Tbl α) (k : Nat) (v : α) (h : Tbl.wf d t = true) : Tbl.wf d (Tbl.set d t k v) = true := by
  unfold Tbl.set Tbl.wf
  have hf := Tbl.wfFrom_filter d t (fun e => decide (e.1 ≠ k)) none h
  by_cases hv : v = d k
  · simpa [hv] using hf
  · simp only [hv, if_false]
    exact Tbl.wfFrom_insert d _ k v hv none (by simp) (by simp) hf

/-- Clearing keys keeps the canonical form. -/
theorem Tbl.wf_clear (d : Nat → α) (t : Tbl α) (p : Nat → Bool) (h : Tbl.wf d t = true) : Tbl.wf d (Tbl.clear t p) = true :=
  Tbl.wfFrom_filter d t _ none h

theorem Tbl.wf_filter (d : Nat → α) (t : Tbl α) (p : Nat × α → Bool) (h : Tbl.wf d t = true) : Tbl.wf d (t.filter p) = true :=
  Tbl.wfFrom_filter d t p none h

@[simp] theorem Tbl.wf_nil (d : Nat → α) : Tbl.wf d [] = true := rfl

end

end Sys2Proof.Machine
end

