-- ==== Sys2Proof/Laws/Regs.lean ====
section
/-! SUPPORT. Laws of registers and their fields: what a register and a field read as after a write. -/

namespace Sys2Proof.Machine

/-! ### Bit fields of a number -/

theorem bitsOf_eq (v lo w : Nat) : bitsOf v lo w = v / 2 ^ lo % 2 ^ w := by
  simp [bitsOf, Nat.shiftRight_eq_div_pow]

theorem bitsOf_lt (v lo w : Nat) : bitsOf v lo w < 2 ^ w := Nat.mod_lt _ (Nat.two_pow_pos w)

/-- The number with a field replaced, by its three parts. -/
theorem putBits_eq (v lo w x : Nat) :
    putBits v lo w x = v % 2 ^ lo + 2 ^ lo * (x % 2 ^ w + 2 ^ w * (v / 2 ^ lo / 2 ^ w)) := by
  simp only [putBits, bitsOf_eq, Nat.shiftLeft_eq]
  have h1 := Nat.mod_add_div v (2 ^ lo)
  have h2 := Nat.mod_add_div (v / 2 ^ lo) (2 ^ w)
  have h3 : v = v % 2 ^ lo + 2 ^ lo * (v / 2 ^ lo % 2 ^ w) + 2 ^ lo * (2 ^ w * (v / 2 ^ lo / 2 ^ w)) := by
    rw [Nat.add_assoc, ← Nat.mul_add, h2, h1]
  have h4 : v - v / 2 ^ lo % 2 ^ w * 2 ^ lo = v % 2 ^ lo + 2 ^ lo * (2 ^ w * (v / 2 ^ lo / 2 ^ w)) := by
    rw [Nat.mul_comm (v / 2 ^ lo % 2 ^ w)]; omega
  rw [h4, Nat.mul_add, Nat.mul_comm (x % 2 ^ w)]; omega

theorem putBits_lt {v lo w x n : Nat} (hv : v < 2 ^ n) (h : lo + w ≤ n) : putBits v lo w x < 2 ^ n := by
  rw [putBits_eq]
  obtain ⟨m, rfl⟩ := Nat.exists_eq_add_of_le h
  have hd : v / 2 ^ lo / 2 ^ w < 2 ^ m := by
    rw [Nat.div_div_eq_div_mul, ← pow_add]
    exact Nat.div_lt_of_lt_mul (by rw [← pow_add]; exact hv)
  have ha := Nat.mod_lt v (Nat.two_pow_pos lo)
  have hx := Nat.mod_lt x (Nat.two_pow_pos w)
  have h1 : x % 2 ^ w + 2 ^ w * (v / 2 ^ lo / 2 ^ w) < 2 ^ w * 2 ^ m := by
    calc x % 2 ^ w + 2 ^ w * (v / 2 ^ lo / 2 ^ w) < 2 ^ w + 2 ^ w * (v / 2 ^ lo / 2 ^ w) := by omega
      _ = 2 ^ w * (v / 2 ^ lo / 2 ^ w + 1) := by ring
      _ ≤ 2 ^ w * 2 ^ m := Nat.mul_le_mul_left _ hd
  calc v % 2 ^ lo + 2 ^ lo * (x % 2 ^ w + 2 ^ w * (v / 2 ^ lo / 2 ^ w))
      < 2 ^ lo + 2 ^ lo * (x % 2 ^ w + 2 ^ w * (v / 2 ^ lo / 2 ^ w)) := by omega
    _ = 2 ^ lo * (x % 2 ^ w + 2 ^ w * (v / 2 ^ lo / 2 ^ w) + 1) := by ring
    _ ≤ 2 ^ lo * (2 ^ w * 2 ^ m) := Nat.mul_le_mul_left _ h1
    _ = 2 ^ (lo + w + m) := by rw [pow_add, pow_add]; ring

/-- The bits of a number with a field replaced. -/
theorem testBit_putBits (v lo w x i : Nat) :
    (putBits v lo w x).testBit i = if lo ≤ i ∧ i < lo + w then x.testBit (i - lo) else v.testBit i := by
  rw [putBits_eq, Nat.add_comm, Nat.testBit_two_pow_mul_add _ (Nat.mod_lt _ (Nat.two_pow_pos lo))]
  by_cases h1 : i < lo
  · simp [h1, Nat.testBit_mod_two_pow, show ¬ (lo ≤ i) by omega]
  · rw [if_neg h1, Nat.add_comm, Nat.testBit_two_pow_mul_add _ (Nat.mod_lt _ (Nat.two_pow_pos w))]
    by_cases h2 : i - lo < w
    · simp [h2, Nat.testBit_mod_two_pow, show lo ≤ i by omega, show i < lo + w by omega]
    · rw [if_neg h2, if_neg (by omega), Nat.testBit_div_two_pow, Nat.testBit_div_two_pow]
      congr 1; omega

theorem testBit_bitsOf (v lo w i : Nat) : (bitsOf v lo w).testBit i = (decide (i < w) && v.testBit (i + lo)) := by
  rw [bitsOf_eq, Nat.testBit_mod_two_pow, Nat.testBit_div_two_pow]

@[simp] theorem bitsOf_putBits_self (v lo w x : Nat) : bitsOf (putBits v lo w x) lo w = x % 2 ^ w := by
  apply Nat.eq_of_testBit_eq
  intro i
  rw [testBit_bitsOf, testBit_putBits, Nat.testBit_mod_two_pow]
  by_cases h : i < w
  · simp [h, show i + lo < lo + w by omega]
  · simp [h]

theorem bitsOf_putBits_ne {v lo w x lo' w' : Nat} (h : lo' + w' ≤ lo ∨ lo + w ≤ lo') :
    bitsOf (putBits v lo w x) lo' w' = bitsOf v lo' w' := by
  apply Nat.eq_of_testBit_eq
  intro i
  rw [testBit_bitsOf, testBit_bitsOf, testBit_putBits]
  by_cases h' : i < w'
  · simp [h', show ¬ (lo ≤ i + lo' ∧ i + lo' < lo + w) by omega]
  · simp [h']

theorem toNat_or_bit (v : Word) (n : Nat) (h : n < 32) (i : Nat) :
    (v ||| BitVec.ofNat 32 (2 ^ n)).toNat.testBit i = (v.toNat.testBit i || decide (i = n)) := by
  rw [BitVec.toNat_or, Nat.testBit_or, BitVec.toNat_ofNat, Nat.mod_eq_of_lt (Nat.pow_lt_pow_right (by omega) h), Nat.testBit_two_pow]
  simp [eq_comm]

/-! ### Registers -/

/-- The register written reads as what was written; every other register as before. -/
theorem State.rd_wr (s : State) (a : Nat) (v : Word) (b : Nat) : (s.wr a v).rd b = if b = a then v else s.rd b := by
  simp [State.rd, State.wr, Tbl.get_set]

@[simp] theorem State.rd_wr_self (s : State) (a : Nat) (v : Word) : (s.wr a v).rd a = v := by simp [State.rd_wr]

theorem State.rd_wr_ne (s : State) {a b : Nat} (v : Word) (h : b ≠ a) : (s.wr a v).rd b = s.rd b := by simp [State.rd_wr, h]

/-- The number a register holds after one of its fields is set. -/
theorem State.toNat_rd_setF (s : State) (f : Fld) (x : Nat) (h : f.lo + f.w ≤ 32) :
    ((s.setF f x).rd f.addr).toNat = putBits (s.rd f.addr).toNat f.lo f.w x := by
  simp only [State.setF, State.rd_wr_self, BitVec.toNat_ofNat]
  exact Nat.mod_eq_of_lt (putBits_lt (s.rd f.addr).isLt h)

theorem State.rd_setF_ne (s : State) {f : Fld} (x : Nat) {b : Nat} (h : b ≠ f.addr) : (s.setF f x).rd b = s.rd b :=
  State.rd_wr_ne _ _ h

/-- A field set reads as the value, cut to its width. -/
theorem State.f_setF_self (s : State) (f : Fld) (x : Nat) (h : f.lo + f.w ≤ 32) : (s.setF f x).f f = x % 2 ^ f.w := by
  rw [State.f, State.toNat_rd_setF s f x h, bitsOf_putBits_self]

/-- Fields that share no bit. -/
def Fld.apart (f g : Fld) : Bool := decide (g.addr ≠ f.addr) || decide (g.lo + g.w ≤ f.lo) || decide (f.lo + f.w ≤ g.lo)

/-- A field reads as before after a field that shares no bit with it is set. -/
theorem State.f_setF_ne (s : State) {f g : Fld} (x : Nat) (h : f.lo + f.w ≤ 32) (hn : f.apart g = true) :
    (s.setF f x).f g = s.f g := by
  by_cases ha : g.addr = f.addr
  · rw [State.f, State.f, ha, State.toNat_rd_setF s f x h]
    exact bitsOf_putBits_ne (by simp [Fld.apart, ha] at hn; exact hn)
  · rw [State.f, State.f, State.rd_setF_ne s x ha]

theorem State.f_wr_ne (s : State) {a : Nat} (v : Word) {g : Fld} (h : g.addr ≠ a) : (s.wr a v).f g = s.f g := by
  rw [State.f, State.f, State.rd_wr_ne s v h]

theorem State.f_lt (s : State) (f : Fld) : s.f f < 2 ^ f.w := bitsOf_lt _ _ _

/-- The registers cleared read as their reset values; every other one as before. -/
theorem State.rd_resetRegs (s : State) (p : Nat → Bool) (a : Nat) : (s.resetRegs p).rd a = if p a then regReset a else s.rd a := by
  simp [State.rd, State.resetRegs, Tbl.get_clear]

/-! ### Counters and on-chip memory -/

theorem State.ctr_setCtr (s : State) (a n b : Nat) : (s.setCtr a n).ctr b = if b = a then n else s.ctr b := by
  simp [State.ctr, State.setCtr, Tbl.get_set]

@[simp] theorem State.ctr_setCtr_self (s : State) (a n : Nat) : (s.setCtr a n).ctr a = n := by simp [State.ctr_setCtr]

/-- A byte stored reads back; every byte outside those stored reads as before. -/
theorem get_memPut (bs : List Byte) : ∀ (m : Tbl Byte) (a b : Nat),
    Tbl.get (fun _ => 0) (memPut m a bs) b = if a ≤ b ∧ b < a + bs.length then byteAt bs (b - a) else Tbl.get (fun _ => 0) m b := by
  induction bs with
  | nil => intro m a b; simp [memPut, show ¬ (a ≤ b ∧ b < a) by omega]
  | cons x t ih =>
    intro m a b
    rw [memPut, ih, Tbl.get_set]
    by_cases hb : b = a
    · subst hb; simp [byteAt]
    · by_cases h : a + 1 ≤ b ∧ b < a + 1 + t.length
      · obtain ⟨n, rfl⟩ : ∃ n, b = a + 1 + n := ⟨b - (a + 1), by omega⟩
        have h' : a ≤ a + 1 + n ∧ a + 1 + n < a + (x :: t).length := by simp; omega
        rw [if_pos h, if_pos h']
        simp [byteAt, show a + 1 + n - (a + 1) = n by omega, show a + 1 + n - a = n + 1 by omega]
      · rw [if_neg h, if_neg hb, if_neg (by simp; omega)]

theorem State.memB_memWrite (s : State) (a : Nat) (bs : List Byte) (b : Nat) :
    (s.memWrite a bs).memB b = if a ≤ b ∧ b < a + bs.length then byteAt bs (b - a) else s.memB b := by
  exact get_memPut bs s.mem a b

/-- Storing bytes keeps the canonical form of memory. -/
theorem wf_memPut (bs : List Byte) : ∀ (m : Tbl Byte) (a : Nat), Tbl.wf (fun _ => (0 : Byte)) m = true →
    Tbl.wf (fun _ => (0 : Byte)) (memPut m a bs) = true := by
  induction bs with
  | nil => intro m a h; exact h
  | cons x t ih => intro m a h; exact ih _ _ (Tbl.wf_set _ _ _ _ h)

end Sys2Proof.Machine
end

