-- ==== Sys2Proof/Laws/Cmd.lean ====
section
/-! SUPPORT. Laws of the command slots and of the instructions of a pair: what a slot that starts, and an instruction that
issues, come to. -/

namespace Sys2Proof.Machine

/-! ### Command slots -/

/-- A slot that starts runs its command in the state in which it was taken. -/
theorem runCmd_starts (c : CmdSpec) (sl : Slot) (s : State) (h : c.starts sl s = true) :
    runCmd c sl s = .next (settle c (c.held sl s) false (c.act (c.held sl s) (c.taken sl s))) := by
  simp only [CmdSpec.starts, Bool.and_eq_true, Bool.not_eq_true', decide_eq_true_eq, Option.isNone_iff_eq_none] at h
  obtain ⟨⟨⟨⟨⟨⟨h1, h2⟩, h3⟩, h4⟩, h5⟩, h6⟩, h7⟩ := h
  have hf : (c.held sl s).flags = sl.flags.toNat := rfl
  have ha : (c.held sl s).async = false := by simp [Held.async, hf, h4, h5]
  have hs : c.sleeps s = none := by simp [CmdSpec.sleeps, h3]
  have hi : c.inDom s = c := by simp [CmdSpec.inDom, h3]
  simp only [CmdSpec.held] at ha hf h6 h7
  simp only [runCmd, h1, h2, ha, hs, hi, hf, h6, h4, h5, startCmd, runBody, CmdSpec.taken, CmdSpec.held, Bool.false_and,
    Option.filter_none, ne_eq, not_true_eq_false, if_false, Bool.not_true]
  simp [h4, h5, CmdSpec.taken, CmdSpec.held] at *
  simp [h7]

/-- A slot that starts a command which ends at once ends with its reply. -/
theorem runCmd_done (c : CmdSpec) (sl : Slot) (s u : State) (r : Reply) (h : c.starts sl s = true)
    (ha : c.act (c.held sl s) (c.taken sl s) = .done r u) : runCmd c sl s = .next (c.ends sl s r u) := by
  rw [runCmd_starts c sl s h, ha]; rfl

/-- A slot that starts a command which waits is among the waits. -/
theorem runCmd_later (c : CmdSpec) (sl : Slot) (s u : State) (w : Wait) (h : c.starts sl s = true)
    (ha : c.act (c.held sl s) (c.taken sl s) = .later w u) : runCmd c sl s = .next (c.waits sl s w u) := by
  rw [runCmd_starts c sl s h, ha]; rfl

/-- A slot whose turn it is not is not taken. -/
theorem runCmd_turn (c : CmdSpec) (sl : Slot) (s : State) (h : s.turn sl.ring.val = false) : runCmd c sl s = .next s := by
  simp [runCmd, h]

/-! ### Instructions -/

@[simp] theorem State.eccSpan_nil (s : State) (x n : Nat) : s.eccSpan x n [] = s := by
  unfold State.eccSpan
  split <;> rfl

@[simp] theorem State.fetched_nil (s : State) (k x : Nat) : s.fetched k x [] = s := by
  unfold State.fetched
  split <;> simp

/-- An instruction that issues is its body, carried out to its end. -/
theorem State.issue_of_issues (s : State) (k : Issue) (body : State → Pair → Ex State) (h : s.issues k) :
    s.issue k body = s.settle k.val (body s (s.pr k.val)) := by
  obtain ⟨h1, h2, h3⟩ := h
  simp [State.issue, h1, h2, h3, Ex.bind]

/-- A pair that cannot issue does nothing. -/
theorem State.issue_of_not (s : State) (k : Issue) (body : State → Pair → Ex State) (h : s.canIssue k.val = false) :
    s.issue k body = s := by
  simp [State.issue, h]

@[simp] theorem State.settle_ok (s t : State) (k : Nat) : s.settle k (.ok t) = t := rfl
@[simp] theorem State.settle_hold (s : State) (k : Nat) : s.settle k .hold = s := rfl
@[simp] theorem State.settle_fault (s : State) (k c a v : Nat) : s.settle k (.fault c a (some v)) = s.enter k c a v none := rfl

/-! ### Parts held by index -/

theorem State.pr_setPr (s : State) (k : Nat) (p : Pair) (j : Nat) : (s.setPr k p).pr j = if j = k then p else s.pr j := by
  simp [State.pr, State.setPr, Tbl.get_set]

@[simp] theorem State.pr_setPr_self (s : State) (k : Nat) (p : Pair) : (s.setPr k p).pr k = p := by simp [State.pr_setPr]

theorem Pair.reg_setReg (p : Pair) (i : Nat) (v : CReg) (j : Nat) :
    (p.setReg i v).reg j = if j = i ∧ i ≠ 0 then v else p.reg j := by
  by_cases hi : i = 0 <;> by_cases hj : j = 0 <;> by_cases h : j = i <;> simp_all [Pair.setReg, Pair.reg, Tbl.get_set]

theorem State.ch_setCh (s : State) (n : Nat) (c : DmaCh) (m : Nat) : (s.setCh n c).ch m = if m = n then c else s.ch m := by
  simp [State.ch, State.setCh, Tbl.get_set]

theorem State.app_setApp (s : State) (n : Nat) (a : Option App) (m : Nat) : (s.setApp n a).app m = if m = n then a else s.app m := by
  simp [State.app, State.setApp, Tbl.get_set]

theorem State.way_setWay (s : State) (i : Nat) (w : Option CpsWay) (j : Nat) : (s.setWay i w).way j = if j = i then w else s.way j := by
  simp [State.way, State.setWay, Tbl.get_set]

theorem State.line_setLine (s : State) (r e : Nat) (l : GrvLine) (q f : Nat) :
    (s.setLine r e l).line q f = if lineKey q f = lineKey r e then l else s.line q f := by
  simp [State.line, State.setLine, Tbl.get_set]

end Sys2Proof.Machine
end

