-- ==== Sys2Proof/Laws/Keep.lean ====
section
/-! SUPPORT. What every operation keeps: the queue of commands, and the canonical form of the register file and of on-chip
memory. `s.Kept t` says so of a change from `s` to `t`; the files KeepOps and after it say it once for every operation. -/

namespace Sys2Proof.Machine

/-- The change from `s` to `t` leaves the queue alone and keeps a sound state sound. -/
def State.Kept (s t : State) : Prop := t.pending = s.pending ∧ (s.Sound → t.Sound)

/-- An outcome is a next state that is kept. -/
def State.KeptR (s : State) (r : Res) : Prop := ∃ t, r = .next t ∧ s.Kept t

/-- Whatever state an optional result holds is kept. -/
def Opt.Kept {α : Type} (f : α → State) (s : State) (o : Option α) : Prop := ∀ x, o = some x → s.Kept (f x)

/-- Whatever state the result of an instruction's part holds is kept. -/
def Ex.Kept {α : Type} (f : α → State) (s : State) (o : Ex α) : Prop := ∀ x, o = .ok x → s.Kept (f x)

/-- The state in which a command's body ends or waits is kept. -/
def CmdRes.Kept (r : CmdRes) (s : State) : Prop := match r with
  | .done _ t => s.Kept t
  | .later _ t => s.Kept t

/-- The body of a command, and its refusal, keep the queue and soundness. -/
def CmdSpec.Keeps (c : CmdSpec) : Prop :=
  ∀ (s u : State) (h : Held), s.Kept u → (c.act h u).Kept s ∧ ∀ r, s.Kept (c.refused h r u)

theorem State.Kept.refl (s : State) : s.Kept s := ⟨rfl, id⟩

theorem State.Kept.trans {s t u : State} (h : s.Kept t) (g : t.Kept u) : s.Kept u := ⟨g.1.trans h.1, fun x => g.2 (h.2 x)⟩

/-- A record update that touches neither the register file, nor on-chip memory, nor the queue. -/
theorem State.Kept.mk {s u : State} (h : s.Kept u) {a b c d e f g i j k l m n o p q r v w x y z a1 b1 c1 d1 e1 f1 g1 h1 i1 j1} :
    s.Kept ⟨u.regs, a, b, c, d, e, f, g, i, j, k, l, m, n, o, p, q, r, v, w, x, y, z, a1, b1, c1, d1, e1, f1, g1, u.mem, h1, i1, j1, u.pending⟩ :=
  ⟨h.1, fun hs => ⟨(h.2 hs).regs, (h.2 hs).mem⟩⟩

theorem State.kept_mk {s u : State} {a b c d e f g i j k l m n o p q r v w x y z a1 b1 c1 d1 e1 f1 g1 h1 i1 j1} :
    s.Kept ⟨u.regs, a, b, c, d, e, f, g, i, j, k, l, m, n, o, p, q, r, v, w, x, y, z, a1, b1, c1, d1, e1, f1, g1, u.mem, h1, i1, j1, u.pending⟩ = s.Kept u :=
  propext ⟨fun h => ⟨h.1, fun hs => ⟨(h.2 hs).regs, (h.2 hs).mem⟩⟩, fun h => State.Kept.mk h⟩

/-- A record update that clears registers. -/
theorem State.Kept.mkRegs {s u : State} (h : s.Kept u) {R : Tbl Word} (hR : Tbl.wf regReset u.regs = true → Tbl.wf regReset R = true)
    {a b c d e f g i j k l m n o p q r v w x y z a1 b1 c1 d1 e1 f1 g1 h1 i1 j1} :
    s.Kept ⟨R, a, b, c, d, e, f, g, i, j, k, l, m, n, o, p, q, r, v, w, x, y, z, a1, b1, c1, d1, e1, f1, g1, u.mem, h1, i1, j1, u.pending⟩ :=
  ⟨h.1, fun hs => ⟨hR (h.2 hs).regs, (h.2 hs).mem⟩⟩

/-- A record update that changes on-chip memory. -/
theorem State.Kept.mkMem {s u : State} (h : s.Kept u) {M : Tbl Byte}
    (hM : Tbl.wf (fun _ => (0 : Byte)) u.mem = true → Tbl.wf (fun _ => (0 : Byte)) M = true)
    {a b c d e f g i j k l m n o p q r v w x y z a1 b1 c1 d1 e1 f1 g1 h1 i1 j1} :
    s.Kept ⟨u.regs, a, b, c, d, e, f, g, i, j, k, l, m, n, o, p, q, r, v, w, x, y, z, a1, b1, c1, d1, e1, f1, g1, M, h1, i1, j1, u.pending⟩ :=
  ⟨h.1, fun hs => ⟨(h.2 hs).regs, hM (h.2 hs).mem⟩⟩

theorem State.Kept.ite {s a b : State} {p : Prop} [Decidable p] (ha : s.Kept a) (hb : s.Kept b) : s.Kept (if p then a else b) := by
  split <;> assumption

/-- A fold each of whose steps is kept. -/
theorem State.foldl_kept {α β : Type} {s : State} (p : β → State) (l : List α) (g : β → α → β)
    (hg : ∀ b a, s.Kept (p b) → s.Kept (p (g b a))) : ∀ {b : β}, s.Kept (p b) → s.Kept (p (l.foldl g b)) := by
  induction l with
  | nil => exact fun h => h
  | cons a l ih => exact fun h => ih (hg _ a h)

theorem State.KeptR.next {s t : State} (h : s.Kept t) : s.KeptR (.next t) := ⟨t, rfl, h⟩

theorem Opt.Kept.none {α : Type} {f : α → State} {s : State} : Opt.Kept f s none := fun _ h => by cases h
theorem Opt.Kept.some {α : Type} {f : α → State} {s : State} {x : α} (h : s.Kept (f x)) : Opt.Kept f s (some x) :=
  fun _ e => by cases e; exact h
theorem Opt.Kept.map {α β : Type} {f : β → State} {s : State} {g : α → β} {o : Option α} (h : ∀ x, s.Kept (f (g x))) :
    Opt.Kept f s (o.map g) := by
  intro y e
  cases o with
  | none => cases e
  | some x => cases e; exact h x
theorem Opt.Kept.ite {α : Type} {f : α → State} {s : State} {p : Prop} [Decidable p] {a b : Option α}
    (ha : Opt.Kept f s a) (hb : Opt.Kept f s b) : Opt.Kept f s (if p then a else b) := by split <;> assumption
theorem Ex.Kept.ok {α : Type} {f : α → State} {s : State} {x : α} (h : s.Kept (f x)) : Ex.Kept f s (.ok x) :=
  fun _ e => by cases e; exact h
theorem Ex.Kept.fault {α : Type} {f : α → State} {s : State} {a b : Nat} {c : Option Nat} : Ex.Kept f s (.fault a b c) :=
  fun _ h => by cases h
theorem Ex.Kept.stall {α : Type} {f : α → State} {s : State} {a b c : Nat} : Ex.Kept f s (.stall a b c) := fun _ h => by cases h
theorem Ex.Kept.hold {α : Type} {f : α → State} {s : State} : Ex.Kept f s .hold := fun _ h => by cases h
theorem CmdRes.Kept.done {s t : State} {r : Reply} (h : s.Kept t) : (CmdRes.done r t).Kept s := h
theorem CmdRes.Kept.later {s t : State} {w : Wait} (h : s.Kept t) : (CmdRes.later w t).Kept s := h

theorem State.wr_kept {s u : State} (h : s.Kept u) (a : Nat) (v : Word) : s.Kept (u.wr a v) :=
  State.Kept.mkRegs h (Tbl.wf_set _ _ _ _)

theorem State.resetRegs_kept {s u : State} (h : s.Kept u) (p : Nat → Bool) : s.Kept (u.resetRegs p) :=
  State.Kept.mkRegs h (Tbl.wf_clear _ _ _)

theorem State.memWrite_kept {s u : State} (h : s.Kept u) (a : Nat) (bs : List Byte) : s.Kept (u.memWrite a bs) :=
  State.Kept.mkMem h (wf_memPut _ _ _)

theorem State.doIf_kept {s u : State} (h : s.Kept u) (c : Bool) (g : State → State) (hg : ∀ t, s.Kept t → s.Kept (g t)) :
    s.Kept (u.doIf c g) := by
  cases c
  · exact h
  · exact hg u h

theorem State.forEach_kept {α : Type} {s : State} (l : List α) (g : State → α → State) (hg : ∀ t a, s.Kept t → s.Kept (g t a)) :
    ∀ {u : State}, s.Kept u → s.Kept (u.forEach l g) := by
  induction l with
  | nil => exact fun h => h
  | cons a l ih => exact fun h => ih (hg _ a h)

end Sys2Proof.Machine
end

