-- ==== Sys2Proof/Laws/State.lean ====
section
/-! SUPPORT. Laws of State: what each update of one part leaves alone, a lemma for each part. -/

namespace Sys2Proof.Machine

/-! ### After `wr` -/

@[simp] theorem State.regBad_wr (s : State) (a : Nat) (v : Word) : (s.wr a v).regBad = s.regBad := rfl
@[simp] theorem State.latch_wr (s : State) (a : Nat) (v : Word) : (s.wr a v).latch = s.latch := rfl
@[simp] theorem State.ctrs_wr (s : State) (a : Nat) (v : Word) : (s.wr a v).ctrs = s.ctrs := rfl
@[simp] theorem State.free_wr (s : State) (a : Nat) (v : Word) : (s.wr a v).free = s.free := rfl
@[simp] theorem State.gac_wr (s : State) (a : Nat) (v : Word) : (s.wr a v).gac = s.gac := rfl
@[simp] theorem State.cul_wr (s : State) (a : Nat) (v : Word) : (s.wr a v).cul = s.cul := rfl
@[simp] theorem State.keys_wr (s : State) (a : Nat) (v : Word) : (s.wr a v).keys = s.keys := rfl
@[simp] theorem State.ciq_wr (s : State) (a : Nat) (v : Word) : (s.wr a v).ciq = s.ciq := rfl
@[simp] theorem State.pke_wr (s : State) (a : Nat) (v : Word) : (s.wr a v).pke = s.pke := rfl
@[simp] theorem State.rng_wr (s : State) (a : Nat) (v : Word) : (s.wr a v).rng = s.rng := rfl
@[simp] theorem State.nv_wr (s : State) (a : Nat) (v : Word) : (s.wr a v).nv = s.nv := rfl
@[simp] theorem State.berm_wr (s : State) (a : Nat) (v : Word) : (s.wr a v).berm = s.berm := rfl
@[simp] theorem State.pwr_wr (s : State) (a : Nat) (v : Word) : (s.wr a v).pwr = s.pwr := rfl
@[simp] theorem State.dma_wr (s : State) (a : Nat) (v : Word) : (s.wr a v).dma = s.dma := rfl
@[simp] theorem State.pairs_wr (s : State) (a : Nat) (v : Word) : (s.wr a v).pairs = s.pairs := rfl
@[simp] theorem State.ecc_wr (s : State) (a : Nat) (v : Word) : (s.wr a v).ecc = s.ecc := rfl
@[simp] theorem State.grv_wr (s : State) (a : Nat) (v : Word) : (s.wr a v).grv = s.grv := rfl
@[simp] theorem State.fp_wr (s : State) (a : Nat) (v : Word) : (s.wr a v).fp = s.fp := rfl
@[simp] theorem State.slu_wr (s : State) (a : Nat) (v : Word) : (s.wr a v).slu = s.slu := rfl
@[simp] theorem State.lanes_wr (s : State) (a : Nat) (v : Word) : (s.wr a v).lanes = s.lanes := rfl
@[simp] theorem State.ctxs_wr (s : State) (a : Nat) (v : Word) : (s.wr a v).ctxs = s.ctxs := rfl
@[simp] theorem State.ext_wr (s : State) (a : Nat) (v : Word) : (s.wr a v).ext = s.ext := rfl
@[simp] theorem State.cal_wr (s : State) (a : Nat) (v : Word) : (s.wr a v).cal = s.cal := rfl
@[simp] theorem State.cfg_wr (s : State) (a : Nat) (v : Word) : (s.wr a v).cfg = s.cfg := rfl
@[simp] theorem State.boot_wr (s : State) (a : Nat) (v : Word) : (s.wr a v).boot = s.boot := rfl
@[simp] theorem State.twin_wr (s : State) (a : Nat) (v : Word) : (s.wr a v).twin = s.twin := rfl
@[simp] theorem State.apps_wr (s : State) (a : Nat) (v : Word) : (s.wr a v).apps = s.apps := rfl
@[simp] theorem State.fld_wr (s : State) (a : Nat) (v : Word) : (s.wr a v).fld = s.fld := rfl
@[simp] theorem State.crd_wr (s : State) (a : Nat) (v : Word) : (s.wr a v).crd = s.crd := rfl
@[simp] theorem State.mem_wr (s : State) (a : Nat) (v : Word) : (s.wr a v).mem = s.mem := rfl
@[simp] theorem State.tags_wr (s : State) (a : Nat) (v : Word) : (s.wr a v).tags = s.tags := rfl
@[simp] theorem State.cxl_wr (s : State) (a : Nat) (v : Word) : (s.wr a v).cxl = s.cxl := rfl
@[simp] theorem State.out_wr (s : State) (a : Nat) (v : Word) : (s.wr a v).out = s.out := rfl
@[simp] theorem State.pending_wr (s : State) (a : Nat) (v : Word) : (s.wr a v).pending = s.pending := rfl

/-! ### After `setF` -/

@[simp] theorem State.regBad_setF (s : State) (f : Fld) (x : Nat) : (s.setF f x).regBad = s.regBad := rfl
@[simp] theorem State.latch_setF (s : State) (f : Fld) (x : Nat) : (s.setF f x).latch = s.latch := rfl
@[simp] theorem State.ctrs_setF (s : State) (f : Fld) (x : Nat) : (s.setF f x).ctrs = s.ctrs := rfl
@[simp] theorem State.free_setF (s : State) (f : Fld) (x : Nat) : (s.setF f x).free = s.free := rfl
@[simp] theorem State.gac_setF (s : State) (f : Fld) (x : Nat) : (s.setF f x).gac = s.gac := rfl
@[simp] theorem State.cul_setF (s : State) (f : Fld) (x : Nat) : (s.setF f x).cul = s.cul := rfl
@[simp] theorem State.keys_setF (s : State) (f : Fld) (x : Nat) : (s.setF f x).keys = s.keys := rfl
@[simp] theorem State.ciq_setF (s : State) (f : Fld) (x : Nat) : (s.setF f x).ciq = s.ciq := rfl
@[simp] theorem State.pke_setF (s : State) (f : Fld) (x : Nat) : (s.setF f x).pke = s.pke := rfl
@[simp] theorem State.rng_setF (s : State) (f : Fld) (x : Nat) : (s.setF f x).rng = s.rng := rfl
@[simp] theorem State.nv_setF (s : State) (f : Fld) (x : Nat) : (s.setF f x).nv = s.nv := rfl
@[simp] theorem State.berm_setF (s : State) (f : Fld) (x : Nat) : (s.setF f x).berm = s.berm := rfl
@[simp] theorem State.pwr_setF (s : State) (f : Fld) (x : Nat) : (s.setF f x).pwr = s.pwr := rfl
@[simp] theorem State.dma_setF (s : State) (f : Fld) (x : Nat) : (s.setF f x).dma = s.dma := rfl
@[simp] theorem State.pairs_setF (s : State) (f : Fld) (x : Nat) : (s.setF f x).pairs = s.pairs := rfl
@[simp] theorem State.ecc_setF (s : State) (f : Fld) (x : Nat) : (s.setF f x).ecc = s.ecc := rfl
@[simp] theorem State.grv_setF (s : State) (f : Fld) (x : Nat) : (s.setF f x).grv = s.grv := rfl
@[simp] theorem State.fp_setF (s : State) (f : Fld) (x : Nat) : (s.setF f x).fp = s.fp := rfl
@[simp] theorem State.slu_setF (s : State) (f : Fld) (x : Nat) : (s.setF f x).slu = s.slu := rfl
@[simp] theorem State.lanes_setF (s : State) (f : Fld) (x : Nat) : (s.setF f x).lanes = s.lanes := rfl
@[simp] theorem State.ctxs_setF (s : State) (f : Fld) (x : Nat) : (s.setF f x).ctxs = s.ctxs := rfl
@[simp] theorem State.ext_setF (s : State) (f : Fld) (x : Nat) : (s.setF f x).ext = s.ext := rfl
@[simp] theorem State.cal_setF (s : State) (f : Fld) (x : Nat) : (s.setF f x).cal = s.cal := rfl
@[simp] theorem State.cfg_setF (s : State) (f : Fld) (x : Nat) : (s.setF f x).cfg = s.cfg := rfl
@[simp] theorem State.boot_setF (s : State) (f : Fld) (x : Nat) : (s.setF f x).boot = s.boot := rfl
@[simp] theorem State.twin_setF (s : State) (f : Fld) (x : Nat) : (s.setF f x).twin = s.twin := rfl
@[simp] theorem State.apps_setF (s : State) (f : Fld) (x : Nat) : (s.setF f x).apps = s.apps := rfl
@[simp] theorem State.fld_setF (s : State) (f : Fld) (x : Nat) : (s.setF f x).fld = s.fld := rfl
@[simp] theorem State.crd_setF (s : State) (f : Fld) (x : Nat) : (s.setF f x).crd = s.crd := rfl
@[simp] theorem State.mem_setF (s : State) (f : Fld) (x : Nat) : (s.setF f x).mem = s.mem := rfl
@[simp] theorem State.tags_setF (s : State) (f : Fld) (x : Nat) : (s.setF f x).tags = s.tags := rfl
@[simp] theorem State.cxl_setF (s : State) (f : Fld) (x : Nat) : (s.setF f x).cxl = s.cxl := rfl
@[simp] theorem State.out_setF (s : State) (f : Fld) (x : Nat) : (s.setF f x).out = s.out := rfl
@[simp] theorem State.pending_setF (s : State) (f : Fld) (x : Nat) : (s.setF f x).pending = s.pending := rfl

/-! ### After `setB` -/

@[simp] theorem State.regBad_setB (s : State) (f : Fld) (b : Bool) : (s.setB f b).regBad = s.regBad := rfl
@[simp] theorem State.latch_setB (s : State) (f : Fld) (b : Bool) : (s.setB f b).latch = s.latch := rfl
@[simp] theorem State.ctrs_setB (s : State) (f : Fld) (b : Bool) : (s.setB f b).ctrs = s.ctrs := rfl
@[simp] theorem State.free_setB (s : State) (f : Fld) (b : Bool) : (s.setB f b).free = s.free := rfl
@[simp] theorem State.gac_setB (s : State) (f : Fld) (b : Bool) : (s.setB f b).gac = s.gac := rfl
@[simp] theorem State.cul_setB (s : State) (f : Fld) (b : Bool) : (s.setB f b).cul = s.cul := rfl
@[simp] theorem State.keys_setB (s : State) (f : Fld) (b : Bool) : (s.setB f b).keys = s.keys := rfl
@[simp] theorem State.ciq_setB (s : State) (f : Fld) (b : Bool) : (s.setB f b).ciq = s.ciq := rfl
@[simp] theorem State.pke_setB (s : State) (f : Fld) (b : Bool) : (s.setB f b).pke = s.pke := rfl
@[simp] theorem State.rng_setB (s : State) (f : Fld) (b : Bool) : (s.setB f b).rng = s.rng := rfl
@[simp] theorem State.nv_setB (s : State) (f : Fld) (b : Bool) : (s.setB f b).nv = s.nv := rfl
@[simp] theorem State.berm_setB (s : State) (f : Fld) (b : Bool) : (s.setB f b).berm = s.berm := rfl
@[simp] theorem State.pwr_setB (s : State) (f : Fld) (b : Bool) : (s.setB f b).pwr = s.pwr := rfl
@[simp] theorem State.dma_setB (s : State) (f : Fld) (b : Bool) : (s.setB f b).dma = s.dma := rfl
@[simp] theorem State.pairs_setB (s : State) (f : Fld) (b : Bool) : (s.setB f b).pairs = s.pairs := rfl
@[simp] theorem State.ecc_setB (s : State) (f : Fld) (b : Bool) : (s.setB f b).ecc = s.ecc := rfl
@[simp] theorem State.grv_setB (s : State) (f : Fld) (b : Bool) : (s.setB f b).grv = s.grv := rfl
@[simp] theorem State.fp_setB (s : State) (f : Fld) (b : Bool) : (s.setB f b).fp = s.fp := rfl
@[simp] theorem State.slu_setB (s : State) (f : Fld) (b : Bool) : (s.setB f b).slu = s.slu := rfl
@[simp] theorem State.lanes_setB (s : State) (f : Fld) (b : Bool) : (s.setB f b).lanes = s.lanes := rfl
@[simp] theorem State.ctxs_setB (s : State) (f : Fld) (b : Bool) : (s.setB f b).ctxs = s.ctxs := rfl
@[simp] theorem State.ext_setB (s : State) (f : Fld) (b : Bool) : (s.setB f b).ext = s.ext := rfl
@[simp] theorem State.cal_setB (s : State) (f : Fld) (b : Bool) : (s.setB f b).cal = s.cal := rfl
@[simp] theorem State.cfg_setB (s : State) (f : Fld) (b : Bool) : (s.setB f b).cfg = s.cfg := rfl
@[simp] theorem State.boot_setB (s : State) (f : Fld) (b : Bool) : (s.setB f b).boot = s.boot := rfl
@[simp] theorem State.twin_setB (s : State) (f : Fld) (b : Bool) : (s.setB f b).twin = s.twin := rfl
@[simp] theorem State.apps_setB (s : State) (f : Fld) (b : Bool) : (s.setB f b).apps = s.apps := rfl
@[simp] theorem State.fld_setB (s : State) (f : Fld) (b : Bool) : (s.setB f b).fld = s.fld := rfl
@[simp] theorem State.crd_setB (s : State) (f : Fld) (b : Bool) : (s.setB f b).crd = s.crd := rfl
@[simp] theorem State.mem_setB (s : State) (f : Fld) (b : Bool) : (s.setB f b).mem = s.mem := rfl
@[simp] theorem State.tags_setB (s : State) (f : Fld) (b : Bool) : (s.setB f b).tags = s.tags := rfl
@[simp] theorem State.cxl_setB (s : State) (f : Fld) (b : Bool) : (s.setB f b).cxl = s.cxl := rfl
@[simp] theorem State.out_setB (s : State) (f : Fld) (b : Bool) : (s.setB f b).out = s.out := rfl
@[simp] theorem State.pending_setB (s : State) (f : Fld) (b : Bool) : (s.setB f b).pending = s.pending := rfl

/-! ### After `addF` -/

@[simp] theorem State.regBad_addF (s : State) (f : Fld) (n : Nat) : (s.addF f n).regBad = s.regBad := rfl
@[simp] theorem State.latch_addF (s : State) (f : Fld) (n : Nat) : (s.addF f n).latch = s.latch := rfl
@[simp] theorem State.ctrs_addF (s : State) (f : Fld) (n : Nat) : (s.addF f n).ctrs = s.ctrs := rfl
@[simp] theorem State.free_addF (s : State) (f : Fld) (n : Nat) : (s.addF f n).free = s.free := rfl
@[simp] theorem State.gac_addF (s : State) (f : Fld) (n : Nat) : (s.addF f n).gac = s.gac := rfl
@[simp] theorem State.cul_addF (s : State) (f : Fld) (n : Nat) : (s.addF f n).cul = s.cul := rfl
@[simp] theorem State.keys_addF (s : State) (f : Fld) (n : Nat) : (s.addF f n).keys = s.keys := rfl
@[simp] theorem State.ciq_addF (s : State) (f : Fld) (n : Nat) : (s.addF f n).ciq = s.ciq := rfl
@[simp] theorem State.pke_addF (s : State) (f : Fld) (n : Nat) : (s.addF f n).pke = s.pke := rfl
@[simp] theorem State.rng_addF (s : State) (f : Fld) (n : Nat) : (s.addF f n).rng = s.rng := rfl
@[simp] theorem State.nv_addF (s : State) (f : Fld) (n : Nat) : (s.addF f n).nv = s.nv := rfl
@[simp] theorem State.berm_addF (s : State) (f : Fld) (n : Nat) : (s.addF f n).berm = s.berm := rfl
@[simp] theorem State.pwr_addF (s : State) (f : Fld) (n : Nat) : (s.addF f n).pwr = s.pwr := rfl
@[simp] theorem State.dma_addF (s : State) (f : Fld) (n : Nat) : (s.addF f n).dma = s.dma := rfl
@[simp] theorem State.pairs_addF (s : State) (f : Fld) (n : Nat) : (s.addF f n).pairs = s.pairs := rfl
@[simp] theorem State.ecc_addF (s : State) (f : Fld) (n : Nat) : (s.addF f n).ecc = s.ecc := rfl
@[simp] theorem State.grv_addF (s : State) (f : Fld) (n : Nat) : (s.addF f n).grv = s.grv := rfl
@[simp] theorem State.fp_addF (s : State) (f : Fld) (n : Nat) : (s.addF f n).fp = s.fp := rfl
@[simp] theorem State.slu_addF (s : State) (f : Fld) (n : Nat) : (s.addF f n).slu = s.slu := rfl
@[simp] theorem State.lanes_addF (s : State) (f : Fld) (n : Nat) : (s.addF f n).lanes = s.lanes := rfl
@[simp] theorem State.ctxs_addF (s : State) (f : Fld) (n : Nat) : (s.addF f n).ctxs = s.ctxs := rfl
@[simp] theorem State.ext_addF (s : State) (f : Fld) (n : Nat) : (s.addF f n).ext = s.ext := rfl
@[simp] theorem State.cal_addF (s : State) (f : Fld) (n : Nat) : (s.addF f n).cal = s.cal := rfl
@[simp] theorem State.cfg_addF (s : State) (f : Fld) (n : Nat) : (s.addF f n).cfg = s.cfg := rfl
@[simp] theorem State.boot_addF (s : State) (f : Fld) (n : Nat) : (s.addF f n).boot = s.boot := rfl
@[simp] theorem State.twin_addF (s : State) (f : Fld) (n : Nat) : (s.addF f n).twin = s.twin := rfl
@[simp] theorem State.apps_addF (s : State) (f : Fld) (n : Nat) : (s.addF f n).apps = s.apps := rfl
@[simp] theorem State.fld_addF (s : State) (f : Fld) (n : Nat) : (s.addF f n).fld = s.fld := rfl
@[simp] theorem State.crd_addF (s : State) (f : Fld) (n : Nat) : (s.addF f n).crd = s.crd := rfl
@[simp] theorem State.mem_addF (s : State) (f : Fld) (n : Nat) : (s.addF f n).mem = s.mem := rfl
@[simp] theorem State.tags_addF (s : State) (f : Fld) (n : Nat) : (s.addF f n).tags = s.tags := rfl
@[simp] theorem State.cxl_addF (s : State) (f : Fld) (n : Nat) : (s.addF f n).cxl = s.cxl := rfl
@[simp] theorem State.out_addF (s : State) (f : Fld) (n : Nat) : (s.addF f n).out = s.out := rfl
@[simp] theorem State.pending_addF (s : State) (f : Fld) (n : Nat) : (s.addF f n).pending = s.pending := rfl

/-! ### After `addSat` -/

@[simp] theorem State.regBad_addSat (s : State) (f : Fld) (n : Nat) : (s.addSat f n).regBad = s.regBad := rfl
@[simp] theorem State.latch_addSat (s : State) (f : Fld) (n : Nat) : (s.addSat f n).latch = s.latch := rfl
@[simp] theorem State.ctrs_addSat (s : State) (f : Fld) (n : Nat) : (s.addSat f n).ctrs = s.ctrs := rfl
@[simp] theorem State.free_addSat (s : State) (f : Fld) (n : Nat) : (s.addSat f n).free = s.free := rfl
@[simp] theorem State.gac_addSat (s : State) (f : Fld) (n : Nat) : (s.addSat f n).gac = s.gac := rfl
@[simp] theorem State.cul_addSat (s : State) (f : Fld) (n : Nat) : (s.addSat f n).cul = s.cul := rfl
@[simp] theorem State.keys_addSat (s : State) (f : Fld) (n : Nat) : (s.addSat f n).keys = s.keys := rfl
@[simp] theorem State.ciq_addSat (s : State) (f : Fld) (n : Nat) : (s.addSat f n).ciq = s.ciq := rfl
@[simp] theorem State.pke_addSat (s : State) (f : Fld) (n : Nat) : (s.addSat f n).pke = s.pke := rfl
@[simp] theorem State.rng_addSat (s : State) (f : Fld) (n : Nat) : (s.addSat f n).rng = s.rng := rfl
@[simp] theorem State.nv_addSat (s : State) (f : Fld) (n : Nat) : (s.addSat f n).nv = s.nv := rfl
@[simp] theorem State.berm_addSat (s : State) (f : Fld) (n : Nat) : (s.addSat f n).berm = s.berm := rfl
@[simp] theorem State.pwr_addSat (s : State) (f : Fld) (n : Nat) : (s.addSat f n).pwr = s.pwr := rfl
@[simp] theorem State.dma_addSat (s : State) (f : Fld) (n : Nat) : (s.addSat f n).dma = s.dma := rfl
@[simp] theorem State.pairs_addSat (s : State) (f : Fld) (n : Nat) : (s.addSat f n).pairs = s.pairs := rfl
@[simp] theorem State.ecc_addSat (s : State) (f : Fld) (n : Nat) : (s.addSat f n).ecc = s.ecc := rfl
@[simp] theorem State.grv_addSat (s : State) (f : Fld) (n : Nat) : (s.addSat f n).grv = s.grv := rfl
@[simp] theorem State.fp_addSat (s : State) (f : Fld) (n : Nat) : (s.addSat f n).fp = s.fp := rfl
@[simp] theorem State.slu_addSat (s : State) (f : Fld) (n : Nat) : (s.addSat f n).slu = s.slu := rfl
@[simp] theorem State.lanes_addSat (s : State) (f : Fld) (n : Nat) : (s.addSat f n).lanes = s.lanes := rfl
@[simp] theorem State.ctxs_addSat (s : State) (f : Fld) (n : Nat) : (s.addSat f n).ctxs = s.ctxs := rfl
@[simp] theorem State.ext_addSat (s : State) (f : Fld) (n : Nat) : (s.addSat f n).ext = s.ext := rfl
@[simp] theorem State.cal_addSat (s : State) (f : Fld) (n : Nat) : (s.addSat f n).cal = s.cal := rfl
@[simp] theorem State.cfg_addSat (s : State) (f : Fld) (n : Nat) : (s.addSat f n).cfg = s.cfg := rfl
@[simp] theorem State.boot_addSat (s : State) (f : Fld) (n : Nat) : (s.addSat f n).boot = s.boot := rfl
@[simp] theorem State.twin_addSat (s : State) (f : Fld) (n : Nat) : (s.addSat f n).twin = s.twin := rfl
@[simp] theorem State.apps_addSat (s : State) (f : Fld) (n : Nat) : (s.addSat f n).apps = s.apps := rfl
@[simp] theorem State.fld_addSat (s : State) (f : Fld) (n : Nat) : (s.addSat f n).fld = s.fld := rfl
@[simp] theorem State.crd_addSat (s : State) (f : Fld) (n : Nat) : (s.addSat f n).crd = s.crd := rfl
@[simp] theorem State.mem_addSat (s : State) (f : Fld) (n : Nat) : (s.addSat f n).mem = s.mem := rfl
@[simp] theorem State.tags_addSat (s : State) (f : Fld) (n : Nat) : (s.addSat f n).tags = s.tags := rfl
@[simp] theorem State.cxl_addSat (s : State) (f : Fld) (n : Nat) : (s.addSat f n).cxl = s.cxl := rfl
@[simp] theorem State.out_addSat (s : State) (f : Fld) (n : Nat) : (s.addSat f n).out = s.out := rfl
@[simp] theorem State.pending_addSat (s : State) (f : Fld) (n : Nat) : (s.addSat f n).pending = s.pending := rfl

/-! ### After `wr64` -/

@[simp] theorem State.regBad_wr64 (s : State) (a v : Nat) : (s.wr64 a v).regBad = s.regBad := rfl
@[simp] theorem State.latch_wr64 (s : State) (a v : Nat) : (s.wr64 a v).latch = s.latch := rfl
@[simp] theorem State.ctrs_wr64 (s : State) (a v : Nat) : (s.wr64 a v).ctrs = s.ctrs := rfl
@[simp] theorem State.free_wr64 (s : State) (a v : Nat) : (s.wr64 a v).free = s.free := rfl
@[simp] theorem State.gac_wr64 (s : State) (a v : Nat) : (s.wr64 a v).gac = s.gac := rfl
@[simp] theorem State.cul_wr64 (s : State) (a v : Nat) : (s.wr64 a v).cul = s.cul := rfl
@[simp] theorem State.keys_wr64 (s : State) (a v : Nat) : (s.wr64 a v).keys = s.keys := rfl
@[simp] theorem State.ciq_wr64 (s : State) (a v : Nat) : (s.wr64 a v).ciq = s.ciq := rfl
@[simp] theorem State.pke_wr64 (s : State) (a v : Nat) : (s.wr64 a v).pke = s.pke := rfl
@[simp] theorem State.rng_wr64 (s : State) (a v : Nat) : (s.wr64 a v).rng = s.rng := rfl
@[simp] theorem State.nv_wr64 (s : State) (a v : Nat) : (s.wr64 a v).nv = s.nv := rfl
@[simp] theorem State.berm_wr64 (s : State) (a v : Nat) : (s.wr64 a v).berm = s.berm := rfl
@[simp] theorem State.pwr_wr64 (s : State) (a v : Nat) : (s.wr64 a v).pwr = s.pwr := rfl
@[simp] theorem State.dma_wr64 (s : State) (a v : Nat) : (s.wr64 a v).dma = s.dma := rfl
@[simp] theorem State.pairs_wr64 (s : State) (a v : Nat) : (s.wr64 a v).pairs = s.pairs := rfl
@[simp] theorem State.ecc_wr64 (s : State) (a v : Nat) : (s.wr64 a v).ecc = s.ecc := rfl
@[simp] theorem State.grv_wr64 (s : State) (a v : Nat) : (s.wr64 a v).grv = s.grv := rfl
@[simp] theorem State.fp_wr64 (s : State) (a v : Nat) : (s.wr64 a v).fp = s.fp := rfl
@[simp] theorem State.slu_wr64 (s : State) (a v : Nat) : (s.wr64 a v).slu = s.slu := rfl
@[simp] theorem State.lanes_wr64 (s : State) (a v : Nat) : (s.wr64 a v).lanes = s.lanes := rfl
@[simp] theorem State.ctxs_wr64 (s : State) (a v : Nat) : (s.wr64 a v).ctxs = s.ctxs := rfl
@[simp] theorem State.ext_wr64 (s : State) (a v : Nat) : (s.wr64 a v).ext = s.ext := rfl
@[simp] theorem State.cal_wr64 (s : State) (a v : Nat) : (s.wr64 a v).cal = s.cal := rfl
@[simp] theorem State.cfg_wr64 (s : State) (a v : Nat) : (s.wr64 a v).cfg = s.cfg := rfl
@[simp] theorem State.boot_wr64 (s : State) (a v : Nat) : (s.wr64 a v).boot = s.boot := rfl
@[simp] theorem State.twin_wr64 (s : State) (a v : Nat) : (s.wr64 a v).twin = s.twin := rfl
@[simp] theorem State.apps_wr64 (s : State) (a v : Nat) : (s.wr64 a v).apps = s.apps := rfl
@[simp] theorem State.fld_wr64 (s : State) (a v : Nat) : (s.wr64 a v).fld = s.fld := rfl
@[simp] theorem State.crd_wr64 (s : State) (a v : Nat) : (s.wr64 a v).crd = s.crd := rfl
@[simp] theorem State.mem_wr64 (s : State) (a v : Nat) : (s.wr64 a v).mem = s.mem := rfl
@[simp] theorem State.tags_wr64 (s : State) (a v : Nat) : (s.wr64 a v).tags = s.tags := rfl
@[simp] theorem State.cxl_wr64 (s : State) (a v : Nat) : (s.wr64 a v).cxl = s.cxl := rfl
@[simp] theorem State.out_wr64 (s : State) (a v : Nat) : (s.wr64 a v).out = s.out := rfl
@[simp] theorem State.pending_wr64 (s : State) (a v : Nat) : (s.wr64 a v).pending = s.pending := rfl

/-! ### After `resetRegs` -/

@[simp] theorem State.latch_resetRegs (s : State) (p : Nat → Bool) : (s.resetRegs p).latch = s.latch := rfl
@[simp] theorem State.ctrs_resetRegs (s : State) (p : Nat → Bool) : (s.resetRegs p).ctrs = s.ctrs := rfl
@[simp] theorem State.free_resetRegs (s : State) (p : Nat → Bool) : (s.resetRegs p).free = s.free := rfl
@[simp] theorem State.gac_resetRegs (s : State) (p : Nat → Bool) : (s.resetRegs p).gac = s.gac := rfl
@[simp] theorem State.cul_resetRegs (s : State) (p : Nat → Bool) : (s.resetRegs p).cul = s.cul := rfl
@[simp] theorem State.keys_resetRegs (s : State) (p : Nat → Bool) : (s.resetRegs p).keys = s.keys := rfl
@[simp] theorem State.ciq_resetRegs (s : State) (p : Nat → Bool) : (s.resetRegs p).ciq = s.ciq := rfl
@[simp] theorem State.pke_resetRegs (s : State) (p : Nat → Bool) : (s.resetRegs p).pke = s.pke := rfl
@[simp] theorem State.rng_resetRegs (s : State) (p : Nat → Bool) : (s.resetRegs p).rng = s.rng := rfl
@[simp] theorem State.nv_resetRegs (s : State) (p : Nat → Bool) : (s.resetRegs p).nv = s.nv := rfl
@[simp] theorem State.berm_resetRegs (s : State) (p : Nat → Bool) : (s.resetRegs p).berm = s.berm := rfl
@[simp] theorem State.pwr_resetRegs (s : State) (p : Nat → Bool) : (s.resetRegs p).pwr = s.pwr := rfl
@[simp] theorem State.dma_resetRegs (s : State) (p : Nat → Bool) : (s.resetRegs p).dma = s.dma := rfl
@[simp] theorem State.pairs_resetRegs (s : State) (p : Nat → Bool) : (s.resetRegs p).pairs = s.pairs := rfl
@[simp] theorem State.ecc_resetRegs (s : State) (p : Nat → Bool) : (s.resetRegs p).ecc = s.ecc := rfl
@[simp] theorem State.grv_resetRegs (s : State) (p : Nat → Bool) : (s.resetRegs p).grv = s.grv := rfl
@[simp] theorem State.fp_resetRegs (s : State) (p : Nat → Bool) : (s.resetRegs p).fp = s.fp := rfl
@[simp] theorem State.slu_resetRegs (s : State) (p : Nat → Bool) : (s.resetRegs p).slu = s.slu := rfl
@[simp] theorem State.lanes_resetRegs (s : State) (p : Nat → Bool) : (s.resetRegs p).lanes = s.lanes := rfl
@[simp] theorem State.ctxs_resetRegs (s : State) (p : Nat → Bool) : (s.resetRegs p).ctxs = s.ctxs := rfl
@[simp] theorem State.ext_resetRegs (s : State) (p : Nat → Bool) : (s.resetRegs p).ext = s.ext := rfl
@[simp] theorem State.cal_resetRegs (s : State) (p : Nat → Bool) : (s.resetRegs p).cal = s.cal := rfl
@[simp] theorem State.cfg_resetRegs (s : State) (p : Nat → Bool) : (s.resetRegs p).cfg = s.cfg := rfl
@[simp] theorem State.boot_resetRegs (s : State) (p : Nat → Bool) : (s.resetRegs p).boot = s.boot := rfl
@[simp] theorem State.twin_resetRegs (s : State) (p : Nat → Bool) : (s.resetRegs p).twin = s.twin := rfl
@[simp] theorem State.apps_resetRegs (s : State) (p : Nat → Bool) : (s.resetRegs p).apps = s.apps := rfl
@[simp] theorem State.fld_resetRegs (s : State) (p : Nat → Bool) : (s.resetRegs p).fld = s.fld := rfl
@[simp] theorem State.crd_resetRegs (s : State) (p : Nat → Bool) : (s.resetRegs p).crd = s.crd := rfl
@[simp] theorem State.mem_resetRegs (s : State) (p : Nat → Bool) : (s.resetRegs p).mem = s.mem := rfl
@[simp] theorem State.tags_resetRegs (s : State) (p : Nat → Bool) : (s.resetRegs p).tags = s.tags := rfl
@[simp] theorem State.cxl_resetRegs (s : State) (p : Nat → Bool) : (s.resetRegs p).cxl = s.cxl := rfl
@[simp] theorem State.out_resetRegs (s : State) (p : Nat → Bool) : (s.resetRegs p).out = s.out := rfl
@[simp] theorem State.pending_resetRegs (s : State) (p : Nat → Bool) : (s.resetRegs p).pending = s.pending := rfl

/-! ### After `setCtr` -/

@[simp] theorem State.regs_setCtr (s : State) (a n : Nat) : (s.setCtr a n).regs = s.regs := rfl
@[simp] theorem State.regBad_setCtr (s : State) (a n : Nat) : (s.setCtr a n).regBad = s.regBad := rfl
@[simp] theorem State.latch_setCtr (s : State) (a n : Nat) : (s.setCtr a n).latch = s.latch := rfl
@[simp] theorem State.free_setCtr (s : State) (a n : Nat) : (s.setCtr a n).free = s.free := rfl
@[simp] theorem State.gac_setCtr (s : State) (a n : Nat) : (s.setCtr a n).gac = s.gac := rfl
@[simp] theorem State.cul_setCtr (s : State) (a n : Nat) : (s.setCtr a n).cul = s.cul := rfl
@[simp] theorem State.keys_setCtr (s : State) (a n : Nat) : (s.setCtr a n).keys = s.keys := rfl
@[simp] theorem State.ciq_setCtr (s : State) (a n : Nat) : (s.setCtr a n).ciq = s.ciq := rfl
@[simp] theorem State.pke_setCtr (s : State) (a n : Nat) : (s.setCtr a n).pke = s.pke := rfl
@[simp] theorem State.rng_setCtr (s : State) (a n : Nat) : (s.setCtr a n).rng = s.rng := rfl
@[simp] theorem State.nv_setCtr (s : State) (a n : Nat) : (s.setCtr a n).nv = s.nv := rfl
@[simp] theorem State.berm_setCtr (s : State) (a n : Nat) : (s.setCtr a n).berm = s.berm := rfl
@[simp] theorem State.pwr_setCtr (s : State) (a n : Nat) : (s.setCtr a n).pwr = s.pwr := rfl
@[simp] theorem State.dma_setCtr (s : State) (a n : Nat) : (s.setCtr a n).dma = s.dma := rfl
@[simp] theorem State.pairs_setCtr (s : State) (a n : Nat) : (s.setCtr a n).pairs = s.pairs := rfl
@[simp] theorem State.ecc_setCtr (s : State) (a n : Nat) : (s.setCtr a n).ecc = s.ecc := rfl
@[simp] theorem State.grv_setCtr (s : State) (a n : Nat) : (s.setCtr a n).grv = s.grv := rfl
@[simp] theorem State.fp_setCtr (s : State) (a n : Nat) : (s.setCtr a n).fp = s.fp := rfl
@[simp] theorem State.slu_setCtr (s : State) (a n : Nat) : (s.setCtr a n).slu = s.slu := rfl
@[simp] theorem State.lanes_setCtr (s : State) (a n : Nat) : (s.setCtr a n).lanes = s.lanes := rfl
@[simp] theorem State.ctxs_setCtr (s : State) (a n : Nat) : (s.setCtr a n).ctxs = s.ctxs := rfl
@[simp] theorem State.ext_setCtr (s : State) (a n : Nat) : (s.setCtr a n).ext = s.ext := rfl
@[simp] theorem State.cal_setCtr (s : State) (a n : Nat) : (s.setCtr a n).cal = s.cal := rfl
@[simp] theorem State.cfg_setCtr (s : State) (a n : Nat) : (s.setCtr a n).cfg = s.cfg := rfl
@[simp] theorem State.boot_setCtr (s : State) (a n : Nat) : (s.setCtr a n).boot = s.boot := rfl
@[simp] theorem State.twin_setCtr (s : State) (a n : Nat) : (s.setCtr a n).twin = s.twin := rfl
@[simp] theorem State.apps_setCtr (s : State) (a n : Nat) : (s.setCtr a n).apps = s.apps := rfl
@[simp] theorem State.fld_setCtr (s : State) (a n : Nat) : (s.setCtr a n).fld = s.fld := rfl
@[simp] theorem State.crd_setCtr (s : State) (a n : Nat) : (s.setCtr a n).crd = s.crd := rfl
@[simp] theorem State.mem_setCtr (s : State) (a n : Nat) : (s.setCtr a n).mem = s.mem := rfl
@[simp] theorem State.tags_setCtr (s : State) (a n : Nat) : (s.setCtr a n).tags = s.tags := rfl
@[simp] theorem State.cxl_setCtr (s : State) (a n : Nat) : (s.setCtr a n).cxl = s.cxl := rfl
@[simp] theorem State.out_setCtr (s : State) (a n : Nat) : (s.setCtr a n).out = s.out := rfl
@[simp] theorem State.pending_setCtr (s : State) (a n : Nat) : (s.setCtr a n).pending = s.pending := rfl

/-! ### After `bump` -/

@[simp] theorem State.regs_bump (s : State) (a n : Nat) : (s.bump a n).regs = s.regs := rfl
@[simp] theorem State.regBad_bump (s : State) (a n : Nat) : (s.bump a n).regBad = s.regBad := rfl
@[simp] theorem State.latch_bump (s : State) (a n : Nat) : (s.bump a n).latch = s.latch := rfl
@[simp] theorem State.free_bump (s : State) (a n : Nat) : (s.bump a n).free = s.free := rfl
@[simp] theorem State.gac_bump (s : State) (a n : Nat) : (s.bump a n).gac = s.gac := rfl
@[simp] theorem State.cul_bump (s : State) (a n : Nat) : (s.bump a n).cul = s.cul := rfl
@[simp] theorem State.keys_bump (s : State) (a n : Nat) : (s.bump a n).keys = s.keys := rfl
@[simp] theorem State.ciq_bump (s : State) (a n : Nat) : (s.bump a n).ciq = s.ciq := rfl
@[simp] theorem State.pke_bump (s : State) (a n : Nat) : (s.bump a n).pke = s.pke := rfl
@[simp] theorem State.rng_bump (s : State) (a n : Nat) : (s.bump a n).rng = s.rng := rfl
@[simp] theorem State.nv_bump (s : State) (a n : Nat) : (s.bump a n).nv = s.nv := rfl
@[simp] theorem State.berm_bump (s : State) (a n : Nat) : (s.bump a n).berm = s.berm := rfl
@[simp] theorem State.pwr_bump (s : State) (a n : Nat) : (s.bump a n).pwr = s.pwr := rfl
@[simp] theorem State.dma_bump (s : State) (a n : Nat) : (s.bump a n).dma = s.dma := rfl
@[simp] theorem State.pairs_bump (s : State) (a n : Nat) : (s.bump a n).pairs = s.pairs := rfl
@[simp] theorem State.ecc_bump (s : State) (a n : Nat) : (s.bump a n).ecc = s.ecc := rfl
@[simp] theorem State.grv_bump (s : State) (a n : Nat) : (s.bump a n).grv = s.grv := rfl
@[simp] theorem State.fp_bump (s : State) (a n : Nat) : (s.bump a n).fp = s.fp := rfl
@[simp] theorem State.slu_bump (s : State) (a n : Nat) : (s.bump a n).slu = s.slu := rfl
@[simp] theorem State.lanes_bump (s : State) (a n : Nat) : (s.bump a n).lanes = s.lanes := rfl
@[simp] theorem State.ctxs_bump (s : State) (a n : Nat) : (s.bump a n).ctxs = s.ctxs := rfl
@[simp] theorem State.ext_bump (s : State) (a n : Nat) : (s.bump a n).ext = s.ext := rfl
@[simp] theorem State.cal_bump (s : State) (a n : Nat) : (s.bump a n).cal = s.cal := rfl
@[simp] theorem State.cfg_bump (s : State) (a n : Nat) : (s.bump a n).cfg = s.cfg := rfl
@[simp] theorem State.boot_bump (s : State) (a n : Nat) : (s.bump a n).boot = s.boot := rfl
@[simp] theorem State.twin_bump (s : State) (a n : Nat) : (s.bump a n).twin = s.twin := rfl
@[simp] theorem State.apps_bump (s : State) (a n : Nat) : (s.bump a n).apps = s.apps := rfl
@[simp] theorem State.fld_bump (s : State) (a n : Nat) : (s.bump a n).fld = s.fld := rfl
@[simp] theorem State.crd_bump (s : State) (a n : Nat) : (s.bump a n).crd = s.crd := rfl
@[simp] theorem State.mem_bump (s : State) (a n : Nat) : (s.bump a n).mem = s.mem := rfl
@[simp] theorem State.tags_bump (s : State) (a n : Nat) : (s.bump a n).tags = s.tags := rfl
@[simp] theorem State.cxl_bump (s : State) (a n : Nat) : (s.bump a n).cxl = s.cxl := rfl
@[simp] theorem State.out_bump (s : State) (a n : Nat) : (s.bump a n).out = s.out := rfl
@[simp] theorem State.pending_bump (s : State) (a n : Nat) : (s.bump a n).pending = s.pending := rfl

/-! ### After `open_` -/

@[simp] theorem State.regs_open (s : State) : (s.open_.2).regs = s.regs := rfl
@[simp] theorem State.regBad_open (s : State) : (s.open_.2).regBad = s.regBad := rfl
@[simp] theorem State.latch_open (s : State) : (s.open_.2).latch = s.latch := rfl
@[simp] theorem State.ctrs_open (s : State) : (s.open_.2).ctrs = s.ctrs := rfl
@[simp] theorem State.gac_open (s : State) : (s.open_.2).gac = s.gac := rfl
@[simp] theorem State.cul_open (s : State) : (s.open_.2).cul = s.cul := rfl
@[simp] theorem State.keys_open (s : State) : (s.open_.2).keys = s.keys := rfl
@[simp] theorem State.ciq_open (s : State) : (s.open_.2).ciq = s.ciq := rfl
@[simp] theorem State.pke_open (s : State) : (s.open_.2).pke = s.pke := rfl
@[simp] theorem State.rng_open (s : State) : (s.open_.2).rng = s.rng := rfl
@[simp] theorem State.nv_open (s : State) : (s.open_.2).nv = s.nv := rfl
@[simp] theorem State.berm_open (s : State) : (s.open_.2).berm = s.berm := rfl
@[simp] theorem State.pwr_open (s : State) : (s.open_.2).pwr = s.pwr := rfl
@[simp] theorem State.dma_open (s : State) : (s.open_.2).dma = s.dma := rfl
@[simp] theorem State.pairs_open (s : State) : (s.open_.2).pairs = s.pairs := rfl
@[simp] theorem State.ecc_open (s : State) : (s.open_.2).ecc = s.ecc := rfl
@[simp] theorem State.grv_open (s : State) : (s.open_.2).grv = s.grv := rfl
@[simp] theorem State.fp_open (s : State) : (s.open_.2).fp = s.fp := rfl
@[simp] theorem State.slu_open (s : State) : (s.open_.2).slu = s.slu := rfl
@[simp] theorem State.lanes_open (s : State) : (s.open_.2).lanes = s.lanes := rfl
@[simp] theorem State.ctxs_open (s : State) : (s.open_.2).ctxs = s.ctxs := rfl
@[simp] theorem State.ext_open (s : State) : (s.open_.2).ext = s.ext := rfl
@[simp] theorem State.cal_open (s : State) : (s.open_.2).cal = s.cal := rfl
@[simp] theorem State.cfg_open (s : State) : (s.open_.2).cfg = s.cfg := rfl
@[simp] theorem State.boot_open (s : State) : (s.open_.2).boot = s.boot := rfl
@[simp] theorem State.twin_open (s : State) : (s.open_.2).twin = s.twin := rfl
@[simp] theorem State.apps_open (s : State) : (s.open_.2).apps = s.apps := rfl
@[simp] theorem State.fld_open (s : State) : (s.open_.2).fld = s.fld := rfl
@[simp] theorem State.crd_open (s : State) : (s.open_.2).crd = s.crd := rfl
@[simp] theorem State.mem_open (s : State) : (s.open_.2).mem = s.mem := rfl
@[simp] theorem State.tags_open (s : State) : (s.open_.2).tags = s.tags := rfl
@[simp] theorem State.cxl_open (s : State) : (s.open_.2).cxl = s.cxl := rfl
@[simp] theorem State.out_open (s : State) : (s.open_.2).out = s.out := rfl
@[simp] theorem State.pending_open (s : State) : (s.open_.2).pending = s.pending := rfl

/-! ### After `openBelow` -/

@[simp] theorem State.regs_openBelow (s : State) (n : Nat) : ((s.openBelow n).2).regs = s.regs := rfl
@[simp] theorem State.regBad_openBelow (s : State) (n : Nat) : ((s.openBelow n).2).regBad = s.regBad := rfl
@[simp] theorem State.latch_openBelow (s : State) (n : Nat) : ((s.openBelow n).2).latch = s.latch := rfl
@[simp] theorem State.ctrs_openBelow (s : State) (n : Nat) : ((s.openBelow n).2).ctrs = s.ctrs := rfl
@[simp] theorem State.gac_openBelow (s : State) (n : Nat) : ((s.openBelow n).2).gac = s.gac := rfl
@[simp] theorem State.cul_openBelow (s : State) (n : Nat) : ((s.openBelow n).2).cul = s.cul := rfl
@[simp] theorem State.keys_openBelow (s : State) (n : Nat) : ((s.openBelow n).2).keys = s.keys := rfl
@[simp] theorem State.ciq_openBelow (s : State) (n : Nat) : ((s.openBelow n).2).ciq = s.ciq := rfl
@[simp] theorem State.pke_openBelow (s : State) (n : Nat) : ((s.openBelow n).2).pke = s.pke := rfl
@[simp] theorem State.rng_openBelow (s : State) (n : Nat) : ((s.openBelow n).2).rng = s.rng := rfl
@[simp] theorem State.nv_openBelow (s : State) (n : Nat) : ((s.openBelow n).2).nv = s.nv := rfl
@[simp] theorem State.berm_openBelow (s : State) (n : Nat) : ((s.openBelow n).2).berm = s.berm := rfl
@[simp] theorem State.pwr_openBelow (s : State) (n : Nat) : ((s.openBelow n).2).pwr = s.pwr := rfl
@[simp] theorem State.dma_openBelow (s : State) (n : Nat) : ((s.openBelow n).2).dma = s.dma := rfl
@[simp] theorem State.pairs_openBelow (s : State) (n : Nat) : ((s.openBelow n).2).pairs = s.pairs := rfl
@[simp] theorem State.ecc_openBelow (s : State) (n : Nat) : ((s.openBelow n).2).ecc = s.ecc := rfl
@[simp] theorem State.grv_openBelow (s : State) (n : Nat) : ((s.openBelow n).2).grv = s.grv := rfl
@[simp] theorem State.fp_openBelow (s : State) (n : Nat) : ((s.openBelow n).2).fp = s.fp := rfl
@[simp] theorem State.slu_openBelow (s : State) (n : Nat) : ((s.openBelow n).2).slu = s.slu := rfl
@[simp] theorem State.lanes_openBelow (s : State) (n : Nat) : ((s.openBelow n).2).lanes = s.lanes := rfl
@[simp] theorem State.ctxs_openBelow (s : State) (n : Nat) : ((s.openBelow n).2).ctxs = s.ctxs := rfl
@[simp] theorem State.ext_openBelow (s : State) (n : Nat) : ((s.openBelow n).2).ext = s.ext := rfl
@[simp] theorem State.cal_openBelow (s : State) (n : Nat) : ((s.openBelow n).2).cal = s.cal := rfl
@[simp] theorem State.cfg_openBelow (s : State) (n : Nat) : ((s.openBelow n).2).cfg = s.cfg := rfl
@[simp] theorem State.boot_openBelow (s : State) (n : Nat) : ((s.openBelow n).2).boot = s.boot := rfl
@[simp] theorem State.twin_openBelow (s : State) (n : Nat) : ((s.openBelow n).2).twin = s.twin := rfl
@[simp] theorem State.apps_openBelow (s : State) (n : Nat) : ((s.openBelow n).2).apps = s.apps := rfl
@[simp] theorem State.fld_openBelow (s : State) (n : Nat) : ((s.openBelow n).2).fld = s.fld := rfl
@[simp] theorem State.crd_openBelow (s : State) (n : Nat) : ((s.openBelow n).2).crd = s.crd := rfl
@[simp] theorem State.mem_openBelow (s : State) (n : Nat) : ((s.openBelow n).2).mem = s.mem := rfl
@[simp] theorem State.tags_openBelow (s : State) (n : Nat) : ((s.openBelow n).2).tags = s.tags := rfl
@[simp] theorem State.cxl_openBelow (s : State) (n : Nat) : ((s.openBelow n).2).cxl = s.cxl := rfl
@[simp] theorem State.out_openBelow (s : State) (n : Nat) : ((s.openBelow n).2).out = s.out := rfl
@[simp] theorem State.pending_openBelow (s : State) (n : Nat) : ((s.openBelow n).2).pending = s.pending := rfl

/-! ### After `emit` -/

@[simp] theorem State.regs_emit (s : State) (o : Out) : (s.emit o).regs = s.regs := rfl
@[simp] theorem State.regBad_emit (s : State) (o : Out) : (s.emit o).regBad = s.regBad := rfl
@[simp] theorem State.latch_emit (s : State) (o : Out) : (s.emit o).latch = s.latch := rfl
@[simp] theorem State.ctrs_emit (s : State) (o : Out) : (s.emit o).ctrs = s.ctrs := rfl
@[simp] theorem State.free_emit (s : State) (o : Out) : (s.emit o).free = s.free := rfl
@[simp] theorem State.gac_emit (s : State) (o : Out) : (s.emit o).gac = s.gac := rfl
@[simp] theorem State.cul_emit (s : State) (o : Out) : (s.emit o).cul = s.cul := rfl
@[simp] theorem State.keys_emit (s : State) (o : Out) : (s.emit o).keys = s.keys := rfl
@[simp] theorem State.ciq_emit (s : State) (o : Out) : (s.emit o).ciq = s.ciq := rfl
@[simp] theorem State.pke_emit (s : State) (o : Out) : (s.emit o).pke = s.pke := rfl
@[simp] theorem State.rng_emit (s : State) (o : Out) : (s.emit o).rng = s.rng := rfl
@[simp] theorem State.nv_emit (s : State) (o : Out) : (s.emit o).nv = s.nv := rfl
@[simp] theorem State.berm_emit (s : State) (o : Out) : (s.emit o).berm = s.berm := rfl
@[simp] theorem State.pwr_emit (s : State) (o : Out) : (s.emit o).pwr = s.pwr := rfl
@[simp] theorem State.dma_emit (s : State) (o : Out) : (s.emit o).dma = s.dma := rfl
@[simp] theorem State.pairs_emit (s : State) (o : Out) : (s.emit o).pairs = s.pairs := rfl
@[simp] theorem State.ecc_emit (s : State) (o : Out) : (s.emit o).ecc = s.ecc := rfl
@[simp] theorem State.grv_emit (s : State) (o : Out) : (s.emit o).grv = s.grv := rfl
@[simp] theorem State.fp_emit (s : State) (o : Out) : (s.emit o).fp = s.fp := rfl
@[simp] theorem State.slu_emit (s : State) (o : Out) : (s.emit o).slu = s.slu := rfl
@[simp] theorem State.lanes_emit (s : State) (o : Out) : (s.emit o).lanes = s.lanes := rfl
@[simp] theorem State.ctxs_emit (s : State) (o : Out) : (s.emit o).ctxs = s.ctxs := rfl
@[simp] theorem State.ext_emit (s : State) (o : Out) : (s.emit o).ext = s.ext := rfl
@[simp] theorem State.cal_emit (s : State) (o : Out) : (s.emit o).cal = s.cal := rfl
@[simp] theorem State.cfg_emit (s : State) (o : Out) : (s.emit o).cfg = s.cfg := rfl
@[simp] theorem State.boot_emit (s : State) (o : Out) : (s.emit o).boot = s.boot := rfl
@[simp] theorem State.twin_emit (s : State) (o : Out) : (s.emit o).twin = s.twin := rfl
@[simp] theorem State.apps_emit (s : State) (o : Out) : (s.emit o).apps = s.apps := rfl
@[simp] theorem State.fld_emit (s : State) (o : Out) : (s.emit o).fld = s.fld := rfl
@[simp] theorem State.crd_emit (s : State) (o : Out) : (s.emit o).crd = s.crd := rfl
@[simp] theorem State.mem_emit (s : State) (o : Out) : (s.emit o).mem = s.mem := rfl
@[simp] theorem State.tags_emit (s : State) (o : Out) : (s.emit o).tags = s.tags := rfl
@[simp] theorem State.cxl_emit (s : State) (o : Out) : (s.emit o).cxl = s.cxl := rfl
@[simp] theorem State.pending_emit (s : State) (o : Out) : (s.emit o).pending = s.pending := rfl

/-! ### After `memWrite` -/

@[simp] theorem State.regs_memWrite (s : State) (a : Nat) (bs : List Byte) : (s.memWrite a bs).regs = s.regs := rfl
@[simp] theorem State.regBad_memWrite (s : State) (a : Nat) (bs : List Byte) : (s.memWrite a bs).regBad = s.regBad := rfl
@[simp] theorem State.latch_memWrite (s : State) (a : Nat) (bs : List Byte) : (s.memWrite a bs).latch = s.latch := rfl
@[simp] theorem State.ctrs_memWrite (s : State) (a : Nat) (bs : List Byte) : (s.memWrite a bs).ctrs = s.ctrs := rfl
@[simp] theorem State.free_memWrite (s : State) (a : Nat) (bs : List Byte) : (s.memWrite a bs).free = s.free := rfl
@[simp] theorem State.gac_memWrite (s : State) (a : Nat) (bs : List Byte) : (s.memWrite a bs).gac = s.gac := rfl
@[simp] theorem State.cul_memWrite (s : State) (a : Nat) (bs : List Byte) : (s.memWrite a bs).cul = s.cul := rfl
@[simp] theorem State.keys_memWrite (s : State) (a : Nat) (bs : List Byte) : (s.memWrite a bs).keys = s.keys := rfl
@[simp] theorem State.ciq_memWrite (s : State) (a : Nat) (bs : List Byte) : (s.memWrite a bs).ciq = s.ciq := rfl
@[simp] theorem State.pke_memWrite (s : State) (a : Nat) (bs : List Byte) : (s.memWrite a bs).pke = s.pke := rfl
@[simp] theorem State.rng_memWrite (s : State) (a : Nat) (bs : List Byte) : (s.memWrite a bs).rng = s.rng := rfl
@[simp] theorem State.nv_memWrite (s : State) (a : Nat) (bs : List Byte) : (s.memWrite a bs).nv = s.nv := rfl
@[simp] theorem State.berm_memWrite (s : State) (a : Nat) (bs : List Byte) : (s.memWrite a bs).berm = s.berm := rfl
@[simp] theorem State.pwr_memWrite (s : State) (a : Nat) (bs : List Byte) : (s.memWrite a bs).pwr = s.pwr := rfl
@[simp] theorem State.dma_memWrite (s : State) (a : Nat) (bs : List Byte) : (s.memWrite a bs).dma = s.dma := rfl
@[simp] theorem State.pairs_memWrite (s : State) (a : Nat) (bs : List Byte) : (s.memWrite a bs).pairs = s.pairs := rfl
@[simp] theorem State.grv_memWrite (s : State) (a : Nat) (bs : List Byte) : (s.memWrite a bs).grv = s.grv := rfl
@[simp] theorem State.fp_memWrite (s : State) (a : Nat) (bs : List Byte) : (s.memWrite a bs).fp = s.fp := rfl
@[simp] theorem State.slu_memWrite (s : State) (a : Nat) (bs : List Byte) : (s.memWrite a bs).slu = s.slu := rfl
@[simp] theorem State.lanes_memWrite (s : State) (a : Nat) (bs : List Byte) : (s.memWrite a bs).lanes = s.lanes := rfl
@[simp] theorem State.ctxs_memWrite (s : State) (a : Nat) (bs : List Byte) : (s.memWrite a bs).ctxs = s.ctxs := rfl
@[simp] theorem State.ext_memWrite (s : State) (a : Nat) (bs : List Byte) : (s.memWrite a bs).ext = s.ext := rfl
@[simp] theorem State.cal_memWrite (s : State) (a : Nat) (bs : List Byte) : (s.memWrite a bs).cal = s.cal := rfl
@[simp] theorem State.cfg_memWrite (s : State) (a : Nat) (bs : List Byte) : (s.memWrite a bs).cfg = s.cfg := rfl
@[simp] theorem State.boot_memWrite (s : State) (a : Nat) (bs : List Byte) : (s.memWrite a bs).boot = s.boot := rfl
@[simp] theorem State.twin_memWrite (s : State) (a : Nat) (bs : List Byte) : (s.memWrite a bs).twin = s.twin := rfl
@[simp] theorem State.apps_memWrite (s : State) (a : Nat) (bs : List Byte) : (s.memWrite a bs).apps = s.apps := rfl
@[simp] theorem State.fld_memWrite (s : State) (a : Nat) (bs : List Byte) : (s.memWrite a bs).fld = s.fld := rfl
@[simp] theorem State.crd_memWrite (s : State) (a : Nat) (bs : List Byte) : (s.memWrite a bs).crd = s.crd := rfl
@[simp] theorem State.cxl_memWrite (s : State) (a : Nat) (bs : List Byte) : (s.memWrite a bs).cxl = s.cxl := rfl
@[simp] theorem State.out_memWrite (s : State) (a : Nat) (bs : List Byte) : (s.memWrite a bs).out = s.out := rfl
@[simp] theorem State.pending_memWrite (s : State) (a : Nat) (bs : List Byte) : (s.memWrite a bs).pending = s.pending := rfl

/-! ### After `setLatch` -/

@[simp] theorem State.regs_setLatch (s : State) (a : Nat) (v : Option Word) : (s.setLatch a v).regs = s.regs := rfl
@[simp] theorem State.regBad_setLatch (s : State) (a : Nat) (v : Option Word) : (s.setLatch a v).regBad = s.regBad := rfl
@[simp] theorem State.ctrs_setLatch (s : State) (a : Nat) (v : Option Word) : (s.setLatch a v).ctrs = s.ctrs := rfl
@[simp] theorem State.free_setLatch (s : State) (a : Nat) (v : Option Word) : (s.setLatch a v).free = s.free := rfl
@[simp] theorem State.gac_setLatch (s : State) (a : Nat) (v : Option Word) : (s.setLatch a v).gac = s.gac := rfl
@[simp] theorem State.cul_setLatch (s : State) (a : Nat) (v : Option Word) : (s.setLatch a v).cul = s.cul := rfl
@[simp] theorem State.keys_setLatch (s : State) (a : Nat) (v : Option Word) : (s.setLatch a v).keys = s.keys := rfl
@[simp] theorem State.ciq_setLatch (s : State) (a : Nat) (v : Option Word) : (s.setLatch a v).ciq = s.ciq := rfl
@[simp] theorem State.pke_setLatch (s : State) (a : Nat) (v : Option Word) : (s.setLatch a v).pke = s.pke := rfl
@[simp] theorem State.rng_setLatch (s : State) (a : Nat) (v : Option Word) : (s.setLatch a v).rng = s.rng := rfl
@[simp] theorem State.nv_setLatch (s : State) (a : Nat) (v : Option Word) : (s.setLatch a v).nv = s.nv := rfl
@[simp] theorem State.berm_setLatch (s : State) (a : Nat) (v : Option Word) : (s.setLatch a v).berm = s.berm := rfl
@[simp] theorem State.pwr_setLatch (s : State) (a : Nat) (v : Option Word) : (s.setLatch a v).pwr = s.pwr := rfl
@[simp] theorem State.dma_setLatch (s : State) (a : Nat) (v : Option Word) : (s.setLatch a v).dma = s.dma := rfl
@[simp] theorem State.pairs_setLatch (s : State) (a : Nat) (v : Option Word) : (s.setLatch a v).pairs = s.pairs := rfl
@[simp] theorem State.ecc_setLatch (s : State) (a : Nat) (v : Option Word) : (s.setLatch a v).ecc = s.ecc := rfl
@[simp] theorem State.grv_setLatch (s : State) (a : Nat) (v : Option Word) : (s.setLatch a v).grv = s.grv := rfl
@[simp] theorem State.fp_setLatch (s : State) (a : Nat) (v : Option Word) : (s.setLatch a v).fp = s.fp := rfl
@[simp] theorem State.slu_setLatch (s : State) (a : Nat) (v : Option Word) : (s.setLatch a v).slu = s.slu := rfl
@[simp] theorem State.lanes_setLatch (s : State) (a : Nat) (v : Option Word) : (s.setLatch a v).lanes = s.lanes := rfl
@[simp] theorem State.ctxs_setLatch (s : State) (a : Nat) (v : Option Word) : (s.setLatch a v).ctxs = s.ctxs := rfl
@[simp] theorem State.ext_setLatch (s : State) (a : Nat) (v : Option Word) : (s.setLatch a v).ext = s.ext := rfl
@[simp] theorem State.cal_setLatch (s : State) (a : Nat) (v : Option Word) : (s.setLatch a v).cal = s.cal := rfl
@[simp] theorem State.cfg_setLatch (s : State) (a : Nat) (v : Option Word) : (s.setLatch a v).cfg = s.cfg := rfl
@[simp] theorem State.boot_setLatch (s : State) (a : Nat) (v : Option Word) : (s.setLatch a v).boot = s.boot := rfl
@[simp] theorem State.twin_setLatch (s : State) (a : Nat) (v : Option Word) : (s.setLatch a v).twin = s.twin := rfl
@[simp] theorem State.apps_setLatch (s : State) (a : Nat) (v : Option Word) : (s.setLatch a v).apps = s.apps := rfl
@[simp] theorem State.fld_setLatch (s : State) (a : Nat) (v : Option Word) : (s.setLatch a v).fld = s.fld := rfl
@[simp] theorem State.crd_setLatch (s : State) (a : Nat) (v : Option Word) : (s.setLatch a v).crd = s.crd := rfl
@[simp] theorem State.mem_setLatch (s : State) (a : Nat) (v : Option Word) : (s.setLatch a v).mem = s.mem := rfl
@[simp] theorem State.tags_setLatch (s : State) (a : Nat) (v : Option Word) : (s.setLatch a v).tags = s.tags := rfl
@[simp] theorem State.cxl_setLatch (s : State) (a : Nat) (v : Option Word) : (s.setLatch a v).cxl = s.cxl := rfl
@[simp] theorem State.out_setLatch (s : State) (a : Nat) (v : Option Word) : (s.setLatch a v).out = s.out := rfl
@[simp] theorem State.pending_setLatch (s : State) (a : Nat) (v : Option Word) : (s.setLatch a v).pending = s.pending := rfl

/-! ### After `setMarks` -/

@[simp] theorem State.regs_setMarks (s : State) (r cw : Nat) (m : BitVec 3) : (s.setMarks r cw m).regs = s.regs := rfl
@[simp] theorem State.regBad_setMarks (s : State) (r cw : Nat) (m : BitVec 3) : (s.setMarks r cw m).regBad = s.regBad := rfl
@[simp] theorem State.latch_setMarks (s : State) (r cw : Nat) (m : BitVec 3) : (s.setMarks r cw m).latch = s.latch := rfl
@[simp] theorem State.ctrs_setMarks (s : State) (r cw : Nat) (m : BitVec 3) : (s.setMarks r cw m).ctrs = s.ctrs := rfl
@[simp] theorem State.free_setMarks (s : State) (r cw : Nat) (m : BitVec 3) : (s.setMarks r cw m).free = s.free := rfl
@[simp] theorem State.gac_setMarks (s : State) (r cw : Nat) (m : BitVec 3) : (s.setMarks r cw m).gac = s.gac := rfl
@[simp] theorem State.cul_setMarks (s : State) (r cw : Nat) (m : BitVec 3) : (s.setMarks r cw m).cul = s.cul := rfl
@[simp] theorem State.keys_setMarks (s : State) (r cw : Nat) (m : BitVec 3) : (s.setMarks r cw m).keys = s.keys := rfl
@[simp] theorem State.ciq_setMarks (s : State) (r cw : Nat) (m : BitVec 3) : (s.setMarks r cw m).ciq = s.ciq := rfl
@[simp] theorem State.pke_setMarks (s : State) (r cw : Nat) (m : BitVec 3) : (s.setMarks r cw m).pke = s.pke := rfl
@[simp] theorem State.rng_setMarks (s : State) (r cw : Nat) (m : BitVec 3) : (s.setMarks r cw m).rng = s.rng := rfl
@[simp] theorem State.nv_setMarks (s : State) (r cw : Nat) (m : BitVec 3) : (s.setMarks r cw m).nv = s.nv := rfl
@[simp] theorem State.berm_setMarks (s : State) (r cw : Nat) (m : BitVec 3) : (s.setMarks r cw m).berm = s.berm := rfl
@[simp] theorem State.pwr_setMarks (s : State) (r cw : Nat) (m : BitVec 3) : (s.setMarks r cw m).pwr = s.pwr := rfl
@[simp] theorem State.dma_setMarks (s : State) (r cw : Nat) (m : BitVec 3) : (s.setMarks r cw m).dma = s.dma := rfl
@[simp] theorem State.pairs_setMarks (s : State) (r cw : Nat) (m : BitVec 3) : (s.setMarks r cw m).pairs = s.pairs := rfl
@[simp] theorem State.grv_setMarks (s : State) (r cw : Nat) (m : BitVec 3) : (s.setMarks r cw m).grv = s.grv := rfl
@[simp] theorem State.fp_setMarks (s : State) (r cw : Nat) (m : BitVec 3) : (s.setMarks r cw m).fp = s.fp := rfl
@[simp] theorem State.slu_setMarks (s : State) (r cw : Nat) (m : BitVec 3) : (s.setMarks r cw m).slu = s.slu := rfl
@[simp] theorem State.lanes_setMarks (s : State) (r cw : Nat) (m : BitVec 3) : (s.setMarks r cw m).lanes = s.lanes := rfl
@[simp] theorem State.ctxs_setMarks (s : State) (r cw : Nat) (m : BitVec 3) : (s.setMarks r cw m).ctxs = s.ctxs := rfl
@[simp] theorem State.ext_setMarks (s : State) (r cw : Nat) (m : BitVec 3) : (s.setMarks r cw m).ext = s.ext := rfl
@[simp] theorem State.cal_setMarks (s : State) (r cw : Nat) (m : BitVec 3) : (s.setMarks r cw m).cal = s.cal := rfl
@[simp] theorem State.cfg_setMarks (s : State) (r cw : Nat) (m : BitVec 3) : (s.setMarks r cw m).cfg = s.cfg := rfl
@[simp] theorem State.boot_setMarks (s : State) (r cw : Nat) (m : BitVec 3) : (s.setMarks r cw m).boot = s.boot := rfl
@[simp] theorem State.twin_setMarks (s : State) (r cw : Nat) (m : BitVec 3) : (s.setMarks r cw m).twin = s.twin := rfl
@[simp] theorem State.apps_setMarks (s : State) (r cw : Nat) (m : BitVec 3) : (s.setMarks r cw m).apps = s.apps := rfl
@[simp] theorem State.fld_setMarks (s : State) (r cw : Nat) (m : BitVec 3) : (s.setMarks r cw m).fld = s.fld := rfl
@[simp] theorem State.crd_setMarks (s : State) (r cw : Nat) (m : BitVec 3) : (s.setMarks r cw m).crd = s.crd := rfl
@[simp] theorem State.mem_setMarks (s : State) (r cw : Nat) (m : BitVec 3) : (s.setMarks r cw m).mem = s.mem := rfl
@[simp] theorem State.tags_setMarks (s : State) (r cw : Nat) (m : BitVec 3) : (s.setMarks r cw m).tags = s.tags := rfl
@[simp] theorem State.cxl_setMarks (s : State) (r cw : Nat) (m : BitVec 3) : (s.setMarks r cw m).cxl = s.cxl := rfl
@[simp] theorem State.out_setMarks (s : State) (r cw : Nat) (m : BitVec 3) : (s.setMarks r cw m).out = s.out := rfl
@[simp] theorem State.pending_setMarks (s : State) (r cw : Nat) (m : BitVec 3) : (s.setMarks r cw m).pending = s.pending := rfl

/-! ### After `setTag16` -/

@[simp] theorem State.regs_setTag16 (s : State) (x : Nat) (b : Bool) : (s.setTag16 x b).regs = s.regs := rfl
@[simp] theorem State.regBad_setTag16 (s : State) (x : Nat) (b : Bool) : (s.setTag16 x b).regBad = s.regBad := rfl
@[simp] theorem State.latch_setTag16 (s : State) (x : Nat) (b : Bool) : (s.setTag16 x b).latch = s.latch := rfl
@[simp] theorem State.ctrs_setTag16 (s : State) (x : Nat) (b : Bool) : (s.setTag16 x b).ctrs = s.ctrs := rfl
@[simp] theorem State.free_setTag16 (s : State) (x : Nat) (b : Bool) : (s.setTag16 x b).free = s.free := rfl
@[simp] theorem State.gac_setTag16 (s : State) (x : Nat) (b : Bool) : (s.setTag16 x b).gac = s.gac := rfl
@[simp] theorem State.cul_setTag16 (s : State) (x : Nat) (b : Bool) : (s.setTag16 x b).cul = s.cul := rfl
@[simp] theorem State.keys_setTag16 (s : State) (x : Nat) (b : Bool) : (s.setTag16 x b).keys = s.keys := rfl
@[simp] theorem State.ciq_setTag16 (s : State) (x : Nat) (b : Bool) : (s.setTag16 x b).ciq = s.ciq := rfl
@[simp] theorem State.pke_setTag16 (s : State) (x : Nat) (b : Bool) : (s.setTag16 x b).pke = s.pke := rfl
@[simp] theorem State.rng_setTag16 (s : State) (x : Nat) (b : Bool) : (s.setTag16 x b).rng = s.rng := rfl
@[simp] theorem State.nv_setTag16 (s : State) (x : Nat) (b : Bool) : (s.setTag16 x b).nv = s.nv := rfl
@[simp] theorem State.berm_setTag16 (s : State) (x : Nat) (b : Bool) : (s.setTag16 x b).berm = s.berm := rfl
@[simp] theorem State.pwr_setTag16 (s : State) (x : Nat) (b : Bool) : (s.setTag16 x b).pwr = s.pwr := rfl
@[simp] theorem State.dma_setTag16 (s : State) (x : Nat) (b : Bool) : (s.setTag16 x b).dma = s.dma := rfl
@[simp] theorem State.pairs_setTag16 (s : State) (x : Nat) (b : Bool) : (s.setTag16 x b).pairs = s.pairs := rfl
@[simp] theorem State.ecc_setTag16 (s : State) (x : Nat) (b : Bool) : (s.setTag16 x b).ecc = s.ecc := rfl
@[simp] theorem State.grv_setTag16 (s : State) (x : Nat) (b : Bool) : (s.setTag16 x b).grv = s.grv := rfl
@[simp] theorem State.fp_setTag16 (s : State) (x : Nat) (b : Bool) : (s.setTag16 x b).fp = s.fp := rfl
@[simp] theorem State.slu_setTag16 (s : State) (x : Nat) (b : Bool) : (s.setTag16 x b).slu = s.slu := rfl
@[simp] theorem State.lanes_setTag16 (s : State) (x : Nat) (b : Bool) : (s.setTag16 x b).lanes = s.lanes := rfl
@[simp] theorem State.ctxs_setTag16 (s : State) (x : Nat) (b : Bool) : (s.setTag16 x b).ctxs = s.ctxs := rfl
@[simp] theorem State.ext_setTag16 (s : State) (x : Nat) (b : Bool) : (s.setTag16 x b).ext = s.ext := rfl
@[simp] theorem State.cal_setTag16 (s : State) (x : Nat) (b : Bool) : (s.setTag16 x b).cal = s.cal := rfl
@[simp] theorem State.cfg_setTag16 (s : State) (x : Nat) (b : Bool) : (s.setTag16 x b).cfg = s.cfg := rfl
@[simp] theorem State.boot_setTag16 (s : State) (x : Nat) (b : Bool) : (s.setTag16 x b).boot = s.boot := rfl
@[simp] theorem State.twin_setTag16 (s : State) (x : Nat) (b : Bool) : (s.setTag16 x b).twin = s.twin := rfl
@[simp] theorem State.apps_setTag16 (s : State) (x : Nat) (b : Bool) : (s.setTag16 x b).apps = s.apps := rfl
@[simp] theorem State.fld_setTag16 (s : State) (x : Nat) (b : Bool) : (s.setTag16 x b).fld = s.fld := rfl
@[simp] theorem State.crd_setTag16 (s : State) (x : Nat) (b : Bool) : (s.setTag16 x b).crd = s.crd := rfl
@[simp] theorem State.mem_setTag16 (s : State) (x : Nat) (b : Bool) : (s.setTag16 x b).mem = s.mem := rfl
@[simp] theorem State.cxl_setTag16 (s : State) (x : Nat) (b : Bool) : (s.setTag16 x b).cxl = s.cxl := rfl
@[simp] theorem State.out_setTag16 (s : State) (x : Nat) (b : Bool) : (s.setTag16 x b).out = s.out := rfl
@[simp] theorem State.pending_setTag16 (s : State) (x : Nat) (b : Bool) : (s.setTag16 x b).pending = s.pending := rfl

/-! ### After `setPr` -/

@[simp] theorem State.regs_setPr (s : State) (k : Nat) (p : Pair) : (s.setPr k p).regs = s.regs := rfl
@[simp] theorem State.regBad_setPr (s : State) (k : Nat) (p : Pair) : (s.setPr k p).regBad = s.regBad := rfl
@[simp] theorem State.latch_setPr (s : State) (k : Nat) (p : Pair) : (s.setPr k p).latch = s.latch := rfl
@[simp] theorem State.ctrs_setPr (s : State) (k : Nat) (p : Pair) : (s.setPr k p).ctrs = s.ctrs := rfl
@[simp] theorem State.free_setPr (s : State) (k : Nat) (p : Pair) : (s.setPr k p).free = s.free := rfl
@[simp] theorem State.gac_setPr (s : State) (k : Nat) (p : Pair) : (s.setPr k p).gac = s.gac := rfl
@[simp] theorem State.cul_setPr (s : State) (k : Nat) (p : Pair) : (s.setPr k p).cul = s.cul := rfl
@[simp] theorem State.keys_setPr (s : State) (k : Nat) (p : Pair) : (s.setPr k p).keys = s.keys := rfl
@[simp] theorem State.ciq_setPr (s : State) (k : Nat) (p : Pair) : (s.setPr k p).ciq = s.ciq := rfl
@[simp] theorem State.pke_setPr (s : State) (k : Nat) (p : Pair) : (s.setPr k p).pke = s.pke := rfl
@[simp] theorem State.rng_setPr (s : State) (k : Nat) (p : Pair) : (s.setPr k p).rng = s.rng := rfl
@[simp] theorem State.nv_setPr (s : State) (k : Nat) (p : Pair) : (s.setPr k p).nv = s.nv := rfl
@[simp] theorem State.berm_setPr (s : State) (k : Nat) (p : Pair) : (s.setPr k p).berm = s.berm := rfl
@[simp] theorem State.pwr_setPr (s : State) (k : Nat) (p : Pair) : (s.setPr k p).pwr = s.pwr := rfl
@[simp] theorem State.dma_setPr (s : State) (k : Nat) (p : Pair) : (s.setPr k p).dma = s.dma := rfl
@[simp] theorem State.ecc_setPr (s : State) (k : Nat) (p : Pair) : (s.setPr k p).ecc = s.ecc := rfl
@[simp] theorem State.grv_setPr (s : State) (k : Nat) (p : Pair) : (s.setPr k p).grv = s.grv := rfl
@[simp] theorem State.fp_setPr (s : State) (k : Nat) (p : Pair) : (s.setPr k p).fp = s.fp := rfl
@[simp] theorem State.slu_setPr (s : State) (k : Nat) (p : Pair) : (s.setPr k p).slu = s.slu := rfl
@[simp] theorem State.lanes_setPr (s : State) (k : Nat) (p : Pair) : (s.setPr k p).lanes = s.lanes := rfl
@[simp] theorem State.ctxs_setPr (s : State) (k : Nat) (p : Pair) : (s.setPr k p).ctxs = s.ctxs := rfl
@[simp] theorem State.ext_setPr (s : State) (k : Nat) (p : Pair) : (s.setPr k p).ext = s.ext := rfl
@[simp] theorem State.cal_setPr (s : State) (k : Nat) (p : Pair) : (s.setPr k p).cal = s.cal := rfl
@[simp] theorem State.cfg_setPr (s : State) (k : Nat) (p : Pair) : (s.setPr k p).cfg = s.cfg := rfl
@[simp] theorem State.boot_setPr (s : State) (k : Nat) (p : Pair) : (s.setPr k p).boot = s.boot := rfl
@[simp] theorem State.twin_setPr (s : State) (k : Nat) (p : Pair) : (s.setPr k p).twin = s.twin := rfl
@[simp] theorem State.apps_setPr (s : State) (k : Nat) (p : Pair) : (s.setPr k p).apps = s.apps := rfl
@[simp] theorem State.fld_setPr (s : State) (k : Nat) (p : Pair) : (s.setPr k p).fld = s.fld := rfl
@[simp] theorem State.crd_setPr (s : State) (k : Nat) (p : Pair) : (s.setPr k p).crd = s.crd := rfl
@[simp] theorem State.mem_setPr (s : State) (k : Nat) (p : Pair) : (s.setPr k p).mem = s.mem := rfl
@[simp] theorem State.tags_setPr (s : State) (k : Nat) (p : Pair) : (s.setPr k p).tags = s.tags := rfl
@[simp] theorem State.cxl_setPr (s : State) (k : Nat) (p : Pair) : (s.setPr k p).cxl = s.cxl := rfl
@[simp] theorem State.out_setPr (s : State) (k : Nat) (p : Pair) : (s.setPr k p).out = s.out := rfl
@[simp] theorem State.pending_setPr (s : State) (k : Nat) (p : Pair) : (s.setPr k p).pending = s.pending := rfl

/-! ### After `setCh` -/

@[simp] theorem State.regs_setCh (s : State) (n : Nat) (c : DmaCh) : (s.setCh n c).regs = s.regs := rfl
@[simp] theorem State.regBad_setCh (s : State) (n : Nat) (c : DmaCh) : (s.setCh n c).regBad = s.regBad := rfl
@[simp] theorem State.latch_setCh (s : State) (n : Nat) (c : DmaCh) : (s.setCh n c).latch = s.latch := rfl
@[simp] theorem State.ctrs_setCh (s : State) (n : Nat) (c : DmaCh) : (s.setCh n c).ctrs = s.ctrs := rfl
@[simp] theorem State.free_setCh (s : State) (n : Nat) (c : DmaCh) : (s.setCh n c).free = s.free := rfl
@[simp] theorem State.gac_setCh (s : State) (n : Nat) (c : DmaCh) : (s.setCh n c).gac = s.gac := rfl
@[simp] theorem State.cul_setCh (s : State) (n : Nat) (c : DmaCh) : (s.setCh n c).cul = s.cul := rfl
@[simp] theorem State.keys_setCh (s : State) (n : Nat) (c : DmaCh) : (s.setCh n c).keys = s.keys := rfl
@[simp] theorem State.ciq_setCh (s : State) (n : Nat) (c : DmaCh) : (s.setCh n c).ciq = s.ciq := rfl
@[simp] theorem State.pke_setCh (s : State) (n : Nat) (c : DmaCh) : (s.setCh n c).pke = s.pke := rfl
@[simp] theorem State.rng_setCh (s : State) (n : Nat) (c : DmaCh) : (s.setCh n c).rng = s.rng := rfl
@[simp] theorem State.nv_setCh (s : State) (n : Nat) (c : DmaCh) : (s.setCh n c).nv = s.nv := rfl
@[simp] theorem State.berm_setCh (s : State) (n : Nat) (c : DmaCh) : (s.setCh n c).berm = s.berm := rfl
@[simp] theorem State.pwr_setCh (s : State) (n : Nat) (c : DmaCh) : (s.setCh n c).pwr = s.pwr := rfl
@[simp] theorem State.pairs_setCh (s : State) (n : Nat) (c : DmaCh) : (s.setCh n c).pairs = s.pairs := rfl
@[simp] theorem State.ecc_setCh (s : State) (n : Nat) (c : DmaCh) : (s.setCh n c).ecc = s.ecc := rfl
@[simp] theorem State.grv_setCh (s : State) (n : Nat) (c : DmaCh) : (s.setCh n c).grv = s.grv := rfl
@[simp] theorem State.fp_setCh (s : State) (n : Nat) (c : DmaCh) : (s.setCh n c).fp = s.fp := rfl
@[simp] theorem State.slu_setCh (s : State) (n : Nat) (c : DmaCh) : (s.setCh n c).slu = s.slu := rfl
@[simp] theorem State.lanes_setCh (s : State) (n : Nat) (c : DmaCh) : (s.setCh n c).lanes = s.lanes := rfl
@[simp] theorem State.ctxs_setCh (s : State) (n : Nat) (c : DmaCh) : (s.setCh n c).ctxs = s.ctxs := rfl
@[simp] theorem State.ext_setCh (s : State) (n : Nat) (c : DmaCh) : (s.setCh n c).ext = s.ext := rfl
@[simp] theorem State.cal_setCh (s : State) (n : Nat) (c : DmaCh) : (s.setCh n c).cal = s.cal := rfl
@[simp] theorem State.cfg_setCh (s : State) (n : Nat) (c : DmaCh) : (s.setCh n c).cfg = s.cfg := rfl
@[simp] theorem State.boot_setCh (s : State) (n : Nat) (c : DmaCh) : (s.setCh n c).boot = s.boot := rfl
@[simp] theorem State.twin_setCh (s : State) (n : Nat) (c : DmaCh) : (s.setCh n c).twin = s.twin := rfl
@[simp] theorem State.apps_setCh (s : State) (n : Nat) (c : DmaCh) : (s.setCh n c).apps = s.apps := rfl
@[simp] theorem State.fld_setCh (s : State) (n : Nat) (c : DmaCh) : (s.setCh n c).fld = s.fld := rfl
@[simp] theorem State.crd_setCh (s : State) (n : Nat) (c : DmaCh) : (s.setCh n c).crd = s.crd := rfl
@[simp] theorem State.mem_setCh (s : State) (n : Nat) (c : DmaCh) : (s.setCh n c).mem = s.mem := rfl
@[simp] theorem State.tags_setCh (s : State) (n : Nat) (c : DmaCh) : (s.setCh n c).tags = s.tags := rfl
@[simp] theorem State.cxl_setCh (s : State) (n : Nat) (c : DmaCh) : (s.setCh n c).cxl = s.cxl := rfl
@[simp] theorem State.out_setCh (s : State) (n : Nat) (c : DmaCh) : (s.setCh n c).out = s.out := rfl
@[simp] theorem State.pending_setCh (s : State) (n : Nat) (c : DmaCh) : (s.setCh n c).pending = s.pending := rfl

/-! ### After `setApp` -/

@[simp] theorem State.regs_setApp (s : State) (id : Nat) (a : Option App) : (s.setApp id a).regs = s.regs := rfl
@[simp] theorem State.regBad_setApp (s : State) (id : Nat) (a : Option App) : (s.setApp id a).regBad = s.regBad := rfl
@[simp] theorem State.latch_setApp (s : State) (id : Nat) (a : Option App) : (s.setApp id a).latch = s.latch := rfl
@[simp] theorem State.ctrs_setApp (s : State) (id : Nat) (a : Option App) : (s.setApp id a).ctrs = s.ctrs := rfl
@[simp] theorem State.free_setApp (s : State) (id : Nat) (a : Option App) : (s.setApp id a).free = s.free := rfl
@[simp] theorem State.gac_setApp (s : State) (id : Nat) (a : Option App) : (s.setApp id a).gac = s.gac := rfl
@[simp] theorem State.cul_setApp (s : State) (id : Nat) (a : Option App) : (s.setApp id a).cul = s.cul := rfl
@[simp] theorem State.keys_setApp (s : State) (id : Nat) (a : Option App) : (s.setApp id a).keys = s.keys := rfl
@[simp] theorem State.ciq_setApp (s : State) (id : Nat) (a : Option App) : (s.setApp id a).ciq = s.ciq := rfl
@[simp] theorem State.pke_setApp (s : State) (id : Nat) (a : Option App) : (s.setApp id a).pke = s.pke := rfl
@[simp] theorem State.rng_setApp (s : State) (id : Nat) (a : Option App) : (s.setApp id a).rng = s.rng := rfl
@[simp] theorem State.nv_setApp (s : State) (id : Nat) (a : Option App) : (s.setApp id a).nv = s.nv := rfl
@[simp] theorem State.berm_setApp (s : State) (id : Nat) (a : Option App) : (s.setApp id a).berm = s.berm := rfl
@[simp] theorem State.pwr_setApp (s : State) (id : Nat) (a : Option App) : (s.setApp id a).pwr = s.pwr := rfl
@[simp] theorem State.dma_setApp (s : State) (id : Nat) (a : Option App) : (s.setApp id a).dma = s.dma := rfl
@[simp] theorem State.pairs_setApp (s : State) (id : Nat) (a : Option App) : (s.setApp id a).pairs = s.pairs := rfl
@[simp] theorem State.ecc_setApp (s : State) (id : Nat) (a : Option App) : (s.setApp id a).ecc = s.ecc := rfl
@[simp] theorem State.grv_setApp (s : State) (id : Nat) (a : Option App) : (s.setApp id a).grv = s.grv := rfl
@[simp] theorem State.fp_setApp (s : State) (id : Nat) (a : Option App) : (s.setApp id a).fp = s.fp := rfl
@[simp] theorem State.slu_setApp (s : State) (id : Nat) (a : Option App) : (s.setApp id a).slu = s.slu := rfl
@[simp] theorem State.lanes_setApp (s : State) (id : Nat) (a : Option App) : (s.setApp id a).lanes = s.lanes := rfl
@[simp] theorem State.ctxs_setApp (s : State) (id : Nat) (a : Option App) : (s.setApp id a).ctxs = s.ctxs := rfl
@[simp] theorem State.ext_setApp (s : State) (id : Nat) (a : Option App) : (s.setApp id a).ext = s.ext := rfl
@[simp] theorem State.cal_setApp (s : State) (id : Nat) (a : Option App) : (s.setApp id a).cal = s.cal := rfl
@[simp] theorem State.cfg_setApp (s : State) (id : Nat) (a : Option App) : (s.setApp id a).cfg = s.cfg := rfl
@[simp] theorem State.boot_setApp (s : State) (id : Nat) (a : Option App) : (s.setApp id a).boot = s.boot := rfl
@[simp] theorem State.twin_setApp (s : State) (id : Nat) (a : Option App) : (s.setApp id a).twin = s.twin := rfl
@[simp] theorem State.fld_setApp (s : State) (id : Nat) (a : Option App) : (s.setApp id a).fld = s.fld := rfl
@[simp] theorem State.crd_setApp (s : State) (id : Nat) (a : Option App) : (s.setApp id a).crd = s.crd := rfl
@[simp] theorem State.mem_setApp (s : State) (id : Nat) (a : Option App) : (s.setApp id a).mem = s.mem := rfl
@[simp] theorem State.tags_setApp (s : State) (id : Nat) (a : Option App) : (s.setApp id a).tags = s.tags := rfl
@[simp] theorem State.cxl_setApp (s : State) (id : Nat) (a : Option App) : (s.setApp id a).cxl = s.cxl := rfl
@[simp] theorem State.out_setApp (s : State) (id : Nat) (a : Option App) : (s.setApp id a).out = s.out := rfl
@[simp] theorem State.pending_setApp (s : State) (id : Nat) (a : Option App) : (s.setApp id a).pending = s.pending := rfl

/-! ### After `setWay` -/

@[simp] theorem State.regs_setWay (s : State) (i : Nat) (w : Option CpsWay) : (s.setWay i w).regs = s.regs := rfl
@[simp] theorem State.regBad_setWay (s : State) (i : Nat) (w : Option CpsWay) : (s.setWay i w).regBad = s.regBad := rfl
@[simp] theorem State.latch_setWay (s : State) (i : Nat) (w : Option CpsWay) : (s.setWay i w).latch = s.latch := rfl
@[simp] theorem State.ctrs_setWay (s : State) (i : Nat) (w : Option CpsWay) : (s.setWay i w).ctrs = s.ctrs := rfl
@[simp] theorem State.free_setWay (s : State) (i : Nat) (w : Option CpsWay) : (s.setWay i w).free = s.free := rfl
@[simp] theorem State.gac_setWay (s : State) (i : Nat) (w : Option CpsWay) : (s.setWay i w).gac = s.gac := rfl
@[simp] theorem State.cul_setWay (s : State) (i : Nat) (w : Option CpsWay) : (s.setWay i w).cul = s.cul := rfl
@[simp] theorem State.keys_setWay (s : State) (i : Nat) (w : Option CpsWay) : (s.setWay i w).keys = s.keys := rfl
@[simp] theorem State.ciq_setWay (s : State) (i : Nat) (w : Option CpsWay) : (s.setWay i w).ciq = s.ciq := rfl
@[simp] theorem State.pke_setWay (s : State) (i : Nat) (w : Option CpsWay) : (s.setWay i w).pke = s.pke := rfl
@[simp] theorem State.rng_setWay (s : State) (i : Nat) (w : Option CpsWay) : (s.setWay i w).rng = s.rng := rfl
@[simp] theorem State.nv_setWay (s : State) (i : Nat) (w : Option CpsWay) : (s.setWay i w).nv = s.nv := rfl
@[simp] theorem State.berm_setWay (s : State) (i : Nat) (w : Option CpsWay) : (s.setWay i w).berm = s.berm := rfl
@[simp] theorem State.pwr_setWay (s : State) (i : Nat) (w : Option CpsWay) : (s.setWay i w).pwr = s.pwr := rfl
@[simp] theorem State.dma_setWay (s : State) (i : Nat) (w : Option CpsWay) : (s.setWay i w).dma = s.dma := rfl
@[simp] theorem State.pairs_setWay (s : State) (i : Nat) (w : Option CpsWay) : (s.setWay i w).pairs = s.pairs := rfl
@[simp] theorem State.ecc_setWay (s : State) (i : Nat) (w : Option CpsWay) : (s.setWay i w).ecc = s.ecc := rfl
@[simp] theorem State.fp_setWay (s : State) (i : Nat) (w : Option CpsWay) : (s.setWay i w).fp = s.fp := rfl
@[simp] theorem State.slu_setWay (s : State) (i : Nat) (w : Option CpsWay) : (s.setWay i w).slu = s.slu := rfl
@[simp] theorem State.lanes_setWay (s : State) (i : Nat) (w : Option CpsWay) : (s.setWay i w).lanes = s.lanes := rfl
@[simp] theorem State.ctxs_setWay (s : State) (i : Nat) (w : Option CpsWay) : (s.setWay i w).ctxs = s.ctxs := rfl
@[simp] theorem State.ext_setWay (s : State) (i : Nat) (w : Option CpsWay) : (s.setWay i w).ext = s.ext := rfl
@[simp] theorem State.cal_setWay (s : State) (i : Nat) (w : Option CpsWay) : (s.setWay i w).cal = s.cal := rfl
@[simp] theorem State.cfg_setWay (s : State) (i : Nat) (w : Option CpsWay) : (s.setWay i w).cfg = s.cfg := rfl
@[simp] theorem State.boot_setWay (s : State) (i : Nat) (w : Option CpsWay) : (s.setWay i w).boot = s.boot := rfl
@[simp] theorem State.twin_setWay (s : State) (i : Nat) (w : Option CpsWay) : (s.setWay i w).twin = s.twin := rfl
@[simp] theorem State.apps_setWay (s : State) (i : Nat) (w : Option CpsWay) : (s.setWay i w).apps = s.apps := rfl
@[simp] theorem State.fld_setWay (s : State) (i : Nat) (w : Option CpsWay) : (s.setWay i w).fld = s.fld := rfl
@[simp] theorem State.crd_setWay (s : State) (i : Nat) (w : Option CpsWay) : (s.setWay i w).crd = s.crd := rfl
@[simp] theorem State.mem_setWay (s : State) (i : Nat) (w : Option CpsWay) : (s.setWay i w).mem = s.mem := rfl
@[simp] theorem State.tags_setWay (s : State) (i : Nat) (w : Option CpsWay) : (s.setWay i w).tags = s.tags := rfl
@[simp] theorem State.cxl_setWay (s : State) (i : Nat) (w : Option CpsWay) : (s.setWay i w).cxl = s.cxl := rfl
@[simp] theorem State.out_setWay (s : State) (i : Nat) (w : Option CpsWay) : (s.setWay i w).out = s.out := rfl
@[simp] theorem State.pending_setWay (s : State) (i : Nat) (w : Option CpsWay) : (s.setWay i w).pending = s.pending := rfl

/-! ### After `setLine` -/

@[simp] theorem State.regs_setLine (s : State) (r e : Nat) (l : GrvLine) : (s.setLine r e l).regs = s.regs := rfl
@[simp] theorem State.regBad_setLine (s : State) (r e : Nat) (l : GrvLine) : (s.setLine r e l).regBad = s.regBad := rfl
@[simp] theorem State.latch_setLine (s : State) (r e : Nat) (l : GrvLine) : (s.setLine r e l).latch = s.latch := rfl
@[simp] theorem State.ctrs_setLine (s : State) (r e : Nat) (l : GrvLine) : (s.setLine r e l).ctrs = s.ctrs := rfl
@[simp] theorem State.free_setLine (s : State) (r e : Nat) (l : GrvLine) : (s.setLine r e l).free = s.free := rfl
@[simp] theorem State.gac_setLine (s : State) (r e : Nat) (l : GrvLine) : (s.setLine r e l).gac = s.gac := rfl
@[simp] theorem State.cul_setLine (s : State) (r e : Nat) (l : GrvLine) : (s.setLine r e l).cul = s.cul := rfl
@[simp] theorem State.keys_setLine (s : State) (r e : Nat) (l : GrvLine) : (s.setLine r e l).keys = s.keys := rfl
@[simp] theorem State.ciq_setLine (s : State) (r e : Nat) (l : GrvLine) : (s.setLine r e l).ciq = s.ciq := rfl
@[simp] theorem State.pke_setLine (s : State) (r e : Nat) (l : GrvLine) : (s.setLine r e l).pke = s.pke := rfl
@[simp] theorem State.rng_setLine (s : State) (r e : Nat) (l : GrvLine) : (s.setLine r e l).rng = s.rng := rfl
@[simp] theorem State.nv_setLine (s : State) (r e : Nat) (l : GrvLine) : (s.setLine r e l).nv = s.nv := rfl
@[simp] theorem State.berm_setLine (s : State) (r e : Nat) (l : GrvLine) : (s.setLine r e l).berm = s.berm := rfl
@[simp] theorem State.pwr_setLine (s : State) (r e : Nat) (l : GrvLine) : (s.setLine r e l).pwr = s.pwr := rfl
@[simp] theorem State.dma_setLine (s : State) (r e : Nat) (l : GrvLine) : (s.setLine r e l).dma = s.dma := rfl
@[simp] theorem State.pairs_setLine (s : State) (r e : Nat) (l : GrvLine) : (s.setLine r e l).pairs = s.pairs := rfl
@[simp] theorem State.ecc_setLine (s : State) (r e : Nat) (l : GrvLine) : (s.setLine r e l).ecc = s.ecc := rfl
@[simp] theorem State.fp_setLine (s : State) (r e : Nat) (l : GrvLine) : (s.setLine r e l).fp = s.fp := rfl
@[simp] theorem State.slu_setLine (s : State) (r e : Nat) (l : GrvLine) : (s.setLine r e l).slu = s.slu := rfl
@[simp] theorem State.lanes_setLine (s : State) (r e : Nat) (l : GrvLine) : (s.setLine r e l).lanes = s.lanes := rfl
@[simp] theorem State.ctxs_setLine (s : State) (r e : Nat) (l : GrvLine) : (s.setLine r e l).ctxs = s.ctxs := rfl
@[simp] theorem State.ext_setLine (s : State) (r e : Nat) (l : GrvLine) : (s.setLine r e l).ext = s.ext := rfl
@[simp] theorem State.cal_setLine (s : State) (r e : Nat) (l : GrvLine) : (s.setLine r e l).cal = s.cal := rfl
@[simp] theorem State.cfg_setLine (s : State) (r e : Nat) (l : GrvLine) : (s.setLine r e l).cfg = s.cfg := rfl
@[simp] theorem State.boot_setLine (s : State) (r e : Nat) (l : GrvLine) : (s.setLine r e l).boot = s.boot := rfl
@[simp] theorem State.twin_setLine (s : State) (r e : Nat) (l : GrvLine) : (s.setLine r e l).twin = s.twin := rfl
@[simp] theorem State.apps_setLine (s : State) (r e : Nat) (l : GrvLine) : (s.setLine r e l).apps = s.apps := rfl
@[simp] theorem State.fld_setLine (s : State) (r e : Nat) (l : GrvLine) : (s.setLine r e l).fld = s.fld := rfl
@[simp] theorem State.crd_setLine (s : State) (r e : Nat) (l : GrvLine) : (s.setLine r e l).crd = s.crd := rfl
@[simp] theorem State.mem_setLine (s : State) (r e : Nat) (l : GrvLine) : (s.setLine r e l).mem = s.mem := rfl
@[simp] theorem State.tags_setLine (s : State) (r e : Nat) (l : GrvLine) : (s.setLine r e l).tags = s.tags := rfl
@[simp] theorem State.cxl_setLine (s : State) (r e : Nat) (l : GrvLine) : (s.setLine r e l).cxl = s.cxl := rfl
@[simp] theorem State.out_setLine (s : State) (r e : Nat) (l : GrvLine) : (s.setLine r e l).out = s.out := rfl
@[simp] theorem State.pending_setLine (s : State) (r e : Nat) (l : GrvLine) : (s.setLine r e l).pending = s.pending := rfl

/-! ### After `setLink` -/

@[simp] theorem State.regs_setLink (s : State) (j : Nat) (l : CxlLink) : (s.setLink j l).regs = s.regs := rfl
@[simp] theorem State.regBad_setLink (s : State) (j : Nat) (l : CxlLink) : (s.setLink j l).regBad = s.regBad := rfl
@[simp] theorem State.latch_setLink (s : State) (j : Nat) (l : CxlLink) : (s.setLink j l).latch = s.latch := rfl
@[simp] theorem State.ctrs_setLink (s : State) (j : Nat) (l : CxlLink) : (s.setLink j l).ctrs = s.ctrs := rfl
@[simp] theorem State.free_setLink (s : State) (j : Nat) (l : CxlLink) : (s.setLink j l).free = s.free := rfl
@[simp] theorem State.gac_setLink (s : State) (j : Nat) (l : CxlLink) : (s.setLink j l).gac = s.gac := rfl
@[simp] theorem State.cul_setLink (s : State) (j : Nat) (l : CxlLink) : (s.setLink j l).cul = s.cul := rfl
@[simp] theorem State.keys_setLink (s : State) (j : Nat) (l : CxlLink) : (s.setLink j l).keys = s.keys := rfl
@[simp] theorem State.ciq_setLink (s : State) (j : Nat) (l : CxlLink) : (s.setLink j l).ciq = s.ciq := rfl
@[simp] theorem State.pke_setLink (s : State) (j : Nat) (l : CxlLink) : (s.setLink j l).pke = s.pke := rfl
@[simp] theorem State.rng_setLink (s : State) (j : Nat) (l : CxlLink) : (s.setLink j l).rng = s.rng := rfl
@[simp] theorem State.nv_setLink (s : State) (j : Nat) (l : CxlLink) : (s.setLink j l).nv = s.nv := rfl
@[simp] theorem State.berm_setLink (s : State) (j : Nat) (l : CxlLink) : (s.setLink j l).berm = s.berm := rfl
@[simp] theorem State.pwr_setLink (s : State) (j : Nat) (l : CxlLink) : (s.setLink j l).pwr = s.pwr := rfl
@[simp] theorem State.dma_setLink (s : State) (j : Nat) (l : CxlLink) : (s.setLink j l).dma = s.dma := rfl
@[simp] theorem State.pairs_setLink (s : State) (j : Nat) (l : CxlLink) : (s.setLink j l).pairs = s.pairs := rfl
@[simp] theorem State.ecc_setLink (s : State) (j : Nat) (l : CxlLink) : (s.setLink j l).ecc = s.ecc := rfl
@[simp] theorem State.fp_setLink (s : State) (j : Nat) (l : CxlLink) : (s.setLink j l).fp = s.fp := rfl
@[simp] theorem State.slu_setLink (s : State) (j : Nat) (l : CxlLink) : (s.setLink j l).slu = s.slu := rfl
@[simp] theorem State.lanes_setLink (s : State) (j : Nat) (l : CxlLink) : (s.setLink j l).lanes = s.lanes := rfl
@[simp] theorem State.ctxs_setLink (s : State) (j : Nat) (l : CxlLink) : (s.setLink j l).ctxs = s.ctxs := rfl
@[simp] theorem State.ext_setLink (s : State) (j : Nat) (l : CxlLink) : (s.setLink j l).ext = s.ext := rfl
@[simp] theorem State.cal_setLink (s : State) (j : Nat) (l : CxlLink) : (s.setLink j l).cal = s.cal := rfl
@[simp] theorem State.cfg_setLink (s : State) (j : Nat) (l : CxlLink) : (s.setLink j l).cfg = s.cfg := rfl
@[simp] theorem State.boot_setLink (s : State) (j : Nat) (l : CxlLink) : (s.setLink j l).boot = s.boot := rfl
@[simp] theorem State.twin_setLink (s : State) (j : Nat) (l : CxlLink) : (s.setLink j l).twin = s.twin := rfl
@[simp] theorem State.apps_setLink (s : State) (j : Nat) (l : CxlLink) : (s.setLink j l).apps = s.apps := rfl
@[simp] theorem State.fld_setLink (s : State) (j : Nat) (l : CxlLink) : (s.setLink j l).fld = s.fld := rfl
@[simp] theorem State.crd_setLink (s : State) (j : Nat) (l : CxlLink) : (s.setLink j l).crd = s.crd := rfl
@[simp] theorem State.mem_setLink (s : State) (j : Nat) (l : CxlLink) : (s.setLink j l).mem = s.mem := rfl
@[simp] theorem State.tags_setLink (s : State) (j : Nat) (l : CxlLink) : (s.setLink j l).tags = s.tags := rfl
@[simp] theorem State.cxl_setLink (s : State) (j : Nat) (l : CxlLink) : (s.setLink j l).cxl = s.cxl := rfl
@[simp] theorem State.out_setLink (s : State) (j : Nat) (l : CxlLink) : (s.setLink j l).out = s.out := rfl
@[simp] theorem State.pending_setLink (s : State) (j : Nat) (l : CxlLink) : (s.setLink j l).pending = s.pending := rfl

end Sys2Proof.Machine
end

