-- ==== Sys2Proof/Machine/Image.lean ====
section
/-! DEFINITION. The bytes of the structures that lie in host memory, all little-endian (R6): command slots, replies, event
ring entries, DMA descriptors and their write-back. -/

namespace Sys2Proof.Machine

/-- A command slot as the host hands it over, with its opcode (Table CUL-2). -/
def slotImage (sl : Slot) (opc : Nat) : List Byte :=
  [sl.own, sl.ver] ++ toLe 2 sl.flags.toNat ++ toLe 2 opc ++ toLe 2 sl.len.toNat ++ toLe 4 sl.tag.toNat ++ toLe 4 sl.handle.toNat
    ++ fitB 104 sl.params ++ toLe 8 sl.cycle.toNat

/-- A DMA descriptor as its owner hands it over (Table DMA-1). -/
def descImage (d : DmaRaw) : List Byte :=
  [1, d.op] ++ toLe 2 d.flags.toNat ++ toLe 4 d.len.toNat ++ toLe 8 d.src.toNat ++ toLe 8 d.dst.toNat ++ toLe 4 d.value.toNat
    ++ toLe 4 d.tag.toNat

/-- What the device writes of a structure in host memory: a reply from its STATUS on (Table CUL-3), an event entry in full
(Table CUL-7), a descriptor's write-back from its STATUS to its GAC (Table DMA-2). The byte OWN of the first and the third
becomes 0 in a later write, and the byte after it stays (R206, R252). -/
def Out.image : Out → List Byte
  | .reply _ _ status opc tag detail result cycleDone =>
    toLe 2 status ++ toLe 2 opc ++ toLe 2 (min 104 result.length) ++ toLe 4 tag ++ toLe 4 detail ++ fitB 104 result ++ toLe 8 cycleDone.toNat
  | .event _ _ phase ev =>
    toLe 1 (b2n phase) ++ toLe 1 ev.cls ++ toLe 2 ev.code ++ toLe 4 ev.tag ++ toLe 8 ev.gac.toNat ++ toLe 16 ev.data.toNat
  | .dmaBack _ _ status done result detail gac => toLe 2 status ++ toLe 4 done ++ toLe 4 result ++ toLe 4 detail ++ toLe 8 gac.toNat
  | .hostWrite _ bytes => bytes
  | _ => []

end Sys2Proof.Machine
end

