-- ==== Sys2Proof/WellFormed.lean ====
section
/-! DEFINITION. Well-formed commands: the operands that can come from outside the device. Every command has a meaning;
one that is not well formed cannot arise at the device's edge. -/

namespace Sys2Proof

/-- The PARAMS of a command slot are 104 bytes (Table CUL-2). -/
def Slot.ok (sl : Slot) : Bool := sl.params.length = 104

/-- The two copies of a record that a card holds begin with a header block (Table CRD-2). -/
def copiesOk (a b : List Byte) : Bool := (a = [] || decide (512 ≤ a.length)) && (b = [] || decide (512 ≤ b.length))

def CardRun.ok (r : CardRun) : Bool := copiesOk r.copyA r.copyB && copiesOk r.back []

/-- A key as Aeduf installs it: 128 or 256 bits, the salt 96 bits (Table KEY-3). -/
def MkaAct.ok : MkaAct → Bool
  | .hello => true
  | .sak _ _ key salt _ _ _ _ _ _ => (key.length = 16 || key.length = 32) && salt.length = 12
  | .retire _ => true
  | .roll _ _ _ _ => true

def GdoiAct.ok : GdoiAct → Bool
  | .load _ long key _ => key.length = if long then 32 else 16
  | .activate _ => true
  | .roll _ _ _ _ _ => true

/-- What one access of a pair reads back from the host is at most the 64 bytes of an exception frame. -/
def AccIn.ok (x : AccIn) : Bool := match x.host with | some b => decide (b.length ≤ 64) | none => true

/-- The operands of a command that its field widths do not bound. -/
def Instr.wellFormed : Instr → Bool
  | .frameRx _ wire _ _ _ _ _ => decide (0 < wire.length)
  | .mkaRx _ act => act.ok
  | .cxlDeviceTrained _ cap _ => decide (0 < cap.val)
  | .asyncCompletion _ _ x => x.card.ok
  | .atCycleExecute x => x.card.ok
  | .cmdUndefined slot _ => slot.ok
  | .cmdDevInfo sl => sl.ok
  | .cmdDevSessionChallenge sl => sl.ok
  | .cmdDevSessionOpen sl _ => sl.ok
  | .cmdDevSessionClose sl => sl.ok
  | .cmdDevOpkeyEnrol sl => sl.ok
  | .cmdDevOpkeyRevoke sl => sl.ok
  | .cmdDevStatus slot => slot.ok
  | .cmdCfgStage sl => sl.ok
  | .cmdCfgCommit sl => sl.ok
  | .cmdCfgAbort sl => sl.ok
  | .cmdCfgRead sl => sl.ok
  | .cmdCfgStatus sl => sl.ok
  | .cmdKeyLoad sl => sl.ok
  | .cmdKeyDerive sl => sl.ok
  | .cmdKeyActivate sl => sl.ok
  | .cmdKeyRollover sl => sl.ok
  | .cmdKeyArm sl => sl.ok
  | .cmdKeyLimit sl => sl.ok
  | .cmdKeyDelete sl => sl.ok
  | .cmdKeyZeroize sl => sl.ok
  | .cmdKeyClear sl => sl.ok
  | .cmdKeySlotRead sl => sl.ok
  | .cmdPortStatus slot => slot.ok
  | .cmdPortCounters slot => slot.ok
  | .cmdPortExtStatus slot => slot.ok
  | .cmdPortExtFree slot => slot.ok
  | .cmdPortExtRelease slot => slot.ok
  | .cmdGacStatus slot => slot.ok
  | .cmdGacPhasor slot => slot.ok
  | .cmdGacTaiSet slot => slot.ok
  | .cmdGroveInsert slot => slot.ok
  | .cmdGroveUpdate slot => slot.ok
  | .cmdGroveDelete slot => slot.ok
  | .cmdGrovePin slot => slot.ok
  | .cmdGroveUnpin slot => slot.ok
  | .cmdGroveLookup slot => slot.ok
  | .cmdGroveCounterRead slot => slot.ok
  | .cmdGroveLineClear slot => slot.ok
  | .cmdGroveMemAdd slot => slot.ok
  | .cmdGroveRebuild slot => slot.ok
  | .cmdCiqSubmit sl => sl.ok
  | .cmdCiqStatus sl => sl.ok
  | .cmdPkeSign sl _ => sl.ok
  | .cmdPkeVerify sl _ => sl.ok
  | .cmdPkeEcdh sl _ => sl.ok
  | .cmdPkeKeygen sl _ => sl.ok
  | .cmdPkePubkey sl _ => sl.ok
  | .cmdAttStatement sl => sl.ok
  | .cmdAttCert sl => sl.ok
  | .cmdNvaRead sl => sl.ok
  | .cmdNvaProgram sl => sl.ok
  | .cmdNvaErase sl => sl.ok
  | .cmdNvaProtect sl => sl.ok
  | .cmdNvaStatus sl => sl.ok
  | .cmdNvaImageLoad sl => sl.ok
  | .cmdFldStatus sl => sl.ok
  | .cmdFldMode sl => sl.ok
  | .cmdFldReaderPoll sl _ badges _ => sl.ok && badges.all (fun b => decide (b.uid.length ∈ [4, 7, 10]))
  | .cmdCrdRecordRead sl run => sl.ok && run.ok
  | .cmdCrdRecordWrite sl run => sl.ok && run.ok
  | .cmdCrdBundleStage sl run => sl.ok && run.ok
  | .cmdScdStatus sl => sl.ok
  | .cmdScdApdu sl _ => sl.ok
  | .cmdTmpStatus sl => sl.ok
  | .cmdLogTamperRead sl => sl.ok
  | .cmdLogBlazeRead sl => sl.ok
  | .cmdLogBlazeClear sl => sl.ok
  | .cmdTmpRelease sl => sl.ok
  | .cmdTmpBreach sl => sl.ok
  | .cmdTwnStatus sl => sl.ok
  | .cmdTwnTakeover sl => sl.ok
  | .cmdPldStatus sl => sl.ok
  | .cmdPldJoin sl _ => sl.ok
  | .cmdPldLeave sl => sl.ok
  | .cmdPldKeySchedule sl => sl.ok
  | .cmdAppLoad sl => sl.ok
  | .cmdAppStart sl => sl.ok
  | .cmdAppStop sl => sl.ok
  | .cmdAppDelete sl => sl.ok
  | .cmdAppList sl => sl.ok
  | .cmdAppMsg sl _ _ => sl.ok
  | .cmdDiagEcho slot => slot.ok
  | .cmdDiagKat slot => slot.ok
  | .cmdDiagRngHealth sl => sl.ok
  | .domainReady _ _ _ x => x.ok
  | .select _ id => id.length = 4
  | .helloRx payload _ => payload.length = 170
  | .timeRx payload _ => payload.length = 32
  | .replayRx payload _ => payload.length = 48
  | .readyRx payload _ => payload.length = 66
  | .roleRx payload _ => payload.length = 64
  | .leadstateRx payload _ => decide (12 ≤ payload.length) && (payload.length - 12) % 24 = 0
  | .rootRestart cardA cardB => copiesOk cardA cardB
  | .watchdogExpire cardA cardB => copiesOk cardA cardB
  | .stageB2 cardA cardB => copiesOk cardA cardB
  | .ld _ _ _ _ _ _ x => x.ok
  | .st _ _ _ _ _ _ x => x.ok
  | .cas _ _ _ _ x => x.ok
  | .swap _ _ _ _ x => x.ok
  | .amoadd _ _ _ _ x => x.ok
  | .mcpy _ _ _ _ x y => x.ok && y.ok
  | .call _ _ x => x.ok
  | .callr _ _ x => x.ok
  | .ret _ x => x.ok
  | .retx _ x => x.ok
  | .repiIteration _ x y => x.ok && y.ok
  | .registerWrite _ _ _ _ x => x.ok
  | .registerRead _ _ _ x => x.ok
  | .gdoiMessageRx act => act.ok
  | .angleZero | .sluiceEntry _ _ | .katDone _ | .mrefEdge _ _ _ | .mrefTimeout _ | .acquisitionComplete | .holdoverExpire
  | .phasorTimeout | .ptpLock | .syncTimeout | .ptpMessageRx _ _ | .ptpTxInterval _ _ _ | .ppsInEdge | .ppsOutPulse
  | .groveFillReturn _ _ | .missTimeout _ | .frameVerdict _ _ _ _ | .egressHandover _ _ | .egressTxStart _ | .egressFcs _
  | .egressTxEnd _ | .mmVerifyTimer _ | .mmVerifyRx _ | .calFrameRx _ | .pdelayInterval _ | .lldpRx _ _ _ | .lldpTtlExpire _
  | .mkaPeerTimeout _ | .extBackoffEnd _ | .handshakeRetry _ | .offerRx _ _ | .acceptRx _ _ | .confirmRx _ _ | .doneRx _ _
  | .rejectRx _ _ | .extHoldExpire _ | .refclkLoss _ | .refclkRestored _ | .signalDetect _ | .signalLoss _ | .linkFault _ _
  | .laneUp _ _ | .alignTimeout _ | .sweepLine _ _ _ _ | .cxlLinkDown _ | .cxlReadTimeout _ | .cxlFatalError _ | .groveBuildDone
  | .groveMigrateBucket | .groveRegionSwitch | .negEntryExpire _ | .staticEntryFree | .keyGraceEnd _ | .culWinCtlWrite _
  | .functionLevelReset | .hostLinkDown | .busMasterChange _ _ | .cringEnable _ _ | .cringDisable _ _ | .eringEnable _ _
  | .eringDisable _ _ | .cringDoorbell _ _ | .slotReadError _ | .eringDoorbell _ _ | .sessionIdleExpire _ | .opkeyLockExpire _
  | .cfgCommitRecord | .drainPhaseEnd | .dmaEnable _ _ _ | .dmaDisable _ _ _ | .dmaAbort _ _ _ _ | .dmaDoorbell _ _ _ _
  | .dmaCopy _ _ _ | .dmaFill _ _ | .dmaCompare _ _ _ | .keyWindowStage _ _ _ | .keyWindowCommit _ _ | .kdfToWork _ | .kdfToFld _
  | .keyDeriveDone | .keyMoveSlot _ | .keyMovePke _ | .keyWorkClear _ | .rootEraseDone | .slotOverwriteDone
  | .ciqDescriptorSubmit _ _ | .ciqRequestStart _ _ _ _ _ | .ciqRequestDone _ _ _ _ | .ciqCringHeadWrite _ | .pkeJobSubmit _ _
  | .pkeYieldPoint | .pkeJobDone _ _ _ _ _ | .pkeCringHeadWrite _ | .rngInstantiate _ _ | .rngCellFail _ _ | .rngCellReturn _ _
  | .rngReseed _ | .rngBlockTimeout | .rngTestEnter _ | .rngTestExit _ | .rngDataRead _ | .rngRawRead _ _ | .nvaProgramStart _ _
  | .nvaEraseStart _ _ | .nvOpDone _ | .sensorAlarm _ _ _ | .bermSample _ _ | .tmpLevelWrite _ | .supplyDip | .dipRecovery
  | .dipSettled _ | .mainPowerLoss _ _ | .domainSleepRequest _ _ _ | .domainEnterDone _ | .domainWake _ _ | .pwrWakeWrite _
  | .domainWakeTimeout _ | .fieldPresent _ | .fieldLost | .reqa | .wupa | .anticollision _ _ | .hlta | .rats | .pps _ _ | .sDeselect
  | .fldWtxSend | .getIdentity _ _ _ | .getCert _ _ _ | .getAttest _ _ _ | .sealInit _ _ _ | .sealFinish _ _ _ | .mbxRead _ _ _ _
  | .mbxProgram _ _ _ _ | .mbxErase _ _ _ _ | .apduUnsupported _ _ | .mailboxProcess | .cardInsert _ | .cardRemove _ | .scdInsert _
  | .scdRemove | .twinHelloSend | .twinPeerLost | .twinReadyDeadline _ | .twinTakeoverEffect | .peerRefClear | .twinMismatchRepeat
  | .keyDiffDetect | .beaconSend | .beaconRx _ | .reportSend | .reportRx _ | .leaderTimeout | .powerOn | .railReset _
  | .serdesRailReset | .io33RailReset | .perst | .rootResume | .watchdogKick _ | .stageB1 | .stageB3 | .stageB4 _ | .stageB5 _ _
  | .stageB6 _ | .stageB7 | .devIrqSetWrite _ _ | .pairStart _ | .pairReset _ | .interruptTake _ | .lockstepMismatch _
  | .add _ _ _ _ | .sub _ _ _ _ | .and _ _ _ _ | .or _ _ _ _ | .xor _ _ _ _ | .shl _ _ _ _ | .shr _ _ _ _ | .sar _ _ _ _
  | .slt _ _ _ _ | .sltu _ _ _ _ | .mul _ _ _ _ | .mulhu _ _ _ _ | .mulhs _ _ _ _ | .divu _ _ _ _ | .divs _ _ _ _ | .remu _ _ _ _
  | .rems _ _ _ _ | .addi _ _ _ _ | .andi _ _ _ _ | .ori _ _ _ _ | .xori _ _ _ _ | .shli _ _ _ _ | .shri _ _ _ _ | .sari _ _ _ _
  | .slti _ _ _ _ | .sltui _ _ _ _ | .li _ _ _ | .lis _ _ _ | .lea _ _ _ _ _ _ | .bcond _ _ _ _ _ | .jmp _ _ | .jr _ _ | .csrr _ _ _
  | .csrw _ _ _ | .scall _ | .sret _ | .fence _ | .wfi _ | .ebreak _ | .rep _ _ _ _ | .repi _ _ | .illegalInstruction _ _
  | .cmv _ _ _ | .caddr _ _ _ _ | .cdrop _ _ _ _ | .cclip _ _ _ _ | .cclipx _ _ _ _ | .cbind _ _ _ _ | .cunbind _ _ _ _
  | .cstrip _ _ _ | .cwithin _ _ _ _ | .csame _ _ _ _ | .cinsp _ _ _ _ | .caddi _ _ _ _ | .twinPairingRetry | .lldpTxInterval _
  | .mkaTxInterval _ _ => true

end Sys2Proof
end

