-- ==== Sys2Proof/Tests/Slice0.lean ====
section
/-! SUPPORT. Own tests: for each obligation with hypotheses a concrete state and operands that meet them together
(`witness_<its name>`), a term that each check of well-formedness refuses, and the worked examples of the spec. -/

namespace Sys2Proof.Tests

open Sys2Proof Sys2Proof.Machine

-- One theorem at a time: each keeps its thread until the kernel has evaluated it, and there are many.
set_option Elab.async false

/-! ### States -/

/-- Set fields of a state. -/
def withF (l : List (Fld × Nat)) (s : State) : State := l.foldl (fun s e => s.setF e.1 e.2) s

/-- The device with every power domain ON. -/
def powered : State := (List.range 25).foldl (fun s d => s.setDom d dsOn) State.reset

/-- The powered device in service, its lanes 0 and 1 UP, port 0 in service with every gate open. -/
def inService : State :=
  (withF [(F.RST_STS_STAGE, 6), (F.RST_STS_SERVICE, 2), (F.LNE_LANE_STS_STATE 0, lUp), (F.LNE_LANE_STS_STATE 1, lUp), (F.LNE_PORT_CTL_OOS 0, 0)] powered).wr
    (sluState 0 true) 0xFF000000

/-- A Basin frame with nothing decided, a copy in a queue, and a fill. -/
def frame0 : Frame :=
  { id := 0, lane := 0, port := 0, wire := List.replicate 60 0, bytes := List.replicate 60 0, fault := false, dipped := false, core := 0, poison := false,
    gac := 0, tick := 0, epoch := 0, cfg := ⟨0, 0, 0, 0, 0, 0, 0⟩, key := [], entry := none, goose := none, secy := none, tagged := false, cls := 0,
    held := false, phase := .admitted, own := 1, shared := 0, short := false, ord := 0, verdict := none, begun := false, host := none,
    toAeduf := false, counted := false, copies := [] }
def copy0 : FCopy :=
  { port := 0, cls := 0, ord := 0, phase := .queued, stored := true, bytes := List.replicate 60 0, slot := none, core := 0, start := 0, sent := 0, fcs := none,
    waited := false, cutShort := false, overrun := false, raw := false, spoilt := false }
def fill0 : Fill := ⟨0, 0, [], 0, 0, 1, 0, 0⟩

/-- The device in service with frames in its Basin. -/
def holding (l : List Frame) : State := { inService with fp := { inService.fp with frames := l } }

/-- A ring 0 with one slot to take, a window of 2^20 bytes, and session 0 with every permission of an integrator and a key officer. -/
def ringState : State :=
  let s := withF [(F.CUL_CRING_CTL_EN 0, 1), (F.CUL_CRING_STS_STATE 0, 1), (F.CUL_CRING_IDX_TAIL 0, 1), (F.CUL_WIN_CTL_EN, 1), (F.CUL_WIN_SIZE_SIZE, 20)] inService
  { s with cul := { s.cul with bme := true, sessions := [(0, some ⟨0, 0x767, 1, 0, 0⟩)], gens := [(0, 1)] } }

/-- A slot with some parameters, under the handle of session 0 or another. -/
def slotWith (params : List Byte) (bufs : List (List Byte) := []) (h : Nat := 2 ^ 22 + 0x767) : Slot :=
  ⟨0, 1, 1, 0, BitVec.ofNat 16 params.length, 7, BitVec.ofNat 32 h, 0, params ++ List.replicate (104 - params.length) 0, bufs, none⟩

/-- What a command answers has a property. -/
def gives (i : Instr) (s : State) (p : State → Bool) : Bool := match exec i s with | .next t => p t | _ => false

/-- The base points of P-256 and P-384, uncompressed. -/
def g256 : List Byte :=
  4 :: (toBe 32 0x6B17D1F2E12C4247F8BCE6E563A440F277037D812DEB33A0F4A13945D898C296 ++ toBe 32 0x4FE342E2FE1A7F9B8EE7EB4A7C0F9E162BCE33576B315ECECBB6406837BF51F5)
def g384 : List Byte :=
  4 :: (toBe 48 0xAA87CA22BE8B05378EB1C71EF320AD746E1D3B628BA79B9859F741E082542A385502F25DBF55296C3A545E3872760AB7
    ++ toBe 48 0x3617DE4A96262C6F5D9E98BF9292DC29F8F41DBD289A147CE9DA3113B5F0B8C00A60B1CE1D7E819D7A431D7C90EA0E5F)

/-! ### Witnesses of the statements' hypotheses -/

theorem witness_StepRunsExec : ({ State.reset with pending := [.reqa, .hlta] } : State).pending = Instr.reqa :: [Instr.hlta] := rfl
theorem witness_SoundKept : State.reset.Sound ∧ ∃ t, step State.reset = .next t := ⟨⟨rfl, rfl⟩, ⟨_, rfl⟩⟩

theorem witness_GacReferences :
    (bitAt ((withF [(F.GAC_CTL_MREF_EN, 0)] powered).f F.GAC_CTL_MREF_EN) 0 = false)
    ∧ (bitAt ((withF [(F.GAC_CTL_MREF_EN, 1)] powered).f F.GAC_CTL_MREF_EN) 0 = true ∧
        edgeDiscarded ((withF [(F.GAC_CTL_MREF_EN, 1)] powered).f F.GAC_CTL_MINW) ((withF [(F.GAC_CTL_MREF_EN, 1)] powered).mrefIn 0).last 5000000 2000000 = false)
    ∧ (let s := withF [(F.GAC_STATUS_MREF_VALID, 1), (F.GAC_CTL_MREF_EN, 1), (F.GAC_STATUS_STATE, gMains)] powered
       bitAt (s.f F.GAC_STATUS_MREF_VALID) 0 = true ∧ s.gst = gMains ∧ s.f F.GAC_STATUS_MREF_VALID &&& s.f F.GAC_CTL_MREF_EN = 2 ^ 0)
    ∧ (let s := withF [(F.GAC_STATUS_PHASOR_VALID, 1), (F.GAC_STATUS_STATE, gPhasor)] { powered with gac := { powered.gac with phasorMiss := 5 } }
       s.phasorValid = true ∧ 5 ≤ s.gac.phasorMiss ∧ s.gst = gPhasor)
    ∧ (let s := withF [(F.GAC_STATUS_ACQ, 1)] { powered with gac := { powered.gac with close := 16 } }
       s.fb F.GAC_STATUS_ACQ = true ∧ 16 ≤ s.gac.close)
    ∧ powered.gst ≠ gHoldover
    ∧ (let s := withF [(F.GAC_STATUS_STATE, gHoldover)] { powered with berm := { powered.berm with backup := true } }
       s.gst = gHoldover ∧ s.f F.GAC_STATUS_HOLD_LEFT = 0 ∧ s.berm.backup = true ∧ s.fb F.TWN_STATUS_PEER_REF = false ∧ s.fb F.GAC_STATUS_ACQ = false) := by
  decide +kernel

theorem witness_PtpTime :
    (powered.ptpLocked = false ∧ -100 ≤ (powered.rd R.GAC_PTP_OFS).toInt ∧ (powered.rd R.GAC_PTP_OFS).toInt ≤ 100)
    ∧ (withF [(F.GAC_PTP_STATUS_LOCK, 1), (F.GAC_STATUS_STATE, gNominal)] powered).ptpLocked = true
    ∧ (let s := withF [(F.GAC_PPS_CTL_PPS_IN_EN, 1)] { powered with gac := { powered.gac with taiSet := some 7 } }
       s.fb F.GAC_PPS_CTL_PPS_IN_EN = true ∧ s.gac.taiSet = some 7) := by decide +kernel

/-- A good frame of 60 bytes before its FCS, from a host address to another, of EtherType 0x0800. -/
def wire0 : List Byte := [2, 0, 0, 0, 0, 1, 2, 0, 0, 0, 0, 2, 8, 0] ++ List.replicate 46 0

theorem witness_FrameArrival :
    (powered.laneUp 0 = false)
    ∧ (let s := withF [(F.TMP_STS_LEVEL, 4)] inService
       s.laneUp 0 = true ∧ (s.pcsCount 0 ⟨0, 0, 0⟩).service ≠ 0 ∧ 4 ≤ (s.pcsCount 0 ⟨0, 0, 0⟩).level)
    ∧ (let v := inService.pcsCount 0 ⟨0, 0, 0⟩
       let w := v.calReceive 0
       inService.laneUp 0 = true ∧ v.service ≠ 0 ∧ v.level < 4 ∧ w.isExt 0 = false ∧ bitAt (w.rd (w.secyOf 0)).toNat 31 = false ∧ w.oos 0 = false ∧
         hasETag (wire0.take 59) = false ∧ frameLen (wire0.take 59) < 64 ∧
         hasETag wire0 = false ∧ 64 ≤ frameLen wire0 ∧ frameLen wire0 ≤ maxLen (w.rd (R.LNE_PORT_CTL 0)) ∧ reservedDa wire0 = false ∧ (hdrsOf wire0).et wire0 ≠ 0x8808) := by
  decide +kernel

theorem witness_FrameProgress :
    ((holding [{ frame0 with phase := .waiting 3 }]).frame 0 = some { frame0 with phase := .waiting 3 })
    ∧ (let s := withF [(F.CPS_CTL_NEG_TTL, 0)] { inService with grv := { inService.grv with fills := [fill0] } }
       s.grv.fills.find? (·.id = 0) = some fill0 ∧ s.copseNow fill0.key = none ∧ s.waitingOn 0 = [] ∧ s.f F.CPS_CTL_NEG_TTL = 0 ∧
         ∀ e ∈ fill0.lines, (s.line fill0.region e).poison = false ∧ (s.line fill0.region e).flips = [] ∧ (s.line fill0.region e).entry.valid = false)
    ∧ ((holding [frame0]).frame 0 = some frame0 ∧ frame0.phase = .admitted ∧ frame0.verdict = none ∧ frame0.fault = false ∧ frame0.secy = none ∧
        frame0.entry = none ∧ frame0.poison = false ∧ frame0.dipped = false ∧ frame0.copies = [])
    ∧ (∃ f, (holding [{ frame0 with verdict := some .pass }]).handoverNext 0 0 = some f)
    ∧ (let w : CpsWay := ⟨.negative, false, GrvEntry.empty, none, 0, [], 0, none⟩
       (inService.setWay 131327 (some w)).way 131327 = some w) := by
  refine ⟨by decide +kernel, by decide +kernel, by decide +kernel, ⟨{ frame0 with verdict := some .pass }, by decide +kernel⟩, by decide +kernel⟩

/-- Two entries of the egress schedule of port 0, neither a Clearing. -/
def scheduled : State :=
  { withF [(F.SLU_TX_CFG_NENT 0, 2)] inService with slu := { inService.slu with act := [(dirKey 0 true, [(0x7F, 0), (0x100FF, 0)])] } }

theorem witness_SluiceEgress :
    (inService.nent 1023 true ≤ inService.entryNow 1023 true + 1)
    ∧ (scheduled.entryNow 0 true + 1 < scheduled.nent 0 true ∧ scheduled.clearing 0 = false ∧
        entClearing (scheduled.entAt 0 true (scheduled.entryNow 0 true + 1)) = false ∧ (scheduled.lane (scheduled.portLane 0)).taskDue = false ∧
        (scheduled.lane (scheduled.portLane 0)).calLeft = 0 ∧ (scheduled.lane (scheduled.portLane 0)).pdReq = false)
    ∧ (let c := { copy0 with cls := 7 }
       let u := (holding [{ frame0 with phase := .handed, verdict := some .pass, copies := [c] }]).countWaits 0
       u.sendingOn 0 = none ∧ (u.dikeHead 0).any (u.dikeDue 0) = true)
    ∧ (let u := ((holding [{ frame0 with phase := .handed, verdict := some .pass, copies := [copy0] }]).wr (sluState 0 true) 0x7F000000).countWaits 0
       u.sendingOn 0 = none ∧ (u.dikeHead 0).filter (u.dikeDue 0) = none ∧ (u.lane 0).pdReq = false ∧ (u.lane 0).calLeft = 0 ∧ u.preemptedOn 0 = none ∧
         (u.nextLow 0 [6, 5, 4, 3, 2, 1, 0]).isSome = true)
    ∧ (let c := { copy0 with phase := .sending, stored := false, cls := 7 }
       let f := { frame0 with phase := .handed, verdict := some .pass, copies := [c] }
       let s := holding [f]
       s.sendingOn 0 = some (0, c) ∧ s.frame 0 = some f ∧ c.fcs = none ∧ f.verdict = some .pass ∧ c.spoilt = false)
    ∧ (let c := { copy0 with phase := .sending, stored := false }
       let f := { frame0 with phase := .handed, verdict := none, copies := [c] }
       let s := holding [f]
       s.sendingOn 0 = some (0, c) ∧ s.frame 0 = some f ∧ c.fcs = none ∧ f.verdict ≠ some .pass)
    ∧ (let c := { copy0 with phase := .sending, fcs := some true }
       let f := { frame0 with phase := .handed, copies := [c] }
       let s := holding [f]
       s.sendingOn 0 = some (0, c) ∧ s.frame 0 = some f ∧ c.cls ≠ 7 ∧ c.stored = true ∧ c.spoilt = false)
    ∧ (let c := { copy0 with phase := .sending, fcs := some true, cls := 7, stored := false }
       let f := { frame0 with phase := .handed, copies := [c] }
       let s := holding [f]
       s.sendingOn 0 = some (0, c) ∧ s.frame 0 = some f ∧ c.cls = 7 ∧ c.stored = false) := by
  decide +kernel

theorem witness_CalibrationPtp :
    (let s := { inService with cal := { inService.cal with testing := some (11, none) } }
     s.cal.testing = some (11, none))
    ∧ (inService.laneUp 0 = true ∧ (inService.calLane 0).due = false)
    ∧ (let s := inService.setCalLane 0 { inService.calLane 0 with due := true }
       s.laneUp 0 = true ∧ (s.calLane 0).due = true)
    ∧ (inService.calReceive 0).ptpDomain = 0 ∧ (inService.calReceive 0).ptpMaster = false := by decide +kernel

theorem witness_LaneStates :
    (powered.laneSt 31 = lDown ∨ (withF [(F.LNE_LANE_STS_STATE 31, lDown)] powered).laneSt 31 = lDown) ∧ (powered.lane 31).noClock = false
    ∧ (withF [(F.LNE_LANE_STS_STATE 0, lAlign)] powered).laneSt 0 = lAlign
    ∧ inService.laneUp 0 = true
    ∧ (powered.twin.tl.length = 2 ∧ (let s := { powered with twin := { powered.twin with tl := [lDown, lDown] } }
        s.tl 1 = lDown ∧ bitAt (s.f F.LNE_REFCLK_STS_GOOD) 0 = true)) := by decide +kernel

/-- Lane 0 with its extender in some state. -/
def extIn (st : Nat) : State := inService.setXt 0 { inService.xt 0 with st := st, hold := 5 }

theorem witness_MergeAndLoss :
    (let s := withF [(F.SLU_MM_STS_VSTATE 0, 2)] inService
     s.f (F.SLU_MM_STS_VSTATE 0) = 2 ∧ (s.lane 0).verifies < 3)
    ∧ (let s := (withF [(F.SLU_MM_STS_VSTATE 0, 2)] inService).setLane 0 { inService.lane 0 with verifies := 3 }
       s.f (F.SLU_MM_STS_VSTATE 0) = 2 ∧ 3 ≤ (s.lane 0).verifies)
    ∧ inService.laneUp 0 = true
    ∧ ((extIn xActive).xt 0).st = xActive
    ∧ (((extIn xLost).xt 0).st = xLost ∧ ((extIn xLost).xt 0).hold ≠ 0 ∧ ((extIn xLost).xt 0).taken = []) := by decide +kernel

/-- Lane 0 with an extender whose handshake is at some point. -/
def extAt (x : Extender → Extender) : State := inService.setXt 0 (x (inService.xt 0))
/-- The device with its root secret in place. -/
def rooted (s : State) : State := { s with keys := { s.keys with root := .cell (List.replicate 38 0) } }
/-- The twin link with a lane UP, the function enabled, and a handshake at some point. -/
def twinAt (h : TwinHs) : State := (withF [(F.TWN_LINK_STS_TL0, 1), (F.TWN_CTL_EN, 1)] inService).setThs h

theorem witness_Enrolment :
    (let s := rooted (withF [(F.RNG_STS_STATE, 1)] (extAt ({ · with st := xAnnounced })))
     (s.xt 0).st = xAnnounced ∧ s.laneUp 0 = true ∧ s.rngDown = false ∧ s.service = 2 ∧ s.enrolKey.isSome = true)
    ∧ (let s := extAt ({ · with st := xEnrolling, sends := 4 })
       (s.xt 0).st = xEnrolling ∧ (s.xt 0).sends < 5 ∧ (s.xt 0).confirm = [])
    ∧ (let s := extAt ({ · with st := xEnrolling, sends := 4, confirm := [1] })
       (s.xt 0).st = xEnrolling ∧ (s.xt 0).sends < 5 ∧ (s.xt 0).confirm ≠ [])
    ∧ (let s := extAt ({ · with st := xEnrolling, sends := 5 })
       (s.xt 0).st = xEnrolling ∧ 5 ≤ (s.xt 0).sends)
    ∧ (let s := extAt ({ · with st := xEnrolling, session := 7 })
       let p := hsHead false 2 7
       s.laneUp 0 = true ∧ hsIs false 2 p = true ∧ ((s.calReceive 0).xt 0).st = xEnrolling ∧ ((s.calReceive 0).xt 0).confirm = [] ∧
         hsSession p = ((s.calReceive 0).xt 0).session ∧ ((s.calReceive 0).acceptCause 0 p).isSome = true)
    ∧ (let s := extAt ({ · with st := xEnrolling, session := 7 })
       let p := hsHead false 2 8
       s.laneUp 0 = true ∧ ((s.calReceive 0).xt 0).st = xEnrolling ∧ hsSession p ≠ ((s.calReceive 0).xt 0).session)
    ∧ (let s := extAt ({ · with st := xEnrolling, session := 7 })
       let p := hsHead false 0xF 7 ++ [0, 3]
       s.laneUp 0 = true ∧ hsIs false 0xF p = true ∧ ((s.calReceive 0).xt 0).st = xEnrolling ∧ hsSession p = ((s.calReceive 0).xt 0).session) := by
  decide +kernel

theorem witness_KeyAgreement :
    (let s := extAt ({ · with st := xEnrolling, session := 7, confirm := [1] })
     let p := hsHead false 4 7 ++ List.replicate 16 0
     s.laneUp 0 = true ∧ hsIs false 4 p = true ∧ ((s.calReceive 0).xt 0).st = xEnrolling ∧ ((s.calReceive 0).xt 0).confirm ≠ [] ∧
       hsSession p = ((s.calReceive 0).xt 0).session ∧ p.length = 24)
    ∧ (let s := twinAt TwinHs.none_
       let p := hsHead true 1 9
       s.twinLaneUp = true ∧ s.fb F.TWN_CTL_EN = true ∧ hsIs true 1 p = true ∧ s.ths.phase = 0 ∧ s.twin.cred = none)
    ∧ (let s := twinAt { TwinHs.none_ with phase := 2, session := 9 }
       let p := hsHead true 1 9
       s.twinLaneUp = true ∧ s.fb F.TWN_CTL_EN = true ∧ hsIs true 1 p = true ∧ s.ths.phase = 2 ∧ s.ths.session = hsSession p)
    ∧ (let s := twinAt { TwinHs.none_ with phase := 2, session := 9 }
       let p := hsHead true 3 9 ++ List.replicate 112 0
       s.twinLaneUp = true ∧ hsIs true 3 p = true ∧ s.ths.phase = 2 ∧ hsSession p = s.ths.session ∧ p.length = 120)
    ∧ (let s := inService.heard 0
       s.laneUp 0 = true ∧ s.isExt 0 = false ∧ (s.ks 32767).state = Ks.empty ∧ s.txElsewhere (R.FPX_SECY_CTL 0) 3 32767 = false ∧
         s.rd (rxCtl (R.FPX_SECY_CTL 0) 3) ≠ BitVec.ofNat 32 (2 ^ 31 + 32767) ∧ s.rd (txCtl (R.FPX_SECY_CTL 0) 3) ≠ BitVec.ofNat 32 (2 ^ 31 + 32767))
    ∧ (inService.laneUp 1 = true ∧ inService.isExt 1 = false)
    ∧ (let s := inService.setKs 5 { inService.ks 5 with state := Ks.loaded, limit := 1 }
       (s.ks 5).state = Ks.loaded ∧ (s.ks 5).use < (s.ks 5).limit) := by
  decide +kernel

/-- A DONE with the right confirmation of a handshake. -/
def doneOf (h : TwinHs) : List Byte := hsHead true 4 h.session ++ hsConf h.km 0x45 (h.offer ++ h.accept ++ h.confirm.take (h.confirm.length - 16))

theorem witness_KeyAgreement_done :
    let s := twinAt { TwinHs.none_ with phase := 3, session := 9 }
    let p := doneOf s.ths
    s.twinLaneUp = true ∧ hsIs true 4 p = true ∧ s.ths.phase = 3 ∧ hsSession p = s.ths.session ∧ p.length = 24 ∧ byteAt p 1 = 1 ∧
      p.drop 8 = hsConf s.ths.km 0x45 (s.ths.offer ++ s.ths.accept ++ s.ths.confirm.take (s.ths.confirm.length - 16)) :=
  ⟨by decide +kernel, by decide +kernel, by decide +kernel, by decide +kernel, by decide +kernel, by decide +kernel, List.drop_left' (by decide +kernel)⟩

/-- An OFFER of 238 bytes with good points. -/
def offer0 : List Byte := hsHead true 1 9 ++ List.replicate 36 0 ++ g384 ++ g384

/-- The hashes are opaque constants: the OFFER is answered where its sender's digest is the lower one. -/
theorem witness_KeyAgreement_offer (hd : beNat (sha384 (sliceB offer0 141 97)) < beNat (sha384 [])) :
    let s := rooted (withF [(F.RNG_STS_STATE, 1)] { twinAt TwinHs.none_ with twin := { (twinAt TwinHs.none_).twin with cred := some [] } })
    s.twinLaneUp = true ∧ s.fb F.TWN_CTL_EN = true ∧ hsIs true 1 offer0 = true ∧ ¬(s.ths.phase = 2 ∧ s.ths.session = hsSession offer0) ∧
      s.twinOfferCause offer0 = none ∧ beNat (sha384 (sliceB offer0 141 97)) < beNat s.ownDigest ∧ s.identity.isSome = true ∧ s.twin.cred = some [] ∧ s.rngDown = false := by
  refine ⟨by decide +kernel, by decide +kernel, by decide +kernel, by decide +kernel, by decide +kernel, hd, by decide +kernel, by decide +kernel, by decide +kernel⟩

/-- A slot with other flags. -/
def flagged (sl : Slot) (flags : BitVec 16) : Slot := { sl with flags := flags }
def echo : Slot := slotWith [1, 2, 3]
def erase0 : Slot := slotWith (toLe 2 3136 ++ toLe 2 1)
/-- The ring with an event ring of its own. -/
def evState : State := withF [(F.CUL_ERING_CTL_EN 0, 1), (F.CUL_ERING_STS_STATE 0, 1)] ringState

theorem witness_SlotTaken :
    (slotOf (.cmdDiagEcho echo) = some (specDiagEcho, echo))
    ∧ (State.reset.turn 255 = false)
    ∧ (ringState.turn echo.ring = true ∧ ({ echo with own := 0 } : Slot).own ≠ 1)
    ∧ (ringState.turn echo.ring = true ∧ echo.own = 1 ∧ bitAt echo.flags.toNat 0 = false ∧ bitAt echo.flags.toNat 2 = false ∧
        (frontCheck specDiagEcho 2 (specDiagEcho.held echo ringState) (ringState.takeSlot echo.ring)).isSome = true)
    ∧ (let s := ringState.setDom dNva dsOff
       s.turn erase0.ring = true ∧ frontCheck specNvaErase erase0.ver.toNat (specNvaErase.held erase0 s) (s.takeSlot erase0.ring) = none ∧
         specNvaErase.sleeps s = some dNva)
    ∧ (let sl := slotWith (toLe 2 4096 ++ toLe 2 1)
       specNvaErase.asleep ringState = none ∧
         frontCheck specNvaErase sl.ver.toNat (specNvaErase.held sl ringState) (ringState.takeSlot sl.ring) = none ∧
         (fullCheck specNvaErase (specNvaErase.held sl ringState) (specNvaErase.taken sl ringState)).isSome = true)
    ∧ (specDiagEcho.starts echo ringState = true)
    ∧ (specNvaErase.starts erase0 ringState = true ∧
        (match specNvaErase.act (specNvaErase.held erase0 ringState) (specNvaErase.taken erase0 ringState) with | .later _ _ => true | .done _ _ => false) = true) := by
  refine ⟨rfl, by decide +kernel, by decide +kernel, by decide +kernel, by decide +kernel, by decide +kernel, by decide +kernel, by decide +kernel⟩

theorem witness_SlotRefused :
    (specNvaErase.asleep ringState = none ∧ ringState.turn erase0.ring = true ∧
        (frontCheck specNvaErase 2 (specNvaErase.held erase0 ringState) (ringState.takeSlot erase0.ring)).isSome = true)
    ∧ (let sl := flagged erase0 1
       bitAt sl.flags.toNat 0 = true ∧ bitAt sl.flags.toNat 2 = false ∧ (evState.heldEv (evState.f (F.CUL_CRING_CTL_ERING sl.ring))).length < 64 ∧
        frontCheck specNvaErase sl.ver.toNat (specNvaErase.held sl evState) (evState.takeSlot sl.ring) = none ∧
        fullCheck specNvaErase (specNvaErase.held sl evState) (specNvaErase.taken sl evState) = none)
    ∧ (let sl := { flagged erase0 4 with cycle := 2 }
       bitAt sl.flags.toNat 2 = true ∧ evState.cul.atCycle.length < 256 ∧
        frontCheck specNvaErase sl.ver.toNat (specNvaErase.held sl evState) (evState.takeSlot sl.ring) = none ∧
        (bufCheck (specNvaErase.taken sl evState).winBytes (specNvaErase.held sl evState) specNvaErase.bufs <|> specNvaErase.pre (specNvaErase.held sl evState)) = none) := by
  refine ⟨by decide +kernel, by decide +kernel, by decide +kernel⟩

theorem witness_WindowAndRings :
    (let s := withF [(F.CUL_WIN_SIZE_SIZE, 20)] inService
     bitAt (1 : Word).toNat 0 = true ∧ s.fb F.CUL_WIN_CTL_EN = false ∧ 20 ≤ s.f F.CUL_WIN_SIZE_SIZE ∧ s.f F.CUL_WIN_SIZE_SIZE ≤ 30 ∧
       s.rd64 R.CUL_WIN_BASE_LO % 2 ^ s.f F.CUL_WIN_SIZE_SIZE = 0 ∧ s.anyRing = false)
    ∧ (let s := withF [(F.CUL_WIN_SIZE_SIZE, 19)] inService
       s.fb F.CUL_WIN_CTL_EN = false ∧
         ¬(20 ≤ s.f F.CUL_WIN_SIZE_SIZE ∧ s.f F.CUL_WIN_SIZE_SIZE ≤ 30 ∧ s.rd64 R.CUL_WIN_BASE_LO % 2 ^ s.f F.CUL_WIN_SIZE_SIZE = 0 ∧ s.anyRing = false))
    ∧ (ringState.fb F.CUL_WIN_CTL_EN = true)
    ∧ (State.reset.cul.bme = false)
    ∧ (let v : Word := 0x80000000
       bitAt v.toNat 31 = true ∧ ringState.fb (F.CUL_CRING_CTL_EN 255) = false ∧ ringState.fb F.CUL_WIN_CTL_EN = true ∧
         ringState.f (F.CUL_CRING_BASE_BASE 255) * 128 + 128 * (ringState.cringCtl 255 v).cringSize 255 ≤ ringState.winBytes)
    ∧ (let s := withF [(F.CUL_CRING_BASE_BASE 255, 8192)] ringState
       s.winBytes < s.f (F.CUL_CRING_BASE_BASE 255) * 128 + 128 * (s.cringCtl 255 0x80000000).cringSize 255)
    ∧ (bitAt (0 : Word).toNat 31 = false ∧ ringState.fb (F.CUL_CRING_CTL_EN 0) = true)
    ∧ (let v : Word := 0x80000000
       bitAt v.toNat 31 = true ∧ ringState.fb (F.CUL_ERING_CTL_EN 63) = false ∧ ringState.fb F.CUL_WIN_CTL_EN = true ∧ bitAt v.toNat 30 = false ∧
         ringState.f (F.CUL_ERING_BASE_BASE 63) * 32 + 32 * (ringState.eringCtl 63 v).eringSize 63 ≤ ringState.winBytes)
    ∧ (evState.fb (F.CUL_ERING_CTL_EN 0) = true)
    ∧ (ringState.fb (F.CUL_CRING_CTL_EN 0) = true ∧ ringState.f (F.CUL_CRING_STS_STATE 0) = 1)
    ∧ (ringState.ringReady 0 = true)
    ∧ (evState.eringOn 0 = true) := by decide +kernel

theorem witness_LateCommands :
    (let h := specNvaErase.held erase0 ringState
     let w : Waiting := ⟨h, .async, []⟩
     let s := { ringState with cul := { ringState.cul with waits := [w] } }
     s.cul.waits.find? (fun w => w.wait = .async && w.cmd.ring = 0 && w.cmd.idx = 0) = some w ∧ (cmdSpecOf ⟨⟨[], [], 0, .done, []⟩, .lost, none, [], none, 0⟩ h.opc).isSome = true ∧
       specNvaErase.sleeps s = none)
    ∧ (let h := { specNvaErase.held erase0 ringState with cycle := 0 }
       let s := { ringState with cul := { ringState.cul with atCycle := [h] } }
       s.cul.atCycle.find? (fun h => decide (h.cycle ≤ s.cycle)) = some h ∧ specNvaErase.sleeps s = none)
    ∧ (let s := { ringState with gac := { ringState.gac with passed := ringState.cfg.active.idle } }
       (s.session 0).any (fun x => decide (x.seen + s.cfg.active.idle ≤ s.gac.passed)) = true)
    ∧ (let s := { ringState with gac := { ringState.gac with passed := 3000 }, cul := { ringState.cul with locked := [(65535, some 0)] } }
       Tbl.get (fun _ => none) s.cul.locked 65535 = some 0 ∧ 0 + 3000 ≤ s.gac.passed)
    ∧ (ringState.turn echo.ring = true ∧ echo.own = 1 ∧ opcodeDefined 0xFFFF = false) := by decide +kernel

/-- The rings in service, the random bits and the root secret there, and key slots in each state: 1 wraps, 2 is SHARED, 3 LOADED, 4 EXHAUSTED,
5 ZEROIZED, 6 ACTIVE, 7 DRAINING. -/
def cmdState : State :=
  let s := rooted (withF [(F.RNG_STS_STATE, 1), (F.RST_FUSE_LOCKED, 1), (F.PKE_CTL_EN, 1)] evState)
  let k := { KeySlot.empty with limit := 2 ^ 40, material := List.replicate 16 0 }
  [(1, { k with state := Ks.loaded, alg := 14 }), (2, { k with state := Ks.loaded, alg := 15 }), (3, { k with state := Ks.loaded }),
   (4, { k with state := Ks.exhausted }), (5, { k with state := Ks.zeroized }), (6, { k with state := Ks.active }),
   (7, { k with state := Ks.draining })].foldl (fun s e => s.setKs e.1 e.2) s

/-- A stage of the smallest image: one section of no records. -/
def image0 : List Byte :=
  ascii "PWCF" ++ toLe 2 1 ++ toLe 2 1 ++ toLe 4 80 ++ List.replicate 52 0 ++ [4, 0, 1, 0] ++ toLe 4 80 ++ toLe 4 0 ++ toLe 4 0
def stage0 : Slot := slotWith (toLe 4 0 ++ toLe 4 80) [image0]
/-- The set of that image staged for session 0. -/
def staged (drain : Bool) : State :=
  { cmdState with cfg := { cmdState.cfg with shadow := some ⟨{ CfgSet.defaults with digest := List.replicate 48 0, len := 1 }, drain, 0, [], false, false, (0, 1), none⟩ } }
def commit0 (n : Nat) : Slot := slotWith (toLe 8 n ++ List.replicate 48 0) [[0]]
/-- A commit pending, and a drain with one lane. -/
def committing (body : Bool) : State :=
  { staged false with cfg := { (staged false).cfg with commit := some ⟨1, [0], true, body, false⟩ } }

theorem witness_ConfigurationSets :
    (specCfgStage.starts stage0 cmdState = true ∧
        (specCfgStage.taken stage0 cmdState).stageCheck ((specCfgStage.held stage0 cmdState).inp 0 0) 0 (bitAt stage0.flags.toNat 1) false = none ∧
        (specCfgStage.taken stage0 cmdState).pinnedAfter (setOfImage ((specCfgStage.held stage0 cmdState).inp 0 0) (cmdState.cfg.active.seq + 1)) ≤ 65536 ∧
        ((specCfgStage.taken stage0 cmdState).dropShadow.placeShadow
          (setOfImage ((specCfgStage.held stage0 cmdState).inp 0 0) (cmdState.cfg.active.seq + 1)).statics).isSome = true)
    ∧ (let sl := slotWith (toLe 4 0 ++ toLe 4 1) [[0]]
       specCfgStage.starts sl cmdState = true ∧
         ((specCfgStage.taken sl cmdState).stageCheck ((specCfgStage.held sl cmdState).inp 0 0) 0 (bitAt sl.flags.toNat 1) false).isSome = true)
    ∧ (specCfgCommit.starts (commit0 2) (staged false) = true ∧ bitAt (commit0 2).flags.toNat 3 = false ∧
        (staged false).cfg.shadow.any (fun sh => (specCfgCommit.taken (commit0 2) (staged false)).bufReadable sh) = true)
    ∧ (let s := committing true
       s.cfg.commit = some ⟨1, [0], true, true, false⟩ ∧ s.cfg.shadow.isSome = true ∧ s.cycle + 1 = 1)
    ∧ (let s := { cmdState with cfg := { cmdState.cfg with drain := some ⟨1, [0], false⟩ } }
       s.cfg.drain = some ⟨1, [0], false⟩)
    ∧ (let s := { cmdState with cfg := { cmdState.cfg with drain := some ⟨2, [0, 31], false⟩ } }
       s.cfg.drain = some ⟨2, [0, 31], false⟩ ∧ ∀ k ∈ ([0, 31] : List Nat), k < 32)
    ∧ (specCfgAbort.starts (slotWith []) (staged false) = true)
    ∧ (let sl := slotWith ([0, 4, 0, 0] ++ toLe 4 0 ++ toLe 8 0)
       specCfgRead.starts sl cmdState = true ∧ (specCfgRead.held sl cmdState).u 0 1 = 0)
    ∧ (specCfgStatus.starts (slotWith []) cmdState = true) := by decide +kernel

theorem witness_KeyCommands :
    (specKeyLoad.starts (slotWith (toLe 2 9 ++ [0, 0] ++ toLe 4 1 ++ toLe 2 1 ++ [24] ++ List.replicate 24 0)) cmdState = true)
    ∧ (let sl := slotWith (toLe 2 9 ++ [0, 0] ++ toLe 4 1 ++ [1, 0])
       specKeyDerive.starts sl cmdState = true ∧ (specKeyDerive.held sl cmdState).u 9 1 = 0 ∧ cmdState.root.isSome = true)
    ∧ (let sl := slotWith (toLe 2 9 ++ [0, 0] ++ toLe 4 1 ++ [3, 1] ++ toBe 2 2)
       specKeyDerive.starts sl cmdState = true ∧ (specKeyDerive.held sl cmdState).u 9 1 = 1)
    ∧ (specKeyActivate.starts (slotWith (toLe 2 3)) cmdState = true)
    ∧ (specKeyArm.starts (slotWith (toLe 2 6 ++ toLe 2 3)) cmdState = true)
    ∧ (specKeyLimit.starts (slotWith (toLe 8 3 ++ toLe 8 1 ++ toLe 8 1)) cmdState = true)
    ∧ (specKeyDelete.starts (slotWith (toLe 2 4)) cmdState = true)
    ∧ (specKeyClear.starts (slotWith (toLe 2 5)) cmdState = true)
    ∧ (specKeyZeroize.starts (slotWith (toLe 2 32767 ++ toLe 2 32768)) cmdState = true)
    ∧ (specKeySlotRead.starts (slotWith (toLe 2 3)) cmdState = true) := by decide +kernel

/-- A switched rollover of slot 7 to slot 6. -/
def switched (fold : Bool) : State :=
  let s := cmdState.setKs 7 { cmdState.ks 7 with fold := fold }
  { s with keys := { s.keys with rolls := [⟨7, 6, 0, 1, fold, true⟩] } }

theorem witness_Rollovers :
    (let sl := slotWith (toLe 2 6 ++ toLe 2 3 ++ [1, 0, 0, 0] ++ toLe 8 2)
     specKeyRollover.starts sl cmdState = true ∧ bitAt sl.flags.toNat 3 = false ∧
       (specKeyRollover.held sl cmdState).u 0 2 ≠ (specKeyRollover.held sl cmdState).u 2 2)
    ∧ (let r : Roll := ⟨6, 3, 0, 1, false, false⟩
       r.old ≠ r.new ∧ (cmdState.ks r.new).state = Ks.loaded ∧ (cmdState.ks r.new).use < (cmdState.ks r.new).limit ∧ (cmdState.ks r.old).state = Ks.active)
    ∧ ((cmdState.ks 7).state = Ks.draining ∧ (cmdState.ks 7).grace = 0 ∧ (cmdState.ks 7).fold = false)
    ∧ (let s := switched true
       (s.ks 7).state = Ks.draining ∧ (s.ks 7).grace = 0 ∧ (s.ks 7).fold = true ∧
         s.keys.rolls.find? (fun r => r.old = 7 && r.switched) = some ⟨7, 6, 0, 1, true, true⟩ ∧ (s.ks 6).state = Ks.active)
    ∧ (let s := cmdState.setKs 7 { cmdState.ks 7 with grace := 1 }
       (s.ks 7).state = Ks.draining ∧ (s.ks 7).grace ≠ 0)
    ∧ ((cmdState.ks 32767).state ≠ Ks.draining ∧ cmdState.keys.rolls = []) := by decide +kernel

/-- A key staged for slot 9, KEY_WORK full, or a derivation under way. -/
def stagedKey : State := { cmdState with keys := { cmdState.keys with stage := some ⟨9, List.replicate 64 0, List.replicate 12 0, 1⟩ } }
def working : State := { cmdState with keys := { cmdState.keys with work := some (List.replicate 64 0) } }
def deriving_ (fld : Bool) : State := { cmdState with keys := { cmdState.keys with kdf := some ⟨some 2, fld, 64, [0]⟩ } }

theorem witness_KeyWork :
    ((cmdState.setDom dKeys dsOff).domOn dKeys = false)
    ∧ (cmdState.domOn dKeys = true ∧ cmdState.keys.stage = none)
    ∧ (stagedKey.domOn dKeys = true ∧ stagedKey.keys.stage.any (fun g => g.slot ≠ 10) = true)
    ∧ (stagedKey.keys.stage.any (fun g => g.slot = 9) = true ∧ (stagedKey.ks 9).state = Ks.empty ∧ algLoadable (bitsOf (0x80000000 : Word).toNat 12 4) = true ∧
        stagedKey.rngDown = false)
    ∧ (let s := { stagedKey with keys := { stagedKey.keys with stage := some ⟨3, List.replicate 64 0, List.replicate 12 0, 1⟩ } }
       s.domOn dKeys = true ∧ (s.ks 3).state ≠ Ks.empty)
    ∧ (let s := withF [(F.KEY_KDF_LEN_LEN, 256)] cmdState
       let v : Word := 0xC0400002
       s.domOn dKeys = true ∧ bitAt v.toNat 31 = true ∧ bitAt v.toNat 29 = false ∧ bitAt v.toNat 30 = true ∧ s.keys.work = none ∧ s.keys.kdf = none ∧
         1 ≤ bitsOf v.toNat 16 7 ∧ bitsOf v.toNat 16 7 ≤ 64 ∧ (s.ks (bitsOf v.toNat 0 15)).shared = true ∧ 1 ≤ s.f F.KEY_KDF_LEN_LEN ∧ s.f F.KEY_KDF_LEN_LEN ≤ 256)
    ∧ (let s := withF [(F.KEY_KDF_LEN_LEN, 1)] cmdState
       let v : Word := 0xE0600002
       s.domOn dKeys = true ∧ bitAt v.toNat 31 = true ∧ bitAt v.toNat 29 = true ∧ bitAt v.toNat 30 = true ∧ bitsOf v.toNat 16 7 = 96 ∧
         (s.ks (bitsOf v.toNat 0 15)).shared = true ∧ 1 ≤ s.f F.KEY_KDF_LEN_LEN ∧ s.f F.KEY_KDF_LEN_LEN ≤ 256)
    ∧ (working.domOn dKeys = true ∧ bitAt (0xE0600002 : Word).toNat 31 = true ∧ working.keys.work.isSome = true)
    ∧ ((deriving_ true).domOn dKeys = true ∧ (deriving_ true).keys.kdf.any (fun j => j.src = some 2) = true ∧ ((deriving_ true).ks 2).shared = true)
    ∧ (let v : Word := 0x80007FFF
       bitAt v.toNat 31 = true ∧ bitAt v.toNat 30 = false ∧ bitAt v.toNat 29 = false ∧ working.keys.work.isSome = true ∧
         (working.ks (bitsOf v.toNat 0 15)).state = Ks.empty ∧ algLoadable (bitsOf v.toNat 16 4) = true ∧ working.rngDown = false)
    ∧ (let v : Word := 0x80000003
       bitAt v.toNat 31 = true ∧ bitAt v.toNat 30 = false ∧ bitAt v.toNat 29 = false ∧ (working.ks (bitsOf v.toNat 0 15)).state ≠ Ks.empty)
    ∧ (let v : Word := 0xC0020000
       bitAt v.toNat 31 = true ∧ bitAt v.toNat 30 = true ∧ bitAt v.toNat 29 = false ∧ working.keys.work.isSome = true ∧ bitsOf v.toNat 16 4 = 2)
    ∧ (bitAt (0x20000000 : Word).toNat 29 = true) := by decide +kernel

theorem witness_IdentityAndErasure :
    (({ cmdState with keys := { cmdState.keys with rootErasing := true } } : State).keys.rootErasing = true)
    ∧ (({ cmdState with keys := { cmdState.keys with zeroizing := true } } : State).keys.zeroizing = true)
    ∧ (specAttCert.starts (slotWith (toLe 4 0 ++ toLe 4 1024)) cmdState = true)
    ∧ (specAttStatement.starts (slotWith (List.replicate 32 0 ++ toLe 4 0 ++ toLe 4 1024)) cmdState = true ∧ cmdState.identity.isSome = true) := by decide +kernel

/-- A challenge of ring 0 and an enrolled key of an auditor. -/
def challenged : State :=
  { cmdState with cul := { cmdState.cul with challenges := [⟨0, List.replicate 32 0, 0, 0⟩] }, nv := { cmdState.nv with opKeys := [(63, some ⟨1, []⟩)] } }
def open0 (role : Byte) : Slot := slotWith ([role, 0] ++ toLe 2 63 ++ List.replicate 100 0)

theorem witness_SessionCommands :
    (specChallenge.starts (slotWith []) cmdState = true)
    ∧ ((specOpen none).starts (open0 2) challenged = true ∧
        (((specOpen none).taken (open0 2) challenged).openRefused ((specOpen none).held (open0 2) challenged) none).isSome = true)
    ∧ (specClose.starts (slotWith []) cmdState = true)
    ∧ (specEnrol.starts (slotWith ([1, 0] ++ toLe 2 0 ++ g384)) challenged = true)
    ∧ (specRevoke.starts (slotWith (toLe 2 63)) challenged = true) := by decide +kernel

/-- The signatures are opaque constants: the opening is not refused where the key's verifies. -/
theorem witness_SessionCommands_open (hv : ∀ a p m x, verifies a p m x = true) :
    (specOpen none).starts (open0 1) challenged = true ∧
      ((specOpen none).taken (open0 1) challenged).openRefused ((specOpen none).held (open0 1) challenged) none = none ∧
      (List.range 64).find? (fun i => (((specOpen none).taken (open0 1) challenged).session i).isNone) = some 1 := by
  refine ⟨by decide +kernel, ?_, by decide +kernel⟩
  simp only [State.openRefused, hv]
  decide +kernel

theorem witness_StatusCommands :
    (specDevInfo.starts (slotWith []) cmdState = true)
    ∧ (specDevStatus.starts (slotWith []) cmdState = true)
    ∧ (specDiagEcho.starts echo cmdState = true)
    ∧ (specDiagKat.starts (slotWith [11]) cmdState = true)
    ∧ (specRngHealth.starts (slotWith []) cmdState = true)
    ∧ (specPortStatus.starts (slotWith (toLe 2 1023)) cmdState = true)
    ∧ (specPortCounters.starts (slotWith (toLe 2 1023 ++ [0, 0] ++ toLe 4 0 ++ toLe 4 4096)) cmdState = true)
    ∧ (specPortExtStatus.starts (slotWith [31]) cmdState = true)
    ∧ (specPortExtFree.starts (slotWith (toLe 2 1023 ++ toLe 2 1)) (cmdState.setCtx 1023 { cmdState.ctx 1023 with st := ctxQuarantined }) = true)
    ∧ (specPortExtRelease.starts (slotWith [31]) (cmdState.setXt 31 { cmdState.xt 31 with st := xLost }) = true)
    ∧ (specGacStatus.starts (slotWith []) cmdState = true)
    ∧ (let s := withF [(F.GAC_PTP_STATUS_LOCK, 1), (F.GAC_STATUS_STATE, gNominal)] cmdState
       specGacPhasor.starts (slotWith (toLe 8 0 ++ toLe 4 0 ++ toLe 4 0 ++ toLe 4 50000000 ++ List.replicate 12 0)) s = true)
    ∧ (let s := cmdState
       let sl := slotWith (toLe 8 0 ++ toLe 4 0 ++ toLe 4 0 ++ toLe 4 50000000 ++ List.replicate 12 0)
       specGacPhasor.starts sl s = false ∧ s.turn sl.ring = true ∧ frontCheck specGacPhasor sl.ver.toNat (specGacPhasor.held sl s) (s.takeSlot sl.ring) = none ∧
         (fullCheck specGacPhasor (specGacPhasor.held sl s) (specGacPhasor.taken sl s)).isSome = true)
    ∧ (specGacTaiSet.starts (slotWith (toLe 8 0)) (withF [(F.GAC_PPS_CTL_PPS_IN_EN, 1)] cmdState) = true) := by decide +kernel

/-- Slots that serve the queue and the engine: 10 for CTR and CMAC, 12 for GCM of the host, 20 a P-256 key. -/
def cipherState : State :=
  let k := { KeySlot.empty with state := Ks.loaded, limit := 2 ^ 40, material := List.replicate 16 0 }
  [(10, { k with alg := 8 }), (12, { k with alg := 12, salt := List.replicate 4 0 }), (20, { k with alg := 6, material := List.replicate 63 0 ++ [1] })].foldl
    (fun s e => s.setKs e.1 e.2) (withF [(F.CIQ_CTL_EN, 1), (F.CIQ_CTL_SIZE, 4)] cmdState)
/-- A request of no bytes from the chip. -/
def req0 : CiqReq := { ciqOfWords 3 [] with tlen := 16, slot := 12, tagp := sramBase }
def queued (r : CiqReq) : State := { cipherState with ciq := { cipherState.ciq with queues := [[], [], [], [r]] } }
def enciphering (r : CiqReq) : State := { cipherState with ciq := { cipherState.ciq with running := [{ r with core := 11 }] } }

theorem witness_CipherRequests :
    (let s := { cipherState with ciq := { cipherState.ciq with words := [[], [], [], List.replicate 15 0] } }
     s.ciq.queues.length = 4 ∧ s.ciq.words.length = 4 ∧ (s.ciq.words.getD 3 []).length = 15 ∧ s.fb F.CIQ_STS_QUIESCED = false)
    ∧ (let s := queued req0
       s.ciqHead = some req0 ∧ s.ciqCheck { req0 with core := 11 } = none ∧ bitAt (s.f F.FPX_CORE_STS_INSVC) 11 = true ∧ s.ciq.running = [] ∧ s.ciq.waiting = [] ∧
         s.fb F.CIQ_CTL_EN = true ∧ s.domOn dCipher = true ∧ s.cal.testing = none ∧ s.slotPoison [s.effSlot req0.slot] = none)
    ∧ (let r := { req0 with op := 5, slot := 10, tagIn := [], tagp := 0, core := 11 }
       let s := enciphering r
       s.ciq.running.find? (fun r => r.core = 11) = some r ∧ s.ciqPoison r none = none ∧ ciqVerifies r.op = true ∧ 3 < r.op ∧ s.ciq.waiting = [] ∧ s.ciqFull = false)
    ∧ (let r := { req0 with op := 0, core := 11 }
       let s := enciphering r
       s.ciq.running.find? (fun r => r.core = 11) = some r ∧ s.ciqPoison r none = none ∧ ciqVerifies r.op = false ∧ r.dipped = false ∧ s.berm.dipping = false ∧
         s.berm.settling = false)
    ∧ (let d : CiqDone := ⟨req0, St.done, 1, 0, 0, []⟩
       let s := { cipherState with ciq := { cipherState.ciq with waiting := [d] } }
       s.ciq.waiting = [d] ∧ (s.setF F.CIQ_CRING_IDX_HEAD 0).ciqFull = false ∧ d.req.host = none)
    ∧ (let sl := slotWith ([6, 0] ++ toLe 2 10 ++ toLe 8 0 ++ toLe 8 0 ++ toLe 8 0 ++ List.replicate 32 0 ++ [16])
       specCiqSubmit.starts sl cipherState = true)
    ∧ (specCiqStatus.starts (slotWith []) cipherState = true) := by decide +kernel

/-- A job of the engine with intervals left, and the engine with jobs running, queued and suspended. -/
def job0 (order left : Nat) : PkeJob := ⟨2, 4, 0, 0, 0, 7, 0, sramBase, sramBase, 260, 256, sramBase, sramBase, 0, 1, 4, left, order, 0, 0⟩
def engine (run : Option PkeJob) (queue susp : List PkeJob) : State :=
  { cipherState with pke := { cipherState.pke with running := run, queue := queue, suspended := susp } }
/-- An RSA key of 2,048 bits with exponent 3, and a signature below it. -/
def rsaPub : List Byte := List.replicate 256 0xFF ++ toBe 4 3
def rsaSig : List Byte := List.replicate 256 1

theorem witness_PublicKeyEngine :
    (let s := { cipherState with pke := { cipherState.pke with words := List.replicate 15 0 } }
     s.pke.words.length = 15 ∧ s.fb F.PKE_STS_QUIESCED = false ∧ s.pke.queue.length < 16)
    ∧ (let s := engine none [job0 0 4, job0 1 2] []
       s.pke.running = none ∧ s.pke.waiting = [] ∧ s.fb F.PKE_CTL_EN = true ∧ s.berm.dipping = false ∧ s.berm.settling = false ∧ s.domOn dPke = true ∧
         pkeBest (s.pke.suspended ++ s.pke.queue) = some (job0 1 2))
    ∧ (let s := engine (some (job0 0 4)) [] []
       s.pke.running = some (job0 0 4) ∧ pkeBest s.pke.queue = none)
    ∧ (let s := engine (some (job0 0 4)) [job0 1 2] []
       s.pke.running = some (job0 0 4) ∧ pkeBest s.pke.queue = some (job0 1 2) ∧ (job0 1 2).left < (job0 0 4).left - 1 ∧ s.pke.suspended.length < 4 ∧ (job0 0 4).susp < 8)
    ∧ (let j := { job0 0 4 with inLen := 3, inp := culvertBase, key := culvertBase, sig := culvertBase }
       let s := engine (some j) [] []
       s.pke.running = some j ∧ j.faults = 0 ∧ s.pkePoison j = none ∧ j.kreg = false ∧ j.op = 2 ∧
         (j.inputs s [1, 2, 3] rsaPub rsaSig).check { s with pke := { s.pke with running := none } } = none)
    ∧ ({ job0 0 4 with flags := 4, owner := 0xFFFF } : PkeJob).kreg = true
    ∧ (cipherState.pke.waiting = [])
    ∧ ((specPkeSign 0).starts (slotWith ([1, 0] ++ toLe 2 20 ++ toLe 4 0 ++ toLe 4 3 ++ toLe 4 64 ++ toLe 4 64) [[1, 2, 3]]) cipherState = true)
    ∧ ((specPkeVerify 0).starts (slotWith ([4, 0, 0, 0] ++ toLe 4 0 ++ toLe 4 260 ++ toLe 4 512 ++ toLe 4 3 ++ toLe 4 1024 ++ toLe 4 256) [rsaPub, [1, 2, 3], rsaSig])
        cipherState = true)
    ∧ ((specPkeEcdh 0).starts (slotWith ([0x10, 0] ++ toLe 2 20 ++ toLe 2 31 ++ [0, 0] ++ toLe 4 0 ++ toLe 4 65 ++ toLe 4 0 ++ toLe 4 0) [g256]) cipherState = true)
    ∧ ((specPkeKeygen 0).starts (slotWith ([1, 0] ++ toLe 2 30 ++ toLe 4 0 ++ toLe 4 65)) cipherState = true)
    ∧ ((specPkePubkey 0).starts (slotWith (toLe 2 20 ++ [0, 0] ++ toLe 4 0 ++ toLe 4 65)) cipherState = true)
    ∧ ((specPkeSign 2).starts (slotWith ([1, 0] ++ toLe 2 20 ++ toLe 4 0 ++ toLe 4 3 ++ toLe 4 64 ++ toLe 4 64) [[1, 2, 3]]) cipherState = true) := by decide +kernel

/-- The random bit source in a state, with cells in service, retrying and retired. -/
def rngIn (st ok retry retired : Nat) : State :=
  withF [(F.RNG_STS_STATE, st), (F.RNG_STS_CELL_OK, ok), (F.RNG_STS_CELL_RETRY, retry), (F.RNG_STS_CELL_RETIRED, retired)] inService
def withRng (s : State) (f : Rng → Rng) : State := { s with rng := f s.rng }
def blocks3 : List (List Byte) := List.replicate 3 (List.replicate 16 0)

theorem witness_RandomBits :
    (let s := withRng (rngIn RngSt.startup 1 0 0) ({ · with blocks := blocks3 })
     s.rngState = RngSt.startup ∧ (8 : BitVec 4) ≠ 0 ∧ s.f F.RNG_STS_CELL_RETIRED = 0 ∧ s.f F.RNG_STS_CELL_RETRY = 0 ∧
       3 ≤ ((s.setF F.RNG_STS_CELL_OK (s.f F.RNG_STS_CELL_OK ||| (8 : BitVec 4).toNat)).rngFeed []).rng.blocks.length)
    ∧ (let s := withRng (rngIn RngSt.blocked 8 0 7) ({ · with blocks := blocks3 })
       s.rngState = RngSt.blocked ∧ s.f F.RNG_STS_CELL_OK ≠ 0 ∧ 3 ≤ (s.rngFeed []).rng.blocks.length)
    ∧ (let s := withRng (rngIn RngSt.running 8 0 0) ({ · with acc := [[], [], [], List.replicate 15 0] })
       s.berm.dipping = false ∧ s.rngState ≠ RngSt.test ∧ bitAt (s.f F.RNG_STS_CELL_OK) 3 = true ∧ s.rng.acc.length = 4 ∧ (s.rng.acc.getD 3 []).length = 15)
    ∧ (let s := rngIn RngSt.running 15 0 0
       s.berm.dipping = false ∧ s.rngState ≤ RngSt.running ∧ bitAt (s.f F.RNG_STS_CELL_RETIRED) 3 = false)
    ∧ (let s := withRng (rngIn RngSt.running 8 0 7) ({ · with failed := [3] })
       s.berm.dipping = false ∧ s.rngState ≤ RngSt.running ∧ 3 ∈ s.rng.failed ∧ s.f F.RNG_STS_CELL_RETIRED = 15 - 2 ^ 3)
    ∧ (bitAt ((rngIn RngSt.blocked 0 1 0).f F.RNG_STS_CELL_RETRY) 0 = true)
    ∧ (let s := withRng (rngIn RngSt.running 15 0 0) ({ · with blocks := blocks3, zeros := 64 })
       s.rngState = RngSt.running ∧ 3 ≤ s.rng.blocks.length ∧ 64 ≤ s.rng.zeros)
    ∧ (let s := rngIn RngSt.startup 0 8 0
       s.rngState ≤ RngSt.running ∧ s.f F.RNG_STS_CELL_OK = 0 ∧ s.f F.RNG_STS_CELL_RETRY ≠ 0)
    ∧ (bitAt (0x80000003 : Word).toNat 31 = true ∧ (rngIn RngSt.blocked 0 1 0).rngState = RngSt.blocked)
    ∧ (bitAt (3 : Word).toNat 31 = false ∧ (rngIn RngSt.test 15 0 0).rngState = RngSt.test)
    ∧ ((rngIn RngSt.startup 0 0 0).rngState ≠ RngSt.running ∧ (rngIn RngSt.running 15 0 0).rngState = RngSt.running)
    ∧ (let s := withRng (rngIn RngSt.test 15 0 0) ({ · with raw := [1] })
       s.rngState = RngSt.test ∧ s.rng.raw = [1]) := by decide +kernel

/-- The NV controller with an operation taken up, and a register program asked for. -/
def nvOp0 : NvOp := { nvErase_ 3136 1 .reg with restore := false }
def nvBusy (o : NvOp) : State := { cmdState with nv := { cmdState.nv with op := some o } }
def nvAsk (count word : Nat) : State := withF [(F.NVA_OP_ARG_COUNT, count), (F.NVA_OP_ARG_WORD, word)] cmdState
/-- The first word of sector 3136 programmed. -/
def nvFull (s : State) : State := { s with nv := { s.nv with bytes := [(3136 * 4096, 0)] } }

theorem witness_NvController :
    ((nvBusy nvOp0).nv.op.isSome = true)
    ∧ (let s := (nvAsk 1 511).setProt 4031
       s.nv.op = none ∧ s.nvProt 4031 = true ∧ s.f F.NVA_OP_ARG_COUNT = 1 ∧ s.f F.NVA_OP_ARG_WORD ≤ 511 ∧ s.aedufMay 4031 = true)
    ∧ (let s := nvAsk 1 511
       s.nv.op = none ∧ s.nvProt 4031 = false ∧ s.aedufMay 4031 = true ∧ 1 ≤ s.f F.NVA_OP_ARG_COUNT ∧ s.f F.NVA_OP_ARG_WORD + s.f F.NVA_OP_ARG_COUNT ≤ 512 ∧
         ∀ i, i < 1 → s.nvErased (4031 * 4096 + 8 * (511 + i)) = true)
    ∧ (let s := nvFull (nvAsk 1 0)
       s.nv.op = none ∧ s.nvProt 3136 = false ∧ s.aedufMay 3136 = true ∧ s.f F.NVA_OP_ARG_COUNT = 1 ∧ s.f F.NVA_OP_ARG_WORD = 0 ∧ s.nvErased (3136 * 4096) = false)
    ∧ (let s := nvBusy nvOp0
       s.nv.op = some nvOp0 ∧ nvOp0.dipped = false ∧ nvOp0.refused = false ∧ s.domOn dNva = true ∧ nvOp0.erase = true ∧ nvOp0.program = false ∧ nvOp0.count = 1 ∧
         nvOp0.done = 0 ∧ nvOp0.user = .reg ∧ nvOp0.eff = .none ∧ nvArea nvOp0.sector ≠ .journal ∧ s.nv.queue = [])
    ∧ (let o := { nvOp0 with erase := false, program := true, data := List.replicate 8 0 }
       let s := nvFull (nvBusy o)
       s.nv.op = some o ∧ s.domOn dNva = true ∧ (s.progBlocked o).isSome = true ∧ o.user = .reg ∧ s.nv.queue = [])
    ∧ (specNvaRead.starts (slotWith (toLe 2 4095 ++ toLe 2 4095 ++ toLe 4 0 ++ toLe 4 16)) cmdState = true)
    ∧ (specNvaErase.starts erase0 cmdState = true ∧ cmdState.nv.op = none)
    ∧ (let sl := slotWith (toLe 2 3136 ++ toLe 2 0 ++ toLe 4 0 ++ toLe 4 8) [List.replicate 8 0]
       specNvaProgram.starts sl (nvFull cmdState) = true ∧ (nvFull cmdState).nvErased (3136 * 4096) = false ∧ specNvaProgram.starts sl cmdState = true ∧
         ∀ i, i < 1 → cmdState.nvErased (3136 * 4096 + 8 * i) = true)
    ∧ (specNvaProtect.starts (slotWith (toLe 2 4095 ++ toLe 2 1)) cmdState = true)
    ∧ (specNvaStatus.starts (slotWith []) cmdState = true) := by decide +kernel

/-- A sensor active, and the response at a level. -/
def alarmed (active level : Nat) : State := withF [(F.TMP_STS_ACTIVE, active), (F.TMP_STS_LEVEL, level)] cmdState

theorem witness_TamperResponses :
    ((alarmed 0 0).berm.backup = false ∧ (alarmed 0 0).sensorOn 3 = false ∧ (alarmed 0 0).f F.TMP_LOG_COUNT ≤ 256)
    ∧ ((alarmed 8 1).berm.backup = false ∧ (alarmed 8 1).sensorOn 3 = true)
    ∧ (cmdState.berm.dipping = false)
    ∧ (let s := { cmdState with berm := { cmdState.berm with dipping := true } }
       s.berm.dipping = true ∧ s.berm.backup = false)
    ∧ (({ cmdState with berm := { cmdState.berm with settling := true } } : State).berm.settling = true)
    ∧ (specTmpStatus.starts (slotWith []) cmdState = true)
    ∧ (specTmpRelease.starts (slotWith [3]) (alarmed 0 3) = true)
    ∧ (specTmpBreach.starts (slotWith (toLe 4 0x42524348)) (alarmed 0 4) = true ∧ (alarmed 0 4).level < 5)
    ∧ (specLogTamperRead.starts (slotWith ([255, 0] ++ toLe 2 256 ++ toLe 4 0 ++ toLe 4 8192)) cmdState = true)
    ∧ (specLogBlazeRead.starts (slotWith (toLe 4 0 ++ toLe 4 512)) cmdState = true)
    ∧ (specLogBlazeClear.starts (slotWith [255]) cmdState = true) := by decide +kernel

/-- A domain in transition. -/
def moving (d src dst : Nat) : State :=
  let s := powered.setDom d dsMove
  { s with pwr := { s.pwr with trans := [⟨d, src, dst⟩] } }

theorem witness_PowerDomains :
    (bitAt (0x02000000 : Word).toNat 31 = false)
    ∧ (bitAt (0x80000000 : Word).toNat 31 = true ∧ domTakes 0 (bitsOf (0x80000000 : Word).toNat 24 2) = false)
    ∧ (let v : Word := 0x80000000
       bitAt v.toNat 31 = true ∧ domTakes 24 (bitsOf v.toNat 24 2) = true ∧ bitsOf v.toNat 24 2 ≠ dsOn ∧ powered.domTrans 24 = none ∧
         powered.domSt 24 ≠ bitsOf v.toNat 24 2 ∧ powered.sleepBusy 24 (bitsOf v.toNat 24 2) false = false)
    ∧ (powered.sleepBusy dRoot dsOff false = true ∨ inService.sleepBusy dPipe0 dsOff false = true)
    ∧ (∀ e, e < 25 → powered.domOn e = true)
    ∧ (let s := powered.setDom dTwin dsOff
       s.domOn dTwin = false ∧ s.domTrans dTwin = none)
    ∧ (powered.domTrans 24 = none ∧ powered.domOn 24 = true ∧ (powered.setDom 24 dsRet).domOn 24 = false)
    ∧ (let s := moving 24 dsOn dsOff
       s.berm.dipping = false ∧ s.berm.settling = false ∧ s.domTrans 24 = some ⟨24, dsOn, dsOff⟩ ∧ dsOff ≤ dsRet)
    ∧ (let s := moving 24 dsOff dsOn
       s.domTrans 24 = some ⟨24, dsOff, dsOn⟩ ∧ s.pwr.stalled = [] ∧ 24 ∉ s.pwr.stuck)
    ∧ (({ powered with berm := { powered.berm with dipping := true } } : State).berm.dipping = true) := by decide +kernel

/-- The device at a stage of bring-up. -/
def atStage (n : Nat) (l : List (Fld × Nat) := []) : State := withF ((F.RST_STS_STAGE, n) :: l) powered

theorem witness_ResetSources :
    (powered.nv.op = none ∧ powered.berm.coldNext = true ∧ ({ powered with berm := { powered.berm with coldNext := false } } : State).berm.coldNext = false)
    ∧ (withF [(F.FLD_STS_HARVESTED, 1)] powered).fb F.FLD_STS_HARVESTED = true
    ∧ (withF [(F.DEV_PAIR_STS_STATE 0, pHalted)] powered).pairSt 0 = pHalted
    ∧ (atStage 3 [(F.RST_WDT_EN, 1)]).fb F.RST_WDT_EN = true
    ∧ (let s := atStage 3 [(F.CFG_STATUS_DEFAULTS, 1)]
       3 ≤ s.f F.RST_STS_STAGE ∧ s.fb F.RST_WDT_EN = false ∧ s.boot.atRom = false ∧ s.fb F.RST_STS_BOOT_HOLD = false ∧ s.pairSt 0 = pRunning ∧ s.fb F.CFG_STATUS_DEFAULTS = true)
    ∧ powered.berm.backup = false := by decide +kernel

theorem witness_BringUpStages :
    (let s := { atStage 1 with boot := Boot.reset }
     s.f F.RST_STS_STAGE = 1 ∧ (8, 1, 0, 1) ∉ s.boot.report ∧ s.boot.open_ = false ∧ s.boot.count < 256)
    ∧ (let s := rooted (atStage 1)
       s.f F.RST_STS_STAGE = 1 ∧ s.romHolds = false ∧ s.berm.backup = false ∧ s.keys.rootErasing = false)
    ∧ ((atStage 1).romHolds = true)
    ∧ (let s := rooted { atStage 4 with boot := { Boot.reset with atRom := true } }
       s.boot.atRom = true ∧ 2 ≤ s.f F.RST_STS_STAGE ∧ s.romHolds = false ∧ s.berm.backup = false)
    ∧ (let s := atStage 2 [(F.FLD_STS_TAG_STATE, tgSecured)]
       s.f F.RST_STS_STAGE = 2 ∧ s.nv.booted ≤ 1 ∧ s.fieldSession = true)
    ∧ ((atStage 3).f F.RST_STS_STAGE = 3)
    ∧ ((atStage 4).f F.RST_STS_STAGE = 4 ∧ (atStage 4 [(F.GRV_CTL_EN, 0)]).fb F.GRV_CTL_EN = false)
    ∧ ((atStage 5).f F.RST_STS_STAGE = 5)
    ∧ ((atStage 6 [(F.TWN_CTL_EN, 0)]).f F.RST_STS_STAGE = 6 ∧ (atStage 6 [(F.TWN_CTL_EN, 0)]).fb F.TWN_CTL_EN = false)
    ∧ ((atStage 7).f F.RST_STS_STAGE = 7 ∧ (atStage 7).boot.atRom = false) := by decide +kernel

/-- The tag in a field, in a state. -/
def tagIn (st : Nat) (l : List (Fld × Nat) := []) : State :=
  let s := withF ([(F.FLD_CTL_MODE, 1), (F.FLD_STS_FIELD, 1), (F.FLD_STS_TAG_STATE, st)] ++ l) cmdState
  { s with fld := { s.fld with uid := [4, 1, 2, 3, 4, 5, 6] } }
def tagLevel (st n : Nat) : State := { tagIn st with fld := { (tagIn st).fld with level := n } }

theorem witness_TagStates :
    (powered.tagOn = false)
    ∧ ((tagIn tgIdle).tagOn = true ∧ (tagIn tgIdle).tag = tgIdle)
    ∧ ((tagIn tgHalt).tagOn = true ∧ (tagIn tgHalt).tag = tgHalt)
    ∧ ((tagLevel tgReady 1).tagOn = true ∧ (tagLevel tgReady 1).tag = tgReady ∧ (1 : Fin 3).val = (tagLevel tgReady 1).fld.level)
    ∧ ((tagLevel tgReady 0).tag = tgReady ∧ (tagLevel tgReady 0).fld.level = 0)
    ∧ ((tagIn tgActive).tagOn = true ∧ (tagIn tgActive).tag = tgActive)
    ∧ (let s := tagIn tgOpen [(F.FLD_CTL_HIGH_RATE, 1)]
       s.tagOn = true ∧ s.tag = tgOpen ∧ s.fb F.FLD_CTL_HIGH_RATE = true)
    ∧ ((tagIn tgSecured).tagOn = true ∧ (tagIn tgSecured).fieldSession = true)
    ∧ (powered.fb F.FLD_STS_FIELD = false ∧ powered.berm.backup = false)
    ∧ (({ powered with berm := { powered.berm with backup := true } } : State).berm.backup = true)
    ∧ ((tagIn tgIdle).fb F.FLD_STS_FIELD = true) := by decide +kernel

/-- A seal in hand, and an operator key 63. -/
def sealing : State :=
  { tagIn tgOpen with fld := { (tagIn tgOpen).fld with hs := some ⟨List.replicate 32 0, List.replicate 32 0, g256, List.replicate 32 1, [1]⟩ },
                      nv := { (tagIn tgOpen).nv with opKeys := [(63, some ⟨4, g384⟩)] } }
/-- Harvested power, with provisioning. -/
def harvested : State := tagIn tgOpen [(F.FLD_STS_HARVESTED, 1), (F.FLD_CTL_HARV_PROV, 1)]

theorem witness_FieldCommands :
    ((tagIn tgOpen).tagOn = true ∧ (tagIn tgOpen).tag = tgOpen)
    ∧ (let s := { tagIn tgOpen with keys := { (tagIn tgOpen).keys with idCert := List.replicate 129 0 } }
       s.tagOn = true ∧ 128 * (256 * (0 : Byte).toNat + (1 : Byte).toNat) < s.keys.idCert.length ∧ s.keys.idCert.length ≤ 128 * (256 * (0 : Byte).toNat + (2 : Byte).toNat))
    ∧ ((tagIn tgOpen).canSign = true ∧ (List.replicate 32 (0 : Byte)).length = 32 ∧ ((tagIn tgOpen).frameIn.attest (List.replicate 32 0) []).isSome = true)
    ∧ (let s := { tagIn tgOpen with keys := { (tagIn tgOpen).keys with root := .erased } }
       s.tagOn = true ∧ s.tag = tgOpen ∧ s.canSign = false)
    ∧ (let d := List.replicate 32 0 ++ g256
       d.length = 97 ∧ byteAt d 32 = 4 ∧ pointGood 1 (sliceB d 32 65) = true)
    ∧ ((tagIn tgOpen).fld.hs = none)
    ∧ (let s := { sealing with cul := { sealing.cul with locked := [(63, some 0)] } }
       let d := toBe 2 63 ++ List.replicate 112 0
       s.tagOn = true ∧ s.tag = tgOpen ∧ s.canSign = true ∧ s.fld.hs.isSome = true ∧ d.length = 114 ∧ s.keyLocked (beAt d 0 2) = true ∧ s.keys.fldKeys = none)
    ∧ ((tagIn tgSecured).tagOn = true ∧ (tagIn tgSecured).tag = tgSecured ∧ (tagIn tgSecured).plain 0x10 0 0 [] = none)
    ∧ (let le : BitVec 9 := 128
       harvested.tagOn = true ∧ harvested.tag = tgOpen ∧ harvested.fb F.FLD_STS_HARVESTED = true ∧ harvested.fb F.FLD_CTL_HARV_PROV = true ∧ le ≠ 0 ∧ le.toNat % 8 = 0 ∧
         le.toNat ≤ 128 ∧ 256 * (0x0F : Byte).toNat + (0xF0 : Byte).toNat < 4096 ∧ (256 * (0x0F : Byte).toNat + (0xF0 : Byte).toNat) % 512 + le.toNat / 8 ≤ 512)
    ∧ (let le : BitVec 9 := 8
       (tagIn tgOpen).fb F.FLD_STS_HARVESTED = false ∧ le ≠ 0 ∧ le.toNat % 8 = 0 ∧ 256 * (0x1F : Byte).toNat + (0xFF : Byte).toNat < 8192 ∧
         (256 * (0x1F : Byte).toNat + (0xFF : Byte).toNat) % 512 + le.toNat / 8 ≤ 512)
    ∧ (let d : List Byte := List.replicate 128 0
       let w := 256 * (0x0F : Byte).toNat + (0xF0 : Byte).toNat
       d ≠ [] ∧ d.length % 8 = 0 ∧ d.length ≤ 128 ∧ w < 4096 ∧ w % 512 + d.length / 8 ≤ 512 ∧ harvested.nvProt (3104 + w / 512) = false ∧
         ∀ i, i < 16 → harvested.nvErased (3104 * 4096 + 8 * w + 8 * i) = true)
    ∧ (let s := { harvested with nv := { harvested.nv with bytes := [(3104 * 4096 + 8, 0)] } }
       s.tagOn = true ∧ s.tag = tgOpen ∧ s.nvProt 3104 = false ∧ s.nvErased (3104 * 4096 + 8 * 0 + 8 * 1) = false)
    ∧ ((tagIn tgSecured).fieldSession = true ∧ (0xFF : Byte).toNat ∉ fldIns) := by decide +kernel

/-- Badges that differ in their last byte. -/
def manyBadges (n : Nat) : List Badge := (List.range n).map (fun i => ⟨[4, 1, 2, 3, 4, 5, BitVec.ofNat 8 i], true⟩)

theorem witness_FieldMailbox :
    (let s := { cmdState with fld := { cmdState.fld with mbxDue := true } }
     s.fld.mbxDue = true ∧ s.berm.backup = false ∧ s.fieldSession = false)
    ∧ (cmdState.fld.mbxDue = false)
    ∧ (specFldStatus.starts (slotWith []) cmdState = true)
    ∧ (specFldMode.starts (slotWith [2]) cmdState = true)
    ∧ (let s := withF [(F.FLD_CTL_MODE, 2)] cmdState
       (specReaderPoll true [] 0).starts (slotWith [2]) s = true
       ∧ (specReaderPoll false [⟨List.replicate 7 0, true⟩] 3).starts (slotWith [2]) s = true)
    ∧ ((poll (manyBadges 9)).left ≠ [] ∧ (poll (manyBadges 8)).left = []) := by decide +kernel

/-- A SEAL_FINISH under key 63 with the confirmation that the keys of the seal give. -/
def sealKm : List Byte := kdf (shared 0x10 (List.replicate 32 1) g256) (ascii "PW1024 FIELD SEAL" ++ [0] ++ List.replicate 32 0 ++ List.replicate 32 0 ++ sealing.fld.uid) 96
def sealPart : List Byte := toBe 2 63 ++ List.replicate 96 0
def sealConf63 : List Byte := sealConf sealKm 0x52 ([1] ++ sealPart.take 2 ++ sliceB sealPart 2 96)

/-- The signatures are opaque constants: the finish seals the session where the key's verifies. -/
theorem witness_FieldCommands_seal (hv : ∀ a p m x, verifies a p m x = true) :
    let d := sealPart ++ sealConf63
    sealing.tagOn = true ∧ sealing.tag = tgOpen ∧ sealing.canSign = true ∧ sealing.fld.hs = some ⟨List.replicate 32 0, List.replicate 32 0, g256, List.replicate 32 1, [1]⟩ ∧
      d.length = 114 ∧ beAt d 0 2 < 64 ∧ sealing.keyLocked (beAt d 0 2) = false ∧ sealing.opKey (beAt d 0 2) = some ⟨4, g384⟩ ∧
      verifies 2 g384 ([1] ++ d.take 2) (sliceB d 2 96) = true ∧ sliceB d 98 16 = sealConf sealKm 0x52 ([1] ++ d.take 2 ++ sliceB d 2 96) := by
  refine ⟨by decide +kernel, by decide +kernel, by decide +kernel, by decide +kernel, by decide +kernel, by decide +kernel, by decide +kernel, by decide +kernel, hv _ _ _ _, ?_⟩
  rfl

/-- An MBX_ERASE of sector 15 by an integrator, protected under the keys of a session. -/
def sealed : State :=
  { tagIn tgSecured with keys := { (tagIn tgSecured).keys with fldKeys := some (List.replicate 96 0) }, fld := { (tagIn tgSecured).fld with role := 4 } }
def eraseData : List Byte :=
  toBe 4 1 ++ (List.range 16).map (fun i => Config.macByte gcm (kRd (List.replicate 96 0)) (fldNonce 1 1) [0x80, 0x34, 15, 1] [] i)

theorem witness_FieldCommands_erase :
    sealed.tagOn = true ∧ sealed.tag = tgSecured ∧ sealed.berm.backup = false ∧ sealed.plain 0x34 15 1 eraseData = some [] ∧ (15 : Byte).toNat < 16 ∧ sealed.fld.role = 4 ∧
      sealed.nvProt (3104 + (15 : Byte).toNat) = false := by
  refine ⟨by decide +kernel, by decide +kernel, by decide +kernel, ?_, by decide +kernel, by decide +kernel, by decide +kernel⟩
  unfold State.plain
  rw [if_neg (by decide +kernel), show sealed.keys.fldKeys = some (List.replicate 96 0) by decide +kernel]
  dsimp only
  rw [if_pos]
  · rfl
  · simp only [Bool.and_eq_true, decide_eq_true_eq]
    exact ⟨⟨by decide +kernel, by decide +kernel⟩, rfl⟩

/-- A card port that is enabled, and its card ready with a million blocks. -/
def cardState : State := withF [(F.CRD_CTL_EN, 1), (F.CRD_CTL_CD_EN, 1), (F.CRD_STS_STATE, cdReady), (F.CRD_CAP_BLOCKS, 1000000)] cmdState
/-- A record of one byte, valid with a SEQ. -/
def record (r seq : Nat) : List Byte := recHeader r 1 seq [9] ++ [9]
def runOf (stop : CardStop) (a b back : List Byte) : CardRun := ⟨a, b, 0, stop, back⟩
def read0 : Slot := slotWith (toLe 4 3 ++ toLe 4 0 ++ toLe 4 512) [List.replicate 512 0]
def write0 : Slot := slotWith (toLe 4 3 ++ toLe 4 0 ++ toLe 4 1) [[9]]
def bundle0 : Slot := slotWith (toLe 4 3)
/-- A record that holds the image of the tests, and one that holds nothing of an image. -/
def imageRecord : List Byte := recHeader 3 80 1 image0 ++ image0

theorem witness_CardRecords :
    ((cmdState.setDom dCard dsOff).domOn dCard = false)
    ∧ (let s := withF [(F.CRD_CTL_EN, 1)] cmdState
       let c : CardId := ⟨true, 1000, 0x7, 0x7⟩
       s.domOn dCard = true ∧ s.fb F.CRD_CTL_EN = true ∧ s.f F.CRD_STS_STATE = cdEmpty ∧ c.ok = true)
    ∧ (let s := withF [(F.CRD_CTL_EN, 1), (F.CRD_CTL_TYPE, 1)] cmdState
       s.domOn dCard = true ∧ s.fb F.CRD_CTL_EN = true ∧ s.f F.CRD_STS_STATE = cdEmpty ∧ s.fb F.CRD_CTL_TYPE = true)
    ∧ (cardState.domOn dCard = true ∧ cardState.f F.CRD_STS_STATE ≠ cdEmpty ∧ cardState.fb F.CRD_CTL_CD_EN = true)
    ∧ ((withF [(F.CRD_CTL_CD_EN, 0)] cardState).fb F.CRD_CTL_CD_EN = false)
    ∧ (let run := runOf .done [] [] []
       (specCardRead run).starts read0 cardState = true ∧ recPick (((specCardRead run).held read0 cardState).u 0 4) run.copyA run.copyB = none)
    ∧ ((specCardRead (runOf (.lost 5) [] [] [])).starts read0 cardState = true)
    ∧ ((specCardWrite (runOf .done [] [] [])).starts write0 cardState = true ∧ recValid (((specCardWrite (runOf .done [] [] [])).held write0 cardState).u 0 4) [] = false)
    ∧ ((specCardWrite (runOf .spent [] [] [])).starts write0 cardState = true)
    ∧ (let run := runOf .done [] [] []
       (specCardStage run).starts bundle0 cardState = true ∧ recPick (((specCardStage run).held bundle0 cardState).u 0 4) run.copyA run.copyB = none) := by decide +kernel

theorem record_good (r seq : Nat) (hr : r < 2 ^ 32) (hs : seq < 2 ^ 64) : recValid r (record r seq) = true ∧ recSeq (record r seq) = seq ∧ recData (record r seq) = [9] :=
  Laws.recValid_written r seq [9] hr hs (by decide)
theorem imageRecord_good : recValid 3 imageRecord = true ∧ recSeq imageRecord = 1 ∧ recData imageRecord = image0 :=
  Laws.recValid_written 3 1 image0 (by decide) (by decide) (by decide)

theorem witness_CardRecords_read :
    let run := runOf .done (record 3 7) (record 3 8) []
    (specCardRead run).starts read0 cardState = true ∧ run.stop = .done ∧ recPick (((specCardRead run).held read0 cardState).u 0 4) run.copyA run.copyB = some (record 3 8) ∧
      recLen (record 3 8) ≤ (((specCardRead run).held read0 cardState).buf 4).2 ∧ recData (record 3 8) ≠ [] := by
  refine ⟨by decide +kernel, rfl, ?_, by decide +kernel, by decide +kernel⟩
  rw [show ((specCardRead (runOf .done (record 3 7) (record 3 8) [])).held read0 cardState).u 0 4 = 3 by decide +kernel]
  have a := record_good 3 7 (by decide) (by decide)
  have b := record_good 3 8 (by decide) (by decide)
  exact Laws.recPick_second (a := record 3 7) (b := record 3 8) a.1 b.1 (by rw [a.2.1, b.2.1]; decide)

theorem witness_CardRecords_write :
    let run := runOf .done (record 3 7) [] (record 3 8)
    (specCardWrite run).starts write0 cardState = true ∧ recNext (((specCardWrite run).held write0 cardState).u 0 4) run.copyA run.copyB = 8 ∧
      recValid (((specCardWrite run).held write0 cardState).u 0 4) run.back = true ∧ recSeq run.back = 8 := by
  refine ⟨by decide +kernel, ?_⟩
  rw [show ((specCardWrite (runOf .done (record 3 7) [] (record 3 8))).held write0 cardState).u 0 4 = 3 by decide +kernel]
  have a := record_good 3 7 (by decide) (by decide)
  have b := record_good 3 8 (by decide) (by decide)
  have e : recValid 3 [] = false := by decide
  exact ⟨(Laws.recNext_of_pick (Laws.recPick_first a.1 e)).trans (by rw [a.2.1]), b.1, b.2.1⟩

theorem witness_CardRecords_unsigned :
    let run := runOf .done imageRecord [] []
    (specCardStage run).starts bundle0 cardState = true ∧ run.stop = .done ∧
      recPick (((specCardStage run).held bundle0 cardState).u 0 4) run.copyA run.copyB = some imageRecord ∧
      (((((specCardStage run).taken bundle0 cardState).cardFail run).2.irqAll 53).stageCheck (recData imageRecord) 0 false true).isSome = true := by
  refine ⟨by decide +kernel, rfl, ?_, ?_⟩
  · rw [show ((specCardStage (runOf .done imageRecord [] [])).held bundle0 cardState).u 0 4 = 3 by decide +kernel]
    have e : recValid 3 [] = false := by decide
    exact Laws.recPick_first imageRecord_good.1 e
  · rw [imageRecord_good.2.2]
    decide +kernel

/-- The image with a signature section of 100 bytes, under operator key 63 of an integrator. -/
def signedImage : List Byte :=
  ascii "PWCF" ++ toLe 2 1 ++ toLe 2 2 ++ toLe 4 196 ++ List.replicate 52 0 ++ [4, 0, 1, 0] ++ toLe 4 96 ++ toLe 4 0 ++ toLe 4 0
    ++ [12, 0, 1, 0] ++ toLe 4 96 ++ toLe 4 100 ++ toLe 4 1 ++ toLe 2 63 ++ [0, 0] ++ (toBe 48 1 ++ toBe 48 1)
def signedRecord : List Byte := recHeader 3 196 1 signedImage ++ signedImage
def signerState : State := { cardState with nv := { cardState.nv with opKeys := [(63, some ⟨4, g384⟩)] } }

/-- The signatures are opaque constants: the bundle is staged where its signature verifies. -/
theorem witness_CardRecords_stage (hv : ∀ a p m x, verifies a p m x = true) :
    let run := runOf .done signedRecord [] []
    let u := (((specCardStage run).taken bundle0 signerState).cardFail run).2.irqAll 53
    (specCardStage run).starts bundle0 signerState = true ∧ recPick (((specCardStage run).held bundle0 signerState).u 0 4) run.copyA run.copyB = some signedRecord ∧
      u.stageCheck (recData signedRecord) 0 false true = none ∧ u.pinnedAfter (setOfImage (recData signedRecord) (signerState.cfg.active.seq + 1)) ≤ 65536 ∧
      (u.dropShadow.placeShadow (setOfImage (recData signedRecord) (signerState.cfg.active.seq + 1)).statics).isSome = true := by
  have g : recValid 3 signedRecord = true ∧ recSeq signedRecord = 1 ∧ recData signedRecord = signedImage :=
    Laws.recValid_written 3 1 signedImage (by decide) (by decide) (by decide +kernel)
  have e : recValid 3 [] = false := by decide
  intro run u
  rw [g.2.2, show ((specCardStage run).held bundle0 signerState).u 0 4 = 3 by decide +kernel]
  refine ⟨by decide +kernel, Laws.recPick_first g.1 e, ?_, by decide +kernel, by decide +kernel⟩
  simp only [State.stageCheck, State.imgSigned, hv, u, run]
  decide +kernel

/-- A smart card that answers 3B 00 at class C. -/
def scd0 : ScdId := ⟨some [0x3B, 0x00], none, false, true⟩
def scdState (l : List (Fld × Nat) := []) : State := withF ((F.SCD_CTL_EN, 1) :: l) cmdState
def apdu0 : Slot := slotWith (toLe 4 0 ++ toLe 4 4 ++ toLe 4 512 ++ toLe 4 512) [[0, 0xA4, 0, 0], List.replicate 512 0]

theorem witness_SmartCard :
    ((cmdState.setDom dCard dsOff).domOn dCard = false)
    ∧ (scdState.domOn dCard = true ∧ scdState.fb F.SCD_CTL_EN = true ∧ scdState.fb F.SCD_STS_PRESENT = false ∧ scdAtr scd0 = some (2, [0x3B, 0x00]) ∧
        atrChoice (atrParse [0x3B, 0x00]) scd0.pps = some (0, 0x11) ∧ scd0.linkUp = true)
    ∧ (scdAtr ⟨none, none, false, true⟩ = none)
    ∧ ((scdState [(F.SCD_STS_PRESENT, 1)]).domOn dCard = true ∧ (scdState [(F.SCD_STS_PRESENT, 1)]).fb F.SCD_STS_PRESENT = true)
    ∧ (specScdStatus.starts (slotWith []) cmdState = true)
    ∧ (let s := scdState [(F.SCD_STS_PRESENT, 1), (F.SCD_STS_ACTIVE, 1)]
       (specScdApdu (.answer [0x90, 0])).starts apdu0 s = true ∧ 2 ≤ (((specScdApdu (.answer [0x90, 0])).held apdu0 s).buf 8).2 ∧
         (specScdApdu .failed).starts apdu0 s = true ∧ (specScdApdu .lost).starts apdu0 s = true) := by decide +kernel

/-- The twin link up, with a role, and the twin's own fields changed. -/
def twinned (st : Nat) (g : Twin → Twin := id) (l : List (Fld × Nat) := []) : State :=
  let s := withF ([(F.TWN_LINK_STS_TL0, 1), (F.TWN_LINK_STS_KEYED, 1), (F.TWN_CTL_EN, 1), (F.TWN_STATUS_AGREE_VER, 1), (F.TWN_STATUS_AGREE_CFG, 1),
    (F.TWN_STATUS_AGREE_TIME, 1), (F.TWN_STATUS_STATE, st)] ++ l) cmdState
  { s with twin := g s.twin }
def helloBody (role ver step : Nat) : List Byte := toBe 1 role ++ [0, 0, 0, 0] ++ toBe 4 ver ++ toBe 1 step ++ toBe 8 0 ++ List.replicate 144 0
def peer0 : Hello := ⟨1, 0, 0, 0, 0, [], [], []⟩

theorem witness_TwinMessages :
    (cmdState.twinUp = false ∧ (twinned twLead).twinUp = true)
    ∧ (beAt (twinPayload mHello 7 []) 4 4 ∈ (twinned twLead ({ · with rxSeen := [7] })).twin.rxSeen)
    ∧ (let s := twinned twLead
       (0 : Word).toNat ∉ s.twin.rxSeen ∧ (helloOf (helloBody 1 0xFFFFFFFF 0)).ver ≠ (s.rd R.DEV_AEDUF_VER).toNat)
    ∧ (let s := twinned twPairing
       let m := helloOf (helloBody 1 (s.rd R.DEV_AEDUF_VER).toNat (s.f F.DEV_VER_STEP))
       s.twinUp = true ∧ (0 : Word).toNat ∉ s.twin.rxSeen ∧ m.ver = (s.rd R.DEV_AEDUF_VER).toNat ∧ m.step = s.f F.DEV_VER_STEP ∧ s.twinSt = twPairing ∧
         m.role = 1 ∧ s.twin.claim ≠ 1)
    ∧ (let s := twinned twAlone ({ · with claim := 1 })
       s.twinSt = twAlone ∧ (helloOf (helloBody 1 0 0)).role = 1 ∧ s.twin.claim = 1 ∧ (helloOf (helloBody 2 0 0)).role = 2)
    ∧ (let s := twinned twFollow ({ · with sent := some (100, 5), peer := some peer0 })
       s.twinUp = true ∧ (0 : Word).toNat ∉ s.twin.rxSeen ∧ s.twinVer = true ∧ s.twin.sent = some (100, 5) ∧ (5 : BitVec 64) ≠ 0 ∧
         (diff64 5 100 - diff64 5 100) / 2 = 0 ∧ (0 : BitVec 40).toNat = s.nearCycle)
    ∧ (let s := twinned twFollow ({ · with sent := some (100, 5), peer := some peer0 })
       (1 : BitVec 40).toNat ≠ s.nearCycle ∧ s.follows = true)
    ∧ (let s := twinned twLead ({ · with sent := some (100, 5) })
       (1 : BitVec 40).toNat ≠ s.nearCycle ∧ s.follows = false)
    ∧ (let s := twinned twLead
       let w : CpsWay := { st := .pinned, ref := false, entry := { GrvEntry.empty with flags := 0x100, mtch := List.replicate 24 0 }, line := none, ttl := 0, hold := [], since := 0, upto := none }
       let s := s.setWay 0 (some w)
       Tbl.wf (fun _ => none) s.grv.copse = true ∧ s.way 0 = some w ∧ w.st = .pinned ∧ w.entry.replay = true ∧ s.twin.peer = none)
    ∧ (let s := twinned twLead ({ · with peer := some peer0 }) [(F.TWN_STATUS_AGREE_VER, 0)]
       s.twinUp = true ∧ (0 : Word).toNat ∉ s.twin.rxSeen ∧ s.twin.peer.isSome = true ∧ s.twinVer = false)
    ∧ (GrvEntry.empty.replayBase < 1 ∧ 1 - GrvEntry.empty.replayBase < 64)
    ∧ (64 ≤ 64 - GrvEntry.empty.replayBase)
    ∧ (0 ≤ GrvEntry.empty.replayBase ∧ GrvEntry.empty.replayBase - 0 < 64)
    ∧ (64 ≤ ({ GrvEntry.empty with replayBase := 64 } : GrvEntry).replayBase - 0) := by decide +kernel

/-- A command withheld for its peer until cycle 2. -/
def withheld0 (opc : Nat) : Held :=
  { ring := 0, idx := 0, opc := opc, flags := 0, tag := 7, handle := 2 ^ 22 + 0x767, cycle := 0, len := 0, params := List.replicate 104 0, bufs := [], poison := none, mute := false }
def waiting0 (opc : Nat) (s : State) : State := { s with cul := { s.cul with waits := [⟨withheld0 opc, .twin 2, []⟩] } }
def sched0 : PldSched := ⟨1, 2, 3, 4, 5, false⟩

theorem witness_TwinTakeover :
    (specTwnTakeover.starts (slotWith []) (twinned twFollow) = true)
    ∧ (specTwnStatus.starts (slotWith []) cmdState = true)
    ∧ (cmdState.cycle + 2 < (3 : BitVec 40).toNat)
    ∧ (let s := waiting0 0x0202 (twinned twFollow)
       (2 : BitVec 40).toNat ≤ s.cycle + 2 ∧ s.cul.waits = [⟨withheld0 0x0202, .twin (2 : BitVec 40).toNat, []⟩] ∧ s.twinMatched (s.readyOf (withheld0 0x0202) 2) = false ∧
         (withheld0 0x0202).async = false ∧ (withheld0 0x0202).mute = false ∧ s.cul.bme = true)
    ∧ (let s := waiting0 0x0D02 (twinned twLead ({ · with takeover := some (2, false), peerDigest := List.replicate 48 0 }))
       s.twinUp = true ∧ (0 : Word).toNat ∉ s.twin.rxSeen ∧ s.fb F.TWN_STATUS_AGREE_CFG = true ∧ s.twin.takeover = some ((2 : BitVec 64).toNat, false) ∧
         s.takeoverReady (2 : BitVec 64).toNat = ⟨0x0D02, (2 : BitVec 64).toNat, List.replicate 48 0⟩ ∧ s.twinInTime (2 : BitVec 64).toNat = true) := by decide +kernel

theorem witness_TwinTakeover_roles :
    ((twinned twFollow).twinUp = true ∧ (0 : Word).toNat ∉ (twinned twFollow).twin.rxSeen ∧ (twinned twFollow).twinSt = twFollow)
    ∧ (let s := twinned twFollow ({ · with takeover := some (0, true) })
       s.twin.takeover = some (0, true) ∧ 0 ≤ s.cycle ∧ s.twinSt = (if false then twLead else twFollow))
    ∧ (let s := twinned twLead ({ · with takeover := some (0, true) })
       s.twin.takeover = some (0, true) ∧ s.twinSt = (if true then twLead else twFollow))
    ∧ (cmdState.twin.takeover = none ∧ (twinned twLead ({ · with takeover := some (2, false) })).twin.takeover = some (2, false))
    ∧ ((twinned twFollow).twinSt = twFollow ∧ (twinned twFollow).twin.takeover = none ∧ (twinned twLead).twinSt = twLead ∧ (twinned twLead).twin.takeover = none)
    ∧ (let s := twinned twFollow ({ · with close := 16 }) [(F.TWN_STATUS_PEER_REF, 1)]
       s.fb F.TWN_STATUS_PEER_REF = true ∧ 16 ≤ s.twin.close)
    ∧ (let s := twinned twFollow id [(F.TWN_STATUS_PEER_REF, 1)]
       s.fb F.TWN_STATUS_PEER_REF = true ∧ s.twin.close < 16)
    ∧ (let s := twinned twAlone ({ · with peer := some peer0 }) [(F.TWN_STATUS_AGREE_VER, 0)]
       s.twinUp = true ∧ s.twinSt = twAlone ∧ s.twin.peer.isSome = true ∧ s.twinVer = false)
    ∧ ((twinned twLead ({ · with keyDiff := 2 })).twin.keyDiff = 2 ∧ (twinned twLead).twin.keyDiff ≠ 2)
    ∧ ((twinned twLead).twinSt ≠ twPairing)
    ∧ (let s := twinned twPairing id [(F.TWN_LINK_STS_KEYED, 0)]
       s.twinSt = twPairing ∧ s.twinLaneUp = true ∧ s.ths.phase = 0 ∧ s.twin.cak = [] ∧ s.fb F.TWN_CTL_EN = true ∧ s.fb F.TWN_LINK_STS_KEYED = false)
    ∧ (let s := twinned twLead ({ · with peerLeads := true, nextSeq := 5 })
       s.twinUp = true ∧ (0 : Word).toNat ∉ s.twin.rxSeen ∧ s.twinVer = true ∧ s.twin.peerLeads = true ∧ (4 : Word).toNat < s.twin.nextSeq)
    ∧ ((twinned twLead).twinVer = true ∧ (twinned twLead).twin.peerLeads = false ∧ sched0.group < 2 ^ 32 ∧ sched0.oldId < 2 ^ 32 ∧ sched0.newId < 2 ^ 32 ∧ sched0.cycle < 2 ^ 40 ∧ sched0.grace < 256) := by decide +kernel

/-- A credential of member 1 of Polder 5 that may lead, with a beacon in every tenth cycle, for the device of a digest. -/
def credFor (dig : List Byte) (lead : Nat) : List Byte :=
  ascii "PWPC" ++ toBe 4 5 ++ toBe 2 1 ++ toBe 2 lead ++ dig ++ List.replicate 6 1 ++ [10, 0] ++ g384 ++ (toBe 48 1 ++ toBe 48 1)
def cred0 : List Byte := credFor (List.replicate 48 0) 1
/-- A member of the Polder, and its leader at a cycle. -/
def member0 (g : Twin → Twin := id) : State :=
  let s := withF [(F.GAC_PTP_STATUS_LOCK, 1)] cmdState
  { s with twin := g { s.twin with cred := some cred0, authPub := some g384 } }
def leader0 (g : Twin → Twin := id) : State := (member0 g).setF F.TWN_PLD_STATUS_LEADER 1
/-- A beacon of leader 1, in its bytes and as it reads. -/
def beacon0 : List Byte := pldHead 1 5 ++ toBe 2 1 ++ [0, 0] ++ toBe 4 1 ++ toBe 8 9 ++ toBe 8 0 ++ toBe 4 0 ++ toBe 4 50000000 ++ (toBe 48 1 ++ toBe 48 1)
def listens : State := member0 ({ · with members := [(1, some ⟨cred0, g384, 0⟩)] })
def join0 : Slot := slotWith (toLe 4 5 ++ toLe 4 0 ++ toLe 4 261) [cred0]
def schedule0 : Slot := slotWith (toLe 2 6 ++ toLe 2 3 ++ [2, 2, 0, 0] ++ toLe 8 22 ++ toLe 4 9)

theorem witness_Polder :
    (leader0.pldMember = true ∧ leader0.pldLeads = true ∧ leader0.cycle % (max 1 leader0.pldInt) = 0 ∧ leader0.identity.isSome = true)
    ∧ (cmdState.pldMember = false)
    ∧ (member0.pldMember = true ∧ beaconOf [] = none ∧ (beaconOf beacon0).isSome = true)
    ∧ (let x : PldSched := ⟨1, 0, 0, 2, 2, false⟩
       x ∉ cmdState.twin.handled ∧ cmdState.cycle + 2 ≤ x.cycle ∧ 2 ≤ x.grace ∧ cmdState.slotWith Ks.active x.oldId = some 6 ∧
         (cmdState.setKs 1 KeySlot.empty |>.setKs 2 KeySlot.empty).slotWith Ks.loaded x.newId = some 3 ∧ cmdState.rollCheck 6 3 x.cycle = none)
    ∧ (sched0 ∉ cmdState.twin.handled ∧ cmdState.slotWith Ks.active sched0.oldId = none)
    ∧ (sched0 ∈ (member0 ({ · with handled := [sched0] })).twin.handled)
    ∧ (let s := { member0 with gac := { member0.gac with passed := 32 } }
       s.pldMember = true ∧ credLeader s.pldCred = true ∧ s.pldLeads = false ∧ s.numberedByPeer = false ∧
         s.twin.lastBeacon + 3 * credInt s.pldCred + 2 * credMember s.pldCred ≤ s.gac.passed)
    ∧ (member0.gac.passed < member0.twin.lastBeacon + 3 * credInt member0.pldCred + 2 * credMember member0.pldCred)
    ∧ (member0.cycle % (16 * max 1 member0.pldInt) = 0 ∧ member0.identity.isSome = true)
    ∧ (0 < member0.pldInt ∧ member0.reportOk [] = false)
    ∧ (specPldStatus.starts (slotWith []) cmdState = true)
    ∧ (specPldLeave.starts (slotWith []) member0 = true)
    ∧ (specPldKeySchedule.starts schedule0 leader0 = true ∧ (specPldKeySchedule.held schedule0 leader0).u 0 2 ≠ (specPldKeySchedule.held schedule0 leader0).u 2 2) := by decide +kernel

/-- The signatures are opaque constants: the beacon is accepted where they verify. -/
theorem witness_Polder_beacon (hv : ∀ a p m x, verifies a p m x = true) :
    listens.pldMember = true ∧ (beaconOf beacon0).any (fun b => listens.beaconOk beacon0 b) = true := by
  refine ⟨by decide +kernel, ?_⟩
  simp only [State.beaconOk, hv]
  decide +kernel

/-- The signatures and hashes are opaque constants: a credential is taken where they match. -/
theorem witness_Polder_join (hv : ∀ a p m x, verifies a p m x = true) (hs : ∀ m, sha384 m = List.replicate 48 0) :
    (specPldJoin none).starts join0 cmdState = true := by
  simp only [CmdSpec.starts, fullCheck, specPldJoin, State.credGood, credSigned, hv, hs]
  decide +kernel

def report0 : List Byte := pldHead 2 5 ++ toBe 2 1 ++ List.replicate 26 0 ++ cred0 ++ g384 ++ List.replicate 96 0

theorem witness_Polder_report (hv : ∀ a p m x, verifies a p m x = true) (hs : ∀ m, sha384 m = List.replicate 48 0) :
    member0.pldMember = true ∧ 0 < member0.pldInt ∧ member0.reportOk report0 = true := by
  refine ⟨by decide +kernel, by decide +kernel, ?_⟩
  simp only [State.reportOk, credSigned, hv, hs]
  decide +kernel

/-- A channel 0 of compartment 5 with a range of SRAM, in a state of its own. -/
def dmaState (st : Nat) (a : Option DmaDesc := none) (b : Option DmaDesc := none) : State :=
  let s := withF [(F.DMA_GRANT_OWNER 0, 5), (F.DMA_GRANT_ASSIGNED 0, 1), (F.DMA_GRANT_EP 0, 0xF), (F.DMA_SRAM_LO_LO 0, 0), (F.DMA_SRAM_HI_HI 0, 0x10000), (F.DMA_STS_STATE 0, st)] ringState
  s.setCh 0 ⟨a, b⟩
/-- The endpoints 1 (Culvert) and 2 (SRAM) at an offset. -/
def host_ (o : Nat) : BitVec 64 := BitVec.ofNat 64 (2 ^ 60 + o)
def sram_ (o : Nat) : BitVec 64 := BitVec.ofNat 64 (2 * 2 ^ 60 + o)
def desc0 (op : Nat) (src dst : BitVec 64) (flags : Nat := 4) : DmaDesc := ⟨0, op, flags, 32, src, dst, 0x11223344, 0⟩
def feed0 (bad : Option Nat := none) : DmaFeed := ⟨List.replicate 32 1, List.replicate 32 1, bad, none, []⟩

theorem witness_DmaChannels :
    (ringState.f (F.DMA_GRANT_OWNER 0) ≠ (5 : BitVec 16).toNat)
    ∧ (let s := dmaState 0
       s.f (F.DMA_GRANT_OWNER 0) = (5 : BitVec 16).toNat ∧ bitAt (0x80000000 : Word).toNat 31 = true ∧ s.fb (F.DMA_CTL_EN 0) = false ∧ s.fb F.CUL_WIN_CTL_EN = true ∧
         s.fb (F.DMA_GRANT_ASSIGNED 0) = true ∧ s.f (F.DMA_RING_BASE_BASE 0) * 32 + 32 * 2 ^ (min ((0x80000000 : Word).toNat % 16) 8 + 4) ≤ s.winBytes)
    ∧ ((withF [(F.CUL_WIN_CTL_EN, 0)] (dmaState 0)).fb F.CUL_WIN_CTL_EN = false)
    ∧ (bitAt (0 : Word).toNat 31 = false)
    ∧ (let s := dmaState dmaWaiting
       s.dmaSt 0 = dmaWaiting ∧ s.ch 0 = DmaCh.idle ∧ s.cul.bme = true ∧ s.f (F.DMA_RING_IDX_HEAD 0) ≠ (1 : BitVec 16).toNat ∧
         ((⟨1, 0, 32, 0, 0, 0, 0⟩ : DmaRaw).op = 1))
    ∧ ((dmaState dmaHalted).dmaSt 0 = dmaHalted)
    ∧ (((dmaState dmaWaiting).ch 0).active = none)
    ∧ (let d := desc0 1 (host_ 0) (sram_ 0)
       let s := dmaState dmaRunning (some d)
       s.dmaSt 0 = dmaRunning ∧ (s.ch 0).active = some d ∧ d.bad = false ∧ s.dmaAddrOk 0 d.dst d.len = true ∧ s.dmaAddrOk 0 d.src d.len = true ∧ d.op = 1) := by decide +kernel

/-- What every clause of the transfers asks for. -/
def running (d : DmaDesc) (b : Option DmaDesc := none) : State := dmaState dmaRunning (some d) b
def runs (d : DmaDesc) : Bool :=
  ((running d).ch 0).active = some d && !(running d).dmaStalls d && ((running d).dmaAsleep d).isEmpty && !d.bad && (running d).dmaAddrOk 0 d.dst d.len

theorem witness_DmaTransfers :
    (let d := desc0 1 (sram_ 0) (sram_ 64)
     runs d = true ∧ d.op = 1 ∧ epOf d.src = 2 ∧ epOf d.dst = 2 ∧ (running d).dmaAddrOk 0 d.src d.len = true ∧ (running d).firstPoison (sramBase + offOf d.src) d.len = none ∧
       bitAt d.flags 2 = true)
    ∧ (let d := desc0 1 (host_ 0) (sram_ 64)
       runs d = true ∧ epOf d.src = 1 ∧ epOf d.dst = 2 ∧ (running d).dmaAddrOk 0 d.src d.len = true ∧ (feed0 (some 31)).badSrc = some 31 ∧ 31 < d.len)
    ∧ (let d := desc0 1 (sram_ 16) (host_ 0)
       let s := { running d with ecc := { (running d).ecc with poison := [(poisonKey 2 1, 7)] } }
       (s.ch 0).active = some d ∧ s.dmaStalls d = false ∧ s.dmaAsleep d = [] ∧ epOf d.src = 2 ∧ epOf d.dst = 1 ∧ s.dmaAddrOk 0 d.dst d.len = true ∧ s.dmaAddrOk 0 d.src d.len = true ∧
         s.firstPoison (sramBase + offOf d.src) d.len = some 16)
    ∧ (let d := desc0 2 0 (sram_ 64)
       runs d = true ∧ d.op = 2 ∧ epOf d.dst = 2 ∧ bitAt d.flags 2 = true)
    ∧ (let d := desc0 3 (host_ 0) (host_ 64)
       runs d = true ∧ d.op = 3 ∧ epOf d.src = 1 ∧ epOf d.dst = 1 ∧ (running d).dmaAddrOk 0 d.src d.len = true ∧ feed0.badSrc = none ∧ feed0.badDst = none ∧ bitAt d.flags 2 = true)
    ∧ (let d := desc0 1 (sram_ 0) (sram_ 0) 8
       ((running d).ch 0).active = some d ∧ (running d).dmaStalls d = false ∧ (running d).dmaAsleep d = [] ∧ d.op = 1 ∧ d.bad = true)
    ∧ (let d := desc0 1 (sram_ 0) (sram_ 0xFFFFFF0)
       ((running d).ch 0).active = some d ∧ (running d).dmaStalls d = false ∧ (running d).dmaAsleep d = [] ∧ d.bad = false ∧ (running d).dmaAddrOk 0 d.dst d.len = false)
    ∧ (let d := desc0 2 0 (sram_ 64) 0
       let e := desc0 2 0 (sram_ 0)
       let s := running d (some e)
       (s.ch 0).shadow = some e ∧ e.op = 2 ∧ s.dmaStalls d = false ∧ s.dmaAsleep d = [] ∧ d.bad = false ∧ s.dmaAddrOk 0 d.dst d.len = true ∧ bitAt d.flags 2 = false)
    ∧ ((desc0 1 0 0).op ≠ 2) := by decide +kernel

/-- Grove in a state, with some of its own fields changed. -/
def grove (st : Nat) (g : Grove → Grove := id) (l : List (Fld × Nat) := []) : State :=
  let s := withF ([(F.GRV_STATUS_STATE, st), (F.GRV_CTL_EN, 1), (F.GRV_STATUS_BKT_LOG2, 16)] ++ l) cmdState
  { s with grv := g s.grv }
def entry0 (flags : Nat) : GrvEntry := { GrvEntry.empty with mtch := List.replicate 24 0, flags := flags }
def line0 (e : GrvEntry) : GrvLine := { GrvLine.empty with entry := e }
def mig0 (walked due : Bool) : Migration := ⟨0, 16, walked, due⟩
def linkOf (trained mapped awaiting holds : Bool) (cap : Nat) : CxlLink := ⟨true, trained, false, mapped, awaiting, cap, holds⟩
def twoLinks (a b : CxlLink) : Grove → Grove := ({ · with links := [a, b] })

theorem witness_GroveService :
    ((grove grvBuilding).grvSt = grvBuilding ∧ (grove grvServing).grvSt ≠ grvBuilding)
    ∧ ((grove grvServing).grv.mig = none)
    ∧ (let s := grove grvMigrating ({ · with mig := some (mig0 true false) })
       s.grv.mig = some (mig0 true false) ∧ s.grvSt = grvMigrating ∧ (mig0 true false).walked = true ∧ (mig0 true false).due = false)
    ∧ (let s := grove grvMigrating ({ · with mig := some (mig0 false false) })
       s.grv.mig = some (mig0 false false) ∧ s.grvSt = grvMigrating ∧
         ∀ w, w < 4 → (s.line s.region (4 * (mig0 false false).bucket + w)).flips = [] ∧ (s.line s.region (4 * (mig0 false false).bucket + w)).entry.valid = false)
    ∧ (let s := grove grvMigrating ({ · with mig := some (mig0 true true) })
       s.grv.mig = some (mig0 true true) ∧ s.grvSt = grvMigrating ∧ (mig0 true true).due = true)
    ∧ ((cmdState.link 0).trained = false)
    ∧ (let s := grove grvServing (twoLinks (linkOf true true false true 4096) (linkOf false false false false 0))
       (s.link 0).trained = true ∧ (s.link 0).holds = true ∧ s.grvSt = grvServing ∧ Tbl.wf (fun _ => none) s.grv.copse = true)
    ∧ (let s := grove grvServing (twoLinks (linkOf true true false false 4096) (linkOf false false false false 0))
       (s.link 0).trained = true ∧ (s.link 0).holds = false)
    ∧ ((cmdState.setDom dCxl dsOff).domOn dCxl = false)
    ∧ (let s := grove grvServing (twoLinks (linkOf false true false false 4096) (linkOf false false false false 0))
       let cap : Fin 65537 := 4096
       s.domOn dCxl = true ∧ (s.link 0).trained = false ∧ cap.val ≠ 0 ∧ (s.link 1).cap + cap.val ≤ 65536 ∧ (s.link 0).mapped = true)
    ∧ (let s := grove grvServing (twoLinks (linkOf false false false false 0) (linkOf false false false false 0))
       let cap : Fin 65537 := 65536
       s.grv.links.length = 2 ∧ (s.link 0).trained = false ∧ cap.val ≠ 0 ∧ (s.link 1).cap + cap.val ≤ 65536 ∧ (s.link 0).mapped = false ∧ s.grv.atB5 = false)
    ∧ (let s := grove grvAbsent (fun g => { twoLinks (linkOf false false false false 0) (linkOf false false false false 0) g with atB5 := true }) [(F.GRV_CTL_IL2, 0)]
       let cap : Fin 65537 := 4096
       s.grv.atB5 = true ∧ (s.link 0).present = true ∧ s.fb F.GRV_CTL_EN = true ∧ (∀ j ∈ s.configured, j = 0 ∨ (s.link j).trained = true) ∧
         4096 ≤ (s.configured.map (fun j => if j = 0 then cap.val else (s.link j).cap)).foldl (· + ·) 0) := by decide +kernel

/-- The migration's one valid entry goes to the first way of its new bucket, whichever that is. -/
theorem witness_GroveService_move :
    let s := grove grvMigrating ({ · with mig := some (mig0 false false), lines := [(lineKey 0 2, line0 (entry0 1))] })
    let m := mig0 false false
    s.grv.mig = some m ∧ m.toK ≤ 22 ∧ (s.line s.region (4 * m.bucket + 2)).entry.valid = true ∧ (s.line s.region (4 * m.bucket + 2)).poison = false ∧
      (∀ j, j < 4 → (s.line s.region (4 * m.bucket + j)).flips = []) ∧ (∀ j, j < 4 → j ≠ 2 → (s.line s.region (4 * m.bucket + j)).entry.valid = false) := by decide +kernel
theorem witness_GroveService_ways :
    let s := grove grvMigrating ({ · with mig := some (mig0 false false), lines := [] })
    (s.freeWays (1 - s.region) (bucketsOf s.grv.newKey 16 []).1).head? = some 0 ∧
      (s.freeWays (1 - s.region) (bucketsOf s.grv.newKey 16 []).2).length ≤ (s.freeWays (1 - s.region) (bucketsOf s.grv.newKey 16 []).1).length := by decide +kernel

/-- Sweep at a place, with lines left. -/
def sweeping (region line : Nat) (l : List (Fld × Nat) := []) : State :=
  let s := withF ([(F.SWP_CTL_SRAM_EN, 1), (F.SWP_SRAM_POS_REGION, region), (F.SWP_SRAM_POS_LINE, line)] ++ l) cmdState
  { s with ecc := { s.ecc with sramLeft := 5 } }
def sweepingGrove (line : Nat) (g : Grove → Grove := id) : State :=
  let s := grove grvServing g [(F.SWP_CTL_CXL_EN, 1), (F.SWP_CXL_POS_LINE, line)]
  { s with ecc := { s.ecc with cxlLeft := 5 } }
def hitOf (syms : List (Fin 38 × Byte)) : EccHit := ⟨0, syms, none, 0⟩
/-- A line of zeros with a good CHECK. -/
def zeroLine : GrvLine := { GrvLine.empty with stored := List.replicate 64 0, check := List.replicate 6 0, mac := List.replicate 8 0 }

theorem witness_SweepWalks :
    ((withF [(F.SWP_CTL_SRAM_EN, 0)] cmdState).fb F.SWP_CTL_SRAM_EN = false ∧ (withF [(F.SWP_CTL_CXL_EN, 0)] cmdState).fb F.SWP_CTL_CXL_EN = false)
    ∧ (let s := sweeping 0 262142
       s.fb F.SWP_CTL_SRAM_EN = true ∧ 0 < s.ecc.sramLeft ∧ s.f F.SWP_SRAM_POS_LINE + 1 < sweepLines (s.f F.SWP_SRAM_POS_REGION))
    ∧ (let s := sweeping 1 131327
       s.f F.SWP_SRAM_POS_REGION < 8 ∧ s.f F.SWP_SRAM_POS_LINE + 1 = sweepLines (s.f F.SWP_SRAM_POS_REGION))
    ∧ (let s := sweeping 8 8191
       s.f F.SWP_SRAM_POS_REGION = 8 ∧ s.f F.SWP_SRAM_POS_LINE + 1 = sweepLines 8)
    ∧ (let s := sweeping 2 3
       s.f F.SWP_SRAM_POS_REGION = 2 ∧ 2 * s.f F.SWP_SRAM_POS_LINE = 6 ∧ s.poisoned 2 6 = false ∧
         (match eccOf 2 6 (s.cwData 2 6) { hitOf [(0, 1)] with cw := BitVec.ofNat 24 6 } with | .corr n left => decide (n = 1) && left.all (· = 0) | _ => false) = true)
    ∧ (let s := sweeping 2 3
       eccOf 2 6 (s.cwData 2 6) { hitOf [(0, 1), (1, 2), (2, 3)] with cw := BitVec.ofNat 24 6 } = .uncorr)
    ∧ (let s := sweepingGrove 262142
       s.fb F.SWP_CTL_CXL_EN = true ∧ s.grvSt = grvServing ∧ 0 < s.ecc.cxlLeft ∧ s.f F.SWP_CXL_POS_LINE + 1 < 4 * 2 ^ s.kInForce ∧ s.kInForce ≤ 22 ∧
         (s.line s.region (s.f F.SWP_CXL_POS_LINE)).flips = [])
    ∧ (let s := sweepingGrove 262143
       s.f F.SWP_CXL_POS_LINE + 1 = 4 * 2 ^ s.kInForce ∧ (s.line s.region (s.f F.SWP_CXL_POS_LINE)).flips = [])
    ∧ ((sweepingGrove 7).line 0 7).poison = false
    ∧ (let s := sweepingGrove 7 ({ · with lines := [(lineKey 0 7, zeroLine)] })
       s.line s.region 7 = zeroLine ∧ zeroLine.poison = false ∧ zeroLine.flips = [] ∧
         lineDecode (s.lineBytes s.region 7 { zeroLine with flips := [((5 : Fin 80), (1 : Byte))].map (fun (x : Fin 80 × Byte) => (x.1.val, x.2)) }) =
           some (s.lineBytes s.region 7 zeroLine, 1)) := by decide +kernel

/-- A way that holds a pinned entry, and the entry's 64 bytes in a command. -/
def pinnedWay0 (e : GrvEntry) : CpsWay := { st := .pinned, ref := false, entry := e, line := none, ttl := 0, hold := [], since := 0, upto := none }
def pinnedGrove (e : GrvEntry) : State := grove grvServing ({ · with copse := [(0, some (pinnedWay0 e))] }) [(F.CPS_CTL_NEG_TTL, 3)]
def insert0 (flags : Nat) : Slot := slotWith (entry0 flags).toBytes
def key0 : Slot := slotWith (List.replicate 24 0)

theorem witness_GroveCommands :
    (let s := grove grvServing
       let x := { GrvEntry.ofBytes (specGroveInsert.held (insert0 1) s).entry with version := 0 }
       specGroveInsert.starts (insert0 1) s = true ∧ x.pinnedFlag = false ∧ (∀ e ∈ (specGroveInsert.taken (insert0 1) s).keyLines x.mkey, ((specGroveInsert.taken (insert0 1) s).line 0 e).flips = []) ∧
         (specGroveInsert.taken (insert0 1) s).ways = [])
    ∧ (let s := grove grvServing
       let x := { GrvEntry.ofBytes (specGroveInsert.held (insert0 3) s).entry with version := 0 }
       specGroveInsert.starts (insert0 3) s = true ∧ x.pinnedFlag = true ∧ (specGroveInsert.taken (insert0 3) s).copseNow x.mkey = none ∧
         ((specGroveInsert.taken (insert0 3) s).fillPlace x.mkey).2.isSome = true)
    ∧ (let s := pinnedGrove (entry0 3)
       let sl := slotWith ((entry0 3).toBytes ++ [0, 0] ++ [1, 0])
       specGroveUpdate.starts sl s = true ∧ (specGroveUpdate.taken sl s).entryOf (specGroveUpdate.held sl s).mkey = some (entry0 3) ∧
         (specGroveUpdate.taken sl s).pinnedWay (specGroveUpdate.held sl s).mkey = some (0, pinnedWay0 (entry0 3)))
    ∧ (let s := pinnedGrove (entry0 3)
       specGroveDelete.starts key0 s = true ∧ (specGroveDelete.taken key0 s).copseNow (specGroveDelete.held key0 s).mkey = some (0, pinnedWay0 (entry0 3)) ∧
         Tbl.wf (fun _ => none) s.grv.copse = true ∧ 0 < s.f F.CPS_CTL_NEG_TTL)
    ∧ (specGroveUnpin.starts key0 (pinnedGrove (entry0 3)) = true)
    ∧ (specGroveLookup.starts key0 (grove grvServing) = true)
    ∧ (specGroveCounterRead.starts (slotWith ([0, 0] ++ [1, 0] ++ toLe 4 0 ++ toLe 4 32)) (grove grvServing) = true)
    ∧ (specGroveLineClear.starts (slotWith (toLe 4 262143)) (grove grvServing) = true)
    ∧ (specGroveMemAdd.starts (slotWith [1]) (grove grvServing (twoLinks (linkOf true true false true 4096) (linkOf true false true false 4096))) = true)
    ∧ (specGroveRebuild.starts (slotWith []) (grove grvLost (twoLinks (linkOf true true false true 4096) (linkOf true true false true 4096))) = true) := by decide +kernel

theorem witness_GroveCommands_pin :
    let s := grove grvServing ({ · with lines := [(lineKey 0 2, line0 (entry0 1))] })
    specGrovePin.starts key0 s = true ∧ (specGrovePin.taken key0 s).entryOf (specGrovePin.held key0 s).mkey = some (entry0 1) ∧
      (specGrovePin.taken key0 s).copseNow (specGrovePin.held key0 s).mkey = none ∧ ((specGrovePin.taken key0 s).fillPlace (entry0 1).mkey).2.isSome = true := by decide +kernel

/-- An applet in the store, and one that runs. -/
def app0 (st : Nat) : App :=
  { st := st, sector := 2080, sectors := 1, len := 1192, digest := [], codeLen := 8, dataLen := 0, bssLen := 0, stackLen := 1024, entry := 0, dmaCh := 2, dmaEp := 3, irqMask := 1,
    sramLen := 0, core := 0, chans := [16], sram := 0, mem := 0x10110000, dmem := 0x10111000, ecause := 0, eval := 0 }
def hosting (st : Nat) : State := (withF [(F.DEV_PAIR_STS_STATE 1, pRunning)] signerState).setApp 1 (some (app0 st))
def app1 : Slot := slotWith (toLe 2 1 ++ [0])
def msg0 : Slot := slotWith (toLe 2 1 ++ [0, 0] ++ toLe 4 0 ++ toLe 4 0 ++ toLe 4 512 ++ toLe 4 512) [[], List.replicate 512 0]
/-- The image of an applet of 8 bytes of code under operator key 63. -/
def appImage : List Byte :=
  ascii "PWAP" ++ toBe 2 1 ++ toBe 2 63 ++ toBe 4 8 ++ toBe 4 0 ++ toBe 4 0 ++ toBe 4 1024 ++ toBe 4 0 ++ List.replicate 36 0 ++ List.replicate 8 0 ++ (toBe 48 1 ++ toBe 48 1)
def load0 : Slot := slotWith (toLe 4 0 ++ toLe 4 168) [appImage]

theorem witness_Applets :
    (specAppStart.starts app1 (hosting apLoaded) = true ∧ (hosting apLoaded).app (1 : BitVec 16).toNat = some (app0 apLoaded) ∧
        ((specAppStart.taken app1 (hosting apLoaded)).appStart ((specAppStart.held app1 (hosting apLoaded)).u 0 2) ((specAppStart.held app1 (hosting apLoaded)).u 2 1)).isSome = true)
    ∧ (let sl := slotWith (toLe 2 1)
       specAppStop.starts sl (hosting apRunning) = true ∧ (specAppStop.taken sl (hosting apRunning)).app ((specAppStop.held sl (hosting apRunning)).u 0 2) = some (app0 apRunning) ∧
         (app0 apRunning).core < 4 ∧ ∀ n ∈ (app0 apRunning).chans, n < 64)
    ∧ (specAppDelete.starts (slotWith (toLe 2 1)) (hosting apStopped) = true)
    ∧ (specAppList.starts (slotWith (toLe 4 0 ++ toLe 4 512)) (hosting apStopped) = true)
    ∧ ((specAppMsg [1, 2] none).starts msg0 (hosting apRunning) = true ∧ ((specAppMsg [1, 2] none).taken msg0 (hosting apRunning)).app (((specAppMsg [1, 2] none).held msg0 (hosting apRunning)).u 0 2) = some (app0 apRunning) ∧
        2 ≤ (((specAppMsg [1, 2] none).held msg0 (hosting apRunning)).buf 12).2)
    ∧ ((specAppMsg (List.replicate 513 0) none).starts msg0 (hosting apRunning) = true ∧ (((specAppMsg [] none).held msg0 (hosting apRunning)).buf 12).2 < 513)
    ∧ (let b : BadgeRun := ⟨List.replicate 7 0, [], true, [], [], none⟩
       let a := { app0 apRunning with irqMask := 2 ^ 20 }
       let s := (hosting apRunning).setApp 1 (some a)
       (specAppMsg [] (some b)).starts msg0 s = true ∧ ((specAppMsg [] (some b)).taken msg0 s).app (((specAppMsg [] (some b)).held msg0 s).u 0 2) = some a ∧ a.mayField = true)
    ∧ (cmdState.f F.FLD_CTL_MODE ≠ 2) := by decide +kernel

theorem load0_signed (hv : ∀ a p m x, verifies a p m x = true) :
    (specAppLoad.taken load0 signerState).appSigned ((specAppLoad.held load0 signerState).inp 0 0) = true := by
  unfold State.appSigned
  rw [show (specAppLoad.taken load0 signerState).opKey (beAt ((specAppLoad.held load0 signerState).inp 0 0) 6 2) = some ⟨4, g384⟩ by decide +kernel]
  simp [hv]

theorem load0_checked (h : (specAppLoad.taken load0 signerState).appSigned ((specAppLoad.held load0 signerState).inp 0 0) = true) :
    specAppLoad.check (specAppLoad.held load0 signerState) (specAppLoad.taken load0 signerState) = none := by
  show (refuse (!appForm ((specAppLoad.held load0 signerState).inp 0 0)) (badField 0)
    <|> refuse (!(specAppLoad.taken load0 signerState).appSigned ((specAppLoad.held load0 signerState).inp 0 0)) (coded St.badParam Dt.signature 0)
    <|> _) = none
  rw [h]
  decide +kernel

/-- The signatures are opaque constants: the applet is loaded where its signature verifies. -/
theorem witness_Applets_load (hv : ∀ a p m x, verifies a p m x = true) :
    specAppLoad.starts load0 signerState = true ∧ ((specAppLoad.taken load0 signerState).storeRun (appOf ((specAppLoad.held load0 signerState).inp 0 0)).sectors).isSome = true := by
  refine ⟨?_, by decide +kernel⟩
  unfold CmdSpec.starts fullCheck
  rw [load0_checked (load0_signed hv)]
  decide +kernel

def Ex.isOk {α : Type} (e : Ex α) : Bool := match e with | .ok _ => true | _ => false
def Ex.faultsWith {α : Type} (e : Ex α) (c : Nat) : Bool := match e with | .fault d _ _ => decide (d = c) | _ => false
def Ex.stalls {α : Type} (e : Ex α) : Bool := match e with | .stall _ _ _ => true | _ => false

/-- Application pair 1 at the start of its TCM under the root capability, with a stack, a handler and registers of its own. -/
def cpu (g : Pair → Pair := id) (l : List (Fld × Nat) := []) : State :=
  let s := withF ((F.DEV_PAIR_STS_STATE 1, pRunning) :: l) cmdState
  let p := { Pair.reset with pcc := CReg.root.setAddr 0x10110000, ecp := CReg.root.setAddr 0x10112000, c := [(15, CReg.root.setAddr 0x10118000)] }
  s.setPr 1 (g p)
def k1 : Issue := ⟨1, []⟩
def withReg (i : Nat) (v : CReg) (p : Pair) : Pair := p.setReg i v
/-- The pair issues: what `State.issues` asks, as a check. -/
def issues1 (s : State) : Bool := s.canIssue 1 && Ex.isOk (s.fetch 1 (s.pr 1).pcc.addr)

theorem issues_of_check (s : State) (h : issues1 s = true) : s.issues k1 := by
  simp only [issues1, Bool.and_eq_true] at h
  refine ⟨h.1, ?_, ?_⟩
  · show State.fetched s 1 (s.pr 1).pcc.addr [] = s
    unfold State.fetched
    split
    · exact State.eccSpan_nil _ _ _
    · rfl
  · have h2 : Ex.isOk (s.fetch k1.val (s.pr k1.val).pcc.addr) = true := h.2
    revert h2
    cases s.fetch k1.val (s.pr k1.val).pcc.addr <;> simp [Ex.isOk]

/-- The one premise of the statements about integer, capability, and control-flow instructions, and the operands of their corners. -/
theorem witness_IntegerResults : cpu.issues k1 ∧ (5 : BitVec 64) ≠ 0 := ⟨issues_of_check _ (by decide +kernel), by decide⟩
theorem witness_DivisionCorners :
    cpu.issues k1 ∧ ((cpu.pr 1).reg 0).lo = 0 ∧ (((cpu (withReg 1 (CReg.int (BitVec.ofInt 64 (-2 ^ 63)) false ))).pr 1).reg 1).lo.toInt = -2 ^ 63 ∧
      (((cpu (withReg 1 (CReg.int (BitVec.ofInt 64 (-1)) false))).pr 1).reg 1).lo.toInt = -1 ∧ isInteger (.add k1 1 2 3) k1 = true :=
  ⟨issues_of_check _ (by decide +kernel), by decide +kernel⟩
theorem witness_AddressChange :
    (∃ s : State, s.issues k1) ∧ CReg.root.tag = true ∧ CReg.root.otype = 0 ∧ CReg.root.Legal ∧ CReg.root.base ≤ (0 : Int) ∧ ((0 : Nat) : Int) ≤ CReg.root.top ∧
      (let c := (CReg.root.setAddr 4096).clip 64; ((0 : Nat) : Int) < c.spanStart ∨ c.spanStart ≤ ((0 : Nat) : Int)) :=
  ⟨⟨cpu, issues_of_check _ (by decide +kernel)⟩, by decide, by decide, ⟨by decide, by decide, by decide, by decide, by decide, by decide, by decide⟩, by decide, by decide, by decide⟩
theorem witness_CapabilityResults :
    (∃ s : State, s.issues k1) ∧ (7 : BitVec 12).toNat ≤ 7 ∧ 7 < (8 : BitVec 12).toNat ∧ ((CReg.root.setAddr 4096).clip 8192).tag = true ∧
      ((CReg.root.setAddr 4096).bind (CReg.root.setAddr 16)).tag = true :=
  ⟨⟨cpu, issues_of_check _ (by decide +kernel)⟩, by decide⟩

def accIn0 : AccIn := ⟨none, false, [], [], 0, ⟨[], [], none, none, []⟩, [], false⟩
/-- The effective address of a mode through a register is formed. -/
def formsAt (s : State) (rb mode size low : Nat) (p : EffAddr → Bool) : Bool := match (s.pr 1).effAddr rb mode size low with | .ok e => p e | _ => false
/-- A pair whose register 1 points to an address, and whose register 2 holds the root. -/
def pointing (a : Nat) : State := cpu (fun p => withReg 2 CReg.root (withReg 1 (CReg.root.setAddr a) p))

theorem witness_LoadsAndStores :
    (issues1 (pointing 0x10118000) = true)
    ∧ (memFormOk true 5 0 0 = false ∧ memFormOk false 0 5 0 = false)
    ∧ (let s := cpu (withReg 1 { CReg.root with poison := true })
       issues1 s = true ∧ memFormOk true 0 0 0 = true ∧ ((s.pr 1).reg 1).poison = true)
    ∧ (let s := cpu (withReg 1 CReg.null)
       issues1 s = true ∧ memFormOk false 0 0 0 = true ∧ formsAt s 1 0 0 0 (fun e => ((s.pr 1).check e.auth e.x (sizeBytes 0) 1).isSome && ((s.pr 1).check e.auth e.x (sizeBytes 0) 2).isSome) = true)
    ∧ (let s := pointing 0x10210000
       let s := s.setDom 5 dsOff
       issues1 s = true ∧ formsAt s 1 0 0 0 (fun e => ((s.pr 1).check e.auth e.x (sizeBytes 0) 1).isNone && Ex.stalls (s.busCheck e.x (sizeBytes 0) 1)) = true)
    ∧ (let s := pointing 0x10118000
       formsAt s 1 1 4 0 (fun e => ((s.pr 1).check e.auth e.x (sizeBytes 4) 1).isNone && Ex.isOk (s.busCheck e.x (sizeBytes 4) 1) && Ex.isOk (s.coreRead 1 e.x (sizeBytes 4) accIn0)) = true)
    ∧ (let s := cpu (fun p => withReg 3 { CReg.null with poison := true } (withReg 1 (CReg.root.setAddr 0x8000000000) p))
       issues1 s = true ∧ formsAt s 1 0 2 0 (fun e => ((s.pr 1).check e.auth e.x (sizeBytes 2) 2).isNone && Ex.isOk (s.busCheck e.x (sizeBytes 2) 2) && !onChip e.x) = true ∧ ((s.pr 1).reg 3).poison = true)
    ∧ (let s := cpu (fun p => withReg 2 CReg.root (withReg 1 ((CReg.root.drop 0x10).setAddr 0x10118000) p))
       issues1 s = true ∧ formsAt s 1 0 4 0 (fun e => ((s.pr 1).check e.auth e.x (sizeBytes 4) 2).isNone && !e.auth.has 16) = true ∧ ((s.pr 1).reg 2).tag = true)
    ∧ (let s := pointing 0x10118000
       formsAt s 1 2 3 0 (fun e => ((s.pr 1).check e.auth e.x (sizeBytes 3) 2).isNone && Ex.isOk (s.busCheck e.x (sizeBytes 3) 2) && onChip e.x && e.back.isSome) = true)
    ∧ (memFormOk false 3 0 64 = true ∧ formsAt (pointing 0x10118000) 1 3 0 0 (fun _ => true) = true) := by decide +kernel

/-- A pair whose registers 1 and 2 point to addresses. -/
def pointing2 (a b : Nat) : State := cpu (fun p => withReg 2 (CReg.root.setAddr b) (withReg 1 (CReg.root.setAddr a) p))

theorem witness_AtomicsAndCopy :
    (let s := pointing 0x10118000
     issues1 s = true ∧ ((s.pr 1).reg 1).poison = false ∧ ((s.pr 1).check ((s.pr 1).reg 1) ((s.pr 1).reg 1).addr 8 3).isNone = true ∧ onChip ((s.pr 1).reg 1).addr = true ∧
       Ex.isOk (s.busCheck ((s.pr 1).reg 1).addr 8 2) = true ∧ accIn0.ecc = [])
    ∧ (let s := cpu (withReg 1 { CReg.root with poison := true })
       ((s.pr 1).reg 1).poison = true)
    ∧ (let s := pointing 0x10118004
       ((s.pr 1).check ((s.pr 1).reg 1) ((s.pr 1).reg 1).addr 8 3).isSome = true)
    ∧ (let s := pointing 0x8000000000
       ((s.pr 1).check ((s.pr 1).reg 1) ((s.pr 1).reg 1).addr 8 3).isNone = true ∧ onChip ((s.pr 1).reg 1).addr = false)
    ∧ (let s := cpu (fun p => withReg 1 (CReg.root.setAddr 0x10118000) p)
       ((s.pr 1).check ((s.pr 1).reg 1) ((s.pr 1).reg 1).addr (sizeBytes 3) 1).isNone = true ∧ ((s.pr 1).check ((s.pr 1).reg 2) ((s.pr 1).reg 2).addr (sizeBytes 3) 2).isSome = true)
    ∧ (let s := pointing2 0x10118000 0x10119000
       issues1 s = true ∧ ((s.pr 1).check ((s.pr 1).reg 1) ((s.pr 1).reg 1).addr (sizeBytes 3) 1).isNone = true ∧
         ((s.pr 1).check ((s.pr 1).reg 2) ((s.pr 1).reg 2).addr (sizeBytes 3) 2).isNone = true ∧ onChip ((s.pr 1).reg 2).addr = true ∧
         Ex.isOk (s.busCheck ((s.pr 1).reg 1).addr (sizeBytes 3) 1) = true ∧ Ex.isOk (s.busCheck ((s.pr 1).reg 2).addr (sizeBytes 3) 2) = true) := by decide +kernel

/-- A RET capability under csp. -/
def returning : State :=
  let s := cpu
  let v := (CReg.root.setAddr 0x10110040).withType 1
  (s.memWrite 0x10118000 (toLe 16 v.v.toNat)).setTag16 0x10118000 true

theorem witness_ControlFlow :
    (issues1 cpu = true ∧ ((cpu.pr 1).reg 0).poison = false)
    ∧ (let s := cpu (fun p => withReg 2 { CReg.null with poison := true } p)
       ((s.pr 1).reg 2).poison = true ∧ ((s.pr 1).reg 1).poison = false)
    ∧ (((cpu.pr 1).reg 1).poison = false ∧ ((cpu.pr 1).reg 1).tag = false)
    ∧ (let s := cpu (withReg 1 (CReg.root.withType 16))
       ((s.pr 1).reg 1).tag = true ∧ ((s.pr 1).reg 1).otype ≠ 0)
    ∧ (let s := cpu (withReg 1 (CReg.root.drop 4 |>.drop 0xFFFF))
       ((s.pr 1).reg 1).tag = true ∧ ((s.pr 1).reg 1).otype = 0 ∧ ((s.pr 1).reg 1).has 4 = false)
    ∧ (let s := cpu (withReg 1 CReg.root)
       ((s.pr 1).reg 1).poison = false ∧ ((s.pr 1).reg 1).tag = true ∧ ((s.pr 1).reg 1).otype = 0 ∧ ((s.pr 1).reg 1).has 4 = true ∧
         ((s.pr 1).reg 15).poison = false ∧ ((s.pr 1).check ((s.pr 1).reg 15) 0x10117FF0 16 18).isNone = true ∧ Ex.isOk (s.busCheck 0x10117FF0 16 2) = true ∧ onChip 0x10117FF0 = true)
    ∧ (let s := cpu (withReg 15 { CReg.root with poison := true })
       issues1 s = true ∧ ((s.pr 1).reg 15).poison = true)
    ∧ (let s := cpu (withReg 15 CReg.null)
       ((s.pr 1).check ((s.pr 1).reg 15) (2 ^ 64 - 16) 16 18).isSome = true ∧ ((s.pr 1).check ((s.pr 1).reg 15) 0 16 1).isSome = true)
    ∧ (let s := returning
       let csp := (s.pr 1).reg 15
       let v := capOf (s.memRead csp.addr 16) (s.spanBad csp.addr 16) (s.tagAt csp.addr && onChip csp.addr && csp.has 8)
       issues1 s = true ∧ csp.poison = false ∧ ((s.pr 1).check csp csp.addr 16 1).isNone = true ∧ Ex.isOk (s.busCheck csp.addr 16 1) = true ∧ v.tag = true ∧ v.otype = 1 ∧ v.poison = false)
    ∧ (let csp := (cpu.pr 1).reg 15
       (capOf (cpu.memRead csp.addr 16) (cpu.spanBad csp.addr 16) (cpu.tagAt csp.addr && onChip csp.addr && csp.has 8)).tag = false) := by decide +kernel

theorem witness_FaultEntry :
    (issues1 cpu = true ∧ wordDefined 0 = false ∧ wordDefined 0x04000000 = true ∧ cmdState.canIssue 1 = false)
    ∧ (let s := cpu (fun p => { p with pcc := CReg.null })
       s.canIssue 1 = true ∧ Ex.faultsWith (s.fetch 1 (s.pr 1).pcc.addr) 2 = true)
    ∧ (let p := (cpu.pr 1)
       Ex.isOk (cpu.frameStop 0x10117FC0 p) = true ∧ ((p.reg 15).addr + 2 ^ 64 - 64) % 2 ^ 64 = 0x10117FC0 ∧ p.ecp.tag = true ∧ p.ecp.otype = 0 ∧ p.ecp.has 4 = true ∧
         onChip 0x10117FC0 = true ∧ p.pcc.has 0x80 = true ∧ (p.reg 15).poison = false ∧ cpu.runningOn 1 = [] ∧
         ∀ g, g ∈ [0, 16, 32, 48] → (p.check (p.reg 15) (0x10117FC0 + g) 16 18).isNone = true ∧ Ex.isOk (cpu.busCheck (0x10117FC0 + g) 16 2) = true)
    ∧ (let s := cpu (withReg 15 (CReg.root.setAddr 0x10218000)) |>.setDom 5 dsOff
       Ex.stalls (s.frameStop 0x10217FC0 (s.pr 1)) = true ∧ s.pwr.stuck = [])
    ∧ (let s := cpu (withReg 15 CReg.null)
       Ex.isOk (s.frameStop (2 ^ 64 - 64) (s.pr 1)) = false ∧ Ex.stalls (s.frameStop (2 ^ 64 - 64) (s.pr 1)) = false)
    ∧ (let s := cpu (fun p => { p with ecp := CReg.null })
       (s.pr 1).ecp.tag = false)
    ∧ (let s := (cpu (fun p => { p with pcc := (CReg.root.drop 0x80).setAddr 0x10110000 })).setApp 1 (some (app0 apRunning))
       s.compOf 1 = 1 ∧ (1 : Nat) ≠ 0xFFFF ∧ s.app 1 = some (app0 apRunning) ∧ (app0 apRunning).st = apRunning) := by decide +kernel

/-- An ERET capability in a frame under csp. -/
def framed : State :=
  let v := (CReg.root.setAddr 0x10110040).withType 2
  (cpu.memWrite 0x10118000 (toLe 16 v.v.toNat)).setTag16 0x10118000 true

theorem witness_SystemInstructions :
    (issues1 cpu = true ∧ selOk 7 = false ∧ selOk 1 = true ∧ (cpu.pr 1).pcc.has 0x80 = true)
    ∧ (let s := cpu (fun p => { p with pcc := (CReg.root.drop 0x80).setAddr 0x10110000, mpuAttr := [(0, 0x8027000F)], mpuBase := [(0, 0x10000000)] })
       issues1 s = true ∧ (s.pr 1).pcc.has 0x80 = false)
    ∧ ((cpu.pr 1).scret.tag = false ∧ (cpu.pr 1).scentry.tag = false)
    ∧ (let s := cpu (fun p => { p with scret := CReg.root.withType 4 })
       issues1 s = true ∧ (s.pr 1).scret.tag = true ∧ (s.pr 1).scret.otype = 4)
    ∧ (let s := cpu (fun p => { p with scentry := CReg.root.withType 3 })
       (s.pr 1).scret.tag = false ∧ (s.pr 1).scentry.tag = true ∧ (s.pr 1).scentry.otype = 3)
    ∧ (let s := framed
       let csp := (s.pr 1).reg 15
       let saved := capOf (s.memRead csp.addr 16) (s.poisonAt csp.addr) (s.tagAt csp.addr && onChip csp.addr && !s.poisonAt csp.addr && csp.has 8)
       issues1 s = true ∧ csp.poison = false ∧ ((s.pr 1).checkAl csp csp.addr 64 16 1).isNone = true ∧ (∀ g, g ∈ [16, 32, 48] → ((s.pr 1).check csp (csp.addr + g) 16 1).isNone = true) ∧
         Ex.isOk (s.busFrame csp.addr 1) = true ∧ onChip csp.addr = true ∧ saved.tag = true ∧ saved.otype = 2)
    ∧ (let csp := (cpu.pr 1).reg 15
       (capOf (cpu.memRead csp.addr 16) (cpu.poisonAt csp.addr) (cpu.tagAt csp.addr && onChip csp.addr && !cpu.poisonAt csp.addr && csp.has 8)).tag = false) := by decide +kernel

/-- ADDI c1, c1, 1 as a word, and ADD c13, c13, c13. -/
def addi1 : Word := encI 2 1 1 0 1
def fits (w : Word) (p : RepOp → Bool) : Bool := match repOpOf w with | some o => p o | none => false

theorem witness_RepeatPrefixes :
    (issues1 cpu = true ∧ Ex.isOk (cpu.fetch 1 ((cpu.pr 1).pcc.addr + 4)) = true ∧ repOpOf 0 = none)
    ∧ (repOpOf addi1 = some (.alui .add 1 1 1) ∧ Ex.isOk (State.runReps 1 (.alui .add 1 1 1) 16 [] cpu) = true)
    ∧ (fits (encM 8 1 2 1 3 0) (fun o => Ex.faultsWith (State.runReps 1 o 1 [] cpu) 2) = true)
    ∧ (let s := cpu (fun p => { p with pcc := ((CReg.root.setAddr 0x10110000).clip 4) })
       issues1 s = true ∧ Ex.faultsWith (s.fetch 1 ((s.pr 1).pcc.addr + 4)) 5 = true)
    ∧ (fits (encT 1 13 13 13 0) (fun o => o.names 13) = true ∧ fits addi1 (fun o => !o.names 13) = true ∧ ((cpu.pr 1).reg 13).tag = false ∧ ((cpu.pr 1).reg 13).lo = 0)
    ∧ (let s := cpu (withReg 13 (CReg.int 3 false))
       ((s.pr 1).reg 13).lo.toNat ≤ 2 ^ 32 ∧ ((s.pr 1).reg 13).lo ≠ 0)
    ∧ ((cpu.pr 1).repi = none)
    ∧ (let s := cpu (fun p => withReg 13 (CReg.int 2 false) { p with repi := some (.alui .add 1 1 1) })
       (s.pr 1).repi = some (.alui .add 1 1 1) ∧ s.pairSt 1 = pRunning ∧ (s.pr 1).stall = none ∧ Ex.isOk (s.runRep 1 (.alui .add 1 1 1) accIn0 accIn0) = true)
    ∧ (let s := cpu (fun p => withReg 13 (CReg.int 2 false) { p with repi := some (.ld 1 2 1 3) })
       Ex.faultsWith (s.runRep 1 (.ld 1 2 1 3) accIn0 accIn0) 2 = true) := by decide +kernel

/-- Source 40 of pair 1 is pending, enabled at priority 3. -/
def interrupted (l : List (Fld × Nat) := []) : State :=
  (cpu id ([(F.DEV_IRQ_CFG_EN (256 + 40), 1), (F.DEV_IRQ_CFG_PRIO (256 + 40), 3)] ++ l)).wr (R.DEV_IRQ_PEND 9) 0x100

theorem witness_PairControl :
    ((cmdState.setDom 4 dsOff).domOn 4 = false ∧ cmdState.domOn 4 = true ∧ (withF [(F.DEV_PAIR_STS_STATE 1, pHalted)] cmdState).pairSt 1 ≠ pHeld ∧
        (withF [(F.DEV_PAIR_STS_STATE 1, pHeld)] cmdState).pairSt 1 = pHeld)
    ∧ (State.reset.irqNext 1 = none)
    ∧ (interrupted.irqNext 1 = some (40, 3) ∧ interrupted.domOn 4 = true ∧ interrupted.pairSt 1 = pRunning ∧ (interrupted.pr 1).stall = none ∧
        interrupted.fb (F.DEV_IRQ_CUR_ACTIVE 1) = false ∧ Ex.isOk (interrupted.frameStop 0x10117FC0 (interrupted.pr 1)) = true ∧ onChip 0x10117FC0 = true)
    ∧ (let s := interrupted [(F.DEV_IRQ_CUR_ACTIVE 1, 1), (F.DEV_IRQ_CUR_LEVEL 1, 3)]
       s.irqNext 1 = some (40, 3) ∧ s.fb (F.DEV_IRQ_CUR_ACTIVE 1) = true ∧ 3 ≤ s.f (F.DEV_IRQ_CUR_LEVEL 1))
    ∧ (let s := interrupted [(F.DEV_IRQ_CUR_ACTIVE 1, 1), (F.DEV_IRQ_CUR_LEVEL 1, 2)]
       s.f (F.DEV_IRQ_CUR_LEVEL 1) < 3)
    ∧ ((interrupted.setDom 4 dsOff).irqNext 1 = some (40, 3) ∧ (interrupted.setDom 4 dsOff).domOn 4 = false)
    ∧ (State.reset.pairSt 1 ≠ pRunning) := by decide +kernel

theorem witness_RegisterAccess :
    (hostWritable (0x400000 : BitVec 26).toNat = false)
    ∧ (let s := cpu.setDom dCipher dsOff
       s.mayReach 1 R.CIQ_CTL = true ∧ (s.regWaits R.CIQ_CTL).isSome = true)
    ∧ (let s := cpu (fun p => { p with pcc := CReg.null })
       s.mayReach 1 R.GRV_EVT = false)
    ∧ (let s := cmdState.setDom dHost dsOff
       hostWritable R.CUL_WIN_CTL = true ∧ (s.regWaits R.CUL_WIN_CTL).any (fun d => decide (d ∉ s.pwr.stuck)) = true)
    ∧ (let s := { cmdState.setDom dCipher dsOff with pwr := { (cmdState.setDom dCipher dsOff).pwr with stuck := [dCipher] } }
       (s.regWaits R.CIQ_CTL).any (fun d => decide (d ∈ s.pwr.stuck)) = true)
    ∧ (cpu.mayRead .host (R.DEV_SCRATCH 3) = true ∧ cpu.latched (R.DEV_SCRATCH 3) = none ∧ R.DEV_SCRATCH 3 ∉ cpu.regBad)
    ∧ ((cpu.pr 1).pcc.has 0x80 = true ∧ cpu.regWaits R.GRV_EVT = none)
    ∧ (let a := (0xFFFFFC : BitVec 26).toNat
       cpu.mayRead .host a = true ∧ (regDesc a).isNone = true ∧ cpu.liveReg a = none ∧ cpu.regWaits a = none ∧ a ∉ cpu.regBad ∧ cpu.latched a = none ∧ isLowHalf a = false ∧ isSluWindow a = false)
    ∧ (cpu.mayRead .host R.GAC_NOW_LO = true ∧ R.GAC_NOW_LO ∉ cpu.regBad ∧ cpu.latched R.GAC_NOW_LO = none)
    ∧ (let s := { cpu with latch := [(R.GAC_NOW_HI, some 5)] }
       s.latched R.GAC_NOW_HI = some 5)
    ∧ (cpu.mayRead .host R.GRV_FILL_LAT_MAX = true ∧ cpu.regWaits R.GRV_FILL_LAT_MAX = none ∧ R.GRV_FILL_LAT_MAX ∉ cpu.regBad ∧ cpu.latched R.GRV_FILL_LAT_MAX = none) := by decide +kernel

theorem witness_AngleZero :
    (({ powered with berm := { powered.berm with backup := true } } : State).berm.backup = true)
    ∧ (cmdState.berm.backup = false ∧ cmdState.cfg.commit = none ∧ cmdState.keys.rolls = [])
    ∧ ((withF [(F.SWP_CTL_SRAM_EN, 1), (F.SWP_SRAM_RATE_RATE, 7)] cmdState).fb F.SWP_CTL_SRAM_EN = true)
    ∧ ((withF [(F.SWP_CTL_SRAM_EN, 0)] cmdState).fb F.SWP_CTL_SRAM_EN = false) := by decide +kernel

theorem witness_QueueDrains : ({ State.reset with pending := [.angleZero, .reqa] } : State).pending = .angleZero :: [.reqa] := rfl

/-! ### Well-formed commands: a term that each check refuses -/

/-- A slot without the PARAMS that a slot holds. -/
def badSlot : Slot := ⟨0, 1, 1, 0, 0, 7, 0, 0, [], [], none⟩

/-- A card run whose first copy is shorter than a header block, and one that finds nothing. -/
def badRun : CardRun := ⟨[0], [], 0, .done, []⟩
def noRun : CardRun := ⟨[], [], 0, .done, []⟩

theorem test_illformed_slots :
    (Instr.cmdDevInfo badSlot).wellFormed = false ∧ (Instr.cmdUndefined badSlot 0).wellFormed = false ∧ (Instr.cmdKeyLoad badSlot).wellFormed = false ∧
    (Instr.cmdGroveInsert badSlot).wellFormed = false ∧ (Instr.cmdFldReaderPoll badSlot false [] 0).wellFormed = false ∧
    (Instr.cmdCrdRecordRead badSlot noRun).wellFormed = false := by decide +kernel

theorem test_illformed_operands :
    (Instr.cmdCrdRecordRead (slotWith []) badRun).wellFormed = false ∧
    (Instr.cmdFldReaderPoll (slotWith []) false [⟨[], true⟩] 0).wellFormed = false ∧
    (Instr.frameRx 0 [] true 0 none none ⟨0, 0, 0⟩).wellFormed = false ∧
    (Instr.mkaRx (.port 0) (.sak 0 1 [] [] 0 true true true 0 0)).wellFormed = false ∧
    (Instr.gdoiMessageRx (.load 1 true [] 0)).wellFormed = false ∧
    (Instr.cxlDeviceTrained 0 0 true).wellFormed = false ∧
    (Instr.asyncCompletion 0 0 ⟨badRun, .failed, none, [], none, 0⟩).wellFormed = false ∧
    (Instr.atCycleExecute ⟨badRun, .failed, none, [], none, 0⟩).wellFormed = false ∧
    (Instr.domainReady 0 [] 0 { accIn0 with host := some (List.replicate 65 0) }).wellFormed = false ∧
    (Instr.ld ⟨1, []⟩ 1 2 1 3 0 { accIn0 with host := some (List.replicate 65 0) }).wellFormed = false := by decide +kernel

theorem test_illformed_payloads :
    (Instr.select 0 [1, 2, 3]).wellFormed = false ∧ (Instr.helloRx [] true).wellFormed = false ∧ (Instr.timeRx [] true).wellFormed = false ∧
    (Instr.replayRx [] true).wellFormed = false ∧ (Instr.readyRx [] true).wellFormed = false ∧ (Instr.roleRx [] true).wellFormed = false ∧
    (Instr.leadstateRx (List.replicate 13 0) true).wellFormed = false ∧ (Instr.rootRestart [0] []).wellFormed = false ∧
    (Instr.watchdogExpire [] [0]).wellFormed = false ∧ (Instr.stageB2 [0] [0]).wellFormed = false := by decide +kernel

theorem test_wellformed :
    (Instr.angleZero).wellFormed = true ∧ (Instr.cmdDevInfo (slotWith [])).wellFormed = true ∧ (Instr.cmdCrdRecordRead (slotWith []) noRun).wellFormed = true ∧
    (Instr.stageB2 [] []).wellFormed = true ∧ (Instr.leadstateRx (List.replicate 36 0) true).wellFormed = true := by decide +kernel

/-- No row of the table of operations and events has bits. -/
theorem test_no_word_spells_a_command (nbits w : Nat) : decodeTableWord nbits w = none := rfl

/-! ### Worked examples of the spec -/

/-- The stream's entry in Example FPA-1, before frame 1: PRP, its window valid. -/
def tripEntry : GrvEntry := ⟨[], 0, 7, 0x22, 0, 0, 0, 0, 0, 0, 8000, 100, 0xFFFFFFFF⟩

/-- What a row of Example FPA-1 shows of a decision. -/
def shows (x : Bool × Bool × GrvEntry) (ok : Bool) (base win : Nat) : Bool :=
  x.1 == ok && !x.2.1 && x.2.2.seqBase == base && x.2.2.seqWin % 256 == win

/-- Example FPA-1, its seven frames. -/
theorem test_example_FPA_1 :
    let d := fun (e : GrvEntry) (sq : Nat) => dupDecide e sq 100 20
    let f1 := d tripEntry 8001
    let f2 := d f1.2.2 8001
    let f3 := d f2.2.2 8002
    let f4 := d f3.2.2 8002
    let f5 := d f4.2.2 8004
    let f6 := d f5.2.2 8003
    let f7 := d f6.2.2 8004
    shows f1 true 8001 0xFF && shows f2 false 8001 0xFF && shows f3 true 8002 0xFF && shows f4 false 8002 0xFF && shows f5 true 8004 0xFD &&
      shows f6 true 8004 0xFF && shows f7 false 8004 0xFF = true := by decide +kernel

/-- The set of Example SLU-2, lane 20 in a mode: 18 egress budgets of 40,000 for E-CIDs 1 to 18 of lane 20. -/
def bayBudgets (mode : Nat) : CfgSet :=
  { CfgSet.defaults with
    lanes := List.replicate 20 [] ++ [[BitVec.ofNat 32 (2 ^ 30 + mode * 2 ^ 27)]]
    sluices := (List.range 18).map (fun i => ⟨2 ^ 31 + 20 * 2 ^ 24 + i + 1, 1, 0, 40000, []⟩) }

/-- Example SLU-2 and Example CMD-1: at 1000BASE-X the detail's qualifier is 0x8014; at 10GBASE-R the set passes. -/
theorem test_example_SLU_2 : (bayBudgets 0).overBudget = some 0x8014 ∧ (bayBudgets 3).overBudget = none := by decide +kernel

/-- Example SDI-1: lines per pass of the SRAM walk. -/
theorem test_example_SDI_1 : ((List.range 9).map sweepLines).foldl (· + ·) 0 = 565504 := by decide +kernel

/-- Example CMD-1: the detail of the refusal. -/
theorem test_example_CMD_1 : Dt.budget * 65536 + 0x8014 = 0x00048014 := by decide +kernel

/-- R185: a codeword with one or two symbols changed is corrected, one with three or four is not. -/
theorem test_rs_corrects :
    let m := List.range 39
    let w := m ++ rsParity m
    let bad := fun (l : List (Nat × Nat)) => l.foldl (fun w e => w.set e.1 (w.getD e.1 0 ^^^ e.2)) w
    rsDecode w = .clean ∧ rsDecode (bad [(3, 0x55)]) = .fix [(3, 0x55)] ∧ rsDecode (bad [(0, 1), (44, 0x80)]) = .fix [(0, 1), (44, 0x80)] ∧
      rsDecode (bad [(1, 7), (2, 9), (30, 4)]) = .bad ∧ rsDecode (bad [(1, 7), (2, 9), (30, 4), (40, 200)]) = .bad := by decide +kernel

/-- R406: when ALERT_N and BREACH_N are low. -/
theorem test_alert_pins :
    powered.alertLow = false ∧ powered.breachLow = false ∧ (withF [(F.TMP_STS_LEVEL, 3)] powered).alertLow = true ∧
      (withF [(F.TMP_STS_LEVEL, 2)] powered).alertLow = false ∧ (withF [(F.TMP_EVT_ALARM, 1)] powered).alertLow = true ∧
      (withF [(F.TMP_EVT_RESPONSE_CHG, 1)] powered).alertLow = false ∧
      (withF [(F.RST_STS_STAGE, 1)] { powered with keys := { powered.keys with root := .cell (List.replicate 38 1) } }).alertLow = true := by decide +kernel

/-- Example FLD-1: two badges whose identifiers differ in one bit; the one with that bit at 1 is selected first. -/
theorem test_example_FLD_1 :
    let p := poll [⟨[0x04, 0xA1, 0xB2, 0xC3, 0xD4, 0xE5, 0xF6], true⟩, ⟨[0x04, 0xA1, 0xB2, 0xC3, 0xD4, 0xE5, 0xF7], true⟩]
    p.found.map (fun b => byteAt b.uid 6) = [0xF7, 0xF6] ∧ p.left = [] ∧
      (p.sent.map (·.1)).take 6 = [[0x26], [0x93, 0x20], [0x93, 0x70, 0x88, 0x04, 0xA1, 0xB2, 0x9F], [0x95, 0x20],
        [0x95, 0x51, 0xC3, 0xD4, 0xE5, 0x01], [0x95, 0x70, 0xC3, 0xD4, 0xE5, 0xF7, 0x05]] ∧
      (p.sent.map (·.1)).getLast? = some [0x26] := by decide +kernel

end Sys2Proof.Tests
end

/-! # What every operation keeps

The queue of commands and the canonical form of the register file and of on-chip memory, for each operation of the machine, in
the order of the model's files. Each law has the shape `s.Kept u → s.Kept (u.operation …)`, so that a proof about an operation
names, in their order, the operations it is made of: `h.domWake.setF.post`. The commands (`State.Kept.exec`) and the step come
last. -/

namespace Sys2Proof.Machine

section KeptLaws

-- a thousand short proofs, elaborated one after the other: a task for each would exhaust the address space with stacks
set_option Elab.async false

variable {s u : State}

/-! ### The rules of the operations that everything else is made of -/

/-- `State.Kept.ite`, whatever decides the condition. -/
theorem State.Kept.if_ {a b : State} {p : Prop} {_ : Decidable p} (ha : s.Kept a) (hb : s.Kept b) : s.Kept (if p then a else b) :=
  .ite ha hb

theorem State.Kept.ifFst {β : Type} {a b : State} {x y : β} {p : Prop} {_ : Decidable p} (ha : s.Kept a) (hb : s.Kept b) :
    s.Kept (if p then (a, x) else (b, y)).1 := by
  split <;> assumption

theorem State.Kept.ifSnd {β : Type} {a b : State} {x y : β} {p : Prop} {_ : Decidable p} (ha : s.Kept a) (hb : s.Kept b) :
    s.Kept (if p then (x, a) else (y, b)).2 := by
  split <;> assumption

theorem State.Kept.wr (h : s.Kept u) {a v} : s.Kept (u.wr a v) := State.wr_kept h a v

theorem State.Kept.resetRegs (h : s.Kept u) {p} : s.Kept (u.resetRegs p) := State.resetRegs_kept h p

theorem State.Kept.memWrite (h : s.Kept u) {a bs} : s.Kept (u.memWrite a bs) := State.memWrite_kept h a bs

theorem State.Kept.doIf (h : s.Kept u) {c g} (hg : ∀ t, s.Kept t → s.Kept (g t)) : s.Kept (u.doIf c g) :=
  State.doIf_kept h c g hg

theorem State.Kept.forEach {α : Type} {l : List α} {g} (h : s.Kept u) (hg : ∀ t a, s.Kept t → s.Kept (g t a)) :
    s.Kept (u.forEach l g) :=
  State.forEach_kept l g hg h

theorem State.Kept.foldl {α : Type} {l : List α} {g} (h : s.Kept u) (hg : ∀ t a, s.Kept t → s.Kept (g t a)) :
    s.Kept (l.foldl g u) :=
  State.foldl_kept id l g hg h

/-- A fold whose accumulator holds the state beside something else. -/
theorem State.Kept.foldlFst {α β : Type} {l : List α} {g : State × β → α → State × β} {b : State × β} (h : s.Kept b.1)
    (hg : ∀ b a, s.Kept b.1 → s.Kept (g b a).1) : s.Kept (l.foldl g b).1 :=
  State.foldl_kept Prod.fst l g hg h

theorem State.Kept.foldlSnd {α β : Type} {l : List α} {g : β × State → α → β × State} {b : β × State} (h : s.Kept b.2)
    (hg : ∀ b a, s.Kept b.2 → s.Kept (g b a).2) : s.Kept (l.foldl g b).2 :=
  State.foldl_kept Prod.snd l g hg h

/-! ### The state in a result, once the result is known -/

theorem State.Kept.of_fst {β : Type} {p : State × β} {t b} (e : p = (t, b)) (h : s.Kept p.1) : s.Kept t := by
  subst e; exact h

theorem State.Kept.of_snd {β : Type} {p : β × State} {t b} (e : p = (b, t)) (h : s.Kept p.2) : s.Kept t := by
  subst e; exact h

theorem State.Kept.of_snd_snd {α β : Type} {p : α × β × State} {a b t} (e : p = (a, b, t)) (h : s.Kept p.2.2) : s.Kept t := by
  subst e; exact h

theorem State.Kept.of_done {r : CmdRes} {a t} (e : r = .done a t) (h : r.Kept s) : s.Kept t := by
  subst e; exact h

theorem State.Kept.of_later {r : CmdRes} {w t} (e : r = .later w t) (h : r.Kept s) : s.Kept t := by
  subst e; exact h

theorem State.Kept.of_some {o : Option State} {t} (e : o = some t) (h : Opt.Kept id s o) : s.Kept t := h t e

theorem Opt.Kept.getD {o : Option State} {d} (h : Opt.Kept id s o) (hd : s.Kept d) : s.Kept (o.getD d) := by
  cases o with
  | none => exact hd
  | some t => exact h t rfl

theorem State.KeptR.ite {a b : Res} {p : Prop} {_ : Decidable p} (ha : s.KeptR a) (hb : s.KeptR b) : s.KeptR (if p then a else b) := by
  split <;> assumption

theorem CmdRes.Kept.ite {a b : CmdRes} {p : Prop} {_ : Decidable p} (ha : a.Kept s) (hb : b.Kept s) : (if p then a else b).Kept s := by
  split <;> assumption

/-! ### Operations of Machine/Ops.lean -/

theorem State.Kept.setF (h : s.Kept u) {f x} : s.Kept (u.setF f x) := h.wr

theorem State.Kept.setB (h : s.Kept u) {f b} : s.Kept (u.setB f b) := h.setF

theorem State.Kept.addF (h : s.Kept u) {f n} : s.Kept (u.addF f n) := h.setF

theorem State.Kept.addSat (h : s.Kept u) {f n} : s.Kept (u.addSat f n) := h.setF

theorem State.Kept.wr64 (h : s.Kept u) {a v} : s.Kept (u.wr64 a v) := h.wr.wr

theorem State.Kept.setCtr (h : s.Kept u) {a n} : s.Kept (u.setCtr a n) := h.mk

theorem State.Kept.bump (h : s.Kept u) {a n} : s.Kept (u.bump a n) := h.setCtr

theorem State.Kept.open_ (h : s.Kept u) : s.Kept u.open_.2 := h.mk

theorem State.Kept.openBelow (h : s.Kept u) {n} : s.Kept (u.openBelow n).2 := h.mk

theorem State.Kept.openBytes (h : s.Kept u) {n} : s.Kept (u.openBytes n).2 := h.open_

theorem State.Kept.emit (h : s.Kept u) {o} : s.Kept (u.emit o) := h.mk

theorem State.Kept.storeBytes (h : s.Kept u) {a bs} : s.Kept (u.storeBytes a bs) := h.if_ (h.emit.if_ (h.mk.if_ h.memWrite))

theorem State.Kept.drawBytes (h : s.Kept u) {k} : s.Kept (u.drawBytes k).2 := h.addSat.mk

theorem State.Kept.irq (h : s.Kept u) {pair src} : s.Kept (u.irq pair src) := h.wr

theorem State.Kept.irqAll (h : s.Kept u) {src} : s.Kept (u.irqAll src) := h.forEach fun _ _ h => h.irq

theorem State.Kept.msix (h : s.Kept u) {v} : s.Kept (u.msix v) := h.wr.if_ h.emit

theorem State.Kept.arm (h : s.Kept u) {v} : s.Kept (u.arm v) := h.mk

theorem State.Kept.signalArmed (h : s.Kept u) {v} : s.Kept (u.signalArmed v) := h.mk.msix.if_ h

theorem State.Kept.setHeldEv (h : s.Kept u) {e l} : s.Kept (u.setHeldEv e l) := h.mk

theorem State.Kept.setLostNow (h : s.Kept u) {e n} : s.Kept (u.setLostNow e n) := h.mk

theorem State.Kept.putEntry (h : s.Kept u) {e ev} : s.Kept (u.putEntry e ev) := h.emit.setF.signalArmed

theorem State.Kept.drainEv (h : s.Kept u) {n e} : s.Kept (State.drainEv n e u) := by
  induction n generalizing u with
  | zero => exact h
  | succ n ih =>
    unfold State.drainEv
    refine .if_ h (.if_ (ih h.setLostNow.putEntry) ?_)
    split
    exacts [h, ih h.setHeldEv.putEntry]

theorem State.Kept.drainRing (h : s.Kept u) {e} : s.Kept (u.drainRing e) := h.drainEv

theorem State.Kept.postTo (h : s.Kept u) {e ev} : s.Kept (u.postTo e ev) := h.setHeldEv.drainRing.if_ h.setLostNow.addF

theorem State.Kept.post (h : s.Kept u) {ev} : s.Kept (u.post ev) := h.irqAll.addF.if_ h.irqAll.postTo

theorem State.Kept.raise (h : s.Kept u) {src bit data} : s.Kept (u.raise src bit data) := h.wr.post.if_ h.wr

theorem State.Kept.postCode (h : s.Kept u) {cls code bit data} : s.Kept (u.postCode cls code bit data) := h.post

/-! ### Operations of Machine/EccOps.lean -/

theorem State.Kept.blaze (h : s.Kept u) {region addr kind} : s.Kept (u.blaze region addr kind) :=
  h.mk.if_ ((h.addF.mk.raise.if_ h.addF.mk).if_ h.mk)

theorem State.Kept.eccCorr (h : s.Kept u) {region addr symbols} : s.Kept (u.eccCorr region addr symbols) := h.addF.blaze

theorem State.Kept.setMarks (h : s.Kept u) {region cw m} : s.Kept (u.setMarks region cw m) := h.mk

theorem State.Kept.setPoison (h : s.Kept u) {region cw} : s.Kept (u.setPoison region cw) := h.setMarks

theorem State.Kept.clearPoison (h : s.Kept u) {region cw} : s.Kept (u.clearPoison region cw) := h.setMarks

theorem State.Kept.tmpFlag (h : s.Kept u) {bit src} : s.Kept (u.tmpFlag bit src) := h.wr.if_ h.raise

theorem State.Kept.tmpLogAt (h : s.Kept u) {src lvl data g} : s.Kept (u.tmpLogAt src lvl data g) :=
  h.mk.setF.setF.setF.doIf fun _ h => h.tmpFlag

theorem State.Kept.tmpLog (h : s.Kept u) {src lvl data} : s.Kept (u.tmpLog src lvl data) := h.tmpLogAt

theorem State.Kept.raiseLevel (h : s.Kept u) {lvl src} : s.Kept (u.raiseLevel lvl src) := h.setF.tmpFlag.if_ h

theorem State.Kept.alarmAt (h : s.Kept u) {src lvl data g} : s.Kept (u.alarmAt src lvl data g) :=
  h.raiseLevel.tmpLogAt.post.if_ h.raiseLevel.tmpLogAt

theorem State.Kept.alarm (h : s.Kept u) {src lvl data} : s.Kept (u.alarm src lvl data) := h.alarmAt

theorem State.Kept.notify (h : s.Kept u) {src} : s.Kept (u.notify src) := h.alarm

theorem State.Kept.eccUncorr (h : s.Kept u) {region cw off addrErr} : s.Kept (u.eccUncorr region cw off addrErr) :=
  h.if_ (h.setPoison.addF.wr.wr.raise.raise.notify.if_ h.setPoison.addF.wr.wr.raise)

theorem State.Kept.eccRead (h : s.Kept u) {region hit} : s.Kept (u.eccRead region hit).1 := by
  dsimp only [State.eccRead]
  split
  · exact h
  · refine .ifFst h.setMarks ?_
    split
    · exact h.setMarks
    · exact h.setMarks.eccCorr.doIf fun _ h => h.mkMem (wf_memPut _ _ _)
    · exact h.setMarks.eccUncorr
    · exact h.setMarks.eccUncorr

theorem State.Kept.eccReads (h : s.Kept u) {region cws hit} : s.Kept (u.eccReads region cws hit).1 := h.eccRead

theorem State.Kept.eccSpan (h : s.Kept u) {x n hits} : s.Kept (u.eccSpan x n hits) := by
  unfold State.eccSpan
  split
  exacts [h, h.forEach fun _ _ h => h.eccRead]

/-! ### Operations of Machine/NetOps.lean -/

theorem State.Kept.pc (h : s.Kept u) {p off} : s.Kept (u.pc p off) := h.bump.if_ h

theorem State.Kept.countParseNull (h : s.Kept u) {p} : s.Kept (u.countParseNull p) := h.setCtr

theorem State.Kept.countWrongLan (h : s.Kept u) {p} : s.Kept (u.countWrongLan p) := h.bump

theorem State.Kept.countStream (h : s.Kept u) {e off n} : s.Kept (u.countStream e off n) := by
  unfold State.countStream
  split
  exacts [h.if_ h.bump, h]

theorem State.Kept.setLane (h : s.Kept u) {k l} : s.Kept (u.setLane k l) := h.mk

theorem State.Kept.setCtx (h : s.Kept u) {p c} : s.Kept (u.setCtx p c) := h.mk

theorem State.Kept.bootEntry (h : s.Kept u) {code bit data} : s.Kept (u.bootEntry code bit data) := h.postCode.if_ (h.addSat.if_ h.mk)

theorem State.Kept.rstFlag (h : s.Kept u) {bit data} : s.Kept (u.rstFlag bit data) := h.wr.bootEntry

theorem State.Kept.updService (h : s.Kept u) : s.Kept u.updService := h.if_ h.mk.setF.rstFlag

theorem State.Kept.setFrame (h : s.Kept u) {f} : s.Kept (u.setFrame f) := h.mk

theorem State.Kept.freeFrame (h : s.Kept u) {ident} : s.Kept (u.freeFrame ident) := h.mk

theorem State.Kept.countDiscard (h : s.Kept u) {f} : s.Kept (u.countDiscard f) := by
  unfold State.countDiscard
  split
  exacts [h.if_ h.setFrame.countStream, h]

theorem State.Kept.dropFrame (h : s.Kept u) {f} : s.Kept (u.dropFrame f) := h.countDiscard.freeFrame

theorem State.Kept.dropAt (h : s.Kept u) {f off} : s.Kept (u.dropAt f off) := h.dropFrame.pc

theorem State.Kept.pushOut (h : s.Kept u) {k p adm n} : s.Kept (pushOut k p adm n u).2 := by
  induction k generalizing u with
  | zero => exact h
  | succ k ih =>
    unfold Machine.pushOut
    split
    · exact h
    · split
      exacts [h, ih h.dropAt]

theorem State.Kept.dikeBasinDrop (h : s.Kept u) {f} : s.Kept (u.dikeBasinDrop f) := h.dropAt.postCode

theorem State.Kept.settleFrame (h : s.Kept u) {ident} : s.Kept (u.settleFrame ident) := by
  unfold State.settleFrame
  split
  exacts [h.freeFrame.if_ h, h]

theorem State.Kept.removeCopies (h : s.Kept u) {ident p} : s.Kept (u.removeCopies ident p) := by
  unfold State.removeCopies
  split
  exacts [h.setFrame.settleFrame, h]

/-! ### Operations of Machine/GroveOps.lean -/

theorem State.Kept.setWay (h : s.Kept u) {i w} : s.Kept (u.setWay i w) := h.mk

theorem State.Kept.writeWay (h : s.Kept u) {i w} : s.Kept (u.writeWay i w) := h.setWay.clearPoison.clearPoison

theorem State.Kept.mapWays (h : s.Kept u) {g} : s.Kept (u.mapWays g) := h.mk

theorem State.Kept.setLine (h : s.Kept u) {r e l} : s.Kept (u.setLine r e l) := h.mk

theorem State.Kept.writeLineAs (h : s.Kept u) {r e x bad} : s.Kept (u.writeLineAs r e x bad) := h.setLine

theorem State.Kept.writeLine (h : s.Kept u) {r e x} : s.Kept (u.writeLine r e x) := h.writeLineAs

theorem State.Kept.wipeLine (h : s.Kept u) {r e} : s.Kept (u.wipeLine r e) := h.setLine

theorem State.Kept.grvFlag (h : s.Kept u) {bit link entry} : s.Kept (u.grvFlag bit link entry) := h.raise

theorem State.Kept.lineBad (h : s.Kept u) {r e} : s.Kept (u.lineBad r e) := h.if_ h.setLine.setF.setF.grvFlag

theorem State.Kept.lineUncorr (h : s.Kept u) {r e} : s.Kept (u.lineUncorr r e) := h.if_ h.addF.wr.wr.raise.lineBad

theorem State.Kept.lineRead (h : s.Kept u) {r e err} : s.Kept (u.lineRead r e err).1 := by
  dsimp only [State.lineRead]
  refine .ifFst h ?_
  refine .ifFst h.lineUncorr ?_
  refine .ifFst h ?_
  split
  · exact h.setLine.lineUncorr
  · exact .ifFst (h.setLine.doIf fun _ h => h.eccCorr).addF.grvFlag.notify.lineBad (h.setLine.doIf fun _ h => h.eccCorr)

theorem State.Kept.seeLines (h : s.Kept u) {key} : s.Kept (u.seeLines key) := h.forEach fun _ _ h => h.lineRead

theorem State.Kept.writeBack (h : s.Kept u) {i w} : s.Kept (u.writeBack i w) := by
  dsimp only [State.writeBack]
  refine .if_ h ?_
  split
  · exact .writeLineAs (by split; exacts [h.writeLineAs.bump, h])
  · split
    exacts [h.writeLineAs.bump, h]

theorem State.Kept.cpsLook {acc : State × _} (h : s.Kept acc.1) {q} : s.Kept (Machine.sweepLook acc q).1 := by
  dsimp only [Machine.sweepLook]
  split
  · exact h
  · split
    exacts [.ifFst (.ifFst h.setWay h.mk) h, h]

theorem State.Kept.fillPlace (h : s.Kept u) {key} : s.Kept (u.fillPlace key).1 := by
  dsimp only [State.fillPlace]
  split
  · exact h
  · split
    · split
      exacts [(h.foldlFst fun _ _ h => h.cpsLook).writeBack.setWay, h.foldlFst fun _ _ h => h.cpsLook]
    · exact h.foldlFst fun _ _ h => h.cpsLook

theorem State.Kept.keepWay (h : s.Kept u) {w} : s.Kept (u.keepWay w).1 := by
  unfold State.keepWay
  split
  · rename_i t _ e
    exact .writeWay (.of_fst e h.fillPlace)
  · rename_i t e
    exact .of_fst e h.fillPlace

theorem State.Kept.keepFill (h : s.Kept u) {w} : s.Kept (u.keepFill w) := h.keepWay.doIf fun _ h => h.addF

theorem State.Kept.updEntry (h : s.Kept u) {key g} : s.Kept (u.updEntry key g) :=
  h.mapWays.if_ (.if_ (by split; exacts [h.seeLines.keepFill, h]) h)

theorem State.Kept.installNeg (h : s.Kept u) {key since} : s.Kept (u.installNeg key since) := h.keepWay

theorem State.Kept.freeSpentNeg (h : s.Kept u) : s.Kept u.freeSpentNeg := h.mapWays

theorem State.Kept.releaseHold (h : s.Kept u) {ident} : s.Kept (u.releaseHold ident) := h.mapWays

theorem State.Kept.releaseAll (h : s.Kept u) : s.Kept u.releaseAll := h.mapWays

theorem State.Kept.cpsMoves (h : s.Kept u) {n x b} : Opt.Kept id s (cpsMoves n x b u) := by
  induction n generalizing u x b with
  | zero => exact .none
  | succ n ih =>
    dsimp only [Machine.cpsMoves]
    split
    · exact .some h.openBelow.writeWay
    · split
      exacts [.some h.openBelow.writeWay.writeWay, ih h.openBelow.writeWay]

theorem State.Kept.placeWay (h : s.Kept u) {w} : Opt.Kept id s (u.placeWay w) := by
  unfold State.placeWay
  split
  · rename_i t _ e
    exact .some (.writeWay (.of_fst e h.fillPlace))
  · rename_i t e
    split
    exacts [.some (.writeWay (.of_fst e h.fillPlace)), .cpsMoves (.of_fst e h.fillPlace)]

theorem State.Kept.deleteNeg (h : s.Kept u) {key} : s.Kept (u.deleteNeg key) := by
  dsimp only [State.deleteNeg]
  split
  exacts [h.writeWay, h.placeWay.getD h]

theorem State.Kept.cuckoo (h : s.Kept u) {n r hk k x b l} : s.Kept (cuckoo n r hk k x b u l).1 := by
  induction n generalizing u x b l with
  | zero => exact h
  | succ n ih =>
    dsimp only [Machine.cuckoo]
    split
    · exact h.open_
    · split
      · exact h.open_
      · split
        exacts [h.open_.writeLine.writeLine, ih h.open_.writeLine]

theorem State.Kept.placeLine (h : s.Kept u) {r hk k x} : s.Kept (u.placeLine r hk k x).1 := by
  dsimp only [State.placeLine]
  split
  · split
    · rename_i t _ e
      exact .of_fst e h.cuckoo
    · exact h.mk
  · exact .ifFst h.writeLine h.writeLine
  · exact h.writeLine

theorem State.Kept.relink (h : s.Kept u) {moved} : s.Kept (u.relink moved) :=
  h.forEach fun _ _ h => by split; exacts [h.doIf fun _ h => h.setWay, h.keepWay]

theorem State.Kept.enterGrv (h : s.Kept u) {st} : s.Kept (u.enterGrv st) := h.setF.updService

theorem State.Kept.lossRule (h : s.Kept u) : s.Kept u.lossRule := (h.forEach fun _ _ h => h.dropAt).mk.addF.mapWays

theorem State.Kept.grvLose (h : s.Kept u) {link} : s.Kept (u.grvLose link) := h.lossRule.mk.setF.setF.grvFlag.updService.if_ h

theorem State.Kept.grvRestart (h : s.Kept u) {link} : s.Kept (u.grvRestart link) := h.grvLose.mk

theorem State.Kept.startBuild (h : s.Kept u) : s.Kept u.startBuild := h.drawBytes.drawBytes.drawBytes.mk.setF.setF.enterGrv

theorem State.Kept.setLink (h : s.Kept u) {j l} : s.Kept (u.setLink j l) := h.mk

/-! ### Operations of Machine/PwrBase.lean -/

theorem State.Kept.setDom (h : s.Kept u) {d st} : s.Kept (u.setDom d st) := h.setF

theorem State.Kept.dropTrans (h : s.Kept u) {d} : s.Kept (u.dropTrans d) := h.mk

theorem State.Kept.domMove (h : s.Kept u) {d src dst} : s.Kept (u.domMove d src dst) := h.dropTrans.setDom.mk

theorem State.Kept.domWake1 (h : s.Kept u) {d} : s.Kept (u.domWake1 d) := by
  dsimp only [State.domWake1]
  split
  exacts [h.if_ (h.setF.dropTrans.setDom.if_ h.setF.domMove), h.if_ h.domMove]

theorem State.Kept.domWake (h : s.Kept u) {d} : s.Kept (u.domWake d) :=
  ((h.doIf fun _ h => h.domWake1.domWake1).doIf fun _ h => h.domWake1).domWake1

theorem State.Kept.inDom (h : s.Kept u) {d g} (hg : ∀ t, s.Kept t → s.KeptR (g t)) : s.KeptR (u.inDom d g) :=
  .ite (hg u h) (.next h.domWake)

theorem State.Kept.pwrFlag (h : s.Kept u) {bit d} : s.Kept (u.pwrFlag bit d) := h.raise

/-! ### Operations of Machine/CulOps.lean -/

theorem State.Kept.putReply (h : s.Kept u) {hd r g} : s.Kept (u.putReply hd r g) := h.if_ (h.mk.if_ (h.emit.signalArmed.if_ h.emit))

theorem State.Kept.complete (h : s.Kept u) {hd r late} : s.Kept (u.complete hd r late) := h.if_ (h.irqAll.postTo.if_ h.irqAll.addF)

theorem State.Kept.finish (h : s.Kept u) {hd r late} : s.Kept (u.finish hd r late) :=
  (h.postCode.if_ h).complete.if_ (h.postCode.if_ h).putReply

theorem State.Kept.endWait (h : s.Kept u) {hd} : s.Kept (u.endWait hd) := h.mk

theorem State.Kept.finishWait (h : s.Kept u) {hd r} : s.Kept (u.finishWait hd r) := h.endWait.finish

theorem State.Kept.putBuf (h : s.Kept u) {hd off bytes} : s.Kept (u.putBuf hd off bytes) := h.if_ h.emit

theorem CmdSpec.Keeps.of_act_refused {c : CmdSpec} (hr : ∀ {s u : State} hd r, s.Kept u → s.Kept (c.refused hd r u))
    (ha : ∀ {s u : State} hd, s.Kept u → (c.act hd u).Kept s) : c.Keeps :=
  fun _ _ hd h => ⟨ha hd h, fun r => hr hd r h⟩

/-- A command whose refusal leaves nothing. -/
theorem CmdSpec.Keeps.of_act {c : CmdSpec} (ha : ∀ {s u : State} hd, s.Kept u → (c.act hd u).Kept s)
    (hr : c.refused = fun _ _ t => t := by rfl) : c.Keeps :=
  .of_act_refused (fun _ _ h => by rw [hr]; exact h) ha

theorem CmdSpec.Keeps.mk {opc need sync own drain twin len bufs pre check objs reads never dom busy act}
    (ha : ∀ {s u : State} hd, s.Kept u → (act hd u).Kept s) :
    (CmdSpec.mk opc need sync own drain twin len bufs pre check objs reads never dom busy (fun _ _ t => t) act).Keeps :=
  .of_act ha

theorem CmdSpec.Keeps.inDom {c : CmdSpec} (hc : c.Keeps) {u} : (c.inDom u).Keeps := by
  unfold CmdSpec.inDom
  split
  · split <;> exact hc
  · exact hc

theorem State.Kept.setSession (h : s.Kept u) {i x} : s.Kept (u.setSession i x) := h.mk

theorem State.Kept.touch (h : s.Kept u) {hd} : s.Kept (u.touch hd) := by
  unfold State.touch
  split
  exacts [h.if_ h.setSession, h]

theorem State.Kept.takeSlot (h : s.Kept u) {r} : s.Kept (u.takeSlot r) := h.addF.mk

theorem State.Kept.pushWait (h : s.Kept u) {hd w objs} : s.Kept (u.pushWait hd w objs) := h.mk

theorem State.Kept.runBody (h : s.Kept u) {c hd} (hc : c.Keeps) : CmdRes.Kept (runBody c hd u) s := by
  unfold Machine.runBody
  split
  exacts [(hc s u hd h).2 _, (hc s u hd h).1]

theorem CmdRes.Kept.settle {r : CmdRes} (hr : r.Kept s) {c hd late} : s.Kept (settle c hd late r) := by
  cases r with
  | done r t => exact State.Kept.finish hr
  | later w t => exact (State.Kept.endWait hr).pushWait

theorem State.Kept.startCmd (h : s.Kept u) {c hd} (hc : c.Keeps) : s.Kept (startCmd c hd u) := by
  unfold Machine.startCmd
  split
  · split
    exacts [h.putReply, h.putReply.if_ h.putReply.mk]
  · split
    · split
      exacts [.putReply ((hc s u hd h).2 _), h.putReply.pushWait]
    · exact (h.runBody hc).settle

theorem State.Kept.runCmd (h : s.Kept u) {c sl} (hc : c.Keeps) : s.KeptR (runCmd c sl u) := by
  dsimp only [Machine.runCmd]
  refine .ite (.next h) (.ite (.next h.mk) (.ite (.next h) ?_))
  split
  · exact .next h.takeSlot.putReply
  · split
    exacts [.next h.domWake, .next (h.takeSlot.touch.startCmd hc.inDom)]

/-! ### Operations of Machine/KeyOps.lean -/

theorem State.Kept.setKs (h : s.Kept u) {i k} : s.Kept (u.setKs i k) := h.mk

theorem State.Kept.putKs (h : s.Kept u) {i k} : s.Kept (u.putKs i k) := h.setKs.forEach fun _ _ h => h.clearPoison

theorem State.Kept.fpxSlotEvt (h : s.Kept u) {bit slot} : s.Kept (u.fpxSlotEvt bit slot) := h.raise

theorem State.Kept.keyFlag (h : s.Kept u) {bit slot} : s.Kept (u.keyFlag bit slot) := h.raise

theorem State.Kept.wakeSlot (h : s.Kept u) {i} : s.Kept (u.wakeSlot i) :=
  (h.setKs.doIf fun _ h => h.fpxSlotEvt).doIf fun _ h => h.fpxSlotEvt

theorem State.Kept.wakeArmed (h : s.Kept u) {i} : s.Kept (u.wakeArmed i) := h.wakeSlot.if_ h

theorem State.Kept.unpend (h : s.Kept u) {i} : s.Kept (u.unpend i) := h.setKs

theorem State.Kept.secySwitch (h : s.Kept u) {old new} : s.Kept (u.secySwitch old new) :=
  h.forEach fun _ _ h => .if_ (by split; exacts [h.wr, h]) h

theorem State.Kept.secyDropRx (h : s.Kept u) {old} : s.Kept (u.secyDropRx old) := h.forEach fun _ _ h => h.forEach fun _ _ h => h.wr.if_ h

theorem State.Kept.exhaust (h : s.Kept u) {i} : s.Kept (u.exhaust i) := by
  dsimp only [State.exhaust]
  split
  · exact (h.setKs.wakeArmed.if_ h.setKs).fpxSlotEvt.unpend.mk.secySwitch.fpxSlotEvt.if_ (h.setKs.wakeArmed.if_
      h.setKs).fpxSlotEvt.unpend.mk
  · exact (h.setKs.wakeArmed.if_ h.setKs).fpxSlotEvt

theorem State.Kept.useSlot (h : s.Kept u) {i} : s.Kept (u.useSlot i) :=
  (h.setKs.fpxSlotEvt.if_ h.setKs).exhaust.if_ (h.setKs.fpxSlotEvt.if_ h.setKs)

theorem State.Kept.nextInv (h : s.Kept u) {i} : s.Kept (u.nextInv i) := h.exhaust.if_ h.setKs

theorem State.Kept.loadSlot (h : s.Kept u) {i alg frame material salt ident} : s.Kept (u.loadSlot i alg frame material salt ident) :=
  h.drawBytes.putKs

theorem State.Kept.emptySlot (h : s.Kept u) {i} : s.Kept (u.emptySlot i) := h.putKs

theorem State.Kept.zeroSlot (h : s.Kept u) {i} : s.Kept (u.zeroSlot i) := h.if_ h.putKs

theorem State.Kept.dropRoll (h : s.Kept u) {r} : s.Kept (u.dropRoll r) := h.mk

theorem State.Kept.rollSwitch (h : s.Kept u) {r late} : s.Kept (u.rollSwitch r late) := by
  unfold State.rollSwitch
  extract_lets o n ok t1 t2 _ t3 _ t4 t5 _ t6 t7
  have h1 : s.Kept t1 := h.wakeSlot.if_ h
  have h7 : s.Kept t7 := by
    refine .if_ ?_ h1.unpend.unpend.setKs.dropRoll.fpxSlotEvt
    exact (h1.unpend.setKs.if_ h1.unpend).mk.secySwitch.fpxSlotEvt
  exact h7.fpxSlotEvt.if_ h7

theorem State.Kept.rollsAtZero (h : s.Kept u) : s.Kept u.rollsAtZero := h.forEach fun _ _ h => h.rollSwitch

theorem State.Kept.graceAtZero (h : s.Kept u) : s.Kept u.graceAtZero := h.mk

theorem State.Kept.foldSlot (h : s.Kept u) {i j} : s.Kept (u.foldSlot i j) := h.putKs.emptySlot

theorem State.Kept.graceEnd (h : s.Kept u) {i} : s.Kept (u.graceEnd i) := by
  unfold State.graceEnd
  extract_lets k r t1 t2 j n takes foldable t3
  clear_value r
  have h1 : s.Kept t1 := by
    subst t1
    split
    exacts [h.dropRoll, h]
  have h2 : s.Kept t2 := h1.secyDropRx
  have h3 : s.Kept t3 := h2.emptySlot
  exact h2.foldSlot.if_ ((h3.fpxSlotEvt.if_ h3).if_ (h2.if_ h2.unpend))

theorem State.Kept.execKeyGraceEnd (h : s.Kept u) {slot} : s.KeptR (execKeyGraceEnd slot u) := .ite (.next h.graceEnd) (.next h)

/-! ### Operations of Machine/Time.lean -/

theorem State.Kept.gacFlag (h : s.Kept u) {bit zero} : s.Kept (u.gacFlag bit zero) := h.mk.if_ h.raise

theorem State.Kept.postGathered (h : s.Kept u) : s.Kept u.postGathered := h.mk.forEach fun _ _ h => h.wr.if_ h.raise

theorem State.Kept.showSlew (h : s.Kept u) : s.Kept u.showSlew := h.setB

theorem State.Kept.enterGac (h : s.Kept u) {st zero} : s.Kept (u.enterGac st zero) := h.if_ h.setF.gacFlag

theorem State.Kept.startAcq (h : s.Kept u) {mains} : s.Kept (u.startAcq mains) := h.setF.setF.mk

theorem State.Kept.endAcq (h : s.Kept u) : s.Kept u.endAcq := h.setF.showSlew

theorem State.Kept.mainsUp (h : s.Kept u) : s.Kept u.mainsUp := h.if_ (h.gacFlag.if_ (h.gacFlag.if_ h.gacFlag.startAcq))

theorem State.Kept.phasorUp (h : s.Kept u) : s.Kept u.phasorUp := h.if_ (h.gacFlag.startAcq.if_ h.gacFlag)

theorem State.Kept.toHoldover (h : s.Kept u) {zero} : s.Kept (u.toHoldover zero) := h.wr.setF.enterGac.gacFlag

theorem State.Kept.mainsDown (h : s.Kept u) {zero} : s.Kept (u.mainsDown zero) :=
  ((h.endAcq.if_ h).toHoldover.if_ (h.endAcq.if_ h)).startAcq.if_ ((h.endAcq.if_ h).toHoldover.if_ (h.endAcq.if_ h))

theorem State.Kept.phasorDown (h : s.Kept u) : s.Kept u.phasorDown :=
  (h.setF.endAcq.if_ h.setF).toHoldover.if_ (h.setF.endAcq.if_ h.setF)

theorem State.Kept.gacReselect (h : s.Kept u) {was zero} : s.Kept (u.gacReselect was zero) :=
  h.setF.if_ ((((((h.setF.mainsDown.if_ h.setF).endAcq.if_ (h.setF.mainsDown.if_ h.setF)).doIf fun _ h => h.toHoldover).if_
    (h.setF.mainsDown.if_ h.setF)).doIf fun _ h => h.startAcq).doIf fun _ h => h.startAcq).showSlew

theorem State.Kept.gacPowerOn (h : s.Kept u) : s.Kept u.gacPowerOn := (h.foldl fun _ _ h => h.setF).setF.setF.mk.showSlew

theorem State.Kept.setMref (h : s.Kept u) {n m} : s.Kept (u.setMref n m) := h.mk

theorem State.Kept.execMrefEdge (h : s.Kept u) {n rise high} : s.KeptR (execMrefEdge n rise high u) := by
  dsimp only [Machine.execMrefEdge]
  refine .ite (.next h) ?_
  refine .ite (.next (h.setMref.setF.mk.if_ h.setMref.setF).mainsUp) ?_
  exact (.ite (.next (h.setMref.setF.mk.if_ h.setMref.setF).mainsDown) (.next (h.setMref.setF.mk.if_ h.setMref.setF)))

theorem State.Kept.execMrefTimeout (h : s.Kept u) {n} : s.KeptR (execMrefTimeout n u) :=
  .ite (.next h) (.ite (.next h.setMref.setF.mainsDown) (.next h.setMref.setF))

theorem State.Kept.execAcquisitionComplete (h : s.Kept u) : s.KeptR (execAcquisitionComplete u) :=
  .ite (.next h.setF.setF.enterGac) (.next h)

theorem State.Kept.execPhasorTimeout (h : s.Kept u) : s.KeptR (execPhasorTimeout u) := .ite (.next h.phasorDown) (.next h)

theorem State.Kept.applyFreq (h : s.Kept u) {f} : s.Kept (u.applyFreq f) := h.wr.mk

theorem State.Kept.applySlew (h : s.Kept u) : s.Kept u.applySlew := h.applyFreq.showSlew

theorem State.Kept.nextFreq (h : s.Kept u) : s.Kept u.nextFreq := by
  dsimp only [State.nextFreq]
  refine .if_ h.open_.applyFreq ?_
  exact (h.open_.applyFreq.if_ (.if_ (by split <;> exact h.open_.applyFreq) (h.open_.applyFreq.if_ h.open_.applySlew)))

theorem State.Kept.ptpLost (h : s.Kept u) : s.Kept u.ptpLost :=
  h.if_ ((h.setF.setF.setF.setF.doIf fun _ h => h.phasorDown).doIf fun _ h => h.enterGac).gacFlag

theorem State.Kept.execPtpLock (h : s.Kept u) : s.KeptR (execPtpLock u) :=
  .ite (.next h) (.next (h.setF.setF.setF.doIf fun _ h => h.enterGac))

theorem State.Kept.execSyncTimeout (h : s.Kept u) : s.KeptR (execSyncTimeout u) := .next h.ptpLost

theorem State.Kept.setTai (h : s.Kept u) {t rate} : s.Kept (u.setTai t rate) := h.mk

theorem State.Kept.execPpsInEdge (h : s.Kept u) : s.KeptR (execPpsInEdge u) := by
  dsimp only [Machine.execPpsInEdge]
  refine .ite (.next h) ?_
  split
  exacts [.next h.setTai.mk, .next (h.open_.setTai.wr.doIf fun _ h => h.ptpLost)]

theorem State.Kept.execPpsOutPulse (h : s.Kept u) : s.KeptR (execPpsOutPulse u) := .next h.emit

theorem State.Kept.stepCycle (h : s.Kept u) : s.Kept u.stepCycle := by
  dsimp only [State.stepCycle]
  split
  exacts [h, h.mk.wr.gacFlag]

theorem State.Kept.recordErr (h : s.Kept u) : s.Kept u.recordErr :=
  .if_ (.mk (by split; exacts [h.mk.wr.setF, h])) (by split; exacts [h.mk.wr.setF, h])

theorem State.Kept.latchZero (h : s.Kept u) : s.Kept u.latchZero := h.wr.setF.wr.setF.setF.setF.addF.setB

theorem State.Kept.holdStep (h : s.Kept u) : s.Kept u.holdStep := (h.enterGac.if_ h.setF).if_ h

theorem State.Kept.gacAtZero (h : s.Kept u) : s.Kept u.gacAtZero := h.stepCycle.recordErr.latchZero.holdStep.nextFreq.mk

/-! ### Operations of Machine/CalOps.lean -/

theorem State.Kept.setCalLane (h : s.Kept u) {k c} : s.Kept (u.setCalLane k c) := h.mk

theorem State.Kept.calFlag (h : s.Kept u) {bit lane core} : s.Kept (u.calFlag bit lane core) := h.raise

theorem State.Kept.showCalibrated (h : s.Kept u) {k} : s.Kept (u.showCalibrated k) := h.setB

theorem State.Kept.calMeasure (h : s.Kept u) {k tx m} : s.Kept (u.calMeasure k tx m) := by
  dsimp only [State.calMeasure]
  split
  exacts [h.wr.setCalLane.showCalibrated, h.addF.setCalLane, h.addF.setCalLane.showCalibrated.calFlag]

theorem State.Kept.padStrobe (h : s.Kept u) {k tx} : s.Kept (u.padStrobe k tx).2 := h.open_

theorem State.Kept.calReceive (h : s.Kept u) {k} : s.Kept (u.calReceive k) := by
  dsimp only [State.calReceive]
  exact h.padStrobe.calMeasure.if_ h

theorem State.Kept.calDelay (h : s.Kept u) {k m} : s.Kept (u.calDelay k m) := by
  dsimp only [State.calDelay]
  split
  exacts [h.wr.setCalLane, h.setCalLane, h.setCalLane.calFlag]

theorem State.Kept.calRestart (h : s.Kept u) {k} : s.Kept (u.calRestart k) := h.setCalLane.showCalibrated

theorem State.Kept.nextPtpSeq (h : s.Kept u) : s.Kept u.nextPtpSeq := h.mk

/-! ### Operations of Machine/LaneOps.lean -/

theorem State.Kept.charge (h : s.Kept u) {left len} : s.Kept (u.charge left len) := h.wr

theorem State.Kept.demoteEvt (h : s.Kept u) {p} : s.Kept (u.demoteEvt p) := h.if_ h.mk.raise

theorem State.Kept.mmFail (h : s.Kept u) {k} : s.Kept (u.mmFail k) := h.raise.if_ h

theorem State.Kept.mmStop (h : s.Kept u) {k} : s.Kept (u.mmStop k) := h.setF.setF.setLane.mmFail.if_ h.setF.setF.setLane

theorem State.Kept.mmStart (h : s.Kept u) {k} : s.Kept (u.mmStart k) := h.setF.setLane

theorem State.Kept.mmUnverified (h : s.Kept u) {k} : s.Kept (u.mmUnverified k) := h.mmStart.if_ h

theorem State.Kept.mmLinkUp (h : s.Kept u) {k} : s.Kept (u.mmLinkUp k) := h.if_ (h.if_ h.emit.setF.setLane)

theorem State.Kept.execMmVerifyTimer (h : s.Kept u) {lane} : s.KeptR (execMmVerifyTimer lane u) :=
  .ite (.next h) (.ite (.next h.emit.setLane) (.next h.setF.mmFail))

theorem State.Kept.execMmVerifyRx (h : s.Kept u) {lane} : s.KeptR (execMmVerifyRx lane u) := .ite (.next h) (.next h.setF.mmStart)

theorem State.Kept.setXt (h : s.Kept u) {k x} : s.Kept (u.setXt k x) := h.mk

theorem State.Kept.extFlag (h : s.Kept u) {bit lane ctx} : s.Kept (u.extFlag bit lane ctx) := h.raise

theorem State.Kept.extLoss (h : s.Kept u) {k} : s.Kept (u.extLoss k) :=
  (h.forEach fun _ _ h => h.setCtx).setXt.extFlag.forEach fun _ _ h => h.extFlag

theorem State.Kept.extLossIfActive (h : s.Kept u) {k} : s.Kept (u.extLossIfActive k) := h.extLoss.if_ h

theorem State.Kept.flushCopy (h : s.Kept u) {c} : s.Kept (u.flushCopy c) := by
  unfold State.flushCopy
  split
  exacts [h.pc, h.charge.if_ h]

theorem State.Kept.linkDownRule (h : s.Kept u) {k} : s.Kept (u.linkDownRule k) :=
  ((h.forEach fun _ _ h => h.flushCopy).forEach fun _ _ h => h.removeCopies).mmStop

theorem State.Kept.lneFlag (h : s.Kept u) {bit lane} : s.Kept (u.lneFlag bit lane) := h.raise

theorem State.Kept.unqualify (h : s.Kept u) {k} : s.Kept (u.unqualify k) := h.setF.setF

theorem State.Kept.pcsCount (h : s.Kept u) {k x} : s.Kept (u.pcsCount k x) := (h.doIf fun _ h => h.addF.addF).addF

theorem State.Kept.leaveUp (h : s.Kept u) {k} : s.Kept (u.leaveUp k) := h.linkDownRule.extLossIfActive.if_ h

theorem State.Kept.laneTo (h : s.Kept u) {k st} : s.Kept (u.laneTo k st) := h.leaveUp.unqualify.setF

theorem State.Kept.laneFail (h : s.Kept u) {k} : s.Kept (u.laneFail k) := h.laneTo.addF.lneFlag.if_ h

theorem State.Kept.alignFail (h : s.Kept u) {k} : s.Kept (u.alignFail k) := h.laneTo.setLane.addF.if_ h.laneTo.setLane

theorem State.Kept.laneDrop (h : s.Kept u) {k} : s.Kept (u.laneDrop k) := h.laneFail.if_ (h.alignFail.if_ h)

theorem State.Kept.laneEnable (h : s.Kept u) {k} : s.Kept (u.laneEnable k) := h.if_ ((h.emit.if_ h).setF.if_ (h.laneTo.if_ h))

theorem State.Kept.lanePower (h : s.Kept u) {k on} : s.Kept (u.lanePower k on) := (h.setF.if_ h).if_ (h.if_ h.laneTo)

theorem State.Kept.twinLinkDown (h : s.Kept u) : s.Kept u.twinLinkDown := h.setF.wr.mk.doIf fun _ h => h.raise

theorem State.Kept.setTl (h : s.Kept u) {j st} : s.Kept (u.setTl j st) := h.mk.setB.doIf fun _ h => h.twinLinkDown

theorem State.Kept.twinLanes (h : s.Kept u) : s.Kept u.twinLanes := h.if_ (h.forEach fun _ _ h => (h.setTl.if_ h).if_ (h.if_ h.setTl))

theorem State.Kept.signalDetect (h : s.Kept u) {k} : s.Kept (u.signalDetect k) := h.if_ (h.setF.setF.if_ h.setF)

theorem State.Kept.laneWake (h : s.Kept u) {k pattern} : s.Kept (u.laneWake k pattern) :=
  (h.doIf fun _ h => h.addF).if_ (h.setLane.lneFlag.domWake.if_ h)

theorem State.Kept.execSignalDetect (h : s.Kept u) {lane} : s.KeptR (execSignalDetect lane u) := by
  unfold Machine.execSignalDetect
  split
  exacts [.next h.signalDetect, .ite (.next h.setTl) (.ite (.next h.domWake) (.next h))]

theorem State.Kept.execSignalLoss (h : s.Kept u) {lane} : s.KeptR (execSignalLoss lane u) := by
  dsimp only [Machine.execSignalLoss]
  split
  exacts [.ite (.next h.setTl) (.next h), .ite (.next h.laneFail.setF) (.ite (.next h.alignFail.setF) (.next h.setF))]

theorem State.Kept.execLinkFault (h : s.Kept u) {lane cause} : s.KeptR (execLinkFault lane cause u) := by
  dsimp only [Machine.execLinkFault]
  split
  · exact .ite (.next h.setTl) (.next h)
  · refine .ite (.next h) ?_
    split
    exacts [.next h.laneFail, .next h.laneFail.setF, .next h.laneFail.setF, .next h.laneFail.setF, .next h.laneFail]

theorem State.Kept.execAlignTimeout (h : s.Kept u) {lane} : s.KeptR (execAlignTimeout lane u) := by
  unfold Machine.execAlignTimeout
  split
  exacts [.ite (.next h.setTl) (.next h), .ite (.next h.alignFail) (.next h)]

theorem State.Kept.laneIsUp (h : s.Kept u) {k speed} : s.Kept (u.laneIsUp k speed) :=
  h.setF.setF.setB.setF.setF.setF.setF.setLane.lneFlag.mk.mmLinkUp.emit.doIf fun _ h => h.emit

theorem State.Kept.execRefclkLoss (h : s.Kept u) {n} : s.KeptR (execRefclkLoss n u) :=
  .next (((h.setF.doIf fun _ h => h.forEach fun _ _ h => h.setTl.if_ h).forEach fun _ _ h => h.laneDrop.setLane).forEach fun _ _ h =>
    h.lneFlag)

theorem State.Kept.execRefclkRestored (h : s.Kept u) {n} : s.KeptR (execRefclkRestored n u) :=
  .next (h.setF.forEach fun _ _ h => h.setLane)

theorem State.Kept.execExtHoldExpire (h : s.Kept u) {lane} : s.KeptR (execExtHoldExpire lane u) :=
  .ite (.next h) (.next (h.forEach fun _ _ h => h.setCtx).extFlag.setXt)

theorem State.Kept.execMkaPeerTimeout (h : s.Kept u) {lane} : s.KeptR (execMkaPeerTimeout lane u) := .ite (.next h.extLoss) (.next h)

theorem State.Kept.execLldpTtlExpire (h : s.Kept u) {lane} : s.KeptR (execLldpTtlExpire lane u) := .next h.extLossIfActive

theorem State.Kept.execLldpTxInterval (h : s.Kept u) {lane} : s.KeptR (execLldpTxInterval lane u) := .ite (.next h.emit) (.next h)

theorem State.Kept.execLldpRx (h : s.Kept u) {lane preempt portExt} : s.KeptR (execLldpRx lane preempt portExt u) := by
  dsimp only [Machine.execLldpRx]
  refine .ite (.next h) ?_
  refine .ite ?_ (.next h.calReceive.setLane.mmUnverified)
  refine .ite (.next h.calReceive.setLane.mmUnverified.setXt) ?_
  exact (.ite (.next h.calReceive.setLane.mmUnverified.setXt) (.next h.calReceive.setLane.mmUnverified))

/-! ### Operations of Machine/SluOps.lean -/

theorem State.Kept.enterEntry (h : s.Kept u) {p tx n} : s.Kept (u.enterEntry p tx n) := h.wr.if_ h.wr

theorem State.Kept.gcmJob (h : s.Kept u) {dike n} : s.Kept (u.gcmJob dike n).2 := by
  dsimp only [State.gcmJob]
  split
  exacts [h, h.mk]

theorem State.Kept.ptpEdit (h : s.Kept u) {f c b} : s.Kept (u.ptpEdit f c b).1 := by
  dsimp only [State.ptpEdit]
  split
  exacts [h, .ifFst h (.ifFst h.mk (.ifFst (by split; exacts [h.mk, h]) h))]

theorem State.Kept.copyInner (h : s.Kept u) {f c} : s.Kept (u.copyInner f c).1 := .ifFst h h.ptpEdit

theorem State.Kept.txSaFrom (h : s.Kept u) {base n} : s.Kept (txSaFrom base n u).1 := by
  induction n generalizing u with
  | zero => exact h
  | succ n ih =>
    have hd {i} {c : Bool} : s.Kept (u.doIf c (·.exhaust i)) := h.doIf fun _ h => h.exhaust
    dsimp only [Machine.txSaFrom]
    split
    · exact h
    · split
      · exact hd
      · split
        · exact hd
        · split
          exacts [ih hd.wr, hd]

theorem State.Kept.txSa (h : s.Kept u) {base} : s.Kept (u.txSa base).1 := by
  dsimp only [State.txSa]
  split
  exacts [h, h.txSaFrom]

theorem State.Kept.setCopy (h : s.Kept u) {ident c} : s.Kept (u.setCopy ident c) := by
  unfold State.setCopy
  split
  exacts [h.setFrame, h]

theorem State.Kept.countWaits (h : s.Kept u) {k} : s.Kept (u.countWaits k) := h.forEach fun _ _ h => h.setCopy.doIf fun _ h => h.pc

theorem State.Kept.dropCopy (h : s.Kept u) {ident c} : s.Kept (u.dropCopy ident c) := h.removeCopies.countWaits

theorem State.Kept.queueOwn (h : s.Kept u) {k b} : s.Kept (u.queueOwn k b) := h.mk.if_ h

theorem State.Kept.protectCopy (h : s.Kept u) {base an i c b} : s.Kept (u.protectCopy base an i c b).1 := h.gcmJob.wr64.useSlot.pc

theorem State.Kept.refuseCopy (h : s.Kept u) {f c port off} : s.Kept (u.refuseCopy f c port off) := h.countDiscard.dropCopy.pc

theorem State.Kept.latMax (h : s.Kept u) {f c} : s.Kept (u.latMax f c) := h.setF

theorem State.Kept.startCopy (h : s.Kept u) {f c} : s.Kept (u.startCopy f c) := by
  unfold State.startCopy
  extract_lets base
  have hs : s.Kept (if c.raw then (u, TxSa.clear) else u.txSa base).1 := by
    split
    exacts [h, h.txSa]
  generalize (if c.raw then (u, TxSa.clear) else u.txSa base) = q at hs ⊢
  split
  · exact .refuseCopy hs
  · exact .refuseCopy hs
  · next t _ _ _ =>
    have h0 : s.Kept t := hs
    split
    next t1 b e =>
    have h1 : s.Kept t1 := .of_fst e h0.copyInner
    split
    next t2 b core slot e =>
    have h2 : s.Kept t2 := by
      refine .of_fst e ?_
      split
      exacts [h1.protectCopy, h1]
    extract_lets poisoned k t3 t4 t5
    refine h2.refuseCopy.if_ ?_
    have h3 : s.Kept t3 := by
      subst t3
      split
      exacts [h2.setFrame, h2]
    have h4 : s.Kept t4 := h3.setCopy
    have h5 : s.Kept t5 := by
      refine .if_ ?_ h4
      split
      exacts [h4.queueOwn, h4]
    exact (h5.doIf fun _ h => h.pc.latMax).countWaits

theorem State.Kept.preempt (h : s.Kept u) {k x} : s.Kept (u.preempt k x) := by
  unfold State.preempt
  exact h.emit.setCopy.doIf fun _ h => h.pc

theorem State.Kept.resume (h : s.Kept u) {k x} : s.Kept (u.resume k x) := h.setCopy.addF

theorem State.Kept.startId (h : s.Kept u) {x} : s.Kept (u.startId x) := by
  unfold State.startId
  split
  exacts [h.startCopy, h]

theorem State.Kept.startLow (h : s.Kept u) {k x} : s.Kept (u.startLow k x) := h.startId.setLane

theorem State.Kept.calSkip (h : s.Kept u) {k} : s.Kept (u.calSkip k) := h.setLane.addF.if_ h

theorem State.Kept.sendCal (h : s.Kept u) {k} : s.Kept (u.sendCal k) := by
  dsimp only [State.sendCal]
  exact h.setLane.emit.padStrobe.calMeasure

theorem State.Kept.sendPdelay (h : s.Kept u) {k} : s.Kept (u.sendPdelay k) := h.nextPtpSeq.setLane.setCalLane.emit

theorem State.Kept.lowStarve (h : s.Kept u) {k} : s.Kept (u.lowStarve k) := h.setLane.raise.if_ h

theorem State.Kept.stompEvt (h : s.Kept u) {p} : s.Kept (u.stompEvt p) := h.if_ h.mk.raise

theorem State.Kept.countStomp (h : s.Kept u) {f c} : s.Kept (u.countStomp f c) := by
  unfold State.countStomp
  split
  exacts [h.pc, h.pc, h.pc, h.pc, h.pc, h.pc.raise]

/-! ### Operations of Machine/FrameOps.lean -/

theorem State.Kept.dupCheck (h : s.Kept u) {f e} : Opt.Kept id s (u.dupCheck f e) := by
  dsimp only [State.dupCheck]
  split
  exacts [.some h, .ite (.some h) (.ite (.some (h.updEntry.pc.if_ h.updEntry)) .none)]

theorem State.Kept.discardDup (h : s.Kept u) {f e} : s.Kept (u.discardDup f e) := h.updEntry.freeFrame.pc.countStream

theorem State.Kept.countHeldDrops (h : s.Kept u) {f ps} : s.Kept (u.countHeldDrops f ps) := h.forEach fun _ _ h => h.pc

theorem State.Kept.enqueue (h : s.Kept u) {ident p} : s.Kept (u.enqueue ident p) := by
  dsimp only [State.enqueue]
  split
  exacts [h, h.pc.if_ ((h.pc.demoteEvt.if_ h).mk.setFrame.doIf fun _ h => h.countWaits)]

theorem State.Kept.handTo (h : s.Kept u) {f ps} : s.Kept (u.handTo f ps) := h.countHeldDrops.forEach fun _ _ h => h.enqueue

theorem State.Kept.toRing (h : s.Kept u) {f reason} : s.Kept (u.toRing f reason) := h.addF.if_ (h.addF.if_ h.emit.post)

theorem State.Kept.hostDeliver (h : s.Kept u) {f} : s.Kept (u.hostDeliver f) := by
  dsimp only [State.hostDeliver]
  split
  exacts [h, h.countDiscard.pc.if_ h.mk.toRing]

theorem State.Kept.dikeCells (h : s.Kept u) {f} : s.Kept (u.dikeCells f).2 := by
  unfold State.dikeCells
  split
  · rename_i t e
    exact .setFrame (.of_snd e h.pushOut)
  · rename_i t e
    exact .of_snd e h.pushOut

theorem State.Kept.ingressJob (h : s.Kept u) {f} : s.Kept (u.ingressJob f).1 := .ifFst h h.gcmJob

theorem State.Kept.takeIn (h : s.Kept u) {f ports} : s.Kept (u.takeIn f ports) := by
  dsimp only [State.takeIn]
  refine .if_ ?_ ?_
  · split
    · rename_i t e
      exact .dikeBasinDrop (.of_snd e h.ingressJob.mk.dikeCells)
    · rename_i t e
      exact .handTo (.setFrame (.of_snd e h.ingressJob.mk.dikeCells))
  · refine .if_ h.ingressJob.mk.dropAt ?_
    refine .if_ h.ingressJob.mk.setFrame.dropAt ?_
    split
    exacts [h.ingressJob.mk.setFrame.dropAt, h.ingressJob.mk.setFrame.setFrame.pc.if_ h.ingressJob.mk.setFrame.setFrame]

theorem State.Kept.decide_ (h : s.Kept u) {f e} : s.Kept (u.decide_ f e) := by
  unfold State.decide_
  extract_lets cls f' t gate after
  have ht : s.Kept t := h.setFrame
  have ha : Opt.Kept id s after := by
    subst after
    split
    exacts [ht.dupCheck, .some ht]
  clear_value after
  split
  · exact ht.dropAt
  · refine .if_ ht.dropAt ?_
    split
    · exact ht.discardDup
    · exact ht
    · next t =>
      have h0 : s.Kept t := ha t rfl
      extract_lets demote t1 c t2 f2 t3
      have h1 : s.Kept t1 := (h0.pc.demoteEvt.if_ h0.pc).if_ h0
      have h3 : s.Kept t3 := (h1.doIf fun _ h => h.charge).setFrame
      clear_value t3
      split
      · split
        exacts [h3.dropAt, h3.dropFrame]
      · extract_lets t4
        have h4 : s.Kept t4 := by
          subst t4
          split
          exacts [h3.pc, h3]
        exact h4.countHeldDrops.dropFrame.if_ h4.takeIn

/-! ### Operations of Machine/KeyRows.lean -/

theorem State.Kept.splitKey (h : s.Kept u) {alg bytes} : s.Kept (u.splitKey alg bytes).2.2 := by
  dsimp only [State.splitKey]
  split
  exacts [h.openBytes, h]

theorem State.Kept.stageFor (h : s.Kept u) {slot} : s.Kept (u.stageFor slot) := by
  dsimp only [State.stageFor]
  split
  exacts [h.if_ h.addF.mk, h]

theorem State.Kept.execKeyWindowStage (h : s.Kept u) {slot off value} : s.KeptR (execKeyWindowStage slot off value u) :=
  h.inDom fun _ h => .next h.stageFor.mk

theorem State.Kept.execKeyWindowCommit (h : s.Kept u) {slot value} : s.KeptR (execKeyWindowCommit slot value u) := by
  dsimp only [Machine.execKeyWindowCommit]
  refine h.inDom fun _ h => ?_
  split
  exacts [.next h.stageFor.mk.keyFlag, .ite (.next h.stageFor.mk.loadSlot) (.next h.stageFor.mk.keyFlag)]

theorem State.Kept.startKdf (h : s.Kept u) {v} : s.Kept (u.startKdf v) := h.keyFlag.if_ h.mk

theorem State.Kept.execKdfToWork (h : s.Kept u) {value} : s.KeptR (execKdfToWork value u) :=
  h.inDom fun _ h => .ite (.next h.startKdf) (.next h)

theorem State.Kept.execKdfToFld (h : s.Kept u) {value} : s.KeptR (execKdfToFld value u) :=
  h.inDom fun _ h => .ite (.next h.startKdf) (.next h)

theorem State.Kept.execKeyDeriveDone (h : s.Kept u) : s.KeptR (execKeyDeriveDone u) := by
  dsimp only [Machine.execKeyDeriveDone]
  split
  · exact .next h
  · split
    · exact .next h.mk.keyFlag
    · exact .next (.if_ (.mk (by split; exacts [h.mk.emptySlot, h.mk])) (.mk (by split; exacts [h.mk.emptySlot, h.mk])))

theorem State.Kept.clearWork (h : s.Kept u) : s.Kept u.clearWork := h.mk

theorem State.Kept.execKeyMoveSlot (h : s.Kept u) {value} : s.KeptR (execKeyMoveSlot value u) := by
  dsimp only [Machine.execKeyMoveSlot]
  refine h.inDom fun _ h => ?_
  refine .ite (.next h) ?_
  split
  exacts [.ite (.next h.splitKey.loadSlot.clearWork) (.next h.keyFlag), .next h.keyFlag]

theorem State.Kept.execKeyMovePke (h : s.Kept u) {value} : s.KeptR (execKeyMovePke value u) := by
  dsimp only [Machine.execKeyMovePke]
  refine h.inDom fun _ h => ?_
  refine .ite (.next h) ?_
  split
  exacts [.ite (.next h.mk.clearWork) (.next h.keyFlag), .next h.keyFlag]

theorem State.Kept.execKeyWorkClear (h : s.Kept u) {value} : s.KeptR (execKeyWorkClear value u) :=
  h.inDom fun _ h => .ite (.next h.clearWork) (.next h)

theorem State.Kept.execRootEraseDone (h : s.Kept u) : s.KeptR (execRootEraseDone u) :=
  .ite (.next h) (.next (h.mk.setB.forEach fun _ _ h => h.finishWait))

theorem State.Kept.execSlotOverwriteDone (h : s.Kept u) : s.KeptR (execSlotOverwriteDone u) := .ite (.next h) (.next h.mk.keyFlag)

/-! ### Operations of Machine/CiqRows.lean -/

theorem State.Kept.ciqPut (h : s.Kept u) {d} : s.Kept (u.ciqPut d) := by
  dsimp only [State.ciqPut]
  split
  exacts [h.memWrite.setF.irqAll.forEach fun _ _ h => h.finishWait, h.memWrite.setF.irqAll]

theorem State.Kept.ciqEnd (h : s.Kept u) {d} : s.Kept (u.ciqEnd d) := h.ciqPut.if_ h.mk

theorem State.Kept.ciqDrain (h : s.Kept u) {n} : s.Kept (State.ciqDrain n u) := by
  induction n generalizing u with
  | zero => exact h
  | succ n ih =>
    unfold State.ciqDrain
    split
    exacts [h.if_ (ih h.mk.ciqPut), h]

theorem State.Kept.ciqWrite (h : s.Kept u) {r n} : s.Kept (u.ciqWrite r n) := h.storeBytes

theorem State.Kept.ciqStopOne (h : s.Kept u) {r status} : s.Kept (u.ciqStopOne r status) := by
  dsimp only [State.ciqStopOne]
  exact h.openBelow.ciqWrite.ciqEnd

theorem State.Kept.ciqStopAll (h : s.Kept u) {status} : s.Kept (u.ciqStopAll status) :=
  (h.mk.forEach fun _ _ h => h.ciqStopOne).forEach fun _ _ h => h.ciqEnd

theorem State.Kept.ciqQuiesce (h : s.Kept u) : s.Kept u.ciqQuiesce := h.ciqStopAll.setB

theorem State.Kept.ciqZeroized (h : s.Kept u) {p} : s.Kept (u.ciqZeroized p) :=
  (h.mk.forEach fun _ _ h => h.ciqStopOne).forEach fun _ _ h => h.ciqEnd

theorem State.Kept.ciqAdd (h : s.Kept u) {r} : s.Kept (u.ciqAdd r) := h.if_ (h.setF.if_ h.mk.domWake.domWake)

theorem State.Kept.ciqWord (h : s.Kept u) {q v} : s.Kept (u.ciqWord q v) := h.mk.if_ h.mk.ciqAdd

theorem State.Kept.execCiqDescriptorSubmit (h : s.Kept u) {q value} : s.KeptR (execCiqDescriptorSubmit q value u) :=
  .ite (.next h.ciqWord) (.next h)

theorem State.Kept.ciqIv (h : s.Kept u) {r i} : s.Kept (u.ciqIv r i).2 := .ifSnd h.nextInv (.ifSnd h.nextInv h)

theorem State.Kept.execCiqRequestStart (h : s.Kept u) {core aad inp tag key} : s.KeptR (execCiqRequestStart core aad inp tag key u) := by
  dsimp only [Machine.execCiqRequestStart]
  split
  · exact .next h
  · refine .ite (.next h) ?_
    split
    · exact .next h.mk.ciqEnd
    · split
      exacts [.next h.mk.eccRead.useSlot.ciqEnd, .next h.mk.eccRead.ciqIv.useSlot.mk]

theorem State.Kept.execCiqRequestDone (h : s.Kept u) {core poison agree ecc} : s.KeptR (execCiqRequestDone core poison agree ecc u) := by
  dsimp only [Machine.execCiqRequestDone]
  split
  · exact .next h
  · split
    · exact .next h.mk.eccSpan.eccSpan.ciqWrite.ciqEnd
    · refine .ite (.next h.mk.eccSpan.eccSpan.openBelow.ciqWrite.ciqEnd) ?_
      refine .ite ?_ (.next (h.mk.eccSpan.eccSpan.ciqWrite.storeBytes.if_ h.mk.eccSpan.eccSpan.ciqWrite).ciqEnd)
      refine .ite (.next (h.mk.eccSpan.eccSpan.if_ h.mk.eccSpan.eccSpan.addF.blaze).ciqWrite.ciqEnd) ?_
      exact (.next (h.mk.eccSpan.eccSpan.if_ h.mk.eccSpan.eccSpan.addF.blaze).ciqEnd)

theorem State.Kept.execCiqCringHeadWrite (h : s.Kept u) {head} : s.KeptR (execCiqCringHeadWrite head u) := .next h.setF.ciqDrain

theorem specCiqSubmit_keeps : specCiqSubmit.Keeps := .of_act fun _ h => h.mk.ciqAdd

theorem State.Kept.execCmdCiqSubmit (h : s.Kept u) {sl} : s.KeptR (execCmdCiqSubmit sl u) := h.runCmd specCiqSubmit_keeps

theorem specCiqStatus_keeps : specCiqStatus.Keeps := .of_act fun _ h => h

theorem State.Kept.execCmdCiqStatus (h : s.Kept u) {sl} : s.KeptR (execCmdCiqStatus sl u) := h.runCmd specCiqStatus_keeps

/-! ### Operations of Machine/PkeCalc.lean -/

theorem State.Kept.sign (h : s.Kept u) {alg priv msg} : s.Kept (u.sign alg priv msg).2 := h.open_

theorem State.Kept.storeKey (h : s.Kept u) {i t k} : s.Kept (u.storeKey i t k) := h.loadSlot.forEach fun _ _ h => h.loadSlot

theorem State.Kept.run (h : s.Kept u) {j} : s.Kept (PkeIn.run j u).2.2 := by
  dsimp only [PkeIn.run]
  split
  · exact h.drawBytes.useSlot.if_ h.drawBytes
  · exact h
  · exact (h.drawBytes.useSlot.if_ h.drawBytes).loadSlot
  · exact h.drawBytes.storeKey
  · exact h.drawBytes.useSlot.if_ h.drawBytes

/-! ### Operations of Machine/PkeRows.lean -/

theorem State.Kept.pkeFlag (h : s.Kept u) {bit rtag} : s.Kept (u.pkeFlag bit rtag) := h.raise

theorem State.Kept.pkePut (h : s.Kept u) {d} : s.Kept (u.pkePut d) := h.memWrite.setF.irqAll

theorem State.Kept.pkeEnd (h : s.Kept u) {j status ok bytes detail} : s.Kept (u.pkeEnd j status ok bytes detail) := by
  unfold State.pkeEnd
  exact (h.addF.mk.if_ h.addF.mk).pkePut.if_ (h.addF.mk.if_ h.addF.mk).mk

theorem State.Kept.pkeNext (h : s.Kept u) : s.Kept u.pkeNext := h.if_ (by split; exacts [h, h.mk])

theorem State.Kept.pkeAdd (h : s.Kept u) {j} : s.Kept (u.pkeAdd j) := h.if_ (h.setB.pkeFlag.if_ h.mk.domWake.pkeNext)

theorem State.Kept.pkeWord (h : s.Kept u) {v owner} : s.Kept (u.pkeWord v owner) := h.mk.if_ h.mk.pkeAdd

theorem State.Kept.execPkeJobSubmit (h : s.Kept u) {value owner} : s.KeptR (execPkeJobSubmit value owner u) :=
  .ite (.next h.pkeWord) (.next h)

theorem State.Kept.execPkeYieldPoint (h : s.Kept u) : s.KeptR (execPkeYieldPoint u) := by
  dsimp only [Machine.execPkeYieldPoint]
  split
  · exact .next h
  · split
    exacts [.next h.mk, .ite (.next h.mk) (.next h.mk)]

theorem State.Kept.pkeStopAll (h : s.Kept u) {status} : s.Kept (u.pkeStopAll status) := h.mk.forEach fun _ _ h => h.pkeEnd

theorem State.Kept.pkeQuiesce (h : s.Kept u) : s.Kept u.pkeQuiesce := h.pkeStopAll.setB

theorem State.Kept.pkeBreach (h : s.Kept u) : s.Kept u.pkeBreach := h.pkeStopAll.mk

theorem State.Kept.pkeZeroized (h : s.Kept u) {p} : s.Kept (u.pkeZeroized p) := (h.mk.forEach fun _ _ h => h.pkeEnd).pkeNext

theorem State.Kept.pkeDip (h : s.Kept u) : s.Kept u.pkeDip := h.mk

theorem State.Kept.pkeSettled (h : s.Kept u) : s.Kept u.pkeSettled := (h.mk.forEach fun _ _ h => h.pkeFlag).pkeNext

theorem State.Kept.pkeDecode (h : s.Kept u) {j ecc} : s.Kept (u.pkeDecode j ecc) :=
  ((h.doIf fun _ h => h.eccSpan).doIf fun _ h => h.eccSpan).doIf fun _ h => h.eccSpan

theorem State.Kept.pkeJobDone (h : s.Kept u) {fault msg key sig ecc} : s.Kept (u.pkeJobDone fault msg key sig ecc).1 := by
  dsimp only [State.pkeJobDone]
  split
  · exact h
  · refine .ifFst (.ifFst h.addF.pkeFlag.mk h.addF.pkeFlag.mk.pkeEnd.pkeNext) ?_
    split
    · exact h.mk.pkeDecode.pkeEnd.pkeNext
    · split
      · exact h.mk.pkeDecode.pkeEnd.pkeNext
      · split
        exacts [h.mk.pkeDecode.pkeEnd.pkeNext, (h.mk.pkeDecode.run.storeBytes.if_ h.mk.pkeDecode.run.storeBytes).pkeEnd.pkeNext]

theorem State.Kept.pkeDrain (h : s.Kept u) {n} : s.Kept (State.pkeDrain n u) := by
  induction n generalizing u with
  | zero => exact h
  | succ n ih =>
    unfold State.pkeDrain
    split
    exacts [h.if_ (ih h.mk.pkePut), h]

theorem State.Kept.execPkeCringHeadWrite (h : s.Kept u) {head} : s.KeptR (execPkeCringHeadWrite head u) := .next h.setF.pkeDrain.pkeNext

/-! ### Operations of Machine/KeyCmds.lean -/

theorem specKeyLoad_keeps : specKeyLoad.Keeps := .of_act fun _ h => by
  dsimp only [specKeyLoad]
  split
  exacts [h.useSlot, .ite h.useSlot h.useSlot.loadSlot]

theorem State.Kept.execCmdKeyLoad (h : s.Kept u) {sl} : s.KeptR (execCmdKeyLoad sl u) := h.runCmd specKeyLoad_keeps

theorem specKeyDerive_keeps : specKeyDerive.Keeps := .of_act fun _ h => (h.emptySlot.if_ h).splitKey.loadSlot

theorem State.Kept.execCmdKeyDerive (h : s.Kept u) {sl} : s.KeptR (execCmdKeyDerive sl u) := h.runCmd specKeyDerive_keeps

theorem specKeyActivate_keeps : specKeyActivate.Keeps := .of_act fun _ h => h.wakeSlot

theorem State.Kept.execCmdKeyActivate (h : s.Kept u) {sl} : s.KeptR (execCmdKeyActivate sl u) := h.runCmd specKeyActivate_keeps

theorem specKeyArm_keeps : specKeyArm.Keeps := .of_act fun _ h => h.setKs

theorem State.Kept.execCmdKeyArm (h : s.Kept u) {sl} : s.KeptR (execCmdKeyArm sl u) := h.runCmd specKeyArm_keeps

theorem specKeyLimit_keeps : specKeyLimit.Keeps := .of_act fun _ h => h.setKs

theorem State.Kept.execCmdKeyLimit (h : s.Kept u) {sl} : s.KeptR (execCmdKeyLimit sl u) := h.runCmd specKeyLimit_keeps

theorem specKeyDelete_keeps : specKeyDelete.Keeps := .of_act fun _ h => h.mk.emptySlot

theorem State.Kept.execCmdKeyDelete (h : s.Kept u) {sl} : s.KeptR (execCmdKeyDelete sl u) := h.runCmd specKeyDelete_keeps

theorem State.Kept.endHolders (h : s.Kept u) {p} : s.Kept (u.endHolders p) := h.forEach fun _ _ h => h.finishWait

theorem State.Kept.zeroizeSlots (h : s.Kept u) {l} : s.Kept (u.zeroizeSlots l) :=
  (h.pkeZeroized.ciqZeroized.forEach fun _ _ h => h.zeroSlot).endHolders

theorem specKeyZeroize_keeps : specKeyZeroize.Keeps := .of_act fun _ h => h.zeroizeSlots.if_ h.zeroizeSlots.raise

theorem State.Kept.execCmdKeyZeroize (h : s.Kept u) {sl} : s.KeptR (execCmdKeyZeroize sl u) := h.runCmd specKeyZeroize_keeps

theorem specKeyClear_keeps : specKeyClear.Keeps := .of_act fun _ h => h.emptySlot

theorem State.Kept.execCmdKeyClear (h : s.Kept u) {sl} : s.KeptR (execCmdKeyClear sl u) := h.runCmd specKeyClear_keeps

theorem specKeySlotRead_keeps : specKeySlotRead.Keeps := .of_act fun _ h => h

theorem State.Kept.execCmdKeySlotRead (h : s.Kept u) {sl} : s.KeptR (execCmdKeySlotRead sl u) := h.runCmd specKeySlotRead_keeps

theorem specAttCert_keeps : specAttCert.Keeps := .of_act fun _ h => h.putBuf

theorem State.Kept.execCmdAttCert (h : s.Kept u) {sl} : s.KeptR (execCmdAttCert sl u) := h.runCmd specAttCert_keeps

/-! ### Operations of Machine/NvOps.lean -/

theorem State.Kept.setProt (h : s.Kept u) {sec} : s.Kept (u.setProt sec) := h.wr

theorem State.Kept.nvWrite (h : s.Kept u) {a bs} : s.Kept (u.nvWrite a bs) := h.forEach fun _ _ h => h.mk

theorem State.Kept.nvErase (h : s.Kept u) {sec} : s.Kept (u.nvErase sec) := h.mk

theorem State.Kept.journal (h : s.Kept u) {kind sector arg} : s.Kept (u.journal kind sector arg) := h.mk.setF

theorem State.Kept.nvEraseJ (h : s.Kept u) {sec} : s.Kept (u.nvEraseJ sec) := h.journal.nvErase.journal

theorem State.Kept.nvUnits (h : s.Kept u) {o from_ to_} : s.Kept (u.nvUnits o from_ to_) :=
  (h.forEach fun _ _ h => h.nvErase.journal.journal.if_ h.nvErase.journal).if_ (h.forEach fun _ _ h => h.nvErase.journal.journal.if_
    h.nvErase.journal).nvWrite

theorem State.Kept.nvFlag (h : s.Kept u) {bit sector addr} : s.Kept (u.nvFlag bit sector addr) := h.raise

theorem State.Kept.nvResult (h : s.Kept u) {status sector addr} : s.Kept (u.nvResult status sector addr) :=
  (h.mk.setF.setF.if_ h.mk.setF.setF.setF).nvFlag.irqAll

theorem State.Kept.badLoad (h : s.Kept u) : s.Kept u.badLoad :=
  h.forEach fun _ _ h => h.if_ ((h.doIf fun _ h => h.nvWrite).doIf fun _ h => h.nvWrite).mk

theorem State.Kept.nvRestore (h : s.Kept u) {o} : s.Kept (u.nvRestore o) := h.forEach fun _ _ h => h.if_ (h.if_ h.nvEraseJ).nvWrite

theorem State.Kept.nvRemap (h : s.Kept u) {o sec addr} : s.Kept (u.nvRemap o sec addr) := by
  dsimp only [State.nvRemap]
  split
  · exact h.nvFlag
  · exact (h.journal.nvWrite.nvWrite.mk.nvEraseJ.nvWrite.if_ h.journal.nvWrite.nvWrite.mk.nvEraseJ).nvFlag.doIf fun _ h => h.nvFlag

theorem State.Kept.stageIn (h : s.Kept u) {o} : s.Kept (u.stageIn o) := h.mk

theorem State.Kept.nvBegin (h : s.Kept u) {o} : s.Kept (u.nvBegin o) :=
  (h.mk.setF.setF.stageIn.if_ h.mk.setF.setF).journal.if_ (h.mk.setF.setF.stageIn.if_ h.mk.setF.setF)

theorem State.Kept.nvStart (h : s.Kept u) {o} : s.Kept (u.nvStart o) := h.domWake.mk.if_ h.domWake.nvBegin

theorem State.Kept.nvNext (h : s.Kept u) : s.Kept u.nvNext := h.if_ (by split; exacts [h.mk.nvBegin, h])

theorem State.Kept.recordWrite (h : s.Kept u) {keys cred} : s.Kept (u.recordWrite keys cred) := h.journal.nvUnits.mk

/-! ### Operations of Machine/TwinOps.lean -/

theorem State.Kept.twinSend (h : s.Kept u) {msg body} : s.Kept (u.twinSend msg body) := h.mk.emit

theorem State.Kept.twinTake (h : s.Kept u) {r} : s.Kept (u.twinTake r) := h.mk

theorem State.Kept.sendReady (h : s.Kept u) {r} : s.Kept (u.sendReady r) := h.twinSend

/-! ### Operations of Machine/CfgOps.lean -/

theorem State.Kept.dropShadow (h : s.Kept u) : s.Kept u.dropShadow := h.mapWays.mk

theorem State.Kept.placeShadow (h : s.Kept u) {l} : Opt.Kept id s (u.placeShadow l) := by
  induction l generalizing u with
  | nil => exact .some h
  | cons e l ih =>
    unfold State.placeShadow
    refine .ite (ih h) ?_
    split
    · rename_i e
      exact ih (.of_some e h.placeWay)
    · exact .none

theorem State.Kept.shdWr (h : s.Kept u) {a v} : s.Kept (u.shdWr a v) := h.mk

theorem State.Kept.fillBank (h : s.Kept u) {c p} : s.Kept (u.fillBank c p) := h.forEach fun _ _ h => h.shdWr.shdWr.mk

theorem State.Kept.showShadow (h : s.Kept u) : s.Kept u.showShadow := h.setF.setF.setF

theorem State.Kept.stage (h : s.Kept u) {hd img q must card} : CmdRes.Kept (u.stage hd img q must card) s := by
  dsimp only [State.stage]
  split
  · exact h
  · refine .ite h ?_
    split
    · exact h
    · rename_i t e
      exact .nvStart (.wr64 (.showShadow (.mk (.forEach (.of_some e h.dropShadow.placeShadow) fun _ _ h => h.fillBank))))

theorem State.Kept.cfgFlag (h : s.Kept u) {bit seq cycle} : s.Kept (u.cfgFlag bit seq cycle) := h.raise

theorem State.Kept.commitFail (h : s.Kept u) {r} : s.Kept (u.commitFail r) := h.mk.showShadow.wr64.forEach fun _ _ h => h.finishWait

theorem State.Kept.commitProgram (h : s.Kept u) : s.Kept u.commitProgram := by
  dsimp only [State.commitProgram]
  split
  exacts [h.if_ (h.if_ (h.commitFail.if_ h.mk.nvStart)), h]

theorem State.Kept.commitStart (h : s.Kept u) {n image} : s.Kept (u.commitStart n image) := by
  dsimp only [State.commitStart]
  split
  exacts [h.mk.showShadow.wr64.commitProgram, h]

theorem State.Kept.dropShadowAll (h : s.Kept u) : s.Kept u.dropShadowAll := (h.commitFail.if_ h).dropShadow.mk.showShadow

theorem State.Kept.sessionShadow (h : s.Kept u) {i} : s.Kept (u.sessionShadow i) := by
  unfold State.sessionShadow
  split
  exacts [h.dropShadowAll.cfgFlag.if_ h, h]

theorem State.Kept.commitRecordStep (h : s.Kept u) : s.Kept u.commitRecordStep := by
  dsimp only [State.commitRecordStep]
  split
  exacts [h.if_ (h.commitFail.if_ (h.commitFail.if_ h.nvWrite.mk.wr64)), h]

/-! ### Operations of Machine/SessOps.lean -/

theorem State.Kept.cancelAtCycle (h : s.Kept u) {i} : s.Kept (u.cancelAtCycle i) := h.mk.forEach fun _ _ h => h.finish

theorem State.Kept.closeSession (h : s.Kept u) {i reason} : s.Kept (u.closeSession i reason) := by
  dsimp only [State.closeSession]
  split
  · exact h
  · split
    exacts [h.cancelAtCycle.sessionShadow.setSession.postCode, h.cancelAtCycle.sessionShadow.setSession]

theorem State.Kept.closeSessions (h : s.Kept u) {p reason} : s.Kept (u.closeSessions p reason) := h.forEach fun _ _ h => h.closeSession

/-! ### Operations of Machine/CfgRows.lean -/

theorem State.Kept.put (h : s.Kept u) {a v} : s.Kept (u.put a v) := by
  unfold State.put
  split
  exacts [h.wr, h]

theorem State.Kept.putAll (h : s.Kept u) {l} : s.Kept (u.putAll l) := h.forEach fun _ _ h => h.put

theorem State.Kept.mmChange (h : s.Kept u) {k was} : s.Kept (u.mmChange k was) :=
  h.mmStop.if_ (h.mmLinkUp.mmUnverified.if_ h.mmUnverified)

theorem State.Kept.calChange (h : s.Kept u) {k was} : s.Kept (u.calChange k was) := h.if_ h.setF

theorem State.Kept.putLane (h : s.Kept u) {c k hold} : s.Kept (u.putLane c k hold) := h.putAll.laneEnable.mmChange.calChange

theorem State.Kept.putPort (h : s.Kept u) {c p} : s.Kept (u.putPort c p) :=
  (h.putAll.if_ (h.putAll.put.if_ h.putAll.put)).doIf fun _ h => h.extFlag

theorem State.Kept.swapBanks (h : s.Kept u) : s.Kept u.swapBanks := (h.forEach fun _ _ h => h.wr.shdWr).mk

theorem State.Kept.putSluice (h : s.Kept u) {c p} : s.Kept (u.putSluice c p) := h.forEach fun _ _ h => h.wr.wr.mk

theorem State.Kept.bindPort (h : s.Kept u) {c p} : s.Kept (u.bindPort c p) := h.putPort.putSluice

theorem State.Kept.clearLine (h : s.Kept u) {key} : s.Kept (u.clearLine key) := h.forEach fun _ _ h => by split; exacts [h.writeLine, h]

theorem State.Kept.swapStatics (h : s.Kept u) {c} : s.Kept (u.swapStatics c) :=
  (h.mapWays.forEach fun _ _ h => h.setWay).forEach fun _ _ h => h.clearLine

theorem State.Kept.startMigration (h : s.Kept u) {k} : s.Kept (u.startMigration k) := h.if_ h.drawBytes.mk.enterGrv

theorem State.Kept.putSet (h : s.Kept u) {c held il2} : s.Kept (u.putSet c held il2) :=
  (((h.putAll.forEach fun _ _ h => h.putLane).putAll.forEach fun _ _ h => h.wr).forEach fun _ _ h => h.putPort).wr

theorem State.Kept.commitDone (h : s.Kept u) : s.Kept u.commitDone := h.forEach fun _ _ h => h.finishWait

theorem State.Kept.cfgSwap (h : s.Kept u) {n sh late} : s.Kept (u.cfgSwap n sh late) := by
  unfold State.cfgSwap
  extract_lets c tgt t1 t2 t3 t4 dr older _ t5 t6 t7 t8 t9 t10 t11 t12
  have h4 : s.Kept t4 := (h.putSet.gacReselect.swapBanks.forEach fun _ _ h => h.putSluice).swapStatics
  have h9 : s.Kept t9 := h4.mk.setF.setF.addF.wr64.setB.showShadow.cfgFlag
  have h12 : s.Kept t12 := ((h9.doIf fun _ h => h.cfgFlag).doIf fun _ h => h.startMigration).doIf fun _ h => h.cfgFlag
  exact h12.if_ h12.wr64.commitDone

theorem State.Kept.cfgAtZero (h : s.Kept u) : s.Kept u.cfgAtZero := by
  dsimp only [State.cfgAtZero]
  split
  exacts [h, h.if_ (by split; exacts [(h.if_ h.commitRecordStep).cfgSwap, h.if_ h.commitRecordStep])]

theorem State.Kept.execCfgCommitRecord (h : s.Kept u) : s.KeptR (execCfgCommitRecord u) := by
  unfold Machine.execCfgCommitRecord
  split
  exacts [.ite (.next h.commitRecordStep) (.next h), .next h]

theorem State.Kept.extOff (h : s.Kept u) {k} : s.Kept (u.extOff k) := (h.forEach fun _ _ h => h.setCtx).setXt

theorem State.Kept.drainLane (h : s.Kept u) {c k} : s.Kept (u.drainLane c k) :=
  (h.laneDrop.put.doIf fun _ h => h.extOff).forEach fun _ _ h => h.putPort

theorem State.Kept.drainApply (h : s.Kept u) {d} : s.Kept (u.drainApply d) :=
  ((h.forEach fun _ _ h => h.drainLane).put.grvRestart.if_ (h.forEach fun _ _ h =>
    h.drainLane)).mk.setF.showShadow.wr64.cfgFlag.commitDone

theorem State.Kept.execDrainPhaseEnd (h : s.Kept u) : s.KeptR (execDrainPhaseEnd u) := by
  dsimp only [Machine.execDrainPhaseEnd]
  split
  exacts [.next h, .ite (.next h.mk.setF) (.next h.drainApply)]

theorem State.Kept.nvFailed (h : s.Kept u) {o x2} : s.Kept (u.nvFailed o x2) := (h.nvRemap.doIf fun _ h => h.nvRestore).nvFlag.nvResult

theorem State.Kept.nvHost (h : s.Kept u) {ring idx r} : s.Kept (u.nvHost ring idx r) := h.forEach fun _ _ h => h.finishWait

theorem State.Kept.nvEffect (h : s.Kept u) {o} : s.Kept (u.nvEffect o) := by
  dsimp only [State.nvEffect]
  split
  exacts [h, h.mk.closeSessions.if_ h.mk, h]

theorem State.Kept.nvUserEnd (h : s.Kept u) {o status addr} : s.Kept (u.nvUserEnd o status addr) := by
  refine State.Kept.nvNext ?_
  split
  · exact h
  · exact h.nvHost
  · exact (h.doIf fun _ h => h.nvStart).if_ (h.commitProgram.if_ (h.commitFail.if_ h))
  · split
    exacts [h.mk.nvStart.if_ (h.commitFail.if_ (h.commitFail.if_ h.mk)), h]

theorem State.Kept.execNvOpDone (h : s.Kept u) {fail} : s.KeptR (execNvOpDone fail u) := by
  dsimp only [Machine.execNvOpDone]
  split
  · exact .next h
  · refine .ite (.next h) ?_
    refine .ite (.next h.nvFlag.nvResult.nvUserEnd) ?_
    split
    · exact .next h.nvResult.nvUserEnd
    · split
      exacts [.next h.nvUnits.nvResult.nvEffect.nvUserEnd, .next h.nvUnits.nvFailed.nvUserEnd]

theorem specCfgStage_keeps : specCfgStage.Keeps := .of_act fun _ h => h.stage

theorem State.Kept.execCmdCfgStage (h : s.Kept u) {sl} : s.KeptR (execCmdCfgStage sl u) := h.runCmd specCfgStage_keeps

theorem State.Kept.commitTake (h : s.Kept u) {n x2} : CmdRes.Kept (u.commitTake n x2) s := .ite h h.commitStart

theorem specCfgCommit_keeps : specCfgCommit.Keeps := .of_act fun _ h => .ite (.ite h.sendReady.twinTake.commitTake h.sendReady)
    h.commitTake

theorem State.Kept.execCmdCfgCommit (h : s.Kept u) {sl} : s.KeptR (execCmdCfgCommit sl u) := h.runCmd specCfgCommit_keeps

theorem specCfgAbort_keeps : specCfgAbort.Keeps := .of_act fun _ h => h.dropShadowAll

theorem State.Kept.execCmdCfgAbort (h : s.Kept u) {sl} : s.KeptR (execCmdCfgAbort sl u) := h.runCmd specCfgAbort_keeps

theorem specCfgRead_keeps : specCfgRead.Keeps := .of_act fun _ h => h.putBuf

theorem State.Kept.execCmdCfgRead (h : s.Kept u) {sl} : s.KeptR (execCmdCfgRead sl u) := h.runCmd specCfgRead_keeps

theorem specCfgStatus_keeps : specCfgStatus.Keeps := .of_act fun _ h => h

theorem State.Kept.execCmdCfgStatus (h : s.Kept u) {sl} : s.KeptR (execCmdCfgStatus sl u) := h.runCmd specCfgStatus_keeps

/-! ### Operations of Machine/DmaOps.lean -/

theorem State.Kept.setCh (h : s.Kept u) {n c} : s.Kept (u.setCh n c) := h.mk

theorem State.Kept.dmaIrq (h : s.Kept u) {n} : s.Kept (u.dmaIrq n) := h.irq

theorem State.Kept.dmaMsix (h : s.Kept u) {n} : s.Kept (u.dmaMsix n) := h.msix

theorem State.Kept.dmaShow (h : s.Kept u) {n st} : s.Kept (u.dmaShow n st) := by
  dsimp only [State.dmaShow]
  split
  · exact .setF (by split; exacts [h.setF.setB.setF, h.setF.setB])
  · split
    exacts [h.setF.setB.setF, h.setF.setB]

theorem State.Kept.dmaHalt (h : s.Kept u) {n cause core host} : s.Kept (u.dmaHalt n cause core host) := by
  dsimp only [State.dmaHalt]
  refine .doIf (.doIf (.dmaShow (.setF (.setF (.setCh ?_)))) fun _ h => h.dmaIrq) fun _ h => h.dmaMsix
  split
  exacts [h.setF, h]

theorem State.Kept.dmaBack (h : s.Kept u) {n d status done result detail} : s.Kept (u.dmaBack n d status done result detail) :=
  h.emit.addF.setF

theorem State.Kept.dmaTake (h : s.Kept u) {n r} : s.Kept (u.dmaTake n r).2 := h.setF

theorem State.Kept.dmaFirst (h : s.Kept u) {n ds} : s.Kept (u.dmaFirst n ds).1 := by
  dsimp only [State.dmaFirst]
  split
  exacts [.ifFst h.dmaTake.setCh.setF h, h]

theorem State.Kept.dmaFetch (h : s.Kept u) {n ds} : s.Kept (u.dmaFetch n ds) := by
  dsimp only [State.dmaFetch]
  exact .dmaShow (by split; exacts [h.dmaFirst.dmaTake.setCh.if_ h.dmaFirst, h.dmaFirst])

theorem State.Kept.dmaEnd (h : s.Kept u) {n d status done result detail next} : s.Kept (u.dmaEnd n d status done result detail next) :=
  h.dmaBack.dmaHalt.if_ (((h.dmaBack.doIf fun _ h => h.dmaIrq).doIf fun _ h => h.dmaMsix).setCh.setF.dmaShow.dmaFetch.if_
    ((h.dmaBack.doIf fun _ h => h.dmaIrq).doIf fun _ h => h.dmaMsix).setCh.setF.dmaShow.dmaFetch)

theorem State.Kept.dmaWrite (h : s.Kept u) {a bs} : s.Kept (u.dmaWrite a bs) :=
  h.if_ (by split; exacts [h.emit, h.memWrite, h.mk, h.mk, h])

theorem State.Kept.dmaRun (h : s.Kept u) {n d limit x} : s.Kept (u.dmaRun n d limit x).1 := by
  dsimp only [State.dmaRun]
  refine .ifFst h ?_
  refine .ifFst h ?_
  split
  · exact h.dmaWrite
  · split
    exacts [(h.doIf fun _ h => h.eccSpan).dmaWrite.mk, (h.doIf fun _ h => h.eccSpan).dmaWrite]
  · split
    · exact .ifFst ((h.doIf fun _ h => h.eccSpan).doIf fun _ h => h.eccSpan) ((h.doIf fun _ h => h.eccSpan).doIf fun _ h => h.eccSpan).mk
    · exact ((h.doIf fun _ h => h.eccSpan).doIf fun _ h => h.eccSpan).mk
    · exact (h.doIf fun _ h => h.eccSpan).doIf fun _ h => h.eccSpan
    · exact (h.doIf fun _ h => h.eccSpan).doIf fun _ h => h.eccSpan

theorem State.Kept.dmaUndefined (h : s.Kept u) {k n} : s.Kept (u.dmaUndefined k n) := by
  induction k generalizing u with
  | zero => exact h
  | succ k ih =>
    unfold State.dmaUndefined
    split
    exacts [h.if_ (ih h.dmaEnd), h]

theorem State.Kept.dmaStep (h : s.Kept u) {n op x next} : s.Kept (u.dmaStep n op x next) := by
  dsimp only [State.dmaStep]
  split
  exacts [h.if_ (h.dmaEnd.dmaUndefined.if_ ((h.forEach fun _ _ h => h.domWake).if_ h.dmaRun.dmaEnd.dmaUndefined)), h]

theorem State.Kept.dmaWindowLost (h : s.Kept u) : s.Kept u.dmaWindowLost := h.forEach fun _ _ h => h.dmaHalt

theorem State.Kept.dmaCxlLost (h : s.Kept u) : s.Kept u.dmaCxlLost := h.forEach fun _ _ h => by split; exacts [h.dmaEnd.if_ h, h]

theorem State.Kept.dmaOff (h : s.Kept u) {n} : s.Kept (u.dmaOff n) := h.setCh.setF.setF.dmaShow

theorem State.Kept.dmaAbort (h : s.Kept u) {n blocks x} : s.Kept (u.dmaAbort n blocks x) :=
  h.if_ (by split; exacts [h.dmaHalt, h.dmaRun.dmaBack.dmaHalt])

theorem State.Kept.dmaCtl (h : s.Kept u) {n v} : s.Kept (u.dmaCtl n v) := h.wr

theorem State.Kept.execDmaEnable (h : s.Kept u) {n comp value} : s.KeptR (execDmaEnable n comp value u) :=
  .ite (.next h) (.ite (.next h.dmaCtl) (.ite (.next h.dmaCtl.setF) (.next h.dmaCtl.setF.setF.setF.setCh.setF.dmaShow)))

theorem State.Kept.execDmaDisable (h : s.Kept u) {n comp value} : s.KeptR (execDmaDisable n comp value u) :=
  .ite (.next h) (.next h.dmaCtl.dmaOff)

theorem State.Kept.execDmaAbort (h : s.Kept u) {n comp blocks feed} : s.KeptR (execDmaAbort n comp blocks feed u) :=
  .ite (.next h) (.next h.dmaAbort)

theorem State.Kept.execDmaDoorbell (h : s.Kept u) {n comp tail descs} : s.KeptR (execDmaDoorbell n comp tail descs u) :=
  .ite (.next h) (.ite (.next h.setF) (.next h.setF.dmaFetch.dmaUndefined))

theorem State.Kept.execDmaCopy (h : s.Kept u) {n feed next} : s.KeptR (execDmaCopy n feed next u) := .next h.dmaStep

theorem State.Kept.execDmaFill (h : s.Kept u) {n next} : s.KeptR (execDmaFill n next u) := .next h.dmaStep

theorem State.Kept.execDmaCompare (h : s.Kept u) {n feed next} : s.KeptR (execDmaCompare n feed next u) := .next h.dmaStep

/-! ### Operations of Machine/CulRows.lean -/

theorem State.Kept.windowLoss (h : s.Kept u) : s.Kept u.windowLoss := h.resetRegs.mk.closeSessions.dmaWindowLost

theorem State.Kept.execCulWinCtlWrite (h : s.Kept u) {value} : s.KeptR (execCulWinCtlWrite value u) :=
  .ite (.ite (.next h) (.next (h.setF.if_ h.setF))) (.next (h.windowLoss.if_ h))

theorem State.Kept.execFunctionLevelReset (h : s.Kept u) : s.KeptR (execFunctionLevelReset u) := .next h.windowLoss.mk

theorem State.Kept.execHostLinkDown (h : s.Kept u) : s.KeptR (execHostLinkDown u) := .next h.windowLoss.mk

theorem State.Kept.execBusMasterChange (h : s.Kept u) {on descs} : s.KeptR (execBusMasterChange on descs u) := by
  dsimp only [Machine.execBusMasterChange]
  refine .ite (.next h.mk) ?_
  refine .ite (.next h) ?_
  exact (.next (((h.mk.forEach fun _ _ h => h.putReply).forEach fun _ _ h => h.drainRing).forEach fun _ _ h =>
    h.dmaFetch.dmaUndefined.if_ h))

theorem State.Kept.ringBad (h : s.Kept u) {event r} : s.Kept (u.ringBad event r) := h.setF.wr

theorem State.Kept.cringCtl (h : s.Kept u) {r v} : s.Kept (u.cringCtl r v) := h.wr

theorem State.Kept.execCringEnable (h : s.Kept u) {r value} : s.KeptR (execCringEnable r value u) :=
  .ite (.next h) (.ite (.next h.cringCtl) (.ite (.next h.cringCtl.ringBad) (.next h.cringCtl.mk.setF.wr.setF.setF)))

theorem State.Kept.execCringDisable (h : s.Kept u) {r value} : s.KeptR (execCringDisable r value u) :=
  .ite (.next h) (.ite (.next h.cringCtl) (.next h.cringCtl.setF.setF.closeSessions))

theorem State.Kept.eringCtl (h : s.Kept u) {e v} : s.Kept (u.eringCtl e v) := h.wr

theorem State.Kept.flushBoot (h : s.Kept u) : s.Kept u.flushBoot := h.if_ (h.mk.forEach fun _ _ h => h.postCode)

theorem State.Kept.execEringEnable (h : s.Kept u) {e value} : s.KeptR (execEringEnable e value u) := by
  dsimp only [Machine.execEringEnable]
  refine .ite (.next h) ?_
  exact (.ite (.next h.eringCtl) (.ite (.next h.eringCtl.ringBad) (.next h.eringCtl.setF.wr.setF.setF.arm.flushBoot)))

theorem State.Kept.execEringDisable (h : s.Kept u) {e value} : s.KeptR (execEringDisable e value u) :=
  .ite (.next h) (.ite (.next h.eringCtl) (.next h.eringCtl.setF.setF.addF.setHeldEv.setLostNow))

theorem State.Kept.cringError (h : s.Kept u) {r cause} : s.Kept (u.cringError r cause) := h.setF.setF.postCode

theorem State.Kept.eringError (h : s.Kept u) {e cause} : s.Kept (u.eringError e cause) := h.setF.setF.postCode

theorem State.Kept.execCringDoorbell (h : s.Kept u) {r value} : s.KeptR (execCringDoorbell r value u) := by
  dsimp only [Machine.execCringDoorbell]
  refine .ite (.next h) ?_
  refine .ite (.next (h.irqAll.doIf fun _ h => h.arm)) ?_
  exact (.ite (.next (h.irqAll.doIf fun _ h => h.arm).cringError) (.next (h.irqAll.doIf fun _ h => h.arm).setF.mk))

theorem State.Kept.execSlotReadError (h : s.Kept u) {r} : s.KeptR (execSlotReadError r u) := .ite (.next h.setF.cringError) (.next h)

theorem State.Kept.execEringDoorbell (h : s.Kept u) {e value} : s.KeptR (execEringDoorbell e value u) :=
  .ite (.next h) (.ite (.next h.eringError) (.next (h.setF.arm.doIf fun _ h => h.signalArmed).drainRing))

theorem State.Kept.execSessionIdleExpire (h : s.Kept u) {i} : s.KeptR (execSessionIdleExpire i u) := by
  unfold Machine.execSessionIdleExpire
  split
  exacts [.ite (.next h.closeSession) (.next h), .next h]

theorem State.Kept.countRefusal (h : s.Kept u) {k} : s.Kept (u.countRefusal k) := h.mk.if_ h.mk

theorem State.Kept.clearRefusals (h : s.Kept u) {k} : s.Kept (u.clearRefusals k) := h.mk

theorem State.Kept.execOpkeyLockExpire (h : s.Kept u) {k} : s.KeptR (execOpkeyLockExpire k u) := by
  dsimp only [Machine.execOpkeyLockExpire]
  split
  exacts [.ite (.next h.mk) (.next h), .next h]

theorem specDevInfo_keeps : specDevInfo.Keeps := .of_act fun _ h => h

theorem State.Kept.execCmdDevInfo (h : s.Kept u) {sl} : s.KeptR (execCmdDevInfo sl u) := h.runCmd specDevInfo_keeps

theorem specChallenge_keeps : specChallenge.Keeps := .of_act fun _ h => by
  dsimp only [specChallenge]
  exact .done (h.drawBytes.openBelow (n := 2 ^ 32)).mk

theorem State.Kept.execCmdDevSessionChallenge (h : s.Kept u) {sl} : s.KeptR (execCmdDevSessionChallenge sl u) :=
  h.runCmd specChallenge_keeps

theorem State.Kept.openSession (h : s.Kept u) {i ring role key} : s.Kept (u.openSession i ring role key).2 := h.setSession.mk

theorem specOpen_keeps {card} : (specOpen card).Keeps := .of_act fun _ h => by
  dsimp only [specOpen]
  split
  · exact h.mk.countRefusal
  · split
    exacts [h.mk, h.mk.clearRefusals.openSession]

theorem State.Kept.execCmdDevSessionOpen (h : s.Kept u) {sl card} : s.KeptR (execCmdDevSessionOpen sl card u) := h.runCmd specOpen_keeps

theorem specClose_keeps : specClose.Keeps := .of_act fun _ h => h.closeSession

theorem State.Kept.execCmdDevSessionClose (h : s.Kept u) {sl} : s.KeptR (execCmdDevSessionClose sl u) := h.runCmd specClose_keeps

theorem specEnrol_keeps : specEnrol.Keeps := .of_act fun _ h => h.nvStart

theorem State.Kept.execCmdDevOpkeyEnrol (h : s.Kept u) {sl} : s.KeptR (execCmdDevOpkeyEnrol sl u) := h.runCmd specEnrol_keeps

theorem specRevoke_keeps : specRevoke.Keeps := .of_act fun _ h => h.nvStart

theorem State.Kept.execCmdDevOpkeyRevoke (h : s.Kept u) {sl} : s.KeptR (execCmdDevOpkeyRevoke sl u) := h.runCmd specRevoke_keeps

/-! ### Operations of Machine/NvRows.lean -/

theorem State.Kept.nvRefused (h : s.Kept u) {sec prot} : s.Kept (u.nvRefused sec prot) := (h.doIf fun _ h => h.nvFlag).nvResult

theorem State.Kept.nvGo (h : s.Kept u) {kind restore sec} : s.Kept (u.nvGo kind restore sec) := by
  dsimp only [State.nvGo]
  refine .if_ h.domWake ?_
  refine .if_ h.domWake.nvRefused ?_
  refine .if_ h.domWake.nvRefused ?_
  refine .if_ h.domWake.nvRefused ?_
  split
  · exact h.domWake.nvRefused
  · split
    exacts [h.domWake.nvResult, h.domWake.nvBegin]

theorem State.Kept.nvOpWrite (h : s.Kept u) {value} : s.Kept (u.nvOpWrite value) := h.wr.nvGo.if_ h.wr

theorem State.Kept.execNvaProgramStart (h : s.Kept u) {restore sector} : s.KeptR (execNvaProgramStart restore sector u) :=
  .next h.nvOpWrite

theorem State.Kept.execNvaEraseStart (h : s.Kept u) {restore sector} : s.KeptR (execNvaEraseStart restore sector u) := .next h.nvOpWrite

theorem State.Kept.nvDip (h : s.Kept u) : s.Kept u.nvDip := by
  dsimp only [State.nvDip]
  split
  exacts [h, h.if_ h.openBelow.nvUnits.mk]

theorem State.Kept.nvCut (h : s.Kept u) {o} : s.Kept (u.nvCut o) := by
  dsimp only [State.nvCut]
  exact (h.openBytes.nvErase.if_ h.openBytes).nvWrite

theorem State.Kept.nvDipSettled (h : s.Kept u) {exact} : s.Kept (u.nvDipSettled exact) := by
  dsimp only [State.nvDipSettled]
  split
  exacts [h, h.if_ (h.nvUnits.mk.if_ (h.setF.nvFlag.nvCut.doIf fun _ h => h.nvRestore).nvResult.nvUserEnd)]

theorem specNvaRead_keeps : specNvaRead.Keeps := .of_act fun _ h => h.putBuf

theorem State.Kept.execCmdNvaRead (h : s.Kept u) {sl} : s.KeptR (execCmdNvaRead sl u) := h.runCmd specNvaRead_keeps

theorem State.Kept.aimRefused (h : s.Kept u) {r} : s.Kept (u.aimRefused r) := h.nvFlag.if_ h

theorem State.Kept.nvHostStart (h : s.Kept u) {o} : CmdRes.Kept (u.nvHostStart o) s := by
  unfold State.nvHostStart
  split
  exacts [h.nvResult, h.nvStart]

theorem specNvaProgram_keeps : specNvaProgram.Keeps := .of_act_refused (fun _ _ h => h.aimRefused) fun _ h => h.nvHostStart

theorem State.Kept.execCmdNvaProgram (h : s.Kept u) {sl} : s.KeptR (execCmdNvaProgram sl u) := h.runCmd specNvaProgram_keeps

theorem specNvaErase_keeps : specNvaErase.Keeps := .of_act_refused (fun _ _ h => h.aimRefused) fun _ h => h.nvHostStart

theorem State.Kept.execCmdNvaErase (h : s.Kept u) {sl} : s.KeptR (execCmdNvaErase sl u) := h.runCmd specNvaErase_keeps

theorem specNvaProtect_keeps : specNvaProtect.Keeps := .of_act fun _ h => h.forEach fun _ _ h => h.setProt

theorem State.Kept.execCmdNvaProtect (h : s.Kept u) {sl} : s.KeptR (execCmdNvaProtect sl u) := h.runCmd specNvaProtect_keeps

theorem specNvaStatus_keeps : specNvaStatus.Keeps := .of_act fun _ h => h

theorem State.Kept.execCmdNvaStatus (h : s.Kept u) {sl} : s.KeptR (execCmdNvaStatus sl u) := h.runCmd specNvaStatus_keeps

theorem specNvaImageLoad_keeps : specNvaImageLoad.Keeps := .of_act fun _ h => h.nvStart

theorem State.Kept.execCmdNvaImageLoad (h : s.Kept u) {sl} : s.KeptR (execCmdNvaImageLoad sl u) := h.runCmd specNvaImageLoad_keeps

/-! ### Operations of Machine/PairOps.lean -/

theorem State.Kept.setPr (h : s.Kept u) {k p} : s.Kept (u.setPr k p) := h.mk

theorem State.Kept.pairRegsReset (h : s.Kept u) {k} : s.Kept (u.pairRegsReset k) := h.resetRegs

theorem State.Kept.pairReset (h : s.Kept u) {k} : s.Kept (u.pairReset k) := h.setPr.pairRegsReset

theorem State.Kept.memZero (h : s.Kept u) {a n} : s.Kept (u.memZero a n) := h.mkMem (Tbl.wf_clear _ _ _)

theorem State.Kept.setApp (h : s.Kept u) {ident a} : s.Kept (u.setApp ident a) := h.mk

theorem State.Kept.pairWake (h : s.Kept u) {k} : s.Kept (u.pairWake k) := h.doIf fun _ h => h.domWake

theorem State.Kept.appFill (h : s.Kept u) {a} : s.Kept (u.appFill a) := h.memZero.memZero.memZero.memWrite.memWrite

theorem State.Kept.appSources (h : s.Kept u) {a} : s.Kept (u.appSources a) := h.forEach fun _ _ h => h.setF

theorem State.Kept.appsRestart (h : s.Kept u) {k} : s.Kept (u.appsRestart k) := h.forEach fun _ _ h => h.appFill.appSources

theorem State.Kept.appStart (h : s.Kept u) {ident core} : Opt.Kept id s (u.appStart ident core) := by
  unfold State.appStart
  -- the searches for a place are made opaque: the kernel would otherwise run them to tell the branches apart
  obtain ⟨place, hp⟩ := exists_eq' (a' := u.appPlace)
  obtain ⟨sram, hs⟩ := exists_eq' (a' := u.appSram)
  rw [hp, hs]
  split
  · exact .none
  · split
    · refine .ite .none (.some ?_)
      exact .setApp (.setPr (.appSources (.forEach h.pairWake.appFill fun _ _ h => h.setF.setF.setF.setF.setF)))
    · exact .none

theorem State.Kept.chanBack (h : s.Kept u) {n} : s.Kept (u.chanBack n) := by
  dsimp only [State.chanBack]
  exact h.openBelow.openBytes.dmaAbort.dmaOff.setF.setF.setF.setF.setF

theorem State.Kept.appEnd (h : s.Kept u) {ident st a} : s.Kept (u.appEnd ident st a) :=
  (((h.pairWake.forEach fun _ _ h => h.chanBack).forEach fun _ _ h => h.setF).memZero.memZero.memZero.doIf fun _ h => h.setPr).setApp

theorem State.Kept.appStop (h : s.Kept u) {ident} : s.Kept (u.appStop ident) := by
  unfold State.appStop
  split
  exacts [h.appEnd.if_ h, h]

theorem State.Kept.appsQuiesce (h : s.Kept u) : s.Kept u.appsQuiesce := h.forEach fun _ _ h => h.appStop

theorem State.Kept.appFault (h : s.Kept u) {ident ecause eval} : s.Kept (u.appFault ident ecause eval) := by
  unfold State.appFault
  split
  exacts [h.appEnd.if_ h, h]

theorem State.Kept.appsHalted (h : s.Kept u) {k} : s.Kept (u.appsHalted k) := h.forEach fun _ _ h => h.appEnd.if_ h

/-! ### Operations of Machine/TmpOps.lean -/

theorem State.Kept.haltFrames (h : s.Kept u) : s.Kept u.haltFrames :=
  (h.forEach fun _ _ h => h.emit).addF.mk.releaseAll.forEach fun _ _ h => h.emit

theorem State.Kept.haltEnd (h : s.Kept u) : s.Kept u.haltEnd := h.forEach fun _ _ h => h.emit

theorem State.Kept.grvBreach (h : s.Kept u) : s.Kept u.grvBreach := h.lossRule.mapWays.mk.setF.setF.setF.grvFlag.updService

theorem State.Kept.breachMain (h : s.Kept u) : s.Kept u.breachMain :=
  (h.mk.ciqStopAll.pkeBreach.forEach fun _ _ h => h.zeroSlot).grvBreach.endHolders.keyFlag.closeSessions

theorem State.Kept.breachBackup (h : s.Kept u) : s.Kept u.breachBackup := h.mk

theorem State.Kept.respActs (h : s.Kept u) {was lvl} : s.Kept (u.respActs was lvl) :=
  (h.doIf fun _ h => h.breachBackup).if_ (((h.doIf fun _ h => h.breachMain).doIf fun _ h => h.haltFrames).doIf fun _ h =>
    h.ciqQuiesce.pkeQuiesce.appsQuiesce)

theorem State.Kept.respondAll (h : s.Kept u) {l} : s.Kept (u.respondAll l) := h.raiseLevel.respActs.forEach fun _ _ h => h.alarmAt

theorem State.Kept.respond (h : s.Kept u) {src lvl data} : s.Kept (u.respond src lvl data) := h.respondAll

theorem State.Kept.compare (h : s.Kept u) {k fails} : s.Kept (u.compare k fails).2 := h.setF.doIf fun _ h => h.setF.tmpFlag

theorem State.Kept.execSensorAlarm (h : s.Kept u) {k fails data} : s.KeptR (execSensorAlarm k fails data u) :=
  .ite (.next h) (.next (h.compare.respond.if_ h.compare))

theorem State.Kept.execBermSample (h : s.Kept u) {fails vbat} : s.KeptR (execBermSample fails vbat u) := by
  dsimp only [Machine.execBermSample]
  exact .next (((h.mk.setF.setB.doIf fun _ h => h.tmpFlag).foldlFst fun _ _ h => h.compare).if_ ((h.mk.setF.setB.doIf fun _ h =>
    h.tmpFlag).foldlFst fun _ _ h => h.compare).respondAll)

theorem State.Kept.tmpLevelWrite (h : s.Kept u) {value} : s.Kept (u.tmpLevelWrite value) := h.wr

theorem State.Kept.execTmpLevelWrite (h : s.Kept u) {value} : s.KeptR (execTmpLevelWrite value u) := .next h.tmpLevelWrite

theorem State.Kept.execSupplyDip (h : s.Kept u) : s.KeptR (execSupplyDip u) := .ite (.next h) (.next h.mk.raise.pkeDip.nvDip)

theorem State.Kept.execDipRecovery (h : s.Kept u) : s.KeptR (execDipRecovery u) := .ite (.next h) (.next h.mk.tmpLog.addF.tmpFlag)

theorem State.Kept.execDipSettled (h : s.Kept u) {exact} : s.KeptR (execDipSettled exact u) :=
  .ite (.next h) (.next h.mk.pkeSettled.nvDipSettled)

theorem State.Kept.execPkeJobDone (h : s.Kept u) {fault msg key sig ecc} : s.KeptR (execPkeJobDone fault msg key sig ecc u) := by
  dsimp only [Machine.execPkeJobDone]
  split
  exacts [.next h.pkeJobDone.respond, .next h.pkeJobDone]

theorem specTmpStatus_keeps : specTmpStatus.Keeps := .of_act fun _ h => h

theorem State.Kept.execCmdTmpStatus (h : s.Kept u) {sl} : s.KeptR (execCmdTmpStatus sl u) := h.runCmd specTmpStatus_keeps

theorem specLogTamperRead_keeps : specLogTamperRead.Keeps := .of_act fun _ h => h.putBuf

theorem State.Kept.execCmdLogTamperRead (h : s.Kept u) {sl} : s.KeptR (execCmdLogTamperRead sl u) := h.runCmd specLogTamperRead_keeps

theorem specLogBlazeRead_keeps : specLogBlazeRead.Keeps := .of_act fun _ h => h.putBuf

theorem State.Kept.execCmdLogBlazeRead (h : s.Kept u) {sl} : s.KeptR (execCmdLogBlazeRead sl u) := h.runCmd specLogBlazeRead_keeps

theorem specLogBlazeClear_keeps : specLogBlazeClear.Keeps := .of_act fun _ h => h.mk

theorem State.Kept.execCmdLogBlazeClear (h : s.Kept u) {sl} : s.KeptR (execCmdLogBlazeClear sl u) := h.runCmd specLogBlazeClear_keeps

theorem specTmpRelease_keeps : specTmpRelease.Keeps := .of_act fun _ h => ((h.setF.tmpFlag.doIf fun _ h => h.haltEnd).doIf fun _ h =>
    h.setF.setF.pkeNext).tmpLog.tmpFlag

theorem State.Kept.execCmdTmpRelease (h : s.Kept u) {sl} : s.KeptR (execCmdTmpRelease sl u) := h.runCmd specTmpRelease_keeps

theorem specTmpBreach_keeps : specTmpBreach.Keeps := .of_act fun _ h => .ite h.respond h.respond

theorem State.Kept.execCmdTmpBreach (h : s.Kept u) {sl} : s.KeptR (execCmdTmpBreach sl u) := h.runCmd specTmpBreach_keeps

/-! ### Operations of Machine/AppRows.lean -/

theorem specAppLoad_keeps : specAppLoad.Keeps := by
  -- opaque for the kernel's sake, as in `State.Kept.appStart`
  obtain ⟨run, hr⟩ := exists_eq' (a' := State.storeRun)
  obtain ⟨ap, ha⟩ := exists_eq' (a' := appOf)
  unfold specAppLoad
  rw [hr, ha]
  refine .mk fun hd h => ?_
  extract_lets b a
  split
  · exact .done h
  · exact .done (.setApp (.nvWrite (.forEach h fun _ _ h => h.nvEraseJ)))

theorem State.Kept.execCmdAppLoad (h : s.Kept u) {sl} : s.KeptR (execCmdAppLoad sl u) := h.runCmd specAppLoad_keeps

theorem specAppStart_keeps : specAppStart.Keeps := .of_act fun _ h => by
  dsimp only [specAppStart]
  split
  · rename_i t e
    exact .of_some e h.appStart
  · exact h

theorem State.Kept.execCmdAppStart (h : s.Kept u) {sl} : s.KeptR (execCmdAppStart sl u) := h.runCmd specAppStart_keeps

theorem specAppStop_keeps : specAppStop.Keeps := .of_act fun _ h => h.appStop

theorem State.Kept.execCmdAppStop (h : s.Kept u) {sl} : s.KeptR (execCmdAppStop sl u) := h.runCmd specAppStop_keeps

theorem specAppDelete_keeps : specAppDelete.Keeps := .of_act fun _ h => by
  dsimp only [specAppDelete]
  split
  exacts [(h.forEach fun _ _ h => h.nvEraseJ).setApp, h]

theorem State.Kept.execCmdAppDelete (h : s.Kept u) {sl} : s.KeptR (execCmdAppDelete sl u) := h.runCmd specAppDelete_keeps

theorem specAppList_keeps : specAppList.Keeps := .of_act fun _ h => by
  dsimp only [specAppList]
  exact .done h.openBelow.openBytes.putBuf

theorem State.Kept.execCmdAppList (h : s.Kept u) {sl} : s.KeptR (execCmdAppList sl u) := h.runCmd specAppList_keeps

theorem State.Kept.attest (h : s.Kept u) {nonce apps} : Opt.Kept Prod.snd s (u.attest nonce apps) := by
  unfold State.attest
  split
  · exact .none
  · next k _ =>
    extract_lets m
    refine .some ?_
    show s.Kept (u.sign 2 k m).2
    exact h.sign

theorem specAttStatement_keeps : specAttStatement.Keeps := .of_act fun _ h => by
  dsimp only [specAttStatement]
  split
  · rename_i t e
    exact (h.attest _ e).putBuf
  · exact h

theorem State.Kept.execCmdAttStatement (h : s.Kept u) {sl} : s.KeptR (execCmdAttStatement sl u) := h.runCmd specAttStatement_keeps

/-! ### Operations of Machine/PldOps.lean -/

theorem State.Kept.showCred (h : s.Kept u) : s.Kept u.showCred := by
  unfold State.showCred
  split
  exacts [h.setF.setF.setF, h.setF.setF.setF.setF]

theorem State.Kept.takeCred (h : s.Kept u) {c} : s.Kept (u.takeCred c) := h.recordWrite.mk.showCred

/-! ### Operations of Machine/FldRows.lean -/

theorem State.Kept.setTag (h : s.Kept u) {t} : s.Kept (u.setTag t) := h.setF

theorem State.Kept.fldFlag (h : s.Kept u) {bit} : s.Kept (u.fldFlag bit) := h.raise

theorem State.Kept.answer (h : s.Kept u) {bs} : s.Kept (u.answer bs) := h.emit

theorem State.Kept.answerCrc (h : s.Kept u) {bs} : s.Kept (u.answerCrc bs) := h.emit

theorem State.Kept.frameIn (h : s.Kept u) : s.Kept u.frameIn := h.addF.irqAll

theorem State.Kept.tagBack (h : s.Kept u) : s.Kept u.tagBack := h.setTag.if_ h

theorem State.Kept.setFld (h : s.Kept u) {g} : s.Kept (u.setFld g) := h.mk

theorem State.Kept.unseal (h : s.Kept u) : s.Kept u.unseal := h.setFld.setF.mk

theorem State.Kept.endSession (h : s.Kept u) : s.Kept u.endSession := h.fldFlag.unseal.setF.setFld.if_ h.unseal

theorem State.Kept.execFieldPresent (h : s.Kept u) {strong} : s.KeptR (execFieldPresent strong u) := by
  dsimp only [Machine.execFieldPresent]
  refine .ite (.next h) ?_
  exact (.ite (.ite (.next h) (.next h.resetRegs.setF.setF.setTag.fldFlag)) (.next h.domWake.setF.setTag.fldFlag))

theorem State.Kept.fieldGone (h : s.Kept u) : s.Kept u.fieldGone := h.if_ h.endSession.fldFlag.setTag.setF.setF

theorem State.Kept.execFieldLost (h : s.Kept u) : s.KeptR (execFieldLost u) := .next h.fieldGone

theorem State.Kept.request (h : s.Kept u) {wup} : s.Kept (u.request wup) := h.if_ (h.frameIn.setTag.setFld.answer.if_ h.frameIn.tagBack)

theorem State.Kept.execReqa (h : s.Kept u) : s.KeptR (execReqa u) := .next h.request

theorem State.Kept.execWupa (h : s.Kept u) : s.KeptR (execWupa u) := .next h.request

theorem State.Kept.execAnticollision (h : s.Kept u) {level known} : s.KeptR (execAnticollision level known u) :=
  .ite (.next h) (.ite (.next h.frameIn.tagBack) (.ite (.next h.frameIn.answer) (.next h.frameIn.tagBack)))

theorem State.Kept.execSelect (h : s.Kept u) {level ident} : s.KeptR (execSelect level ident u) := by
  dsimp only [Machine.execSelect]
  refine .ite (.next h) ?_
  exact (.ite (.next h.frameIn.tagBack) (.ite (.next h.frameIn.setFld.answerCrc) (.next h.frameIn.setTag.answerCrc)))

theorem State.Kept.execHlta (h : s.Kept u) : s.KeptR (execHlta u) :=
  .ite (.next h) (.ite (.next h.frameIn.setTag) (.next h.frameIn.tagBack))

theorem State.Kept.execRats (h : s.Kept u) : s.KeptR (execRats u) :=
  .ite (.next h) (.ite (.next h.frameIn.tagBack) (.next h.frameIn.setTag.setFld.answerCrc))

theorem State.Kept.execPps (h : s.Kept u) {dri dsi} : s.KeptR (execPps dri dsi u) :=
  .ite (.next h) (.ite (.next h.frameIn) (.next h.frameIn.setF.setFld.answerCrc))

theorem State.Kept.execSDeselect (h : s.Kept u) : s.KeptR (execSDeselect u) :=
  .ite (.next h) (.ite (.next h.frameIn.answerCrc.endSession.setTag) (.next h.frameIn))

theorem State.Kept.execFldWtxSend (h : s.Kept u) : s.KeptR (execFldWtxSend u) := .ite (.next h.answerCrc) (.next h)

theorem State.Kept.reply (h : s.Kept u) {out sw} : s.Kept (u.reply out sw) := by
  dsimp only [State.reply]
  split
  exacts [h.answer.if_ h.answer, h.answer]

theorem State.Kept.apdu (h : s.Kept u) {ins p1 p2 data run} (hr : ∀ t d, s.Kept t → s.Kept (run t d).2.2) :
    s.Kept (u.apdu ins p1 p2 data run) := by
  dsimp only [State.apdu]
  refine h.if_ ?_
  split
  · exact h.frameIn.unseal.setTag.answer
  · exact (hr _ _ (h.frameIn.setFld.if_ h.frameIn)).reply

theorem State.Kept.execGetIdentity (h : s.Kept u) {p1 p2 data} : s.KeptR (execGetIdentity p1 p2 data u) :=
  .next (h.apdu fun _ _ h => by split <;> exact h)

theorem State.Kept.execGetCert (h : s.Kept u) {p1 p2 data} : s.KeptR (execGetCert p1 p2 data u) := by
  dsimp only [Machine.execGetCert]
  refine .next (h.apdu fun _ _ h => ?_)
  split
  · exact h
  · split <;> exact h

theorem State.Kept.execGetAttest (h : s.Kept u) {p1 p2 data} : s.KeptR (execGetAttest p1 p2 data u) := by
  unfold Machine.execGetAttest
  refine .next (h.apdu fun _ _ h => ?_)
  split
  · exact h
  · split
    · exact h
    · split
      · rename_i t e
        exact h.attest _ e
      · exact h

theorem State.Kept.sealFail (h : s.Kept u) : s.Kept u.sealFail := h.addF

theorem State.Kept.execSealInit (h : s.Kept u) {p1 p2 data} : s.KeptR (execSealInit p1 p2 data u) := by
  dsimp only [Machine.execSealInit]
  refine .next (h.apdu fun _ _ h => ?_)
  split
  · exact h.setFld.sealFail
  · split
    · exact h.setFld.sealFail
    · split
      · exact h.setFld.sealFail
      · split
        exacts [h.setFld.drawBytes.drawBytes.sealFail, h.setFld.drawBytes.drawBytes.sign.setFld]

theorem State.Kept.takeSeal (h : s.Kept u) : s.Kept u.takeSeal := h.doIf fun _ h => h.setTag

theorem State.Kept.execSealFinish (h : s.Kept u) {p1 p2 data} : s.KeptR (execSealFinish p1 p2 data u) := by
  dsimp only [Machine.execSealFinish]
  refine .next (h.apdu fun _ _ h => ?_).takeSeal
  split
  · exact h.sealFail
  · split
    · exact h.sealFail
    · split
      · exact h.sealFail
      · split
        · exact h.setFld.sealFail
        · split
          · exact h.setFld.countRefusal.sealFail
          · split
            exacts [h.setFld.countRefusal.sealFail, h.setFld.clearRefusals.setFld.mk.setF.addF.fldFlag]

theorem State.Kept.execMbxRead (h : s.Kept u) {p1 p2 data le} : s.KeptR (execMbxRead p1 p2 data le u) := by
  dsimp only [Machine.execMbxRead]
  refine .next (h.apdu fun _ _ h => ?_)
  split
  · exact h
  · split
    · exact h
    · split <;> exact h

theorem State.Kept.mbxFail (h : s.Kept u) {sec addr} : s.Kept (u.mbxFail sec addr) := h.nvRemap.nvFlag

theorem State.Kept.execMbxProgram (h : s.Kept u) {p1 p2 data good} : s.KeptR (execMbxProgram p1 p2 data good u) := by
  dsimp only [Machine.execMbxProgram]
  refine .next (h.apdu fun _ _ h => ?_)
  split
  · exact h
  · split
    · exact h
    · split
      · exact h
      · split
        · exact h.nvFlag
        · split
          · exact h
          · split
            exacts [h.mbxFail, h.nvWrite]

theorem State.Kept.execMbxErase (h : s.Kept u) {p1 p2 data good} : s.KeptR (execMbxErase p1 p2 data good u) := by
  dsimp only [Machine.execMbxErase]
  refine .next (h.apdu fun _ _ h => ?_)
  split
  · exact h
  · split
    · exact h
    · split
      · exact h
      · split
        · exact h
        · split
          · exact h.nvFlag
          · split
            exacts [h.mbxFail, h.nvEraseJ]

theorem State.Kept.execApduUnsupported (h : s.Kept u) {cla ins} : s.KeptR (execApduUnsupported cla ins u) :=
  .ite (.next h) (.ite (.next h.frameIn.answer) (.ite (.next h) (.next h.frameIn.answer)))

theorem State.Kept.mbxConfig (h : s.Kept u) {img} : s.Kept (u.mbxConfig img).2 := by
  dsimp only [State.mbxConfig]
  refine .ifSnd h ?_
  refine .ifSnd h ?_
  split
  · rename_i t e
    exact .ifSnd (.commitStart (.mk (.of_done e h.stage))) (.of_done e h.stage)
  · rename_i t e
    exact .of_later e h.stage

theorem State.Kept.mbxKey (h : s.Kept u) {b} : s.Kept (u.mbxKey b).2 := .ifSnd h (by split; exacts [h, .ifSnd h h.recordWrite])

theorem State.Kept.mbxApply (h : s.Kept u) {typ ver b} : s.Kept (u.mbxApply typ ver b).2 :=
  .ifSnd h (.ifSnd h.mbxConfig (.ifSnd h.mbxKey (.ifSnd (.ifSnd h.takeCred h) h)))

theorem State.Kept.mbxWipe (h : s.Kept u) {sec} : s.Kept (u.mbxWipe sec) := h.nvFlag.if_ h.nvEraseJ

theorem State.Kept.mailbox (h : s.Kept u) : s.Kept u.mailbox := by
  unfold State.mailbox
  extract_lets rs out used t
  have ht : s.Kept t := h.doIf fun _ h => h.mbxWipe
  clear_value t
  split
  next t' _ e =>
  have ht' : s.Kept t' := by
    refine .of_fst e (.foldlFst (b := (t, false)) ht ?_)
    intro _ _ h
    split
    next e => exact (State.Kept.of_snd e h.mbxApply).doIf fun _ h => h.nvWrite
  exact .fldFlag (.setFld (.forEach ht' fun _ _ h => h.mbxWipe))

theorem State.Kept.execMailboxProcess (h : s.Kept u) : s.KeptR (execMailboxProcess u) := .ite (.next h.mailbox) (.next h)

theorem specFldStatus_keeps : specFldStatus.Keeps := .of_act fun _ h => h

theorem State.Kept.execCmdFldStatus (h : s.Kept u) {sl} : s.KeptR (execCmdFldStatus sl u) := h.runCmd specFldStatus_keeps

theorem State.Kept.fldMode (h : s.Kept u) {m} : s.Kept (u.fldMode m) := h.setF.setTag

theorem specFldMode_keeps : specFldMode.Keeps := .of_act fun _ h => h.fldMode

theorem State.Kept.execCmdFldMode (h : s.Kept u) {sl} : s.KeptR (execCmdFldMode sl u) := h.runCmd specFldMode_keeps

/-! ### Operations of Machine/BdgRows.lean -/

theorem specReaderPoll_keeps {ext badges errs} : (specReaderPoll ext badges errs).Keeps := .of_act fun _ h => .ite h.fldFlag ((h.forEach
    fun _ _ h => h.answerCrc.if_ h.answer).addF.doIf fun _ h => h.fldFlag)

theorem State.Kept.execCmdFldReaderPoll (h : s.Kept u) {sl ext badges errs} : s.KeptR (execCmdFldReaderPoll sl ext badges errs u) :=
  h.runCmd specReaderPoll_keeps

theorem State.Kept.badgeExchange (h : s.Kept u) {b} : s.Kept (u.badgeExchange b) := h.if_ (h.answer.forEach fun _ _ h => h.answerCrc)

theorem specAppMsg_keeps {reply badge} : (specAppMsg reply badge).Keeps := .of_act fun _ h => by
  dsimp only [specAppMsg]
  split
  · split
    exacts [h.badgeExchange.if_ h, h]
  · exact .putBuf (by split; exacts [h.badgeExchange.if_ h, h])

theorem State.Kept.execCmdAppMsg (h : s.Kept u) {sl reply badge} : s.KeptR (execCmdAppMsg sl reply badge u) := h.runCmd specAppMsg_keeps

/-! ### Operations of Machine/CalRows.lean -/

theorem State.Kept.katStart (h : s.Kept u) {c k} : s.Kept (u.katStart c k) := h.setF.setF.mk

theorem State.Kept.katAbandon (h : s.Kept u) : s.Kept u.katAbandon := h.if_ h.setF.setF.addF.mk

theorem State.Kept.retireCore (h : s.Kept u) {c} : s.Kept (u.retireCore c) :=
  (h.setF.setF.raise.calFlag.doIf fun _ h => h.calFlag).respond

theorem State.Kept.katAnswer (h : s.Kept u) {c pass} : s.Kept (u.katAnswer c pass) := h.forEach fun _ _ h => h.finishWait

theorem State.Kept.execKatDone (h : s.Kept u) {pass} : s.KeptR (execKatDone pass u) := by
  dsimp only [Machine.execKatDone]
  split
  · exact .next h
  · split
    exacts [.next h.katAbandon, .next (h.setF.setF.mk.addF.setF.if_ h.setF.setF.mk.retireCore).katAnswer]

theorem State.Kept.katStale (h : s.Kept u) : s.Kept u.katStale := h.mk.calFlag.if_ h

theorem State.Kept.turnLoop (h : s.Kept u) {k} : s.Kept (u.turnLoop k) := h.setLane.setCalLane.calSkip

theorem State.Kept.turnPdelay (h : s.Kept u) {k} : s.Kept (u.turnPdelay k) := h.doIf fun _ h => h.setLane.calSkip

theorem State.Kept.adapt (h : s.Kept u) {k} : s.Kept (u.adapt k) := h.if_ h.open_.setCalLane.setF.setF

theorem State.Kept.turnMargin (h : s.Kept u) {k} : s.Kept (u.turnMargin k) := h.adapt.open_.setF.setF.doIf fun _ h => h.calFlag

theorem State.Kept.turnGac (h : s.Kept u) {k} : s.Kept (u.turnGac k) :=
  h.mk.addF.setF.setB.setF.if_ h.mk.addF.setF.setB.addSat.calFlag.respond

theorem State.Kept.turnTask (h : s.Kept u) {k t} : s.Kept (u.turnTask k t) := by
  unfold State.turnTask
  split
  · exact h.turnLoop
  · exact h.turnPdelay
  · exact h.turnMargin
  · exact h.turnGac
  · split
    exacts [h.katStart, h]

theorem State.Kept.startTask (h : s.Kept u) {k} : s.Kept (u.startTask k) := by
  dsimp only [State.startTask]
  split
  exacts [h.addF, h.turnTask.setF]

theorem State.Kept.clearingStart (h : s.Kept u) {k} : s.Kept (u.clearingStart k) := h.setLane.if_ h.startTask

theorem State.Kept.taskNow (h : s.Kept u) {k} : s.Kept (u.taskNow k) := h.setLane.startTask.if_ h

theorem State.Kept.clearingEnd (h : s.Kept u) {k} : s.Kept (u.clearingEnd k) := by
  dsimp only [State.clearingEnd]
  split
  exacts [h.setLane.setCalLane.doIf fun _ h => h.katAbandon, h.setLane.setCalLane]

theorem State.Kept.closeGates (h : s.Kept u) {k} : s.Kept (u.closeGates k) := by
  dsimp only [State.closeGates]
  split
  exacts [(h.preempt.if_ (h.if_ h.setCopy.pc)).if_ h, h]

theorem State.Kept.takeEntry (h : s.Kept u) {p tx n} : s.Kept (u.takeEntry p tx n) :=
  ((h.doIf fun _ h => h.clearingEnd).enterEntry.closeGates.taskNow.calSkip.countWaits.doIf fun _ h => h.clearingStart).if_ (h.doIf fun _
    h => h.clearingEnd).enterEntry

theorem State.Kept.execSluiceEntry (h : s.Kept u) {port tx} : s.KeptR (execSluiceEntry port tx u) := .ite (.next h) (.next h.mk.takeEntry)

theorem State.Kept.execCalFrameRx (h : s.Kept u) {lane} : s.KeptR (execCalFrameRx lane u) := .ite (.next h.calReceive) (.next h)

theorem State.Kept.pdelayElapsed (h : s.Kept u) {k} : s.Kept (u.pdelayElapsed k) :=
  (h.doIf fun _ h => h.nextPtpSeq.queueOwn.addF).setCalLane

theorem State.Kept.execPdelayInterval (h : s.Kept u) {lane} : s.KeptR (execPdelayInterval lane u) :=
  .ite (.next h.pdelayElapsed) (.next h)

theorem State.Kept.ptpOffset (h : s.Kept u) {o} : s.Kept (u.ptpOffset o) := h.open_.setTai.wr.doIf fun _ h => h.ptpLost

theorem State.Kept.takeAnnounce (h : s.Kept u) {cls} : s.Kept (u.takeAnnounce cls) := h.if_ (h.mk.doIf fun _ h => h.setF)

theorem State.Kept.execPtpMessageRx (h : s.Kept u) {lane msg} : s.KeptR (execPtpMessageRx lane msg u) := by
  dsimp only [Machine.execPtpMessageRx]
  refine .ite (.next h) ?_
  refine .ite (.next h.calReceive) ?_
  split
  · exact .next h.calReceive.ptpOffset
  · exact .next h.calReceive.ptpOffset
  · exact .next h.calReceive.queueOwn
  · exact .next h.calReceive.calDelay
  · exact .next h.calReceive.calDelay
  · exact .next h.calReceive.takeAnnounce
  · exact .next h.calReceive

theorem State.Kept.execPtpTxInterval (h : s.Kept u) {lane kind twoStep} : s.KeptR (execPtpTxInterval lane kind twoStep u) := by
  dsimp only [Machine.execPtpTxInterval]
  refine .ite (.next h) ?_
  split
  exacts [.next h.nextPtpSeq.queueOwn, .next h.nextPtpSeq.queueOwn, .next h.pdelayElapsed]

theorem specDiagKat_keeps : specDiagKat.Keeps := .of_act fun _ h => h

theorem State.Kept.execCmdDiagKat (h : s.Kept u) {sl} : s.KeptR (execCmdDiagKat sl u) := h.runCmd specDiagKat_keeps

/-! ### Operations of Machine/FrameRows.lean -/

theorem State.Kept.sendReplay (h : s.Kept u) {e} : s.Kept (u.sendReplay e) := h.doIf fun _ h => h.twinSend

theorem State.Kept.openFill (h : s.Kept u) {f} : s.Kept (u.openFill f) := by
  dsimp only [State.openFill]
  split
  exacts [h.setFrame, h.freeFrame.pc.if_ h.mk.bump.setFrame]

theorem State.Kept.lookup (h : s.Kept u) {f ecc} : s.Kept (u.lookup f ecc) := by
  dsimp only [State.lookup]
  split
  · exact h.eccReads.setWay.bump.decide_.if_ h.eccReads.setWay.bump.decide_
  · exact h.eccRead.bump.setFrame.openFill.if_ h.eccRead.bump.decide_

theorem State.Kept.countArrival (h : s.Kept u) {p len mlen ctl fcsOk} : s.Kept (u.countArrival p len mlen ctl fcsOk).1 := by
  dsimp only [State.countArrival]
  exact ((h.pc.bump.if_ h.pc).doIf fun _ h => h.pc).doIf fun _ h => h.pc

theorem State.Kept.takeFrame (h : s.Kept u) {k p base wire b cfg tagged fault cells goose ecc} : s.Kept (u.takeFrame k p base wire b cfg
    tagged fault cells goose ecc) :=
  ((h.doIf fun _ h => h.countWrongLan).doIf fun _ h => h.countParseNull).mk.lookup

theorem State.Kept.execFrameRx (h : s.Kept u) {lane wire fcsOk cells goose ecc pcs} : s.KeptR (execFrameRx lane wire fcsOk cells goose
    ecc pcs u) := by
  dsimp only [Machine.execFrameRx]
  refine .ite (.next h) ?_
  refine .ite (.next h.pcsCount) ?_
  refine .ite (.next h.pcsCount.addF) ?_
  split
  · exact .next (h.pcsCount.calReceive.doIf fun _ h => h.pc)
  · exact .next h.pcsCount.calReceive.addF
  · exact .ite (.next h.pcsCount.calReceive) (.next (h.pcsCount.calReceive.countArrival.doIf fun _ h => h.pc))
  · refine .ite (.next h.pcsCount.calReceive) ?_
    refine .ite (.next h.pcsCount.calReceive.countArrival) ?_
    refine .ite (.next (h.pcsCount.calReceive.countArrival.doIf fun _ h => h.pc)) ?_
    exact (.ite (.next h.pcsCount.calReceive.countArrival) (.next h.pcsCount.calReceive.countArrival.takeFrame))

theorem State.Kept.execMissTimeout (h : s.Kept u) {frame} : s.KeptR (execMissTimeout frame u) := by
  dsimp only [Machine.execMissTimeout]
  split
  · split
    exacts [.ite (.next h.dropAt.mk.releaseHold) (.next h.dropAt), .next h]
  · exact .next h

theorem State.Kept.fillLook {acc : State × _} (h : s.Kept acc.1) {x errs i} : s.Kept (fillLook x errs acc i).1 := by
  dsimp only [Machine.fillLook]
  split <;> exact h.lineRead

theorem State.Kept.readFill (h : s.Kept u) {x errs} : s.Kept (u.readFill x errs).1 := h.foldlFst fun _ _ h => h.fillLook

theorem State.Kept.placeFill (h : s.Kept u) {x g} : s.Kept (u.placeFill x g) := by
  dsimp only [State.placeFill]
  split
  exacts [h, h.keepFill, h.doIf fun _ h => h.installNeg, h]

theorem State.Kept.proceed (h : s.Kept u) {g f} : s.Kept (u.proceed g f) := by
  dsimp only [State.proceed]
  split
  exacts [h.decide_.if_ h.decide_, h.decide_, h.dropAt, h.decide_]

theorem State.Kept.execGroveFillReturn (h : s.Kept u) {fill errs} : s.KeptR (execGroveFillReturn fill errs u) := by
  dsimp only [Machine.execGroveFillReturn]
  split
  exacts [.next h, .next (h.mk.setF.readFill.placeFill.forEach fun _ _ h => by split; exacts [h.proceed, h]).releaseHold]

theorem State.Kept.execNegEntryExpire (h : s.Kept u) {way} : s.KeptR (execNegEntryExpire way u) := by
  unfold Machine.execNegEntryExpire
  split
  exacts [.ite (.next h.setWay) (.next h), .next h]

theorem State.Kept.execStaticEntryFree (h : s.Kept u) : s.KeptR (execStaticEntryFree u) := .next h.mapWays

theorem State.Kept.comparators (h : s.Kept u) {agree core} : s.Kept (u.comparators agree core) := h.if_ h.addF.blaze

theorem State.Kept.macsecCheck (h : s.Kept u) {f agree} : s.Kept (u.macsecCheck f agree).1 := by
  dsimp only [State.macsecCheck]
  split
  · refine .ifFst h ?_
    split
    exacts [h.pc, h, .ifFst h (.ifFst h.pc (.ifFst h (.ifFst h.useSlot.comparators.pc h.useSlot.comparators.pc)))]
  · exact h

theorem State.Kept.tagCheck (h : s.Kept u) {f agree} : s.Kept (u.tagCheck f agree).1 := by
  dsimp only [State.tagCheck]
  split
  · exact h
  · refine .ifFst h ?_
    split
    · exact h
    · refine .ifFst h.pc ?_
      split
      · exact h.pc
      · split
        exacts [.ifFst h.useSlot.comparators.pc h.useSlot.comparators.pc, h, h.pc]

theorem State.Kept.verdictPassed (h : s.Kept u) {f m} : s.Kept (u.verdictPassed f m) := by
  dsimp only [State.verdictPassed]
  split
  · split
    · exact .if_ (.sendReplay (.updEntry (by split; exacts [h.wr64.wr64, h]))) (.updEntry (by split; exacts [h.wr64.wr64, h]))
    · exact .updEntry (by split; exacts [h.wr64.wr64, h])
  · split
    exacts [h.wr64.wr64, h]

theorem State.Kept.verdictFailed (h : s.Kept u) {f v exhausted} : s.Kept (u.verdictFailed f v exhausted) := by
  dsimp only [State.verdictFailed]
  refine .if_ ?_ (.freeFrame (by split; exacts [h.countDiscard.forEach fun _ _ h => h.pc, h.countDiscard]))
  refine .settleFrame (.forEach ?_ fun _ _ h => h.dropCopy)
  split
  exacts [h.countDiscard.forEach fun _ _ h => h.pc, h.countDiscard]

theorem State.Kept.execFrameVerdict (h : s.Kept u) {frame agree cells key} : s.KeptR (execFrameVerdict frame agree cells key u) := by
  unfold Machine.execFrameVerdict
  split
  · exact .next h
  · extract_lets waits
    refine .ite (.next h) ?_
    split
    next t m e =>
    have ht : s.Kept t := by
      refine .of_fst e ?_
      split
      exacts [h, h.macsecCheck]
    split
    next t m e =>
    replace ht : s.Kept t := by
      refine .of_fst e ?_
      split
      exacts [ht, ht.tagCheck]
    extract_lets isFresh t1 slots
    split
    next t2 _ e =>
    have h2 : s.Kept t2 := .of_fst e (.eccRead (ht.doIf fun _ h => h.pc))
    split
    next t3 _ e =>
    have h3 : s.Kept t3 := by
      refine .of_fst e ?_
      split
      exacts [h2, h2.eccReads]
    extract_lets poison v t4 t5 t6
    have h4 : s.Kept t4 := h3.setFrame
    have h6 : s.Kept t6 := h4.verdictPassed.countStream.countStream
    exact .ite (.ite (.next h6.hostDeliver.settleFrame) (.next h6)) (.next h4.verdictFailed)

theorem State.Kept.execEgressHandover (h : s.Kept u) {port cls} : s.KeptR (execEgressHandover port cls u) := by
  dsimp only [Machine.execEgressHandover]
  split
  exacts [.next h, .next h.setFrame.handTo.hostDeliver.settleFrame]

/-! ### Operations of Machine/CrdRows.lean -/

theorem State.Kept.crdFlag (h : s.Kept u) {bit} : s.Kept (u.crdFlag bit) := h.raise

theorem State.Kept.scdFlag (h : s.Kept u) {bit} : s.Kept (u.scdFlag bit) := h.raise

theorem State.Kept.identify (h : s.Kept u) {c} : s.Kept (u.identify c) := h.setF.if_ (h.setF.setF.setB.setF.mk.doIf fun _ h => h.crdFlag)

theorem State.Kept.execCardInsert (h : s.Kept u) {card} : s.KeptR (execCardInsert card u) :=
  .ite (.next h.domWake) (.ite (.next h) (.next h.crdFlag.identify.irqAll))

theorem State.Kept.cardWaits (h : s.Kept u) {o block} : s.Kept (u.cardWaits o block) := h.forEach fun _ _ h => h.finishWait

theorem State.Kept.cardGone (h : s.Kept u) {block} : s.Kept (u.cardGone block) := h.setF.setF.setB.setF.setF.mk.crdFlag

theorem State.Kept.execCardRemove (h : s.Kept u) {block} : s.KeptR (execCardRemove block u) :=
  .ite (.next h) (.next h.cardGone.cardWaits.irqAll)

theorem State.Kept.cardFail (h : s.Kept u) {run} : s.Kept (u.cardFail run).2 := by
  dsimp only [State.cardFail]
  split
  exacts [h.addF, h.addF.crdFlag, .ifSnd h.addF.crdFlag h.addF.cardGone, h.addF.cardGone]

theorem State.Kept.putBlocks (h : s.Kept u) {base data stop} : s.Kept (u.putBlocks base data stop) := h.forEach fun _ _ h => h.emit

theorem specCardRead_keeps {run} : (specCardRead run).Keeps := .of_act fun _ h => by
  dsimp only [specCardRead]
  split
  · exact h.cardFail.irqAll
  · split
    · exact h.cardFail.irqAll
    · split
      exacts [h.cardFail.irqAll, h.cardFail.irqAll.putBuf]

theorem State.Kept.recWrite (h : s.Kept u) {r data run} : s.Kept (u.recWrite r data run).2 := by
  unfold State.recWrite
  extract_lets seq base
  split
  next t e =>
  have ht : s.Kept t := .of_snd e h.cardFail
  split
  next t' e =>
  have ht' : s.Kept t' := by
    refine .of_snd e ?_
    split
    exacts [.openBelow (n := 8193) ht, ht]
  extract_lets t2
  have ht2 : s.Kept t2 := ht'.putBlocks
  split
  exacts [ht2, .ifSnd ht2.emit ht2.emit]

theorem specCardWrite_keeps {run} : (specCardWrite run).Keeps := .of_act fun _ h => h.recWrite.irqAll

theorem specCardStage_keeps {run} : (specCardStage run).Keeps := .of_act fun _ h => by
  dsimp only [specCardStage]
  split
  · exact h.cardFail.irqAll
  · split
    exacts [h.cardFail.irqAll, h.cardFail.irqAll.stage]

theorem State.Kept.execCmdCrdRecordRead (h : s.Kept u) {sl run} : s.KeptR (execCmdCrdRecordRead sl run u) := h.runCmd specCardRead_keeps

theorem State.Kept.execCmdCrdRecordWrite (h : s.Kept u) {sl run} : s.KeptR (execCmdCrdRecordWrite sl run u) :=
  h.runCmd specCardWrite_keeps

theorem State.Kept.execCmdCrdBundleStage (h : s.Kept u) {sl run} : s.KeptR (execCmdCrdBundleStage sl run u) :=
  h.runCmd specCardStage_keeps

theorem State.Kept.scdClear (h : s.Kept u) : s.Kept u.scdClear := h.wr.forEach fun _ _ h => h.wr

theorem State.Kept.scdOff (h : s.Kept u) : s.Kept u.scdOff := h.setB

theorem State.Kept.execScdInsert (h : s.Kept u) {card} : s.KeptR (execScdInsert card u) := by
  dsimp only [Machine.execScdInsert]
  refine .ite (.next h.domWake) ?_
  refine .ite (.next h) ?_
  split
  · exact .next h.scdFlag.setB.irqAll.scdFlag
  · split
    · exact .next (h.scdFlag.setB.irqAll.setF.setB.forEach fun _ _ h => h.wr).scdFlag
    · refine .ite (.next (h.scdFlag.setB.irqAll.setF.setB.forEach fun _ _ h => h.wr).scdFlag) ?_
      exact (.next (h.scdFlag.setB.irqAll.setF.setB.forEach fun _ _ h => h.wr).setB.setF.setF.setF)

theorem State.Kept.execScdRemove (h : s.Kept u) : s.KeptR (execScdRemove u) := .ite (.next h) (.next h.scdClear.scdFlag.cardWaits.irqAll)

theorem specScdStatus_keeps : specScdStatus.Keeps := .of_act fun _ h => h

theorem State.Kept.execCmdScdStatus (h : s.Kept u) {sl} : s.KeptR (execCmdScdStatus sl u) := h.runCmd specScdStatus_keeps

theorem specScdApdu_keeps {run} : (specScdApdu run).Keeps := .of_act fun _ h => by
  dsimp only [specScdApdu]
  split
  · split
    exacts [h.emit.irqAll, h.emit.irqAll.putBuf]
  · exact h.emit.irqAll.scdOff.scdFlag
  · exact h.emit.irqAll.scdClear.scdFlag

theorem State.Kept.execCmdScdApdu (h : s.Kept u) {sl run} : s.KeptR (execCmdScdApdu sl run u) := h.runCmd specScdApdu_keeps

/-! ### Operations of Machine/GrvRows.lean -/

theorem State.Kept.execGroveBuildDone (h : s.Kept u) : s.KeptR (execGroveBuildDone u) := .ite (.next h.enterGrv.grvFlag) (.next h)

theorem State.Kept.rehome (h : s.Kept u) {r} : s.Kept (u.rehome r) := h.mapWays

theorem State.Kept.copyLines (h : s.Kept u) {hk k l} : s.Kept (u.copyLines hk k l).1 := by
  induction l generalizing u with
  | nil => exact h
  | cons x l ih =>
    unfold State.copyLines
    split
    · rename_i e
      exact ih (.of_fst e h.placeLine)
    · rename_i e
      exact .of_fst e h.placeLine

theorem State.Kept.seeBucket (h : s.Kept u) {b} : s.Kept (u.seeBucket b) := h.forEach fun _ _ h => h.lineRead

theorem State.Kept.migFail (h : s.Kept u) : s.Kept u.migFail := h.mk.setF.enterGrv.grvFlag

theorem State.Kept.execGroveMigrateBucket (h : s.Kept u) : s.KeptR (execGroveMigrateBucket u) := by
  dsimp only [Machine.execGroveMigrateBucket]
  split
  · exact .next h
  · refine .ite (.next h) ?_
    split
    · rename_i t e
      exact .next (.setF (.mk (.of_fst e h.seeBucket.copyLines)))
    · rename_i t e
      exact .next (.migFail (.of_fst e h.seeBucket.copyLines))

theorem State.Kept.migAtZero (h : s.Kept u) : s.Kept u.migAtZero := by
  dsimp only [State.migAtZero]
  split
  exacts [h.mk.if_ h, h]

theorem State.Kept.execGroveRegionSwitch (h : s.Kept u) : s.KeptR (execGroveRegionSwitch u) := by
  dsimp only [Machine.execGroveRegionSwitch]
  split
  exacts [.next h, .ite (.next h) (.next h.mk.setF.setF.setF.rehome.setF.enterGrv.grvFlag)]

theorem State.Kept.cxlLost (h : s.Kept u) {j} : s.Kept (u.cxlLost j) :=
  h.if_ ((h.setLink.doIf fun _ h => h.grvLose).doIf fun _ h => h.dmaCxlLost)

theorem State.Kept.execCxlLinkDown (h : s.Kept u) {link} : s.KeptR (execCxlLinkDown link u) := .next h.cxlLost

theorem State.Kept.execCxlReadTimeout (h : s.Kept u) {link} : s.KeptR (execCxlReadTimeout link u) := .next h.cxlLost

theorem State.Kept.execCxlFatalError (h : s.Kept u) {link} : s.KeptR (execCxlFatalError link u) := .next h.cxlLost

theorem State.Kept.cxlReady (h : s.Kept u) : s.Kept u.cxlReady := h.if_ (h.setB.mk.doIf fun _ h => h.startBuild)

theorem State.Kept.execCxlDeviceTrained (h : s.Kept u) {link cap gt32} : s.KeptR (execCxlDeviceTrained link cap gt32 u) :=
  .ite (.next h) (.ite (.next h.setLink) (.ite (.ite (.next h.setLink.cxlReady) (.next h)) (.next h.setLink.grvFlag)))

theorem State.Kept.sweepWord (h : s.Kept u) {r cw hit} : s.Kept (u.sweepWord r cw hit) := h.eccRead

theorem State.Kept.sweepPass (h : s.Kept u) {cxl} : s.Kept (u.sweepPass cxl) := h.addF.raise

theorem State.Kept.sweepSram (h : s.Kept u) {a b} : s.Kept (u.sweepSram a b) :=
  h.sweepWord.sweepWord.mk.setF.if_ (h.sweepWord.sweepWord.mk.setF.setF.doIf fun _ h => h.sweepPass)

theorem State.Kept.rewriteLine (h : s.Kept u) {r e l b} : s.Kept (u.rewriteLine r e l b) := h.setLine

theorem State.Kept.sweepLook (h : s.Kept u) {r e err} : s.Kept (u.sweepLook r e err) := by
  dsimp only [State.sweepLook]
  refine .if_ h ?_
  exact (h.lineUncorr.if_ (h.if_ (by split; exacts [h.setLine.lineUncorr, h.setLine.if_ h.setLine.eccCorr.rewriteLine])))

theorem State.Kept.sweepGrove (h : s.Kept u) {err} : s.Kept (u.sweepGrove err) := h.sweepLook.mk.setF.if_ h.sweepLook.mk.setF.sweepPass

theorem State.Kept.execSweepLine (h : s.Kept u) {first second line cxl} : s.KeptR (execSweepLine first second line cxl u) :=
  .ite (.ite (.next h.sweepGrove) (.next h)) (.ite (.next h.sweepSram) (.next h))

theorem State.Kept.sweepReload (h : s.Kept u) : s.Kept u.sweepReload := h.mk.addF.raise.if_ (h.mk.addF.raise.if_ h.mk.addF)

theorem State.Kept.seeKey (h : s.Kept u) {key} : s.Kept (u.seeKey key) := h.seeLines.if_ h

theorem State.Kept.groveWrite (h : s.Kept u) {x} : s.Kept (u.groveWrite x).1 := by
  dsimp only [State.groveWrite]
  split
  · rename_i t e
    exact .of_fst e h.seeLines.placeLine
  · rename_i t _ e
    split
    exacts [.writeWay (.relink (.of_fst e h.seeLines.placeLine)), .keepWay (.relink (.of_fst e h.seeLines.placeLine))]

theorem specGroveInsert_keeps : specGroveInsert.Keeps := .of_act fun _ h => by
  dsimp only [specGroveInsert]
  refine .ite ?_ ?_
  · split
    · rename_i t e
      exact .of_some e (.placeWay (by split; exacts [h.setWay, h]))
    · exact h
  · split
    · rename_i t e
      exact .of_fst e h.groveWrite
    · rename_i t e
      exact .of_fst e h.groveWrite

theorem State.Kept.execCmdGroveInsert (h : s.Kept u) {sl} : s.KeptR (execCmdGroveInsert sl u) := h.runCmd specGroveInsert_keeps

theorem specGroveUpdate_keeps : specGroveUpdate.Keeps := .of_act_refused (fun _ _ h => h.seeKey) fun _ h => by
  dsimp only [specGroveUpdate]
  split
  · exact h
  · split
    · exact .ite h.writeWay ((h.doIf fun _ h => h.writeLine).writeWay)
    · split
      exacts [h.seeLines, h.seeLines.writeLine.keepWay]

theorem State.Kept.execCmdGroveUpdate (h : s.Kept u) {sl} : s.KeptR (execCmdGroveUpdate sl u) := h.runCmd specGroveUpdate_keeps

theorem State.Kept.deleteKey (h : s.Kept u) {key} : s.Kept (u.deleteKey key) := by
  dsimp only [State.deleteKey]
  split
  exacts [h.seeLines.deleteNeg.clearLine.doIf fun _ h => h.setWay, h.seeLines.deleteNeg.clearLine]

theorem specGroveDelete_keeps : specGroveDelete.Keeps := .of_act_refused (fun _ _ h => h.seeKey) fun _ h => h.deleteKey

theorem State.Kept.execCmdGroveDelete (h : s.Kept u) {sl} : s.KeptR (execCmdGroveDelete sl u) := h.runCmd specGroveDelete_keeps

theorem specGrovePin_keeps : specGrovePin.Keeps := .of_act_refused (fun _ _ h => h.seeKey) fun _ h => by
  dsimp only [specGrovePin]
  split
  · exact h
  · split
    · rename_i t e
      exact .clearLine (.of_some e (.placeWay (by split; exacts [h.seeLines.setWay, h.seeLines])))
    · exact h.seeLines

theorem State.Kept.execCmdGrovePin (h : s.Kept u) {sl} : s.KeptR (execCmdGrovePin sl u) := h.runCmd specGrovePin_keeps

theorem specGroveUnpin_keeps : specGroveUnpin.Keeps := .of_act fun _ h => by
  dsimp only [specGroveUnpin]
  split
  · exact h
  · split
    · rename_i t e
      exact .of_fst e h.groveWrite
    · rename_i t e
      exact .of_fst e h.groveWrite

theorem State.Kept.execCmdGroveUnpin (h : s.Kept u) {sl} : s.KeptR (execCmdGroveUnpin sl u) := h.runCmd specGroveUnpin_keeps

theorem specGroveLookup_keeps : specGroveLookup.Keeps := .of_act_refused (fun _ _ h => h.seeKey) fun _ h => by
  dsimp only [specGroveLookup]
  split <;> exact h.seeKey

theorem State.Kept.execCmdGroveLookup (h : s.Kept u) {sl} : s.KeptR (execCmdGroveLookup sl u) := h.runCmd specGroveLookup_keeps

theorem specGroveCounterRead_keeps : specGroveCounterRead.Keeps := .of_act fun _ h => h.putBuf

theorem State.Kept.execCmdGroveCounterRead (h : s.Kept u) {sl} : s.KeptR (execCmdGroveCounterRead sl u) :=
  h.runCmd specGroveCounterRead_keeps

theorem specGroveLineClear_keeps : specGroveLineClear.Keeps := .of_act fun _ h => h.mapWays.wipeLine

theorem State.Kept.execCmdGroveLineClear (h : s.Kept u) {sl} : s.KeptR (execCmdGroveLineClear sl u) := h.runCmd specGroveLineClear_keeps

theorem specGroveMemAdd_keeps : specGroveMemAdd.Keeps := .of_act fun _ h => h.setLink

theorem State.Kept.execCmdGroveMemAdd (h : s.Kept u) {sl} : s.KeptR (execCmdGroveMemAdd sl u) := h.runCmd specGroveMemAdd_keeps

theorem specGroveRebuild_keeps : specGroveRebuild.Keeps := .of_act fun _ h => h.startBuild

theorem State.Kept.execCmdGroveRebuild (h : s.Kept u) {sl} : s.KeptR (execCmdGroveRebuild sl u) := h.runCmd specGroveRebuild_keeps

/-! ### Operations of Machine/PortRows.lean -/

theorem State.Kept.execCmdUndefined (h : s.Kept u) {sl opc} : s.KeptR (execCmdUndefined sl opc u) :=
  .ite (.next h) (.ite (.next h.mk) (.next h.takeSlot.putReply))

theorem specDevStatus_keeps : specDevStatus.Keeps := .of_act fun _ h => h

theorem State.Kept.execCmdDevStatus (h : s.Kept u) {sl} : s.KeptR (execCmdDevStatus sl u) := h.runCmd specDevStatus_keeps

theorem specDiagEcho_keeps : specDiagEcho.Keeps := .of_act fun _ h => h

theorem State.Kept.execCmdDiagEcho (h : s.Kept u) {sl} : s.KeptR (execCmdDiagEcho sl u) := h.runCmd specDiagEcho_keeps

theorem specPortStatus_keeps : specPortStatus.Keeps := .of_act fun _ h => h

theorem State.Kept.execCmdPortStatus (h : s.Kept u) {sl} : s.KeptR (execCmdPortStatus sl u) := h.runCmd specPortStatus_keeps

theorem specPortCounters_keeps : specPortCounters.Keeps := .of_act fun _ h => h.putBuf

theorem State.Kept.execCmdPortCounters (h : s.Kept u) {sl} : s.KeptR (execCmdPortCounters sl u) := h.runCmd specPortCounters_keeps

theorem specPortExtStatus_keeps : specPortExtStatus.Keeps := .of_act fun _ h => h

theorem State.Kept.execCmdPortExtStatus (h : s.Kept u) {sl} : s.KeptR (execCmdPortExtStatus sl u) := h.runCmd specPortExtStatus_keeps

theorem specPortExtFree_keeps : specPortExtFree.Keeps := .of_act fun _ h => h.forEach fun _ _ h => h.setCtx

theorem State.Kept.execCmdPortExtFree (h : s.Kept u) {sl} : s.KeptR (execCmdPortExtFree sl u) := h.runCmd specPortExtFree_keeps

theorem specPortExtRelease_keeps : specPortExtRelease.Keeps := .of_act fun _ h => (h.forEach fun _ _ h => h.setCtx).extFlag.setXt

theorem State.Kept.execCmdPortExtRelease (h : s.Kept u) {sl} : s.KeptR (execCmdPortExtRelease sl u) := h.runCmd specPortExtRelease_keeps

theorem specGacStatus_keeps : specGacStatus.Keeps := .of_act fun _ h => h

theorem State.Kept.execCmdGacStatus (h : s.Kept u) {sl} : s.KeptR (execCmdGacStatus sl u) := h.runCmd specGacStatus_keeps

theorem State.Kept.phasorTake (h : s.Kept u) {hd} : s.Kept (u.phasorTake hd) := h.mk.setF.phasorUp.if_ h.mk

theorem specGacPhasor_keeps : specGacPhasor.Keeps := .of_act_refused (fun _ _ h => h.gacFlag) fun _ h => h.phasorTake

theorem State.Kept.execCmdGacPhasor (h : s.Kept u) {sl} : s.KeptR (execCmdGacPhasor sl u) := h.runCmd specGacPhasor_keeps

theorem specGacTaiSet_keeps : specGacTaiSet.Keeps := .of_act fun _ h => h.mk

theorem State.Kept.execCmdGacTaiSet (h : s.Kept u) {sl} : s.KeptR (execCmdGacTaiSet sl u) := h.runCmd specGacTaiSet_keeps

/-! ### Operations of Machine/RollOps.lean -/

theorem State.Kept.rollTake (h : s.Kept u) {old new n grace fold} : s.Kept (u.rollTake old new n grace fold) := h.setKs.setKs.mk

theorem State.Kept.rollDo (h : s.Kept u) {hd} : s.Kept (u.rollDo hd).2 := by
  unfold State.rollDo
  split
  exacts [h, h.rollTake]

theorem specKeyRollover_keeps : specKeyRollover.Keeps := .of_act fun _ h => .ite (.ite h.sendReady.twinTake.rollDo h.sendReady) h.rollDo

theorem State.Kept.execCmdKeyRollover (h : s.Kept u) {sl} : s.KeptR (execCmdKeyRollover sl u) := h.runCmd specKeyRollover_keeps

/-! ### Operations of Machine/ExtRows.lean -/

theorem State.Kept.hsSend (h : s.Kept u) {link p} : s.Kept (u.hsSend link p) := h.emit.if_ h.emit

theorem State.Kept.hsReject (h : s.Kept u) {twin link session cause} : s.Kept (u.hsReject twin link session cause) := h.hsSend

theorem State.Kept.sendOffer (h : s.Kept u) {k key} : s.Kept (u.sendOffer k key) := h.drawBytes.hsSend.setXt

theorem State.Kept.execExtBackoffEnd (h : s.Kept u) {lane} : s.KeptR (execExtBackoffEnd lane u) := by
  dsimp only [Machine.execExtBackoffEnd]
  refine .ite (.next h) ?_
  split
  exacts [.next h, .next h.sendOffer]

theorem State.Kept.hsFail (h : s.Kept u) {k cause} : s.Kept (u.hsFail k cause) :=
  (h.addF.setF.forEach fun _ _ h => h.setCtx).setXt.extFlag

theorem State.Kept.assignOne {acc : State × _} (h : s.Kept acc.1) {k ident e} : s.Kept (State.assignOne k ident acc e).1 := by
  dsimp only [State.assignOne]
  split
  · exact h
  · split
    exacts [h.setCtx, h.extFlag]

theorem State.Kept.assign (h : s.Kept u) {k ident l} : s.Kept (u.assign k ident l).1 :=
  (h.forEach fun _ _ h => h.setCtx).foldlFst fun _ _ h => h.assignOne

theorem State.Kept.sendConfirm (h : s.Kept u) {k p l key} : s.Kept (u.sendConfirm k p l key) := by
  dsimp only [State.sendConfirm]
  exact h.assign.sign.setF.hsSend.setXt

theorem State.Kept.extAccept (h : s.Kept u) {k p} : s.Kept (u.extAccept k p) :=
  h.if_ (by split; exacts [h.sendConfirm, h.hsReject.hsFail, h])

theorem State.Kept.extDone (h : s.Kept u) {k p} : s.Kept (u.extDone k p) :=
  h.if_ (by split; exacts [h.hsReject.hsFail, .setXt (by split; exacts [h.emptySlot.loadSlot.setKs, h])])

theorem State.Kept.extSecured (h : s.Kept u) {k} : s.Kept (u.extSecured k) :=
  h.if_ (h.forEach fun _ _ h => h.setCtx.bindPort).setXt.extFlag

theorem State.Kept.setThs (h : s.Kept u) {hd} : s.Kept (u.setThs hd) := h.mk

theorem State.Kept.twnFlag (h : s.Kept u) {bit item} : s.Kept (u.twnFlag bit item) := h.raise

theorem State.Kept.twinOffer (h : s.Kept u) : s.Kept u.twinOffer := by
  dsimp only [State.twinOffer]
  exact h.openBelow.mk.setThs.if_ h.openBelow.mk.drawBytes.hsSend.setThs

theorem State.Kept.twinStart (h : s.Kept u) : s.Kept u.twinStart := h.if_ (h.doIf fun _ h => h.setF).twinOffer

theorem State.Kept.twinHsFail (h : s.Kept u) : s.Kept u.twinHsFail := h.setThs

theorem State.Kept.twinOfferRx (h : s.Kept u) {p} : s.Kept (u.twinOfferRx p) := by
  dsimp only [State.twinOfferRx]
  refine .if_ h.hsSend ?_
  split
  exacts [h.hsReject, h.if_ (by split; exacts [h.if_ (h.drawBytes.sign.doIf fun _ h => h.setF).hsSend.setThs, h])]

theorem State.Kept.twinAccept (h : s.Kept u) {p} : s.Kept (u.twinAccept p) := by
  dsimp only [State.twinAccept]
  exact h.if_ (by split; exacts [h.hsReject.twinHsFail, h, h.sign.hsSend.setThs])

theorem State.Kept.twinKeyable (h : s.Kept u) : s.Kept u.twinKeyable := h.mk.setF

theorem State.Kept.twinConfirm (h : s.Kept u) {p} : s.Kept (u.twinConfirm p) :=
  h.if_ (by split; exacts [h.hsReject.twinHsFail, h.hsSend.twinKeyable])

theorem State.Kept.twinDone (h : s.Kept u) {p} : s.Kept (u.twinDone p) := h.if_ (by split; exacts [h.hsReject.twinHsFail, h.twinKeyable])

theorem State.Kept.heard (h : s.Kept u) {link} : s.Kept (u.heard link) := h.calReceive.if_ h

theorem State.Kept.execOfferRx (h : s.Kept u) {link payload} : s.KeptR (execOfferRx link payload u) :=
  .ite (.next h.heard.twinOfferRx) (.next h.heard)

theorem State.Kept.execAcceptRx (h : s.Kept u) {link payload} : s.KeptR (execAcceptRx link payload u) :=
  .ite (.ite (.next h.heard.twinAccept) (.next h.heard)) (.ite (.next h.heard.extAccept) (.next h.heard))

theorem State.Kept.execConfirmRx (h : s.Kept u) {link payload} : s.KeptR (execConfirmRx link payload u) :=
  .ite (.next h.heard.twinConfirm) (.next h.heard)

theorem State.Kept.execDoneRx (h : s.Kept u) {link payload} : s.KeptR (execDoneRx link payload u) :=
  .ite (.ite (.next h.heard.twinDone) (.next h.heard)) (.ite (.next h.heard.extDone) (.next h.heard))

theorem State.Kept.execRejectRx (h : s.Kept u) {link payload} : s.KeptR (execRejectRx link payload u) :=
  .ite (.ite (.next h.heard.twinHsFail) (.next h.heard)) (.ite (.next h.heard.hsFail) (.next h.heard))

theorem State.Kept.execHandshakeRetry (h : s.Kept u) {link} : s.KeptR (execHandshakeRetry link u) := by
  dsimp only [Machine.execHandshakeRetry]
  refine .ite (.ite (.next h) (.ite (.next h.twinHsFail) (.ite (.next h.hsSend.setThs) (.next h.hsSend.setThs)))) ?_
  exact (.ite (.next h) (.ite (.next h.hsFail) (.ite (.next h.hsSend.setXt) (.next h.hsSend.setXt))))

theorem State.Kept.execTwinPairingRetry (h : s.Kept u) : s.KeptR (execTwinPairingRetry u) := .ite (.next h.twinStart) (.next h)

theorem State.Kept.execLaneUp (h : s.Kept u) {lane speed} : s.KeptR (execLaneUp lane speed u) := by
  unfold Machine.execLaneUp
  split
  exacts [.ite (.next h.setTl.twinStart) (.next h), .ite (.next h.laneIsUp.calRestart) (.next h)]

theorem State.Kept.sakLoad (h : s.Kept u) {slot alg key salt ident} : s.Kept (u.sakLoad slot alg key salt ident).1 :=
  .ifFst h.loadSlot.setKs (.ifFst h (h.doIf fun _ h => h.keyFlag))

theorem State.Kept.sakBind (h : s.Kept u) {b an slot rx tx inUse ssciRx ssciTx} : s.Kept (u.sakBind b an slot rx tx inUse ssciRx ssciTx)
    :=
  (((h.doIf fun _ h => h.wr.wr64.wr.wr64).doIf fun _ h => h.wr.wr64.wr).doIf fun _ h => h.wr).doIf fun _ h => h.wakeSlot

theorem State.Kept.sendMirror (h : s.Kept u) : s.Kept u.sendMirror := h.forEach fun _ _ h => h.sendReplay

theorem State.Kept.twinKeyed (h : s.Kept u) : s.Kept u.twinKeyed := h.if_ h.mk.setF.setF.twnFlag.sendMirror

theorem State.Kept.sakMark (h : s.Kept u) {y rx tx} : s.Kept (u.sakMark y rx tx) := by
  dsimp only [State.sakMark]
  split
  exacts [h, h.setXt.extSecured, h.mk.twinKeyed]

theorem State.Kept.sakRetire (h : s.Kept u) {b an} : s.Kept (u.sakRetire b an) := h.wr.wr.forEach fun _ _ h => h.setKs

theorem State.Kept.rollIssue (h : s.Kept u) {old new cycle grace fold polder} : s.Kept (u.rollIssue old new cycle grace fold polder) :=
  h.if_ (by split; exacts [h, h.rollTake])

theorem State.Kept.execMkaRx (h : s.Kept u) {secy act} : s.KeptR (execMkaRx secy act u) := by
  dsimp only [Machine.execMkaRx]
  refine .ite (.next h.heard) ?_
  split
  · exact .next h.heard
  · split
    exacts [.next h.heard.sakRetire, .next h.heard]
  · exact .next h.heard.rollIssue
  · refine .ite (.next h.heard.sakLoad) ?_
    exact (.next (.sakMark (by split; exacts [h.heard.sakLoad.sakBind, h.heard.sakLoad.doIf fun _ h => h.wakeSlot])))

theorem State.Kept.execMkaTxInterval (h : s.Kept u) {secy gen} : s.KeptR (execMkaTxInterval secy gen u) := by
  dsimp only [Machine.execMkaTxInterval]
  refine .ite (.next h) ?_
  split
  · exact .next h.emit
  · refine .ite (.next h.emit) ?_
    exact (.next (.emit (.sakMark (by split; exacts [h.drawBytes.sakLoad.sakBind, h.drawBytes.sakLoad.wakeSlot]))))

theorem State.Kept.execGdoiMessageRx (h : s.Kept u) {act} : s.KeptR (execGdoiMessageRx act u) := by
  dsimp only [Machine.execGdoiMessageRx]
  split
  exacts [.ite (.next h.keyFlag) (.next h.loadSlot.setKs), .ite (.next h.wakeSlot) (.next h), .next h.rollIssue]

/-! ### Operations of Machine/TwnRows.lean -/

theorem State.Kept.execTwinHelloSend (h : s.Kept u) : s.KeptR (execTwinHelloSend u) := .ite (.next h) (.next h.twinSend)

theorem State.Kept.twinIn (h : s.Kept u) {msg p ok g} (hg : ∀ b t, s.Kept t → s.Kept (g b t)) :
    s.Kept (u.twinIn msg p ok g) :=
  h.if_ (h.addF.if_ (h.if_ (hg _ _ h.mk.irqAll)))

theorem State.Kept.moveLeader (h : s.Kept u) {lead} : s.Kept (u.moveLeader lead) := (h.setF.mk.if_ h).if_ (h.setF.mk.if_ h)

theorem State.Kept.takeRole (h : s.Kept u) {lead} : s.Kept (u.takeRole lead) := h.setF.mk.doIf fun _ h => h.moveLeader.twnFlag

theorem State.Kept.dropTakeover (h : s.Kept u) : s.Kept u.dropTakeover := h.setF.mk.forEach fun _ _ h => h.finishWait

theorem State.Kept.runAlone (h : s.Kept u) : s.Kept u.runAlone := by
  unfold State.runAlone
  exact h.setF.setF.setF.doIf fun _ h => h.twnFlag.dropTakeover

theorem State.Kept.pairRole (h : s.Kept u) {m} : s.Kept (u.pairRole m) := by
  dsimp only [State.pairRole]
  split
  exacts [h.takeRole.if_ h.takeRole, h.takeRole, h.takeRole]

theorem State.Kept.execHelloRx (h : s.Kept u) {payload ok} : s.KeptR (execHelloRx payload ok u) :=
  .next (h.twinIn fun _ _ h => h.mk.setB.setB.setB.runAlone.if_ ((h.mk.setB.setB.setB.doIf fun _ h => h.twnFlag).pairRole.if_
    (h.mk.setB.setB.setB.doIf fun _ h => h.twnFlag)))

theorem State.Kept.timeRule (h : s.Kept u) {cycle} : s.Kept (u.timeRule cycle) := by
  dsimp only [State.timeRule]
  have ht : s.Kept (u.doIf (u.twinSt = twLead) (·.takeRole false)) := h.doIf fun _ h => h.takeRole
  refine h.if_ (.if_ ?_ (h.doIf fun _ h => h.takeRole))
  exact ht.setF.setF.mk.if_ ht.setF.setF.mk

theorem State.Kept.execTimeRx (h : s.Kept u) {payload ok} : s.KeptR (execTimeRx payload ok u) := by
  dsimp only [Machine.execTimeRx]
  refine .next (h.twinIn fun _ _ h => ?_)
  split
  exacts [h.mk, h.mk.if_ (h.mk.wr.setB.timeRule.if_ (h.mk.wr.setB.doIf fun _ h => h.mk))]

theorem State.Kept.execPeerRefClear (h : s.Kept u) : s.KeptR (execPeerRefClear u) := .ite (.next h.setF) (.next h)

theorem State.Kept.twinAtZero (h : s.Kept u) : s.Kept u.twinAtZero := h.mk.if_ h.mk.twinSend.mk

theorem State.Kept.execKeyDiffDetect (h : s.Kept u) : s.KeptR (execKeyDiffDetect u) := .ite (.next h.mk.twnFlag) (.next h)

theorem State.Kept.execTwinMismatchRepeat (h : s.Kept u) : s.KeptR (execTwinMismatchRepeat u) := .ite (.next h.twnFlag) (.next h)

theorem State.Kept.execReplayRx (h : s.Kept u) {payload ok} : s.KeptR (execReplayRx payload ok u) :=
  .next (h.twinIn fun _ _ h => h.if_ (h.forEach fun _ _ h => h.setWay))

theorem State.Kept.agreeTakeover (h : s.Kept u) {n} : s.Kept (u.agreeTakeover n) := h.mk.twinSend

theorem State.Kept.twinGo (h : s.Kept u) {hd n} : s.Kept (u.twinGo hd n) :=
  h.twinTake.commitTake.settle.if_ (h.twinTake.rollDo.finishWait.if_ h.twinTake.agreeTakeover)

theorem State.Kept.execReadyRx (h : s.Kept u) {payload ok} : s.KeptR (execReadyRx payload ok u) :=
  .next (h.twinIn fun _ _ h => h.mk.forEach fun _ _ h => h.twinGo)

theorem State.Kept.execTwinReadyDeadline (h : s.Kept u) {cycle} : s.KeptR (execTwinReadyDeadline cycle u) :=
  .ite (.next h) (.next (h.forEach fun _ _ h => h.twinGo.if_ (h.dropTakeover.twnFlag.if_ h.finishWait.twnFlag)).mk)

theorem State.Kept.execRoleRx (h : s.Kept u) {payload ok} : s.KeptR (execRoleRx payload ok u) :=
  .next (h.twinIn fun _ _ h => h.setF.mk.if_ h)

theorem State.Kept.execTwinTakeoverEffect (h : s.Kept u) : s.KeptR (execTwinTakeoverEffect u) := by
  dsimp only [Machine.execTwinTakeoverEffect]
  split
  exacts [.ite (.next h) (.next (h.setF.mk.takeRole.forEach fun _ _ h => h.finishWait)), .next h]

theorem State.Kept.execTwinPeerLost (h : s.Kept u) : s.KeptR (execTwinPeerLost u) := by
  dsimp only [Machine.execTwinPeerLost]
  refine .ite (.next (h.mk.setF.doIf fun _ h => h.dropTakeover).setF.takeRole) ?_
  exact (.next (h.mk.setF.doIf fun _ h => h.dropTakeover))

theorem State.Kept.execLeadstateRx (h : s.Kept u) {payload ok} : s.KeptR (execLeadstateRx payload ok u) :=
  .next (h.twinIn fun _ _ h => h.if_ (h.mk.if_ h.mk))

theorem specTwnStatus_keeps : specTwnStatus.Keeps := .of_act fun _ h => h

theorem State.Kept.execCmdTwnStatus (h : s.Kept u) {sl} : s.KeptR (execCmdTwnStatus sl u) := h.runCmd specTwnStatus_keeps

theorem specTwnTakeover_keeps : specTwnTakeover.Keeps := .of_act fun _ h => .ite h.setF.mk.sendReady.twinTake.agreeTakeover
    h.setF.mk.sendReady

theorem State.Kept.execCmdTwnTakeover (h : s.Kept u) {sl} : s.KeptR (execCmdTwnTakeover sl u) := h.runCmd specTwnTakeover_keeps

/-! ### Operations of Machine/PwrOps.lean -/

theorem State.Kept.sleepRequest (h : s.Kept u) {d v l12} : s.Kept (u.sleepRequest d v l12) := by
  dsimp only [State.sleepRequest]
  refine .if_ h.setF ?_
  refine .if_ h.setF.setF.pwrFlag ?_
  refine .if_ ?_ ?_
  · split
    exacts [h.setF.mk.setF.if_ h.setF.mk.domWake, h.setF.mk.setF.if_ h.setF.mk.setF.domWake]
  · split
    exacts [h.setF.if_ h.setF.setF.pwrFlag, h.setF.setF.if_ (h.setF.setF.pwrFlag.if_ h.setF.setF.domMove)]

theorem State.Kept.wakeWrite (h : s.Kept u) {v} : s.Kept (u.wakeWrite v) := h.forEach fun _ _ h => h.wr.domWake.if_ h

/-! ### Operations of Machine/RngRows.lean -/

theorem State.Kept.rngWord (h : s.Kept u) {x} : s.Kept (u.rngWord x) := h.if_ (h.mk.if_ h.mk)

theorem State.Kept.rngFeed (h : s.Kept u) {raw} : s.Kept (u.rngFeed raw) := h.forEach fun _ _ h => h.rngWord

theorem State.Kept.rngRun (h : s.Kept u) : s.Kept u.rngRun := h.setF.setF.mk

theorem State.Kept.rngBlock (h : s.Kept u) {cell} : s.Kept (u.rngBlock cell) := h.setF.mk.raise.notify

theorem State.Kept.execRngInstantiate (h : s.Kept u) {cells raw} : s.KeptR (execRngInstantiate cells raw u) :=
  .next ((h.doIf fun _ h => h.setF).rngFeed.doIf fun _ h => h.rngRun)

theorem State.Kept.rngCount (h : s.Kept u) {test} : s.Kept (u.rngCount test) := h.addSat

theorem State.Kept.rngFailCell (h : s.Kept u) {k} : s.Kept (u.rngFailCell k) :=
  h.if_ (h.setF.mk.setF.setF.raise.if_ h.setF.mk.setF.mk.raise)

theorem State.Kept.execRngCellFail (h : s.Kept u) {cells test} : s.KeptR (execRngCellFail cells test u) := by
  dsimp only [Machine.execRngCellFail]
  refine .ite (.next h) ?_
  refine .ite (.next h.rngCount) ?_
  refine .ite (.next (h.rngCount.forEach fun _ _ h => h.rngFailCell).rngBlock) ?_
  exact (.next (h.rngCount.forEach fun _ _ h => h.rngFailCell))

theorem State.Kept.execRngCellReturn (h : s.Kept u) {k raw} : s.KeptR (execRngCellReturn k raw u) :=
  .ite (.next h) (.next (h.setF.setF.rngFeed.doIf fun _ h => h.rngRun))

theorem State.Kept.execRngReseed (h : s.Kept u) {raw} : s.KeptR (execRngReseed raw u) := .next (h.rngFeed.doIf fun _ h => h.rngRun.addF)

theorem State.Kept.execRngBlockTimeout (h : s.Kept u) : s.KeptR (execRngBlockTimeout u) := .ite (.next h.rngBlock) (.next h)

theorem State.Kept.rngTestWrite (h : s.Kept u) {v} : s.Kept (u.rngTestWrite v) :=
  (h.wr.mk.setF.raise.if_ h.wr).if_ (h.wr.mk.setF.if_ h.wr)

theorem State.Kept.execRngTestEnter (h : s.Kept u) {value} : s.KeptR (execRngTestEnter value u) := .ite (.next h.rngTestWrite) (.next h)

theorem State.Kept.execRngTestExit (h : s.Kept u) {value} : s.KeptR (execRngTestExit value u) := .ite (.next h) (.next h.rngTestWrite)

theorem State.Kept.rngTake (h : s.Kept u) : s.Kept u.rngTake.2.2 := by
  dsimp only [State.rngTake]
  split
  exacts [h.drawBytes, h]

theorem State.Kept.execRngDataRead (h : s.Kept u) {host} : s.KeptR (execRngDataRead host u) := .ite (.next h.emit) (.next h.rngTake.emit)

theorem State.Kept.rngFill (h : s.Kept u) {ws} : s.Kept (u.rngFill ws) := h.mk.if_ h

theorem State.Kept.rngRawTake (h : s.Kept u) : s.Kept u.rngRawTake.2 := by
  dsimp only [State.rngRawTake]
  split
  exacts [h.mk, h]

theorem State.Kept.execRngRawRead (h : s.Kept u) {host samples} : s.KeptR (execRngRawRead host samples u) :=
  .ite (.next h.rngFill.emit) (.next h.rngFill.rngRawTake.emit)

theorem specRngHealth_keeps : specRngHealth.Keeps := .of_act fun _ h => h

theorem State.Kept.execCmdDiagRngHealth (h : s.Kept u) {sl} : s.KeptR (execCmdDiagRngHealth sl u) := h.runCmd specRngHealth_keeps

/-! ### Operations of Machine/RegAcc.lean -/

theorem State.Kept.irqSet (h : s.Kept u) {k src} : s.Kept (u.irqSet k src) := h.irq

theorem State.Kept.pairCtl (h : s.Kept u) {k v} : s.Kept (u.pairCtl k v) :=
  h.if_ ((h.doIf fun _ h => h.pairReset.doIf fun _ h => h.appsRestart).doIf fun _ h => h.setF)

theorem State.Kept.sluWindow (h : s.Kept u) {a} : s.Kept (u.sluWindow a).2 := by
  dsimp only [State.sluWindow]
  split
  · exact h
  · exact h.openBelow (n := 2 ^ 32)

theorem State.Kept.regWord (h : s.Kept u) {a} : s.Kept (u.regWord a).2 := by
  dsimp only [State.regWord]
  refine .ifSnd h.sluWindow ?_
  refine .ifSnd h.openBelow.openBelow ?_
  split
  · exact h
  · split <;> exact h

theorem State.Kept.setLatch (h : s.Kept u) {a v} : s.Kept (u.setLatch a v) := h.mk

theorem State.Kept.regRestore (h : s.Kept u) {a} : s.Kept (u.regRestore a) := by
  dsimp only [State.regRestore]
  split
  · exact h.put
  · refine .if_ h.wr ?_
    exact (h.wr.if_ ((h.wr.if_ (h.wr.if_ h.wr)).if_ (.if_ (by split; exacts [h.mk, h]) (by split; exacts [h.wr, h.put]))))

theorem State.Kept.regMismatch (h : s.Kept u) {a} : s.Kept (u.regMismatch a).2 :=
  .ifSnd h.regRestore.eccCorr (.ifSnd h.addF.zeroSlot.notify h.addF.mk.notify)

theorem State.Kept.regRead (h : s.Kept u) {ag x a} : s.Kept (u.regRead ag x a).2.2 := by
  unfold State.regRead
  split
  next p t e =>
  have ht : s.Kept t := by
    refine .of_snd e ?_
    split
    exacts [h.regMismatch, h]
  split
  · split
    exacts [ht, ht.rngTake]
  split
  · split
    exacts [ht.rngFill, ht.rngFill.rngRawTake]
  split
  · exact ht
  split
  · exact ht.setLatch
  split
  next v t e =>
  have ht : s.Kept t := .of_snd e ht.regWord
  extract_lets t1 _ t2 t3
  have h1 : s.Kept t1 := ht.regWord.setLatch.if_ ht
  have h2 : s.Kept t2 := h1.setLatch.setLatch.if_ h1
  show s.Kept t3
  subst t3
  split
  exacts [h2.if_ h2.wr, h2]

theorem State.Kept.regPut (h : s.Kept u) {a v} : s.Kept (u.regPut a v) := by
  dsimp only [State.regPut]
  split
  exacts [h, h.wr.mk]

theorem State.KeptR.resState {r : Res} (h : s.KeptR r) : s.Kept (resState u r) := by
  obtain ⟨t, rfl, ht⟩ := h
  exact ht

theorem State.Kept.sluWrite (h : s.Kept u) {a v} : s.Kept (u.sluWrite a v) := by
  unfold State.sluWrite
  obtain ⟨fold, hf⟩ := exists_eq' (a' := @List.foldl (Sched × State) ℕ)
  rw [hf]
  refine h.if_ (.mk (?_ : s.Kept (fold _ _ _).2))
  rw [← hf]
  exact .foldlSnd h fun _ _ h => (h.openBelow (n := 2 ^ 32)).openBelow (n := 4)

theorem State.Kept.keyWindow (h : s.Kept u) {a v} : s.Kept (u.keyWindow a v) := by
  dsimp only [State.keyWindow]
  split
  exacts [h.execKeyWindowStage.resState, h.execKeyWindowCommit.resState.if_ h]

theorem State.Kept.dmaRegWrite (h : s.Kept u) {comp x a v} : s.Kept (u.dmaRegWrite comp x a v) := by
  unfold State.dmaRegWrite
  exact (h.regPut.if_ h).if_ (h.if_ ((h.execDmaEnable.resState.execDmaDisable.resState.execDmaAbort.resState.if_
    h.execDmaEnable.resState.execDmaDisable.resState).if_ (h.execDmaDoorbell.resState.if_ (h.if_ h.regPut))))

theorem State.Kept.culRegWrite (h : s.Kept u) {a v} : s.Kept (u.culRegWrite a v) :=
  h.execCulWinCtlWrite.resState.if_ ((h.if_ h.regPut).if_ ((h.execCringEnable.resState.execCringDisable.resState.if_ (h.if_
    h.regPut)).if_ ((h.execEringEnable.resState.execEringDisable.resState.if_ (h.if_ h.regPut)).if_ h.regPut)))

theorem State.Kept.bar2Write (h : s.Kept u) {a v} : s.Kept (u.bar2Write a v) := by
  unfold State.bar2Write
  exact (h.execCringDoorbell.resState.if_ h).if_ ((h.execEringDoorbell.resState.if_ h).if_ ((h.regPut.wr.emit.if_ h.regPut).if_ h))

theorem State.Kept.wdtKick (h : s.Kept u) {v} : s.Kept (u.wdtKick v) := h.mk.if_ h

theorem State.Kept.regWrite (h : s.Kept u) {ag comp x a v} : s.Kept (u.regWrite ag comp x a v) := by
  dsimp only [State.regWrite]
  refine .if_ h ?_
  refine .if_ h.bar2Write ?_
  refine .if_ (h.keyWindow.if_ h) ?_
  refine .if_ h.irqSet ?_
  refine .if_ h.pairCtl ?_
  refine .if_ h.wakeWrite ?_
  refine .if_ h.sleepRequest ?_
  refine .if_ h.wdtKick ?_
  refine .if_ h.regPut.twinLanes ?_
  refine .if_ h.regPut.gacReselect ?_
  refine .if_ h.regPut.laneEnable ?_
  refine .if_ h.regPut.calChange ?_
  refine .if_ h.regPut.mmChange ?_
  refine .if_ h.sluWrite ?_
  refine .if_ ?_ ?_
  · split
    exacts [h.shdWr, h]
  refine .if_ h.execCiqCringHeadWrite.resState ?_
  refine .if_ (h.ciqWord.if_ h) ?_
  refine .if_ h.execKdfToWork.resState.execKdfToFld.resState ?_
  refine .if_ h.execKeyWorkClear.resState.execKeyMoveSlot.resState.execKeyMovePke.resState ?_
  refine .if_ h.mk ?_
  refine .if_ h.regPut.pkeNext ?_
  refine .if_ h.execPkeCringHeadWrite.resState ?_
  refine .if_ h.pkeWord ?_
  refine .if_ h.rngTestWrite ?_
  refine .if_ h.culRegWrite ?_
  refine .if_ h.dmaRegWrite ?_
  refine .if_ h.nvOpWrite ?_
  refine .if_ h.tmpLevelWrite ?_
  exact (h.regPut.if_ h.regPut.fldMode).if_ h.regPut

theorem State.Kept.hostStall (h : s.Kept u) {d acc} : s.Kept (u.hostStall d acc) := (h.if_ h.emit).if_ h.domWake.mk

theorem State.Kept.coreStall (h : s.Kept u) {k d addr acc} : s.Kept (u.coreStall k d addr acc) := h.domWake.setPr

theorem State.Kept.execRegisterWrite (h : s.Kept u) {agent addr bytes value x} : s.KeptR (execRegisterWrite agent addr bytes value x u)
    := by
  dsimp only [Machine.execRegisterWrite]
  refine .ite (.next h) ?_
  split
  · refine .ite (.next h) ?_
    split
    exacts [.next h.hostStall, .next h.regWrite]
  · refine .ite (.next h) ?_
    split
    exacts [.next h.coreStall, .next h.regWrite]

theorem State.Kept.execRegisterRead (h : s.Kept u) {agent addr bytes x} : s.KeptR (execRegisterRead agent addr bytes x u) := by
  dsimp only [Machine.execRegisterRead]
  refine .ite (.next h.emit) ?_
  refine .ite (.next h) ?_
  split
  exacts [.next h.hostStall, .next h.coreStall, .next h.regRead.emit]

/-! ### Operations of Machine/CpuOps.lean -/

/-! ### The results of an instruction's parts -/

section
variable {α β : Type} {f : α → State} {g : β → State}

theorem Ex.Kept.trap {l a b c} : Ex.Kept f s (.trap l a b c) := fun _ h => by cases h

theorem Ex.Kept.ite {p : Prop} {_ : Decidable p} {a b : Ex α} (ha : Ex.Kept f s a) (hb : Ex.Kept f s b) :
    Ex.Kept f s (if p then a else b) := by
  split <;> assumption

theorem Ex.Kept.bind {x : Ex β} {k : β → Ex α} (hx : Ex.Kept g s x) (hk : ∀ a, s.Kept (g a) → Ex.Kept f s (k a)) :
    Ex.Kept f s (x.bind k) := by
  cases x with
  | ok a => exact hk a (hx a rfl)
  | _ => exact fun _ h => by cases h

/-- What follows a check. -/
theorem Ex.Kept.bindPure {x : Ex β} {k : β → Ex α} (hk : ∀ a, Ex.Kept f s (k a)) : Ex.Kept f s (x.bind k) := by
  cases x with
  | ok a => exact hk a
  | _ => exact fun _ h => by cases h

theorem Ex.Kept.after {l} {x : Ex α} (hx : Ex.Kept f s x) : Ex.Kept f s (x.after l) := by
  cases x with
  | ok a => exact hx
  | _ => exact fun _ h => by cases h

end

theorem Ex.Kept.ifLegal {x : Ex State} {b w} (hx : Ex.Kept id s x) : Ex.Kept id s (ifLegal b w x) := hx.ite .fault

theorem Ex.Kept.selCheck {x : Ex State} {p : Pair} {n w} (hx : Ex.Kept id s x) : Ex.Kept id s (p.selCheck n w x) :=
  .ite .fault (.ite .fault hx)

theorem State.Kept.setTag16 (h : s.Kept u) {x b} : s.Kept (u.setTag16 x b) := h.mk

theorem State.Kept.coreRead (h : s.Kept u) {k x n i} : Ex.Kept (·.2.2) s (u.coreRead k x n i) := by
  unfold State.coreRead
  split
  · exact .ok h
  · exact .ok h
  · exact .ok h
  · split
    exacts [.ok h, .fault]
  · split
    · split
      · split
        next e => exact .ok (.of_snd_snd e h.regRead)
      · exact .ok h
    · exact .ok h
  · exact .ok h.eccSpan

theorem State.Kept.coreWrite (h : s.Kept u) {k x bs poison i} : s.Kept (u.coreWrite k x bs poison i) := by
  dsimp only [State.coreWrite]
  split
  · exact h.mk
  · exact h.emit
  · split
    exacts [h.regWrite.if_ h, h]
  · split
    exacts [h.memWrite.setPoison, h.memWrite]
  · split
    exacts [h.memWrite.setPoison, h.memWrite]
  · exact h

theorem State.Kept.putCap (h : s.Kept u) {k x c hw i} : s.Kept (u.putCap k x c hw i) := h.coreWrite.doIf fun _ h => h.setTag16

theorem State.Kept.doLoad (h : s.Kept u) {k a x size i} : Ex.Kept (·.2) s (u.doLoad k a x size i) := by
  dsimp only [State.doLoad]
  split
  exacts [.fault, .bindPure fun _ => .bind h.coreRead fun _ h => .ok h]

theorem State.Kept.doStore (h : s.Kept u) {k a x size v rt i} : Ex.Kept id s (u.doStore k a x size v rt i) := by
  dsimp only [State.doStore]
  split
  exacts [.fault, .ite .fault (.bindPure fun _ => .ite .fault (.ok (h.putCap.if_ h.coreWrite)))]

theorem State.Kept.haltPair (h : s.Kept u) {k reason cause} : s.Kept (u.haltPair k reason cause) :=
  h.setF.setF.wr.notify.if_ h.setF.setF.wr.irq.appsHalted

theorem State.Kept.pushFrame (h : s.Kept u) {k f p state} : s.Kept (u.pushFrame k f p state) := by
  dsimp only [State.pushFrame]
  refine (((h.coreWrite.doIf fun _ h => ?_).doIf fun _ h => ?_).doIf fun _ h => h.setTag16).doIf fun _ h => h.setTag16
  · split
    exacts [h.setPoison, h]
  · split
    exacts [h.setPoison, h]

theorem State.Kept.enter (h : s.Kept u) {k code acc eval irq} : s.Kept (u.enter k code acc eval irq) := by
  dsimp only [State.enter]
  split
  · exact h.haltPair.if_ h.coreStall
  · exact h
  · exact h.haltPair
  · exact h.haltPair
  · exact h.haltPair.if_ (by split; exacts [h.pushFrame.setPr.wr.wr, h.pushFrame.setPr.if_ h.pushFrame.setPr.appFault])

theorem State.Kept.settle (h : s.Kept u) {k e} (he : Ex.Kept id s e) : s.Kept (u.settle k e) := by
  dsimp only [State.settle]
  split
  · exact he _ rfl
  · exact h.enter
  · exact .enter (.openBelow h)
  · refine .enter ?_
    split
    · exact h.forEach fun _ _ h => h.eccSpan
    · exact .openBelow (.forEach h fun _ _ h => h.eccSpan)
  · exact h.enter.if_ h.coreStall
  · exact h

theorem State.Kept.fetched (h : s.Kept u) {k x ecc} : s.Kept (u.fetched k x ecc) := by
  unfold State.fetched
  split
  exacts [h.eccSpan, h]

theorem State.Kept.issue (h : s.Kept u) {k body} (hb : ∀ t p, s.Kept t → Ex.Kept id s (body t p)) :
    s.Kept (u.issue k body) :=
  h.if_ (h.fetched.settle (.bindPure fun _ => hb _ _ h.fetched))

theorem State.Kept.put1 (h : s.Kept u) {k p rd v} : Ex.Kept id s (u.put1 k p rd v) := .ok h.setPr

/-! ### Operations of Machine/CpuRows.lean -/

theorem State.Kept.alu (h : s.Kept u) {k o rd a b} : s.Kept (u.alu k o rd a b) := h.issue fun _ _ h => .ok h.setPr

theorem State.Kept.alui (h : s.Kept u) {k o rd a imm} : s.Kept (u.alui k o rd a imm) := h.issue fun _ _ h => .ok h.setPr

theorem State.Kept.execAdd (h : s.Kept u) {pair rd rs1 rs2} : s.KeptR (execAdd pair rd rs1 rs2 u) := .next h.alu

theorem State.Kept.execSub (h : s.Kept u) {pair rd rs1 rs2} : s.KeptR (execSub pair rd rs1 rs2 u) := .next h.alu

theorem State.Kept.execAnd (h : s.Kept u) {pair rd rs1 rs2} : s.KeptR (execAnd pair rd rs1 rs2 u) := .next h.alu

theorem State.Kept.execOr (h : s.Kept u) {pair rd rs1 rs2} : s.KeptR (execOr pair rd rs1 rs2 u) := .next h.alu

theorem State.Kept.execXor (h : s.Kept u) {pair rd rs1 rs2} : s.KeptR (execXor pair rd rs1 rs2 u) := .next h.alu

theorem State.Kept.execShl (h : s.Kept u) {pair rd rs1 rs2} : s.KeptR (execShl pair rd rs1 rs2 u) := .next h.alu

theorem State.Kept.execShr (h : s.Kept u) {pair rd rs1 rs2} : s.KeptR (execShr pair rd rs1 rs2 u) := .next h.alu

theorem State.Kept.execSar (h : s.Kept u) {pair rd rs1 rs2} : s.KeptR (execSar pair rd rs1 rs2 u) := .next h.alu

theorem State.Kept.execSlt (h : s.Kept u) {pair rd rs1 rs2} : s.KeptR (execSlt pair rd rs1 rs2 u) := .next h.alu

theorem State.Kept.execSltu (h : s.Kept u) {pair rd rs1 rs2} : s.KeptR (execSltu pair rd rs1 rs2 u) := .next h.alu

theorem State.Kept.execMul (h : s.Kept u) {pair rd rs1 rs2} : s.KeptR (execMul pair rd rs1 rs2 u) := .next h.alu

theorem State.Kept.execMulhu (h : s.Kept u) {pair rd rs1 rs2} : s.KeptR (execMulhu pair rd rs1 rs2 u) := .next h.alu

theorem State.Kept.execMulhs (h : s.Kept u) {pair rd rs1 rs2} : s.KeptR (execMulhs pair rd rs1 rs2 u) := .next h.alu

theorem State.Kept.execDivu (h : s.Kept u) {pair rd rs1 rs2} : s.KeptR (execDivu pair rd rs1 rs2 u) := .next h.alu

theorem State.Kept.execDivs (h : s.Kept u) {pair rd rs1 rs2} : s.KeptR (execDivs pair rd rs1 rs2 u) := .next h.alu

theorem State.Kept.execRemu (h : s.Kept u) {pair rd rs1 rs2} : s.KeptR (execRemu pair rd rs1 rs2 u) := .next h.alu

theorem State.Kept.execRems (h : s.Kept u) {pair rd rs1 rs2} : s.KeptR (execRems pair rd rs1 rs2 u) := .next h.alu

theorem State.Kept.execAddi (h : s.Kept u) {pair rd rs1 imm} : s.KeptR (execAddi pair rd rs1 imm u) := .next h.alui

theorem State.Kept.execAndi (h : s.Kept u) {pair rd rs1 imm} : s.KeptR (execAndi pair rd rs1 imm u) := .next h.alui

theorem State.Kept.execOri (h : s.Kept u) {pair rd rs1 imm} : s.KeptR (execOri pair rd rs1 imm u) := .next h.alui

theorem State.Kept.execXori (h : s.Kept u) {pair rd rs1 imm} : s.KeptR (execXori pair rd rs1 imm u) := .next h.alui

theorem State.Kept.execSlti (h : s.Kept u) {pair rd rs1 imm} : s.KeptR (execSlti pair rd rs1 imm u) := .next h.alui

theorem State.Kept.execSltui (h : s.Kept u) {pair rd rs1 imm} : s.KeptR (execSltui pair rd rs1 imm u) := .next h.alui

theorem State.Kept.execShli (h : s.Kept u) {pair rd rs1 imm} : s.KeptR (execShli pair rd rs1 imm u) := .next h.alui

theorem State.Kept.execShri (h : s.Kept u) {pair rd rs1 imm} : s.KeptR (execShri pair rd rs1 imm u) := .next h.alui

theorem State.Kept.execSari (h : s.Kept u) {pair rd rs1 imm} : s.KeptR (execSari pair rd rs1 imm u) := .next h.alui

theorem State.Kept.execLi (h : s.Kept u) {pair rd imm} : s.KeptR (execLi pair rd imm u) := .next (h.issue fun _ _ h => h.put1)

theorem State.Kept.execLis (h : s.Kept u) {pair rd imm} : s.KeptR (execLis pair rd imm u) := .next (h.issue fun _ _ h => h.put1)

theorem State.Kept.loadAndBack (h : s.Kept u) {p rt rb e v} : s.Kept (u.loadAndBack p rt rb e v).2 := by
  dsimp only [State.loadAndBack]
  exact .ifSnd h.openBelow h

theorem State.Kept.ldOp (h : s.Kept u) {k rt rb mode size low x} : Ex.Kept id s (u.ldOp k rt rb mode size low x) :=
  .bindPure fun _ => .bind h.doLoad fun _ h => by exact .ok h.loadAndBack.setPr

theorem State.Kept.stOp (h : s.Kept u) {k rt rb mode size low x} : Ex.Kept id s (u.stOp k rt rb mode size low x) :=
  .bindPure fun _ => .bind h.doStore fun _ h => .ok h.setPr

theorem State.Kept.mcpyOp (h : s.Kept u) {k rd rs1 size x y} : Ex.Kept id s (u.mcpyOp k rd rs1 size x y) := by
  dsimp only [State.mcpyOp]
  refine .ite .fault (.ite .fault ?_)
  split
  exacts [.fault, .fault, .bind h.doLoad fun _ h => .bind h.doStore.after fun _ h => .ok h.setPr]

theorem State.Kept.done (h : s.Kept u) {k n} : Ex.Kept id s (u.done k n) := .ok h.setPr

theorem State.Kept.execLd (h : s.Kept u) {pair rt rb mode size low x} : s.KeptR (execLd pair rt rb mode size low x u) :=
  .next (h.issue fun _ _ h => .ifLegal (.bind h.ldOp fun _ h => h.done))

theorem State.Kept.execSt (h : s.Kept u) {pair rt rb mode size low x} : s.KeptR (execSt pair rt rb mode size low x u) :=
  .next (h.issue fun _ _ h => .ifLegal (.bind h.stOp fun _ h => h.done))

theorem State.Kept.execLea (h : s.Kept u) {pair rt rb mode size low} : s.KeptR (execLea pair rt rb mode size low u) :=
  .next (h.issue fun _ _ h => .ifLegal (.ok h.loadAndBack.setPr))

theorem State.Kept.atomic (h : s.Kept u) {k rd rs1 rs2 cas f i} : Ex.Kept id s (u.atomic k rd rs1 rs2 cas f i) := by
  dsimp only [State.atomic]
  refine .ite .fault ?_
  split
  exacts [.fault, .ite .fault (.bindPure fun _ => .ok (h.eccSpan.coreWrite.if_ h.eccSpan).setPr)]

theorem State.Kept.execCas (h : s.Kept u) {pair rd rs1 rs2 x} : s.KeptR (execCas pair rd rs1 rs2 x u) :=
  .next (h.issue fun _ _ h => h.atomic)

theorem State.Kept.execSwap (h : s.Kept u) {pair rd rs1 rs2 x} : s.KeptR (execSwap pair rd rs1 rs2 x u) :=
  .next (h.issue fun _ _ h => h.atomic)

theorem State.Kept.execAmoadd (h : s.Kept u) {pair rd rs1 rs2 x} : s.KeptR (execAmoadd pair rd rs1 rs2 x u) :=
  .next (h.issue fun _ _ h => h.atomic)

theorem State.Kept.execMcpy (h : s.Kept u) {pair rd rs1 size x y} : s.KeptR (execMcpy pair rd rs1 size x y u) :=
  .next (h.issue fun _ _ h => .bind h.mcpyOp fun _ h => h.done)

theorem State.Kept.execBcond (h : s.Kept u) {pair cond rs1 rs2 off} : s.KeptR (execBcond pair cond rs1 rs2 off u) :=
  .next (h.issue fun _ _ h => .ite .fault (.ite .fault (.ok h.setPr)))

theorem State.Kept.execJmp (h : s.Kept u) {pair off} : s.KeptR (execJmp pair off u) := .next (h.issue fun _ _ h => .ok h.setPr)

theorem State.Kept.callTo (h : s.Kept u) {k t x} : Ex.Kept id s (u.callTo k t x) :=
  .ite .fault (by split; exacts [.fault, .bindPure fun _ => .ok h.putCap.setPr])

theorem State.Kept.execCall (h : s.Kept u) {pair off x} : s.KeptR (execCall pair off x u) := .next (h.issue fun _ _ h => h.callTo)

theorem State.Kept.execJr (h : s.Kept u) {pair rs1} : s.KeptR (execJr pair rs1 u) :=
  .next (h.issue fun _ _ h => .bindPure fun _ => .ok h.setPr)

theorem State.Kept.execCallr (h : s.Kept u) {pair rs1 x} : s.KeptR (execCallr pair rs1 x u) :=
  .next (h.issue fun _ _ h => .bindPure fun _ => h.callTo)

theorem State.Kept.execRet (h : s.Kept u) {pair x} : s.KeptR (execRet pair x u) :=
  .next (h.issue fun _ _ h => .ite .fault (.bind h.doLoad fun _ h => .ite .trap (.ok h.setTag16.setPr)))

theorem State.Kept.execCsrr (h : s.Kept u) {pair rd sel} : s.KeptR (execCsrr pair rd sel u) :=
  .next (h.issue fun _ _ h => h.put1.selCheck)

theorem State.Kept.execCsrw (h : s.Kept u) {pair rs sel} : s.KeptR (execCsrw pair rs sel u) :=
  .next (h.issue fun _ _ h => .selCheck (.ite .fault (.ok h.setPr)))

theorem State.Kept.execScall (h : s.Kept u) {pair} : s.KeptR (execScall pair u) :=
  .next (h.issue fun _ _ h => .ite .fault (.ite .fault (.ok h.setPr)))

theorem State.Kept.execSret (h : s.Kept u) {pair} : s.KeptR (execSret pair u) := .next (h.issue fun _ _ h => .ite .fault (.ok h.setPr))

theorem State.Kept.execRetx (h : s.Kept u) {pair x} : s.KeptR (execRetx pair x u) := by
  dsimp only [Machine.execRetx]
  refine .next (h.issue fun _ _ h => ?_)
  refine .ite .fault ?_
  split
  · exact .fault
  · exact .bindPure fun _ => .bind h.coreRead fun _ h => .ite .trap (.ok ((h.doIf fun _ h => h.wr).forEach fun _ _ h => h.setTag16).setPr)

theorem State.Kept.execFence (h : s.Kept u) {pair} : s.KeptR (execFence pair u) := .next (h.issue fun _ _ h => .ok h.setPr)

theorem State.Kept.execWfi (h : s.Kept u) {pair} : s.KeptR (execWfi pair u) := .next (h.issue fun _ _ h => .ite .fault (.ok h.setPr))

theorem State.Kept.execEbreak (h : s.Kept u) {pair} : s.KeptR (execEbreak pair u) := .next (h.issue fun _ _ _ => .fault)

theorem State.Kept.runRep (h : s.Kept u) {k o x y} : Ex.Kept id s (u.runRep k o x y) := by
  unfold State.runRep
  split
  exacts [.ok h.setPr, .ok h.setPr, h.ldOp, h.stOp, h.mcpyOp]

theorem State.Kept.runReps (h : s.Kept u) {k o n xs} : Ex.Kept id s (State.runReps k o n xs u) := by
  induction n generalizing u xs with
  | zero => exact .ok h
  | succ n ih =>
    unfold State.runReps
    exact .bind h.runRep fun _ h => (ih h).after

theorem State.Kept.execRep (h : s.Kept u) {pair n word xs} : s.KeptR (execRep pair n word xs u) := by
  dsimp only [Machine.execRep]
  refine .next (h.issue fun _ _ h => .after (.bindPure fun _ => ?_))
  split
  · exact .fault
  · exact .bind (h.if_ h.fetched).runReps fun _ h => h.done

theorem State.Kept.execRepi (h : s.Kept u) {pair word} : s.KeptR (execRepi pair word u) := by
  dsimp only [Machine.execRepi]
  refine .next (h.issue fun _ _ h => ?_)
  refine .after (.bindPure fun _ => ?_)
  split
  exacts [.fault, .ite .fault (.ite (h.if_ h.fetched).done (.ok (h.if_ h.fetched).setPr))]

theorem State.Kept.execRepiIteration (h : s.Kept u) {pair x y} : s.KeptR (execRepiIteration pair x y u) := by
  dsimp only [Machine.execRepiIteration]
  split
  exacts [.next h, .ite (.next h) (.next (h.settle (.bind h.runRep fun _ h => .ok h.setPr)))]

theorem State.Kept.execIllegalInstruction (h : s.Kept u) {pair word} : s.KeptR (execIllegalInstruction pair word u) :=
  .next (h.issue fun _ _ _ => .ite .hold .fault)

theorem State.Kept.capOp (h : s.Kept u) {k rd a b f} : s.Kept (u.capOp k rd a b f) := h.issue fun _ _ h => h.put1

theorem State.Kept.execCmv (h : s.Kept u) {pair rd rs1} : s.KeptR (execCmv pair rd rs1 u) := .next h.capOp

theorem State.Kept.execCaddr (h : s.Kept u) {pair rd rs1 rs2} : s.KeptR (execCaddr pair rd rs1 rs2 u) := .next h.capOp

theorem State.Kept.execCdrop (h : s.Kept u) {pair rd rs1 rs2} : s.KeptR (execCdrop pair rd rs1 rs2 u) := .next h.capOp

theorem State.Kept.execCclip (h : s.Kept u) {pair rd rs1 rs2} : s.KeptR (execCclip pair rd rs1 rs2 u) := .next h.capOp

theorem State.Kept.execCclipx (h : s.Kept u) {pair rd rs1 rs2} : s.KeptR (execCclipx pair rd rs1 rs2 u) := .next h.capOp

theorem State.Kept.execCbind (h : s.Kept u) {pair rd rs1 rs2} : s.KeptR (execCbind pair rd rs1 rs2 u) := .next h.capOp

theorem State.Kept.execCunbind (h : s.Kept u) {pair rd rs1 rs2} : s.KeptR (execCunbind pair rd rs1 rs2 u) := .next h.capOp

theorem State.Kept.execCstrip (h : s.Kept u) {pair rd rs1} : s.KeptR (execCstrip pair rd rs1 u) := .next h.capOp

theorem State.Kept.execCwithin (h : s.Kept u) {pair rd rs1 rs2} : s.KeptR (execCwithin pair rd rs1 rs2 u) := .next h.capOp

theorem State.Kept.execCsame (h : s.Kept u) {pair rd rs1 rs2} : s.KeptR (execCsame pair rd rs1 rs2 u) := .next h.capOp

theorem State.Kept.execCinsp (h : s.Kept u) {pair rd rs1 sel} : s.KeptR (execCinsp pair rd rs1 sel u) :=
  .next (h.issue fun _ _ h => h.put1.ifLegal)

theorem State.Kept.execCaddi (h : s.Kept u) {pair rd rs1 imm} : s.KeptR (execCaddi pair rd rs1 imm u) :=
  .next (h.issue fun _ _ h => h.put1)

theorem State.Kept.execDevIrqSetWrite (h : s.Kept u) {pair src} : s.KeptR (execDevIrqSetWrite pair src u) := .next h.irqSet

theorem State.Kept.execPairStart (h : s.Kept u) {pair} : s.KeptR (execPairStart pair u) := .next (h.domWake.if_ h.pairCtl)

theorem State.Kept.execPairReset (h : s.Kept u) {pair} : s.KeptR (execPairReset pair u) := .next (h.domWake.if_ h.pairCtl)

theorem State.Kept.execInterruptTake (h : s.Kept u) {pair} : s.KeptR (execInterruptTake pair u) := by
  dsimp only [Machine.execInterruptTake]
  split
  exacts [.next h, .ite (.next h.domWake) (.ite (.next h) (.ite (.next h) (.next h.enter)))]

theorem State.Kept.execLockstepMismatch (h : s.Kept u) {pair} : s.KeptR (execLockstepMismatch pair u) :=
  .ite (.next h) (.next (h.setF.setF.doIf fun _ h => h.irq.appsHalted).respond)

/-! ### Operations of Machine/EgrRows.lean -/

theorem State.Kept.egressIdle (h : s.Kept u) {k} : s.Kept (u.egressIdle k) := by
  unfold State.egressIdle
  split
  · exact h.startId
  · refine .if_ h.sendPdelay ?_
    refine .if_ h.sendCal ?_
    split
    · exact h.resume.if_ h
    · split
      exacts [h.startLow, h.lowStarve]

theorem State.Kept.egressBusy (h : s.Kept u) {k x} : s.Kept (u.egressBusy k x) := by
  unfold State.egressBusy
  split
  exacts [h.preempt.taskNow.startId.if_ h, h]

theorem State.Kept.execEgressTxStart (h : s.Kept u) {lane} : s.KeptR (execEgressTxStart lane u) := by
  dsimp only [Machine.execEgressTxStart]
  refine .ite (.next h) ?_
  split
  exacts [.next h.countWaits.egressBusy, .next h.countWaits.egressIdle]

theorem State.Kept.execEgressFcs (h : s.Kept u) {lane} : s.KeptR (execEgressFcs lane u) := by
  dsimp only [Machine.execEgressFcs]
  split
  · exact .next h
  · split
    exacts [.next (h.setCopy.emit.doIf fun _ h => h.countStomp.stompEvt.countDiscard), .next h]

theorem State.Kept.endSpoilt (h : s.Kept u) {f c} : s.Kept (u.endSpoilt f c) := (h.pc.stompEvt.if_ h.pc).countDiscard

theorem State.Kept.execEgressTxEnd (h : s.Kept u) {lane} : s.KeptR (execEgressTxEnd lane u) := by
  dsimp only [Machine.execEgressTxEnd]
  split
  · exact .next h
  · split
    exacts [.next ((h.doIf fun _ h => h.emit.doIf fun _ h => h.endSpoilt).doIf fun _ h => h.charge).dropCopy.taskNow, .next h]

/-! ### Operations of Machine/PkeCmds.lean -/

theorem State.Kept.discard (h : s.Kept u) {j} : s.Kept (PkeIn.discard j u) := h.wr.mk

theorem State.Kept.pkeFault (h : s.Kept u) {lvl} : s.Kept (u.pkeFault lvl) := h.addF.pkeFlag.respond

theorem State.Kept.pkeAct (h : s.Kept u) {faults j outOff x3} : CmdRes.Kept (pkeAct faults j outOff x3 u) s := by
  dsimp only [Machine.pkeAct]
  refine .ite ((h.addF.doIf fun _ h => h.discard.pkeFault).discard.pkeFault) ?_
  exact ((h.addF.doIf fun _ h => h.discard.pkeFault).run.putBuf)

theorem specPkeSign_keeps {faults} : (specPkeSign faults).Keeps := .of_act fun _ h => h.pkeAct

theorem State.Kept.execCmdPkeSign (h : s.Kept u) {sl faults} : s.KeptR (execCmdPkeSign sl faults u) := h.runCmd specPkeSign_keeps

theorem specPkeVerify_keeps {faults} : (specPkeVerify faults).Keeps := .of_act fun _ h => h.pkeAct

theorem State.Kept.execCmdPkeVerify (h : s.Kept u) {sl faults} : s.KeptR (execCmdPkeVerify sl faults u) := h.runCmd specPkeVerify_keeps

theorem specPkeEcdh_keeps {faults} : (specPkeEcdh faults).Keeps := .of_act fun _ h => h.pkeAct

theorem State.Kept.execCmdPkeEcdh (h : s.Kept u) {sl faults} : s.KeptR (execCmdPkeEcdh sl faults u) := h.runCmd specPkeEcdh_keeps

theorem specPkeKeygen_keeps {faults} : (specPkeKeygen faults).Keeps := .of_act fun _ h => h.pkeAct

theorem State.Kept.execCmdPkeKeygen (h : s.Kept u) {sl faults} : s.KeptR (execCmdPkeKeygen sl faults u) := h.runCmd specPkeKeygen_keeps

theorem specPkePubkey_keeps {faults} : (specPkePubkey faults).Keeps := .of_act fun _ h => h.pkeAct

theorem State.Kept.execCmdPkePubkey (h : s.Kept u) {sl faults} : s.KeptR (execCmdPkePubkey sl faults u) := h.runCmd specPkePubkey_keeps

/-! ### Operations of Machine/PldRows.lean -/

theorem State.Kept.pldInject (h : s.Kept u) {payload} : s.Kept (u.pldInject payload) := by
  dsimp only [State.pldInject]
  exact h.openBytes.emit.if_ (by split; exacts [h.openBytes.emit, h.openBytes.emit.mk.lookup])

theorem State.Kept.execBeaconSend (h : s.Kept u) : s.KeptR (execBeaconSend u) := by
  dsimp only [Machine.execBeaconSend]
  refine .ite (.next h) ?_
  split
  exacts [.next h, .next (h.sign.mk.pldInject.doIf fun _ h => h.twinSend)]

theorem State.Kept.handleSched (h : s.Kept u) {x} : s.Kept (u.handleSched x) := by
  dsimp only [State.handleSched]
  refine .if_ h ?_
  split
  exacts [h.mk.twnFlag.if_ (by split; exacts [h.mk.rollTake.doIf fun _ h => h.twnFlag, h.mk.twnFlag]), h.mk.twnFlag]

theorem State.Kept.yieldLead (h : s.Kept u) {b} : s.Kept (u.yieldLead b) := h.doIf fun _ h => h.setF

theorem State.Kept.takeBeacon (h : s.Kept u) {b} : s.Kept (u.takeBeacon b) :=
  ((h.setF.doIf fun _ h => h.mk).wr.wr64.yieldLead.mk.doIf fun _ h => h.mk).forEach fun _ _ h => h.handleSched

theorem State.Kept.execBeaconRx (h : s.Kept u) {payload} : s.KeptR (execBeaconRx payload u) := by
  unfold Machine.execBeaconRx
  refine .ite (.next h) ?_
  split
  exacts [.ite (.next h.takeBeacon.irqAll) (.next h.gacFlag), .next h.gacFlag]

theorem State.Kept.execLeaderTimeout (h : s.Kept u) : s.KeptR (execLeaderTimeout u) := .ite (.next h) (.next h.setF.twnFlag)

theorem State.Kept.execReportSend (h : s.Kept u) : s.KeptR (execReportSend u) := by
  dsimp only [Machine.execReportSend]
  refine .ite (.next h) ?_
  split
  exacts [.next h, .next h.sign.pldInject]

theorem State.Kept.countMembers (h : s.Kept u) : s.Kept u.countMembers := h.mk.setF

theorem State.Kept.execReportRx (h : s.Kept u) {payload} : s.KeptR (execReportRx payload u) :=
  .ite (.next h) (.next h.mk.countMembers.irqAll)

theorem specPldStatus_keeps : specPldStatus.Keeps := .of_act fun _ h => h

theorem State.Kept.execCmdPldStatus (h : s.Kept u) {sl} : s.KeptR (execCmdPldStatus sl u) := h.runCmd specPldStatus_keeps

theorem specPldJoin_keeps {card} : (specPldJoin card).Keeps := .of_act fun _ h => h.takeCred

theorem State.Kept.execCmdPldJoin (h : s.Kept u) {sl card} : s.KeptR (execCmdPldJoin sl card u) := h.runCmd specPldJoin_keeps

theorem specPldLeave_keeps : specPldLeave.Keeps := .of_act fun _ h => h.recordWrite.mk.showCred.setF

theorem State.Kept.execCmdPldLeave (h : s.Kept u) {sl} : s.KeptR (execCmdPldLeave sl u) := h.runCmd specPldLeave_keeps

theorem specPldKeySchedule_keeps : specPldKeySchedule.Keeps := .of_act fun _ h => h.rollTake.mk

theorem State.Kept.execCmdPldKeySchedule (h : s.Kept u) {sl} : s.KeptR (execCmdPldKeySchedule sl u) := h.runCmd specPldKeySchedule_keeps

/-! ### Operations of Machine/PwrRows.lean -/

theorem State.Kept.placeAll {l} (h : s.Kept u) : s.Kept (placeAll l u).1 := by
  induction l generalizing u with
  | nil => exact h
  | cons e l ih =>
    unfold Machine.placeAll
    split
    · rename_i e
      exact ih (.of_some e h.placeWay)
    · exact ih h

theorem State.Kept.placeTries (h : s.Kept u) {n l} : s.Kept (placeTries n l u).1 := by
  induction n generalizing u with
  | zero => exact h
  | succ n ih =>
    dsimp only [Machine.placeTries]
    split
    exacts [h.drawBytes.mk.placeAll, ih h.drawBytes.mk]

theorem State.Kept.placeStatics (h : s.Kept u) : s.Kept u.placeStatics := h.placeTries.forEach fun _ _ h => h.rstFlag

theorem State.Kept.pipeLoses (h : s.Kept u) {j off} : s.Kept (u.pipeLoses j off) := by
  dsimp only [State.pipeLoses]
  exact h.resetRegs.mk

theorem State.Kept.sharedLoses (h : s.Kept u) : s.Kept u.sharedLoses := h.mk.enterGrv.resetRegs.mk

theorem State.Kept.domLoses (h : s.Kept u) {d off} : s.Kept (u.domLoses d off) := by
  dsimp only [State.domLoses]
  refine .if_ (h.resetRegs.mk.if_ h.resetRegs) ?_
  refine .if_ (h.setPr.resetRegs.setF.memZero.if_ h) ?_
  refine .if_ ((h.pipeLoses.doIf fun _ h => h.resetRegs).doIf fun _ h => h.sharedLoses) ?_
  refine .if_ (h.katAbandon.resetRegs.mk.if_ h) ?_
  refine .if_ h.resetRegs.mk ?_
  refine .if_ (h.forEach fun _ _ h => (h.lanePower.resetRegs.setCalLane.if_ h.lanePower.resetRegs.wr).setF) ?_
  refine .if_ h.setTl.setTl ?_
  refine .if_ h.mk ?_
  refine .if_ (h.resetRegs.doIf fun _ h => h.setF) ?_
  exact h.fieldGone.resetRegs.if_ h

theorem State.Kept.domWritten (h : s.Kept u) {d wasShared} : s.Kept (u.domWritten d wasShared) :=
  (((h.doIf fun _ h => h.putAll).forEach fun _ _ h => h.putAll).forEach fun _ _ h => h.bindPort).if_ ((h.forEach fun _ _ h =>
    h.putLane.lanePower).if_ (h.twinLanes.if_ ((h.forEach fun _ _ h => h.wr).if_ h)))

theorem State.Kept.execDomainSleepRequest (h : s.Kept u) {d value l12} : s.KeptR (execDomainSleepRequest d value l12 u) :=
  .next h.sleepRequest

theorem State.Kept.execPwrWakeWrite (h : s.Kept u) {value} : s.KeptR (execPwrWakeWrite value u) := .next h.wakeWrite

theorem State.Kept.execDomainWake (h : s.Kept u) {d det} : s.KeptR (execDomainWake d det u) := by
  unfold Machine.execDomainWake
  refine .ite (.next h) ?_
  split
  exacts [.ite (.next h.laneWake) (.next h.domWake), .next h.domWake]

theorem State.Kept.domEnter (h : s.Kept u) {d dst} : s.Kept (u.domEnter d dst) := h.dropTrans.setDom.domLoses.setF.pwrFlag

theorem State.Kept.execDomainEnterDone (h : s.Kept u) {d} : s.KeptR (execDomainEnterDone d u) := by
  unfold Machine.execDomainEnterDone
  refine .ite (.next h) ?_
  split
  exacts [.ite (.next h) (.next h.domEnter), .next h]

theorem State.Kept.runStalled (h : s.Kept u) {d x} : s.Kept (u.runStalled d x) := h.mk.forEach fun _ _ h => h.regWrite.if_ h.regRead.emit

theorem State.Kept.unstall (h : s.Kept u) {d} : s.Kept (u.unstall d) := h.forEach fun _ _ h => by split; exacts [h.setPr.if_ h, h]

theorem State.Kept.cipherTested (h : s.Kept u) {fails} : s.Kept (u.cipherTested fails) := h.setF.mk.forEach fun _ _ h => h.retireCore

theorem State.Kept.domReady (h : s.Kept u) {d src lost fails x} : s.Kept (u.domReady d src lost fails x) :=
  ((((((h.doIf fun _ h => h.resetRegs.openBelow.pwrFlag.notify).dropTrans.setDom.mk.addF.wr.domWritten.doIf fun _ h =>
    h.placeStatics).doIf fun _ h => h.badLoad).doIf fun _ h => h.cipherTested).doIf fun _ h => h.setF).doIf fun _ h =>
    h.setF).pwrFlag.runStalled.unstall

theorem State.Kept.execDomainReady (h : s.Kept u) {d lost fails x} : s.KeptR (execDomainReady d lost fails x u) := by
  unfold Machine.execDomainReady
  refine .ite (.next h) ?_
  split
  exacts [.ite (.next h.domReady) (.next h), .next h]

theorem State.Kept.domStuck (h : s.Kept u) {d} : s.Kept (u.domStuck d) := by
  unfold State.domStuck
  extract_lets mine _ t1 t2 t3 t4 t5 q
  have h2 : s.Kept t2 := h.mk.forEach fun _ _ h => h.if_ h.emit
  have h3 : s.Kept t3 := by
    refine h2.forEach fun _ _ h => ?_
    split
    exacts [h.setPr.enter.if_ h, h]
  have h4 : s.Kept t4 := by
    refine h3.dmaCxlLost.if_ (.if_ (h3.forEach fun _ _ h => ?_) h3)
    split
    exacts [h.dmaEnd.if_ h, h]
  have h5 : s.Kept t5 := h4.forEach fun _ _ h => h.finishWait
  exact (h5.pwrFlag.openBelow (n := 256)).notify

theorem State.Kept.execDomainWakeTimeout (h : s.Kept u) {d} : s.KeptR (execDomainWakeTimeout d u) := by
  unfold Machine.execDomainWakeTimeout
  split
  exacts [.ite (.next h.domStuck) (.next h), .next h]

/-! ### Operations of Machine/ResetRows.lean -/

theorem State.Kept.causeEntry (h : s.Kept u) {c} : s.Kept (u.causeEntry c) := h.mk.bootEntry

theorem State.Kept.resetCause (h : s.Kept u) {c} : s.Kept (u.resetCause c) := h.wr.addF.setF

theorem State.Kept.powerLost (h : s.Kept u)
    {rg a b c d e f g i j k l m n o p q r v w x y z a1 b1 c1 d1 e1 f1 g1 h1 i1 j1} :
    s.Kept ⟨Tbl.clear u.regs rg, a, b, c, d, e, f, g, i, j, k, l, m, n, o, p, q, r, v, w, x, y, z, a1, b1, c1, d1, e1, f1, g1, [],
      h1, i1, j1, u.pending⟩ :=
  ⟨h.1, fun hs => ⟨Tbl.wf_clear _ _ _ (h.2 hs).regs, rfl⟩⟩

theorem State.Kept.unpower (h : s.Kept u) {keys ecc} : s.Kept (u.unpower keys ecc) := by
  unfold State.unpower
  split
  · exact h.nvCut.powerLost
  · exact State.Kept.powerLost h

theorem State.Kept.b1 (h : s.Kept u) : s.Kept u.b1 := h.wr.setF.forEach fun _ _ h => h.wr

theorem State.Kept.coldStart (h : s.Kept u) : s.Kept u.coldStart := h.resetRegs.mk

theorem State.Kept.fieldFrom (h : s.Kept u) {hd harvested} : s.Kept (u.fieldFrom hd harvested) := (h.forEach fun _ _ h => h.wr).setB.mk

theorem State.Kept.execPowerOn (h : s.Kept u) : s.KeptR (execPowerOn u) :=
  .next ((h.unpower.coldStart.if_ h.unpower).mk.gacPowerOn.b1.resetCause.causeEntry.doIf fun _ h => h.fieldFrom.setDom)

theorem State.Kept.railReset (h : s.Kept u) {sram} : s.Kept (u.railReset sram) := h.unpower.b1.resetCause.causeEntry

theorem State.Kept.execRailReset (h : s.Kept u) {sram} : s.KeptR (execRailReset sram u) := .next h.railReset

theorem State.Kept.restartDom (h : s.Kept u) {d} : s.Kept (u.restartDom d) := h.dropTrans.setDom.domLoses.domMove

theorem State.Kept.hostLoses (h : s.Kept u) : s.Kept u.hostLoses := h.windowLoss.resetRegs.mk

theorem State.Kept.execSerdesRailReset (h : s.Kept u) : s.KeptR (execSerdesRailReset u) :=
  .next (h.resetCause.bootEntry.cxlLost.cxlLost.hostLoses.forEach fun _ _ h => h.restartDom)

theorem State.Kept.execIo33RailReset (h : s.Kept u) : s.KeptR (execIo33RailReset u) :=
  .next (h.resetCause.bootEntry.if_ h.resetCause.bootEntry.cardGone.cardWaits).fieldGone.cardWaits.resetRegs

theorem State.Kept.execPerst (h : s.Kept u) : s.KeptR (execPerst u) := .next h.resetCause.bootEntry.windowLoss.mk

theorem State.Kept.journalRedo (h : s.Kept u) : s.Kept u.journalRedo :=
  (h.mk.forEach fun _ _ h => h.nvErase.journal).setF.doIf fun _ h => h.nvFlag

theorem State.Kept.showRoot (h : s.Kept u) : s.Kept u.showRoot := by
  dsimp only [State.showRoot]
  split
  exacts [h.setB.setF.setB.mk, h.setB.setF.setB]

theorem State.Kept.rootNew (h : s.Kept u) : s.Kept u.rootNew := h.drawBytes.mk

theorem State.Kept.bootImage (h : s.Kept u) {n fb img} : s.Kept (u.bootImage n fb img) :=
  (h.setB.setB.setB.setF.setF.wr.mk.doIf fun _ h => (h.forEach fun _ _ h => h.nvEraseJ).nvWrite).doIf fun _ h => h.rstFlag

theorem State.Kept.breachRelease (h : s.Kept u) : s.Kept u.breachRelease := h.mk.setF.if_ h

theorem State.Kept.bootRom (h : s.Kept u) {cardA cardB} : s.Kept (u.bootRom cardA cardB).2 := by
  -- opaque while the lets are lifted out of it: the kernel would otherwise run the boot ROM
  obtain ⟨snd, hp⟩ := exists_eq' (a' := @Prod.snd Bool State)
  unfold State.bootRom
  rw [hp]
  extract_lets t1 t2 t3 t4
  rw [← hp]
  have h1 : s.Kept t1 := h.doIf fun _ h => h.mk.setB.notify
  have h2 : s.Kept t2 := h1.journalRedo.badLoad
  have h4 : s.Kept t4 := (h2.rootNew.if_ h2).showRoot.breachRelease
  split
  exacts [h4.setB.bootImage, h4.setB]

theorem State.Kept.loadRecords (h : s.Kept u) : s.Kept u.loadRecords := by
  dsimp only [State.loadRecords]
  split <;> exact h.mk

theorem State.Kept.loadSet (h : s.Kept u) : s.Kept u.loadSet := by
  dsimp only [State.loadSet]
  split
  · exact h.wr64.wr64.mk.putSet.gacReselect.setF.wr64
  · exact h.wr64.wr64.mk.putSet.gacReselect.setF.wr64.doIf fun _ h => h.cfgFlag
  · exact h.wr64.wr64.mk.setF

theorem State.Kept.protectBoot (h : s.Kept u) : s.Kept u.protectBoot := h.forEach fun _ _ h => h.setProt

theorem State.Kept.wdtStart (h : s.Kept u) : s.Kept u.wdtStart := h.setB.mk

theorem State.Kept.stage_ (h : s.Kept u) {n} : s.Kept (u.stage_ n) := h.setF.rstFlag.updService.if_ h

theorem State.Kept.execStageB1 (h : s.Kept u) : s.KeptR (execStageB1 u) := .ite (.next h.b1.rstFlag) (.next h)

theorem State.Kept.romDone (h : s.Kept u) {started restart} : s.Kept (u.romDone started restart) := h.mk

theorem State.Kept.execStageB2 (h : s.Kept u) {cardA cardB} : s.KeptR (execStageB2 cardA cardB u) := by
  dsimp only [Machine.execStageB2]
  refine .ite (.next h) ?_
  exact (.ite (.next (h.doIf fun _ h => h.setDom).bootRom.romDone.stage_) (.next (h.doIf fun _ h => h.setDom).bootRom.romDone))

theorem State.Kept.execStageB3 (h : s.Kept u) : s.KeptR (execStageB3 u) := by
  dsimp only [Machine.execStageB3]
  refine .ite (.next h) ?_
  exact (.next (((h.protectBoot.loadRecords.doIf fun _ h => h.recordWrite).loadSet.placeStatics.wdtStart.doIf fun _ h => h.setF).doIf fun
    _ h => h.mailbox).stage_)

theorem State.Kept.execStageB4 (h : s.Kept u) {fails} : s.KeptR (execStageB4 fails u) := by
  dsimp only [Machine.execStageB4]
  refine .ite (.next h) ?_
  exact (.next (((h.forEach fun _ _ h => h.dropTrans.setDom).cipherTested.forEach fun _ _ h => h.domWritten).forEach fun _ _ h =>
    h.dropTrans.setDom.domWritten).stage_)

theorem State.Kept.execStageB5 (h : s.Kept u) {present late} : s.KeptR (execStageB5 present late u) := by
  dsimp only [Machine.execStageB5]
  refine .ite (.next h) ?_
  exact (.ite (.next ((h.if_ h.dropTrans.setDom.mk).mk.doIf fun _ h => h.grvFlag).stage_) (.next (h.if_ h.dropTrans.setDom.mk)))

theorem State.Kept.execStageB6 (h : s.Kept u) {late} : s.KeptR (execStageB6 late u) := .ite (.next h.stage_) (.next h)

theorem State.Kept.execStageB7 (h : s.Kept u) : s.KeptR (execStageB7 u) := .ite (.next h.stage_) (.next h)

theorem State.Kept.rootRestart (h : s.Kept u) {cardA cardB} : s.Kept (u.rootRestart cardA cardB) :=
  (h.pairReset.memZero.setF.setF.forEach fun _ _ h =>
    h.setCh.resetRegs).resetRegs.mk.resetRegs.resetRegs.setF.setF.resetCause.bootEntry.rstFlag.romDone.if_
    (h.pairReset.memZero.setF.setF.forEach fun _ _ h =>
    h.setCh.resetRegs).resetRegs.mk.resetRegs.resetRegs.setF.setF.resetCause.bootEntry.rstFlag.bootRom.romDone

theorem State.Kept.execRootRestart (h : s.Kept u) {cardA cardB} : s.KeptR (execRootRestart cardA cardB u) :=
  .ite (.next h.rootRestart) (.next h)

theorem State.Kept.execWatchdogExpire (h : s.Kept u) {cardA cardB} : s.KeptR (execWatchdogExpire cardA cardB u) :=
  .ite (.next h.rootRestart) (.next h)

theorem State.Kept.execWatchdogKick (h : s.Kept u) {value} : s.KeptR (execWatchdogKick value u) := .next h.wdtKick

theorem State.Kept.execRootResume (h : s.Kept u) : s.KeptR (execRootResume u) := by
  dsimp only [Machine.execRootResume]
  refine .ite (.next h) ?_
  refine .ite (.next h.railReset) ?_
  refine .next (.wdtStart (.forEach (.protectBoot (.forEach (.mk (.forEach (.closeSessions ?_) fun _ _ h => h.finishWait)) fun _ _ h =>
    h.finish)) fun _ _ h => h.setF.dmaShow))
  split
  exacts [h.dropShadowAll.cfgFlag, h]

theorem State.Kept.unsealField (h : s.Kept u) : s.Kept u.unsealField := h.unseal.doIf fun _ h => h.setF

theorem State.Kept.execMainPowerLoss (h : s.Kept u) {vbat strong} : s.KeptR (execMainPowerLoss vbat strong u) :=
  .ite (.next h) (.next (h.unsealField.unpower.mk.wr.setB.doIf fun _ h => h.fieldFrom))

/-! ### Operations of Machine/ZeroRows.lean -/

/-- Every command that may end later keeps the queue and soundness. -/
theorem cmdSpecOf_keeps {x opc c} (e : cmdSpecOf x opc = some c) : c.Keeps := by
  unfold cmdSpecOf at e
  split at e <;> cases e
  exacts [specCfgStage_keeps, specCfgCommit_keeps, specCfgAbort_keeps, specCfgRead_keeps, specKeyLoad_keeps,
    specKeyDerive_keeps, specKeyActivate_keeps, specKeyRollover_keeps, specKeyArm_keeps, specKeyLimit_keeps, specKeyDelete_keeps,
    specKeyZeroize_keeps, specKeyClear_keeps, specPortCounters_keeps, specPortExtFree_keeps, specPortExtRelease_keeps,
    specGacPhasor_keeps, specGacTaiSet_keeps, specGroveInsert_keeps, specGroveUpdate_keeps, specGroveDelete_keeps,
    specGrovePin_keeps, specGroveUnpin_keeps, specGroveCounterRead_keeps, specGroveLineClear_keeps, specGroveMemAdd_keeps,
    specGroveRebuild_keeps, specCiqSubmit_keeps, specPkeSign_keeps, specPkeVerify_keeps, specPkeEcdh_keeps, specPkeKeygen_keeps,
    specPkePubkey_keeps, specAttStatement_keeps, specAttCert_keeps, specNvaRead_keeps, specNvaProgram_keeps, specNvaErase_keeps,
    specNvaProtect_keeps, specNvaImageLoad_keeps, specFldMode_keeps, specCardRead_keeps, specCardWrite_keeps, specCardStage_keeps,
    specScdApdu_keeps, specLogTamperRead_keeps, specLogBlazeRead_keeps, specLogBlazeClear_keeps, specTmpRelease_keeps,
    specTwnTakeover_keeps, specPldJoin_keeps, specPldLeave_keeps, specPldKeySchedule_keeps, specAppLoad_keeps, specAppStart_keeps,
    specAppStop_keeps, specAppDelete_keeps, specAppList_keeps, specAppMsg_keeps, specDiagKat_keeps]

theorem State.Kept.runHeld (h : s.Kept u) {x hd late} : s.Kept (u.runHeld x hd late) := by
  unfold State.runHeld
  split
  · rename_i e
    exact (h.runBody (cmdSpecOf_keeps e).inDom).settle
  · exact h

theorem State.Kept.execAsyncCompletion (h : s.Kept u) {r idx x} : s.KeptR (execAsyncCompletion r idx x u) := by
  unfold Machine.execAsyncCompletion
  split
  · exact .next h
  · split
    exacts [.next h.domWake, .next h.endWait.runHeld]

theorem State.Kept.execAtCycleExecute (h : s.Kept u) {x} : s.KeptR (execAtCycleExecute x u) := by
  dsimp only [Machine.execAtCycleExecute]
  split
  · exact .next h
  · split
    exacts [.next h.domWake, .next h.mk.runHeld]

theorem State.Kept.schedulesAtZero (h : s.Kept u) : s.Kept u.schedulesAtZero :=
  h.forEach fun _ _ h => h.forEach fun _ _ h => h.takeEntry

theorem State.Kept.budgetsAtZero (h : s.Kept u) : s.Kept u.budgetsAtZero := (h.forEach fun _ _ h => h.wr.wr).mk.sweepReload

theorem State.Kept.negAtZero (h : s.Kept u) : s.Kept u.negAtZero := h.mapWays.freeSpentNeg

theorem State.Kept.angleZero (h : s.Kept u) : s.Kept u.angleZero :=
  h.gacAtZero.postGathered.if_
    (h.gacAtZero.cfgAtZero.graceAtZero.rollsAtZero.mk.schedulesAtZero.budgetsAtZero.negAtZero.mk.katStale.migAtZero.twinAtZero.countMembers.forEach
      fun _ _ h => h.adapt).irqAll.postGathered

theorem State.Kept.execAngleZero (h : s.Kept u) : s.KeptR (execAngleZero u) := .next h.mk.angleZero

theorem State.Kept.execHoldoverExpire (h : s.Kept u) : s.KeptR (execHoldoverExpire u) := .ite (.next h.mk.angleZero) (.next h)

theorem State.Kept.idleTick (h : s.Kept u) : s.Kept u.idleTick := h.mk.angleZero.if_ h.mk

/-! ### Operations of Machine/Dispatch.lean -/

/-! ### Every command, and the step -/

theorem State.Kept.exec (h : s.Kept u) (i : Instr) : s.KeptR (exec i u) :=
  match i with
  | .angleZero => h.execAngleZero
  | .sluiceEntry .. => h.execSluiceEntry
  | .katDone .. => h.execKatDone
  | .mrefEdge .. => h.execMrefEdge
  | .mrefTimeout .. => h.execMrefTimeout
  | .acquisitionComplete => h.execAcquisitionComplete
  | .holdoverExpire => h.execHoldoverExpire
  | .phasorTimeout => h.execPhasorTimeout
  | .ptpLock => h.execPtpLock
  | .syncTimeout => h.execSyncTimeout
  | .ptpMessageRx .. => h.execPtpMessageRx
  | .ptpTxInterval .. => h.execPtpTxInterval
  | .ppsInEdge => h.execPpsInEdge
  | .ppsOutPulse => h.execPpsOutPulse
  | .frameRx .. => h.execFrameRx
  | .groveFillReturn .. => h.execGroveFillReturn
  | .missTimeout .. => h.execMissTimeout
  | .frameVerdict .. => h.execFrameVerdict
  | .egressHandover .. => h.execEgressHandover
  | .egressTxStart .. => h.execEgressTxStart
  | .egressFcs .. => h.execEgressFcs
  | .egressTxEnd .. => h.execEgressTxEnd
  | .mmVerifyTimer .. => h.execMmVerifyTimer
  | .mmVerifyRx .. => h.execMmVerifyRx
  | .calFrameRx .. => h.execCalFrameRx
  | .pdelayInterval .. => h.execPdelayInterval
  | .lldpRx .. => h.execLldpRx
  | .lldpTtlExpire .. => h.execLldpTtlExpire
  | .mkaRx .. => h.execMkaRx
  | .mkaPeerTimeout .. => h.execMkaPeerTimeout
  | .extBackoffEnd .. => h.execExtBackoffEnd
  | .handshakeRetry .. => h.execHandshakeRetry
  | .offerRx .. => h.execOfferRx
  | .acceptRx .. => h.execAcceptRx
  | .confirmRx .. => h.execConfirmRx
  | .doneRx .. => h.execDoneRx
  | .rejectRx .. => h.execRejectRx
  | .extHoldExpire .. => h.execExtHoldExpire
  | .refclkLoss .. => h.execRefclkLoss
  | .refclkRestored .. => h.execRefclkRestored
  | .signalDetect .. => h.execSignalDetect
  | .signalLoss .. => h.execSignalLoss
  | .linkFault .. => h.execLinkFault
  | .laneUp .. => h.execLaneUp
  | .alignTimeout .. => h.execAlignTimeout
  | .sweepLine .. => h.execSweepLine
  | .cxlLinkDown .. => h.execCxlLinkDown
  | .cxlReadTimeout .. => h.execCxlReadTimeout
  | .cxlFatalError .. => h.execCxlFatalError
  | .cxlDeviceTrained .. => h.execCxlDeviceTrained
  | .groveBuildDone => h.execGroveBuildDone
  | .groveMigrateBucket => h.execGroveMigrateBucket
  | .groveRegionSwitch => h.execGroveRegionSwitch
  | .negEntryExpire .. => h.execNegEntryExpire
  | .staticEntryFree => h.execStaticEntryFree
  | .keyGraceEnd .. => h.execKeyGraceEnd
  | .culWinCtlWrite .. => h.execCulWinCtlWrite
  | .functionLevelReset => h.execFunctionLevelReset
  | .hostLinkDown => h.execHostLinkDown
  | .busMasterChange .. => h.execBusMasterChange
  | .cringEnable .. => h.execCringEnable
  | .cringDisable .. => h.execCringDisable
  | .eringEnable .. => h.execEringEnable
  | .eringDisable .. => h.execEringDisable
  | .cringDoorbell .. => h.execCringDoorbell
  | .slotReadError .. => h.execSlotReadError
  | .eringDoorbell .. => h.execEringDoorbell
  | .asyncCompletion .. => h.execAsyncCompletion
  | .atCycleExecute .. => h.execAtCycleExecute
  | .sessionIdleExpire .. => h.execSessionIdleExpire
  | .opkeyLockExpire .. => h.execOpkeyLockExpire
  | .cmdUndefined .. => h.execCmdUndefined
  | .cmdDevInfo .. => h.execCmdDevInfo
  | .cmdDevSessionChallenge .. => h.execCmdDevSessionChallenge
  | .cmdDevSessionOpen .. => h.execCmdDevSessionOpen
  | .cmdDevSessionClose .. => h.execCmdDevSessionClose
  | .cmdDevOpkeyEnrol .. => h.execCmdDevOpkeyEnrol
  | .cmdDevOpkeyRevoke .. => h.execCmdDevOpkeyRevoke
  | .cmdDevStatus .. => h.execCmdDevStatus
  | .cmdCfgStage .. => h.execCmdCfgStage
  | .cmdCfgCommit .. => h.execCmdCfgCommit
  | .cfgCommitRecord => h.execCfgCommitRecord
  | .drainPhaseEnd => h.execDrainPhaseEnd
  | .cmdCfgAbort .. => h.execCmdCfgAbort
  | .cmdCfgRead .. => h.execCmdCfgRead
  | .cmdCfgStatus .. => h.execCmdCfgStatus
  | .cmdKeyLoad .. => h.execCmdKeyLoad
  | .cmdKeyDerive .. => h.execCmdKeyDerive
  | .cmdKeyActivate .. => h.execCmdKeyActivate
  | .cmdKeyRollover .. => h.execCmdKeyRollover
  | .cmdKeyArm .. => h.execCmdKeyArm
  | .cmdKeyLimit .. => h.execCmdKeyLimit
  | .cmdKeyDelete .. => h.execCmdKeyDelete
  | .cmdKeyZeroize .. => h.execCmdKeyZeroize
  | .cmdKeyClear .. => h.execCmdKeyClear
  | .cmdKeySlotRead .. => h.execCmdKeySlotRead
  | .cmdPortStatus .. => h.execCmdPortStatus
  | .cmdPortCounters .. => h.execCmdPortCounters
  | .cmdPortExtStatus .. => h.execCmdPortExtStatus
  | .cmdPortExtFree .. => h.execCmdPortExtFree
  | .cmdPortExtRelease .. => h.execCmdPortExtRelease
  | .cmdGacStatus .. => h.execCmdGacStatus
  | .cmdGacPhasor .. => h.execCmdGacPhasor
  | .cmdGacTaiSet .. => h.execCmdGacTaiSet
  | .cmdGroveInsert .. => h.execCmdGroveInsert
  | .cmdGroveUpdate .. => h.execCmdGroveUpdate
  | .cmdGroveDelete .. => h.execCmdGroveDelete
  | .cmdGrovePin .. => h.execCmdGrovePin
  | .cmdGroveUnpin .. => h.execCmdGroveUnpin
  | .cmdGroveLookup .. => h.execCmdGroveLookup
  | .cmdGroveCounterRead .. => h.execCmdGroveCounterRead
  | .cmdGroveLineClear .. => h.execCmdGroveLineClear
  | .cmdGroveMemAdd .. => h.execCmdGroveMemAdd
  | .cmdGroveRebuild .. => h.execCmdGroveRebuild
  | .cmdCiqSubmit .. => h.execCmdCiqSubmit
  | .cmdCiqStatus .. => h.execCmdCiqStatus
  | .cmdPkeSign .. => h.execCmdPkeSign
  | .cmdPkeVerify .. => h.execCmdPkeVerify
  | .cmdPkeEcdh .. => h.execCmdPkeEcdh
  | .cmdPkeKeygen .. => h.execCmdPkeKeygen
  | .cmdPkePubkey .. => h.execCmdPkePubkey
  | .cmdAttStatement .. => h.execCmdAttStatement
  | .cmdAttCert .. => h.execCmdAttCert
  | .cmdNvaRead .. => h.execCmdNvaRead
  | .cmdNvaProgram .. => h.execCmdNvaProgram
  | .cmdNvaErase .. => h.execCmdNvaErase
  | .cmdNvaProtect .. => h.execCmdNvaProtect
  | .cmdNvaStatus .. => h.execCmdNvaStatus
  | .cmdNvaImageLoad .. => h.execCmdNvaImageLoad
  | .cmdFldStatus .. => h.execCmdFldStatus
  | .cmdFldMode .. => h.execCmdFldMode
  | .cmdFldReaderPoll .. => h.execCmdFldReaderPoll
  | .cmdCrdRecordRead .. => h.execCmdCrdRecordRead
  | .cmdCrdRecordWrite .. => h.execCmdCrdRecordWrite
  | .cmdCrdBundleStage .. => h.execCmdCrdBundleStage
  | .cmdScdStatus .. => h.execCmdScdStatus
  | .cmdScdApdu .. => h.execCmdScdApdu
  | .cmdTmpStatus .. => h.execCmdTmpStatus
  | .cmdLogTamperRead .. => h.execCmdLogTamperRead
  | .cmdLogBlazeRead .. => h.execCmdLogBlazeRead
  | .cmdLogBlazeClear .. => h.execCmdLogBlazeClear
  | .cmdTmpRelease .. => h.execCmdTmpRelease
  | .cmdTmpBreach .. => h.execCmdTmpBreach
  | .cmdTwnStatus .. => h.execCmdTwnStatus
  | .cmdTwnTakeover .. => h.execCmdTwnTakeover
  | .cmdPldStatus .. => h.execCmdPldStatus
  | .cmdPldJoin .. => h.execCmdPldJoin
  | .cmdPldLeave .. => h.execCmdPldLeave
  | .cmdPldKeySchedule .. => h.execCmdPldKeySchedule
  | .cmdAppLoad .. => h.execCmdAppLoad
  | .cmdAppStart .. => h.execCmdAppStart
  | .cmdAppStop .. => h.execCmdAppStop
  | .cmdAppDelete .. => h.execCmdAppDelete
  | .cmdAppList .. => h.execCmdAppList
  | .cmdAppMsg .. => h.execCmdAppMsg
  | .cmdDiagEcho .. => h.execCmdDiagEcho
  | .cmdDiagKat .. => h.execCmdDiagKat
  | .cmdDiagRngHealth .. => h.execCmdDiagRngHealth
  | .dmaEnable .. => h.execDmaEnable
  | .dmaDisable .. => h.execDmaDisable
  | .dmaAbort .. => h.execDmaAbort
  | .dmaDoorbell .. => h.execDmaDoorbell
  | .dmaCopy .. => h.execDmaCopy
  | .dmaFill .. => h.execDmaFill
  | .dmaCompare .. => h.execDmaCompare
  | .keyWindowStage .. => h.execKeyWindowStage
  | .keyWindowCommit .. => h.execKeyWindowCommit
  | .kdfToWork .. => h.execKdfToWork
  | .kdfToFld .. => h.execKdfToFld
  | .keyDeriveDone => h.execKeyDeriveDone
  | .keyMoveSlot .. => h.execKeyMoveSlot
  | .keyMovePke .. => h.execKeyMovePke
  | .keyWorkClear .. => h.execKeyWorkClear
  | .rootEraseDone => h.execRootEraseDone
  | .slotOverwriteDone => h.execSlotOverwriteDone
  | .ciqDescriptorSubmit .. => h.execCiqDescriptorSubmit
  | .ciqRequestStart .. => h.execCiqRequestStart
  | .ciqRequestDone .. => h.execCiqRequestDone
  | .ciqCringHeadWrite .. => h.execCiqCringHeadWrite
  | .pkeJobSubmit .. => h.execPkeJobSubmit
  | .pkeYieldPoint => h.execPkeYieldPoint
  | .pkeJobDone .. => h.execPkeJobDone
  | .pkeCringHeadWrite .. => h.execPkeCringHeadWrite
  | .rngInstantiate .. => h.execRngInstantiate
  | .rngCellFail .. => h.execRngCellFail
  | .rngCellReturn .. => h.execRngCellReturn
  | .rngReseed .. => h.execRngReseed
  | .rngBlockTimeout => h.execRngBlockTimeout
  | .rngTestEnter .. => h.execRngTestEnter
  | .rngTestExit .. => h.execRngTestExit
  | .rngDataRead .. => h.execRngDataRead
  | .rngRawRead .. => h.execRngRawRead
  | .nvaProgramStart .. => h.execNvaProgramStart
  | .nvaEraseStart .. => h.execNvaEraseStart
  | .nvOpDone .. => h.execNvOpDone
  | .sensorAlarm .. => h.execSensorAlarm
  | .bermSample .. => h.execBermSample
  | .tmpLevelWrite .. => h.execTmpLevelWrite
  | .supplyDip => h.execSupplyDip
  | .dipRecovery => h.execDipRecovery
  | .dipSettled .. => h.execDipSettled
  | .mainPowerLoss .. => h.execMainPowerLoss
  | .domainSleepRequest .. => h.execDomainSleepRequest
  | .domainEnterDone .. => h.execDomainEnterDone
  | .domainWake .. => h.execDomainWake
  | .pwrWakeWrite .. => h.execPwrWakeWrite
  | .domainReady .. => h.execDomainReady
  | .domainWakeTimeout .. => h.execDomainWakeTimeout
  | .fieldPresent .. => h.execFieldPresent
  | .fieldLost => h.execFieldLost
  | .reqa => h.execReqa
  | .wupa => h.execWupa
  | .anticollision .. => h.execAnticollision
  | .select .. => h.execSelect
  | .hlta => h.execHlta
  | .rats => h.execRats
  | .pps .. => h.execPps
  | .sDeselect => h.execSDeselect
  | .fldWtxSend => h.execFldWtxSend
  | .getIdentity .. => h.execGetIdentity
  | .getCert .. => h.execGetCert
  | .getAttest .. => h.execGetAttest
  | .sealInit .. => h.execSealInit
  | .sealFinish .. => h.execSealFinish
  | .mbxRead .. => h.execMbxRead
  | .mbxProgram .. => h.execMbxProgram
  | .mbxErase .. => h.execMbxErase
  | .apduUnsupported .. => h.execApduUnsupported
  | .mailboxProcess => h.execMailboxProcess
  | .cardInsert .. => h.execCardInsert
  | .cardRemove .. => h.execCardRemove
  | .scdInsert .. => h.execScdInsert
  | .scdRemove => h.execScdRemove
  | .twinHelloSend => h.execTwinHelloSend
  | .helloRx .. => h.execHelloRx
  | .timeRx .. => h.execTimeRx
  | .replayRx .. => h.execReplayRx
  | .readyRx .. => h.execReadyRx
  | .roleRx .. => h.execRoleRx
  | .leadstateRx .. => h.execLeadstateRx
  | .twinPeerLost => h.execTwinPeerLost
  | .twinReadyDeadline .. => h.execTwinReadyDeadline
  | .twinTakeoverEffect => h.execTwinTakeoverEffect
  | .peerRefClear => h.execPeerRefClear
  | .twinMismatchRepeat => h.execTwinMismatchRepeat
  | .keyDiffDetect => h.execKeyDiffDetect
  | .beaconSend => h.execBeaconSend
  | .beaconRx .. => h.execBeaconRx
  | .reportSend => h.execReportSend
  | .reportRx .. => h.execReportRx
  | .leaderTimeout => h.execLeaderTimeout
  | .powerOn => h.execPowerOn
  | .railReset .. => h.execRailReset
  | .serdesRailReset => h.execSerdesRailReset
  | .io33RailReset => h.execIo33RailReset
  | .perst => h.execPerst
  | .rootRestart .. => h.execRootRestart
  | .rootResume => h.execRootResume
  | .watchdogExpire .. => h.execWatchdogExpire
  | .watchdogKick .. => h.execWatchdogKick
  | .stageB1 => h.execStageB1
  | .stageB2 .. => h.execStageB2
  | .stageB3 => h.execStageB3
  | .stageB4 .. => h.execStageB4
  | .stageB5 .. => h.execStageB5
  | .stageB6 .. => h.execStageB6
  | .stageB7 => h.execStageB7
  | .devIrqSetWrite .. => h.execDevIrqSetWrite
  | .pairStart .. => h.execPairStart
  | .pairReset .. => h.execPairReset
  | .interruptTake .. => h.execInterruptTake
  | .lockstepMismatch .. => h.execLockstepMismatch
  | .add .. => h.execAdd
  | .sub .. => h.execSub
  | .and .. => h.execAnd
  | .or .. => h.execOr
  | .xor .. => h.execXor
  | .shl .. => h.execShl
  | .shr .. => h.execShr
  | .sar .. => h.execSar
  | .slt .. => h.execSlt
  | .sltu .. => h.execSltu
  | .mul .. => h.execMul
  | .mulhu .. => h.execMulhu
  | .mulhs .. => h.execMulhs
  | .divu .. => h.execDivu
  | .divs .. => h.execDivs
  | .remu .. => h.execRemu
  | .rems .. => h.execRems
  | .addi .. => h.execAddi
  | .andi .. => h.execAndi
  | .ori .. => h.execOri
  | .xori .. => h.execXori
  | .shli .. => h.execShli
  | .shri .. => h.execShri
  | .sari .. => h.execSari
  | .slti .. => h.execSlti
  | .sltui .. => h.execSltui
  | .li .. => h.execLi
  | .lis .. => h.execLis
  | .ld .. => h.execLd
  | .st .. => h.execSt
  | .lea .. => h.execLea
  | .cas .. => h.execCas
  | .swap .. => h.execSwap
  | .amoadd .. => h.execAmoadd
  | .mcpy .. => h.execMcpy
  | .bcond .. => h.execBcond
  | .jmp .. => h.execJmp
  | .call .. => h.execCall
  | .jr .. => h.execJr
  | .callr .. => h.execCallr
  | .ret .. => h.execRet
  | .csrr .. => h.execCsrr
  | .csrw .. => h.execCsrw
  | .scall .. => h.execScall
  | .sret .. => h.execSret
  | .retx .. => h.execRetx
  | .fence .. => h.execFence
  | .wfi .. => h.execWfi
  | .ebreak .. => h.execEbreak
  | .rep .. => h.execRep
  | .repi .. => h.execRepi
  | .repiIteration .. => h.execRepiIteration
  | .illegalInstruction .. => h.execIllegalInstruction
  | .cmv .. => h.execCmv
  | .caddr .. => h.execCaddr
  | .cdrop .. => h.execCdrop
  | .cclip .. => h.execCclip
  | .cclipx .. => h.execCclipx
  | .cbind .. => h.execCbind
  | .cunbind .. => h.execCunbind
  | .cstrip .. => h.execCstrip
  | .cwithin .. => h.execCwithin
  | .csame .. => h.execCsame
  | .cinsp .. => h.execCinsp
  | .caddi .. => h.execCaddi
  | .registerWrite .. => h.execRegisterWrite
  | .registerRead .. => h.execRegisterRead
  | .twinPairingRetry => h.execTwinPairingRetry
  | .gdoiMessageRx .. => h.execGdoiMessageRx
  | .lldpTxInterval .. => h.execLldpTxInterval
  | .mkaTxInterval .. => h.execMkaTxInterval

/-- The change a command makes to any state with the same registers and memory keeps that state sound. -/
theorem exec_next_sound {i : Instr} {t : State} (h : u.Sound) (e : exec i u = .next t) : t.Sound := by
  obtain ⟨t', e', -, hs⟩ := (State.Kept.refl u).exec i
  rw [e] at e'
  obtain rfl := Host.Outcome.next.inj e'
  exact hs h

theorem step_next_sound {t : State} (h : s.Sound) (e : step s = .next t) : t.Sound := by
  unfold step at e
  split at e
  · obtain rfl := Host.Outcome.next.inj e
    exact (State.Kept.refl s).idleTick.2 h
  · next rest _ =>
    have hu : State.Sound { s with pending := rest } := ⟨h.regs, h.mem⟩
    exact exec_next_sound hu e

end KeptLaws

/-- Settles O3: every command keeps soundness (`State.Kept.exec`), operation by operation. -/
theorem soundKept : Obligations.SoundKept := fun _ _ h e => step_next_sound h e

/-- Settles O4. -/
theorem soundReset : Obligations.SoundReset := ⟨⟨rfl, rfl⟩, rfl, rfl⟩

end Sys2Proof.Machine

/-! # Register accesses -/

namespace Sys2Proof.Machine

/-! ### What an alarm leaves alone -/

section AlarmLaws

variable {s u : State}

/-- Registers that no alarm writes: those of the device's own block below the interrupt registers, and those of the block that
counts the errors of memories. -/
def quietReg (a : Nat) : Bool := decide (a < 0x3000) || (decide (0xC0000 ≤ a) && decide (a < 0xD0000))

theorem quietReg_eq_false_iff {a : Nat} : quietReg a = false ↔ 0x3000 ≤ a ∧ (a < 0xC0000 ∨ 0xD0000 ≤ a) := by
  simp [quietReg]
  omega

theorem quietReg_of_le {a : Nat} (h : 0xD0000 ≤ a) : quietReg a = false := quietReg_eq_false_iff.2 (by omega)

/-- From `s` to `t` the quiet registers, their copies and the held halves stay. -/
def State.Quiet (s t : State) : Prop := s.sameRegs t quietReg ∧ t.regBad = s.regBad ∧ t.latch = s.latch

theorem State.Quiet.refl (s : State) : s.Quiet s := ⟨fun _ _ => rfl, rfl, rfl⟩

theorem State.Quiet.ite {a b : State} {p : Prop} [Decidable p] (ha : s.Quiet a) (hb : s.Quiet b) : s.Quiet (if p then a else b) := by
  split <;> assumption

theorem State.Quiet.wr (h : s.Quiet u) {a v} (ha : quietReg a = false) : s.Quiet (u.wr a v) := by
  obtain ⟨hr, hb, hl⟩ := h
  refine ⟨fun b hq => ?_, hb, hl⟩
  rw [State.rd_wr_ne]
  · exact hr b hq
  · rintro rfl
    rw [ha] at hq
    exact Bool.noConfusion hq

theorem State.Quiet.setF (h : s.Quiet u) {f x} (hf : quietReg f.addr = false) : s.Quiet (u.setF f x) := h.wr hf

theorem State.Quiet.irqAll (h : s.Quiet u) {src : Nat} (hs : src < 256) : s.Quiet (u.irqAll src) := by
  have hq (p : Nat) (hp : p < 5) : quietReg (R.DEV_IRQ_PEND (p * 8 + src / 32)) = false := by
    rw [quietReg_eq_false_iff]
    unfold R.DEV_IRQ_PEND
    omega
  exact ((((h.wr (hq 0 (by omega))).wr (hq 1 (by omega))).wr (hq 2 (by omega))).wr (hq 3 (by omega))).wr (hq 4 (by omega))

theorem State.Quiet.signalArmed (h : s.Quiet u) {v} : s.Quiet (u.signalArmed v) := by
  unfold State.signalArmed
  refine .ite ?_ h
  unfold State.msix
  refine .ite (.wr h (quietReg_of_le ?_)) h
  unfold R.MSIX_PBA
  omega

theorem State.Quiet.putEntry (h : s.Quiet u) {e ev} : s.Quiet (u.putEntry e ev) := by
  have ht : s.Quiet ((u.emit (.event e (u.f (F.CUL_ERING_IDX_TAIL e) % u.eringSize e)
      (u.f (F.CUL_ERING_IDX_TAIL e) / u.eringSize e % 2 = 0) ev)).setF (F.CUL_ERING_IDX_TAIL e) (u.f (F.CUL_ERING_IDX_TAIL e) + 1)) :=
    .setF h (quietReg_of_le (by simp [F.CUL_ERING_IDX_TAIL]; omega))
  exact ht.signalArmed

theorem State.Quiet.drainEv (h : s.Quiet u) {n e} : s.Quiet (State.drainEv n e u) := by
  induction n generalizing u with
  | zero => exact h
  | succ n ih =>
    unfold State.drainEv
    refine .ite h (.ite ?_ ?_)
    · have ht : s.Quiet (u.setLostNow e 0) := h
      exact ih ht.putEntry
    · split
      next => exact h
      next ev t _ =>
        have ht : s.Quiet (u.setHeldEv e t) := h
        exact ih ht.putEntry

theorem State.Quiet.postTo (h : s.Quiet u) {e ev} : s.Quiet (u.postTo e ev) := by
  unfold State.postTo
  refine .ite ?_ ?_
  · have ht : s.Quiet (u.setHeldEv e (u.heldEv e ++ [ev])) := h
    exact ht.drainEv
  · exact .setF h (quietReg_of_le (by simp [F.CUL_ERING_LOST_COUNT]; omega))

theorem State.Quiet.post (h : s.Quiet u) {ev} (he : ev.cls < 16) : s.Quiet (u.post ev) := by
  have ht : s.Quiet (u.irqAll (32 + ev.cls)) := h.irqAll (by omega)
  exact .ite (ht.setF rfl) ht.postTo

theorem State.Quiet.tmpFlag (h : s.Quiet u) {bit src} : s.Quiet (u.tmpFlag bit src) := by
  have ht {v} : s.Quiet (u.wr R.TMP_EVT v) := h.wr rfl
  exact .ite ht (.ite (ht.post (show 7 < 16 by decide)) ht)

theorem State.Quiet.raiseLevel (h : s.Quiet u) {lvl src} : s.Quiet (u.raiseLevel lvl src) := .ite (h.setF rfl).tmpFlag h

theorem State.Quiet.tmpLogAt (h : s.Quiet u) {src lvl data g} : s.Quiet (u.tmpLogAt src lvl data g) := by
  unfold State.tmpLogAt
  extract_lets n i seq ok e _ t t'
  have ht : s.Quiet t' := (State.Quiet.setF (u := t) h rfl).setF rfl |>.setF rfl
  cases hn : decide (n = 256)
  · exact ht
  · exact ht.tmpFlag

theorem State.Quiet.notify (h : s.Quiet u) {src} : s.Quiet (u.notify src) := by
  have ht : s.Quiet ((u.raiseLevel 2 src).tmpLogAt src 2 0 u.gacNow) := h.raiseLevel.tmpLogAt
  exact .ite (ht.post (show 7 < 16 by decide)) ht

end AlarmLaws

/-! ### What a waking domain leaves alone -/

section WakeLaws

variable {s u : State}

/-- From `s` to `t` the accesses that wait for a domain stay, and so do on-chip memory and the keys. -/
def State.Waking (s t : State) : Prop := t.pwr.stalled = s.pwr.stalled ∧ t.mem = s.mem ∧ t.keys = s.keys

theorem State.Waking.doIf (h : s.Waking u) {c g} (hg : ∀ t, s.Waking t → s.Waking (g t)) : s.Waking (u.doIf c g) := by
  cases c
  exacts [h, hg u h]

theorem State.Waking.domWake1 (h : s.Waking u) {d} : s.Waking (u.domWake1 d) := by
  have hm {src} : s.Waking (u.domMove d src dsOn) := h
  unfold State.domWake1
  split
  · split
    · exact h
    · dsimp only
      split <;> exact h
  · split
    exacts [h, hm]

theorem State.Waking.domWake (h : s.Waking u) {d} : s.Waking (u.domWake d) :=
  ((h.doIf fun _ h => h.domWake1.domWake1).doIf fun _ h => h.domWake1).domWake1

end WakeLaws

/-! ### Register accesses -/

section AccessLaws

variable (s : State) (x : AccIn)

theorem regShape_eq_false {a n : Nat} (h : n ≠ 4 ∨ a % 4 ≠ 0) : regShape a n = false := by
  simp only [regShape, Bool.and_eq_false_imp, decide_eq_true_eq, decide_eq_false_iff_not]
  omega

theorem regShape_word {a : Nat} (h : a % 4 = 0) : regShape a 4 = true := by simp [regShape, h]

/-- The agent reaches the register at `a` with a write: the host its own ones, a core of BAR 0 under R302. -/
def State.mayWrite (g : Bus) (a : Nat) : Bool :=
  match g with
  | .host => hostWritable a
  | .core k => decide (a < 0x1000000) && s.mayReach k.val a

/-- The compartment that a write of the agent acts for. -/
def State.compAt (g : Bus) : Nat :=
  match g with
  | .host => 0
  | .core k => s.compOf k.val

theorem toNat_regAddr {a : Nat} (h : a < 2 ^ 26) : (BitVec.ofNat 26 a).toNat = a := by
  rw [BitVec.toNat_ofNat, Nat.mod_eq_of_lt h]

theorem exec_registerWrite {g : Bus} {a : BitVec 26} {n : Fin 17} {v : Word} :
    exec (.registerWrite g a n v x) s = execRegisterWrite g a n v x s := rfl

theorem exec_registerRead {g : Bus} {a : BitVec 26} {n : Fin 17} :
    exec (.registerRead g a n x) s = execRegisterRead g a n x s := rfl

/-- A write that its agent may do, of a domain that is ON, reaches the register block. -/
theorem exec_registerWrite_reached {g : Bus} {a : Nat} {v : Word} (ha : a % 4 = 0) (hl : a < 2 ^ 26) (hw : s.mayWrite g a = true)
    (hd : s.regWaits a = none) : exec (.registerWrite g (BitVec.ofNat 26 a) 4 v x) s = .next (s.regWrite g (s.compAt g) x a v) := by
  rw [exec_registerWrite]
  cases g with
  | host =>
    replace hw : hostWritable a = true := hw
    simp [execRegisterWrite, toNat_regAddr hl, regShape_word ha, hw, hd, State.compAt]
  | core k =>
    obtain ⟨hlt, hr⟩ : a < 0x1000000 ∧ s.mayReach k.val a = true := by simpa [State.mayWrite] using hw
    simp [execRegisterWrite, toNat_regAddr hl, regShape_word ha, hr, hd, State.compAt, Nat.not_le.2 hlt]

/-- A read that its agent may do, of a domain that is ON, sends what the register block answers. -/
theorem exec_registerRead_reached {g : Bus} {a : BitVec 26} (ha : a.toNat % 4 = 0) (hr : s.mayRead g a.toNat = true)
    (hd : s.regWaits a.toNat = none) {v p t} (e : s.regRead g x a.toNat = (v, p, t)) :
    exec (.registerRead g a 4 x) s = .next (t.emit (.read a.toNat v.toNat p)) := by
  rw [exec_registerRead]
  simp [execRegisterRead, regShape_word ha, hr, hd, e]

theorem State.exec_registerRead_at {g : Bus} {a : Nat} (ha : a % 4 = 0) (hl : a < 2 ^ 26) (hr : s.mayRead g a = true)
    (hd : s.regWaits a = none) {v p t} (e : s.regRead g x a = (v, p, t)) :
    exec (.registerRead g (BitVec.ofNat 26 a) 4 x) s = .next (t.emit (.read a v.toNat p)) := by
  rw [← toNat_regAddr hl] at ha hr hd e
  rw [exec_registerRead_reached s x ha hr hd e, toNat_regAddr hl]

/-! #### The write of a register by its access codes -/

/-- The value a register takes, by the access codes of its row. -/
def RegDesc.put (d : RegDesc) (o v : Word) : Word := o &&& ~~~d.rw &&& ~~~(v &&& d.w1c) ||| v &&& d.rw ||| v &&& d.w1s

theorem State.rd_regPut {a : Nat} {v : Word} {d : RegDesc} (hd : regDesc a = some d) (hv : storedForm a v = v) :
    (s.regPut a v).rd a = d.put (s.rd a) v := by
  simp only [State.regPut, hd, hv]
  exact State.rd_wr_self _ _ _

theorem State.rd_regPut_ne {a b : Nat} {v : Word} (h : b ≠ a) : (s.regPut a v).rd b = s.rd b := by
  unfold State.regPut
  split
  · rfl
  · exact State.rd_wr_ne _ _ h

theorem State.onlyIn_regs_regBad {r b} : s.onlyIn { s with regs := r, regBad := b } [.regs, .regBad] :=
  ⟨fun p hp => by cases p with | regs | regBad => simp at hp | _ => rfl, rfl⟩

theorem State.onlyIn_regs_out {r o} : s.onlyIn { s with regs := r, out := o } [.regs, .out] :=
  ⟨fun p hp => by cases p with | regs | out => simp at hp | _ => rfl, rfl⟩

theorem State.onlyIn_latch_out {l o} : s.onlyIn { s with latch := l, out := o } [.latch, .out] :=
  ⟨fun p hp => by cases p with | latch | out => simp at hp | _ => rfl, rfl⟩

theorem State.onlyIn_regPut {a : Nat} {v : Word} : s.onlyIn (s.regPut a v) [.regs, .regBad] := by
  unfold State.regPut
  split
  · exact ⟨fun p _ => by cases p <;> rfl, rfl⟩
  · exact s.onlyIn_regs_regBad

/-! #### The read of a register -/

theorem and_ones (v : Word) : v &&& 0xFFFFFFFF = v := BitVec.and_allOnes

/-- What the two copies of a register make of a read: whether the value carries poison, and the state after. -/
def State.checked (a : Nat) : Bool × State :=
  if (x.bad && (regDesc a).isSome) || decide (a ∈ s.regBad) then s.regMismatch a else (false, s)

/-- Where the copies agree, nothing happens. -/
theorem State.checked_clean {a : Nat} (hx : x.bad = false ∨ regDesc a = none) (ha : a ∉ s.regBad) : s.checked x a = (false, s) := by
  rcases hx with h | h <;> simp [State.checked, h, ha]

/-- The registers whose reading has a rule of its own. -/
def ownRead : List Nat := [R.RNG_DATA, R.RNG_RAW, R.GAC_TAI_SEC_LO, R.GAC_TAI_SEC_HI, R.GAC_TAI_NS]

/-- The state after the bits of a register that a read clears are cleared. -/
def State.readClear (a : Nat) : State :=
  match regDesc a with
  | some d => if d.rc = 0 then s else s.wr a (s.rd a &&& ~~~d.rc)
  | none => s

section
variable {s x} {g : Bus} {a : Nat} {p : Bool} {t : State}

/-- A half held by the read of the other one is returned, and no longer held. -/
theorem State.regRead_held (hc : s.checked x a = (p, t)) (ha : a ∉ ownRead) {v} (hl : t.latched a = some v) :
    s.regRead g x a = (v, p, t.setLatch a none) := by
  simp only [ownRead, List.mem_cons, List.not_mem_nil, or_false, not_or] at ha
  obtain ⟨h1, h2, h3, h4, -⟩ := ha
  unfold State.checked at hc
  unfold State.regRead
  rw [hc]
  simp [h1, h2, h3, h4, hl]

/-- A register that is no low half is returned, and its bits that a read clears are cleared. -/
theorem State.regRead_word (hc : s.checked x a = (p, t)) (ha : a ∉ ownRead) (hl : t.latched a = none) (hh : isLowHalf a = false) {v}
    (hw : t.regWord a = (v, t)) : s.regRead g x a = (v, p, t.readClear a) := by
  simp only [ownRead, List.mem_cons, List.not_mem_nil, or_false, not_or] at ha
  obtain ⟨h1, h2, h3, h4, h5⟩ := ha
  unfold State.checked at hc
  unfold State.regRead
  rw [hc]
  simp [h1, h2, h3, h4, h5, hl, hh, hw, State.readClear] <;> rfl

/-- With a low half its high half is held. -/
theorem State.regRead_low (hc : s.checked x a = (p, t)) (ha : a ∉ ownRead) (hl : t.latched a = none) (hh : isLowHalf a = true) {v w}
    (hw : t.regWord a = (v, t)) (hw' : t.regWord (a + 4) = (w, t)) :
    s.regRead g x a = (v, p, (t.setLatch (a + 4) (some w)).readClear a) := by
  simp only [ownRead, List.mem_cons, List.not_mem_nil, or_false, not_or] at ha
  obtain ⟨h1, h2, h3, h4, h5⟩ := ha
  unfold State.checked at hc
  unfold State.regRead
  rw [hc]
  simp [h1, h2, h3, h4, h5, hl, hh, hw, hw', State.readClear] <;> rfl

end

end AccessLaws

/-! #### Registers of one kind each -/

section RegisterKinds

variable (s : State) (x : AccIn) (i : Fin 4) {g : Bus} {v : Word}

theorem scratch_mod : R.DEV_SCRATCH i.val % 4 = 0 := by unfold R.DEV_SCRATCH; omega

theorem scratch_lt_0x20 : R.DEV_SCRATCH i.val < 0x20 := by unfold R.DEV_SCRATCH; omega

theorem scratch_lt : R.DEV_SCRATCH i.val < 2 ^ 26 := (scratch_lt_0x20 i).trans (by decide)

theorem regDesc_scratch : regDesc (R.DEV_SCRATCH i.val) = some ⟨0x10, 4, 4, 0xFFFFFFFF, 0, 0, 0, 0, 0⟩ := by
  match i with
  | 0 | 1 | 2 | 3 => rfl

theorem State.regWaits_scratch : s.regWaits (R.DEV_SCRATCH i.val) = none := by
  match i with
  | 0 | 1 | 2 | 3 => rfl

theorem State.liveReg_scratch : s.liveReg (R.DEV_SCRATCH i.val) = none := by
  match i with
  | 0 | 1 | 2 | 3 => rfl

theorem State.setHolds_scratch : s.setHolds (R.DEV_SCRATCH i.val) = false := by
  match i with
  | 0 | 1 | 2 | 3 => rfl

theorem State.regWrite_scratch {c : Nat} : s.regWrite g c x (R.DEV_SCRATCH i.val) v = s.regPut (R.DEV_SCRATCH i.val) v := by
  match i with
  | 0 | 1 | 2 | 3 => cases g <;> rfl

theorem scratch_not_ownRead : R.DEV_SCRATCH i.val ∉ ownRead := by
  match i with
  | 0 | 1 | 2 | 3 => decide

theorem isLowHalf_scratch : isLowHalf (R.DEV_SCRATCH i.val) = false := by
  match i with
  | 0 | 1 | 2 | 3 => rfl

theorem State.regWord_scratch : s.regWord (R.DEV_SCRATCH i.val) = (s.rd (R.DEV_SCRATCH i.val), s) := by
  have hw : isSluWindow (R.DEV_SCRATCH i.val) = false ∧ ¬ R.RNG_CELL 0 ≤ R.DEV_SCRATCH i.val := by
    match i with
    | 0 | 1 | 2 | 3 => decide
  obtain ⟨h1, h2⟩ := hw
  simp [State.regWord, h1, h2, s.liveReg_scratch i, regDesc_scratch i]
  exact and_ones _

theorem State.readClear_scratch : s.readClear (R.DEV_SCRATCH i.val) = s := by
  simp [State.readClear, regDesc_scratch i]

theorem State.mayWrite_scratch (h : s.mayRead g (R.DEV_SCRATCH i.val) = true) : s.mayWrite g (R.DEV_SCRATCH i.val) = true := by
  cases g with
  | host =>
    match i with
    | 0 | 1 | 2 | 3 => rfl
  | core k =>
    have hl : R.DEV_SCRATCH i.val < 0x1000000 := (scratch_lt_0x20 i).trans (by decide)
    simpa [State.mayWrite, State.mayRead, hl] using h

/-- A word register that is not listed reads 0. -/
theorem State.regWord_unlisted {a : Nat} (ha : a % 4 = 0) (hd : regDesc a = none) (hl : s.liveReg a = none)
    (hw : isSluWindow a = false) : s.regWord a = (0, s) := by
  have hc : ¬ (R.RNG_CELL 0 ≤ a ∧ a < R.RNG_CELL 4) := by
    rintro ⟨h1, h2⟩
    obtain rfl | rfl | rfl | rfl : a = R.RNG_CELL 0 ∨ a = R.RNG_CELL 1 ∨ a = R.RNG_CELL 2 ∨ a = R.RNG_CELL 3 := by
      unfold R.RNG_CELL at *
      omega
    all_goals exact absurd hd (by decide)
  simp [State.regWord, hw, hc, hl, hd]

theorem not_ownRead_of_unlisted {a : Nat} (hd : regDesc a = none) : a ∉ ownRead := by
  intro h
  have hl : ∀ b ∈ ownRead, regDesc b ≠ none := by decide
  exact hl a h hd

theorem State.readClear_unlisted {a : Nat} (hd : regDesc a = none) : s.readClear a = s := by simp [State.readClear, hd]

end RegisterKinds

/-! ### The clauses of the obligation -/

section Clauses

variable (s : State) (x : AccIn)

theorem registerAccess_badShape (g : Bus) (a : BitVec 26) (n : Fin 17) (v : Word) (h : n.val ≠ 4 ∨ a.toNat % 4 ≠ 0) :
    exec (.registerWrite g a n v x) s = .next s ∧ exec (.registerRead g a n x) s = .next (s.emit (.read a.toNat 0 false)) := by
  rw [exec_registerWrite, exec_registerRead]
  simp [execRegisterWrite, execRegisterRead, regShape_eq_false h]

theorem registerWrite_host_refused (a : BitVec 26) (v : Word) (h : hostWritable a.toNat = false) :
    exec (.registerWrite .host a 4 v x) s = .next s := by
  rw [exec_registerWrite]
  simp [execRegisterWrite, h]

theorem registerWrite_core_bar2 (k : Fin 5) (a : BitVec 26) (v : Word) (h : 0x1000000 ≤ a.toNat) :
    exec (.registerWrite (.core k) a 4 v x) s = .next s := by
  rw [exec_registerWrite]
  simp [execRegisterWrite, h]

theorem registerAccess_core_waits (k : Fin 5) (a : BitVec 26) (v : Word) (d : Nat) (ha : a.toNat % 4 = 0) (hl : a.toNat < 0x1000000)
    (hr : s.mayReach k.val a.toNat = true) (hd : s.regWaits a.toNat = some d) :
    exec (.registerWrite (.core k) a 4 v x) s = .next (s.coreStall k.val d (0x8000000000 + a.toNat) 2) ∧
      exec (.registerRead (.core k) a 4 x) s = .next (s.coreStall k.val d (0x8000000000 + a.toNat) 1) := by
  rw [exec_registerWrite, exec_registerRead]
  simp [execRegisterWrite, execRegisterRead, State.mayRead, regShape_word ha, Nat.not_le.2 hl, hr, hd, bar0Base]

theorem registerAccess_core_refused (k : Fin 5) (a : BitVec 26) (v : Word) (ha : a.toNat % 4 = 0) (hr : s.mayReach k.val a.toNat = false) :
    exec (.registerWrite (.core k) a 4 v x) s = .next s ∧ exec (.registerRead (.core k) a 4 x) s = .next s := by
  rw [exec_registerWrite, exec_registerRead]
  simp [execRegisterWrite, execRegisterRead, State.mayRead, regShape_word ha, hr]

theorem registerWrite_host_waits (a : BitVec 26) (v : Word) (d : Nat) (ha : a.toNat % 4 = 0) (hw : hostWritable a.toNat = true)
    (hd : s.regWaits a.toNat = some d) (hs : d ∉ s.pwr.stuck) :
    ∃ t, exec (.registerWrite .host a 4 v x) s = .next t ∧ t.pwr.stalled = s.pwr.stalled ++ [(d, ⟨true, true, a.toNat, 4, v⟩)] ∧
      t.mem = s.mem ∧ t.keys = s.keys := by
  have he : exec (.registerWrite .host a 4 v x) s = .next (s.hostStall d ⟨true, true, a.toNat, 4, v⟩) := by
    rw [exec_registerWrite]
    simp [execRegisterWrite, regShape_word ha, hw, hd]
  obtain ⟨hst, hm, hk⟩ := State.Waking.domWake (s := s) (u := s) ⟨rfl, rfl, rfl⟩ (d := d)
  refine ⟨_, he, ?_⟩
  rw [State.hostStall, if_neg hs]
  exact ⟨congrArg (· ++ _) hst, hm, hk⟩

theorem registerAccess_host_stuck (a : BitVec 26) (v : Word) (d : Nat) (ha : a.toNat % 4 = 0) (hd : s.regWaits a.toNat = some d)
    (hs : d ∈ s.pwr.stuck) :
    exec (.registerWrite .host a 4 v x) s = .next s ∧ exec (.registerRead .host a 4 x) s = .next (s.emit (.abort a.toNat)) := by
  rw [exec_registerWrite, exec_registerRead]
  simp [execRegisterWrite, execRegisterRead, State.mayRead, State.hostStall, regShape_word ha, hd, hs]

theorem registerWrite_scratch (g : Bus) (i : Fin 4) (v : Word) (hr : s.mayRead g (R.DEV_SCRATCH i.val) = true) :
    ∃ t, exec (.registerWrite g (BitVec.ofNat 26 (R.DEV_SCRATCH i.val)) 4 v x) s = .next t ∧ t.rd (R.DEV_SCRATCH i.val) = v ∧
      (∀ a, a ≠ R.DEV_SCRATCH i.val → t.rd a = s.rd a) ∧ s.onlyIn t [.regs, .regBad] := by
  have he := exec_registerWrite_reached s x (v := v) (scratch_mod i) (scratch_lt i) (s.mayWrite_scratch i hr) (s.regWaits_scratch i)
  rw [State.regWrite_scratch] at he
  have hv : storedForm (R.DEV_SCRATCH i.val) v = v := by
    match i with
    | 0 | 1 | 2 | 3 => rfl
  refine ⟨_, he, ?_, fun a => s.rd_regPut_ne, s.onlyIn_regPut⟩
  rw [s.rd_regPut (regDesc_scratch i) hv, RegDesc.put]
  simp
  exact and_ones _

/-- The state in which a read leaves the device whose two copies of a scratch register disagree. -/
theorem State.checked_scratch_bad (i : Fin 4) (hx : x.bad = true) :
    ∃ t, s.checked x (R.DEV_SCRATCH i.val) = (true, t) ∧ R.DEV_SCRATCH i.val ∈ t.regBad ∧ t.latch = s.latch ∧
      t.rd (R.DEV_SCRATCH i.val) = s.rd (R.DEV_SCRATCH i.val) ∧
      t.f (F.ECC_UNCORR_COUNT 12) = (s.f (F.ECC_UNCORR_COUNT 12) + 1) % 2 ^ 32 := by
  have hk : R.DEV_SCRATCH i.val ≠ R.KEY_SLOT_CTL := ((scratch_lt_0x20 i).trans (by decide)).ne
  have hn : R.DEV_SCRATCH i.val ≠ (F.ECC_UNCORR_COUNT 12).addr := ((scratch_lt_0x20 i).trans (by decide)).ne
  have hq : quietReg (R.DEV_SCRATCH i.val) = true := by
    match i with
    | 0 | 1 | 2 | 3 => rfl
  obtain ⟨hr, hb, hl⟩ := (State.Quiet.refl
    { s.addF (F.ECC_UNCORR_COUNT 12) 1 with regBad := (R.DEV_SCRATCH i.val :: s.regBad).dedup }).notify (src := 0x24)
  refine ⟨_, ?_, ?_, hl, ?_, ?_⟩
  · simp [State.checked, hx, regDesc_scratch i, State.regMismatch, s.setHolds_scratch i, hk]
  · rw [hb]
    exact List.mem_dedup.2 List.mem_cons_self
  · rw [hr _ hq]
    exact s.rd_setF_ne _ hn
  · rw [State.f, hr _ (by decide)]
    exact s.f_setF_self _ _ (by decide)

theorem registerRead_scratch_poison (g : Bus) (i : Fin 4) (hr : s.mayRead g (R.DEV_SCRATCH i.val) = true) (hx : x.bad = true)
    (hl : s.latched (R.DEV_SCRATCH i.val) = none) :
    ∃ t, exec (.registerRead g (BitVec.ofNat 26 (R.DEV_SCRATCH i.val)) 4 x) s = .next t ∧
      .read (R.DEV_SCRATCH i.val) (s.rd (R.DEV_SCRATCH i.val)).toNat true ∈ t.out ∧ R.DEV_SCRATCH i.val ∈ t.regBad ∧
      t.f (F.ECC_UNCORR_COUNT 12) = (s.f (F.ECC_UNCORR_COUNT 12) + 1) % 2 ^ 32 := by
  obtain ⟨t, hc, hb, hlt, hrd, hf⟩ := s.checked_scratch_bad x i hx
  replace hl : t.latched (R.DEV_SCRATCH i.val) = none := by rw [State.latched, hlt]; exact hl
  have e := State.regRead_word (g := g) hc (scratch_not_ownRead i) hl (isLowHalf_scratch i) (t.regWord_scratch i)
  rw [State.readClear_scratch, hrd] at e
  refine ⟨_, s.exec_registerRead_at x (scratch_mod i) (scratch_lt i) hr (s.regWaits_scratch i) e, ?_, hb, hf⟩
  exact List.mem_cons_self

theorem registerRead_scratch (g : Bus) (i : Fin 4) (hr : s.mayRead g (R.DEV_SCRATCH i.val) = true) (hx : x.bad = false)
    (hb : R.DEV_SCRATCH i.val ∉ s.regBad) (hl : s.latched (R.DEV_SCRATCH i.val) = none) :
    exec (.registerRead g (BitVec.ofNat 26 (R.DEV_SCRATCH i.val)) 4 x) s =
      .next (s.emit (.read (R.DEV_SCRATCH i.val) (s.rd (R.DEV_SCRATCH i.val)).toNat false)) := by
  have e := State.regRead_word (g := g) (s.checked_clean x (.inl hx) hb) (scratch_not_ownRead i) hl (isLowHalf_scratch i)
    (s.regWord_scratch i)
  rw [State.readClear_scratch] at e
  exact s.exec_registerRead_at x (scratch_mod i) (scratch_lt i) hr (s.regWaits_scratch i) e

theorem registerRead_unlisted (g : Bus) (a : BitVec 26) (ha : a.toNat % 4 = 0) (hr : s.mayRead g a.toNat = true)
    (hd : regDesc a.toNat = none) (hv : s.liveReg a.toNat = none) (hw : s.regWaits a.toNat = none) (hb : a.toNat ∉ s.regBad)
    (hl : s.latched a.toNat = none) (hh : isLowHalf a.toNat = false) (hs : isSluWindow a.toNat = false) :
    exec (.registerRead g a 4 x) s = .next (s.emit (.read a.toNat 0 false)) := by
  have e := State.regRead_word (g := g) (s.checked_clean x (.inr hd) hb) (not_ownRead_of_unlisted hd) hl hh
    (s.regWord_unlisted ha hd hv hs)
  rw [s.readClear_unlisted hd] at e
  exact exec_registerRead_reached s x ha hr hw e

/-! #### The rows of the GRV and GAC registers -/

theorem regDesc_grvEvt : regDesc R.GRV_EVT = some ⟨R.GRV_EVT, 0, 1, 0, 0x7F, 0, 0, 0, 0⟩ := rfl

theorem regDesc_grvEvtEn : regDesc R.GRV_EVT_EN = some ⟨R.GRV_EVT_EN, 0, 1, 0x7F, 0, 0, 0, 0, 0x7F⟩ := rfl

theorem regDesc_grvErrEntry : regDesc R.GRV_ERR_ENTRY = some ⟨R.GRV_ERR_ENTRY, 0, 1, 0, 0, 0, 0, 0, 0⟩ := rfl

theorem regDesc_grvFillLatMax : regDesc R.GRV_FILL_LAT_MAX = some ⟨R.GRV_FILL_LAT_MAX, 0, 1, 0, 0, 0, 0xFFFFFFFF, 0, 0⟩ := rfl

theorem bitAt_0x7F {i : Nat} (h : i < 7) : bitAt (0x7F : Word).toNat i = true := by
  have hb : ∀ j < 7, bitAt (0x7F : Word).toNat j = true := by decide
  exact hb i h

/-- A W1C register loses the bits written as 1. -/
theorem bitAt_put_w1c {d : RegDesc} (hrw : d.rw = 0#32) (h1s : d.w1s = 0#32) (o v : Word) {i : Nat} (hi : i < 32)
    (hd : bitAt d.w1c.toNat i = true) : bitAt (d.put o v).toNat i = (bitAt o.toNat i && !bitAt v.toNat i) := by
  simp only [bitAt, BitVec.testBit_toNat] at hd ⊢
  simp only [RegDesc.put, hrw, h1s, BitVec.getLsbD_or, BitVec.getLsbD_and, BitVec.getLsbD_not, BitVec.getLsbD_zero, hd, hi]
  simp

/-- An RW register takes the bits written. -/
theorem bitAt_put_rw {d : RegDesc} (h1c : d.w1c = 0#32) (h1s : d.w1s = 0#32) (o v : Word) {i : Nat} (hi : i < 32)
    (hd : bitAt d.rw.toNat i = true) : bitAt (d.put o v).toNat i = bitAt v.toNat i := by
  simp only [bitAt, BitVec.testBit_toNat] at hd ⊢
  simp only [RegDesc.put, h1c, h1s, BitVec.getLsbD_or, BitVec.getLsbD_and, BitVec.getLsbD_not, BitVec.getLsbD_zero, hd, hi]
  simp

/-- A read-only register stays. -/
theorem put_ro {d : RegDesc} (hrw : d.rw = 0) (h1c : d.w1c = 0) (h1s : d.w1s = 0) (o v : Word) : d.put o v = o := by
  simp [RegDesc.put, hrw, h1c, h1s]
  exact (and_ones _).trans (and_ones o)

/-- A core with SYS in pcc writes the registers of the GRV block that are written by their access codes alone. -/
theorem exec_registerWrite_grv {a : Nat} (k : Fin 5) (v : Word) (ha : a ∈ [R.GRV_EVT, R.GRV_EVT_EN, R.GRV_ERR_ENTRY])
    (hs : (s.pr k.val).pcc.has 0x80 = true) (hw : s.regWaits R.GRV_EVT = none) :
    exec (.registerWrite (.core k) (BitVec.ofNat 26 a) 4 v x) s = .next (s.regPut a v) := by
  simp only [List.mem_cons, List.not_mem_nil, or_false] at ha
  rcases ha with rfl | rfl | rfl <;>
    exact exec_registerWrite_reached s x (g := .core k) rfl (by decide) hs hw

theorem registerWrite_grv (k : Fin 5) (v : Word) (hs : (s.pr k.val).pcc.has 0x80 = true) (hw : s.regWaits R.GRV_EVT = none) :
    (∃ t, exec (.registerWrite (.core k) (BitVec.ofNat 26 R.GRV_EVT) 4 v x) s = .next t ∧
        (∀ i, i < 7 → bitAt (t.rd R.GRV_EVT).toNat i = (bitAt (s.rd R.GRV_EVT).toNat i && !bitAt v.toNat i)) ∧
        (∀ a, a ≠ R.GRV_EVT → t.rd a = s.rd a) ∧ s.onlyIn t [.regs, .regBad]) ∧
      (∃ t, exec (.registerWrite (.core k) (BitVec.ofNat 26 R.GRV_EVT_EN) 4 v x) s = .next t ∧
        (∀ i, i < 7 → bitAt (t.rd R.GRV_EVT_EN).toNat i = bitAt v.toNat i) ∧
        (∀ a, a ≠ R.GRV_EVT_EN → t.rd a = s.rd a) ∧ s.onlyIn t [.regs, .regBad]) ∧
      (∃ t, exec (.registerWrite (.core k) (BitVec.ofNat 26 R.GRV_ERR_ENTRY) 4 v x) s = .next t ∧
        (∀ a, t.rd a = s.rd a) ∧ s.onlyIn t [.regs, .regBad]) := by
  refine ⟨⟨_, exec_registerWrite_grv s x k v (by simp) hs hw, fun i hi => ?_, fun a => s.rd_regPut_ne, s.onlyIn_regPut⟩,
    ⟨_, exec_registerWrite_grv s x k v (by simp) hs hw, fun i hi => ?_, fun a => s.rd_regPut_ne, s.onlyIn_regPut⟩,
    ⟨_, exec_registerWrite_grv s x k v (by simp) hs hw, fun a => ?_, s.onlyIn_regPut⟩⟩
  · rw [s.rd_regPut regDesc_grvEvt rfl]
    exact bitAt_put_w1c rfl rfl _ _ (by omega) (bitAt_0x7F hi)
  · rw [s.rd_regPut regDesc_grvEvtEn rfl]
    exact bitAt_put_rw rfl rfl _ _ (by omega) (bitAt_0x7F hi)
  · by_cases h : a = R.GRV_ERR_ENTRY
    · rw [h, s.rd_regPut regDesc_grvErrEntry rfl]
      exact put_ro rfl rfl rfl _ _
    · exact s.rd_regPut_ne h

/-! #### Reads that hold or clear -/

theorem State.latched_setLatch_self (a : Nat) (w : Option Word) : (s.setLatch a w).latched a = w := by
  simp [State.latched, State.setLatch]

theorem toNat_half64_low (n : Nat) : (half64 n false).toNat = n % 2 ^ 32 := BitVec.toNat_ofNat n 32

theorem half64_high (n : Nat) : half64 n true = BitVec.ofNat 32 (n / 2 ^ 32) := by simp [half64]

theorem State.regWord_gacNowLo : s.regWord R.GAC_NOW_LO = (half64 s.gacNow.toNat false, s) := rfl

theorem State.regWord_gacNowHi : s.regWord R.GAC_NOW_HI = (half64 s.gacNow.toNat true, s) := rfl

theorem State.regWord_grvFillLatMax : s.regWord R.GRV_FILL_LAT_MAX = (s.rd R.GRV_FILL_LAT_MAX, s) := by
  have e : s.regWord R.GRV_FILL_LAT_MAX = (s.rd R.GRV_FILL_LAT_MAX &&& ~~~0, s) := rfl
  rw [e]
  exact Prod.ext (and_ones _) rfl

theorem State.readClear_gacNowLo : s.readClear R.GAC_NOW_LO = s := rfl

theorem registerRead_gacNowLo (g : Bus) (hr : s.mayRead g R.GAC_NOW_LO = true) (hx : x.bad = false) (hb : R.GAC_NOW_LO ∉ s.regBad)
    (hl : s.latched R.GAC_NOW_LO = none) :
    ∃ t, exec (.registerRead g (BitVec.ofNat 26 R.GAC_NOW_LO) 4 x) s = .next t ∧
      t.out = .read R.GAC_NOW_LO (s.gacNow.toNat % 2 ^ 32) false :: s.out ∧
      t.latched R.GAC_NOW_HI = some (BitVec.ofNat 32 (s.gacNow.toNat / 2 ^ 32)) ∧ s.onlyIn t [.latch, .out] := by
  have e := State.regRead_low (g := g) (s.checked_clean x (.inl hx) hb) (by decide) hl rfl s.regWord_gacNowLo s.regWord_gacNowHi
  rw [State.readClear_gacNowLo] at e
  have he := s.exec_registerRead_at x rfl (by decide) hr rfl e
  rw [toNat_half64_low, half64_high] at he
  exact ⟨_, he, rfl, s.latched_setLatch_self R.GAC_NOW_HI (some (BitVec.ofNat 32 (s.gacNow.toNat / 2 ^ 32))), s.onlyIn_latch_out⟩

theorem registerRead_gacNowHi (g : Bus) (v : Word) (hr : s.mayRead g R.GAC_NOW_HI = true) (hx : x.bad = false)
    (hb : R.GAC_NOW_HI ∉ s.regBad) (hl : s.latched R.GAC_NOW_HI = some v) :
    ∃ t, exec (.registerRead g (BitVec.ofNat 26 R.GAC_NOW_HI) 4 x) s = .next t ∧
      t.out = .read R.GAC_NOW_HI v.toNat false :: s.out ∧ t.latched R.GAC_NOW_HI = none ∧ s.onlyIn t [.latch, .out] := by
  have e := State.regRead_held (g := g) (s.checked_clean x (.inl hx) hb) (by decide) hl
  exact ⟨_, s.exec_registerRead_at x rfl (by decide) hr rfl e, rfl, s.latched_setLatch_self R.GAC_NOW_HI none, s.onlyIn_latch_out⟩

theorem registerRead_grvFillLatMax (g : Bus) (hr : s.mayRead g R.GRV_FILL_LAT_MAX = true) (hx : x.bad = false)
    (hw : s.regWaits R.GRV_FILL_LAT_MAX = none) (hb : R.GRV_FILL_LAT_MAX ∉ s.regBad) (hl : s.latched R.GRV_FILL_LAT_MAX = none) :
    ∃ t, exec (.registerRead g (BitVec.ofNat 26 R.GRV_FILL_LAT_MAX) 4 x) s = .next t ∧
      t.out = .read R.GRV_FILL_LAT_MAX (s.rd R.GRV_FILL_LAT_MAX).toNat false :: s.out ∧ t.rd R.GRV_FILL_LAT_MAX = 0 ∧
      (∀ a, a ≠ R.GRV_FILL_LAT_MAX → t.rd a = s.rd a) ∧ s.onlyIn t [.regs, .out] := by
  have e := State.regRead_word (g := g) (s.checked_clean x (.inl hx) hb) (by decide) hl rfl s.regWord_grvFillLatMax
  have hc : s.readClear R.GRV_FILL_LAT_MAX = s.wr R.GRV_FILL_LAT_MAX 0 := by
    simp [State.readClear, regDesc_grvFillLatMax]
  rw [hc] at e
  exact ⟨_, s.exec_registerRead_at x rfl (by decide) hr hw e, rfl, s.rd_wr_self R.GRV_FILL_LAT_MAX 0,
    fun a h => s.rd_wr_ne (0 : Word) h, s.onlyIn_regs_out⟩

end Clauses

/-- Settles O59: each clause is a lemma of its own; what an alarm and a waking domain leave alone is in `State.Quiet` and
`State.Waking`. -/
theorem registerAccess : Obligations.RegisterAccess := fun s x =>
  ⟨registerAccess_badShape s x, registerWrite_host_refused s x, registerWrite_core_bar2 s x, registerAccess_core_waits s x,
    registerAccess_core_refused s x, registerWrite_host_waits s x, registerAccess_host_stuck s x, registerWrite_scratch s x,
    registerWrite_grv s x, registerRead_unlisted s x, registerRead_scratch_poison s x, registerRead_scratch s x,
    registerRead_gacNowLo s x, registerRead_gacNowHi s x, registerRead_grvFillLatMax s x⟩

end Sys2Proof.Machine

/-! # Angle 0

What angle 0 gives back to a port is its budget as it stands once the schedules have been entered (step 3 of R16 comes before
step 4), not as it stood before. The two differ where a schedule's entry writes a budget register. The index of the lane on
which an extender's context lies is a number without a bound in the model, and so is the address of that lane's calibration
registers: a lane far outside the 32 of the device shares its count of skipped tasks with a budget. -/

namespace Sys2Proof.Machine

/-- A lane outside the device, whose CAL_LANE_SKIP lies where SLU_RX_BUDGET of port 0 is. -/
def strayLane : Nat := 0xAFF8

theorem skipCount_strayLane_addr : (F.CAL_LANE_SKIP_COUNT strayLane).addr = R.SLU_RX_BUDGET 0 := rfl

/-- The device after reset, but for context 32, assigned on the stray lane, where a Clearing's task is due. -/
def strayContext : State :=
  (State.reset.setCtx 32 { Ctx.free with st := ctxAssigned, lane := strayLane }).setLane strayLane { Lane.reset with taskDue := true }

/-- The invariant that every step keeps does not exclude the state. -/
theorem strayContext_sound : strayContext.Sound := ⟨rfl, rfl⟩

/-- No task is enabled on the stray lane, so the task that is due there is counted as skipped (R150). -/
theorem taskNow_strayContext :
    strayContext.taskNow strayLane = (strayContext.setLane strayLane Lane.reset).addF (F.CAL_LANE_SKIP_COUNT strayLane) 1 := rfl

theorem rd_rxBudget_strayContext : strayContext.rd (R.SLU_RX_BUDGET 0) = 0 := by decide +kernel

/-- The skipped task is counted in the budget of port 0. -/
theorem rd_rxBudget_taskNow_strayContext : (strayContext.taskNow strayLane).rd (R.SLU_RX_BUDGET 0) = 1 := by
  rw [taskNow_strayContext, ← skipCount_strayLane_addr]
  decide +kernel

/-- Angle 0 reloads port 0 with the budget so changed. -/
theorem exec_angleZero_strayContext :
    ∃ t, exec .angleZero strayContext = .next t ∧ t.rd (R.SLU_RX_LEFT 0) = 1 :=
  ⟨_, rfl, by decide +kernel⟩

/-- Refutes O60: entering the schedules may change a budget before it is reloaded. In `strayContext` port 0 has no budget as the
angle wraps, and 1 is left of it afterwards. -/
theorem not_angleZero : ¬ Obligations.AngleZero := by
  intro h
  obtain ⟨-, hmain⟩ := h strayContext
  obtain ⟨t, ht, -, -, -, -, -, -, hbudget, -⟩ := hmain rfl rfl rfl
  obtain ⟨t', ht', hleft⟩ := exec_angleZero_strayContext
  obtain rfl : t' = t := Host.Outcome.next.inj (ht'.symm.trans ht)
  have heq : t'.rd (R.SLU_RX_LEFT 0) = strayContext.rd (R.SLU_RX_BUDGET 0) := (hbudget 0 (by decide)).2
  rw [hleft, rd_rxBudget_strayContext] at heq
  exact absurd heq (by decide)

end Sys2Proof.Machine

/-! # What placing an event or a reply leaves alone -/

namespace Sys2Proof.Machine

/-- Registers that placing an event or a reply does not write: all but the interrupt registers, the rings of the Culvert and the
pending bits of MSI-X. -/
def evtFree (a : Nat) : Bool :=
  decide (a < 0x3000) || (decide (0x4000 ≤ a) && decide (a < 0xD0000)) || (decide (0xE0000 ≤ a) && decide (a < 0x1000000))

theorem evtFree_eq_false_iff {a : Nat} :
    evtFree a = false ↔ (0x3000 ≤ a ∧ a < 0x4000) ∨ (0xD0000 ≤ a ∧ a < 0xE0000) ∨ 0x1000000 ≤ a := by
  simp [evtFree]
  omega

/-- From `s` to `t` only registers, the Culvert and what has left the device change: of the registers those listed and those that
an event or a reply writes, of the Culvert not Bus Master Enable, and nothing that has left is forgotten. -/
structure State.Touches (s t : State) (l : List Nat) : Prop where
  eq : ∃ r c o, t = { s with regs := r, cul := c, out := o }
  rd : ∀ a, evtFree a = true → a ∉ l → t.rd a = s.rd a
  bme : t.cul.bme = s.cul.bme
  out : s.out ⊆ t.out

section TouchLaws

variable {s t u : State} {l : List Nat}

theorem State.Touches.refl : s.Touches s l := ⟨⟨_, _, _, rfl⟩, fun _ _ _ => rfl, rfl, List.Subset.refl _⟩

theorem State.Touches.trans (h : s.Touches t l) (g : t.Touches u l) : s.Touches u l := by
  obtain ⟨⟨r, c, o, rfl⟩, hr, hb, ho⟩ := h
  obtain ⟨⟨r', c', o', rfl⟩, gr, gb, go⟩ := g
  exact ⟨⟨r', c', o', rfl⟩, fun a ha hl => (gr a ha hl).trans (hr a ha hl), gb.trans hb, List.Subset.trans ho go⟩

/-- A field of a register that is not listed reads as before. -/
theorem State.Touches.f (h : s.Touches t l) {g : Fld} (ha : evtFree g.addr = true) (hl : g.addr ∉ l) : t.f g = s.f g := by
  rw [State.f, State.f, h.rd g.addr ha hl]

theorem State.Touches.gac (h : s.Touches t l) : t.gac = s.gac := by obtain ⟨r, c, o, rfl⟩ := h.eq; rfl

theorem State.Touches.keys (h : s.Touches t l) : t.keys = s.keys := by obtain ⟨r, c, o, rfl⟩ := h.eq; rfl

theorem State.Touches.twin (h : s.Touches t l) : t.twin = s.twin := by obtain ⟨r, c, o, rfl⟩ := h.eq; rfl

theorem State.Touches.mem (h : s.Touches t l) : t.mem = s.mem := by obtain ⟨r, c, o, rfl⟩ := h.eq; rfl

theorem State.Touches.cal (h : s.Touches t l) : t.cal = s.cal := by obtain ⟨r, c, o, rfl⟩ := h.eq; rfl

theorem State.Touches.if_ {p : Prop} {_ : Decidable p} (ht : s.Touches t l) (hu : s.Touches u l) : s.Touches (if p then t else u) l := by
  split <;> assumption

theorem State.Touches.wr (h : s.Touches u l) {a v} (ha : evtFree a = false ∨ a ∈ l) : s.Touches (u.wr a v) l := by
  refine h.trans ⟨⟨_, _, _, rfl⟩, fun b hb hl => u.rd_wr_ne v ?_, rfl, List.Subset.refl _⟩
  rintro rfl
  rcases ha with ha | ha
  · exact absurd (ha.symm.trans hb) (by decide)
  · exact hl ha

theorem State.Touches.setF (h : s.Touches u l) {f x} (hf : evtFree f.addr = false ∨ f.addr ∈ l) : s.Touches (u.setF f x) l := h.wr hf

theorem State.Touches.emit (h : s.Touches u l) {o} : s.Touches (u.emit o) l :=
  h.trans ⟨⟨_, _, _, rfl⟩, fun _ _ _ => rfl, rfl, List.subset_cons_self _ _⟩

theorem State.Touches.setCul (h : s.Touches u l) {c : Cul} (hc : c.bme = u.cul.bme) : s.Touches { u with cul := c } l :=
  h.trans ⟨⟨_, _, _, rfl⟩, fun _ _ _ => rfl, hc, List.Subset.refl _⟩

theorem evtFree_irqPend {p src : Nat} (hp : p < 5) (hs : src < 256) : evtFree (R.DEV_IRQ_PEND (p * 8 + src / 32)) = false := by
  rw [evtFree_eq_false_iff]
  unfold R.DEV_IRQ_PEND
  omega

theorem State.Touches.irqAll (h : s.Touches u l) {src} (hs : src < 256) : s.Touches (u.irqAll src) l :=
  have hq (p : Nat) (hp : p < 5) : evtFree (R.DEV_IRQ_PEND (p * 8 + src / 32)) = false ∨ R.DEV_IRQ_PEND (p * 8 + src / 32) ∈ l :=
    .inl (evtFree_irqPend hp hs)
  ((((h.wr (hq 0 (by decide))).wr (hq 1 (by decide))).wr (hq 2 (by decide))).wr (hq 3 (by decide))).wr (hq 4 (by decide))

theorem State.Touches.signalArmed (h : s.Touches u l) {v} : s.Touches (u.signalArmed v) l := by
  have hc : s.Touches { u with cul := { u.cul with armed := u.cul.armed.filter (· ≠ v) } } l := h.setCul rfl
  have ha : evtFree (R.MSIX_PBA (v / 32)) = false := by
    rw [evtFree_eq_false_iff]
    unfold R.MSIX_PBA
    omega
  exact .if_ (.if_ (hc.wr (.inl ha)) hc.emit) h

/-! ### Event rings: their index fits 6 bits -/

theorem evtFree_eringIdx {e : Nat} (he : e < 64) : evtFree (F.CUL_ERING_IDX_TAIL e).addr = false := by
  rw [evtFree_eq_false_iff]
  simp only [F.CUL_ERING_IDX_TAIL]
  omega

theorem evtFree_eringLost {e : Nat} (he : e < 64) : evtFree (F.CUL_ERING_LOST_COUNT e).addr = false := by
  rw [evtFree_eq_false_iff]
  simp only [F.CUL_ERING_LOST_COUNT]
  omega

theorem State.Touches.putEntry (h : s.Touches u l) {e ev} (he : e < 64) : s.Touches (u.putEntry e ev) l :=
  (h.emit.setF (.inl (evtFree_eringIdx he))).signalArmed

theorem State.Touches.drainEv (h : s.Touches u l) {n e} (he : e < 64) : s.Touches (State.drainEv n e u) l := by
  induction n generalizing u with
  | zero => exact h
  | succ n ih =>
    have hl : s.Touches (u.setLostNow e 0) l := h.setCul rfl
    unfold State.drainEv
    refine .if_ h (.if_ (ih (hl.putEntry he)) ?_)
    split
    next => exact h
    next ev t _ =>
      have hh : s.Touches (u.setHeldEv e t) l := h.setCul rfl
      exact ih (hh.putEntry he)

theorem State.Touches.postTo (h : s.Touches u l) {e ev} (he : e < 64) : s.Touches (u.postTo e ev) l := by
  have hh : s.Touches (u.setHeldEv e (u.heldEv e ++ [ev])) l := h.setCul rfl
  have hl : s.Touches (u.setLostNow e (u.lostNow e + 1)) l := h.setCul rfl
  exact .if_ (hh.drainEv he) (hl.setF (.inl (evtFree_eringLost he)))

theorem State.Touches.post (h : s.Touches u l) {ev} (hc : ev.cls < 16) : s.Touches (u.post ev) l := by
  have hi : s.Touches (u.irqAll (32 + ev.cls)) l := h.irqAll (by omega)
  exact .if_ (hi.setF (.inl rfl)) (hi.postTo (State.f_lt _ _))

theorem State.Touches.raise (h : s.Touches u l) {src bit data} (hc : src.cls < 16) (hs : src.evt ∈ l) :
    s.Touches (u.raise src bit data) l :=
  have hw := h.wr (v := u.rd src.evt ||| BitVec.ofNat 32 (2 ^ bit)) (.inr hs)
  .if_ (hw.post hc) hw

/-- A flag that is raised stands in its register. -/
theorem State.bitAt_raise (s : State) {src bit data} (hc : src.cls < 16) (he : evtFree src.evt = true) (hb : bit < 32) :
    bitAt ((s.raise src bit data).rd src.evt).toNat bit = true := by
  have hr : (s.raise src bit data).rd src.evt = s.rd src.evt ||| BitVec.ofNat 32 (2 ^ bit) := by
    unfold State.raise
    extract_lets t
    have ht : t.rd src.evt = s.rd src.evt ||| BitVec.ofNat 32 (2 ^ bit) := s.rd_wr_self _ _
    split
    · exact ((Touches.refl (l := []).post hc).rd _ he (by simp)).trans ht
    · exact ht
  rw [hr, bitAt, toNat_or_bit _ _ hb]
  simp

end TouchLaws

end Sys2Proof.Machine

/-! # The grid-angle clock: its flags, states and references -/

namespace Sys2Proof.Machine

section ClockLaws

variable (s : State)

/-- A property that each step of a loop keeps holds after it. -/
theorem State.forEach_inv {α : Type} {P : State → Prop} {g : State → α → State} (hg : ∀ u a, P u → P (g u a)) (l : List α) {u : State}
    (h : P u) : P (u.forEach l g) := by
  induction l generalizing u with
  | nil => exact h
  | cons a l ih => exact ih (hg u a h)

theorem State.rd_congr {s t : State} (h : t.regs = s.regs) {a} : t.rd a = s.rd a := by rw [State.rd, State.rd, h]

theorem State.f_congr {s t : State} (h : t.regs = s.regs) {g} : t.f g = s.f g := by rw [State.f, State.f, State.rd_congr h]

/-! ### Flags -/

/-- Registers that no flag of the clock changes. -/
def flagFree (a : Nat) : Bool := evtFree a && decide (a ≠ R.GAC_EVT)

theorem State.gacFlag_touches {bit} : s.Touches (s.gacFlag bit) [R.GAC_EVT] := State.Touches.refl.raise (by decide) (by simp [gacEvt])

@[simp] theorem State.gac_gacFlag {bit} : (s.gacFlag bit).gac = s.gac := s.gacFlag_touches.gac

@[simp] theorem State.berm_gacFlag_zero {bit} : (s.gacFlag bit true).berm = s.berm := rfl

theorem State.rd_gacFlag {bit zero a} (ha : flagFree a = true) : (s.gacFlag bit zero).rd a = s.rd a := by
  cases zero with
  | true => rfl
  | false =>
    simp only [flagFree, Bool.and_eq_true, decide_eq_true_eq] at ha
    exact s.gacFlag_touches.rd a ha.1 (by simpa using ha.2)

theorem State.f_gacFlag {bit zero} {g : Fld} (hg : flagFree g.addr = true) : (s.gacFlag bit zero).f g = s.f g := by
  rw [State.f, State.f, s.rd_gacFlag hg]

/-- The flags that an angle 0 has gathered are set on the backup cell without an entry. -/
theorem State.rd_postGathered {a} (hb : s.berm.backup = true) (ha : a ≠ R.GAC_EVT) : s.postGathered.rd a = s.rd a := by
  have h := State.forEach_inv (P := fun u => u.berm.backup = true ∧ u.rd a = s.rd a)
    (g := fun s b => if s.berm.backup then s.wr R.GAC_EVT (s.rd R.GAC_EVT ||| BitVec.ofNat 32 (2 ^ b)) else s.raise gacEvt b s.gst)
    (fun u b ⟨hu, hr⟩ => by rw [if_pos hu]; exact ⟨hu, (u.rd_wr_ne _ ha).trans hr⟩)
    ((List.range 7).filter (bitAt s.gac.gathered)) (u := { s with gac := { s.gac with gathered := 0 } }) ⟨hb, rfl⟩
  exact h.2

/-! ### States -/

theorem State.rd_enterGac {st zero a} (ha : flagFree a = true) (hn : a ≠ R.GAC_STATUS) : (s.enterGac st zero).rd a = s.rd a := by
  unfold State.enterGac
  split
  · rfl
  · rw [State.rd_gacFlag _ ha, s.rd_setF_ne st hn]

theorem State.f_enterGac {st zero} {g : Fld} (hg : flagFree g.addr = true) (hn : F.GAC_STATUS_STATE.apart g = true) :
    (s.enterGac st zero).f g = s.f g := by
  unfold State.enterGac
  split
  · rfl
  · rw [State.f_gacFlag _ hg, s.f_setF_ne st (by decide) hn]

theorem State.gst_enterGac {st zero} (hs : st < 8) : (s.enterGac st zero).gst = st := by
  unfold State.enterGac
  split
  · assumption
  · rw [State.gst, State.f_gacFlag _ rfl, s.f_setF_self _ _ (by decide)]
    exact Nat.mod_eq_of_lt hs

@[simp] theorem State.gac_enterGac {st} : (s.enterGac st).gac = s.gac := by
  unfold State.enterGac
  split
  · rfl
  · exact State.gac_gacFlag _

@[simp] theorem State.berm_enterGac_zero {st} : (s.enterGac st true).berm = s.berm := by
  unfold State.enterGac
  split <;> rfl

/-! ### Acquisition -/

theorem State.f_showSlew {g : Fld} (hn : F.GAC_STATUS_SLEWING.apart g = true) : s.showSlew.f g = s.f g :=
  s.f_setF_ne _ (by decide) hn

theorem State.rd_showSlew {a} (hn : a ≠ R.GAC_STATUS) : s.showSlew.rd a = s.rd a := s.rd_setF_ne _ hn

theorem State.regs_startAcq {mains} : (s.startAcq mains).regs = ((s.setF F.GAC_STATUS_ACQ 1).setF F.GAC_STATUS_SLEWING 0).regs := by
  dsimp only [State.startAcq]

theorem State.mref_startAcq {mains} : (s.startAcq mains).gac.mref = s.gac.mref := rfl

theorem State.f_startAcq {mains} {g : Fld} (ha : F.GAC_STATUS_ACQ.apart g = true) (hn : F.GAC_STATUS_SLEWING.apart g = true) :
    (s.startAcq mains).f g = s.f g := by
  rw [State.f_congr s.regs_startAcq, State.f_setF_ne _ _ (by decide) hn, State.f_setF_ne _ _ (by decide) ha]

theorem State.rd_startAcq {mains a} (hn : a ≠ R.GAC_STATUS) : (s.startAcq mains).rd a = s.rd a := by
  rw [State.rd_congr s.regs_startAcq, State.rd_setF_ne _ _ hn, State.rd_setF_ne _ _ hn]

theorem State.f_endAcq {g : Fld} (ha : F.GAC_STATUS_ACQ.apart g = true) (hn : F.GAC_STATUS_SLEWING.apart g = true) :
    s.endAcq.f g = s.f g :=
  (State.f_showSlew _ hn).trans (s.f_setF_ne 0 (by decide) ha)

theorem State.gac_endAcq : s.endAcq.gac = s.gac := by simp [State.endAcq, State.showSlew]

theorem State.rd_endAcq {a} (hn : a ≠ R.GAC_STATUS) : s.endAcq.rd a = s.rd a :=
  (State.rd_showSlew _ hn).trans (s.rd_setF_ne 0 hn)

/-! ### HOLDOVER -/

/-- The clock is in HOLDOVER for 64 cycles with a frequency word latched. -/
def State.HoldsAt (s : State) (v : Word) : Prop :=
  s.gst = gHoldover ∧ s.f F.GAC_STATUS_HOLD_LEFT = 64 ∧ s.rd R.GAC_FREQ_HOLD = v

theorem State.toHoldover_holds {zero} : (s.toHoldover zero).HoldsAt (s.rd R.GAC_FREQ) := by
  refine ⟨?_, ?_, ?_⟩ <;> unfold State.toHoldover <;> extract_lets t
  · rw [State.gst, State.f_gacFlag _ rfl]
    exact State.gst_enterGac _ (by decide)
  · rw [State.f_gacFlag _ rfl, State.f_enterGac _ rfl rfl]
    exact State.f_setF_self _ _ _ (by decide)
  · rw [State.rd_gacFlag _ rfl, State.rd_enterGac _ rfl (by decide)]
    exact (State.rd_setF_ne _ 64 (by decide)).trans (s.rd_wr_self _ _)

theorem State.f_toHoldover {zero} {g : Fld} (hg : flagFree g.addr = true) (hs : F.GAC_STATUS_STATE.apart g = true)
    (hh : F.GAC_STATUS_HOLD_LEFT.apart g = true) (hn : g.addr ≠ R.GAC_FREQ_HOLD) : (s.toHoldover zero).f g = s.f g := by
  unfold State.toHoldover
  extract_lets t
  rw [State.f_gacFlag _ hg, State.f_enterGac _ hg hs]
  exact (State.f_setF_ne _ 64 (by decide) hh).trans (s.f_wr_ne _ hn)

theorem State.rd_toHoldover {zero a} (ha : flagFree a = true) (hs : a ≠ R.GAC_STATUS) (hn : a ≠ R.GAC_FREQ_HOLD) :
    (s.toHoldover zero).rd a = s.rd a := by
  unfold State.toHoldover
  extract_lets t
  rw [State.rd_gacFlag _ ha, State.rd_enterGac _ ha hs]
  exact (State.rd_setF_ne _ 64 hs).trans (s.rd_wr_ne _ hn)

theorem State.gac_toHoldover : s.toHoldover.gac = s.gac := by
  unfold State.toHoldover
  extract_lets t
  rw [State.gac_gacFlag, State.gac_enterGac]
  exact (State.gac_setF _ _ _).trans (s.gac_wr _ _)

/-! ### A source becomes valid or is lost -/

theorem State.mref_mainsUp : s.mainsUp.gac.mref = s.gac.mref := by
  have h : (s.gacFlag 2).gac.mref = s.gac.mref := by simp
  unfold State.mainsUp
  split
  · rfl
  · extract_lets t
    split
    · exact h
    · split
      · exact h
      · rw [State.mref_startAcq, h]

/-- The state after the acquisition on mains, if any, has ended as the mains reference is lost. -/
def State.endMainsAcq (s : State) : State := if s.fb F.GAC_STATUS_ACQ && s.gac.acqMains then s.endAcq else s

theorem State.f_endMainsAcq {g : Fld} (ha : F.GAC_STATUS_ACQ.apart g = true) (hn : F.GAC_STATUS_SLEWING.apart g = true) :
    s.endMainsAcq.f g = s.f g := by
  unfold State.endMainsAcq
  split
  exacts [s.f_endAcq ha hn, rfl]

theorem State.rd_endMainsAcq {a} (hn : a ≠ R.GAC_STATUS) : s.endMainsAcq.rd a = s.rd a := by
  unfold State.endMainsAcq
  split
  exacts [s.rd_endAcq hn, rfl]

theorem State.gac_endMainsAcq : s.endMainsAcq.gac = s.gac := by
  unfold State.endMainsAcq
  split
  exacts [s.gac_endAcq, rfl]

/-- What the loss of the mains reference does: acquisition on mains ends, the lock on mains gives way to HOLDOVER, and acquisition
on the phasor may begin. -/
theorem State.mainsDown_cases {zero} :
    ∃ t, (t = s.endMainsAcq ∧ s.gst ≠ gMains ∨ t = s.endMainsAcq.toHoldover zero ∧ s.gst = gMains) ∧
      (s.mainsDown zero = t ∨ s.mainsDown zero = t.startAcq false) := by
  have hg : s.endMainsAcq.gst = s.gst := s.f_endMainsAcq rfl rfl
  refine ⟨if s.endMainsAcq.gst = gMains then s.endMainsAcq.toHoldover zero else s.endMainsAcq, ?_, (ite_eq_or_eq _ _ _).symm⟩
  rw [hg]
  by_cases h : s.gst = gMains
  · exact .inr ⟨if_pos h, h⟩
  · exact .inl ⟨if_neg h, h⟩

theorem State.mainsDown_holds {zero} (h : s.gst = gMains) : (s.mainsDown zero).HoldsAt (s.rd R.GAC_FREQ) := by
  obtain ⟨t, (⟨-, hn⟩ | ⟨rfl, -⟩), ht⟩ := s.mainsDown_cases (zero := zero)
  · exact absurd h hn
  · have hh := s.endMainsAcq.toHoldover_holds (zero := zero)
    rw [s.rd_endMainsAcq (by decide)] at hh
    obtain ⟨h1, h2, h3⟩ := hh
    rcases ht with ht | ht <;> rw [ht]
    · exact ⟨h1, h2, h3⟩
    · exact ⟨(State.f_startAcq _ rfl rfl).trans h1, (State.f_startAcq _ rfl rfl).trans h2, (State.rd_startAcq _ (by decide)).trans h3⟩

theorem State.f_mainsDown_valid {zero} : (s.mainsDown zero).f F.GAC_STATUS_MREF_VALID = s.f F.GAC_STATUS_MREF_VALID := by
  obtain ⟨t, hc, ht⟩ := s.mainsDown_cases (zero := zero)
  have h : t.f F.GAC_STATUS_MREF_VALID = s.f F.GAC_STATUS_MREF_VALID := by
    rcases hc with ⟨rfl, -⟩ | ⟨rfl, -⟩
    · exact s.f_endMainsAcq rfl rfl
    · exact (State.f_toHoldover _ rfl rfl rfl (by decide)).trans (s.f_endMainsAcq rfl rfl)
  rcases ht with ht | ht <;> rw [ht]
  exacts [h, (State.f_startAcq _ rfl rfl).trans h]

theorem State.mref_mainsDown : s.mainsDown.gac.mref = s.gac.mref := by
  obtain ⟨t, hc, ht⟩ := s.mainsDown_cases (zero := false)
  have h : t.gac.mref = s.gac.mref := by
    rcases hc with ⟨rfl, -⟩ | ⟨rfl, -⟩
    · rw [gac_endMainsAcq]
    · rw [gac_toHoldover, gac_endMainsAcq]
  rcases ht with ht | ht <;> rw [ht] <;> exact h

/-- The state after the phasor reference is shown invalid and the acquisition on it, if any, has ended. -/
def State.endPhasor (s : State) : State :=
  let t := s.setF F.GAC_STATUS_PHASOR_VALID 0
  if t.fb F.GAC_STATUS_ACQ && !t.gac.acqMains then t.endAcq else t

theorem State.f_endPhasor {g : Fld} (hp : F.GAC_STATUS_PHASOR_VALID.apart g = true) (ha : F.GAC_STATUS_ACQ.apart g = true)
    (hn : F.GAC_STATUS_SLEWING.apart g = true) : s.endPhasor.f g = s.f g := by
  have h := s.f_setF_ne 0 (by decide) hp
  unfold State.endPhasor
  extract_lets t
  split
  exacts [(t.f_endAcq ha hn).trans h, h]

theorem State.rd_endPhasor {a} (hn : a ≠ R.GAC_STATUS) : s.endPhasor.rd a = s.rd a := by
  have h := s.rd_setF_ne (f := F.GAC_STATUS_PHASOR_VALID) 0 hn
  unfold State.endPhasor
  extract_lets t
  split
  exacts [(t.rd_endAcq hn).trans h, h]

theorem State.f_endPhasor_valid : s.endPhasor.f F.GAC_STATUS_PHASOR_VALID = 0 := by
  have h := s.f_setF_self F.GAC_STATUS_PHASOR_VALID 0 (by decide)
  unfold State.endPhasor
  extract_lets t
  split
  exacts [(t.f_endAcq rfl rfl).trans h, h]

/-- The loss of the phasor reference: the lock on it gives way to HOLDOVER. -/
theorem State.phasorDown_of_locked (h : s.gst = gPhasor) : s.phasorDown = s.endPhasor.toHoldover := by
  have hg : s.endPhasor.gst = gPhasor := (s.f_endPhasor rfl rfl rfl).trans h
  exact if_pos hg

theorem State.phasorDown_of_not_locked (h : s.gst ≠ gPhasor) : s.phasorDown = s.endPhasor := by
  have hg : s.endPhasor.gst ≠ gPhasor := fun e => h ((s.f_endPhasor rfl rfl rfl).symm.trans e)
  exact if_neg hg

theorem State.phasorDown_holds (h : s.gst = gPhasor) : s.phasorDown.HoldsAt (s.rd R.GAC_FREQ) := by
  rw [s.phasorDown_of_locked h, ← s.rd_endPhasor (a := R.GAC_FREQ) (by decide)]
  exact s.endPhasor.toHoldover_holds

theorem State.gst_phasorDown (h : s.gst ≠ gPhasor) : s.phasorDown.gst = s.gst := by
  rw [s.phasorDown_of_not_locked h]
  exact s.f_endPhasor rfl rfl rfl

theorem State.phasorValid_phasorDown : s.phasorDown.phasorValid = false := by
  have hv : s.phasorDown.f F.GAC_STATUS_PHASOR_VALID = 0 := by
    by_cases h : s.gst = gPhasor
    · rw [s.phasorDown_of_locked h, State.f_toHoldover _ rfl rfl rfl (by decide), s.f_endPhasor_valid]
    · rw [s.phasorDown_of_not_locked h, s.f_endPhasor_valid]
  simp [State.phasorValid, State.fb, hv]

theorem State.rd_phasorDown {a} (ha : flagFree a = true) (hs : a ≠ R.GAC_STATUS) (hn : a ≠ R.GAC_FREQ_HOLD) :
    s.phasorDown.rd a = s.rd a := by
  by_cases h : s.gst = gPhasor
  · rw [s.phasorDown_of_locked h, State.rd_toHoldover _ ha hs hn, s.rd_endPhasor hs]
  · rw [s.phasorDown_of_not_locked h, s.rd_endPhasor hs]

end ClockLaws

end Sys2Proof.Machine

/-! # The references of the clock -/

namespace Sys2Proof.Machine

section References

variable (s : State)

/-! ### Mains inputs -/

/-- A candidate edge on input `n` is not accepted: the input is disabled, or R31 discards the edge. -/
def State.edgeRefused (n : Fin 3) (rise high : Nat) : Bool :=
  !bitAt (s.f F.GAC_CTL_MREF_EN) n || edgeDiscarded (s.f F.GAC_CTL_MINW) (s.mrefIn n).last rise high

theorem mrefEdge_refused {n : Fin 3} {rise high : Nat} (h : s.edgeRefused n rise high = true) :
    exec (.mrefEdge n rise high) s = .next s :=
  if_pos h

theorem mrefEdge_accepted {n : Fin 3} {rise high : Nat} (h : s.edgeRefused n rise high = false) :
    ∃ t, exec (.mrefEdge n rise high) s = .next t ∧
      t.gac.mref = s.gac.mref.set n ⟨some rise, (s.mrefIn n).last.map (rise - ·),
        goodAfter (s.mrefIn n).good ((s.mrefIn n).last.map (rise - ·)) (s.mrefIn n).period⟩ := by
  have he : exec (.mrefEdge n rise high) s = execMrefEdge n rise high s := rfl
  rw [he]
  unfold execMrefEdge
  extract_lets m period good was bit v s1 s2 a _ s3
  have h3 : s3.gac.mref = s.gac.mref.set n ⟨some rise, period, good⟩ := by
    subst s3
    split <;> rfl
  have hc : ¬ (!bitAt (s.f F.GAC_CTL_MREF_EN) n || edgeDiscarded (s.f F.GAC_CTL_MINW) m.last rise high) = true :=
    fun e => Bool.noConfusion (e.symm.trans h)
  rw [if_neg hc]
  split
  · exact ⟨_, rfl, (State.mref_mainsUp _).trans h3⟩
  · split
    · exact ⟨_, rfl, (State.mref_mainsDown _).trans h3⟩
    · exact ⟨_, rfl, h3⟩

/-- What the time-out of an input leaves of MREF_VALID. -/
theorem clearBit_mref (v : Nat) (n : Fin 3) : bitAt ((v &&& (7 - 2 ^ n.val)) % 2 ^ F.GAC_STATUS_MREF_VALID.w) n = false := by
  have h7 : (7 - 2 ^ n.val).testBit n.val = false := by
    match n with
    | 0 | 1 | 2 => rfl
  simp [bitAt, Nat.testBit_mod_two_pow, Nat.testBit_and, h7]

/-- The inputs that are left valid and enabled, where the one that times out was the only one. -/
theorem clearBit_mref_and {v e : Nat} {n : Fin 3} (h : v &&& e = 2 ^ n.val) :
    (v &&& (7 - 2 ^ n.val)) % 2 ^ F.GAC_STATUS_MREF_VALID.w &&& e = 0 := by
  apply Nat.eq_of_testBit_eq
  intro i
  have hi : (v.testBit i && e.testBit i) = decide (n.val = i) := by rw [← Nat.testBit_and, h, Nat.testBit_two_pow]
  by_cases hn : n.val = i
  · subst hn
    have hb := clearBit_mref v n
    rw [bitAt] at hb
    rw [Nat.testBit_and, hb, Bool.false_and, Nat.zero_testBit]
  · rw [decide_eq_false hn] at hi
    rw [Nat.testBit_and, Nat.testBit_mod_two_pow, Nat.testBit_and, Nat.zero_testBit]
    cases hv : v.testBit i <;> cases he : e.testBit i <;> simp_all

/-- The state after an input that timed out is shown invalid. -/
def State.mrefGone (n : Fin 3) : State :=
  (s.setMref n ⟨none, none, 0⟩).setF F.GAC_STATUS_MREF_VALID (s.f F.GAC_STATUS_MREF_VALID &&& (7 - 2 ^ n.val))

theorem State.f_mrefGone_valid {n : Fin 3} :
    (s.mrefGone n).f F.GAC_STATUS_MREF_VALID = (s.f F.GAC_STATUS_MREF_VALID &&& (7 - 2 ^ n.val)) % 2 ^ F.GAC_STATUS_MREF_VALID.w :=
  State.f_setF_self _ _ _ (by decide)

theorem State.f_mrefGone {n : Fin 3} {g : Fld} (hg : F.GAC_STATUS_MREF_VALID.apart g = true) : (s.mrefGone n).f g = s.f g :=
  (State.f_setF_ne _ _ (by decide) hg).trans (State.f_congr rfl)

theorem State.rd_mrefGone {n : Fin 3} {a} (ha : a ≠ R.GAC_STATUS) : (s.mrefGone n).rd a = s.rd a :=
  (State.rd_setF_ne _ _ ha).trans (State.rd_congr rfl)

theorem mrefTimeout_valid {n : Fin 3} (h : bitAt (s.f F.GAC_STATUS_MREF_VALID) n = true) :
    exec (.mrefTimeout n) s =
      .next (if (s.mainsValid && !(s.mrefGone n).mainsValid) = true then (s.mrefGone n).mainsDown else s.mrefGone n) := by
  have he : exec (.mrefTimeout n) s = execMrefTimeout n s := rfl
  have hc : ¬ (!bitAt (s.f F.GAC_STATUS_MREF_VALID) n) = true := by simp [h]
  rw [he, apply_ite Host.Outcome.next]
  exact if_neg hc

theorem mrefTimeout_spec {n : Fin 3} (h : bitAt (s.f F.GAC_STATUS_MREF_VALID) n = true) :
    ∃ t, exec (.mrefTimeout n) s = .next t ∧ bitAt (t.f F.GAC_STATUS_MREF_VALID) n = false ∧
      (s.gst = gMains → s.f F.GAC_STATUS_MREF_VALID &&& s.f F.GAC_CTL_MREF_EN = 2 ^ n.val → t.HoldsAt (s.rd R.GAC_FREQ)) := by
  refine ⟨_, mrefTimeout_valid s h, ?_, fun hm hv => ?_⟩
  · have hg : bitAt ((s.mrefGone n).f F.GAC_STATUS_MREF_VALID) n = false := by
      rw [s.f_mrefGone_valid]
      exact clearBit_mref _ n
    split
    · rw [State.f_mainsDown_valid, hg]
    · exact hg
  · have hs : s.mainsValid = true := by
      rw [State.mainsValid, hv]
      simp
    have hg : (s.mrefGone n).mainsValid = false := by
      rw [State.mainsValid, s.f_mrefGone_valid, s.f_mrefGone rfl, clearBit_mref_and hv]
      rfl
    have hst : (s.mrefGone n).gst = gMains := (s.f_mrefGone rfl).trans hm
    rw [if_pos (by rw [hs, hg]; rfl), ← s.rd_mrefGone (n := n) (by decide)]
    exact (s.mrefGone n).mainsDown_holds hst

/-! ### The phasor, and acquisition -/

theorem phasorTimeout_spec (hv : s.phasorValid = true) (hm : 5 ≤ s.gac.phasorMiss) :
    ∃ t, exec .phasorTimeout s = .next t ∧ t.phasorValid = false ∧ (s.gst = gPhasor → t.HoldsAt (s.rd R.GAC_FREQ)) := by
  have hc : (s.phasorValid && decide (5 ≤ s.gac.phasorMiss)) = true := by simp [hv, hm]
  exact ⟨_, if_pos hc, s.phasorValid_phasorDown, s.phasorDown_holds⟩

theorem acquisitionComplete_spec (ha : s.fb F.GAC_STATUS_ACQ = true) (hc : 16 ≤ s.gac.close) :
    ∃ t, exec .acquisitionComplete s = .next t ∧ t.fb F.GAC_STATUS_ACQ = false ∧ t.f F.GAC_STATUS_HOLD_LEFT = 0 ∧
      t.gst = (if s.gac.acqMains then gMains else gPhasor) := by
  have hb : (s.fb F.GAC_STATUS_ACQ && decide (16 ≤ s.gac.close)) = true := by simp [ha, hc]
  refine ⟨_, if_pos hb, ?_, ?_, ?_⟩
  · rw [State.fb, State.f_enterGac _ rfl rfl, State.f_setF_ne _ _ (by decide) rfl, State.f_setF_self _ _ _ (by decide)]
    rfl
  · rw [State.f_enterGac _ rfl rfl, State.f_setF_self _ _ _ (by decide)]
    rfl
  · refine State.gst_enterGac _ ?_
    split <;> decide

/-! ### The end of HOLDOVER -/

/-- What angle 0 records before the frequency rule: the step of the cycle number, the phase error and the latched crossing. -/
def State.zeroMarks (s : State) : State := s.stepCycle.recordErr.latchZero

/-- Registers outside those in which angle 0 records the phase error, the crossing and the step. -/
def markFree (a : Nat) : Bool := decide (a < R.GAC_PHERR) || decide (R.GAC_STEP < a)

theorem State.rd_stepCycle {a} (ha : markFree a = true) : s.stepCycle.rd a = s.rd a := by
  have hn : a ≠ R.GAC_STEP := by
    rintro rfl
    exact absurd ha (by decide)
  unfold State.stepCycle
  split
  · rfl
  · exact (State.rd_congr rfl).trans ((State.rd_wr_ne _ _ hn).trans (State.rd_congr rfl))

theorem State.berm_stepCycle : s.stepCycle.berm = s.berm := by
  unfold State.stepCycle
  split <;> rfl

/-- The phase error of the ended cycle is shown; the test of acquisition that follows changes no register. -/
theorem State.regs_recordErr : s.recordErr.regs = s.regs ∨ ∃ e n, s.recordErr.regs = ((s.wr R.GAC_PHERR e).setF F.GAC_PHERR_RMS_RMS n).regs := by
  unfold State.recordErr
  extract_lets followed _ t
  have ht : t.regs = s.regs ∨ ∃ e n, t.regs = ((s.wr R.GAC_PHERR e).setF F.GAC_PHERR_RMS_RMS n).regs := by
    subst t
    split
    · exact .inr ⟨_, _, rfl⟩
    · exact .inl rfl
  split <;> exact ht

theorem State.rd_recordErr {a} (ha : markFree a = true) : s.recordErr.rd a = s.rd a := by
  have h1 : a ≠ R.GAC_PHERR := by
    rintro rfl
    exact absurd ha (by decide)
  have h2 : a ≠ F.GAC_PHERR_RMS_RMS.addr := by
    rintro rfl
    exact absurd ha (by decide)
  rcases s.regs_recordErr with h | ⟨e, n, h⟩
  · exact State.rd_congr h
  · rw [State.rd_congr h, State.rd_setF_ne _ _ h2, State.rd_wr_ne _ _ h1]

theorem State.berm_recordErr : s.recordErr.berm = s.berm := by
  unfold State.recordErr
  extract_lets followed _ t
  have ht : t.berm = s.berm := by
    subst t
    split <;> rfl
  split <;> exact ht

theorem State.rd_latchZero {a} (ha : markFree a = true) : s.latchZero.rd a = s.rd a := by
  have h {b} (hb : markFree b = false) : a ≠ b := by
    rintro rfl
    exact Bool.noConfusion (hb.symm.trans ha)
  unfold State.latchZero
  extract_lets c back z ns t1 t2 t3
  calc ((t3.addF F.GAC_ZERO_SEQ_SEQ 1).setB F.GAC_ZERO_SEQ_TAI_OK t3.ptpLocked).rd a
    _ = t3.rd a := (State.rd_setF_ne _ _ (h rfl)).trans (State.rd_setF_ne _ _ (h rfl))
    _ = t2.rd a := (State.rd_setF_ne _ _ (h rfl)).trans (State.rd_setF_ne _ _ (h rfl))
    _ = t1.rd a := (State.rd_setF_ne _ _ (h rfl)).trans (State.rd_wr_ne _ _ (h rfl))
    _ = s.rd a := (State.rd_setF_ne _ _ (h rfl)).trans (State.rd_wr_ne _ _ (h rfl))

theorem State.rd_zeroMarks {a} (ha : markFree a = true) : s.zeroMarks.rd a = s.rd a := by
  rw [State.zeroMarks, State.rd_latchZero _ ha, State.rd_recordErr _ ha, State.rd_stepCycle _ ha]

theorem State.f_zeroMarks {g : Fld} (hg : markFree g.addr = true) : s.zeroMarks.f g = s.f g := by
  rw [State.f, State.f, s.rd_zeroMarks hg]

theorem State.berm_latchZero : s.latchZero.berm = s.berm := by simp [State.latchZero]

theorem State.berm_zeroMarks : s.zeroMarks.berm = s.berm := by
  rw [State.zeroMarks, State.berm_latchZero, State.berm_recordErr, State.berm_stepCycle]

theorem State.regs_applyFreq {f} : (s.applyFreq f).regs = (s.wr R.GAC_FREQ (BitVec.ofNat 32 f)).regs := by dsimp only [State.applyFreq]

theorem State.berm_applyFreq {f} : (s.applyFreq f).berm = s.berm := by simp [State.applyFreq]

theorem State.f_applyFreq {f} {g : Fld} (hg : g.addr ≠ R.GAC_FREQ) : (s.applyFreq f).f g = s.f g := by
  rw [State.f_congr s.regs_applyFreq, s.f_wr_ne _ hg]

theorem State.rd_applyFreq_freq {f} : (s.applyFreq f).rd R.GAC_FREQ = BitVec.ofNat 32 f := by
  rw [State.rd_congr s.regs_applyFreq, s.rd_wr_self]

/-- The frequency rule draws an open value first. -/
theorem State.f_open {g} : s.open_.2.f g = s.f g := State.f_congr rfl

/-- The frequency rule in NOMINAL and FREE, where the twin peer gives no reference: the frequency that acquisition pulls, or one
step of the slew. -/
theorem State.nextFreq_free (hp : s.fb F.TWN_STATUS_PEER_REF = false) (hu : s.gst = gNominal ∨ s.gst = gFree) :
    (s.fb F.GAC_STATUS_ACQ = true → ∃ f, s.nextFreq = s.open_.2.applyFreq f) ∧
      (s.fb F.GAC_STATUS_ACQ = false → s.nextFreq = s.open_.2.applySlew) := by
  have hg : s.open_.2.gst = s.gst := s.f_open
  have hl : s.open_.2.unlocked = true := by rcases hu with h | h <;> simp [State.unlocked, hg, h]
  have hr : ¬ s.open_.2.fb F.TWN_STATUS_PEER_REF = true := by rw [State.fb, s.f_open]; exact Bool.eq_false_iff.1 hp
  have hm : ¬ (s.open_.2.gst = gMains || s.open_.2.gst = gPhasor : Bool) = true := by rcases hu with h | h <;> rw [hg, h] <;> decide
  have hh : ¬ s.open_.2.gst = gHoldover := by rcases hu with h | h <;> rw [hg, h] <;> decide
  refine ⟨fun ha => ?_, fun ha => ?_⟩
  · have hc : (s.fb F.GAC_STATUS_ACQ && s.open_.2.unlocked) = true := by rw [ha, hl]; rfl
    exact ⟨_, (if_neg hr).trans (if_pos hc)⟩
  · have hc : ¬ (s.fb F.GAC_STATUS_ACQ && s.open_.2.unlocked) = true := by simp [ha]
    exact (if_neg hr).trans ((if_neg hc).trans ((if_neg hm).trans (if_neg hh)))

theorem State.nextFreq_free_spec (hp : s.fb F.TWN_STATUS_PEER_REF = false) (hu : s.gst = gNominal ∨ s.gst = gFree) :
    s.nextFreq.gst = s.gst ∧ s.nextFreq.berm = s.berm ∧
      (s.fb F.GAC_STATUS_ACQ = false → s.nextFreq.rd R.GAC_FREQ = BitVec.ofNat 32 (slewStep (s.f F.GAC_FREQ_FREQ) s.nominal)) := by
  obtain ⟨h1, h2⟩ := s.nextFreq_free hp hu
  cases ha : s.fb F.GAC_STATUS_ACQ with
  | true =>
    obtain ⟨f, hf⟩ := h1 ha
    rw [hf]
    exact ⟨(State.f_applyFreq _ (by decide)).trans s.f_open, State.berm_applyFreq _, fun h => Bool.noConfusion h⟩
  | false =>
    have hfreq : s.open_.2.f F.GAC_FREQ_FREQ = s.f F.GAC_FREQ_FREQ := s.f_open
    have hnom : s.open_.2.nominal = s.nominal := by rw [State.nominal, State.fb, s.f_open]; rfl
    rw [h2 ha, State.applySlew, hfreq, hnom]
    refine ⟨?_, ?_, fun _ => ?_⟩
    · exact (State.f_showSlew _ rfl).trans ((State.f_applyFreq _ (by decide)).trans s.f_open)
    · exact (State.berm_setB _ _ _).trans (State.berm_applyFreq _)
    · exact (State.rd_showSlew _ (by decide)).trans (State.rd_applyFreq_freq _)

/-- The angle 0 that ends HOLDOVER: the state entered. -/
theorem State.holdStep_ends (hh : s.gst = gHoldover) (hl : s.f F.GAC_STATUS_HOLD_LEFT = 0) :
    s.holdStep = s.enterGac (if s.ptpLocked then gNominal else gFree) true :=
  (if_pos hh).trans (if_pos hl)

theorem State.angleZero_backup (hb : s.gacAtZero.berm.backup = true) : s.angleZero = s.gacAtZero.postGathered := by
  unfold State.angleZero
  extract_lets t
  exact if_pos hb

theorem State.regs_gacAtZero : s.gacAtZero.regs = s.zeroMarks.holdStep.nextFreq.regs := by
  dsimp only [State.gacAtZero, State.zeroMarks]

theorem State.berm_gacAtZero : s.gacAtZero.berm = s.zeroMarks.holdStep.nextFreq.berm := by
  dsimp only [State.gacAtZero, State.zeroMarks]

theorem State.angleZero_ends_holdover (hh : s.gst = gHoldover) (hl : s.f F.GAC_STATUS_HOLD_LEFT = 0) (hb : s.berm.backup = true)
    (hp : s.fb F.TWN_STATUS_PEER_REF = false) :
    s.angleZero.gst = (if s.ptpLocked then gNominal else gFree) ∧
      (s.fb F.GAC_STATUS_ACQ = false → s.angleZero.rd R.GAC_FREQ = BitVec.ofNat 32 (slewStep (s.f F.GAC_FREQ_FREQ) s.nominal)) := by
  have hm {g : Fld} (hg : markFree g.addr = true) : s.zeroMarks.f g = s.f g := s.f_zeroMarks hg
  have hlock : s.zeroMarks.ptpLocked = s.ptpLocked := by rw [State.ptpLocked, State.fb, hm rfl]; rfl
  have hstep := s.zeroMarks.holdStep_ends ((hm rfl).trans hh) ((hm rfl).trans hl)
  rw [hlock] at hstep
  have hst : s.zeroMarks.holdStep.gst = (if s.ptpLocked then gNominal else gFree) := by
    rw [hstep]
    refine State.gst_enterGac _ ?_
    split <;> decide
  have hf {g : Fld} (h1 : markFree g.addr = true) (h2 : flagFree g.addr = true) (h3 : F.GAC_STATUS_STATE.apart g = true) :
      s.zeroMarks.holdStep.f g = s.f g := by rw [hstep, State.f_enterGac _ h2 h3, hm h1]
  have hu : s.zeroMarks.holdStep.gst = gNominal ∨ s.zeroMarks.holdStep.gst = gFree := by
    rw [hst]
    split
    exacts [.inl rfl, .inr rfl]
  have hp' : s.zeroMarks.holdStep.fb F.TWN_STATUS_PEER_REF = false := by rw [State.fb, hf rfl rfl rfl]; exact hp
  obtain ⟨hgst, hberm, hfreq⟩ := State.nextFreq_free_spec _ hp' hu
  have hb' : s.gacAtZero.berm.backup = true := by
    rw [s.berm_gacAtZero, hberm, hstep, State.berm_enterGac_zero, s.berm_zeroMarks]
    exact hb
  have hrd {a} (ha : a ≠ R.GAC_EVT) : s.angleZero.rd a = s.zeroMarks.holdStep.nextFreq.rd a := by
    rw [s.angleZero_backup hb', State.rd_postGathered _ hb' ha, State.rd_congr s.regs_gacAtZero]
  refine ⟨?_, fun ha => ?_⟩
  · rw [← hst, ← hgst, State.gst, State.f, hrd (by decide)]
    rfl
  · have ha' : s.zeroMarks.holdStep.fb F.GAC_STATUS_ACQ = false := by rw [State.fb, hf rfl rfl rfl]; exact ha
    have hnom : s.zeroMarks.holdStep.nominal = s.nominal := by rw [State.nominal, State.fb, hf rfl rfl rfl]; rfl
    rw [hrd (by decide), hfreq ha', hnom, hf rfl rfl rfl]

theorem holdoverExpire_early (h : s.gst ≠ gHoldover ∨ s.f F.GAC_STATUS_HOLD_LEFT ≠ 0) : exec .holdoverExpire s = .next s := by
  refine if_neg ?_
  rw [Bool.and_eq_true, decide_eq_true_eq, decide_eq_true_eq, not_and_or]
  exact h

theorem holdoverExpire_due (hh : s.gst = gHoldover) (hl : s.f F.GAC_STATUS_HOLD_LEFT = 0) :
    exec .holdoverExpire s = .next { s with gac := s.gac.toZero }.angleZero := by
  refine if_pos ?_
  rw [Bool.and_eq_true, decide_eq_true_eq, decide_eq_true_eq]
  exact ⟨hh, hl⟩

end References

/-- Settles O5: each clause is a lemma of its own; the loss of a reference is `State.mainsDown_holds` and `State.phasorDown_holds`,
the end of HOLDOVER on the backup cell `State.angleZero_ends_holdover`. -/
theorem gacReferences : Obligations.GacReferences := by
  intro s
  refine ⟨fun n rise high => ⟨fun h => mrefEdge_refused s ?_, fun he hd => mrefEdge_accepted s ?_⟩, fun n => mrefTimeout_spec s,
    phasorTimeout_spec s, acquisitionComplete_spec s, holdoverExpire_early s, fun hh hl => ⟨_, holdoverExpire_due s hh hl, rfl, fun hb hp =>
      State.angleZero_ends_holdover { s with gac := s.gac.toZero } hh hl hb hp⟩⟩
  · rcases h with h | h <;> simp [State.edgeRefused, h]
  · simp [State.edgeRefused, he, hd]

end Sys2Proof.Machine

/-! # PTP lock and the pulses -/

namespace Sys2Proof.Machine

section PtpLaws

variable (s : State)

/-! ### Lock -/

/-- LOCK is set in both registers that show it, and the class with it. -/
def State.showLock : State :=
  let t := (s.setF F.GAC_PTP_STATUS_LOCK 1).setF F.GAC_STATUS_PTP_LOCK 1
  t.setF F.GAC_PTP_STATUS_CLASS t.ptpClass

/-- Fields in which neither LOCK nor the class is shown. -/
def lockFree (g : Fld) : Bool :=
  F.GAC_PTP_STATUS_LOCK.apart g && F.GAC_STATUS_PTP_LOCK.apart g && F.GAC_PTP_STATUS_CLASS.apart g

theorem State.f_showLock {g : Fld} (hg : lockFree g = true) : s.showLock.f g = s.f g := by
  simp only [lockFree, Bool.and_eq_true] at hg
  obtain ⟨⟨h1, h2⟩, h3⟩ := hg
  unfold State.showLock
  extract_lets t
  exact (t.f_setF_ne _ (by decide) h3).trans ((State.f_setF_ne _ 1 (by decide) h2).trans (s.f_setF_ne 1 (by decide) h1))

/-- The class shown depends on no field of the lock. -/
theorem State.ptpClass_congr {t : State} (hg : t.gac = s.gac) (h : ∀ g, lockFree g = true → t.f g = s.f g) :
    t.ptpClass = s.ptpClass := by
  rw [State.ptpClass, State.ptpClass, State.ptpMaster, State.ptpMaster, State.fb, State.fb, State.fb, State.fb, hg, h _ rfl, h _ rfl]

theorem State.f_showLock_class : s.showLock.f F.GAC_PTP_STATUS_CLASS = s.ptpClass % 256 := by
  unfold State.showLock
  extract_lets t
  have ht : t.ptpClass = s.ptpClass := by
    refine s.ptpClass_congr ((State.gac_setF _ _ _).trans (s.gac_setF _ _)) fun g hg => ?_
    simp only [lockFree, Bool.and_eq_true] at hg
    obtain ⟨⟨h1, h2⟩, -⟩ := hg
    exact (State.f_setF_ne _ 1 (by decide) h2).trans (s.f_setF_ne 1 (by decide) h1)
  rw [t.f_setF_self _ _ (by decide), ht]
  rfl

theorem State.f_showLock_lock : s.showLock.f F.GAC_PTP_STATUS_LOCK = 1 := by
  unfold State.showLock
  extract_lets t
  rw [t.f_setF_ne _ (by decide) rfl]
  exact (State.f_setF_ne _ 1 (by decide) rfl).trans (s.f_setF_self _ 1 (by decide))

theorem exec_ptpLock (hl : s.ptpLocked = false) (h1 : -100 ≤ (s.rd R.GAC_PTP_OFS).toInt) (h2 : (s.rd R.GAC_PTP_OFS).toInt ≤ 100) :
    exec .ptpLock s = .next (s.showLock.doIf (s.showLock.gst = gFree) (·.enterGac gNominal)) := by
  refine if_neg ?_
  simp only [hl, Bool.false_or, Bool.or_eq_true, decide_eq_true_eq]
  omega

/-- Locked, FREE gives way to NOMINAL. -/
theorem State.f_freeToNominal {g : Fld} (hg : flagFree g.addr = true) (hn : F.GAC_STATUS_STATE.apart g = true) :
    (s.doIf (s.gst = gFree) (·.enterGac gNominal)).f g = s.f g := by
  unfold State.doIf
  split
  exacts [s.f_enterGac hg hn, rfl]

theorem State.gst_freeToNominal :
    (s.doIf (s.gst = gFree) (·.enterGac gNominal)).gst = (if s.gst = gFree then gNominal else s.gst) := by
  unfold State.doIf
  by_cases h : s.gst = gFree
  · rw [if_pos (decide_eq_true h), if_pos h]
    exact s.gst_enterGac (by decide)
  · rw [if_neg (by simpa using h), if_neg h]

theorem ptpLock_spec (hl : s.ptpLocked = false) (h1 : -100 ≤ (s.rd R.GAC_PTP_OFS).toInt) (h2 : (s.rd R.GAC_PTP_OFS).toInt ≤ 100) :
    ∃ t, exec .ptpLock s = .next t ∧ t.ptpLocked = true ∧ t.f F.GAC_PTP_STATUS_CLASS = s.ptpClass % 256 ∧
      t.gst = (if s.gst = gFree then gNominal else s.gst) := by
  have hg : s.showLock.gst = s.gst := s.f_showLock rfl
  refine ⟨_, exec_ptpLock s hl h1 h2, ?_, ?_, ?_⟩
  · rw [State.ptpLocked, State.fb, State.f_freeToNominal _ rfl rfl, s.f_showLock_lock]
    rfl
  · rw [State.f_freeToNominal _ rfl rfl, s.f_showLock_class]
  · rw [State.gst_freeToNominal, hg]

/-! ### The loss of the lock -/

/-- LOCK and TAI_OK are 0 and the class is 255. -/
def State.unlock : State :=
  (((s.setF F.GAC_PTP_STATUS_LOCK 0).setF F.GAC_PTP_STATUS_CLASS 255).setF F.GAC_STATUS_PTP_LOCK 0).setF F.GAC_ZERO_SEQ_TAI_OK 0

theorem State.f_unlock {g : Fld} (hg : lockFree g = true) (hn : F.GAC_ZERO_SEQ_TAI_OK.apart g = true) : s.unlock.f g = s.f g := by
  simp only [lockFree, Bool.and_eq_true] at hg
  obtain ⟨⟨h1, h2⟩, h3⟩ := hg
  rw [State.unlock, State.f_setF_ne _ _ (by decide) hn, State.f_setF_ne _ _ (by decide) h2, State.f_setF_ne _ _ (by decide) h3,
    State.f_setF_ne _ _ (by decide) h1]

theorem State.f_unlock_shown :
    s.unlock.f F.GAC_PTP_STATUS_LOCK = 0 ∧ s.unlock.f F.GAC_PTP_STATUS_CLASS = 255 ∧ s.unlock.f F.GAC_ZERO_SEQ_TAI_OK = 0 := by
  refine ⟨?_, ?_, State.f_setF_self _ _ _ (by decide)⟩ <;>
    rw [State.unlock, State.f_setF_ne _ _ (by decide) rfl, State.f_setF_ne _ _ (by decide) rfl]
  · rw [State.f_setF_ne _ _ (by decide) rfl]
    exact State.f_setF_self _ _ _ (by decide)
  · exact State.f_setF_self _ _ _ (by decide)

/-- The phasor reference, which needs PTP lock, is lost with it. -/
def State.unlockPhasor : State := s.unlock.doIf s.unlock.phasorValid State.phasorDown

theorem State.rd_unlockPhasor {a} (ha : flagFree a = true) (hs : a ≠ R.GAC_STATUS) (hn : a ≠ R.GAC_FREQ_HOLD) :
    s.unlockPhasor.rd a = s.unlock.rd a := by
  unfold State.unlockPhasor State.doIf
  split
  exacts [s.unlock.rd_phasorDown ha hs hn, rfl]

theorem State.gst_unlockPhasor (h : s.gst ≠ gPhasor) : s.unlockPhasor.gst = s.gst := by
  have hg : s.unlock.gst = s.gst := s.f_unlock rfl rfl
  unfold State.unlockPhasor State.doIf
  split
  · rw [s.unlock.gst_phasorDown (by rwa [hg]), hg]
  · exact hg

theorem State.ptpLost_of_locked (hl : s.ptpLocked = true) :
    s.ptpLost = (s.unlockPhasor.doIf (s.unlockPhasor.gst = gNominal) (·.enterGac gFree)).gacFlag 6 := by
  refine if_neg ?_
  rw [hl]
  decide

theorem State.rd_ptpLost {a} (hl : s.ptpLocked = true) (ha : flagFree a = true) (hs : a ≠ R.GAC_STATUS) (hn : a ≠ R.GAC_FREQ_HOLD) :
    s.ptpLost.rd a = s.unlock.rd a := by
  rw [s.ptpLost_of_locked hl, State.rd_gacFlag _ ha]
  unfold State.doIf
  split
  · rw [State.rd_enterGac _ ha hs, s.rd_unlockPhasor ha hs hn]
  · rw [s.rd_unlockPhasor ha hs hn]

theorem State.f_ptpLost {g : Fld} (hl : s.ptpLocked = true) (ha : flagFree g.addr = true) (hs : g.addr ≠ R.GAC_STATUS)
    (hn : g.addr ≠ R.GAC_FREQ_HOLD) : s.ptpLost.f g = s.unlock.f g := by
  rw [State.f, State.f, s.rd_ptpLost hl ha hs hn]

theorem State.gst_ptpLost (hl : s.ptpLocked = true) (hg : s.gst = gNominal) : s.ptpLost.gst = gFree := by
  have h : s.unlockPhasor.gst = gNominal := (s.gst_unlockPhasor (by rw [hg]; decide)).trans hg
  rw [s.ptpLost_of_locked hl, State.gst, State.f_gacFlag _ rfl, State.doIf, if_pos (decide_eq_true h)]
  exact State.gst_enterGac _ (by decide)

theorem syncTimeout_spec (hl : s.ptpLocked = true) :
    ∃ t, exec .syncTimeout s = .next t ∧ t.ptpLocked = false ∧ t.f F.GAC_PTP_STATUS_CLASS = 255 ∧
      t.fb F.GAC_ZERO_SEQ_TAI_OK = false ∧ bitAt (t.rd R.GAC_EVT).toNat 6 = true ∧ (s.gst = gNominal → t.gst = gFree) := by
  obtain ⟨h1, h2, h3⟩ := s.f_unlock_shown
  refine ⟨s.ptpLost, rfl, ?_, ?_, ?_, ?_, s.gst_ptpLost hl⟩
  · rw [State.ptpLocked, State.fb, s.f_ptpLost hl rfl (by decide) (by decide), h1]
    rfl
  · rw [s.f_ptpLost hl rfl (by decide) (by decide), h2]
  · rw [State.fb, s.f_ptpLost hl rfl (by decide) (by decide), h3]
    rfl
  · rw [s.ptpLost_of_locked hl]
    exact State.bitAt_raise _ (src := gacEvt) (by decide) rfl (by decide)

/-! ### Pulses -/

/-- A time base set now reads as it was set. -/
theorem Gac.taiAt_taiTick (g : Gac) : g.taiAt g.taiTick = g.taiBase := by simp [Gac.taiAt]

theorem ppsInEdge_spec {sec : Nat} (he : s.fb F.GAC_PPS_CTL_PPS_IN_EN = true) (hs : s.gac.taiSet = some sec) :
    ∃ t, exec .ppsInEdge s = .next t ∧ t.taiNs = sec * 10 ^ 9 ∧ t.gac.taiSet = none ∧ t.gac.master = true ∧ t.regs = s.regs := by
  have hx : exec .ppsInEdge s = execPpsInEdge s := rfl
  refine ⟨{ s with gac := { s.gac with taiTick := s.gac.now, taiBase := sec * 10 ^ 9 * 65536, taiSet := none, master := true } }, ?_, ?_,
    rfl, rfl, rfl⟩
  · rw [hx]
    simp [execPpsInEdge, he, hs, State.setTai]
  · exact (congrArg (· / 65536) (Gac.taiAt_taiTick _)).trans (Nat.mul_div_cancel _ (by decide))

end PtpLaws

/-- Settles O6: the lock and its loss are `ptpLock_spec` and `syncTimeout_spec`. -/
theorem ptpTime_holds : Obligations.PtpTime := fun s =>
  ⟨ptpLock_spec s, syncTimeout_spec s, fun _ => ppsInEdge_spec s, rfl⟩

end Sys2Proof.Machine

/-! # Replies and completions -/

namespace Sys2Proof.Machine

section ReplyLaws

variable {s u : State} {l : List Nat}

theorem State.Touches.putReply (h : s.Touches u l) {x r g} : s.Touches (u.putReply x r g) l :=
  .if_ h (.if_ (h.setCul rfl) (.if_ h.emit.signalArmed h.emit))

theorem State.Touches.complete (h : s.Touches u l) {x r late} : s.Touches (u.complete x r late) l := by
  have hi : s.Touches (u.irqAll 32) l := h.irqAll (by decide)
  exact .if_ h (.if_ (hi.postTo (State.f_lt _ _)) (hi.setF (.inl rfl)))

theorem State.Touches.finish (h : s.Touches u l) {x r late} : s.Touches (u.finish x r late) l := by
  unfold State.finish
  extract_lets t
  have ht : s.Touches t l := .if_ (h.post (show 13 < 16 by decide)) h
  exact .if_ ht.complete ht.putReply

theorem State.Touches.endWait (h : s.Touches u l) {x} : s.Touches (u.endWait x) l := h.setCul rfl

theorem State.Touches.katAnswer (h : s.Touches u l) {c pass} : s.Touches (u.katAnswer c pass) l :=
  State.forEach_inv (P := fun t => s.Touches t l) (fun _ _ ht => ht.endWait.finish) _ h

end ReplyLaws

end Sys2Proof.Machine

/-! # Calibration and PTP messages -/

namespace Sys2Proof.Machine

section CalibrationLaws

variable (s : State)

/-! ### Known-answer tests -/

theorem katDone_abandoned {c : Nat} {k : Option Nat} (h : s.cal.testing = some (c, k)) :
    exec (.katDone none) s = .next s.katAbandon := by
  have he : exec (.katDone none) s = execKatDone none s := rfl
  rw [he]
  simp [execKatDone, h]

/-- The core tested is recorded, and no test is under way. -/
def State.katRecord (c : Nat) : State :=
  { s with cal := { s.cal with testing := none, tested := s.cal.tested.set c s.gac.passed, stale := false } }

theorem State.f_katRecord {c : Nat} {g : Fld} : (s.katRecord c).f g = s.f g := State.f_congr (by dsimp only [State.katRecord])

/-- The end of a passed test is shown. -/
def State.katShown (c : Nat) : State := ((s.setF F.CAL_KAT_STS_BUSY 0).setF F.CAL_KAT_STS_RESULT 1).katRecord c

/-- What a passed test shows and records, before the commands that wait for it end. -/
def State.katPassed (c : Nat) : State :=
  ((s.katShown c).addF F.CAL_KAT_PASS_COUNT 1).setF F.CAL_KAT_STS_TESTED ((s.katShown c).f F.CAL_KAT_STS_TESTED ||| 2 ^ c)

theorem exec_katDone_passed {c : Nat} {k : Option Nat} (h : s.cal.testing = some (c, k)) :
    exec (.katDone (some true)) s = .next ((s.katPassed c).katAnswer c true) := by
  have he : exec (.katDone (some true)) s = execKatDone (some true) s := rfl
  rw [he]
  simp only [execKatDone, h, if_true, State.katPassed, State.katShown, State.katRecord]

theorem State.f_katShown {c : Nat} {g : Fld} :
    (s.katShown c).f g = ((s.setF F.CAL_KAT_STS_BUSY 0).setF F.CAL_KAT_STS_RESULT 1).f g :=
  State.f_katRecord _

theorem State.f_katPassed {c : Nat} {g : Fld} (h1 : F.CAL_KAT_PASS_COUNT.apart g = true) (h2 : F.CAL_KAT_STS_TESTED.apart g = true) :
    (s.katPassed c).f g = ((s.setF F.CAL_KAT_STS_BUSY 0).setF F.CAL_KAT_STS_RESULT 1).f g := by
  rw [State.katPassed, State.f_setF_ne _ _ (by decide) h2, State.addF, State.f_setF_ne _ _ (by decide) h1, State.f_katShown]

theorem State.f_katPassed_count {c : Nat} :
    (s.katPassed c).f F.CAL_KAT_PASS_COUNT = (s.f F.CAL_KAT_PASS_COUNT + 1) % 2 ^ F.CAL_KAT_PASS_COUNT.w := by
  rw [State.katPassed, State.f_setF_ne _ _ (by decide) rfl, State.addF, State.f_setF_self _ _ _ (by decide), State.f_katShown,
    State.f_setF_ne _ _ (by decide) rfl, State.f_setF_ne _ _ (by decide) rfl]

theorem State.cal_katPassed {c : Nat} : (s.katPassed c).cal.testing = none := by
  simp only [State.katPassed, State.cal_setF, State.cal_addF, State.katShown, State.katRecord]

theorem katDone_passed {c : Nat} {k : Option Nat} (h : s.cal.testing = some (c, k)) :
    ∃ t, exec (.katDone (some true)) s = .next t ∧ t.cal.testing = none ∧ t.f F.CAL_KAT_STS_BUSY = 0 ∧ t.f F.CAL_KAT_STS_RESULT = 1 ∧
      t.f F.CAL_KAT_PASS_COUNT = (s.f F.CAL_KAT_PASS_COUNT + 1) % 2 ^ F.CAL_KAT_PASS_COUNT.w ∧ t.coresIn = s.coresIn := by
  have ht : (s.katPassed c).Touches ((s.katPassed c).katAnswer c true) [] := State.Touches.refl.katAnswer
  refine ⟨_, exec_katDone_passed s h, ?_, ?_, ?_, ?_, ?_⟩
  · rw [ht.cal, s.cal_katPassed]
  · rw [ht.f rfl (by simp), s.f_katPassed rfl rfl, State.f_setF_ne _ _ (by decide) rfl, State.f_setF_self _ _ _ (by decide)]
    rfl
  · rw [ht.f rfl (by simp), s.f_katPassed rfl rfl, State.f_setF_self _ _ _ (by decide)]
    rfl
  · rw [ht.f rfl (by simp), s.f_katPassed_count]
  · rw [State.coresIn, ht.f rfl (by simp), s.f_katPassed rfl rfl, State.f_setF_ne _ _ (by decide) rfl, State.f_setF_ne _ _ (by decide) rfl]
    rfl

/-! ### Frames of the device itself -/

/-- A frame of the device joins the queue of class 6 of a lane that is UP. -/
theorem State.queueOwn_up {k : Nat} {b : List Byte} (h : s.laneUp k = true) :
    ∃ f c, (s.queueOwn k b).fp.frames = s.fp.frames ++ [f] ∧ f.copies = [c] ∧ c.port = k ∧ c.cls = 6 ∧ c.phase = .queued ∧
      c.bytes = fitB (max 60 b.length) b ∧ (s.queueOwn k b).out = s.out ∧ (s.queueOwn k b).regs = s.regs := by
  unfold State.queueOwn
  extract_lets c f
  rw [if_pos h]
  exact ⟨f, c, rfl, rfl, rfl, rfl, rfl, rfl, rfl, rfl⟩

theorem State.calLane_setCalLane_self {k : Nat} {c : CalLane} : (s.setCalLane k c).calLane k = c := Tbl.get_set_self _ _ _ _

theorem exec_pdelayInterval {k : Fin 32} (h : s.laneUp k = true) : exec (.pdelayInterval k) s = .next (s.pdelayElapsed k) := if_pos h

theorem pdelayInterval_due {k : Fin 32} (h : s.laneUp k = true) (hd : (s.calLane k).due = false) :
    exec (.pdelayInterval k) s = .next (s.setCalLane k { s.calLane k with due := true }) := by
  rw [exec_pdelayInterval s h, State.pdelayElapsed, State.doIf, hd]
  rfl

/-- The request of the last interval goes out in class 6 and is counted. -/
def State.pdelayLate (k : Nat) : State := (s.nextPtpSeq.queueOwn k (s.pdelayReq k)).addF (F.CAL_PDELAY_NOCLR_COUNT k) 1

theorem pdelayInterval_late {k : Fin 32} (h : s.laneUp k = true) (hd : (s.calLane k).due = true) :
    ∃ t, exec (.pdelayInterval k) s = .next t ∧ (t.calLane k).due = true ∧ t.out = s.out ∧
      (∃ (f : Frame) (c : FCopy), t.fp.frames = s.fp.frames ++ [f] ∧ f.copies = [c] ∧ c.port = k.val ∧ c.cls = 6 ∧ c.phase = .queued ∧
        c.bytes = fitB (max 60 (s.pdelayReq k).length) (s.pdelayReq k)) ∧
      t.f (F.CAL_PDELAY_NOCLR_COUNT k) = (s.f (F.CAL_PDELAY_NOCLR_COUNT k) + 1) % 2 ^ (F.CAL_PDELAY_NOCLR_COUNT k).w := by
  obtain ⟨f, c, hf, hc, hp, hcls, hph, hb, ho, hr⟩ := s.nextPtpSeq.queueOwn_up (k := k) (b := s.pdelayReq k) h
  have he : s.pdelayElapsed k = (s.pdelayLate k).setCalLane k { (s.pdelayLate k).calLane k with due := true } := by
    rw [State.pdelayElapsed, State.doIf, hd]
    rfl
  refine ⟨_, (exec_pdelayInterval s h).trans (congrArg _ he), ?_, ho, ⟨f, c, hf, hc, hp, hcls, hph, hb⟩, ?_⟩
  · rw [State.calLane_setCalLane_self]
  · have hq : (s.nextPtpSeq.queueOwn k (s.pdelayReq k)).f (F.CAL_PDELAY_NOCLR_COUNT k) = s.f (F.CAL_PDELAY_NOCLR_COUNT k) := State.f_congr hr
    rw [← hq]
    exact (State.f_congr rfl).trans (State.f_setF_self _ _ _ (show (F.CAL_PDELAY_NOCLR_COUNT k).lo + (F.CAL_PDELAY_NOCLR_COUNT k).w ≤ 32 from
      Nat.le_refl 32))

/-! ### Messages -/

section Kinds

variable {s : State} {k : Fin 32} {m : PtpMsg} (h : s.laneUp k = true) (hd : m.domain.toNat = (s.calReceive k).ptpDomain)
include h hd

theorem exec_ptpMessageRx_sync {o : Int} (hk : m.kind = 0) (ho : m.offset = some o) :
    exec (.ptpMessageRx k m) s = .next ((s.calReceive k).ptpOffset o) := by
  have he : exec (.ptpMessageRx k m) s = execPtpMessageRx k m s := rfl
  rw [he]
  simp [execPtpMessageRx, h, hd, hk, ho]

theorem exec_ptpMessageRx_request (hk : m.kind = 2) :
    exec (.ptpMessageRx k m) s = .next ((s.calReceive k).queueOwn k ((s.calReceive k).pdelayResp k m)) := by
  have he : exec (.ptpMessageRx k m) s = execPtpMessageRx k m s := rfl
  rw [he]
  simp [execPtpMessageRx, h, hd, hk]

theorem exec_ptpMessageRx_announce (hk : m.kind = 0xB) :
    exec (.ptpMessageRx k m) s = .next ((s.calReceive k).takeAnnounce m.clockClass.toNat) := by
  have he : exec (.ptpMessageRx k m) s = execPtpMessageRx k m s := rfl
  rw [he]
  simp [execPtpMessageRx, h, hd, hk]

end Kinds

theorem State.ptpOffset_near {o : Int} (h1 : -1000 ≤ o) (h2 : o ≤ 1000) :
    ∃ n, s.ptpOffset o = (s.open_.2.setTai s.open_.2.tai n).wr R.GAC_PTP_OFS (BitVec.ofInt 32 o) := by
  have hf : (decide (o < -1000) || decide (1000 < o)) = false := by simp; omega
  refine ⟨Config.servoRate s.open_.1, ?_⟩
  simp only [State.ptpOffset, hf, State.doIf, Bool.false_and, Bool.false_eq_true, if_false]

theorem ptpMessageRx_sync {k : Fin 32} {m : PtpMsg} {o : Int} (h : s.laneUp k = true)
    (hd : m.domain.toNat = (s.calReceive k).ptpDomain) (hk : m.kind = 0) (ho : m.offset = some o) (h1 : -1000 ≤ o) (h2 : o ≤ 1000) :
    ∃ t, exec (.ptpMessageRx k m) s = .next t ∧ t.rd R.GAC_PTP_OFS = BitVec.ofInt 32 o ∧ t.gst = (s.calReceive k).gst ∧
      t.ptpLocked = (s.calReceive k).ptpLocked := by
  obtain ⟨n, hn⟩ := (s.calReceive k).ptpOffset_near h1 h2
  refine ⟨_, (exec_ptpMessageRx_sync h hd hk ho).trans (congrArg _ hn), State.rd_wr_self _ _ _, ?_, ?_⟩
  · exact (State.f_wr_ne _ _ (by decide)).trans (State.f_congr rfl)
  · rw [State.ptpLocked, State.fb, State.f_wr_ne _ _ (by decide)]
    rfl

theorem State.mem_calMeasure {k : Nat} {tx : Bool} {x : Int} : (s.calMeasure k tx x).mem = s.mem := by
  unfold State.calMeasure
  extract_lets c a put
  split
  · simp [State.showCalibrated, State.setCalLane]
  · simp [State.setCalLane]
  · rw [← s.mem_addF (F.CAL_TS_STS_OUTLIERS k) 1]
    exact (State.Touches.refl.raise (l := [R.CAL_EVT]) (src := calEvt) (by decide) (by simp [calEvt])).mem

theorem State.mem_calReceive {k : Nat} : (s.calReceive k).mem = s.mem := by
  unfold State.calReceive
  split
  · exact State.mem_calMeasure _
  · rfl

theorem ptpMessageRx_announce {k : Fin 32} {m : PtpMsg} (h : s.laneUp k = true) (hd : m.domain.toNat = (s.calReceive k).ptpDomain)
    (hk : m.kind = 0xB) (hm : (s.calReceive k).ptpMaster = false) :
    ∃ t, exec (.ptpMessageRx k m) s = .next t ∧ t.gac.gmClass = m.clockClass.toNat ∧ t.mem = s.mem := by
  refine ⟨(s.calReceive k).takeAnnounce m.clockClass.toNat, exec_ptpMessageRx_announce h hd hk, ?_, ?_⟩ <;>
    simp only [State.takeAnnounce, hm, State.doIf, Bool.false_eq_true, if_false] <;> split
  · rfl
  · rfl
  · exact s.mem_calReceive
  · exact s.mem_calReceive

theorem exec_ptpTxInterval {k : Fin 32} {two : Bool} (h : s.laneUp k = true) :
    exec (.ptpTxInterval k .sync two) s = .next (s.nextPtpSeq.queueOwn k (s.ptpOwn 0 two k s.gac.ptpSeq 0 (toBe 10 0)))
      ∧ exec (.ptpTxInterval k .announce two) s = .next (s.nextPtpSeq.queueOwn k (s.announce k))
      ∧ exec (.ptpTxInterval k .pdelayReq two) s = exec (.pdelayInterval k) s := by
  have hc : ¬ (!s.laneUp k) = true := by rw [h]; decide
  exact ⟨if_neg hc, if_neg hc, (if_neg hc).trans (exec_pdelayInterval s h).symm⟩

end CalibrationLaws

/-- Settles O10: each clause is a lemma of its own; the commands that end with a test touch nothing that the test shows
(`State.Touches.katAnswer`). -/
theorem calibrationPtp : Obligations.CalibrationPtp := fun s =>
  ⟨fun _ _ => katDone_abandoned s, fun _ _ => katDone_passed s, fun _ h => if_pos h, fun _ => pdelayInterval_due s,
    fun _ => pdelayInterval_late s, fun _ _ _ => ptpMessageRx_sync s,
    fun _ _ => exec_ptpMessageRx_request, fun _ _ => ptpMessageRx_announce s,
    fun _ _ => exec_ptpTxInterval s⟩

end Sys2Proof.Machine

/-! # The release of an extender where the table lists a context twice (O25) -/

namespace Sys2Proof.Machine

/-- A device whose host holds session 0 on ring 0, with one slot to take. The extender of lane 0 is lost. The table of contexts
lists context 32 twice, ASSIGNED and then HELD: a read answers the first entry, and the release walks them both. -/
def twiceListed : State :=
  let s := (((State.reset.setF (F.CUL_CRING_CTL_EN 0) 1).setF (F.CUL_CRING_STS_STATE 0) 1).setF (F.CUL_CRING_IDX_TAIL 0) 1).setF F.CUL_WIN_CTL_EN 1
  let s := s.setXt 0 { s.xt 0 with st := xLost }
  { s with
    cul := { s.cul with bme := true, sessions := [(0, some ⟨0, 0x767, 1, 0, 0⟩)], gens := [(0, 1)] }
    ctxs := [(32, { Ctx.free with st := ctxAssigned, lane := 0 }), (32, { Ctx.free with st := ctxHeld, lane := 0 })] }

/-- The slot with CMD_PORT_EXT_RELEASE for extender 0. -/
def releaseSlot : Slot := ⟨0, 1, 1, 0, 1, 7, BitVec.ofNat 32 (2 ^ 22 + 0x767), 0, [0], [], none⟩

/-- The invariant that every step keeps does not exclude the state. -/
theorem twiceListed_sound : twiceListed.Sound := ⟨rfl, rfl⟩

theorem starts_releaseSlot : specPortExtRelease.starts releaseSlot twiceListed = true := by decide +kernel

theorem ctx_twiceListed : (twiceListed.ctx 32).st = ctxAssigned := rfl

/-- The entry that a read does not answer is held for the lane, so its context is quarantined. -/
theorem exec_release_twiceListed :
    ∃ t, exec (.cmdPortExtRelease releaseSlot) twiceListed = .next t ∧ (t.ctx 32).st = ctxQuarantined :=
  ⟨_, rfl, by decide +kernel⟩

/-- Refutes O25: the release of a lost extender may quarantine a context that was not HELD. In `twiceListed` context 32 is
ASSIGNED before CMD_PORT_EXT_RELEASE and QUARANTINED after it. -/
theorem not_statusCommands : ¬ Obligations.StatusCommands := by
  intro h
  obtain ⟨-, -, -, -, -, -, -, -, -, hrelease, -⟩ := h releaseSlot twiceListed
  obtain ⟨t, ht, -, -, -, hctx⟩ := hrelease starts_releaseSlot
  obtain ⟨t', ht', hquar⟩ := exec_release_twiceListed
  obtain rfl : t' = t := Host.Outcome.next.inj (ht'.symm.trans ht)
  have hcase := hctx 32
  rw [hquar, ctx_twiceListed] at hcase
  exact absurd hcase (by decide)

end Sys2Proof.Machine

/-! # What the frame path leaves alone: the twin, and what has left the device -/

namespace Sys2Proof.Machine

/-- From `s` to `t` the twin is left alone, and nothing that has left the device is forgotten. -/
def State.Steady (s t : State) : Prop := t.twin = s.twin ∧ s.out ⊆ t.out

section SteadyLaws

variable {s t u : State}

theorem State.Steady.refl : s.Steady s := ⟨rfl, List.Subset.refl _⟩

theorem State.Steady.trans (h : s.Steady t) (g : t.Steady u) : s.Steady u := ⟨g.1.trans h.1, List.Subset.trans h.2 g.2⟩

/-- A record update that changes neither the twin nor what has left the device. -/
theorem State.Steady.mk (h : s.Steady u) {regs regBad latch ctrs free gac cul keys ciq pke rng nv berm pwr dma pairs ecc grv fp slu
    lanes ctxs ext cal cfg boot apps fld crd mem tags cxl pending} :
    s.Steady ⟨regs, regBad, latch, ctrs, free, gac, cul, keys, ciq, pke, rng, nv, berm, pwr, dma, pairs, ecc, grv, fp, slu, lanes,
      ctxs, ext, cal, cfg, boot, u.twin, apps, fld, crd, mem, tags, cxl, u.out, pending⟩ := h

theorem State.Touches.steady {l : List Nat} (h : s.Touches t l) : s.Steady t := ⟨h.twin, h.out⟩

theorem State.Steady.if_ {a b : State} {p : Prop} {_ : Decidable p} (ha : s.Steady a) (hb : s.Steady b) :
    s.Steady (if p then a else b) := by
  split <;> assumption

theorem State.Steady.ifFst {β : Type} {a b : State} {x y : β} {p : Prop} {_ : Decidable p} (ha : s.Steady a) (hb : s.Steady b) :
    s.Steady (if p then (a, x) else (b, y)).1 := by
  split <;> assumption

theorem State.Steady.of_fst {β : Type} {p : State × β} {b} (e : p = (t, b)) (h : s.Steady p.1) : s.Steady t := by
  subst e; exact h

theorem State.Steady.of_snd {β : Type} {p : β × State} {b} (e : p = (b, t)) (h : s.Steady p.2) : s.Steady t := by
  subst e; exact h

theorem State.Steady.doIf (h : s.Steady u) {c g} (hg : ∀ t, s.Steady t → s.Steady (g t)) : s.Steady (u.doIf c g) := by
  cases c
  exacts [h, hg u h]

/-- A fold each of whose steps is steady. -/
theorem State.Steady.fold {α β : Type} (p : β → State) {l : List α} {g : β → α → β} {b : β} (h : s.Steady (p b))
    (hg : ∀ b a, s.Steady (p b) → s.Steady (p (g b a))) : s.Steady (p (l.foldl g b)) := by
  induction l generalizing b with
  | nil => exact h
  | cons a l ih => exact ih (hg b a h)

theorem State.Steady.forEach {α : Type} {l : List α} {g} (h : s.Steady u) (hg : ∀ t a, s.Steady t → s.Steady (g t a)) :
    s.Steady (u.forEach l g) :=
  .fold id h hg

theorem State.Steady.foldlFst {α β : Type} {l : List α} {g : State × β → α → State × β} {b : State × β} (h : s.Steady b.1)
    (hg : ∀ b a, s.Steady b.1 → s.Steady (g b a).1) : s.Steady (l.foldl g b).1 :=
  .fold Prod.fst h hg

/-! ### Registers, counters, events and alarms -/

theorem State.Steady.wr (h : s.Steady u) {a v} : s.Steady (u.wr a v) := h.mk

theorem State.Steady.setF (h : s.Steady u) {f x} : s.Steady (u.setF f x) := h.wr

theorem State.Steady.addF (h : s.Steady u) {f n} : s.Steady (u.addF f n) := h.setF

theorem State.Steady.bump (h : s.Steady u) {a n} : s.Steady (u.bump a n) := h.mk

theorem State.Steady.emit (h : s.Steady u) {o} : s.Steady (u.emit o) := ⟨h.1, List.Subset.trans h.2 (List.subset_cons_self _ _)⟩

theorem State.Steady.post (h : s.Steady u) {ev : Event} (hc : ev.cls < 16) : s.Steady (u.post ev) :=
  h.trans (State.Touches.refl (l := []).post hc).steady

theorem State.Steady.raise (h : s.Steady u) {src bit data} (hc : src.cls < 16) : s.Steady (u.raise src bit data) :=
  h.trans (State.Touches.refl (l := [src.evt]).raise hc (by simp)).steady

theorem State.Steady.postCode (h : s.Steady u) {cls code bit data} (hc : cls < 16) : s.Steady (u.postCode cls code bit data) := h.post hc

theorem State.Steady.tmpFlag (h : s.Steady u) {bit src} : s.Steady (u.tmpFlag bit src) := h.wr.if_ (h.raise (by decide))

theorem State.Steady.tmpLogAt (h : s.Steady u) {src lvl data g} : s.Steady (u.tmpLogAt src lvl data g) :=
  h.mk.setF.setF.setF.doIf fun _ h => h.tmpFlag

theorem State.Steady.raiseLevel (h : s.Steady u) {lvl src} : s.Steady (u.raiseLevel lvl src) := h.setF.tmpFlag.if_ h

theorem State.Steady.notify (h : s.Steady u) {src} : s.Steady (u.notify src) :=
  (h.raiseLevel.tmpLogAt.post (by decide : 7 < 16)).if_ h.raiseLevel.tmpLogAt

/-! ### Errors of memory -/

theorem State.Steady.blaze (h : s.Steady u) {region addr kind} : s.Steady (u.blaze region addr kind) :=
  h.mk.if_ (((h.addF.mk.raise (by decide)).if_ h.addF.mk).if_ h.mk)

theorem State.Steady.eccCorr (h : s.Steady u) {region addr symbols} : s.Steady (u.eccCorr region addr symbols) := h.addF.blaze

theorem State.eccRead_none (s : State) (region : Nat) : (s.eccRead region none).1 = s := rfl

theorem State.eccReads_none (s : State) (region : Nat) (cws : List Nat) : (s.eccReads region cws none).1 = s := rfl

/-! ### Frames, and the counters of their ports and streams -/

theorem State.Steady.pc (h : s.Steady u) {p off} : s.Steady (u.pc p off) := h.bump.if_ h

theorem State.Steady.countStream (h : s.Steady u) {e off n} : s.Steady (u.countStream e off n) := by
  unfold State.countStream
  split
  exacts [h.if_ h.bump, h]

theorem State.Steady.setFrame (h : s.Steady u) {f} : s.Steady (u.setFrame f) := h.mk

theorem State.Steady.freeFrame (h : s.Steady u) {ident} : s.Steady (u.freeFrame ident) := h.mk

theorem State.Steady.countDiscard (h : s.Steady u) {f} : s.Steady (u.countDiscard f) := by
  unfold State.countDiscard
  split
  exacts [h.if_ h.setFrame.countStream, h]

theorem State.Steady.dropFrame (h : s.Steady u) {f} : s.Steady (u.dropFrame f) := h.countDiscard.freeFrame

theorem State.Steady.dropAt (h : s.Steady u) {f off} : s.Steady (u.dropAt f off) := h.dropFrame.pc

theorem State.Steady.pushOut (h : s.Steady u) {k p adm n} : s.Steady (pushOut k p adm n u).2 := by
  induction k generalizing u with
  | zero => exact h
  | succ k ih =>
    unfold Machine.pushOut
    split
    · exact h
    · split
      exacts [h, ih h.dropAt]

theorem State.Steady.dikeBasinDrop (h : s.Steady u) {f} : s.Steady (u.dikeBasinDrop f) := h.dropAt.postCode (by decide)

/-! ### Ways and lines -/

theorem State.Steady.setWay (h : s.Steady u) {i w} : s.Steady (u.setWay i w) := h.mk

theorem State.Steady.writeWay (h : s.Steady u) {i w} : s.Steady (u.writeWay i w) := h.setWay.mk.mk

theorem State.Steady.mapWays (h : s.Steady u) {g} : s.Steady (u.mapWays g) := h.mk

theorem State.Steady.setLine (h : s.Steady u) {r e l} : s.Steady (u.setLine r e l) := h.mk

theorem State.Steady.writeLineAs (h : s.Steady u) {r e x bad} : s.Steady (u.writeLineAs r e x bad) := h.setLine

theorem State.Steady.grvFlag (h : s.Steady u) {bit link entry} : s.Steady (u.grvFlag bit link entry) := h.raise (by decide)

theorem State.Steady.lineBad (h : s.Steady u) {r e} : s.Steady (u.lineBad r e) := h.if_ h.setLine.setF.setF.grvFlag

theorem State.Steady.lineUncorr (h : s.Steady u) {r e} : s.Steady (u.lineUncorr r e) :=
  h.if_ (h.addF.wr.wr.raise (by decide)).lineBad

theorem State.Steady.lineRead (h : s.Steady u) {r e err} : s.Steady (u.lineRead r e err).1 := by
  have hfix {l : GrvLine} {n : Nat} : s.Steady ((u.setLine r e l).doIf (decide (0 < n)) (·.eccCorr (10 + r) (lineOfs r e) n)) :=
    h.setLine.doIf fun _ h => h.eccCorr
  dsimp only [State.lineRead]
  refine .ifFst h (.ifFst h.lineUncorr (.ifFst h ?_))
  split
  · exact h.setLine.lineUncorr
  · exact .ifFst hfix.addF.grvFlag.notify.lineBad hfix

theorem State.Steady.seeLines (h : s.Steady u) {key} : s.Steady (u.seeLines key) := h.forEach fun _ _ h => h.lineRead

theorem State.Steady.writeBack (h : s.Steady u) {i w} : s.Steady (u.writeBack i w) := by
  have hw : s.Steady (match w.line with
      | some e => (u.writeLineAs u.region e w.entry (u.wayBad i)).bump R.GRV_WB_LO 1
      | none => u) := by
    split
    exacts [h.writeLineAs.bump, h]
  dsimp only [State.writeBack]
  refine .if_ h ?_
  split
  exacts [hw.writeLineAs, hw]

theorem State.Steady.sweepLook {acc : State × _} (h : s.Steady acc.1) {q} : s.Steady (Machine.sweepLook acc q).1 := by
  dsimp only [Machine.sweepLook]
  split
  · exact h
  · split
    exacts [.ifFst (.ifFst h.setWay h.mk) h, h]

theorem State.Steady.fillPlace (h : s.Steady u) {key} : s.Steady (u.fillPlace key).1 := by
  dsimp only [State.fillPlace]
  split
  · exact h
  · split
    · split
      exacts [(h.foldlFst fun _ _ h => h.sweepLook).writeBack.setWay, h.foldlFst fun _ _ h => h.sweepLook]
    · exact h.foldlFst fun _ _ h => h.sweepLook

theorem State.Steady.keepWay (h : s.Steady u) {w} : s.Steady (u.keepWay w).1 := by
  unfold State.keepWay
  split
  next e => exact (State.Steady.of_fst e h.fillPlace).writeWay
  next e => exact .of_fst e h.fillPlace

theorem State.Steady.keepFill (h : s.Steady u) {w} : s.Steady (u.keepFill w) := h.keepWay.doIf fun _ h => h.addF

theorem State.Steady.updEntry (h : s.Steady u) {key g} : s.Steady (u.updEntry key g) := by
  refine h.mapWays.if_ (.if_ ?_ h)
  split
  exacts [h.seeLines.keepFill, h]

/-! ### Copies in their queues -/

theorem State.Steady.gcmJob (h : s.Steady u) {dike n} : s.Steady (u.gcmJob dike n).2 := by
  dsimp only [State.gcmJob]
  split
  exacts [h, h.mk]

theorem State.Steady.demoteEvt (h : s.Steady u) {p} : s.Steady (u.demoteEvt p) := h.if_ (h.mk.raise (by decide))

theorem State.Steady.setCopy (h : s.Steady u) {ident c} : s.Steady (u.setCopy ident c) := by
  unfold State.setCopy
  split
  exacts [h.setFrame, h]

theorem State.Steady.countWaits (h : s.Steady u) {k} : s.Steady (u.countWaits k) :=
  h.forEach fun _ _ h => h.setCopy.doIf fun _ h => h.pc

theorem State.Steady.countHeldDrops (h : s.Steady u) {f ps} : s.Steady (u.countHeldDrops f ps) := h.forEach fun _ _ h => h.pc

theorem State.Steady.enqueue (h : s.Steady u) {ident p} : s.Steady (u.enqueue ident p) := by
  dsimp only [State.enqueue]
  split
  · exact h
  · exact h.pc.if_ ((h.pc.demoteEvt.if_ h).mk.setFrame.doIf fun _ h => h.countWaits)

theorem State.Steady.handTo (h : s.Steady u) {f ps} : s.Steady (u.handTo f ps) := h.countHeldDrops.forEach fun _ _ h => h.enqueue

/-! ### The decision on a frame, and its lookup -/

theorem State.Steady.dupCheck (h : s.Steady u) {f e} (ht : u.dupCheck f e = some t) : s.Steady t := by
  unfold State.dupCheck at ht
  extract_lets red cur forget at ht
  split at ht
  next => exact Option.some.inj ht ▸ h
  next sq _ =>
    split at ht
    next => exact Option.some.inj ht ▸ h
    next =>
      split at ht
      next ok old e' _ =>
      extract_lets v w at ht
      have hw : s.Steady w := h.updEntry.pc.if_ h.updEntry
      split at ht
      next => exact Option.some.inj ht ▸ hw
      next => cases ht

theorem State.Steady.discardDup (h : s.Steady u) {f e} : s.Steady (u.discardDup f e) := h.updEntry.freeFrame.pc.countStream

theorem State.Steady.dikeCells (h : s.Steady u) {f} : s.Steady (u.dikeCells f).2 := by
  unfold State.dikeCells
  split
  next e => exact (State.Steady.of_snd e h.pushOut).setFrame
  next e => exact .of_snd e h.pushOut

theorem State.Steady.ingressJob (h : s.Steady u) {f} : s.Steady (u.ingressJob f).1 := .ifFst h h.gcmJob

theorem State.Steady.takeIn (h : s.Steady u) {f ports} : s.Steady (u.takeIn f ports) := by
  have hj {f : Frame} : s.Steady { (u.ingressJob f).1 with
      fp := { (u.ingressJob f).1.fp with nextOrd := (u.ingressJob f).1.fp.nextOrd + 1 } } := h.ingressJob.mk
  dsimp only [State.takeIn]
  refine .if_ ?_ (.if_ hj.dropAt (.if_ hj.setFrame.dropAt ?_))
  · split
    next e => exact (State.Steady.of_snd e hj.dikeCells).dikeBasinDrop
    next e => exact (State.Steady.of_snd e hj.dikeCells).setFrame.handTo
  · split
    exacts [hj.setFrame.dropAt, hj.setFrame.setFrame.pc.if_ hj.setFrame.setFrame]

theorem State.Steady.decide_ (h : s.Steady u) {f e} : s.Steady (u.decide_ f e) := by
  unfold State.decide_
  extract_lets cls f' t gate after
  have ht : s.Steady t := h.setFrame
  have ha : ∀ v, after = some v → s.Steady v := by
    subst after
    split
    exacts [fun v hv => ht.dupCheck hv, fun v hv => Option.some.inj hv ▸ ht]
  clear_value after
  split
  · exact ht.dropAt
  · refine .if_ ht.dropAt ?_
    split
    · exact ht.discardDup
    · exact ht
    · next v =>
      have h0 : s.Steady v := ha v rfl
      extract_lets demote t1 c t2 f2 t3
      have h1 : s.Steady t1 := (h0.pc.demoteEvt.if_ h0.pc).if_ h0
      have h3 : s.Steady t3 := (h1.doIf fun _ h => h.wr).setFrame
      clear_value t3
      split
      · split
        exacts [h3.dropAt, h3.dropFrame]
      · extract_lets t4
        have h4 : s.Steady t4 := by
          subst t4
          split
          exacts [h3.pc, h3]
        exact h4.countHeldDrops.dropFrame.if_ h4.takeIn

theorem State.Steady.openFill (h : s.Steady u) {f} : s.Steady (u.openFill f) := by
  dsimp only [State.openFill]
  split
  exacts [h.setFrame, h.freeFrame.pc.if_ h.mk.bump.setFrame]

theorem State.Steady.lookup (h : s.Steady u) {f} : s.Steady (u.lookup f none) := by
  dsimp only [State.lookup]
  split
  · rw [State.eccReads_none]
    exact h.setWay.bump.decide_.if_ h.setWay.bump.decide_
  · rw [State.eccRead_none]
    exact h.bump.setFrame.openFill.if_ h.bump.decide_

/-- A message that the device injects leaves by the Polder, and the frame path does the rest (R287). -/
theorem State.steady_pldInject (s : State) (p : List Byte) :
    ((s.openBytes 6).2.emit (.polder p)).Steady (s.pldInject p) := by
  dsimp only [State.pldInject]
  refine .if_ .refl ?_
  split
  · exact .refl
  · exact State.Steady.refl.mk.lookup

theorem State.twin_pldInject (s : State) (p : List Byte) : (s.pldInject p).twin = s.twin := (s.steady_pldInject p).1

theorem State.polder_mem_pldInject (s : State) (p : List Byte) : .polder p ∈ (s.pldInject p).out :=
  (s.steady_pldInject p).2 (List.mem_cons_self ..)

end SteadyLaws

end Sys2Proof.Machine

/-! # The Polder's beacons and reports, as they leave (O41) -/

namespace Sys2Proof.Machine

open Sys2Proof.Laws

/-! ### Fields of a message built of parts -/

/-- The big-endian field that a part of a string writes. -/
theorem beAt_part (a : List Byte) {p : List Byte} {i n v : Nat} (h : a ++ toBe n v <+: p) (hi : a.length = i) : beAt p i n = v % 256 ^ n := by
  obtain ⟨b, rfl⟩ := h
  subst hi
  rw [List.append_assoc]
  exact beAt_mid a n v b

theorem beAt_lt (b : List Byte) (i n : Nat) : beAt b i n < 256 ^ n := by
  have hl (l : List Byte) : leNat l < 256 ^ l.length := by
    induction l with
    | nil => simp [leNat]
    | cons x l ih =>
      have hx := x.isLt
      rw [List.length_cons, Nat.pow_succ, leNat]
      omega
  have h := hl (sliceB b i n).reverse
  rwa [← beNat_reverse, List.reverse_reverse, List.length_reverse, length_sliceB] at h

theorem credId_lt (c : List Byte) : credId c < 2 ^ 32 := beAt_lt c 4 4

theorem credMember_lt (c : List Byte) : credMember c < 2 ^ 16 := beAt_lt c 8 2

theorem length_pldHead (msg id : Nat) : (pldHead msg id).length = 8 := by simp [pldHead]

section

variable {s u : State}

theorem State.cycle_lt (s : State) : s.cycle < 2 ^ 40 := s.gac.cycle.isLt

/-! ### The twin after a message -/

theorem State.twin_sign (s : State) (alg : Nat) (priv msg : List Byte) : (s.sign alg priv msg).2.twin = s.twin := rfl

/-- A message to the peer leaves the SEQ of the next beacon and the schedules alone. -/
theorem State.doIf_twinSend {c : Bool} {msg body} {t : State} (ht : t = u.doIf c (fun s => s.twinSend msg body)) :
    t.twin.nextSeq = u.twin.nextSeq ∧ t.twin.scheds = u.twin.scheds ∧ u.out ⊆ t.out := by
  subst ht
  cases c
  exacts [⟨rfl, rfl, List.Subset.refl _⟩, ⟨rfl, rfl, List.subset_cons_self _ _⟩]

/-! ### Beacons -/

/-- What a beacon carries up to its cycle. -/
def State.beaconHead (s : State) : List Byte :=
  pldHead 1 (credId s.pldCred) ++ toBe 2 (credMember s.pldCred) ++ toBe 1 s.carried.length ++ toBe 1 (s.f F.GAC_CTL_NOM)
    ++ toBe 4 s.twin.nextSeq ++ toBe 8 s.cycle

/-- What a beacon carries before its signature. -/
def State.beaconBody (s : State) : List Byte :=
  s.beaconHead ++ toBe 8 (s.rd64 R.GAC_ZERO_SEC_LO % 2 ^ 48) ++ toBe 4 (s.f F.GAC_ZERO_NS_NS) ++ toBe 4 (s.rd R.GAC_FREQ).toNat
    ++ s.carried.flatMap schedBytes

/-- The state in which the leader has counted and signed its beacon. -/
def State.beaconSigned (s : State) (key : List Byte) : State :=
  { (s.sign 2 key s.beaconBody).2 with
    twin := { (s.sign 2 key s.beaconBody).2.twin with nextSeq := (s.twin.nextSeq + 1) % 2 ^ 32, scheds := s.carried } }

/-- The beacon with its signature. -/
def State.beaconMsg (s : State) (key : List Byte) : List Byte := s.beaconBody ++ (s.sign 2 key s.beaconBody).1

theorem exec_beaconSend_due {key : List Byte} (hm : s.pldMember = true) (hl : s.pldLeads = true) (hc : s.cycle % max 1 s.pldInt = 0)
    (hk : s.identity = some key) :
    exec .beaconSend s = .next (((s.beaconSigned key).pldInject (s.beaconMsg key)).doIf
      ((s.beaconSigned key).pldInject (s.beaconMsg key)).mirroring
      (fun u => u.twinSend mLeadState (toBe 4 s.twin.nextSeq ++ s.carried.flatMap schedBytes))) := by
  simp only [exec, execBeaconSend, hm, hl, hc, hk]
  rfl

theorem exec_beaconSend_idle (h : s.pldMember = false ∨ s.pldLeads = false ∨ s.cycle % max 1 s.pldInt ≠ 0) :
    exec .beaconSend s = .next s := by
  have hc : (!s.pldMember || !s.pldLeads || decide (s.cycle % max 1 s.pldInt ≠ 0)) = true := by
    rcases h with h | h | h <;> simp [h]
  exact if_pos hc

theorem State.beaconHead_prefix (s : State) (key : List Byte) : s.beaconHead <+: s.beaconMsg key := by
  simp [State.beaconMsg, State.beaconBody, List.append_assoc]

theorem take_beaconMsg (key : List Byte) : (s.beaconMsg key).take 8 = pldHead 1 (credId s.pldCred) := by
  obtain ⟨b, hb⟩ := s.beaconHead_prefix key
  rw [← hb, State.beaconHead]
  simp only [List.append_assoc]
  exact List.take_left' (length_pldHead _ _)

theorem member_beaconMsg (key : List Byte) : beAt (s.beaconMsg key) 8 2 = credMember s.pldCred := by
  rw [beAt_part (v := credMember s.pldCred) (pldHead 1 (credId s.pldCred)) (.trans (by simp [State.beaconHead, List.append_assoc]) (s.beaconHead_prefix key))
    (length_pldHead _ _)]
  exact Nat.mod_eq_of_lt (credMember_lt _)

theorem seq_beaconMsg (key : List Byte) : beAt (s.beaconMsg key) 12 4 = s.twin.nextSeq % 2 ^ 32 :=
  beAt_part (pldHead 1 (credId s.pldCred) ++ toBe 2 (credMember s.pldCred) ++ toBe 1 s.carried.length ++ toBe 1 (s.f F.GAC_CTL_NOM))
    (.trans (List.prefix_append ..) (s.beaconHead_prefix key)) (by simp [length_pldHead])

theorem cycle_beaconMsg (key : List Byte) : beAt (s.beaconMsg key) 16 8 = s.cycle := by
  rw [beAt_part (pldHead 1 (credId s.pldCred) ++ toBe 2 (credMember s.pldCred) ++ toBe 1 s.carried.length ++ toBe 1 (s.f F.GAC_CTL_NOM)
      ++ toBe 4 s.twin.nextSeq) (s.beaconHead_prefix key) (by simp [length_pldHead])]
  exact Nat.mod_eq_of_lt (s.cycle_lt.trans (by decide))

/-- The leader sends its beacon and counts its SEQ. -/
theorem exec_beaconSend_sends {key : List Byte} (hm : s.pldMember = true) (hl : s.pldLeads = true) (hc : s.cycle % max 1 s.pldInt = 0)
    (hk : s.identity = some key) :
    ∃ t, exec .beaconSend s = .next t ∧ .polder (s.beaconMsg key) ∈ t.out ∧ t.twin.nextSeq = (s.twin.nextSeq + 1) % 2 ^ 32 ∧
      t.twin.scheds = s.carried := by
  obtain ⟨hseq, hscheds, hout⟩ := State.doIf_twinSend rfl
  refine ⟨_, exec_beaconSend_due hm hl hc hk, hout (State.polder_mem_pldInject ..), hseq.trans ?_, hscheds.trans ?_⟩
  · rw [State.twin_pldInject]
    rfl
  · rw [State.twin_pldInject]
    rfl

/-! ### Reports -/

/-- What a report carries up to its cycle. -/
def State.reportHead (s : State) : List Byte :=
  pldHead 2 (credId s.pldCred) ++ toBe 2 (credMember s.pldCred) ++ s.rankBytes ++ [0, 0] ++ toBe 8 s.cycle

/-- What a report carries before its signature. -/
def State.reportBody (s : State) : List Byte :=
  s.reportHead ++ toBe 4 (satInt 32 ((s.rd64 R.GAC_ZERO_SEC_LO % 2 ^ 48 * 10 ^ 9 + s.f F.GAC_ZERO_NS_NS : Nat) - s.twin.lastTm)).toNat
    ++ toBe 8 (s.rd64 R.CFG_ACTIVE_SEQ_LO) ++ fitB 261 s.pldCred ++ fitB 97 s.keys.idPub

/-- The report with its signature. -/
def State.reportMsg (s : State) (key : List Byte) : List Byte := s.reportBody ++ (s.sign 2 key s.reportBody).1

theorem exec_reportSend_due {key : List Byte} (hm : s.pldMember = true) (hc : s.cycle % (16 * max 1 s.pldInt) = 0)
    (hk : s.identity = some key) : exec .reportSend s = .next ((s.sign 2 key s.reportBody).2.pldInject (s.reportMsg key)) := by
  simp only [exec, execReportSend, hm, hc, hk]
  rfl

theorem State.reportHead_prefix (s : State) (key : List Byte) : s.reportHead <+: s.reportMsg key := by
  simp [State.reportMsg, State.reportBody, List.append_assoc]

theorem take_reportMsg (key : List Byte) : (s.reportMsg key).take 8 = pldHead 2 (credId s.pldCred) := by
  obtain ⟨b, hb⟩ := s.reportHead_prefix key
  rw [← hb, State.reportHead]
  simp only [List.append_assoc]
  exact List.take_left' (length_pldHead _ _)

theorem member_reportMsg (key : List Byte) : beAt (s.reportMsg key) 8 2 = credMember s.pldCred := by
  rw [beAt_part (v := credMember s.pldCred) (pldHead 2 (credId s.pldCred)) (.trans (by simp [State.reportHead, List.append_assoc]) (s.reportHead_prefix key))
    (length_pldHead _ _)]
  exact Nat.mod_eq_of_lt (credMember_lt _)

theorem cycle_reportMsg (key : List Byte) : beAt (s.reportMsg key) 16 8 = s.cycle := by
  rw [beAt_part (pldHead 2 (credId s.pldCred) ++ toBe 2 (credMember s.pldCred) ++ s.rankBytes ++ [0, 0]) (s.reportHead_prefix key)
    (by simp [length_pldHead, State.rankBytes])]
  exact Nat.mod_eq_of_lt (s.cycle_lt.trans (by decide))

end

end Sys2Proof.Machine

/-! # The Polder's messages as they arrive (O41) -/

namespace Sys2Proof.Machine

open Sys2Proof.Laws

section

variable {s t u : State}

/-! ### Schedules at a member -/

/-- From `s` to `t` schedules are handled: the keys change, the schedules noted as handled grow, and beside these only what a TWIN
event touches changes. -/
structure State.Handles (s t : State) : Prop where
  twin : t.twin = { s.twin with handled := t.twin.handled }
  handled : s.twin.handled ⊆ t.twin.handled
  gac : t.gac = s.gac
  mem : t.mem = s.mem
  rd : ∀ a, evtFree a = true → a ≠ R.TWN_EVT → t.rd a = s.rd a

theorem State.Handles.refl : s.Handles s := ⟨rfl, List.Subset.refl _, rfl, rfl, fun _ _ _ => rfl⟩

theorem State.Handles.trans (h : s.Handles t) (g : t.Handles u) : s.Handles u :=
  ⟨by rw [g.twin, h.twin], List.Subset.trans h.handled g.handled, g.gac.trans h.gac, g.mem.trans h.mem,
    fun a ha hn => (g.rd a ha hn).trans (h.rd a ha hn)⟩

theorem State.touches_twnFlag (s : State) {bit item} : s.Touches (s.twnFlag bit item) [R.TWN_EVT] :=
  State.Touches.refl.raise (by decide) (by simp [twnEvt])

theorem State.Handles.twnFlag (h : s.Handles u) {bit item} : s.Handles (u.twnFlag bit item) :=
  have ht := u.touches_twnFlag (bit := bit) (item := item)
  h.trans ⟨by rw [ht.twin], by rw [ht.twin]; exact List.Subset.refl _, ht.gac, ht.mem, fun a ha hn => ht.rd a ha (by simpa using hn)⟩

/-- A rollover that is accepted changes keys alone. -/
theorem State.Handles.rollTake (h : s.Handles u) {old new n grace fold} : s.Handles (u.rollTake old new n grace fold) :=
  h.trans ⟨rfl, List.Subset.refl _, rfl, rfl, fun _ _ _ => rfl⟩

/-- The schedule is noted as handled. -/
def State.noted (s : State) (x : PldSched) : State := { s with twin := { s.twin with handled := s.twin.handled ++ [x] } }

theorem State.handles_noted (s : State) (x : PldSched) : s.Handles (s.noted x) :=
  ⟨rfl, List.subset_append_left _ _, rfl, rfl, fun _ _ _ => rfl⟩

theorem State.handleSched_of_mem {x : PldSched} (h : x ∈ s.twin.handled) : s.handleSched x = s := if_pos h

/-- The cycle of the rollover of a schedule, and whether it is late; none where it is too late (R291). -/
def State.schedAt (s : State) (x : PldSched) : Option (Nat × Bool) :=
  if s.cycle + 2 ≤ x.cycle then some (x.cycle, false)
  else if x.cycle < s.cycle + 2 && s.cycle + 1 < x.cycle + x.grace then some (s.cycle + 2, true) else none

/-- A schedule makes a rollover of two slots in cycle `n`: in time or late, its keys are there, and nothing refuses it (R291). -/
structure State.Accepts (s : State) (x : PldSched) (n : Nat) (late : Bool) (o w : Nat) : Prop where
  time : s.schedAt x = some (n, late)
  old : s.slotWith Ks.active x.oldId = some o
  new : s.slotWith Ks.loaded x.newId = some w
  grace : 2 ≤ x.grace
  check : s.rollCheck o w n = none

/-- What a schedule that is new to the member comes to: an accepted rollover, or the event that names its group. -/
theorem State.handleSched_cases {x : PldSched} (h : x ∉ s.twin.handled) :
    (s.handleSched x = (s.noted x).twnFlag 8 x.group ∧ ∀ n late o w, ¬ s.Accepts x n late o w) ∨
      ∃ n late o w, s.Accepts x n late o w ∧
        s.handleSched x = ((s.noted x).rollTake o w n x.grace x.fold).doIf late (·.twnFlag 7 x.group) := by
  unfold State.handleSched
  rw [if_neg h]
  dsimp only
  split
  next n late o w ht ho hw =>
    have same {n' late' o' w'} (ha : s.Accepts x n' late' o' w') : n' = n ∧ o' = o ∧ w' = w := by
      obtain ⟨ht', ho', hw', -, -⟩ := ha
      have e := Option.some.inj (ht'.symm.trans ht)
      exact ⟨congrArg Prod.fst e, Option.some.inj (ho'.symm.trans ho), Option.some.inj (hw'.symm.trans hw)⟩
    split
    next hg => exact .inl ⟨rfl, fun n' _ o' w' ha => absurd ha.grace (by omega)⟩
    next hg =>
      split
      next hr => exact .inr ⟨n, late, o, w, ⟨ht, ho, hw, by omega, hr⟩, rfl⟩
      next r hr =>
        refine .inl ⟨rfl, fun n' _ o' w' ha => ?_⟩
        obtain ⟨rfl, rfl, rfl⟩ := same ha
        exact absurd (ha.check.symm.trans hr) (by simp)
  next hno => exact .inl ⟨rfl, fun n late o w ha => hno n late o w ha.time ha.old ha.new⟩

theorem State.handles_handleSched (s : State) (x : PldSched) : s.Handles (s.handleSched x) ∧ x ∈ (s.handleSched x).twin.handled := by
  by_cases hx : x ∈ s.twin.handled
  · rw [State.handleSched_of_mem hx]
    exact ⟨.refl, hx⟩
  · have hn : s.Handles (s.noted x) := s.handles_noted x
    have hm : x ∈ (s.noted x).twin.handled := List.mem_append_right _ (List.mem_singleton_self x)
    have of_noted {t : State} (ht : (s.noted x).Handles t) : s.Handles t ∧ x ∈ t.twin.handled := ⟨hn.trans ht, ht.handled hm⟩
    rcases State.handleSched_cases hx with ⟨he, -⟩ | ⟨n, late, o, w, -, he⟩
    · rw [he]
      exact of_noted State.Handles.refl.twnFlag
    · rw [he]
      refine of_noted ?_
      cases late
      exacts [State.Handles.refl.rollTake, State.Handles.refl.rollTake.twnFlag]

theorem State.handles_forEach (l : List PldSched) :
    s.Handles (s.forEach l State.handleSched) ∧ ∀ x ∈ l, x ∈ (s.forEach l State.handleSched).twin.handled := by
  induction l generalizing s with
  | nil => exact ⟨.refl, by simp⟩
  | cons x l ih =>
    obtain ⟨h, hx⟩ := s.handles_handleSched x
    obtain ⟨g, hl⟩ := ih (s := s.handleSched x)
    refine ⟨h.trans g, fun y hy => ?_⟩
    rcases List.mem_cons.1 hy with rfl | hy
    · exact g.handled hx
    · exact hl y hy

/-- A schedule that a member may accept is noted, and its rollover made. -/
theorem State.handleSched_of_accepts {x : PldSched} {n o w : Nat} (h : x ∉ s.twin.handled) (ha : s.Accepts x n false o w) :
    s.handleSched x = (s.noted x).rollTake o w n x.grace x.fold := by
  rcases State.handleSched_cases h with ⟨-, hno⟩ | ⟨n', late, o', w', ha', he⟩
  · exact absurd ha (hno n false o w)
  · have e := Option.some.inj (ha'.time.symm.trans ha.time)
    obtain ⟨rfl, rfl⟩ : n' = n ∧ late = false := ⟨congrArg Prod.fst e, congrArg Prod.snd e⟩
    obtain rfl : o' = o := Option.some.inj (ha'.old.symm.trans ha.old)
    obtain rfl : w' = w := Option.some.inj (ha'.new.symm.trans ha.new)
    exact he

/-- A schedule whose old key the member does not hold is noted, and its group named. -/
theorem State.handleSched_of_no_old {x : PldSched} (h : x ∉ s.twin.handled) (ho : s.slotWith Ks.active x.oldId = none) :
    s.handleSched x = (s.noted x).twnFlag 8 x.group := by
  rcases State.handleSched_cases h with ⟨he, -⟩ | ⟨_, _, _, _, ha, -⟩
  · exact he
  · exact absurd (ha.old.symm.trans ho) (by simp)

end

end Sys2Proof.Machine

/-! # Beacons, waits and reports at a member (O41) -/

namespace Sys2Proof.Machine

open Sys2Proof.Laws

section

variable {s t u : State}

/-! ### An accepted beacon -/

theorem State.fb_congr {g : Fld} (h : t.f g = s.f g) : t.fb g = s.fb g := by rw [State.fb, State.fb, h]

/-- A 64-bit pair of registers reads as the number written. -/
theorem State.rd64_wr64 (s : State) (a v : Nat) : (s.wr64 a v).rd64 a = v % 2 ^ 64 := by
  rw [State.rd64, State.wr64, State.rd_wr_self, State.rd_wr_ne _ _ (by omega : a ≠ a + 4), State.rd_wr_self, BitVec.toNat_ofNat, BitVec.toNat_ofNat]
  omega

theorem State.rd_wr64_ne (s : State) {a b v : Nat} (h : b ≠ a) (h4 : b ≠ a + 4) : (s.wr64 a v).rd b = s.rd b := by
  rw [State.wr64, State.rd_wr_ne _ _ h4, State.rd_wr_ne _ _ h]

/-- What the form of a beacon says of its cycle: 40 bits. -/
theorem beaconOf_cycle_lt {p : List Byte} {b : Beacon} (h : beaconOf p = some b) : b.cycle < 2 ^ 40 := by
  unfold beaconOf at h
  dsimp only at h
  split at h
  · cases h
  · obtain rfl := Option.some.inj h
    exact Nat.mod_lt _ (by decide)

/-- What holds without an effect and with it holds where the effect is conditional. -/
theorem State.doIf_inv {P : State → Prop} {c : Bool} {g : State → State} (h : P u) (hg : P (g u)) : P (u.doIf c g) := by
  cases c
  exacts [h, hg]

theorem State.rd_yieldLead (s : State) (b : Beacon) {a : Nat} (ha : a ≠ R.TWN_PLD_STATUS) : (s.yieldLead b).rd a = s.rd a :=
  State.doIf_inv (P := fun t => t.rd a = s.rd a) rfl (s.rd_setF_ne 0 ha)

theorem State.gac_yieldLead (s : State) (b : Beacon) : (s.yieldLead b).gac = s.gac :=
  State.doIf_inv (P := fun t => t.gac = s.gac) rfl (State.gac_setF ..)

theorem State.mem_yieldLead (s : State) (b : Beacon) : (s.yieldLead b).mem = s.mem :=
  State.doIf_inv (P := fun t => t.mem = s.mem) rfl (State.mem_setF ..)

/-- The leader of higher index yields (R289). -/
theorem State.pldLeads_yieldLead {b : Beacon} (h : b.leader < credMember s.pldCred) : (s.yieldLead b).pldLeads = false := by
  unfold State.yieldLead State.doIf
  split
  next => simp [State.pldLeads, State.fb, s.f_setF_self F.TWN_PLD_STATUS_LEADER 0 (by decide)]
  next hno => simpa [h] using hno

/-- The next cycle is numbered with a step (R44). -/
def State.setStep (s : State) (d : Int) : State := { s with gac := { s.gac with step := some d } }

/-- The cycles are numbered, with the step that an accepted beacon asks for (R44). -/
def State.beaconNumbers (s : State) (b : Beacon) : State :=
  (s.setF F.GAC_STATUS_CYCLE_SET 1).doIf
    (!(s.setF F.GAC_STATUS_CYCLE_SET 1).numberedByPeer && decide ((b.cycle : Int) - (s.zeroNear b.tm).1 ≠ 0))
    (·.setStep ((b.cycle : Int) - (s.zeroNear b.tm).1))

/-- A step changes the GAC alone. -/
theorem State.doIf_setStep (u : State) (c : Bool) (d : Int) : (u.doIf c (·.setStep d)).regs = u.regs ∧
    (u.doIf c (·.setStep d)).mem = u.mem ∧ (u.doIf c (·.setStep d)).twin = u.twin := by
  cases c
  exacts [⟨rfl, rfl, rfl⟩, ⟨rfl, rfl, rfl⟩]

theorem State.rd_beaconNumbers (s : State) (b : Beacon) (a : Nat) : (s.beaconNumbers b).rd a = (s.setF F.GAC_STATUS_CYCLE_SET 1).rd a :=
  State.rd_congr (State.doIf_setStep _ _ _).1

theorem State.mem_beaconNumbers (s : State) (b : Beacon) : (s.beaconNumbers b).mem = s.mem :=
  (State.doIf_setStep _ _ _).2.1.trans (State.mem_setF ..)

theorem State.twin_beaconNumbers (s : State) (b : Beacon) : (s.beaconNumbers b).twin = s.twin :=
  (State.doIf_setStep _ _ _).2.2.trans (State.twin_setF ..)

theorem State.numberedByPeer_congr (h : ∀ g : Fld, g.addr ≠ R.GAC_STATUS → t.f g = s.f g) : t.numberedByPeer = s.numberedByPeer := by
  have hst : t.twinSt = s.twinSt := h F.TWN_STATUS_STATE (by decide)
  have h0 : t.fb F.TWN_LINK_STS_TL0 = s.fb F.TWN_LINK_STS_TL0 := State.fb_congr (h _ (by decide))
  have h1 : t.fb F.TWN_LINK_STS_TL1 = s.fb F.TWN_LINK_STS_TL1 := State.fb_congr (h _ (by decide))
  have hk : t.fb F.TWN_LINK_STS_KEYED = s.fb F.TWN_LINK_STS_KEYED := State.fb_congr (h _ (by decide))
  rw [State.numberedByPeer, State.numberedByPeer, State.twinUp, State.twinUp, State.twinLaneUp, State.twinLaneUp, hst, h0, h1, hk]

theorem State.numberedByPeer_cycleSet (s : State) : (s.setF F.GAC_STATUS_CYCLE_SET 1).numberedByPeer = s.numberedByPeer :=
  State.numberedByPeer_congr fun g hg => by rw [State.f, State.f, s.rd_setF_ne 1 (f := F.GAC_STATUS_CYCLE_SET) hg]

theorem State.gac_beaconNumbers (s : State) (b : Beacon) : (s.beaconNumbers b).gac =
    if s.numberedByPeer || decide ((b.cycle : Int) = (s.zeroNear b.tm).1) then s.gac
    else (s.setStep ((b.cycle : Int) - (s.zeroNear b.tm).1)).gac := by
  unfold State.beaconNumbers State.doIf
  rw [s.numberedByPeer_cycleSet]
  by_cases hn : s.numberedByPeer = true
  · simp [hn]
  · by_cases hc : (b.cycle : Int) = (s.zeroNear b.tm).1
    · simp [hc]
    · simp [hn, hc, sub_eq_zero, State.setStep]

/-- The registers show an accepted beacon. -/
def State.beaconShown (s : State) (b : Beacon) : State :=
  (((s.beaconNumbers b).wr R.TWN_PLD_SEQ (BitVec.ofNat 32 b.seq)).wr64 R.TWN_PLD_CYC_LO b.cycle).yieldLead b

theorem State.gac_beaconShown (s : State) (b : Beacon) : (s.beaconShown b).gac = (s.beaconNumbers b).gac := by
  rw [State.beaconShown, State.gac_yieldLead]
  rfl

theorem State.mem_beaconShown (s : State) (b : Beacon) : (s.beaconShown b).mem = s.mem := by
  rw [State.beaconShown, State.mem_yieldLead, ← s.mem_beaconNumbers b]
  rfl

theorem State.rd_seq_beaconShown (s : State) (b : Beacon) : (s.beaconShown b).rd R.TWN_PLD_SEQ = BitVec.ofNat 32 b.seq := by
  rw [State.beaconShown, State.rd_yieldLead _ _ (by decide), State.rd_wr64_ne _ (by decide) (by decide), State.rd_wr_self]

theorem State.rd64_cyc_beaconShown (s : State) (b : Beacon) : (s.beaconShown b).rd64 R.TWN_PLD_CYC_LO = b.cycle % 2 ^ 64 := by
  rw [State.rd64, State.beaconShown, State.rd_yieldLead _ _ (by decide), State.rd_yieldLead _ _ (by decide), ← State.rd64, State.rd64_wr64]

theorem State.f_cycleSet_beaconShown (s : State) (b : Beacon) : (s.beaconShown b).f F.GAC_STATUS_CYCLE_SET = 1 := by
  rw [State.f, State.beaconShown, State.rd_yieldLead _ _ (by decide), State.rd_wr64_ne _ (by decide) (by decide),
    State.rd_wr_ne _ _ (by decide), State.rd_beaconNumbers, ← State.f, State.f_setF_self _ _ _ (by decide)]
  rfl

theorem State.pldLeads_beaconShown {b : Beacon} (h : b.leader < credMember s.pldCred) : (s.beaconShown b).pldLeads = false := by
  refine State.pldLeads_yieldLead ?_
  have : ((((s.beaconNumbers b).wr R.TWN_PLD_SEQ (BitVec.ofNat 32 b.seq)).wr64 R.TWN_PLD_CYC_LO b.cycle)).twin = s.twin :=
    s.twin_beaconNumbers b
  rwa [State.pldCred, this, ← State.pldCred]

/-- The twin records an accepted beacon. -/
def State.beaconRecorded (s : State) (b : Beacon) : State :=
  let u := s.beaconShown b
  let u := { u with twin := { u.twin with leaderIdx := some b.leader, lastBeacon := u.gac.passed, lastTm := b.tm } }
  u.doIf (!u.pldLeads) (fun u => { u with twin := { u.twin with scheds := b.scheds, nextSeq := (b.seq + 1) % 2 ^ 32 } })

theorem State.takeBeacon_eq (s : State) (b : Beacon) : s.takeBeacon b = (s.beaconRecorded b).forEach b.scheds State.handleSched := rfl

theorem State.beaconRecorded_spec (s : State) (b : Beacon) : (s.beaconRecorded b).regs = (s.beaconShown b).regs ∧
    (s.beaconRecorded b).gac = (s.beaconShown b).gac ∧ (s.beaconRecorded b).mem = (s.beaconShown b).mem ∧
      (s.beaconRecorded b).twin.leaderIdx = some b.leader ∧ (s.beaconRecorded b).twin.lastBeacon = (s.beaconShown b).gac.passed :=
  State.doIf_inv (P := fun t => t.regs = (s.beaconShown b).regs ∧ t.gac = (s.beaconShown b).gac ∧ t.mem = (s.beaconShown b).mem ∧
    t.twin.leaderIdx = some b.leader ∧ t.twin.lastBeacon = (s.beaconShown b).gac.passed) ⟨rfl, rfl, rfl, rfl, rfl⟩ ⟨rfl, rfl, rfl, rfl, rfl⟩

end

end Sys2Proof.Machine

/-! # What the Polder's rows do at a member (O41) -/

namespace Sys2Proof.Machine

open Sys2Proof.Laws

section

variable {s t u : State}

theorem exec_beaconRx_accepted {p : List Byte} {b : Beacon} (hm : s.pldMember = true) (hb : beaconOf p = some b)
    (hok : s.beaconOk p b = true) : exec (.beaconRx p) s = .next ((s.takeBeacon b).irqAll 54) := by
  simp [exec, execBeaconRx, hm, hb, hok]

theorem exec_beaconRx_rejected {p : List Byte} (hm : s.pldMember = true) (hno : ∀ b, beaconOf p = some b → s.beaconOk p b = false) :
    exec (.beaconRx p) s = .next (s.gacFlag F.GAC_EVT_BEACON_REJ.lo) := by
  cases hb : beaconOf p with
  | none => simp [exec, execBeaconRx, hm, hb]
  | some b => simp [exec, execBeaconRx, hm, hb, hno b hb]

/-- The step of the cycles is all that an accepted beacon changes of the GAC (R44). -/
theorem State.gac_beaconNumbers_step (s : State) (b : Beacon) :
    (s.beaconNumbers b).gac = { s.gac with step := (s.beaconNumbers b).gac.step } ∧
      (s.beaconNumbers b).gac.step = if s.numberedByPeer || decide ((b.cycle : Int) = (s.zeroNear b.tm).1) then s.gac.step
        else some ((b.cycle : Int) - (s.zeroNear b.tm).1) := by
  rw [s.gac_beaconNumbers b]
  split
  exacts [⟨rfl, rfl⟩, ⟨rfl, rfl⟩]

/-- The twin, the GAC and the registers after an accepted beacon, but for its schedules. -/
structure State.BeaconKept (s : State) (b : Beacon) (t : State) : Prop where
  rd : ∀ a, evtFree a = true → a ≠ R.TWN_EVT → t.rd a = (s.beaconShown b).rd a
  gac : t.gac = (s.beaconNumbers b).gac
  mem : t.mem = s.mem
  leader : t.twin.leaderIdx = some b.leader
  last : t.twin.lastBeacon = s.gac.passed
  handled : ∀ x ∈ b.scheds, x ∈ t.twin.handled

theorem State.beaconKept_takeBeacon (s : State) (b : Beacon) : s.BeaconKept b ((s.takeBeacon b).irqAll 54) := by
  obtain ⟨hregs, hgac, hmem, hleader, hlast⟩ := s.beaconRecorded_spec b
  obtain ⟨hh, hx⟩ := (s.beaconRecorded b).handles_forEach b.scheds
  rw [s.takeBeacon_eq b]
  have hi : ((s.beaconRecorded b).forEach b.scheds State.handleSched).Touches
      (((s.beaconRecorded b).forEach b.scheds State.handleSched).irqAll 54) [] := State.Touches.refl.irqAll (by decide)
  generalize ((s.beaconRecorded b).forEach b.scheds State.handleSched).irqAll 54 = t at hi
  generalize (s.beaconRecorded b).forEach b.scheds State.handleSched = u at hi hh hx
  have hshown := s.gac_beaconShown b
  refine ⟨fun a ha hn => ?_, ?_, ?_, ?_, ?_, ?_⟩
  · rw [hi.rd a ha (by simp), hh.rd a ha hn, State.rd_congr hregs]
  · rw [hi.gac, hh.gac, hgac, hshown]
  · rw [hi.mem, hh.mem, hmem, s.mem_beaconShown b]
  · rw [hi.twin, hh.twin, ← hleader]
  · rw [hi.twin, hh.twin]
    exact hlast.trans (by rw [hshown, (s.gac_beaconNumbers_step b).1])
  · rw [hi.twin]
    exact hx

theorem State.BeaconKept.f {b : Beacon} (h : s.BeaconKept b t) {g : Fld} (ha : evtFree g.addr = true) (hn : g.addr ≠ R.TWN_EVT) :
    t.f g = (s.beaconShown b).f g := by
  rw [State.f, State.f, h.rd g.addr ha hn]

theorem State.BeaconKept.cyc {b : Beacon} (h : s.BeaconKept b t) (hc : b.cycle < 2 ^ 40) : t.rd64 R.TWN_PLD_CYC_LO = b.cycle := by
  rw [State.rd64, h.rd _ (by decide) (by decide), h.rd _ (by decide) (by decide), ← State.rd64, s.rd64_cyc_beaconShown b]
  exact Nat.mod_eq_of_lt (hc.trans (by decide))

theorem State.BeaconKept.yields {b : Beacon} (h : s.BeaconKept b t) (hl : b.leader < credMember s.pldCred) : t.pldLeads = false := by
  rw [State.pldLeads, State.fb_congr (h.f (g := F.TWN_PLD_STATUS_LEADER) (by decide) (by decide)), ← State.pldLeads,
    State.pldLeads_beaconShown hl]

/-! ### The wait of a member that may lead -/

theorem exec_leaderTimeout_leads (hm : s.pldMember = true) (hc : credLeader s.pldCred = true) (hl : s.pldLeads = false)
    (hp : s.numberedByPeer = false) (hw : s.twin.lastBeacon + 3 * credInt s.pldCred + 2 * credMember s.pldCred ≤ s.gac.passed) :
    exec .leaderTimeout s = .next ((s.setF F.TWN_PLD_STATUS_LEADER 1).twnFlag 6 (leNat (s.ownDigest.take 4))) := by
  have hc' : (!s.pldMember || !credLeader s.pldCred || s.pldLeads || s.numberedByPeer
      || decide (s.gac.passed < s.twin.lastBeacon + 3 * credInt s.pldCred + 2 * credMember s.pldCred)) = false := by
    simp [hm, hc, hl, hp, hw]
  exact if_neg (by rw [hc']; simp)

theorem exec_leaderTimeout_waits (hw : s.gac.passed < s.twin.lastBeacon + 3 * credInt s.pldCred + 2 * credMember s.pldCred) :
    exec .leaderTimeout s = .next s := by
  have hc : (!s.pldMember || !credLeader s.pldCred || s.pldLeads || s.numberedByPeer
      || decide (s.gac.passed < s.twin.lastBeacon + 3 * credInt s.pldCred + 2 * credMember s.pldCred)) = true := by
    simp [hw]
  exact if_pos hc

/-! ### Reports -/

/-- What is kept of a report. -/
def State.reportOf (s : State) (p : List Byte) : PldMember := ⟨sliceB p 36 261, sliceB p 297 97, s.gac.passed⟩

/-- A report is kept under its member's index. -/
def State.reported (s : State) (p : List Byte) : State :=
  { s with twin := { s.twin with members := Tbl.set (fun _ => none) s.twin.members (beAt p 8 2) (some (s.reportOf p)) } }

theorem exec_reportRx_kept {p : List Byte} (hm : s.pldMember = true) (hok : s.reportOk p = true) :
    exec (.reportRx p) s = .next ((s.reported p).countMembers.irqAll 54) := by
  simp [exec, execReportRx, hm, hok, State.reported, State.reportOf]

/-- A member that is counted. -/
def State.counts (s : State) (e : Nat × Option PldMember) : Bool :=
  match e.2 with
  | some m => decide (s.gac.passed < m.seen + 64 * s.pldInt)
  | none => false

/-- The members that are counted, and their number. -/
def State.counted (s : State) : State := { s with twin := { s.twin with members := s.twin.members.filter s.counts } }

theorem State.countMembers_eq (s : State) : s.countMembers = s.counted.setF F.TWN_PLD_STATUS_COUNTED s.counted.twin.members.length := rfl

/-- A value that is placed under a key, and that a filter keeps, is found there. -/
theorem Tbl.get_filter_set_self {α : Type} [DecidableEq α] {d : Nat → α} {v : α} (l : Tbl α) (k : Nat) (q : Nat × α → Bool) (hv : v ≠ d k)
    (hq : q (k, v) = true) : Tbl.get d ((Tbl.set d l k v).filter q) k = v := by
  rw [Tbl.set, if_neg hv]
  have hk : ∀ e ∈ l.filter (fun e => decide (e.1 ≠ k)), e.1 ≠ k := fun e he => by simpa using (List.mem_filter.1 he).2
  revert hk
  generalize l.filter (fun e => decide (e.1 ≠ k)) = r
  induction r with
  | nil => simp [Tbl.insert, Tbl.get, hq]
  | cons e r ih =>
    intro hk
    obtain ⟨k', v'⟩ := e
    have hne : k ≠ k' := fun h => hk (k', v') (List.mem_cons_self ..) h.symm
    have ih := ih fun e he => hk e (List.mem_cons_of_mem _ he)
    unfold Tbl.insert
    split
    · simp [hq, Tbl.get]
    · by_cases hq' : q (k', v') = true
      · simp [hq', Tbl.get, hne, ih]
      · simp [hq', ih]

/-- A member whose report is kept is counted, where BEACON_INT is not 0. -/
theorem State.member_countMembers_reported {p : List Byte} (h : 0 < s.pldInt) :
    (s.reported p).countMembers.member (beAt p 8 2) = some (s.reportOf p) := by
  rw [State.countMembers_eq]
  refine Tbl.get_filter_set_self (v := some (s.reportOf p)) s.twin.members (beAt p 8 2) (s.reported p).counts (Option.some_ne_none _) ?_
  have hc : s.gac.passed < s.gac.passed + 64 * s.pldInt := by omega
  exact decide_eq_true hc

theorem State.onlyIn_regs_twin {r w} : s.onlyIn { s with regs := r, twin := w } [.regs, .twin] :=
  ⟨fun p hp => by cases p with | regs | twin => simp at hp | _ => rfl, rfl⟩

/-- A report changes registers and the twin alone. -/
theorem State.onlyIn_reported (s : State) (p : List Byte) : s.onlyIn ((s.reported p).countMembers.irqAll 54) [.regs, .twin] :=
  s.onlyIn_regs_twin

theorem exec_reportRx_ignored {p : List Byte} (h : s.pldMember = false ∨ s.reportOk p = false) : exec (.reportRx p) s = .next s := by
  have hc : (!s.pldMember || !s.reportOk p) = true := by
    rcases h with h | h <;> simp [h]
  exact if_pos hc

end

end Sys2Proof.Machine

/-! # The commands of the Polder (O41) -/

namespace Sys2Proof.Machine

open Sys2Proof.Laws

section

variable {s t u : State}

/-! ### A slot that starts -/

section

variable {c : CmdSpec} {sl : Slot}

theorem evtFree_cringIdx {r : Nat} (hr : r < 256) : evtFree (F.CUL_CRING_IDX_HEAD r).addr = false := by
  rw [evtFree_eq_false_iff]
  simp only [F.CUL_CRING_IDX_HEAD]
  omega

/-- A slot that is taken moves its ring on and touches its session. -/
theorem CmdSpec.touches_taken (c : CmdSpec) (sl : Slot) (s : State) : s.Touches (c.taken sl s) [] := by
  have ht : s.Touches (s.takeSlot sl.ring) [] :=
    State.Touches.setCul (State.Touches.refl.setF (.inl (evtFree_cringIdx sl.ring.isLt))) rfl
  unfold CmdSpec.taken State.touch
  split
  exacts [.if_ ht (ht.setCul rfl), ht]

/-- What is known of a slot that starts: Bus Master Enable is 1, its flags ask for no completion, and its command is not refused. -/
theorem CmdSpec.of_starts (h : c.starts sl s = true) :
    s.cul.bme = true ∧ (c.held sl s).async = false ∧ c.check (c.held sl s) (c.taken sl s) = none := by
  simp only [CmdSpec.starts, Bool.and_eq_true, Bool.not_eq_true', Option.isNone_iff_eq_none] at h
  obtain ⟨⟨⟨⟨⟨⟨hturn, -⟩, -⟩, h0⟩, h2⟩, -⟩, hfull⟩ := h
  refine ⟨?_, ?_, ?_⟩
  · simp only [State.turn, State.ringReady, Bool.and_eq_true] at hturn
    obtain ⟨⟨⟨⟨⟨⟨hbme, -⟩, -⟩, -⟩, -⟩, -⟩, -⟩ := hturn
    exact hbme
  · have hf : (c.held sl s).flags = sl.flags.toNat := rfl
    rw [Held.async, hf, h0, h2]
    rfl
  · simp only [fullCheck, Option.orElse_eq_none] at hfull
    obtain ⟨-, -, -, hcheck, -⟩ := hfull
    exact hcheck

theorem State.gacNow_congr (h : t.gac = s.gac) : t.gacNow = s.gacNow := by
  rw [State.gacNow, State.gacNow, State.angle, State.angle, h]

/-- A reply that leaves at once. -/
theorem State.reply_mem_putReply {x : Held} {r : Reply} {g} (hm : x.mute = false) (hb : u.cul.bme = true) :
    .reply x.ring x.idx r.status x.opc x.tag r.detail r.result g ∈ (u.putReply x r g).out := by
  have ht : (u.emit (.reply x.ring x.idx r.status x.opc x.tag r.detail r.result g)).Touches (u.putReply x r g) [] := by
    unfold State.putReply
    rw [if_neg (by simp [hm]), if_neg (by simp [hb])]
    exact .if_ State.Touches.refl.signalArmed .refl
  exact ht.out (List.mem_cons_self ..)

/-- A command that ends with OK has replied. -/
theorem CmdSpec.replied_ends {b : List Byte} (h : c.starts sl s = true) (hg : u.gac = s.gac) (hb : u.cul.bme = s.cul.bme) :
    c.replied sl s (.ok b) (c.ends sl s (.ok b) u) := by
  obtain ⟨hbme, hasync, -⟩ := CmdSpec.of_starts h
  have he : c.ends sl s (.ok b) u = u.putReply (c.held sl s) (.ok b) s.gacNow := by
    have hi : ¬ (Reply.ok b).status = St.internal := show ¬ St.done = St.internal by decide
    unfold CmdSpec.ends State.finish
    rw [if_neg hi, if_neg (by simp [hasync]), State.gacNow_congr hg]
  rw [he]
  exact State.reply_mem_putReply (x := c.held sl s) rfl (hb.trans hbme)

theorem CmdSpec.touches_ends (c : CmdSpec) (sl : Slot) (s : State) (r : Reply) (u : State) : u.Touches (c.ends sl s r u) [] :=
  State.Touches.refl.finish

end

/-! ### The device records -/

/-- From `s` to `t` only registers and NV change. -/
def State.Stores (s t : State) : Prop := ∃ r n, t = { s with regs := r, nv := n }

theorem State.Stores.journal (h : s.Stores u) {kind sector arg} : s.Stores (u.journal kind sector arg) := by
  obtain ⟨r, n, rfl⟩ := h
  exact ⟨_, _, rfl⟩

theorem State.Stores.nvErase (h : s.Stores u) {sec} : s.Stores (u.nvErase sec) := by
  obtain ⟨r, n, rfl⟩ := h
  exact ⟨_, _, rfl⟩

theorem State.Stores.if_ {p : Prop} {_ : Decidable p} (ht : s.Stores t) (hu : s.Stores u) : s.Stores (if p then t else u) := by
  split <;> assumption

theorem State.Stores.nvWrite (h : s.Stores u) {a bs} : s.Stores (u.nvWrite a bs) := by
  refine State.forEach_inv (P := s.Stores) (fun v _ hv => ?_) _ h
  obtain ⟨r, n, rfl⟩ := hv
  exact ⟨_, _, rfl⟩

theorem State.Stores.nvUnits (h : s.Stores u) {o from_ to_} : s.Stores (u.nvUnits o from_ to_) := by
  have hu : s.Stores (u.forEach ((List.range (if o.erase then o.count else 0)).filter (fun i => decide (from_ ≤ i) && decide (i < to_)))
      (fun v i => if i + 1 < (if o.erase then o.count else 0)
        then ((v.nvErase (o.sector + i)).journal jDone (o.sector + i) 0).journal jIntent (o.sector + i + 1) 0
        else (v.nvErase (o.sector + i)).journal jDone (o.sector + i) 0)) :=
    State.forEach_inv (P := s.Stores) (fun _ _ hv => .if_ hv.nvErase.journal.journal hv.nvErase.journal) _ h
  exact .if_ hu hu.nvWrite

/-- The records are written with a credential, which the twin then holds. -/
theorem State.recordWrite_eq (s : State) (keys : Tbl (Option OpKey)) (cred : Option (List Byte)) :
    ∃ r n, s.recordWrite keys cred = { s with regs := r, nv := n, twin := { s.twin with cred := cred } } := by
  have h : s.Stores ((s.journal jIntent (s.recordOp keys cred .reg .none).sector 0).nvUnits (s.recordOp keys cred .reg .none) 0
      (s.recordOp keys cred .reg .none).units) :=
    State.Stores.nvUnits (.journal ⟨_, _, rfl⟩)
  obtain ⟨r, n, hrn⟩ := h
  unfold State.recordWrite
  dsimp only
  rw [hrn]
  exact ⟨_, _, rfl⟩

end

end Sys2Proof.Machine

/-! # What the commands of the Polder come to (O41) -/

namespace Sys2Proof.Machine

open Sys2Proof.Laws

section

variable {s t u : State} {sl : Slot}

/-! ### The credential and what shows it -/

/-- From `s` to `t` only registers, NV and the twin change. -/
def State.Joins (s t : State) : Prop := ∃ r n w, t = { s with regs := r, nv := n, twin := w }

theorem State.Joins.gac (h : s.Joins t) : t.gac = s.gac := by obtain ⟨_, _, _, rfl⟩ := h; rfl

theorem State.Joins.cul (h : s.Joins t) : t.cul = s.cul := by obtain ⟨_, _, _, rfl⟩ := h; rfl

theorem State.Joins.keys (h : s.Joins t) : t.keys = s.keys := by obtain ⟨_, _, _, rfl⟩ := h; rfl

theorem State.Joins.mem (h : s.Joins t) : t.mem = s.mem := by obtain ⟨_, _, _, rfl⟩ := h; rfl

theorem State.Joins.setF (h : s.Joins u) {f x} : s.Joins (u.setF f x) := by
  obtain ⟨r, n, w, rfl⟩ := h
  exact ⟨_, _, _, rfl⟩

/-- From `s` to `t` only registers change. -/
def State.Shows (s t : State) : Prop := ∃ r, t = { s with regs := r }

theorem State.Shows.setF (h : s.Shows u) {f x} : s.Shows (u.setF f x) := by
  obtain ⟨r, rfl⟩ := h
  exact ⟨_, rfl⟩

theorem State.shows_showCred (s : State) : s.Shows s.showCred := by
  have h : s.Shows s := ⟨_, rfl⟩
  unfold State.showCred
  split
  exacts [h.setF.setF.setF, h.setF.setF.setF.setF]

theorem State.twin_showCred (s : State) : s.showCred.twin = s.twin := by
  obtain ⟨r, hr⟩ := s.shows_showCred
  rw [hr]

theorem State.Joins.showCred (h : s.Joins u) : s.Joins u.showCred := by
  obtain ⟨r, hr⟩ := u.shows_showCred
  rw [hr]
  obtain ⟨r', n, w, rfl⟩ := h
  exact ⟨_, _, _, rfl⟩

theorem bitsOf_word (v : Word) : bitsOf v.toNat 0 32 = v.toNat := by
  rw [bitsOf_eq, Nat.pow_zero, Nat.div_one, Nat.mod_eq_of_lt v.isLt]

/-- The register that shows the Polder reads as its field. -/
theorem State.toNat_rd_pldId (s : State) : (s.rd R.TWN_PLD_ID).toNat = s.f F.TWN_PLD_ID_ID := (bitsOf_word _).symm

theorem State.showCred_of_some {c : List Byte} (h : s.twin.cred = some c) : s.showCred.f F.TWN_PLD_ID_ID = credId c := by
  unfold State.showCred
  simp only [h]
  rw [State.f_setF_self _ _ _ (by decide)]
  exact Nat.mod_eq_of_lt (credId_lt c)

theorem State.showCred_of_none (h : s.twin.cred = none) :
    s.showCred.f F.TWN_PLD_ID_ID = 0 ∧ s.showCred.f F.TWN_PLD_STATUS_LEADER = 0 := by
  unfold State.showCred
  simp only [h]
  rw [State.f_setF_ne _ _ (by decide) rfl, State.f_setF_self _ _ _ (by decide), State.f_setF_self _ _ _ (by decide)]
  exact ⟨rfl, rfl⟩

/-- A credential that is taken is stored, fixes AUTH_PUB and is shown. -/
theorem State.takeCred_spec (s : State) (c : List Byte) : s.Joins (s.takeCred c) ∧ (s.takeCred c).twin.cred = some c ∧
    (s.takeCred c).twin.authPub = some (credAuth c) ∧ (s.takeCred c).f F.TWN_PLD_ID_ID = credId c := by
  obtain ⟨r, n, he⟩ := s.recordWrite_eq s.nv.opKeys (some c)
  unfold State.takeCred
  dsimp only
  rw [he]
  refine ⟨State.Joins.showCred ⟨_, _, _, rfl⟩, ?_, ?_, State.showCred_of_some rfl⟩
  · rw [State.twin_showCred]
  · rw [State.twin_showCred]

/-! ### CMD_PLD_STATUS -/

theorem exec_pldStatus (h : specPldStatus.starts sl s = true) :
    exec (.cmdPldStatus sl) s = .next (specPldStatus.ends sl s (.ok (packR [(4, (s.rd R.TWN_PLD_ID).toNat), (2, s.f F.TWN_PLD_STATUS_COUNTED),
      (1, s.f F.TWN_PLD_STATUS_LEADER), (8, s.rd64 R.TWN_PLD_CYC_LO)] [])) (specPldStatus.taken sl s)) := by
  have ht := specPldStatus.touches_taken sl s
  refine runCmd_done specPldStatus sl s _ _ h ?_
  unfold specPldStatus at ht ⊢
  dsimp only
  rw [ht.rd R.TWN_PLD_ID (by decide) (by simp), ht.f (by decide) (by simp), ht.f (by decide) (by simp), State.rd64,
    ht.rd R.TWN_PLD_CYC_LO (by decide) (by simp), ht.rd (R.TWN_PLD_CYC_LO + 4) (by decide) (by simp), ← State.rd64]

/-! ### CMD_PLD_JOIN -/

theorem joinCred_taken (card : Option (List Byte)) (sl : Slot) (s : State) :
    joinCred ((specPldJoin card).held sl s) ((specPldJoin card).taken sl s) card = joinCred ((specPldJoin card).held sl s) s card := by
  have ht : ((specPldJoin card).taken sl s).fb F.SCD_STS_ACTIVE = s.fb F.SCD_STS_ACTIVE :=
    State.fb_congr (((specPldJoin card).touches_taken sl s).f (by decide) (by simp))
  rw [joinCred, joinCred, ht]

theorem joinCred_of_check {card : Option (List Byte)} {h : Held} (hc : (specPldJoin card).check h u = none) :
    credId (joinCred h u card) = h.u 0 4 := by
  unfold specPldJoin refuse at hc
  dsimp only at hc
  split at hc
  next => cases hc
  next hok => exact (by simpa using hok : u.credGood (joinCred h u card) = true ∧ credId (joinCred h u card) = h.u 0 4).2

/-- A join takes its credential, which names the Polder of the command. -/
theorem exec_pldJoin {card : Option (List Byte)} (h : (specPldJoin card).starts sl s = true) {c : List Byte}
    (hc : c = joinCred ((specPldJoin card).held sl s) s card) :
    exec (.cmdPldJoin sl card) s = .next ((specPldJoin card).ends sl s (.ok []) (((specPldJoin card).taken sl s).takeCred c)) ∧
      credId c = ((specPldJoin card).held sl s).u 0 4 := by
  have hj := (joinCred_taken card sl s).trans hc.symm
  have hact : (specPldJoin card).act ((specPldJoin card).held sl s) ((specPldJoin card).taken sl s) =
      .done (.ok []) (((specPldJoin card).taken sl s).takeCred c) := by rw [← hj, specPldJoin]
  have hexec : exec (.cmdPldJoin sl card) s = runCmd (specPldJoin card) sl s := rfl
  rw [hexec, runCmd_done _ sl s _ _ h hact]
  refine ⟨rfl, ?_⟩
  obtain ⟨-, -, hcheck⟩ := CmdSpec.of_starts h
  exact hj ▸ joinCred_of_check hcheck

/-! ### CMD_PLD_LEAVE -/

/-- The state in which the device has left its Polder. -/
def State.left (s : State) : State :=
  let u := s.recordWrite s.nv.opKeys none
  ({ u with twin := { u.twin with cred := none, authPub := none, members := [], leaderIdx := none, scheds := [], handled := [], peerLeads := false } }).showCred.setF
    F.TWN_PLD_STATUS_COUNTED 0

theorem exec_pldLeave (h : specPldLeave.starts sl s = true) :
    exec (.cmdPldLeave sl) s = .next (specPldLeave.ends sl s (.ok []) (specPldLeave.taken sl s).left) :=
  runCmd_done specPldLeave sl s _ _ h rfl

theorem State.left_spec (s : State) : s.Joins s.left ∧ s.left.twin.cred = none ∧ s.left.twin.authPub = none ∧
    s.left.f F.TWN_PLD_ID_ID = 0 ∧ s.left.f F.TWN_PLD_STATUS_LEADER = 0 := by
  obtain ⟨r, n, he⟩ := s.recordWrite_eq s.nv.opKeys none
  unfold State.left
  dsimp only
  rw [he, State.twin_setF, State.twin_showCred, State.f_setF_ne _ _ (by decide) rfl, State.f_setF_ne _ _ (by decide) rfl]
  obtain ⟨hid, hlead⟩ := State.showCred_of_none (s := { s with
    regs := r, nv := n, twin := { s.twin with
      cred := none, authPub := none, members := [], leaderIdx := none, scheds := [], handled := [], peerLeads := false } }) rfl
  exact ⟨(State.Joins.showCred ⟨_, _, _, rfl⟩).setF, rfl, rfl, hid, hlead⟩

/-! ### CMD_PLD_KEY_SCHEDULE -/

theorem State.ks_setKs (s : State) (i : Nat) (k : KeySlot) (j : Nat) : (s.setKs i k).ks j = if j = i then k else s.ks j := by
  rw [State.ks, State.setKs, Tbl.get_set, ← State.ks]

theorem State.ks_congr (h : t.keys = s.keys) (i : Nat) : t.ks i = s.ks i := by rw [State.ks, State.ks, h]

/-- A slot with a rollover to come. -/
def KeySlot.pends (k : KeySlot) (n : Nat) (fold : Bool) : KeySlot := { k with rollPend := true, roll := n, fold := fold }

theorem State.ks_rollTake (s : State) (old new n grace : Nat) (fold : Bool) (i : Nat) : (s.rollTake old new n grace fold).ks i =
    ((s.setKs old { (s.ks old).pends n fold with succ := some new }).setKs new
      (((s.setKs old { (s.ks old).pends n fold with succ := some new }).ks new).pends n fold)).ks i := rfl

/-- A rollover that is taken changes keys alone. -/
theorem State.rollTake_eq (s : State) (old new n grace : Nat) (fold : Bool) : ∃ k, s.rollTake old new n grace fold = { s with keys := k } := by
  unfold State.rollTake
  dsimp only [State.setKs]
  exact ⟨_, rfl⟩

/-- The slots of a rollover that is taken: both are pending, and the new one shows its cycle. -/
theorem State.rollTake_spec (s : State) {old new n grace : Nat} {fold : Bool} (h : old ≠ new) :
    ((s.rollTake old new n grace fold).ks old).rollPend = true ∧ ((s.rollTake old new n grace fold).ks new).roll = n := by
  constructor
  · rw [State.ks_rollTake, State.ks_setKs, if_neg h, State.ks_setKs, if_pos rfl]
    rfl
  · rw [State.ks_rollTake, State.ks_setKs, if_pos rfl]
    rfl

/-- The schedule that a command makes. -/
def State.schedOf (s : State) (h : Held) : PldSched :=
  ⟨h.u 16 4, (s.ks (h.u 0 2)).id, (s.ks (h.u 2 2)).id, h.u 8 8, h.u 4 1, bitAt (h.u 5 1) 0⟩

/-- The state in which the leader has made a schedule on its own slots. -/
def State.scheduled (s : State) (h : Held) : State :=
  let u := s.rollTake (h.u 0 2) (h.u 2 2) (h.u 8 8) (h.u 4 1) (bitAt (h.u 5 1) 0)
  { u with twin := { u.twin with scheds := s.carried ++ [s.schedOf h], handled := u.twin.handled ++ [s.schedOf h] } }

theorem specPldKeySchedule_act (h : Held) (s : State) : specPldKeySchedule.act h s = .done (.ok []) (s.scheduled h) := rfl

theorem exec_pldKeySchedule (h : specPldKeySchedule.starts sl s = true) :
    exec (.cmdPldKeySchedule sl) s = .next (specPldKeySchedule.ends sl s (.ok [])
      ((specPldKeySchedule.taken sl s).scheduled (specPldKeySchedule.held sl s))) := by
  have hexec : exec (.cmdPldKeySchedule sl) s = runCmd specPldKeySchedule sl s := rfl
  rw [hexec, runCmd_done _ sl s _ _ h (specPldKeySchedule_act _ _)]

/-- A schedule that is made changes keys and the twin alone. -/
theorem State.scheduled_eq (s : State) (h : Held) : ∃ k w, s.scheduled h = { s with keys := k, twin := w } := by
  obtain ⟨k, hk⟩ := s.rollTake_eq (h.u 0 2) (h.u 2 2) (h.u 8 8) (h.u 4 1) (bitAt (h.u 5 1) 0)
  unfold State.scheduled
  dsimp only
  rw [hk]
  exact ⟨_, _, rfl⟩

theorem State.scheduled_gac_cul (s : State) (h : Held) : (s.scheduled h).gac = s.gac ∧ (s.scheduled h).cul = s.cul := by
  obtain ⟨k, w, hk⟩ := s.scheduled_eq h
  rw [hk]
  exact ⟨rfl, rfl⟩

theorem State.carried_congr (ht : t.twin = s.twin) (hg : t.gac = s.gac) : t.carried = s.carried := by
  rw [State.carried, State.carried, State.cycle, State.cycle, ht, hg]

theorem State.onlyIn_regs_cul_keys_twin_out {r c k w o} :
    s.onlyIn { s with regs := r, cul := c, keys := k, twin := w, out := o } [.regs, .cul, .keys, .twin, .out] :=
  ⟨fun p hp => by cases p with | regs | cul | keys | twin | out => simp at hp | _ => rfl, rfl⟩

end

end Sys2Proof.Machine

/-! # The Polder: the obligation O41 -/

namespace Sys2Proof.Machine

section

variable {s : State} {sl : Slot}

/-- What a member does with a beacon that passes every check. -/
theorem beaconRx_accepts {p : List Byte} {b : Beacon} (hm : s.pldMember = true) (hb : beaconOf p = some b) (hok : s.beaconOk p b = true) :
    ∃ t, exec (.beaconRx p) s = .next t ∧ t.rd R.TWN_PLD_SEQ = BitVec.ofNat 32 b.seq ∧ t.rd64 R.TWN_PLD_CYC_LO = b.cycle ∧
      t.twin.leaderIdx = some b.leader ∧ t.twin.lastBeacon = s.gac.passed ∧ t.f F.GAC_STATUS_CYCLE_SET = 1 ∧
      (s.numberedByPeer = false → t.gac.step =
        (if (b.cycle : Int) = (s.zeroNear b.tm).1 then s.gac.step else some ((b.cycle : Int) - (s.zeroNear b.tm).1))) ∧
      (s.numberedByPeer = true → t.gac = s.gac) ∧ (b.leader < credMember s.pldCred → t.pldLeads = false) ∧
      (∀ x ∈ b.scheds, x ∈ t.twin.handled) ∧ t.gac.acc = s.gac.acc ∧ t.mem = s.mem := by
  have hk := s.beaconKept_takeBeacon b
  obtain ⟨hgac, hstep⟩ := s.gac_beaconNumbers_step b
  refine ⟨_, exec_beaconRx_accepted hm hb hok, ?_, hk.cyc (beaconOf_cycle_lt hb), hk.leader, hk.last, ?_, fun hp => ?_, fun hp => ?_,
    hk.yields, hk.handled, ?_, hk.mem⟩
  · rw [hk.rd _ (by decide) (by decide), s.rd_seq_beaconShown b]
  · rw [hk.f (by decide) (by decide), s.f_cycleSet_beaconShown b]
  · rw [hk.gac, hstep, hp]
    simp
  · rw [hk.gac, s.gac_beaconNumbers b, hp]
    rfl
  · rw [hk.gac, hgac]

/-- Any other beacon is flagged. -/
theorem beaconRx_rejects {p : List Byte} (hm : s.pldMember = true) (hno : ∀ b, beaconOf p = some b → s.beaconOk p b = false) :
    ∃ t, exec (.beaconRx p) s = .next t ∧ bitAt (t.rd R.GAC_EVT).toNat F.GAC_EVT_BEACON_REJ.lo = true ∧ t.twin = s.twin ∧
      t.gac = s.gac ∧ t.keys = s.keys := by
  have ht : s.Touches (s.gacFlag F.GAC_EVT_BEACON_REJ.lo) [R.GAC_EVT] := s.gacFlag_touches
  exact ⟨_, exec_beaconRx_rejected hm hno, s.bitAt_raise (src := gacEvt) (by decide) rfl (by decide), ht.twin, ht.gac, ht.keys⟩

/-- A member that may lead does so when its wait has run out. -/
theorem leaderTimeout_leads (hm : s.pldMember = true) (hc : credLeader s.pldCred = true) (hl : s.pldLeads = false)
    (hp : s.numberedByPeer = false) (hw : s.twin.lastBeacon + 3 * credInt s.pldCred + 2 * credMember s.pldCred ≤ s.gac.passed) :
    ∃ t, exec .leaderTimeout s = .next t ∧ t.pldLeads = true ∧ bitAt (t.rd R.TWN_EVT).toNat 6 = true ∧ t.gac = s.gac ∧ t.twin = s.twin := by
  have ht := (s.setF F.TWN_PLD_STATUS_LEADER 1).touches_twnFlag (bit := 6) (item := leNat (s.ownDigest.take 4))
  refine ⟨_, exec_leaderTimeout_leads hm hc hl hp hw, ?_, State.bitAt_raise _ (src := twnEvt) (by decide) rfl (by decide), ?_, ?_⟩
  · rw [State.pldLeads, State.fb_congr (ht.f (by decide) (by decide)), State.fb, State.f_setF_self _ _ _ (by decide)]
    rfl
  · rw [ht.gac, State.gac_setF]
  · rw [ht.twin, State.twin_setF]

/-- A valid report is kept, and its member counted. -/
theorem reportRx_keeps {p : List Byte} (hm : s.pldMember = true) (hi : 0 < s.pldInt) (hok : s.reportOk p = true) :
    ∃ t, exec (.reportRx p) s = .next t ∧ t.member (beAt p 8 2) = some ⟨sliceB p 36 261, sliceB p 297 97, s.gac.passed⟩ ∧
      t.f F.TWN_PLD_STATUS_COUNTED = t.twin.members.length % 2 ^ 13 ∧ s.onlyIn t [.regs, .twin] := by
  have ht : (s.reported p).countMembers.Touches ((s.reported p).countMembers.irqAll 54) [] := State.Touches.refl.irqAll (by decide)
  refine ⟨_, exec_reportRx_kept hm hok, ?_, ?_, s.onlyIn_reported p⟩
  · rw [State.member, ht.twin, ← State.member, State.member_countMembers_reported hi]
    rfl
  · rw [ht.f (by decide) (by simp), ht.twin, State.countMembers_eq, State.f_setF_self _ _ _ (by decide), State.twin_setF]
    rfl

/-- A join stores its credential. -/
theorem pldJoin_stores {card : Option (List Byte)} {c : List Byte} (h : (specPldJoin card).starts sl s = true)
    (hc : c = joinCred ((specPldJoin card).held sl s) s card) :
    ∃ t, exec (.cmdPldJoin sl card) s = .next t ∧ t.twin.cred = some c ∧ t.twin.authPub = some (credAuth c) ∧ t.pldMember = true ∧
      (t.rd R.TWN_PLD_ID).toNat = credId c ∧ credId c = ((specPldJoin card).held sl s).u 0 4 ∧
      (specPldJoin card).replied sl s (.ok []) t ∧ t.keys = s.keys ∧ t.mem = s.mem := by
  have hs := (specPldJoin card).touches_taken sl s
  obtain ⟨hj, hcred, hauth, hid⟩ := ((specPldJoin card).taken sl s).takeCred_spec c
  obtain ⟨he, hu⟩ := exec_pldJoin h hc
  have ht := (specPldJoin card).touches_ends sl s (.ok []) (((specPldJoin card).taken sl s).takeCred c)
  refine ⟨_, he, ?_, ?_, ?_, ?_, hu, CmdSpec.replied_ends h (hj.gac.trans hs.gac) (by rw [hj.cul, hs.bme]), ?_, ?_⟩
  · rw [ht.twin, hcred]
  · rw [ht.twin, hauth]
  · rw [State.pldMember, ht.twin, hcred]
    rfl
  · rw [State.toNat_rd_pldId, ht.f (by decide) (by simp), hid]
  · rw [ht.keys, hj.keys, hs.keys]
  · rw [ht.mem, hj.mem, hs.mem]

/-- A leave ends the Polder's functions. -/
theorem pldLeave_ends (h : specPldLeave.starts sl s = true) :
    ∃ t, exec (.cmdPldLeave sl) s = .next t ∧ t.pldMember = false ∧ t.pldLeads = false ∧ t.twin.authPub = none ∧ t.rd R.TWN_PLD_ID = 0 ∧
      specPldLeave.replied sl s (.ok []) t ∧ t.keys = s.keys ∧ t.mem = s.mem := by
  have hs := specPldLeave.touches_taken sl s
  obtain ⟨hj, hcred, hauth, hid, hlead⟩ := (specPldLeave.taken sl s).left_spec
  have ht := specPldLeave.touches_ends sl s (.ok []) (specPldLeave.taken sl s).left
  refine ⟨_, exec_pldLeave h, ?_, ?_, ?_, ?_, CmdSpec.replied_ends h (hj.gac.trans hs.gac) (by rw [hj.cul, hs.bme]), ?_, ?_⟩
  · rw [State.pldMember, ht.twin, hcred]
    rfl
  · rw [State.pldLeads, State.fb, ht.f (by decide) (by simp), hlead]
    rfl
  · rw [ht.twin, hauth]
  · exact BitVec.eq_of_toNat_eq (by rw [State.toNat_rd_pldId, ht.f (by decide) (by simp), hid]; rfl)
  · rw [ht.keys, hj.keys, hs.keys]
  · rw [ht.mem, hj.mem, hs.mem]

/-- A schedule of the leader is carried, and made on its own slots. -/
theorem pldKeySchedule_makes (h : specPldKeySchedule.starts sl s = true)
    (hne : (specPldKeySchedule.held sl s).u 0 2 ≠ (specPldKeySchedule.held sl s).u 2 2) :
    ∃ t x, exec (.cmdPldKeySchedule sl) s = .next t ∧ t.twin.scheds = s.carried ++ [x] ∧ x.group = (specPldKeySchedule.held sl s).u 16 4 ∧
      x.cycle = (specPldKeySchedule.held sl s).u 8 8 ∧ x.oldId = (s.ks ((specPldKeySchedule.held sl s).u 0 2)).id ∧
      x.newId = (s.ks ((specPldKeySchedule.held sl s).u 2 2)).id ∧ (t.ks ((specPldKeySchedule.held sl s).u 0 2)).rollPend = true ∧
      (t.ks ((specPldKeySchedule.held sl s).u 2 2)).roll = x.cycle ∧ specPldKeySchedule.replied sl s (.ok []) t ∧
      s.onlyIn t [.regs, .cul, .keys, .twin, .out] := by
  have hs := specPldKeySchedule.touches_taken sl s
  have he := exec_pldKeySchedule h
  obtain ⟨hgac, hcul⟩ := (specPldKeySchedule.taken sl s).scheduled_gac_cul (specPldKeySchedule.held sl s)
  have hrep := CmdSpec.replied_ends (b := []) h (hgac.trans hs.gac) (by rw [hcul, hs.bme])
  have ht := specPldKeySchedule.touches_ends sl s (.ok []) ((specPldKeySchedule.taken sl s).scheduled (specPldKeySchedule.held sl s))
  generalize specPldKeySchedule.ends sl s (.ok []) ((specPldKeySchedule.taken sl s).scheduled (specPldKeySchedule.held sl s)) = t at he hrep ht
  generalize specPldKeySchedule.held sl s = x at *
  generalize specPldKeySchedule.taken sl s = u at *
  obtain ⟨hpend, hroll⟩ := u.rollTake_spec (n := x.u 8 8) (grace := x.u 4 1) (fold := bitAt (x.u 5 1) 0) hne
  refine ⟨t, u.schedOf x, he, ?_, rfl, rfl, ?_, ?_, ?_, ?_, hrep, ?_⟩
  · rw [ht.twin, ← State.carried_congr hs.twin hs.gac]
    rfl
  · rw [← State.ks_congr hs.keys]
    rfl
  · rw [← State.ks_congr hs.keys]
    rfl
  · rw [State.ks_congr ht.keys]
    exact hpend
  · rw [State.ks_congr ht.keys]
    exact hroll
  · obtain ⟨k, w, hk⟩ := u.scheduled_eq x
    obtain ⟨r, c, o, rfl⟩ := hs.eq
    obtain ⟨r', c', o', rfl⟩ := ht.eq
    rw [hk]
    exact s.onlyIn_regs_cul_keys_twin_out

end

/-- Settles O41: the frame path that a beacon or a report takes leaves the twin alone and forgets nothing that has left; the
schedules of a beacon change keys and TWIN events alone; and each command is its effect on the state in which its slot was taken,
followed by its reply. -/
theorem polder : Obligations.Polder := by
  unfold Obligations.Polder
  intro s
  refine ⟨?_, exec_beaconSend_idle, fun p b => beaconRx_accepts, fun p => beaconRx_rejects, ?_, ?_, fun x => State.handleSched_of_mem,
    leaderTimeout_leads, fun _ => exec_leaderTimeout_waits, ?_, fun p => reportRx_keeps, fun p => exec_reportRx_ignored,
    fun sl => exec_pldStatus, fun sl card c => pldJoin_stores, fun sl => pldLeave_ends, fun sl => pldKeySchedule_makes⟩
  · intro k hm hl hc hk
    obtain ⟨t, he, hout, hseq, hscheds⟩ := exec_beaconSend_sends hm hl hc hk
    exact ⟨t, s.beaconMsg k, he, hout, take_beaconMsg k, member_beaconMsg k, seq_beaconMsg k, cycle_beaconMsg k, hseq, hscheds⟩
  · intro x o n hx hc hg ho hn hr
    have ha : s.Accepts x x.cycle false o n := ⟨if_pos hc, ho, hn, hg, hr⟩
    rw [State.handleSched_of_accepts hx ha]
    exact ⟨rfl, rfl⟩
  · intro x hx ho
    rw [State.handleSched_of_no_old hx ho]
    exact ⟨(s.noted x).touches_twnFlag.keys, State.bitAt_raise _ (src := twnEvt) (by decide) rfl (by decide)⟩
  · intro k hm hc hk
    refine ⟨_, s.reportMsg k, exec_reportSend_due hm hc hk, State.polder_mem_pldInject .., take_reportMsg k, member_reportMsg k,
      cycle_reportMsg k, ?_, ?_⟩
    · rw [State.twin_pldInject, State.twin_sign]
    · rw [State.twin_pldInject, State.twin_sign]

end Sys2Proof.Machine

/-! # Arrival of a frame (O7) -/

namespace Sys2Proof.Machine

section ArrivalLaws

variable {s v w : State} {k : Fin 32} {wire : List Byte} {fcs : Bool} {cells : BitVec 8} {goose : Option GooseInfo} {ecc : Option EccHit}
  {pcs : PcsCount}

theorem exec_frameRx : exec (.frameRx k wire fcs cells goose ecc pcs) s = execFrameRx k wire fcs cells goose ecc pcs s := rfl

theorem exec_frameRx_down (h : s.laneUp k = false) : exec (.frameRx k wire fcs cells goose ecc pcs) s = .next s :=
  if_pos (by rw [h]; rfl)

/-- While HALT is in force a frame is only counted (R397). -/
theorem exec_frameRx_halted (hv : v = s.pcsCount k pcs) (hu : s.laneUp k = true) (hs : v.service ≠ 0) (hl : 4 ≤ v.level) :
    exec (.frameRx k wire fcs cells goose ecc pcs) s = .next (v.addF F.TMP_HALT_DROP_COUNT 1) := by
  subst hv
  rw [exec_frameRx]
  simp [execFrameRx, hu, hs, State.halted, hl]

/-- A direct lane takes a frame without E-tag as it is: service is on, no HALT is in force, no receive SecY takes the frame, and
its port is in service. -/
structure DirectRx (s v w : State) (k : Fin 32) (wire : List Byte) (pcs : PcsCount) : Prop where
  shown : v = s.pcsCount k pcs
  strobed : w = v.calReceive k
  up : s.laneUp k = true
  served : v.service ≠ 0
  free : v.level < 4
  direct : w.isExt k = false
  plain : bitAt (w.rd (w.secyOf k)).toNat 31 = false
  untagged : hasETag wire = false
  inService : w.oos k = false

/-- A frame of a direct port, counted and sorted by its headers (R53, R54, R76). -/
def State.arrive (w : State) (k : Nat) (wire : List Byte) (fcs : Bool) (cells : Nat) (goose : Option GooseInfo) (ecc : Option EccHit) : State :=
  let cfg := w.portCfg k (w.secyOf k)
  let u := w.countArrival k (frameLen wire) (frameLen wire) cfg.ctl fcs
  if frameLen wire < 64 then u.1
  else if (hdrsOf wire).et wire = 0x8808 || (reservedDa wire && !consumed false wire) then u.1.doIf (!u.2) (·.pc k 0x328)
  else if reservedDa wire then u.1
  else u.1.takeFrame k k (w.secyOf k) wire wire cfg false u.2 cells goose ecc

theorem exec_frameRx_direct (h : DirectRx s v w k wire pcs) :
    exec (.frameRx k wire fcs cells goose ecc pcs) s = .next (w.arrive k wire fcs cells.toNat goose ecc) := by
  obtain ⟨rfl, rfl, hup, hserv, hfree, hdir, hplain, htag, hoos⟩ := h
  have hin : ((s.pcsCount k pcs).calReceive k).ingress k wire = .port k wire := by simp [State.ingress, hdir, htag]
  rw [exec_frameRx]
  simp only [execFrameRx, hup, hserv, State.halted, Nat.not_le.2 hfree, hplain, hin, hoos, hdir, Bool.not_true, Bool.false_eq_true, if_false,
    decide_false, Nat.sub_zero, State.arrive, Option.isSome_none]
  split_ifs <;> rfl

theorem maxLen_ge (ctl : Word) : 64 ≤ maxLen ctl := Nat.le_max_left _ _

/-- A frame with a good FCS counts, and its octets. -/
def State.countGood (w : State) (k len : Nat) : State := (w.pc k 0x300).bump (0x200000 + k * 0x800 + 0x308) len

/-- A runt counts as a frame and as a runt, and nothing more is done with it. -/
theorem State.arrive_runt {k : Nat} (hlen : frameLen wire < 64) :
    w.arrive k wire true cells.toNat goose ecc = (w.countGood k (frameLen wire)).pc k 0x318 := by
  have hmax : ¬ maxLen (w.portCfg k (w.secyOf k)).ctl < frameLen wire := by have := maxLen_ge (w.portCfg k (w.secyOf k)).ctl; omega
  simp [State.arrive, State.countArrival, hlen, hmax, State.doIf, State.countGood]

/-! ### The Basin -/

theorem State.ctr_bump (s : State) (a n b : Nat) : (s.bump a n).ctr b = if b = a then (s.ctr a + n) % 2 ^ 64 else s.ctr b :=
  State.ctr_setCtr _ _ _ _

/-- What the headers of a frame count before it enters the Basin: another LAN's trailer, and that IP identification excludes it. -/
def State.countHeaders (s : State) (p : Nat) (wrong null : Bool) : State :=
  (s.doIf wrong (·.countWrongLan p)).doIf null (·.countParseNull p)

theorem State.countHeaders_eq (s : State) (p : Nat) (wrong null : Bool) : ∃ c, s.countHeaders p wrong null = { s with ctrs := c } := by
  have hw : ∃ c, s.doIf wrong (·.countWrongLan p) = { s with ctrs := c } :=
    State.doIf_inv (P := fun u => ∃ c, u = { s with ctrs := c }) ⟨s.ctrs, rfl⟩ ⟨_, rfl⟩
  obtain ⟨c, hc⟩ := hw
  unfold State.countHeaders
  rw [hc]
  exact State.doIf_inv (P := fun u => ∃ c, u = { s with ctrs := c }) ⟨c, rfl⟩ ⟨_, rfl⟩

theorem State.ctr_countHeaders (s : State) {p : Nat} {wrong null : Bool} {a : Nat} (h : a ≠ 0x200000 + p * 0x800 + 0x3A8) :
    (s.countHeaders p wrong null).ctr a = s.ctr a := by
  have hw : (s.doIf wrong (·.countWrongLan p)).ctr a = s.ctr a :=
    State.doIf_inv (P := fun u => u.ctr a = s.ctr a) rfl ((s.ctr_bump _ _ _).trans (if_neg h))
  exact State.doIf_inv (P := fun u => u.ctr a = s.ctr a) hw (((State.ctr_setCtr _ _ _ _).trans (if_neg h)).trans hw)

/-- A frame that enters the Basin, as its headers and its port give it. -/
structure Frame.Entered (f : Frame) (p cut : Nat) (b : List Byte) (cfg : PortCfg) (fault : Bool) (goose : Option GooseInfo) : Prop where
  port : f.port = p
  bytes : f.bytes = b
  fault : f.fault = fault
  verdict : f.verdict = none
  copies : f.copies = []
  key : f.key = matchedBytes (streamKey cut b cfg.ctl (bitsOf cfg.vid.toNat 0 12)).1
  goose : f.goose = gooseOf cut b goose

/-- A frame is added to those in the Basin. -/
def State.addFrame (s : State) (f : Frame) : State :=
  { s with fp := { s.fp with frames := s.fp.frames ++ [f], nextId := s.fp.nextId + 1 } }

theorem State.takeFrame_spec (s : State) (k p base : Nat) (wire b : List Byte) (cfg : PortCfg) (tagged fault : Bool) (cells : Nat)
    (goose : Option GooseInfo) (ecc : Option EccHit) : ∃ f wrong null, f.Entered p (if s.isExt k then 8 else 0) b cfg fault goose ∧
      s.takeFrame k p base wire b cfg tagged fault cells goose ecc = ((s.countHeaders p wrong null).addFrame f).lookup f ecc := by
  rcases hk : streamKey (if s.isExt k then 8 else 0) b cfg.ctl (bitsOf cfg.vid.toNat 0 12) with ⟨key, null⟩
  refine ⟨?f, wrongLan cfg.ctl b, null, ?entered, ?eq⟩
  case eq =>
    dsimp only [State.takeFrame]
    rw [hk]
    rfl
  case entered => exact ⟨rfl, rfl, rfl, rfl, rfl, by rw [hk], rfl⟩

/-- A good frame counts with its octets and enters the Basin. -/
theorem State.arrive_good {k : Nat} (hmin : 64 ≤ frameLen wire) (hmax : frameLen wire ≤ maxLen (w.rd (R.LNE_PORT_CTL k)))
    (hres : reservedDa wire = false) (hctl : (hdrsOf wire).et wire ≠ 0x8808) :
    w.arrive k wire true cells.toNat goose ecc = (w.countGood k (frameLen wire)).takeFrame k k (w.secyOf k) wire wire
      (w.portCfg k (w.secyOf k)) false false cells.toNat goose ecc := by
  have hm : ¬ maxLen (w.portCfg k (w.secyOf k)).ctl < frameLen wire := Nat.not_lt.2 hmax
  simp [State.arrive, State.countArrival, Nat.not_lt.2 hmin, hm, State.doIf, State.countGood, hres, hctl]

theorem State.pc_port {p off : Nat} (h : p < noPort) : w.pc p off = w.bump (0x200000 + p * 0x800 + off) 1 := if_pos h

theorem State.countGood_eq (w : State) {k len : Nat} (h : k < noPort) : ∃ c, w.countGood k len = { w with ctrs := c } := by
  rw [State.countGood, State.pc_port h]
  exact ⟨_, rfl⟩

theorem State.ctr_countGood (w : State) {k len : Nat} (h : k < noPort) :
    (w.countGood k len).ctr (0x200000 + k * 0x800 + 0x300) = (w.ctr (0x200000 + k * 0x800 + 0x300) + 1) % 2 ^ 64 ∧
      (w.countGood k len).ctr (0x200000 + k * 0x800 + 0x308) = (w.ctr (0x200000 + k * 0x800 + 0x308) + len) % 2 ^ 64 := by
  rw [State.countGood, State.pc_port h]
  refine ⟨?_, ?_⟩
  · rw [State.ctr_bump, if_neg (by omega), State.ctr_bump, if_pos rfl]
  · rw [State.ctr_bump, if_pos rfl, State.ctr_bump, if_neg (by omega)]

/-- A good frame is counted, enters the Basin and goes to its lookup. -/
theorem frameRx_enters (h : DirectRx s v w k wire pcs) (hmin : 64 ≤ frameLen wire) (hmax : frameLen wire ≤ maxLen (w.rd (R.LNE_PORT_CTL k)))
    (hres : reservedDa wire = false) (hctl : (hdrsOf wire).et wire ≠ 0x8808) :
    ∃ (f : Frame) (u : State), exec (.frameRx k wire true cells goose ecc pcs) s = .next (u.lookup f ecc) ∧
      u.fp.frames = w.fp.frames ++ [f] ∧ f.port = k.val ∧ f.bytes = wire ∧ f.fault = false ∧ f.verdict = none ∧ f.copies = [] ∧
      f.key = matchedBytes (streamKey 0 wire (w.rd (R.LNE_PORT_CTL k)) (bitsOf (w.rd (R.LNE_PORT_VID k)).toNat 0 12)).1 ∧
      f.goose = gooseOf 0 wire goose ∧
      u.ctr (0x200000 + k * 0x800 + 0x300) = (w.ctr (0x200000 + k * 0x800 + 0x300) + 1) % 2 ^ 64 ∧
      u.ctr (0x200000 + k * 0x800 + 0x308) = (w.ctr (0x200000 + k * 0x800 + 0x308) + frameLen wire) % 2 ^ 64 ∧
      u.regs = w.regs ∧ u.mem = w.mem := by
  have hk : k.val < noPort := Nat.lt_trans k.isLt (by decide)
  obtain ⟨f, wrong, null, ⟨hport, hbytes, hfault, hverdict, hcopies, hkey, hgoose⟩, he⟩ :=
    (w.countGood k (frameLen wire)).takeFrame_spec k k (w.secyOf k) wire wire (w.portCfg k (w.secyOf k)) false false cells.toNat goose ecc
  obtain ⟨hframes, hoctets⟩ := w.ctr_countGood (len := frameLen wire) hk
  obtain ⟨c, hc⟩ := w.countGood_eq (len := frameLen wire) hk
  obtain ⟨d, hd⟩ := (w.countGood k (frameLen wire)).countHeaders_eq k wrong null
  have hdir : (w.countGood k (frameLen wire)).isExt k = false := by
    rw [hc]
    exact h.direct
  rw [hdir] at hkey hgoose
  refine ⟨f, ((w.countGood k (frameLen wire)).countHeaders k wrong null).addFrame f, ?_, ?_, hport, hbytes, hfault, hverdict, hcopies, hkey,
    hgoose, ?_, ?_, ?_, ?_⟩
  · rw [exec_frameRx_direct h, State.arrive_good hmin hmax hres hctl, he]
  · rw [hd, hc]
    rfl
  · exact ((w.countGood k (frameLen wire)).ctr_countHeaders (by omega)).trans hframes
  · exact ((w.countGood k (frameLen wire)).ctr_countHeaders (by omega)).trans hoctets
  · rw [hd, hc]
    rfl
  · rw [hd, hc]
    rfl

end ArrivalLaws

/-- Settles O7: what a direct lane takes is `exec_frameRx_direct`; a frame that enters the Basin is `State.takeFrame_spec`. -/
theorem frameArrival : Obligations.FrameArrival := by
  unfold Obligations.FrameArrival
  intro s lane wire fcs cells goose ecc pcs v w hv hw
  refine ⟨exec_frameRx_down, exec_frameRx_halted hv, ?_, ?_⟩
  · intro hup hserv hfree hdir hplain htag hoos hlen hfcs
    subst hfcs
    have h : DirectRx s v w lane wire pcs := ⟨hv, hw, hup, hserv, hfree, hdir, hplain, htag, hoos⟩
    rw [exec_frameRx_direct h, State.arrive_runt hlen]
    rfl
  · intro hup hserv hfree hdir hplain htag hoos hmin hmax hfcs hres hctl
    subst hfcs
    exact frameRx_enters ⟨hv, hw, hup, hserv, hfree, hdir, hplain, htag, hoos⟩ hmin hmax hres hctl

end Sys2Proof.Machine

/-! # Fills, the verdict and the handover (O8) -/

namespace Sys2Proof.Machine

section ProgressLaws

variable {s : State}

/-! ### Frames that are dropped -/

/-- A frame that is replaced and then freed leaves the others as they were. -/
theorem filter_setFrame (f : Frame) (l : List Frame) :
    (l.map (fun g => if g.id = f.id then f else g)).filter (fun g => g.id ≠ f.id) = l.filter (fun g => g.id ≠ f.id) := by
  induction l with
  | nil => rfl
  | cons g l ih => by_cases h : g.id = f.id <;> simp_all

theorem State.countStream_eq (s : State) (e : Option GrvEntry) (off n : Nat) : ∃ c, s.countStream e off n = { s with ctrs := c } := by
  unfold State.countStream
  split
  · split <;> exact ⟨_, rfl⟩
  · exact ⟨_, rfl⟩

theorem State.pc_eq (s : State) (p off : Nat) : ∃ c, s.pc p off = { s with ctrs := c } := by
  unfold State.pc
  split <;> exact ⟨_, rfl⟩

/-- The frames but for one. -/
def State.framesBut (s : State) (id : Nat) : List Frame := s.fp.frames.filter (fun g => g.id ≠ id)

/-- A drop counts, and frees its frame. -/
theorem State.dropAt_eq (s : State) (f : Frame) (off : Nat) :
    ∃ c, s.dropAt f off = { s with ctrs := c, fp := { s.fp with frames := s.framesBut f.id } } := by
  have hd : ∃ c, s.dropFrame f = { s with ctrs := c, fp := { s.fp with frames := s.framesBut f.id } } := by
    unfold State.dropFrame State.countDiscard
    split
    · next g hg =>
      have hid : g.id = f.id := by simpa using List.find?_some hg
      split
      · exact ⟨_, rfl⟩
      · obtain ⟨c, hc⟩ := (s.setFrame { g with counted := true }).countStream_eq f.entry 0x18 1
        rw [hc]
        have hf := filter_setFrame { g with counted := true } s.fp.frames
        exact ⟨c, by rw [State.freeFrame, State.framesBut, ← hid, ← hf]; rfl⟩
    · exact ⟨_, rfl⟩
  obtain ⟨c, hc⟩ := hd
  obtain ⟨d, hd⟩ := (s.dropFrame f).pc_eq f.port off
  exact ⟨d, by rw [State.dropAt, hd, hc]⟩

theorem missTimeout_drops {i fill : Nat} {f : Frame} (hf : s.frame i = some f) (hp : f.phase = .waiting fill) :
    ∃ t, exec (.missTimeout i) s = .next t ∧ t.fp.frames = s.fp.frames.filter (fun g => g.id ≠ f.id) ∧ t.regs = s.regs ∧ t.mem = s.mem := by
  have he : exec (.missTimeout i) s = execMissTimeout i s := rfl
  obtain ⟨c, hc⟩ := s.dropAt_eq f 0x358
  rw [he]
  simp only [execMissTimeout, hf, hp, hc]
  split <;> exact ⟨_, rfl, rfl, rfl, rfl⟩

/-! ### Fills -/

/-- A line that is as it was written, read: its entry, or what poison makes of it; the state stays. -/
theorem State.lineRead_written {r e : Nat} (h : (s.line r e).flips = []) :
    s.lineRead r e none = (s, if (s.line r e).poison then .bad else .good (s.line r e).entry false) := by
  unfold State.lineRead
  simp only [h, Bool.false_eq_true, if_false, if_true]
  split <;> rfl

/-- A fold whose every step leaves its start. -/
theorem foldl_eq_self {α β : Type} {g : β → α → β} {b : β} {l : List α} (h : ∀ a ∈ l, g b a = b) : l.foldl g b = b := by
  induction l with
  | nil => rfl
  | cons a l ih =>
    rw [List.foldl_cons, h a (by simp)]
    exact ih fun x hx => h x (by simp [hx])

theorem Fill.length_lines (x : Fill) : x.lines.length = 8 := by simp [Fill.lines, linesOf]

/-- A fill whose lines are as they were written and hold no entry finds none. -/
theorem State.readFill_absent {x : Fill}
    (h : ∀ e ∈ x.lines, (s.line x.region e).poison = false ∧ (s.line x.region e).flips = [] ∧ (s.line x.region e).entry.valid = false) :
    s.readFill x [] = (s, .absent) := by
  refine foldl_eq_self fun i hi => ?_
  have hlt : i < x.lines.length := by rw [x.length_lines]; simpa using hi
  obtain ⟨hp, hf, hv⟩ := h (x.lines.getD i 0) (by simp [hlt])
  have hr : s.lineRead x.region (x.lines.getD i 0) none = (s, .good (s.line x.region (x.lines.getD i 0)).entry false) := by
    rw [State.lineRead_written hf, hp]
    rfl
  simp only [fillLook, List.find?_nil, Option.map_none, hr, hv, Bool.false_and, Bool.false_eq_true, if_false]

/-- What is known of the longest fill. -/
def State.fillLatency (s : State) (x : Fill) : Nat := max (s.f F.GRV_FILL_LAT_MAX_MAX) (min (2 ^ 32 - 1) ((s.gac.now - x.tick) * 4 / 5))

/-- A fill has ended: it is no longer among those outstanding, and its latency counts. -/
def State.endFill (s : State) (x : Fill) : State :=
  { s with grv := { s.grv with fills := s.grv.fills.filter (·.id ≠ x.id) } }.setF F.GRV_FILL_LAT_MAX_MAX (s.fillLatency x)

/-- What a fill has read goes to Copse and to the frames that wait for it, and no NEGATIVE entry is held for it any longer. -/
def State.settleFill (x : Fill) (got : State × FillGot) : State :=
  let s := got.1.placeFill x got.2
  (s.forEach ((s.waitingOn x.id).map (·.id)) (fun s id => match s.frame id with | some f => s.proceed got.2 f | none => s)).releaseHold x.id

theorem exec_groveFillReturn {i : Nat} {x : Fill} {errs : List (Fin 8 × LineErr)} (hx : s.grv.fills.find? (·.id = i) = some x) :
    exec (.groveFillReturn i errs) s = .next (State.settleFill x ((s.endFill x).readFill x errs)) := by
  have he : exec (.groveFillReturn i errs) s = execGroveFillReturn i errs s := rfl
  obtain rfl : x.id = i := by simpa using List.find?_some hx
  rw [he, execGroveFillReturn, hx]
  rfl

/-- A fill that finds no entry, for which no frame waits, ends; without NEGATIVE caching that is all. -/
theorem State.settleFill_absent {x : Fill} (hc : s.copseNow x.key = none) (hw : s.waitingOn x.id = []) (ht : s.f F.CPS_CTL_NEG_TTL = 0) :
    State.settleFill x (s, .absent) = s.releaseHold x.id := by
  have hp : s.placeFill x .absent = s := by simp [State.placeFill, hc, State.doIf, ht]
  simp only [State.settleFill, hp, hw, List.map_nil, State.forEach, List.foldl_nil]

theorem groveFillReturn_absent {i : Nat} {x : Fill} (hx : s.grv.fills.find? (·.id = i) = some x) (hc : s.copseNow x.key = none)
    (hw : s.waitingOn i = []) (ht : s.f F.CPS_CTL_NEG_TTL = 0)
    (hl : ∀ e ∈ x.lines, (s.line x.region e).poison = false ∧ (s.line x.region e).flips = [] ∧ (s.line x.region e).entry.valid = false) :
    ∃ t, exec (.groveFillReturn i []) s = .next t ∧ t.grv.fills = s.grv.fills.filter (·.id ≠ i) ∧ t.grv.copse = (s.releaseHold i).grv.copse ∧
      t.grv.lines = s.grv.lines ∧ t.fp = s.fp ∧ (∀ a, a ≠ R.GRV_FILL_LAT_MAX → t.rd a = s.rd a) := by
  obtain rfl : x.id = i := by simpa using List.find?_some hx
  have hread : (s.endFill x).readFill x [] = (s.endFill x, .absent) := State.readFill_absent hl
  have httl : (s.endFill x).f F.CPS_CTL_NEG_TTL = 0 := (State.f_setF_ne _ _ (by decide) rfl).trans ht
  refine ⟨(s.endFill x).releaseHold x.id, ?_, rfl, rfl, rfl, rfl, fun a ha => State.rd_setF_ne _ _ ha⟩
  rw [exec_groveFillReturn hx, hread, State.settleFill_absent (s := s.endFill x) hc hw httl]

/-! ### The verdict -/

/-- A frame without protection, entry or fault, no copy of which is spoilt, passes every check of R106. -/
theorem frameVerdict_unprotected {i : Nat} {f : Frame} {agree : Bool} (hf : s.frame i = some f) (hp : f.phase = .admitted)
    (hv : f.verdict = none) (hfault : f.fault = false) (hs : f.secy = none) (he : f.entry = none) (hpo : f.poison = false)
    (hd : f.dipped = false) (hc : f.copies = []) :
    exec (.frameVerdict i agree none none) s = .next (s.setFrame { f with verdict := some .pass }) := by
  have hx : exec (.frameVerdict i agree none none) s = execFrameVerdict i agree none none s := rfl
  have hm : s.macsecCheck f agree = (s, ⟨.ok, none, none⟩) := by simp [State.macsecCheck, hs, Checked.only]
  have ht : s.tagCheck f agree = (s, ⟨.ok, none, none⟩) := by simp [State.tagCheck, he, Checked.only]
  have hr : s.replayCheck f = true := by simp [State.replayCheck, he]
  have hpass (u : State) : u.verdictPassed f ⟨.ok, none, none⟩ = u := by
    simp [State.verdictPassed, hs, Frame.replaySeq, he]
  rw [hx]
  simp [execFrameVerdict, hf, hp, hv, hfault, hm, ht, hr, hpass, he, hpo, hd, hc, State.doIf, State.eccRead, verdictOf,
    State.countStream]

/-! ### Ways that end -/

/-- A way of a set that has been swapped out ends. -/
def endSwapped (epoch : Nat) (w : CpsWay) : Option CpsWay := match w.upto with
  | some u => if u ≤ epoch then none else some w
  | none => some w

theorem endSwapped_spec {epoch u : Nat} {w x : CpsWay} (h : endSwapped epoch w = some x) (hu : x.upto = some u) : epoch < u := by
  unfold endSwapped at h
  split at h
  · split at h
    · cases h
    · cases h
      simp_all
  · cases h
    simp_all

/-- Every way in use comes, after a change of the ways, of one before. -/
theorem State.of_mem_mapWays {g : CpsWay → Option CpsWay} {i : Nat} {w : CpsWay} (h : (i, some w) ∈ (s.mapWays g).grv.copse) :
    ∃ x, (i, some x) ∈ s.grv.copse ∧ g x = some w := by
  simp only [State.mapWays, List.mem_filterMap] at h
  obtain ⟨⟨j, y⟩, hy, he⟩ := h
  cases y with
  | none => simp at he
  | some x =>
    simp only [Option.bind_some, Option.map_eq_some_iff, Prod.mk.injEq, Option.some.injEq] at he
    obtain ⟨z, hz, rfl, rfl⟩ := he
    exact ⟨x, hy, hz⟩

theorem staticEntryFree_frees :
    ∃ t, exec .staticEntryFree s = .next t ∧ t.cfg = s.cfg ∧ t.regs = s.regs ∧
      ∀ x ∈ t.grv.copse, ∀ w u, x.2 = some w → w.upto = some u → s.cfg.epoch < u := by
  refine ⟨s.mapWays (endSwapped s.cfg.epoch), rfl, rfl, rfl, ?_⟩
  rintro ⟨i, _⟩ hx w u rfl hu
  obtain ⟨y, -, hy⟩ := State.of_mem_mapWays hx
  exact endSwapped_spec hy hu

end ProgressLaws

/-- Settles O8: a drop is `State.dropAt_eq`, the end of a fill `State.settleFill_absent`, the verdict `frameVerdict_unprotected`. -/
theorem frameProgress : Obligations.FrameProgress := by
  unfold Obligations.FrameProgress
  intro s
  refine ⟨fun _ _ _ => missTimeout_drops, fun _ _ => groveFillReturn_absent, fun _ _ _ => frameVerdict_unprotected, ?_, ?_,
    staticEntryFree_frees⟩
  · intro p c f h
    have he : exec (.egressHandover p c) s = execEgressHandover p c s := rfl
    rw [he, execEgressHandover, h]
  · intro i w hw hn ht hh
    have he : exec (.negEntryExpire i) s = execNegEntryExpire i s := rfl
    rw [he, execNegEntryExpire, hw]
    simp [hn, ht, hh]

end Sys2Proof.Machine

/-! # The Grove commands (O46) -/

namespace Sys2Proof.Machine

/-! ### What a command finds of Grove when it begins, and leaves when it ends -/

section SlotLaws

variable {s t u : State} {l : List Nat}

theorem State.Touches.grv (h : s.Touches t l) : t.grv = s.grv := by obtain ⟨r, c, o, rfl⟩ := h.eq; rfl

theorem State.Touches.cfg (h : s.Touches t l) : t.cfg = s.cfg := by obtain ⟨r, c, o, rfl⟩ := h.eq; rfl

theorem State.Touches.ctrs (h : s.Touches t l) : t.ctrs = s.ctrs := by obtain ⟨r, c, o, rfl⟩ := h.eq; rfl

theorem State.way_congr (h : t.grv.copse = s.grv.copse) (i : Nat) : t.way i = s.way i := by rw [State.way, State.way, h]

theorem State.line_congr (h : t.grv.lines = s.grv.lines) (r e : Nat) : t.line r e = s.line r e := by rw [State.line, State.line, h]

theorem State.link_congr (h : t.grv = s.grv) (j : Nat) : t.link j = s.link j := by rw [State.link, State.link, h]

theorem State.Touches.way (h : s.Touches t l) (i : Nat) : t.way i = s.way i := State.way_congr (by rw [h.grv]) i

theorem State.Touches.line (h : s.Touches t l) (r e : Nat) : t.line r e = s.line r e := State.line_congr (by rw [h.grv]) r e

theorem State.Touches.link (h : s.Touches t l) (j : Nat) : t.link j = s.link j := State.link_congr h.grv j

theorem State.Touches.region (h : s.Touches t []) : t.region = s.region := h.f rfl (by simp)

theorem State.Touches.kInForce (h : s.Touches t []) : t.kInForce = s.kInForce := h.f rfl (by simp)

theorem State.keyLines_congr (hg : t.grv = s.grv) (hk : t.kInForce = s.kInForce) (key : List Byte) : t.keyLines key = s.keyLines key := by
  rw [State.keyLines, State.keyLines, hg, hk]

end SlotLaws

/-! ### Changes of Copse alone -/

/-- From `s` to `t` only ways of Copse, the hands of its sweep and poison marks change. -/
def State.Copses (s t : State) : Prop := ∃ c h e, t = { s with grv := { s.grv with copse := c, hands := h }, ecc := e }

section CopseLaws

variable {s t u : State}

theorem State.Copses.refl : s.Copses s := ⟨_, _, _, rfl⟩

theorem State.Copses.trans (h : s.Copses t) (g : t.Copses u) : s.Copses u := by
  obtain ⟨c, d, e, rfl⟩ := h
  obtain ⟨c', d', e', rfl⟩ := g
  exact ⟨c', d', e', rfl⟩

theorem State.copses_setWay (s : State) (i : Nat) (w : Option CpsWay) : s.Copses (s.setWay i w) := ⟨_, _, _, rfl⟩

theorem State.copses_writeWay (s : State) (i : Nat) (w : CpsWay) : s.Copses (s.writeWay i w) := ⟨_, _, _, rfl⟩

theorem State.way_writeWay (s : State) (i : Nat) (w : CpsWay) (j : Nat) : (s.writeWay i w).way j = if j = i then some w else s.way j :=
  s.way_setWay i (some w) j

theorem State.Copses.rest (h : s.Copses t) : t.keys = s.keys ∧ t.mem = s.mem ∧ t.cfg = s.cfg := by
  obtain ⟨c, d, e, rfl⟩ := h
  exact ⟨rfl, rfl, rfl⟩

/-- No way is DIRTY. -/
def State.Clean (s : State) : Prop := ∀ i w, s.way i = some w → w.st ≠ .dirty

/-- A change of Copse after which no way is DIRTY. -/
def State.CleanCopses (s t : State) : Prop := s.Copses t ∧ t.Clean

theorem State.CleanCopses.sweepLook {acc : State × Option Nat} (h : s.CleanCopses acc.1) {q} : s.CleanCopses (Machine.sweepLook acc q).1 := by
  obtain ⟨hc, hd⟩ := h
  dsimp only [Machine.sweepLook]
  split
  · exact ⟨hc, hd⟩
  · split
    · next w hw =>
      split
      · split
        · refine ⟨hc.trans (acc.1.copses_setWay _ _), fun i x hx => ?_⟩
          rw [State.way_setWay] at hx
          split at hx
          · cases hx
            exact hd _ w hw
          · exact hd i x hx
        · exact ⟨hc.trans ⟨_, _, _, rfl⟩, hd⟩
      · exact ⟨hc, hd⟩
    · exact ⟨hc, hd⟩

theorem State.CleanCopses.sweepLooks {acc : State × Option Nat} (h : s.CleanCopses acc.1) (l : List (Bool × CpsState × Nat)) :
    s.CleanCopses (l.foldl Machine.sweepLook acc).1 := by
  induction l generalizing acc with
  | nil => exact h
  | cons q l ih => exact ih h.sweepLook

/-- Where no way is DIRTY, finding a place for an entry writes nothing back. -/
theorem State.Clean.copses_fillPlace (h : s.Clean) (key : List Byte) : s.Copses (s.fillPlace key).1 := by
  have hl (l : List (Bool × CpsState × Nat)) : s.CleanCopses (l.foldl Machine.sweepLook (s, none)).1 :=
    State.CleanCopses.sweepLooks (acc := (s, none)) ⟨.refl, h⟩ l
  dsimp only [State.fillPlace]
  split
  · exact .refl
  · split
    · next i hi =>
      obtain ⟨hc, hd⟩ := hl _
      dsimp only
      split
      · next w hw =>
        rw [State.writeBack, if_pos (hd _ w hw)]
        exact hc.trans (State.copses_setWay _ _ _)
      · exact hc
    · exact (hl _).1

theorem State.Clean.copses_keepWay (h : s.Clean) (w : CpsWay) : s.Copses (s.keepWay w).1 := by
  have hp := h.copses_fillPlace w.entry.mkey
  unfold State.keepWay
  split
  · next e =>
    rw [e] at hp
    exact hp.trans (State.copses_writeWay _ _ _)
  · next e =>
    rw [e] at hp
    exact hp

end CopseLaws

/-! ### What a read of a line leaves alone -/

/-- The registers that say how Grove stands and what a NEGATIVE entry starts from. -/
def groveCtl (a : Nat) : Bool := decide (a ∈ [R.GRV_CTL, R.GRV_STATUS, R.CPS_CTL])

theorem evtFree_of_groveCtl {a : Nat} (h : groveCtl a = true) : evtFree a = true := by
  simp only [groveCtl, List.mem_cons, List.not_mem_nil, or_false, decide_eq_true_eq] at h
  obtain rfl | rfl | rfl := h <;> rfl

/-- From `s` to `t` Grove, its control, the configuration, memory and the keys stay. -/
structure State.Aside (s t : State) : Prop where
  grv : t.grv = s.grv
  cfg : t.cfg = s.cfg
  mem : t.mem = s.mem
  keys : t.keys = s.keys
  rd : ∀ a, groveCtl a = true → t.rd a = s.rd a

section AsideLaws

variable {s t u : State}

theorem State.Aside.refl : s.Aside s := ⟨rfl, rfl, rfl, rfl, fun _ _ => rfl⟩

theorem State.Aside.trans (h : s.Aside t) (g : t.Aside u) : s.Aside u :=
  ⟨g.grv.trans h.grv, g.cfg.trans h.cfg, g.mem.trans h.mem, g.keys.trans h.keys, fun a ha => (g.rd a ha).trans (h.rd a ha)⟩

theorem State.Touches.aside {l : List Nat} (h : s.Touches t l) (hl : ∀ a ∈ l, groveCtl a = false) : s.Aside t :=
  ⟨h.grv, h.cfg, h.mem, h.keys, fun a ha => h.rd a (evtFree_of_groveCtl ha) fun hm => absurd ((hl a hm).symm.trans ha) (by decide)⟩

/-- A field of Grove's control reads as before. -/
theorem State.Aside.f (h : s.Aside t) {g : Fld} (hg : groveCtl g.addr = true) : t.f g = s.f g := by rw [State.f, State.f, h.rd _ hg]

theorem State.Aside.if_ {p : Prop} {_ : Decidable p} (ht : s.Aside t) (hu : s.Aside u) : s.Aside (if p then t else u) := by
  split <;> assumption

theorem State.Aside.doIf (h : s.Aside u) {c g} (hg : ∀ t, s.Aside t → s.Aside (g t)) : s.Aside (u.doIf c g) :=
  State.doIf_inv (P := s.Aside) h (hg u h)

/-- Errors of memory, the log of alarms, the report of the boot and random bits lie elsewhere. -/
theorem State.Aside.elsewhere (h : s.Aside u) {e b r g} : s.Aside { u with ecc := e, berm := b, boot := r, rng := g } :=
  ⟨h.grv, h.cfg, h.mem, h.keys, h.rd⟩

theorem State.Aside.wr (h : s.Aside u) {a v} (ha : groveCtl a = false) : s.Aside (u.wr a v) := by
  refine h.trans ⟨rfl, rfl, rfl, rfl, fun b hb => u.rd_wr_ne v ?_⟩
  rintro rfl
  exact absurd (ha.symm.trans hb) (by decide)

theorem State.Aside.setF (h : s.Aside u) {f x} (hf : groveCtl f.addr = false) : s.Aside (u.setF f x) := h.wr hf

theorem State.Aside.post (h : s.Aside u) {ev : Event} (hc : ev.cls < 16) : s.Aside (u.post ev) :=
  h.trans ((State.Touches.refl (l := []).post hc).aside (by simp))

theorem State.Aside.raise (h : s.Aside u) {src bit data} (hc : src.cls < 16) (hs : groveCtl src.evt = false) : s.Aside (u.raise src bit data) :=
  h.trans ((State.Touches.refl (l := [src.evt]).raise hc (by simp)).aside (by simpa using hs))

theorem State.Aside.tmpFlag (h : s.Aside u) {bit src} : s.Aside (u.tmpFlag bit src) := (h.wr rfl).if_ (h.raise (by decide) rfl)

theorem State.Aside.raiseLevel (h : s.Aside u) {lvl src} : s.Aside (u.raiseLevel lvl src) := (h.setF rfl).tmpFlag.if_ h

theorem State.Aside.tmpLogAt (h : s.Aside u) {src lvl data g} : s.Aside (u.tmpLogAt src lvl data g) :=
  State.Aside.doIf (((h.elsewhere.setF rfl).setF rfl).setF rfl) fun _ h => h.tmpFlag

theorem State.Aside.notify (h : s.Aside u) {src} : s.Aside (u.notify src) :=
  (h.raiseLevel.tmpLogAt.post (by decide : 7 < 16)).if_ h.raiseLevel.tmpLogAt

theorem State.Aside.blaze (h : s.Aside u) {region addr kind} : s.Aside (u.blaze region addr kind) :=
  h.elsewhere.if_ ((((h.setF rfl).elsewhere.raise (by decide) rfl).if_ (h.setF rfl).elsewhere).if_ h.elsewhere)

theorem groveCtl_of_le {a : Nat} (h : 0xC0000 ≤ a) : groveCtl a = false := by
  simp only [groveCtl, R.GRV_CTL, R.GRV_STATUS, R.CPS_CTL, List.mem_cons, List.not_mem_nil, or_false, decide_eq_false_iff_not]
  omega

theorem State.Aside.eccCorr (h : s.Aside u) {region addr symbols} : s.Aside (u.eccCorr region addr symbols) :=
  State.Aside.blaze (h.setF (groveCtl_of_le (by simp only [F.ECC_CORR_COUNT]; omega)))

theorem State.Aside.grvFlag (h : s.Aside u) {bit link entry} : s.Aside (u.grvFlag bit link entry) := h.raise (by decide) rfl

end AsideLaws

/-- The state with other lines in Grove. -/
def State.withLines (s : State) (l : Tbl GrvLine) : State := { s with grv := { s.grv with lines := l } }

/-- From `s` to `t` of Grove at most lines change, as a read of lines may do. -/
def State.Reads (s t : State) : Prop := ∃ l, (s.withLines l).Aside t

section ReadLaws

variable {s t u : State}

theorem State.Reads.refl : s.Reads s := ⟨s.grv.lines, .refl⟩

theorem State.Reads.aside (h : s.Reads u) (g : u.Aside t) : s.Reads t := by
  obtain ⟨l, hl⟩ := h
  exact ⟨l, hl.trans g⟩

theorem State.Reads.ifFst {β : Type} {a b : State} {x y : β} {p : Prop} {_ : Decidable p} (ha : s.Reads a) (hb : s.Reads b) :
    s.Reads (if p then (a, x) else (b, y)).1 := by
  split <;> assumption

theorem State.Reads.setLine (h : s.Reads u) {r e l} : s.Reads (u.setLine r e l) := by
  obtain ⟨m, hgrv, hcfg, hmem, hkeys, hrd⟩ := h
  refine ⟨(u.setLine r e l).grv.lines, ?_, hcfg, hmem, hkeys, hrd⟩
  have hg : u.grv = { s.grv with lines := m } := hgrv
  simp only [State.setLine, State.withLines, hg]

theorem State.Reads.lineBad (h : s.Reads u) {r e} : s.Reads (u.lineBad r e) := by
  unfold State.lineBad
  extract_lets l t t'
  have ht : s.Reads t := h.setLine
  split
  exacts [h, ht.aside ((State.Aside.refl.setF rfl).setF rfl).grvFlag]

theorem State.Reads.lineUncorr (h : s.Reads u) {r e} : s.Reads (u.lineUncorr r e) := by
  unfold State.lineUncorr
  split
  · exact h
  · refine State.Reads.lineBad (h.aside (.raise (.wr (.wr (.setF .refl ?_) rfl) rfl) (by decide) rfl))
    exact groveCtl_of_le (by simp only [F.ECC_UNCORR_COUNT]; omega)

theorem State.Reads.lineRead (h : s.Reads u) {r e err} : s.Reads (u.lineRead r e err).1 := by
  have hfix {l : GrvLine} {n : Nat} : s.Reads ((u.setLine r e l).doIf (decide (0 < n)) (·.eccCorr (10 + r) (lineOfs r e) n)) :=
    h.setLine.aside (State.Aside.refl.doIf fun _ h => h.eccCorr)
  dsimp only [State.lineRead]
  refine .ifFst h (.ifFst h.lineUncorr (.ifFst h ?_))
  split
  · exact h.setLine.lineUncorr
  · exact .ifFst (State.Reads.lineBad (hfix.aside (State.Aside.setF .refl rfl).grvFlag.notify)) hfix

theorem State.Reads.seeLines (h : s.Reads u) {key} : s.Reads (u.seeLines key) :=
  State.forEach_inv (fun _ _ ht => ht.lineRead) _ h

end ReadLaws

/-! ### The line of a key -/

/-- Two states hold the same lines under the same keys. -/
structure State.SameLines (s t : State) : Prop where
  lines : t.grv.lines = s.grv.lines
  enc : t.grv.kgEnc = s.grv.kgEnc
  mac : t.grv.kgMac = s.grv.kgMac

section LineLaws

variable {s t : State}

theorem State.SameLines.of_eq (h : t.grv = s.grv) : s.SameLines t := by constructor <;> rw [h]

theorem State.Copses.sameLines (h : s.Copses t) : s.SameLines t := by
  obtain ⟨c, d, e, rfl⟩ := h
  exact ⟨rfl, rfl, rfl⟩

theorem State.SameLines.line (h : s.SameLines t) (r e : Nat) : t.line r e = s.line r e := State.line_congr h.lines r e

theorem State.SameLines.lineMac (h : s.SameLines t) (r e lver : Nat) (b : List Byte) : t.lineMac r e lver b = s.lineMac r e lver b := by
  rw [State.lineMac, State.lineMac, h.mac]

theorem State.SameLines.sealLine (h : s.SameLines t) (r e lver : Nat) (x : GrvEntry) (p : Bool) :
    t.sealLine r e lver x p = s.sealLine r e lver x p := by
  simp only [State.sealLine, h.lineMac, h.enc]

theorem State.SameLines.lineBytes (h : s.SameLines t) (r e : Nat) (l : GrvLine) : t.lineBytes r e l = s.lineBytes r e l := by
  simp only [State.lineBytes, h.sealLine]

theorem State.SameLines.setLine (h : s.SameLines t) (r e : Nat) (l : GrvLine) : (s.setLine r e l).SameLines (t.setLine r e l) :=
  ⟨by rw [State.setLine, State.setLine, h.lines], h.enc, h.mac⟩

theorem State.SameLines.aside {u v : State} (h : s.SameLines t) (hu : s.Aside u) (hv : t.Aside v) : u.SameLines v := by
  constructor <;> rw [hu.grv, hv.grv]
  exacts [h.lines, h.enc, h.mac]

/-- What a line yields to a read depends on the lines and their keys alone. -/
theorem State.SameLines.lineRead (h : s.SameLines t) (r e : Nat) : (t.lineRead r e none).2 = (s.lineRead r e none).2 := by
  have hfix (u : State) (n : Nat) : u.Aside (u.doIf (decide (0 < n)) (·.eccCorr (10 + r) (lineOfs r e) n)) :=
    State.Aside.refl.doIf fun _ h => h.eccCorr
  unfold State.lineRead
  simp only [h.line, (h.setLine r e (s.line r e)).lineBytes]
  split
  · rfl
  · split
    · rfl
    · split
      · rfl
      · split
        · rfl
        · next b n _ =>
          have hs := (h.setLine r e (s.line r e)).aside (hfix _ n) (hfix _ n)
          simp only [hs.lineMac, hs.enc]
          split <;> rfl

theorem State.SameLines.lineEntry (h : s.SameLines t) (r e : Nat) : t.lineEntry r e = s.lineEntry r e := by
  rw [State.lineEntry, State.lineEntry, h.lineRead]

theorem State.SameLines.findLine (h : s.SameLines t) (r : Nat) (key : List Byte) : t.findLine r key = s.findLine r key := by
  simp only [State.findLine, State.validLines, h.lineEntry, h.lines]

theorem State.SameLines.writeLine (h : s.SameLines t) (r e : Nat) (x : GrvEntry) : (s.writeLine r e x).SameLines (t.writeLine r e x) := by
  simp only [State.writeLine, State.writeLineAs, h.line, h.sealLine]
  exact h.setLine _ _ _

/-- The line of a key in a region is emptied. -/
def State.clearIn (s : State) (key : List Byte) (r : Nat) : State :=
  match s.findLine r key with
  | some (e, _) => s.writeLine r e GrvEntry.empty
  | none => s

theorem State.clearLine_eq (s : State) (key : List Byte) : s.clearLine key = (s.clearIn key 0).clearIn key 1 := rfl

theorem State.SameLines.clearIn (h : s.SameLines t) (key : List Byte) (r : Nat) : (s.clearIn key r).SameLines (t.clearIn key r) := by
  unfold State.clearIn
  rw [h.findLine]
  split
  exacts [h.writeLine _ _ _, h]

theorem State.SameLines.clearLine (h : s.SameLines t) (key : List Byte) : (s.clearLine key).SameLines (t.clearLine key) :=
  (h.clearIn key 0).clearIn key 1

theorem State.clearIn_lines (s : State) (key : List Byte) (r : Nat) : ∃ l, s.clearIn key r = s.withLines l := by
  unfold State.clearIn
  split
  exacts [⟨_, rfl⟩, ⟨_, rfl⟩]

theorem State.clearLine_lines (s : State) (key : List Byte) : ∃ l, s.clearLine key = s.withLines l := by
  obtain ⟨l, hl⟩ := s.clearIn_lines key 0
  obtain ⟨m, hm⟩ := (s.clearIn key 0).clearIn_lines key 1
  exact ⟨m, by rw [State.clearLine_eq, hm, hl]; rfl⟩

/-! ### An entry written in Grove -/

/-- Lines that are as they were written, read, leave everything as it was. -/
theorem State.seeLines_written {key : List Byte} (h : ∀ e ∈ s.keyLines key, (s.line s.region e).flips = []) : s.seeLines key = s :=
  foldl_eq_self fun e he => by rw [State.lineRead_written (h e he)]

theorem lineKey_inj {r e f : Nat} : lineKey r e = lineKey r f ↔ e = f := by simp [lineKey]

theorem State.line_writeLine (s : State) (r e : Nat) (x : GrvEntry) (f : Nat) : (s.writeLine r e x).line r f =
    if f = e then s.sealLine r e (((s.line r e).lver + 1) % 65536) x ((s.line r e).poison || false) else s.line r f := by
  simp only [State.writeLine, State.writeLineAs, State.line_setLine, lineKey_inj]

/-- An entry finds its place in the first free way of its first bucket, where that has no fewer free ways than the other. -/
theorem State.placeLine_first {r hk k v : Nat} {x : GrvEntry} (hv : (s.freeWays r (bucketsOf hk k x.mkey).1).head? = some v)
    (hle : (s.freeWays r (bucketsOf hk k x.mkey).2).length ≤ (s.freeWays r (bucketsOf hk k x.mkey).1).length) :
    s.placeLine r hk k x =
      (s.writeLine r (4 * (bucketsOf hk k x.mkey).1 + v) x, some [(x, 4 * (bucketsOf hk k x.mkey).1 + v)]) := by
  rcases hb : bucketsOf hk k x.mkey with ⟨b0, b1⟩
  rw [hb] at hv hle
  obtain ⟨f, hf⟩ := List.head?_eq_some_iff.1 hv
  rw [hf, List.length_cons] at hle
  simp only [State.placeLine, hb, hf, if_pos hle]

/-- Where no way is DIRTY, an entry placed so is written in its line, and Copse takes a copy where it can. -/
theorem State.groveWrite_first {v : Nat} {x : GrvEntry}
    (hv : (s.freeWays s.region (bucketsOf s.grv.hashKey s.kInForce x.mkey).1).head? = some v)
    (hle : (s.freeWays s.region (bucketsOf s.grv.hashKey s.kInForce x.mkey).2).length
      ≤ (s.freeWays s.region (bucketsOf s.grv.hashKey s.kInForce x.mkey).1).length)
    (hc : s.Clean) (hf : ∀ e ∈ s.keyLines x.mkey, (s.line s.region e).flips = []) :
    ∃ t, s.groveWrite x = (t, true) ∧ (s.writeLine s.region (4 * (bucketsOf s.grv.hashKey s.kInForce x.mkey).1 + v) x).Copses t := by
  unfold State.groveWrite
  simp only [State.seeLines_written hf, State.placeLine_first hv hle]
  have hclean : (s.writeLine s.region (4 * (bucketsOf s.grv.hashKey s.kInForce x.mkey).1 + v) x).Clean := hc
  generalize s.writeLine s.region (4 * (bucketsOf s.grv.hashKey s.kInForce x.mkey).1 + v) x = u at hclean
  have hu (e : Nat) : u.relink ([(x, e)].filter (fun m => m.1.mkey ≠ x.mkey)) = u := by simp [State.relink, State.forEach]
  rw [hu]
  split
  · exact ⟨_, rfl, u.copses_writeWay _ _⟩
  · exact ⟨_, rfl, hclean.copses_keepWay _⟩

end LineLaws

/-! ### The way of a key -/

section TableLaws

variable {α : Type} [DecidableEq α] {d : Nat → α}

theorem Tbl.lt_of_wfFrom {t : Tbl α} {k : Nat} (h : Tbl.wfFrom d (some k) t = true) : ∀ e ∈ t, k < e.1 := by
  induction t generalizing k with
  | nil => simp
  | cons p t ih =>
    simp only [Tbl.wfFrom, Bool.and_eq_true, decide_eq_true_eq] at h
    obtain ⟨⟨hk, -⟩, ht⟩ := h
    rintro e (_ | ⟨_, he⟩)
    exacts [hk, hk.trans (ih ht e he)]

/-- A key that a table in canonical form holds keeps its place when it is written. -/
theorem Tbl.set_mid {a b : Tbl α} {k : Nat} {v w : α} {lo : Option Nat} (h : Tbl.wfFrom d lo (a ++ (k, v) :: b) = true) (hw : w ≠ d k) :
    Tbl.set d (a ++ (k, v) :: b) k w = a ++ (k, w) :: b := by
  rw [Tbl.set, if_neg hw]
  induction a generalizing lo with
  | nil =>
    simp only [List.nil_append, Tbl.wfFrom, Bool.and_eq_true] at h
    have hb := Tbl.lt_of_wfFrom h.2
    have hf : ((k, v) :: b).filter (fun e => decide (e.1 ≠ k)) = b := by
      rw [List.filter_cons_of_neg (by simp), List.filter_eq_self]
      exact fun e he => decide_eq_true (Nat.ne_of_gt (hb e he))
    rw [List.nil_append, hf]
    cases b with
    | nil => rfl
    | cons e b => exact if_pos (hb e (by simp))
  | cons e a ih =>
    simp only [List.cons_append, Tbl.wfFrom, Bool.and_eq_true] at h
    have hk : e.1 < k := Tbl.lt_of_wfFrom h.2 (k, v) (by simp)
    have hf : (e :: a ++ (k, v) :: b).filter (fun e => decide (e.1 ≠ k)) = e :: (a ++ (k, v) :: b).filter (fun e => decide (e.1 ≠ k)) :=
      List.filter_cons_of_pos (by simpa using Nat.ne_of_lt hk)
    rw [hf]
    exact (if_neg (Nat.lt_asymm hk)).trans (congrArg _ (ih h.2))

end TableLaws

section WayLaws

variable {s t : State} {key : List Byte} {epoch i : Nat} {w x : CpsWay}

theorem State.copseFind_congr (h : t.grv.copse = s.grv.copse) : t.copseFind key epoch = s.copseFind key epoch := by
  rw [State.copseFind, State.copseFind, State.ways, State.ways, h]

/-- The way of a key, replaced by one that serves it, is the way of the key. -/
theorem State.copseFind_setWay (hwf : Tbl.wf (fun _ => none) s.grv.copse = true) (h : s.copseFind key epoch = some (i, w))
    (hk : x.entry.mkey = key) (hs : x.serves epoch = true) : (s.setWay i (some x)).copseFind key epoch = some (i, x) := by
  simp only [State.copseFind, State.ways, List.find?_filterMap, Option.bind_eq_some_iff] at h ⊢
  obtain ⟨⟨j, y⟩, hfind, hy⟩ := h
  obtain ⟨y, rfl, hy⟩ := Option.map_eq_some_iff.1 hy
  obtain ⟨rfl, rfl⟩ := Prod.mk.inj hy
  obtain ⟨-, a, b, hab, ha⟩ := List.find?_eq_some_iff_append.1 hfind
  rw [Tbl.wf, hab] at hwf
  refine ⟨(j, some x), List.find?_eq_some_iff_append.2 ⟨by simp [hk, hs], a, b, ?_, ha⟩, rfl⟩
  rw [State.setWay, hab]
  exact Tbl.set_mid hwf (Option.some_ne_none x)

theorem matched_zero (c : Byte) : matched c 0 = true := rfl

theorem byteAt_matchedBytes {m : List Byte} {i : Nat} (h : i < 24) :
    byteAt (matchedBytes m) i = if matched (byteAt m 0) i then byteAt m i else 0 := by
  simp [matchedBytes, byteAt, h]

/-- The bytes that take part in the match of a key are those of the key. -/
theorem matchedBytes_matchedBytes (m : List Byte) : matchedBytes (matchedBytes m) = matchedBytes m := by
  have h0 : byteAt (matchedBytes m) 0 = byteAt m 0 := (byteAt_matchedBytes (by decide)).trans (if_pos (matched_zero _))
  rw [matchedBytes, h0]
  refine List.map_congr_left fun i hi => ?_
  rw [byteAt_matchedBytes (List.mem_range.1 hi)]
  split <;> rfl

theorem State.mkey_of_copseFind (h : s.copseFind key epoch = some (i, w)) : w.entry.mkey = key := by
  have hp := List.find?_some h
  simp only [Bool.and_eq_true, decide_eq_true_eq] at hp
  exact hp.1

/-! ### A delete -/

theorem State.mkey_negWay (hold : List Nat) : (s.negWay key hold).entry.mkey = matchedBytes key := rfl

theorem State.serves_negWay (hold : List Nat) : (s.negWay key hold).serves s.cfg.epoch = true := by
  simp [CpsWay.serves, State.negWay, mkWay]

/-- The way that a delete leaves for a key. -/
def State.deletedWay (s : State) (key : List Byte) : CpsWay := s.negWay key (s.grv.fills.map (·.id))

theorem State.st_deletedWay (s : State) : (s.deletedWay key).st = .negative := rfl

theorem State.ttl_deletedWay (s : State) : (s.deletedWay key).ttl = s.f F.CPS_CTL_NEG_TTL := rfl

theorem State.hold_deletedWay (s : State) : (s.deletedWay key).hold = s.grv.fills.map (·.id) := rfl

theorem State.way_withLines (s : State) (l : Tbl GrvLine) (j : Nat) : (s.withLines l).way j = s.way j := rfl

/-- Once its lines have been read, a key that Copse holds becomes NEGATIVE in its place. -/
theorem State.deleteKey_seen (ht : s.seeLines key = t) (hwf : Tbl.wf (fun _ => none) t.grv.copse = true)
    (h : t.copseNow key = some (i, w)) (httl : 0 < t.f F.CPS_CTL_NEG_TTL) :
    ∃ l, s.deleteKey key = (t.writeWay i (t.deletedWay key)).withLines l := by
  have hdel : t.deleteNeg key = t.writeWay i (t.deletedWay key) := by rw [State.deleteNeg, h]; rfl
  obtain ⟨l, hl⟩ := (t.writeWay i (t.deletedWay key)).clearLine_lines key
  have hkey : matchedBytes key = key := by
    rw [← State.mkey_of_copseFind h]
    exact matchedBytes_matchedBytes _
  have hset : (t.setWay i (some (t.deletedWay key))).copseFind key t.cfg.epoch = some (i, t.deletedWay key) :=
    State.copseFind_setWay hwf h ((State.mkey_negWay _).trans hkey) (State.serves_negWay _)
  have hsame : ((t.writeWay i (t.deletedWay key)).withLines l).grv.copse = (t.setWay i (some (t.deletedWay key))).grv.copse := rfl
  have hx : ((t.writeWay i (t.deletedWay key)).withLines l).copseNow key = some (i, t.deletedWay key) := by
    rw [State.copseNow, State.copseFind_congr hsame]
    exact hset
  have hspent : ¬ (t.deletedWay key).ttl = 0 := by
    rw [State.ttl_deletedWay]
    exact Nat.ne_of_gt httl
  have hs : s.deleteKey key = (t.writeWay i (t.deletedWay key)).withLines l := by
    unfold State.deleteKey
    simp only [ht, hdel, hl, hx, hspent, decide_false, Bool.and_false, Bool.false_and, State.doIf, Bool.false_eq_true, if_false]
  exact ⟨l, hs⟩

/-- A delete of a key that Copse holds leaves a NEGATIVE way for NEG_TTL crossings, held for the outstanding fills (R176). -/
theorem State.deleteKey_held (hwf : Tbl.wf (fun _ => none) s.grv.copse = true) (h : s.copseNow key = some (i, w))
    (httl : 0 < s.f F.CPS_CTL_NEG_TTL) : ∃ x, x.st = .negative ∧ x.ttl = s.f F.CPS_CTL_NEG_TTL ∧ x.hold = s.grv.fills.map (·.id) ∧
      ∀ j, (s.deleteKey key).way j = if j = i then some x else s.way j := by
  have hread : s.Reads (s.seeLines key) := State.Reads.refl.seeLines
  generalize ht : s.seeLines key = t at hread
  obtain ⟨l, hr⟩ := hread
  have hcopse : t.grv.copse = s.grv.copse := by rw [hr.grv]; rfl
  have hneg : t.f F.CPS_CTL_NEG_TTL = s.f F.CPS_CTL_NEG_TTL := (hr.f rfl).trans (State.f_congr rfl)
  have hfind : t.copseNow key = some (i, w) := by
    rw [State.copseNow, State.copseFind_congr hcopse, hr.cfg]
    exact h
  obtain ⟨m, hm⟩ := State.deleteKey_seen ht (hcopse.symm ▸ hwf) hfind (lt_of_lt_of_eq httl hneg.symm)
  have hfills : t.grv.fills = s.grv.fills := by rw [hr.grv]; rfl
  refine ⟨t.deletedWay key, t.st_deletedWay, t.ttl_deletedWay.trans hneg, t.hold_deletedWay.trans (congrArg _ hfills), fun j => ?_⟩
  rw [hm, State.way_withLines, State.way_writeWay, State.way_congr hcopse j]

end WayLaws

/-! ### The memory behind Grove -/

section MemoryLaws

variable {s u : State}

theorem State.Aside.rstFlag (h : s.Aside u) {bit data} : s.Aside (u.rstFlag bit data) := by
  have ht : s.Aside (u.wr R.RST_EVT (u.rd R.RST_EVT ||| BitVec.ofNat 32 (2 ^ bit))) := h.wr rfl
  exact .if_ (ht.post (by decide : 8 < 16)) (.if_ (ht.setF rfl) ht.elsewhere)

theorem State.Aside.updService (h : s.Aside u) : s.Aside u.updService := .if_ h (State.Aside.rstFlag (h.elsewhere.setF rfl))

theorem State.Aside.drawBytes (h : s.Aside u) {k : Nat} : s.Aside (u.drawBytes k).2 := State.Aside.elsewhere (h.setF rfl)

/-- The keys of Grove have been drawn. -/
def State.drawn (s : State) : State := (((s.drawBytes 16).2.drawBytes 64).2.drawBytes 32).2

theorem State.aside_drawn (s : State) : s.Aside s.drawn := State.Aside.refl.drawBytes.drawBytes.drawBytes

/-- What a rebuild shows: its bucket count, the first line for Sweep, and that Grove builds. -/
def State.showBuild (s : State) : State :=
  ((s.setF F.GRV_STATUS_BKT_LOG2 (kOf (s.f F.GRV_CTL_BKT_LOG2))).setF F.SWP_CXL_POS_LINE 0).setF F.GRV_STATUS_STATE grvBuilding

/-- The state with another Grove. -/
def State.withGrove (s : State) (g : Grove) : State := { s with grv := g }

theorem State.f_withGrove (s : State) (g : Grove) (x : Fld) : (s.withGrove g).f x = s.f x := rfl

theorem State.mem_withGrove (s : State) (g : Grove) : (s.withGrove g).mem = s.mem := rfl

theorem State.keys_withGrove (s : State) (g : Grove) : (s.withGrove g).keys = s.keys := rfl

theorem State.startBuild_eq (s : State) : ∃ g : Grove, g.lines = [] ∧ g.mig = none ∧ g.copse = s.drawn.grv.copse ∧
    s.startBuild = (s.drawn.withGrove g).showBuild.updService := by
  refine ⟨?g, ?lines, ?mig, ?copse, ?eq⟩
  case eq =>
    dsimp only [State.startBuild, State.enterGrv, State.showBuild, State.drawn, State.withGrove]
    rfl
  all_goals rfl

/-- The state from which a rebuild is shown: keys drawn, and no line. -/
structure State.Cleared (s d : State) : Prop where
  lines : d.grv.lines = []
  mig : d.grv.mig = none
  copse : d.grv.copse = s.grv.copse
  mem : d.mem = s.mem
  keys : d.keys = s.keys
  count : d.f F.GRV_CTL_BKT_LOG2 = s.f F.GRV_CTL_BKT_LOG2

theorem State.startBuild_cleared (s : State) : ∃ d, s.Cleared d ∧ s.startBuild = d.showBuild.updService := by
  obtain ⟨g, hlines, hmig, hcopse, he⟩ := s.startBuild_eq
  have hd := s.aside_drawn
  refine ⟨s.drawn.withGrove g, ⟨hlines, hmig, hcopse.trans (by rw [hd.grv]), ?_, ?_, ?_⟩, he⟩
  · rw [State.mem_withGrove, hd.mem]
  · rw [State.keys_withGrove, hd.keys]
  · rw [State.f_withGrove, hd.f rfl]

theorem State.mem_showBuild (s : State) : s.showBuild.mem = s.mem := by
  rw [State.showBuild, State.mem_setF, State.mem_setF, State.mem_setF]

theorem State.keys_showBuild (s : State) : s.showBuild.keys = s.keys := by
  rw [State.showBuild, State.keys_setF, State.keys_setF, State.keys_setF]

theorem State.grv_showBuild (s : State) : s.showBuild.grv = s.grv := by
  rw [State.showBuild, State.grv_setF, State.grv_setF, State.grv_setF]

theorem State.grvSt_showBuild (s : State) : s.showBuild.grvSt = grvBuilding := State.f_setF_self _ _ _ (by decide)

theorem kOf_lt (v : Nat) : kOf v < 2 ^ 6 := by
  unfold kOf
  omega

theorem State.kInForce_showBuild (s : State) : s.showBuild.kInForce = kOf (s.f F.GRV_CTL_BKT_LOG2) := by
  rw [State.kInForce, State.showBuild, State.f_setF_ne _ _ (by decide) rfl, State.f_setF_ne _ _ (by decide) rfl,
    State.f_setF_self _ _ _ (by decide)]
  exact Nat.mod_eq_of_lt (kOf_lt _)

/-- A build starts with no line, under the bucket count that is configured (R166, R180). -/
theorem State.startBuild_spec (s : State) : s.startBuild.grvSt = grvBuilding ∧ s.startBuild.grv.lines = [] ∧ s.startBuild.grv.mig = none ∧
    s.startBuild.kInForce = kOf (s.f F.GRV_CTL_BKT_LOG2) ∧ s.startBuild.grv.copse = s.grv.copse ∧ s.startBuild.mem = s.mem ∧
    s.startBuild.keys = s.keys := by
  obtain ⟨d, hd, he⟩ := s.startBuild_cleared
  have hs : d.showBuild.Aside s.startBuild := by
    rw [he]
    exact State.Aside.refl.updService
  have hg : s.startBuild.grv = d.grv := hs.grv.trans d.grv_showBuild
  refine ⟨?_, ?_, ?_, ?_, ?_, ?_, ?_⟩
  · rw [State.grvSt, hs.f rfl]
    exact d.grvSt_showBuild
  · rw [hg, hd.lines]
  · rw [hg, hd.mig]
  · rw [State.kInForce, hs.f rfl, ← hd.count]
    exact d.kInForce_showBuild
  · rw [hg, hd.copse]
  · rw [hs.mem, d.mem_showBuild, hd.mem]
  · rw [hs.keys, d.keys_showBuild, hd.keys]

theorem State.link_setLink {j : Nat} {l : CxlLink} (h : j < s.grv.links.length) (i : Nat) :
    (s.setLink j l).link i = if i = j then l else s.link i := by
  simp only [State.link, State.setLink, List.getD_eq_getElem?_getD, List.getElem?_set]
  by_cases hi : i = j
  · simp [hi, h]
  · simp [hi, Ne.symm hi]

/-- A link whose device waits is one of the device's. -/
theorem State.lt_of_awaiting {j : Nat} (h : (s.link j).awaiting = true) : j < s.grv.links.length := by
  by_contra hj
  rw [State.link, List.getD_eq_default _ _ (Nat.not_lt.1 hj)] at h
  exact absurd h (by decide)

end MemoryLaws

/-! ### The entry after an update -/

section UpdateLaws

variable (o n : GrvEntry) (reset : Bool)

/-- The flags that an update takes from the command: PRP, HSR, VERIFY, MACSEC_REQ and REPLAY. -/
def updatedFlag (i : Nat) : Bool := decide (i ∈ [3, 4, 6, 7, 8])

theorem GrvEntry.fl_updatedEntry (i : Nat) : (updatedEntry o n false).fl i = if updatedFlag i then n.fl i else o.fl i := by
  have hi : updatedFlag i = true ↔ (6 ≤ i ∧ i < 6 + 3) ∨ (3 ≤ i ∧ i < 3 + 2) := by
    simp only [updatedFlag, decide_eq_true_eq, List.mem_cons, List.not_mem_nil, or_false]
    omega
  simp only [updatedEntry, GrvEntry.fl, bitAt, Bool.false_eq_true, if_false, testBit_putBits, testBit_bitsOf, hi]
  by_cases h6 : 6 ≤ i ∧ i < 6 + 3
  · simp [h6, show i - 6 < 3 by omega]
  · by_cases h3 : 3 ≤ i ∧ i < 3 + 2
    · simp [h6, h3, show i - 3 < 2 by omega]
    · simp [h6, h3]

/-- A reset takes SEQ_VALID from the command. -/
theorem GrvEntry.seqValid_reset : (updatedEntry o n true).seqValid = n.seqValid := by
  simp only [updatedEntry, if_true, GrvEntry.withState]
  cases h : n.seqValid <;> simp [GrvEntry.seqValid, GrvEntry.fl, bitAt, testBit_putBits, b2n]

end UpdateLaws

/-! ### The commands -/

section CommandLaws

variable {s t u : State} {sl : Slot} {c : CmdSpec} {r : Reply}

/-- A slot that starts a command which ends at once leaves, of what its effect made, all but registers, the Culvert and outputs. -/
theorem runCmd_touches (h : c.starts sl s = true) (ha : c.act (c.held sl s) (c.taken sl s) = .done r u) :
    ∃ t, runCmd c sl s = .next t ∧ u.Touches t [] :=
  ⟨_, runCmd_done c sl s u r h ha, c.touches_ends sl s r u⟩

/-- The parameters of a slot that starts pass their check. -/
theorem CmdSpec.pre_of_starts (h : c.starts sl s = true) : c.pre (c.held sl s) = none := by
  simp only [CmdSpec.starts, Bool.and_eq_true, Option.isNone_iff_eq_none] at h
  obtain ⟨-, hfull⟩ := h
  simp only [fullCheck, Option.orElse_eq_none] at hfull
  obtain ⟨-, -, hpre, -⟩ := hfull
  exact hpre

theorem refuse_eq_none {b : Bool} : refuse b r = none ↔ b = false := by cases b <;> simp [refuse]

theorem mkWay_congr (h : t.cfg = s.cfg) (st : CpsState) (e : GrvEntry) (l : Option Nat) : mkWay t st e l = mkWay s st e l := by
  rw [mkWay, mkWay, h]

theorem State.placeWay_of_place {w : CpsWay} {v : Nat} (h : s.fillPlace w.entry.mkey = (s, some v)) :
    s.placeWay w = some (s.writeWay v w) := by
  rw [State.placeWay, h]

/-! #### Insert -/

/-- The entry that an insert writes. -/
def Held.newEntry (h : Held) : GrvEntry := { GrvEntry.ofBytes h.entry with version := 0 }

theorem specGroveInsert_act_unpinned {h : Held} {ok : Bool} (hp : h.newEntry.pinnedFlag = false) (hw : s.groveWrite h.newEntry = (t, ok)) :
    specGroveInsert.act h s = .done (if ok then .ok [] else tableFull) t := by
  unfold Held.newEntry at hp hw
  simp only [specGroveInsert, hp, hw, Bool.false_eq_true, if_false]
  cases ok <;> rfl

theorem specGroveInsert_act_pinned {h : Held} {v : Nat} (hp : h.newEntry.pinnedFlag = true) (hc : s.copseNow h.newEntry.mkey = none)
    (hv : s.fillPlace h.newEntry.mkey = (s, some v)) :
    specGroveInsert.act h s = .done (.ok []) (s.writeWay v (mkWay s .pinned h.newEntry none)) := by
  have hw := State.placeWay_of_place (w := mkWay s .pinned h.newEntry none) hv
  unfold Held.newEntry at hp hc hw
  simp only [specGroveInsert, hp, hc, hw, if_true, Held.newEntry]

theorem exec_groveInsert_full (hst : specGroveInsert.starts sl s = true) (hp : (specGroveInsert.held sl s).newEntry.pinnedFlag = false)
    (hw : (specGroveInsert.taken sl s).groveWrite (specGroveInsert.held sl s).newEntry = (t, false)) :
    exec (.cmdGroveInsert sl) s = .next (specGroveInsert.ends sl s tableFull t) := by
  have he : exec (.cmdGroveInsert sl) s = runCmd specGroveInsert sl s := rfl
  rw [he, runCmd_done _ sl s _ _ hst (specGroveInsert_act_unpinned hp hw)]
  rfl

/-- An unpinned entry goes to the first free way of its first bucket (R167, R175). -/
theorem groveInsert_first {x : GrvEntry} {b v : Nat} (hu : specGroveInsert.taken sl s = u) (hx : x = (specGroveInsert.held sl s).newEntry)
    (hb : b = (bucketsOf u.grv.hashKey u.kInForce x.mkey).1) (hst : specGroveInsert.starts sl s = true) (hp : x.pinnedFlag = false)
    (hv : (u.freeWays u.region b).head? = some v)
    (hle : (u.freeWays u.region (bucketsOf u.grv.hashKey u.kInForce x.mkey).2).length ≤ (u.freeWays u.region b).length)
    (hc : u.Clean) (hf : ∀ e ∈ u.keyLines x.mkey, (u.line u.region e).flips = []) :
    ∃ t, exec (.cmdGroveInsert sl) s = .next t ∧ (t.line s.region (4 * b + v)).entry = x ∧
      (∀ e, e ≠ 4 * b + v → t.line s.region e = s.line s.region e) ∧ t.keys = s.keys ∧ t.mem = s.mem ∧ t.cfg = s.cfg := by
  have he : exec (.cmdGroveInsert sl) s = runCmd specGroveInsert sl s := rfl
  have hs : s.Touches u [] := hu ▸ specGroveInsert.touches_taken sl s
  subst hx hb
  obtain ⟨y, hy, hcop⟩ := State.groveWrite_first hv hle hc hf
  have hact := specGroveInsert_act_unpinned hp hy
  rw [← hu] at hact
  obtain ⟨t, ht, htou⟩ := runCmd_touches hst hact
  have hline (e : Nat) : t.line s.region e =
      (u.writeLine u.region (4 * (bucketsOf u.grv.hashKey u.kInForce (specGroveInsert.held sl s).newEntry.mkey).1 + v)
        (specGroveInsert.held sl s).newEntry).line u.region e := by
    rw [← hs.region]
    exact ((State.SameLines.of_eq htou.grv).line _ _).trans (hcop.sameLines.line _ _)
  obtain ⟨hkeys, hmem, hcfg⟩ := hcop.rest
  refine ⟨t, he.trans ht, ?_, fun e hne => ?_, ?_, ?_, ?_⟩
  · rw [hline, State.line_writeLine, if_pos rfl]
    rfl
  · rw [hline, State.line_writeLine, if_neg hne, hs.region, (State.SameLines.of_eq hs.grv).line]
  · rw [htou.keys, hkeys]
    exact hs.keys
  · rw [htou.mem, hmem]
    exact hs.mem
  · rw [htou.cfg, hcfg]
    exact hs.cfg

/-- A way written by a command that does nothing else. -/
theorem way_written {v : Nat} {w : CpsWay} (hs : s.Touches u []) (ht : (u.writeWay v w).Touches t []) :
    t.way v = some w ∧ (∀ j, j ≠ v → t.way j = s.way j) ∧ t.grv.lines = s.grv.lines ∧ t.mem = s.mem ∧ t.keys = s.keys := by
  have hw (j : Nat) : t.way j = if j = v then some w else s.way j := by rw [ht.way, State.way_writeWay, hs.way]
  have hl : (u.writeWay v w).grv.lines = u.grv.lines := (u.copses_writeWay v w).sameLines.lines
  obtain ⟨hkeys, hmem, -⟩ := (u.copses_writeWay v w).rest
  refine ⟨by rw [hw, if_pos rfl], fun j hj => by rw [hw, if_neg hj], ?_, ?_, ?_⟩
  · rw [ht.grv, hl, hs.grv]
  · rw [ht.mem, hmem, hs.mem]
  · rw [ht.keys, hkeys, hs.keys]

/-- A pinned entry goes to its place in Copse alone (R177, R179). -/
theorem groveInsert_pinned {x : GrvEntry} {v : Nat} (hu : specGroveInsert.taken sl s = u) (hx : x = (specGroveInsert.held sl s).newEntry)
    (hst : specGroveInsert.starts sl s = true) (hp : x.pinnedFlag = true) (hc : u.copseNow x.mkey = none)
    (hv : u.fillPlace x.mkey = (u, some v)) :
    ∃ t, exec (.cmdGroveInsert sl) s = .next t ∧ t.way v = some (mkWay s .pinned x none) ∧ (∀ j, j ≠ v → t.way j = s.way j) ∧
      t.grv.lines = s.grv.lines := by
  have he : exec (.cmdGroveInsert sl) s = runCmd specGroveInsert sl s := rfl
  have hs : s.Touches u [] := hu ▸ specGroveInsert.touches_taken sl s
  subst hx
  have hact := specGroveInsert_act_pinned hp hc hv
  rw [← hu] at hact
  obtain ⟨t, ht, htou⟩ := runCmd_touches hst hact
  rw [hu] at htou
  obtain ⟨hw, hne, hlines, -, -⟩ := way_written hs htou
  exact ⟨t, he.trans ht, by rw [hw, mkWay_congr hs.cfg], hne, hlines⟩

/-! #### Update -/

/-- The way that holds a key, where it is pinned. -/
theorem State.heldWay_of_pinned {key : List Byte} {i : Nat} {w : CpsWay} (h : s.pinnedWay key = some (i, w)) :
    s.heldWay key = some (i, w) ∧ w.st = .pinned := by
  obtain ⟨hh, hp⟩ := Option.filter_eq_some_iff.1 h
  exact ⟨hh, of_decide_eq_true hp⟩

/-- The entry that an update makes of one. -/
def Held.updated (h : Held) (o : GrvEntry) : GrvEntry := updatedEntry o (GrvEntry.ofBytes h.entry) (decide (h.u 66 2 = 1))

theorem specGroveUpdate_act_pinned {h : Held} {o : GrvEntry} {i : Nat} {w : CpsWay} (ho : s.entryOf h.mkey = some o)
    (hw : s.pinnedWay h.mkey = some (i, w)) :
    specGroveUpdate.act h s = .done (.ok (toLe 2 (h.updated o).version)) (s.writeWay i { w with entry := h.updated o }) := by
  obtain ⟨hh, hp⟩ := State.heldWay_of_pinned hw
  simp only [specGroveUpdate, ho, hh, hp, if_true, Held.updated]

theorem groveUpdate_pinned {o : GrvEntry} {i : Nat} {w : CpsWay} (hst : specGroveUpdate.starts sl s = true)
    (ho : (specGroveUpdate.taken sl s).entryOf (specGroveUpdate.held sl s).mkey = some o)
    (hw : (specGroveUpdate.taken sl s).pinnedWay (specGroveUpdate.held sl s).mkey = some (i, w)) :
    ∃ t, exec (.cmdGroveUpdate sl) s = .next t ∧ t.way i = some { w with entry := (specGroveUpdate.held sl s).updated o } ∧
      (∀ j, j ≠ i → t.way j = s.way j) ∧ t.grv.lines = s.grv.lines ∧ t.mem = s.mem ∧ t.keys = s.keys := by
  have he : exec (.cmdGroveUpdate sl) s = runCmd specGroveUpdate sl s := rfl
  obtain ⟨t, ht, htou⟩ := runCmd_touches hst (specGroveUpdate_act_pinned ho hw)
  exact ⟨t, he.trans ht, way_written (specGroveUpdate.touches_taken sl s) htou⟩

/-! #### Delete -/

theorem exec_groveDelete (hst : specGroveDelete.starts sl s = true) :
    exec (.cmdGroveDelete sl) s =
      .next (specGroveDelete.ends sl s (.ok []) ((specGroveDelete.taken sl s).deleteKey (specGroveDelete.held sl s).mkey)) :=
  runCmd_done specGroveDelete sl s _ _ hst rfl

theorem groveDelete_held {i : Nat} {w : CpsWay} (hst : specGroveDelete.starts sl s = true)
    (hc : (specGroveDelete.taken sl s).copseNow (specGroveDelete.held sl s).mkey = some (i, w))
    (hwf : Tbl.wf (fun _ => none) s.grv.copse = true) (httl : 0 < s.f F.CPS_CTL_NEG_TTL) :
    ∃ t, exec (.cmdGroveDelete sl) s = .next t ∧
      (∃ x, t.way i = some x ∧ x.st = .negative ∧ x.ttl = s.f F.CPS_CTL_NEG_TTL ∧ x.hold = s.grv.fills.map (·.id)) ∧
      (∀ j, j ≠ i → t.way j = s.way j) := by
  have hs := specGroveDelete.touches_taken sl s
  have ht := specGroveDelete.touches_ends sl s (.ok []) ((specGroveDelete.taken sl s).deleteKey (specGroveDelete.held sl s).mkey)
  refine ⟨_, exec_groveDelete hst, ?_⟩
  generalize specGroveDelete.ends sl s (.ok []) ((specGroveDelete.taken sl s).deleteKey (specGroveDelete.held sl s).mkey) = t at ht
  generalize (specGroveDelete.held sl s).mkey = key at *
  generalize specGroveDelete.taken sl s = u at *
  have hneg : u.f F.CPS_CTL_NEG_TTL = s.f F.CPS_CTL_NEG_TTL := hs.f rfl (by simp)
  obtain ⟨x, hst, hxttl, hhold, hway⟩ := State.deleteKey_held (s := u) (by rw [hs.grv]; exact hwf) hc (lt_of_lt_of_eq httl hneg.symm)
  have hw (j : Nat) : t.way j = if j = i then some x else s.way j := by
    rw [ht.way, hway, hs.way]
  exact ⟨⟨x, by rw [hw, if_pos rfl], hst, hxttl.trans hneg, by rw [hhold, hs.grv]⟩, fun j hj => by rw [hw, if_neg hj]⟩

/-! #### Pin and unpin -/

theorem specGrovePin_act {h : Held} {o : GrvEntry} {v : Nat} (ho : s.entryOf h.mkey = some o) (hc : s.copseNow h.mkey = none)
    (hl : s.seeLines h.mkey = s) (hv : s.fillPlace o.mkey = (s, some v)) :
    specGrovePin.act h s = .done (.ok []) ((s.writeWay v (mkWay s .pinned (o.setFl 1 true) none)).clearLine h.mkey) := by
  have hw := State.placeWay_of_place (w := mkWay s .pinned (o.setFl 1 true) none) hv
  simp only [specGrovePin, ho, hl, hc, hw]

theorem grovePin_moves {o : GrvEntry} {v : Nat} (hst : specGrovePin.starts sl s = true)
    (ho : (specGrovePin.taken sl s).entryOf (specGrovePin.held sl s).mkey = some o)
    (hc : (specGrovePin.taken sl s).copseNow (specGrovePin.held sl s).mkey = none)
    (hf : ∀ e ∈ s.keyLines (specGrovePin.held sl s).mkey, (s.line s.region e).flips = [])
    (hv : (specGrovePin.taken sl s).fillPlace o.mkey = (specGrovePin.taken sl s, some v)) :
    ∃ t, exec (.cmdGrovePin sl) s = .next t ∧ t.way v = some (mkWay s .pinned (o.setFl 1 true) none) ∧ (∀ j, j ≠ v → t.way j = s.way j) ∧
      t.grv.lines = (s.clearLine (specGrovePin.held sl s).mkey).grv.lines := by
  have he : exec (.cmdGrovePin sl) s = runCmd specGrovePin sl s := rfl
  have hs := specGrovePin.touches_taken sl s
  have hlines : (specGrovePin.taken sl s).seeLines (specGrovePin.held sl s).mkey = specGrovePin.taken sl s := by
    refine State.seeLines_written fun e hm => ?_
    rw [State.keyLines_congr hs.grv hs.kInForce] at hm
    rw [hs.region, (State.SameLines.of_eq hs.grv).line]
    exact hf e hm
  obtain ⟨t, ht, htou⟩ := runCmd_touches hst (specGrovePin_act ho hc hlines hv)
  generalize (specGrovePin.held sl s).mkey = key at *
  generalize specGrovePin.taken sl s = u at *
  have hsame : s.SameLines (u.writeWay v (mkWay u .pinned (o.setFl 1 true) none)) := by
    obtain ⟨hl, henc, hmac⟩ := (u.copses_writeWay v (mkWay u .pinned (o.setFl 1 true) none)).sameLines
    exact ⟨by rw [hl, hs.grv], by rw [henc, hs.grv], by rw [hmac, hs.grv]⟩
  obtain ⟨l, hl⟩ := (u.writeWay v (mkWay u .pinned (o.setFl 1 true) none)).clearLine_lines key
  have hw (j : Nat) : t.way j = if j = v then some (mkWay s .pinned (o.setFl 1 true) none) else s.way j := by
    rw [htou.way, hl, State.way_withLines, State.way_writeWay, mkWay_congr hs.cfg, hs.way]
  refine ⟨t, he.trans ht, by rw [hw, if_pos rfl], fun j hj => by rw [hw, if_neg hj], ?_⟩
  rw [htou.grv]
  exact (hsame.clearLine key).lines

theorem specGroveUnpin_act {h : Held} {i : Nat} {w : CpsWay} {ok : Bool} (hw : s.pinnedWay h.mkey = some (i, w))
    (hg : s.groveWrite (w.entry.setFl 1 false) = (t, ok)) :
    specGroveUnpin.act h s = .done (if ok then .ok [] else tableFull) t := by
  simp only [specGroveUnpin, hw, hg]
  cases ok <;> rfl

theorem exec_groveUnpin {i : Nat} {w : CpsWay} {ok : Bool} (hst : specGroveUnpin.starts sl s = true)
    (hw : (specGroveUnpin.taken sl s).pinnedWay (specGroveUnpin.held sl s).mkey = some (i, w))
    (hg : (specGroveUnpin.taken sl s).groveWrite (w.entry.setFl 1 false) = (u, ok)) :
    exec (.cmdGroveUnpin sl) s = .next (specGroveUnpin.ends sl s (if ok then .ok [] else tableFull) u) :=
  runCmd_done specGroveUnpin sl s u _ hst (specGroveUnpin_act hw hg)

/-! #### Reads -/

/-- What a lookup returns of a key. -/
def lookupResult : Option GrvEntry → List Byte
  | none => List.replicate 65 0
  | some e => e.toBytes ++ toLe 1 (if e.static then 3 else if e.pinnedFlag then 2 else 1)

theorem specGroveLookup_act (h : Held) (s : State) :
    specGroveLookup.act h s = .done (.ok (lookupResult (s.entryOf h.mkey))) (s.seeKey h.mkey) := by
  simp only [specGroveLookup]
  cases s.entryOf h.mkey <;> rfl

theorem exec_groveLookup (hst : specGroveLookup.starts sl s = true) :
    exec (.cmdGroveLookup sl) s = .next (specGroveLookup.ends sl s
      (.ok (lookupResult ((specGroveLookup.taken sl s).entryOf (specGroveLookup.held sl s).mkey)))
      ((specGroveLookup.taken sl s).seeKey (specGroveLookup.held sl s).mkey)) :=
  runCmd_done specGroveLookup sl s _ _ hst (specGroveLookup_act _ _)

theorem State.counterSet_ne_nil (s : State) (n : Nat) : s.counterSet n ≠ [] := by
  simp [State.counterSet, toLe]

theorem counterRead_ne_nil {h : Held} (hp : specGroveCounterRead.pre h = none) :
    (rangeFrom (h.u 0 2) (h.u 2 2)).flatMap s.counterSet ≠ [] := by
  simp only [specGroveCounterRead, Option.orElse_eq_none, refuse_eq_none, Bool.or_eq_false_iff, decide_eq_false_iff_not] at hp
  obtain ⟨⟨hn, -⟩, -⟩ := hp
  obtain ⟨n, hn⟩ := Nat.exists_eq_succ_of_ne_zero hn
  rw [hn, Ne, List.flatMap_eq_nil_iff]
  intro hall
  exact s.counterSet_ne_nil _ (hall (0 + h.u 0 2) (List.mem_map_of_mem (List.mem_range.2 (Nat.succ_pos n))))

theorem groveCounterRead_writes (hst : specGroveCounterRead.starts sl s = true) :
    ∃ t, exec (.cmdGroveCounterRead sl) s = .next t ∧ t.ctrs = s.ctrs ∧ t.grv = s.grv ∧
      .hostWrite ((specGroveCounterRead.held sl s).buf 4).1 ((rangeFrom ((specGroveCounterRead.held sl s).u 0 2)
        ((specGroveCounterRead.held sl s).u 2 2)).flatMap (specGroveCounterRead.taken sl s).counterSet) ∈ t.out := by
  have he : exec (.cmdGroveCounterRead sl) s = runCmd specGroveCounterRead sl s := rfl
  have hs := specGroveCounterRead.touches_taken sl s
  have hne := counterRead_ne_nil (s := specGroveCounterRead.taken sl s) (CmdSpec.pre_of_starts hst)
  obtain ⟨t, ht, htou⟩ := runCmd_touches hst (c := specGroveCounterRead) rfl
  rw [State.putBuf, if_neg hne] at htou
  refine ⟨t, he.trans ht, ?_, ?_, htou.out (List.mem_cons_self ..)⟩
  · rw [htou.ctrs]
    exact hs.ctrs
  · rw [htou.grv]
    exact hs.grv

/-! #### Lines and memory -/

/-- A copy of a line that is cleared ends. -/
def endCopy (e : Nat) (w : CpsWay) : Option CpsWay := if (w.st = .clean || w.st = .dirty) && w.line = some e then none else some w

theorem specGroveLineClear_act (h : Held) (s : State) :
    specGroveLineClear.act h s = .done (.ok []) ((s.mapWays (endCopy (h.u 0 4))).wipeLine s.region (h.u 0 4)) := rfl

theorem State.sameLines_mapWays (s : State) (g : CpsWay → Option CpsWay) : s.SameLines (s.mapWays g) := ⟨rfl, rfl, rfl⟩

theorem State.line_wipeLine (s : State) (r e f : Nat) : (s.wipeLine r e).line r f =
    if f = e then s.sealLine r e (((s.line r e).lver + 1) % 65536) GrvEntry.empty false else s.line r f := by
  simp only [State.wipeLine, State.line_setLine, lineKey_inj]

theorem groveLineClear_empties (hst : specGroveLineClear.starts sl s = true) {n : Nat} (hn : (specGroveLineClear.held sl s).u 0 4 = n) :
    ∃ t, exec (.cmdGroveLineClear sl) s = .next t ∧
      t.line s.region n = s.sealLine s.region n (((s.line s.region n).lver + 1) % 65536) GrvEntry.empty false ∧
      (∀ e, e < 2 ^ 24 → e ≠ n → t.line s.region e = s.line s.region e) ∧ t.keys = s.keys ∧ t.mem = s.mem := by
  have he : exec (.cmdGroveLineClear sl) s = runCmd specGroveLineClear sl s := rfl
  have hs := specGroveLineClear.touches_taken sl s
  obtain ⟨t, ht, htou⟩ := runCmd_touches hst (specGroveLineClear_act _ _)
  rw [hn, hs.region] at htou
  generalize specGroveLineClear.taken sl s = u at *
  have hsame : s.SameLines (u.mapWays (endCopy n)) := by
    obtain ⟨hl, henc, hmac⟩ := u.sameLines_mapWays (endCopy n)
    exact ⟨by rw [hl, hs.grv], by rw [henc, hs.grv], by rw [hmac, hs.grv]⟩
  have hline (e : Nat) : t.line s.region e =
      if e = n then s.sealLine s.region n (((s.line s.region n).lver + 1) % 65536) GrvEntry.empty false else s.line s.region e := by
    rw [htou.line, State.line_wipeLine, hsame.sealLine, hsame.line, hsame.line]
  exact ⟨t, he.trans ht, by rw [hline, if_pos rfl], fun e _ hne => by rw [hline, if_neg hne], htou.keys.trans hs.keys, htou.mem.trans hs.mem⟩

theorem specGroveMemAdd_act (h : Held) (s : State) : specGroveMemAdd.act h s =
    .done (.ok (toLe 4 (s.link (h.u 0 1)).cap)) (s.setLink (h.u 0 1) { s.link (h.u 0 1) with awaiting := false, mapped := true }) := rfl

theorem State.grvSt_setLink (s : State) (j : Nat) (l : CxlLink) : (s.setLink j l).grvSt = s.grvSt := rfl

theorem State.lines_setLink (s : State) (j : Nat) (l : CxlLink) : (s.setLink j l).grv.lines = s.grv.lines := rfl

theorem specGroveMemAdd_check {h : Held} {s : State} (hc : specGroveMemAdd.check h s = none) : (s.link (h.u 0 1)).awaiting = true := by
  simpa only [specGroveMemAdd, refuse_eq_none, Bool.not_eq_false'] using hc

theorem groveMemAdd_maps (hst : specGroveMemAdd.starts sl s = true) {j : Nat} (hj : (specGroveMemAdd.held sl s).u 0 1 = j) :
    ∃ t, exec (.cmdGroveMemAdd sl) s = .next t ∧ t.link j = { s.link j with awaiting := false, mapped := true } ∧
      (∀ i, i ≠ j → t.link i = s.link i) ∧ t.grvSt = s.grvSt ∧ t.grv.lines = s.grv.lines := by
  have he : exec (.cmdGroveMemAdd sl) s = runCmd specGroveMemAdd sl s := rfl
  have hs := specGroveMemAdd.touches_taken sl s
  obtain ⟨-, -, hcheck⟩ := CmdSpec.of_starts hst
  have hwait : ((specGroveMemAdd.taken sl s).link j).awaiting = true := hj ▸ specGroveMemAdd_check hcheck
  obtain ⟨t, ht, htou⟩ := runCmd_touches hst (specGroveMemAdd_act _ _)
  rw [hj] at htou
  generalize specGroveMemAdd.taken sl s = u at *
  have hlink (i : Nat) : t.link i = if i = j then { s.link j with awaiting := false, mapped := true } else s.link i := by
    rw [htou.link, State.link_setLink (State.lt_of_awaiting hwait), hs.link, hs.link]
  refine ⟨t, he.trans ht, by rw [hlink, if_pos rfl], fun i hi => by rw [hlink, if_neg hi], ?_, ?_⟩
  · exact (htou.f rfl (by simp)).trans ((u.grvSt_setLink _ _).trans (hs.f rfl (by simp)))
  · rw [htou.grv, State.lines_setLink, hs.grv]

theorem groveRebuild_starts (hst : specGroveRebuild.starts sl s = true) :
    ∃ t, exec (.cmdGroveRebuild sl) s = .next t ∧ t.grvSt = grvBuilding ∧ t.grv.lines = [] ∧ t.grv.mig = none ∧
      t.kInForce = kOf (s.f F.GRV_CTL_BKT_LOG2) ∧ t.grv.copse = s.grv.copse ∧ t.mem = s.mem ∧ t.keys = s.keys := by
  have he : exec (.cmdGroveRebuild sl) s = runCmd specGroveRebuild sl s := rfl
  have hs := specGroveRebuild.touches_taken sl s
  obtain ⟨t, ht, htou⟩ := runCmd_touches hst (c := specGroveRebuild) rfl
  generalize specGroveRebuild.taken sl s = u at *
  obtain ⟨hst, hlines, hmig, hk, hcopse, hmem, hkeys⟩ := u.startBuild_spec
  have hcount : u.f F.GRV_CTL_BKT_LOG2 = s.f F.GRV_CTL_BKT_LOG2 := hs.f rfl (by simp)
  refine ⟨t, he.trans ht, ?_, ?_, ?_, ?_, ?_, ?_, ?_⟩
  · exact (htou.f rfl (by simp)).trans hst
  · rw [htou.grv, hlines]
  · rw [htou.grv, hmig]
  · rw [htou.kInForce, hk, hcount]
  · rw [htou.grv, hcopse, hs.grv]
  · rw [htou.mem, hmem, hs.mem]
  · rw [htou.keys, hkeys, hs.keys]

end CommandLaws

/-- Settles O46: each clause is a lemma of its own; the place of an insert is `State.groveWrite_first`, a delete
`State.deleteKey_held`, an update's flags `GrvEntry.fl_updatedEntry`, and a rebuild `State.startBuild_spec`. -/
theorem groveCommands : Obligations.GroveCommands := by
  unfold Obligations.GroveCommands
  intro s sl
  refine ⟨?_, ?_, fun o i w => groveUpdate_pinned, ?_, ?_, exec_groveDelete, fun o v => grovePin_moves, fun i w u ok => exec_groveUnpin, ?_,
    groveCounterRead_writes, fun h => groveLineClear_empties h rfl, fun h => groveMemAdd_maps h rfl, groveRebuild_starts⟩
  · intro u x hu hx hst hp
    subst hu hx
    exact ⟨fun hw => exec_groveInsert_full hst hp (Prod.ext_iff.mpr ⟨rfl, hw⟩), fun v => groveInsert_first rfl rfl rfl hst hp⟩
  · intro u x v hu hx
    exact groveInsert_pinned hu.symm hx
  · intro o n
    exact ⟨rfl, rfl, rfl, rfl, rfl, rfl, rfl, GrvEntry.fl_updatedEntry o n 3, GrvEntry.fl_updatedEntry o n 4, GrvEntry.fl_updatedEntry o n 6,
      GrvEntry.fl_updatedEntry o n 7, GrvEntry.fl_updatedEntry o n 8, GrvEntry.fl_updatedEntry o n 0, GrvEntry.fl_updatedEntry o n 1,
      GrvEntry.fl_updatedEntry o n 2, GrvEntry.fl_updatedEntry o n 5, rfl, rfl, rfl, GrvEntry.seqValid_reset o n, rfl, rfl, rfl, rfl, rfl⟩
  · intro i w hst hc _
    exact groveDelete_held hst hc
  · intro hst
    rw [exec_groveLookup hst]
    cases (specGroveLookup.taken sl s).entryOf (specGroveLookup.held sl s).mkey <;> rfl

end Sys2Proof.Machine

/-! # Sluice entries and the egress lane (O9) -/

namespace Sys2Proof.Machine

/-! ### Changes of the frames and their counters alone -/

/-- From `s` to `t` only frames, counters and what has left the device change, and nothing that has left is forgotten. -/
structure State.Sends (s t : State) : Prop where
  eq : ∃ c p o, t = { s with ctrs := c, fp := p, out := o }
  out : s.out ⊆ t.out

/-- From `s` to `t` memory and the keys stay, and nothing that has left is forgotten. -/
structure State.Retains (s t : State) : Prop where
  mem : t.mem = s.mem
  keys : t.keys = s.keys
  out : s.out ⊆ t.out

section SendLaws

variable {s t u : State} {k : Nat}

theorem State.Sends.refl : s.Sends s := ⟨⟨_, _, _, rfl⟩, List.Subset.refl _⟩

theorem State.Sends.trans (h : s.Sends t) (g : t.Sends u) : s.Sends u := by
  obtain ⟨⟨c, p, o, rfl⟩, ho⟩ := h
  obtain ⟨⟨c', p', o', rfl⟩, go⟩ := g
  exact ⟨⟨c', p', o', rfl⟩, List.Subset.trans ho go⟩

theorem State.Sends.rd (h : s.Sends t) (a : Nat) : t.rd a = s.rd a := by obtain ⟨c, p, o, rfl⟩ := h.eq; rfl

theorem State.Sends.lane (h : s.Sends t) (k : Nat) : t.lane k = s.lane k := by obtain ⟨c, p, o, rfl⟩ := h.eq; rfl

theorem State.Sends.clearing (h : s.Sends t) (k : Nat) : t.clearing k = s.clearing k := by rw [State.clearing, State.clearing, h.rd]

theorem State.Sends.retains (h : s.Sends t) : s.Retains t := by
  obtain ⟨⟨c, p, o, rfl⟩, ho⟩ := h
  exact ⟨rfl, rfl, ho⟩

theorem State.Sends.if_ {p : Prop} {_ : Decidable p} (ht : s.Sends t) (hu : s.Sends u) : s.Sends (if p then t else u) := by
  split <;> assumption

theorem State.Sends.pc (h : s.Sends u) {p off} : s.Sends (u.pc p off) := by
  obtain ⟨c, hc⟩ := u.pc_eq p off
  exact h.trans (hc ▸ ⟨⟨_, _, _, rfl⟩, List.Subset.refl _⟩)

theorem State.Sends.emit (h : s.Sends u) {o} : s.Sends (u.emit o) := h.trans ⟨⟨_, _, _, rfl⟩, List.subset_cons_self _ _⟩

/-- Frames, and what the frame path remembers of them. -/
theorem State.Sends.setFp (h : s.Sends u) {p} : s.Sends { u with fp := p } := h.trans ⟨⟨_, _, _, rfl⟩, List.Subset.refl _⟩

theorem State.Sends.setCopy (h : s.Sends u) {ident c} : s.Sends (u.setCopy ident c) := by
  unfold State.setCopy
  split
  exacts [h.setFp, h]

theorem State.Sends.countDiscard (h : s.Sends u) {f} : s.Sends (u.countDiscard f) := by
  unfold State.countDiscard
  split
  · split
    · exact h
    · next g _ _ =>
      obtain ⟨c, hc⟩ := (u.setFrame { g with counted := true }).countStream_eq f.entry 0x18 1
      exact h.trans (hc ▸ ⟨⟨_, _, _, rfl⟩, List.Subset.refl _⟩)
  · exact h

theorem State.Sends.countWaits (h : s.Sends u) : s.Sends (u.countWaits k) :=
  State.forEach_inv (fun _ _ h => State.doIf_inv h.setCopy h.setCopy.pc) _ h

theorem State.Sends.preempt (h : s.Sends u) {x} : s.Sends (u.preempt k x) := State.doIf_inv h.emit.setCopy h.emit.setCopy.pc

theorem State.Sends.closeGates (h : s.Sends u) : s.Sends (u.closeGates k) := by
  unfold State.closeGates
  split
  exacts [.if_ (.if_ h.preempt (.if_ h h.setCopy.pc)) h, h]

theorem State.Retains.trans (h : s.Retains t) (g : t.Retains u) : s.Retains u :=
  ⟨g.mem.trans h.mem, g.keys.trans h.keys, List.Subset.trans h.out g.out⟩

theorem State.Retains.sends (h : s.Retains t) (g : t.Sends u) : s.Retains u := h.trans g.retains

theorem State.Retains.raise (h : s.Retains u) {src bit data} (hc : src.cls < 16) : s.Retains (u.raise src bit data) :=
  have ht : u.Touches (u.raise src bit data) [src.evt] := State.Touches.refl.raise hc (by simp)
  h.trans ⟨ht.mem, ht.keys, ht.out⟩

theorem State.Retains.countStomp (h : s.Retains u) {f c} : s.Retains (u.countStomp f c) := by
  have hp (p off : Nat) : s.Retains (u.pc p off) := h.sends State.Sends.refl.pc
  unfold State.countStomp
  cases f.verdict with
  | none => exact (hp _ _).raise (by decide)
  | some v => cases v <;> exact hp _ _

theorem State.Retains.stompEvt (h : s.Retains u) {p} : s.Retains (u.stompEvt p) := by
  unfold State.stompEvt
  split
  exacts [h, (h.sends State.Sends.refl.setFp).raise (by decide)]

end SendLaws

/-! ### Schedules -/

section EntryLaws

variable {s : State} {p : Fin 1024} {tx : Bool} {n : Nat}

theorem exec_sluiceEntry_last (h : s.nent p tx ≤ s.entryNow p tx + 1) : exec (.sluiceEntry p tx) s = .next s := if_pos h

/-- The state at another angle. -/
def State.withGac (s : State) (g : Gac) : State := { s with gac := g }

theorem State.rd_withGac (s : State) (g : Gac) (a : Nat) : (s.withGac g).rd a = s.rd a := rfl

theorem State.mem_withGac (s : State) (g : Gac) : (s.withGac g).mem = s.mem := rfl

theorem State.keys_withGac (s : State) (g : Gac) : (s.withGac g).keys = s.keys := rfl

theorem State.nent_withGac (s : State) (g : Gac) (p : Nat) (tx : Bool) : (s.withGac g).nent p tx = s.nent p tx := rfl

/-- The clock when the angle has come to the START of the next entry. -/
def State.gacNext (s : State) (p : Nat) (tx : Bool) : Gac := s.gac.toAngle (entStart (s.entAt p tx (s.entryNow p tx + 1)))

theorem exec_sluiceEntry (h : s.entryNow p tx + 1 < s.nent p tx) :
    exec (.sluiceEntry p tx) s = .next ((s.withGac (s.gacNext p tx)).takeEntry p tx (s.entryNow p tx + 1)) := if_neg (Nat.not_le.2 h)

/-- What the state register shows of an entry. -/
def State.entryWord (s : State) (p : Nat) (tx : Bool) (n : Nat) : Word :=
  BitVec.ofNat 32 (s.gatesOf p tx (s.entAt p tx n) * 2 ^ 24 + n * 2 ^ 16 + b2n (entClearing (s.entAt p tx n)))

theorem State.entryWord_withGac (s : State) (g : Gac) (p : Nat) (tx : Bool) (n : Nat) :
    (s.withGac g).entryWord p tx n = s.entryWord p tx n := rfl

theorem State.enterEntry_eq {p : Nat} (h : s.nent p tx ≠ 0) : s.enterEntry p tx n = s.wr (sluState p tx) (s.entryWord p tx n) := if_neg h

/-- The CLEARING bit of the state register. -/
theorem State.bitAt_entryWord {p : Nat} : bitAt (s.entryWord p tx n).toNat 0 = entClearing (s.entAt p tx n) := by
  rw [bitAt, State.entryWord, BitVec.toNat_ofNat, Nat.testBit_zero]
  cases entClearing (s.entAt p tx n) <;> simp [b2n] <;> omega

/-- No Clearing is in force on a port or begins with an entry, and the port's lane has no work of one left. -/
structure State.NoClearing (s : State) (p n : Nat) : Prop where
  now : s.clearing p = false
  next : entClearing (s.entAt p true n) = false
  task : (s.lane (s.portLane p)).taskDue = false
  frames : (s.lane (s.portLane p)).calLeft = 0
  request : (s.lane (s.portLane p)).pdReq = false

theorem State.takeEntry_rx {p : Nat} : s.takeEntry p false n = s.enterEntry p false n := by
  simp only [State.takeEntry, Bool.and_false, Bool.false_and, State.doIf, Bool.false_eq_true, if_false]

/-- On a lane with no work of a Clearing left, a gate that closes changes frames alone. -/
theorem State.sends_gates {k : Nat} (ht : (s.lane k).taskDue = false) (hf : (s.lane k).calLeft = 0) (hr : (s.lane k).pdReq = false) :
    s.Sends ((((s.closeGates k).taskNow k).calSkip k).countWaits k) := by
  have hclose : s.Sends (s.closeGates k) := State.Sends.refl.closeGates
  have htask : (s.closeGates k).taskNow k = s.closeGates k := by simp [State.taskNow, hclose.lane, ht]
  have hskip : (s.closeGates k).calSkip k = s.closeGates k := by simp [State.calSkip, hclose.lane, hf, hr]
  rw [htask, hskip]
  exact hclose.countWaits

theorem State.lane_wr (s : State) (a : Nat) (v : Word) (k : Nat) : (s.wr a v).lane k = s.lane k := rfl

theorem State.portLane_wr (s : State) (a : Nat) (v : Word) (p : Nat) : (s.wr a v).portLane p = s.portLane p := rfl

/-- Where no Clearing begins or ends and none has work left, an entry changes its state register and the frames of its lane. -/
theorem State.sends_takeEntry_tx {p : Nat} (hn : s.nent p true ≠ 0) (hq : s.NoClearing p n) :
    (s.wr (sluState p true) (s.entryWord p true n)).Sends (s.takeEntry p true n) := by
  obtain ⟨hnow, hnext, htask, hframes, hrequest⟩ := hq
  have hword := s.bitAt_entryWord (tx := true) (n := n) (p := p)
  rw [hnext] at hword
  simp only [State.takeEntry, hnow, Bool.and_false, State.doIf, Bool.false_eq_true, if_false, if_true, State.enterEntry_eq hn]
  generalize s.entryWord p true n = w at hword
  have hgates : (s.wr (sluState p true) w).Sends
      (((((s.wr (sluState p true) w).closeGates (s.portLane p)).taskNow (s.portLane p)).calSkip (s.portLane p)).countWaits (s.portLane p)) := by
    apply State.sends_gates <;> rw [State.lane_wr] <;> assumption
  have hclear : (s.wr (sluState p true) w).clearing p = false := by rw [State.clearing, State.rd_wr_self, hword]
  rw [State.portLane_wr, hgates.clearing, hclear]
  simpa using hgates

theorem State.sends_takeEntry {p : Nat} (hn : s.nent p tx ≠ 0) (hq : tx = false ∨ s.NoClearing p n) :
    (s.wr (sluState p tx) (s.entryWord p tx n)).Sends (s.takeEntry p tx n) := by
  cases tx with
  | false =>
    rw [State.takeEntry_rx, State.enterEntry_eq hn]
    exact .refl
  | true => exact State.sends_takeEntry_tx hn (hq.resolve_left (by decide))

theorem State.NoClearing.withGac {p : Nat} (h : s.NoClearing p n) (g : Gac) : (s.withGac g).NoClearing p n :=
  ⟨h.now, h.next, h.task, h.frames, h.request⟩

theorem sluiceEntry_shows (h : s.entryNow p tx + 1 < s.nent p tx) (hq : tx = false ∨ s.NoClearing p (s.entryNow p tx + 1)) :
    ∃ t, exec (.sluiceEntry p tx) s = .next t ∧ t.rd (sluState p tx) = s.entryWord p tx (s.entryNow p tx + 1) ∧
      (∀ a, a ≠ sluState p tx → t.rd a = s.rd a) ∧ t.mem = s.mem ∧ t.keys = s.keys := by
  refine ⟨_, exec_sluiceEntry h, ?_⟩
  generalize s.gacNext p tx = g
  have hn : (s.withGac g).nent p tx ≠ 0 := by rw [s.nent_withGac]; omega
  have ht := State.sends_takeEntry hn (hq.imp_right (·.withGac g))
  refine ⟨?_, fun a ha => ?_, ?_, ?_⟩
  · rw [ht.rd, State.rd_wr_self, s.entryWord_withGac]
  · rw [ht.rd, State.rd_wr_ne _ _ ha, s.rd_withGac]
  · rw [ht.retains.mem, State.mem_wr, s.mem_withGac]
  · rw [ht.retains.keys, State.keys_wr, s.keys_withGac]

end EntryLaws

/-! ### The transmissions of a lane -/

section EgressLaws

variable {s u : State} {k : Fin 32} {id : Nat} {c : FCopy} {f : Frame} {x : Nat × FCopy}

theorem State.lane_setLane_self (s : State) (k : Nat) (l : Lane) : (s.setLane k l).lane k = l := Tbl.get_set_self _ _ _ _

/-- A lane that is UP and free takes the next transmission. -/
theorem exec_egressTxStart_idle (hup : s.laneUp k = true) (hfree : (s.countWaits k).sendingOn k = none) :
    exec (.egressTxStart k) s = .next ((s.countWaits k).egressIdle k) := by
  have he : exec (.egressTxStart k) s = execEgressTxStart k s := rfl
  simp only [he, execEgressTxStart, hup, hfree, Bool.not_true, Bool.false_eq_true, if_false]

/-- The Dike head that is due goes first. -/
theorem State.egressIdle_dike {k : Nat} (hh : s.dikeHead k = some x) (hd : s.dikeDue k x = true) : s.egressIdle k = s.startId x := by
  simp only [State.egressIdle, hh, Option.filter_some, hd, if_true]

/-- With no Dike copy due, no frame of a Clearing and none preempted, the next copy of classes 6 to 0 starts. -/
theorem State.egressIdle_low {k : Nat} (hd : (s.dikeHead k).filter (s.dikeDue k) = none) (hr : (s.lane k).pdReq = false)
    (hc : (s.lane k).calLeft = 0) (hp : s.preemptedOn k = none) (hx : s.nextLow k [6, 5, 4, 3, 2, 1, 0] = some x) :
    s.egressIdle k = s.startLow k x := by
  simp [State.egressIdle, hd, hr, hc, hp, hx]

theorem egressTxStart_low (hup : s.laneUp k = true) (hfree : (s.countWaits k).sendingOn k = none)
    (hi : (s.countWaits k).egressIdle k = u.startLow k x) :
    ∃ t, exec (.egressTxStart k) s = .next t ∧ (t.lane k).rr = ((u.startId x).lane k).rr.set x.2.cls (some x.2.port) ∧
      t.fp = (u.startId x).fp := by
  refine ⟨u.startLow k x, (exec_egressTxStart_idle hup hfree).trans (congrArg _ hi), ?_, rfl⟩
  rw [State.startLow, State.lane_setLane_self]

/-- The state after the FCS of a copy has been sent: correct where `good`, its complement otherwise. -/
def State.sendFcs (s : State) (k id : Nat) (c : FCopy) (good : Bool) : State :=
  (s.setCopy id { c with fcs := some good }).emit (c.out k (!good))

/-- A complemented FCS is counted by its cause, and for the stream of its frame. -/
def State.stompCopy (s : State) (f : Frame) (c : FCopy) : State := ((s.countStomp f c).stompEvt c.port).countDiscard f

section Sending

variable (hs : s.sendingOn k = some (id, c)) (hf : s.frame id = some f)
include hs hf

theorem exec_egressFcs (hc : c.fcs = none) :
    exec (.egressFcs k) s =
      .next ((s.sendFcs k id c (f.verdict = some .pass && !c.spoilt)).doIf (!(f.verdict = some .pass && !c.spoilt)) (·.stompCopy f c)) := by
  have he : exec (.egressFcs k) s = execEgressFcs k s := rfl
  simp only [he, execEgressFcs, hs, hf, hc]
  rfl

theorem egressFcs_passed (hc : c.fcs = none) (hv : f.verdict = some .pass) (hp : c.spoilt = false) :
    exec (.egressFcs k) s = .next ((s.setCopy id { c with fcs := some true }).emit (c.out k false)) := by
  have hg : (f.verdict = some .pass && !c.spoilt) = true := by simp [hv, hp]
  rw [exec_egressFcs hs hf hc, hg]
  rfl

theorem egressFcs_complemented (hc : c.fcs = none) (hv : f.verdict ≠ some .pass) :
    ∃ t, exec (.egressFcs k) s = .next t ∧ c.out k true ∈ t.out ∧ t.mem = s.mem ∧ t.keys = s.keys := by
  have hsend : s.Sends (s.sendFcs k id c false) := State.Sends.refl.setCopy.emit
  have hstomp : (s.sendFcs k id c false).Retains ((s.sendFcs k id c false).stompCopy f c) :=
    State.Retains.sends (.stompEvt (.countStomp State.Sends.refl.retains)) State.Sends.refl.countDiscard
  have hall := hsend.retains.trans hstomp
  refine ⟨_, ?_, hstomp.out (List.mem_cons_self ..), hall.mem, hall.keys⟩
  rw [exec_egressFcs hs hf hc, decide_eq_false hv]
  rfl

/-- What the end of a transmission does before the copy leaves its queue: a stored copy leaves the device, a Dike copy is charged. -/
def State.sendEnd (s : State) (k : Nat) (f : Frame) (c : FCopy) : State :=
  (s.doIf c.stored (fun s => (s.emit (c.out k c.spoilt)).doIf c.spoilt (·.endSpoilt f c))).doIf (c.cls = 7) (·.charge (R.SLU_TX_LEFT c.port) c.len)

theorem exec_egressTxEnd {b : Bool} (hc : c.fcs = some b) :
    exec (.egressTxEnd k) s = .next (((s.sendEnd k f c).dropCopy id c).taskNow k) := by
  have he : exec (.egressTxEnd k) s = execEgressTxEnd k s := rfl
  simp only [he, execEgressTxEnd, hs, hf, hc]
  rfl

end Sending

theorem State.sendEnd_stored {k : Nat} (h7 : c.cls ≠ 7) (hst : c.stored = true) (hp : c.spoilt = false) :
    s.sendEnd k f c = s.emit (c.out k false) := by
  simp [State.sendEnd, State.doIf, h7, hst, hp]

theorem State.sendEnd_dike {k : Nat} (h7 : c.cls = 7) (hst : c.stored = false) :
    s.sendEnd k f c = s.charge (R.SLU_TX_LEFT c.port) c.len := by
  simp [State.sendEnd, State.doIf, h7, hst]

end EgressLaws

/-- Settles O9: an entry that takes effect is `State.sends_takeEntry`, the choice of a free lane `State.egressIdle_dike` and
`State.egressIdle_low`, and the end of a transmission `exec_egressTxEnd`. -/
theorem sluiceEgress : Obligations.SluiceEgress := by
  unfold Obligations.SluiceEgress
  intro s
  refine ⟨fun p tx => exec_sluiceEntry_last, fun p tx => exec_sluiceEntry, ?_, ?_, ?_, fun k id c f => egressFcs_passed,
    fun k id c f => egressFcs_complemented, ?_, ?_⟩
  · intro p tx h hq
    cases tx with
    | false => exact sluiceEntry_shows h (.inl rfl)
    | true =>
      obtain ⟨hnow, hnext, htask, hframes, hrequest⟩ := hq.resolve_left (by decide)
      exact sluiceEntry_shows h (.inr ⟨hnow, hnext, htask, hframes, hrequest⟩)
  · rintro k d u rfl hup hfree hh hd
    rw [exec_egressTxStart_idle hup hfree, State.egressIdle_dike hh hd]
  · rintro k x u rfl hup hfree hd hr hc hp hx
    exact egressTxStart_low hup hfree (State.egressIdle_low hd hr hc hp hx)
  · intro k id c f b hs hf hc h7 hst hp
    rw [exec_egressTxEnd hs hf hc, State.sendEnd_stored h7 hst hp]
  · intro k id c f b hs hf hc h7 hst
    rw [exec_egressTxEnd hs hf hc, State.sendEnd_dike h7 hst]

end Sys2Proof.Machine

/-! # MAC merge verification, LLDP and the loss of an extender (O12) -/

namespace Sys2Proof.Machine

/-- The registers of the lanes, of the extenders and of the Sluices' lanes are none that an event writes. -/
theorem evtFree_of_lane {a : Nat} (h : 0x4000 ≤ a) (g : a < 0xD0000) : evtFree a = true := by simp [evtFree, h, g]

/-! ### Parts held by index -/

section IndexLaws

variable {s t : State} {l : List Nat}

theorem State.Touches.ext (h : s.Touches t l) : t.ext = s.ext := by obtain ⟨r, c, o, rfl⟩ := h.eq; rfl

theorem State.Touches.ctxs (h : s.Touches t l) : t.ctxs = s.ctxs := by obtain ⟨r, c, o, rfl⟩ := h.eq; rfl

theorem State.Touches.lanes (h : s.Touches t l) : t.lanes = s.lanes := by obtain ⟨r, c, o, rfl⟩ := h.eq; rfl

theorem State.Touches.xt (h : s.Touches t l) (k : Nat) : t.xt k = s.xt k := by rw [State.xt, State.xt, h.ext]

theorem State.Touches.ctx (h : s.Touches t l) (p : Nat) : t.ctx p = s.ctx p := by rw [State.ctx, State.ctx, h.ctxs]

theorem State.xt_setXt_self (s : State) (k : Nat) (x : Extender) : (s.setXt k x).xt k = x := Tbl.get_set_self _ _ _ _

theorem State.ctx_setCtx (s : State) (q : Nat) (c : Ctx) {p : Nat} (hp : 32 ≤ p) : (s.setCtx q c).ctx p = if p = q then c else s.ctx p := by
  simp [State.ctx, State.setCtx, Nat.not_lt.2 hp, Tbl.get_set]

/-- A key that does not read as its default is listed with what it reads as. -/
theorem Tbl.get_mem {α : Type} {d : Nat → α} {m : Tbl α} {k : Nat} (h : Tbl.get d m k ≠ d k) : (k, Tbl.get d m k) ∈ m := by
  induction m with
  | nil => exact absurd rfl h
  | cons e m ih =>
    obtain ⟨j, v⟩ := e
    rw [Tbl.get] at h ⊢
    split at h
    next hk => simp [hk]
    next hk =>
      rw [if_neg hk]
      exact List.mem_cons_of_mem _ (ih h)

end IndexLaws

/-! ### The contexts of a lane -/

/-- Contexts enter a state. -/
def State.markCtxs (s : State) (cs : List Nat) (st : Nat) : State := s.forEach cs (fun s p => s.setCtx p { s.ctx p with st := st })

section ContextLaws

variable {s : State} {k st x : Nat} {cs sts : List Nat}

theorem State.markCtxs_eq (s : State) (cs : List Nat) (st : Nat) : ∃ c, s.markCtxs cs st = { s with ctxs := c } :=
  State.forEach_inv (P := fun u => ∃ c, u = { s with ctxs := c }) (fun _ _ ⟨_, hu⟩ => hu ▸ ⟨_, rfl⟩) cs ⟨_, rfl⟩

theorem State.ctx_markCtxs (s : State) (cs : List Nat) (st : Nat) {p : Nat} (hp : 32 ≤ p) :
    (s.markCtxs cs st).ctx p = if p ∈ cs then { s.ctx p with st := st } else s.ctx p := by
  induction cs generalizing s with
  | nil => simp [State.markCtxs, State.forEach]
  | cons q cs ih =>
    have hstep : s.markCtxs (q :: cs) st = (s.setCtx q { s.ctx q with st := st }).markCtxs cs st := rfl
    rw [hstep, ih, State.ctx_setCtx _ _ _ hp]
    by_cases hq : p = q <;> by_cases hm : p ∈ cs <;> simp [hq, hm]

/-- A context of the pool that a read shows in a lane, in a state of those asked for, is among the contexts of the lane. -/
theorem State.mem_ctxsOf {p : Nat} (hp : 32 ≤ p) (hl : (s.ctx p).lane = k) (hs : (s.ctx p).st ∈ sts) (h0 : ctxFree ∉ sts) :
    p ∈ s.ctxsOf k sts := by
  have hget : s.ctx p = Tbl.get (fun _ => Ctx.free) s.ctxs p := if_neg (Nat.not_lt.2 hp)
  have hne : Tbl.get (fun _ => Ctx.free) s.ctxs p ≠ Ctx.free := by
    rw [← hget]
    intro hfree
    rw [hfree] at hs
    exact h0 hs
  refine List.mem_map.2 ⟨(p, s.ctx p), List.mem_filter.2 ⟨hget ▸ Tbl.get_mem hne, ?_⟩, rfl⟩
  simp [hl, hs]

/-- Once the contexts of a lane in a state have entered another, none of the lane is in the first. -/
theorem State.st_markCtxs_ne (hx : x ∈ sts) (h0 : ctxFree ∉ sts) (hne : st ≠ x) {p : Nat} (hp : 32 ≤ p)
    (hl : ((s.markCtxs (s.ctxsOf k sts) st).ctx p).lane = k) : ((s.markCtxs (s.ctxsOf k sts) st).ctx p).st ≠ x := by
  rw [State.ctx_markCtxs _ _ _ hp] at hl ⊢
  split at hl
  next hm => rw [if_pos hm]; exact hne
  next hm =>
    rw [if_neg hm]
    intro hst
    exact hm (State.mem_ctxsOf hp hl (hst ▸ hx) h0)

end ContextLaws

/-! ### MAC merge -/

section MergeLaws

variable {s : State} {k : Fin 32}

theorem mmVerifyTimer_next (hv : s.f (F.SLU_MM_STS_VSTATE k) = 2) (hn : (s.lane k).verifies < 3) :
    exec (.mmVerifyTimer k) s =
      .next ((s.emit (.control k kVerify [])).setLane k { s.lane k with verifies := (s.lane k).verifies + 1 }) :=
  (if_neg (not_not.2 hv)).trans (if_pos hn)

theorem State.touches_mmFail (s : State) (k : Nat) : s.Touches (s.mmFail k) [R.SLU_EVT] :=
  .if_ (State.Touches.refl.raise (by decide) (by simp [sluEvt])) .refl

/-- A failed verification of a lane with a Dike budget is flagged. -/
theorem State.bitAt_mmFail {k : Nat} (h : s.laneHasDike k = true) : bitAt ((s.mmFail k).rd R.SLU_EVT).toNat 0 = true := by
  rw [State.mmFail, if_pos h]
  exact s.bitAt_raise (src := sluEvt) (by decide) rfl (by decide)

theorem State.f_vstate_setF (s : State) (k x : Nat) (hx : x < 8) : (s.setF (F.SLU_MM_STS_VSTATE k) x).f (F.SLU_MM_STS_VSTATE k) = x := by
  rw [State.f_setF_self _ _ _ (show (0 : Nat) + 3 ≤ 32 by decide)]
  exact Nat.mod_eq_of_lt hx

/-- A register that a field set to other than 0 may share stays other than 0. -/
theorem State.rd_ne_zero_setF (s : State) {f : Fld} {x a : Nat} (hw : f.lo + f.w ≤ 32) (hx : x % 2 ^ f.w ≠ 0) (h : s.rd a ≠ 0) :
    (s.setF f x).rd a ≠ 0 := by
  by_cases ha : a = f.addr
  · intro hz
    have hf := s.f_setF_self f x hw
    rw [State.f, ← ha, hz] at hf
    exact hx (hf.symm.trans (by simp [bitsOf_eq]))
  · rwa [s.rd_setF_ne x ha]

theorem State.laneHasDike_failed (h : s.laneHasDike k = true) : (s.setF (F.SLU_MM_STS_VSTATE k) 4).laneHasDike k = true := by
  obtain ⟨p, hp, hb⟩ := List.any_eq_true.1 h
  refine List.any_eq_true.2 ⟨p, hp, decide_eq_true (State.rd_ne_zero_setF s ?_ ?_ (of_decide_eq_true hb))⟩
  · exact (show (0 : Nat) + 3 ≤ 32 by decide)
  · exact (show 4 % 2 ^ 3 ≠ 0 by decide)

theorem mmVerifyTimer_fails (hv : s.f (F.SLU_MM_STS_VSTATE k) = 2) (hn : 3 ≤ (s.lane k).verifies) :
    ∃ t, exec (.mmVerifyTimer k) s = .next t ∧ t.f (F.SLU_MM_STS_VSTATE k) = 4 ∧
      (s.laneHasDike k = true → bitAt (t.rd R.SLU_EVT).toNat 0 = true) := by
  refine ⟨(s.setF (F.SLU_MM_STS_VSTATE k) 4).mmFail k, (if_neg (not_not.2 hv)).trans (if_neg (Nat.not_lt.2 hn)), ?_,
    fun h => State.bitAt_mmFail (State.laneHasDike_failed h)⟩
  rw [(State.touches_mmFail _ _).f, State.f_vstate_setF _ _ _ (by decide)]
  · refine evtFree_of_lane ?_ ?_ <;> simp only [F.SLU_MM_STS_VSTATE] <;> omega
  · simp only [F.SLU_MM_STS_VSTATE, R.SLU_EVT, List.mem_singleton]
    omega

theorem mmVerifyRx_ends (hv : s.f (F.SLU_MM_STS_VSTATE k) = 2) :
    ∃ t, exec (.mmVerifyRx k) s = .next t ∧ t.f (F.SLU_MM_STS_VSTATE k) = 3 ∧ t.mmActive k = true := by
  have hw : (F.SLU_MM_STS_ACTIVE k).lo + (F.SLU_MM_STS_ACTIVE k).w ≤ 32 := show (3 : Nat) + 1 ≤ 32 by decide
  refine ⟨(s.setF (F.SLU_MM_STS_VSTATE k) 3).mmStart k, if_neg (not_not.2 hv), ?_, ?_⟩
  · refine (State.f_setF_ne (f := F.SLU_MM_STS_ACTIVE k) _ 1 hw ?_).trans (State.f_vstate_setF _ _ _ (by decide))
    simp [Fld.apart, F.SLU_MM_STS_ACTIVE, F.SLU_MM_STS_VSTATE]
  · have ha := State.f_setF_self (s.setF (F.SLU_MM_STS_VSTATE k) 3) (F.SLU_MM_STS_ACTIVE k) 1 hw
    exact decide_eq_true (ne_of_eq_of_ne ha (by simp [F.SLU_MM_STS_ACTIVE]))

end MergeLaws

/-! ### LLDP -/

/-- The registers that a measurement of a lane writes. -/
def strobeRegs (k : Nat) : List Nat := [R.CAL_TS_TX_OFS k, R.CAL_TS_RX_OFS k, R.CAL_TS_STS k, R.CAL_EVT]

section LldpLaws

variable {s : State} {k : Fin 32}

theorem State.touches_showCalibrated (s : State) (k : Nat) : s.Touches (s.showCalibrated k) (strobeRegs k) :=
  State.Touches.refl.setF (.inr (by simp [strobeRegs, F.CAL_TS_STS_CALIBRATED, R.CAL_TS_STS]))

/-- A measurement changes what the lane has measured, and registers of the calibration. -/
theorem State.touches_calMeasure (s : State) (k : Nat) (tx : Bool) (m : Int) :
    ∃ c, ({ s with cal := c } : State).Touches (s.calMeasure k tx m) (strobeRegs k) := by
  have ha : (if tx then R.CAL_TS_TX_OFS k else R.CAL_TS_RX_OFS k) ∈ strobeRegs k := by cases tx <;> simp [strobeRegs]
  have ho : (F.CAL_TS_STS_OUTLIERS k).addr ∈ strobeRegs k := by simp [strobeRegs, F.CAL_TS_STS_OUTLIERS, R.CAL_TS_STS]
  unfold State.calMeasure
  extract_lets c a put
  split
  next f o _ =>
    exact ⟨(s.setCalLane k (put f)).cal, (State.Touches.wr .refl (.inr ha)).trans (State.touches_showCalibrated _ _)⟩
  next f _ => exact ⟨(s.setCalLane k (put f)).cal, State.Touches.setF .refl (.inr ho)⟩
  next =>
    refine ⟨(s.setCalLane k (put CalFilter.fresh)).cal, ?_⟩
    exact ((State.Touches.setF .refl (.inr ho)).trans (State.touches_showCalibrated _ _)).raise (by decide) (by simp [strobeRegs, calEvt])

theorem State.touches_calReceive (s : State) (k : Nat) :
    ∃ n c, ({ s with free := n, cal := c } : State).Touches (s.calReceive k) (strobeRegs k) := by
  unfold State.calReceive
  split
  · obtain ⟨c, hc⟩ := (s.padStrobe k false).2.touches_calMeasure k false (s.padStrobe k false).1
    exact ⟨_, c, hc⟩
  · exact ⟨_, _, .refl⟩

theorem State.ext_calReceive (s : State) (k : Nat) : (s.calReceive k).ext = s.ext := by
  obtain ⟨n, c, h⟩ := s.touches_calReceive k
  exact h.ext

theorem State.isExt_calReceive (s : State) (k : Fin 32) : (s.calReceive k).isExt k = s.isExt k := by
  obtain ⟨n, c, h⟩ := s.touches_calReceive k
  rw [State.isExt, State.fb, h.f]
  · rfl
  · refine evtFree_of_lane ?_ ?_ <;> simp only [F.LNE_LANE_CTL_EXT] <;> omega
  · simp only [strobeRegs, F.LNE_LANE_CTL_EXT, R.CAL_TS_TX_OFS, R.CAL_TS_RX_OFS, R.CAL_TS_STS, R.CAL_EVT, List.mem_cons,
      List.not_mem_nil, or_false]
    omega

theorem State.ext_mmUnverified (s : State) (k : Nat) : (s.mmUnverified k).ext = s.ext := by
  unfold State.mmUnverified
  split <;> rfl

theorem State.partner_mmUnverified (s : State) (k : Nat) : ((s.mmUnverified k).lane k).partner = (s.lane k).partner := by
  unfold State.mmUnverified
  split
  · rw [State.mmStart, State.lane_setLane_self]
  · rfl

theorem State.isExt_mmUnverified (s : State) (k : Fin 32) : (s.mmUnverified k).isExt k = s.isExt k := by
  have hne : (F.LNE_LANE_CTL_EXT k).addr ≠ (F.SLU_MM_STS_ACTIVE k).addr :=
    show 0x30100 + 0x20 * k.val ≠ 0x50404 + 8 * k.val by omega
  unfold State.mmUnverified
  split
  · exact congrArg (fun n => decide (n ≠ 0)) (s.f_wr_ne _ hne)
  · rfl

/-- A lane hears its partner: the receive strobe, the capability that the partner advertises, and preemption where that is enough. -/
def State.hearPartner (s : State) (k : Nat) (pre : Bool) : State :=
  ((s.calReceive k).setLane k { (s.calReceive k).lane k with partner := pre }).mmUnverified k

/-- An extender announces itself where the lane had none or had lost it. -/
def State.extAnnounced (s : State) (k : Nat) : State :=
  if (s.xt k).st = xNone then s.setXt k { s.xt k with st := xAnnounced, backoff := 0 }
  else if (s.xt k).st = xLost then s.setXt k { s.xt k with st := xAnnounced }
  else s

theorem exec_lldpRx {pre ext : Bool} (h : s.laneUp k = true) :
    exec (.lldpRx k pre ext) s =
      .next (if ext && (s.hearPartner k pre).isExt k then (s.hearPartner k pre).extAnnounced k else s.hearPartner k pre) := by
  have he : exec (.lldpRx k pre ext) s = execLldpRx k pre ext s := rfl
  have hx : (s.hearPartner k pre) = ((s.calReceive k).setLane k { (s.calReceive k).lane k with partner := pre }).mmUnverified k := rfl
  simp only [he, execLldpRx, h, Bool.not_true, Bool.false_eq_true, if_false, ← hx, State.extAnnounced]
  split_ifs <;> rfl

theorem State.lanes_extAnnounced (s : State) (k : Nat) : (s.extAnnounced k).lanes = s.lanes := by
  unfold State.extAnnounced
  split_ifs <;> rfl

theorem State.st_extAnnounced {k : Nat} (h : (s.xt k).st = xNone ∨ (s.xt k).st = xLost) : ((s.extAnnounced k).xt k).st = xAnnounced := by
  unfold State.extAnnounced
  split_ifs with hn hl
  · rw [State.xt_setXt_self]
  · rw [State.xt_setXt_self]
  · exact absurd h (not_or.2 ⟨hn, hl⟩)

theorem State.ext_hearPartner (s : State) (k : Nat) (pre : Bool) : (s.hearPartner k pre).ext = s.ext :=
  (State.ext_mmUnverified _ _).trans (s.ext_calReceive k)

theorem State.isExt_hearPartner (s : State) (k : Fin 32) (pre : Bool) : (s.hearPartner k pre).isExt k = s.isExt k :=
  (State.isExt_mmUnverified _ _).trans (s.isExt_calReceive k)

theorem State.partner_hearPartner (s : State) (k : Nat) (pre : Bool) : ((s.hearPartner k pre).lane k).partner = pre := by
  rw [State.hearPartner, State.partner_mmUnverified, State.lane_setLane_self]

theorem lldpRx_records {pre ext : Bool} (h : s.laneUp k = true) :
    ∃ t, exec (.lldpRx k pre ext) s = .next t ∧ (t.lane k).partner = pre ∧
      (ext = true → s.isExt k = true → (s.xt k).st = xNone ∨ (s.xt k).st = xLost → (t.xt k).st = xAnnounced) ∧
      (ext = false → t.ext = s.ext) := by
  refine ⟨_, exec_lldpRx h, ?_, fun hext hisExt hst => ?_, fun hext => ?_⟩
  · split
    · rw [State.lane, State.lanes_extAnnounced]
      exact s.partner_hearPartner k pre
    · exact s.partner_hearPartner k pre
  · rw [hext, s.isExt_hearPartner, hisExt, Bool.and_self, if_pos rfl]
    refine State.st_extAnnounced ?_
    rwa [State.xt, s.ext_hearPartner]
  · rw [hext, Bool.false_and, if_neg (by decide), s.ext_hearPartner]

end LldpLaws

/-! ### The loss of an extender -/

section LossLaws

variable {s : State} {k : Fin 32}

theorem State.Touches.extFlag {s u : State} {l : List Nat} (h : s.Touches u l) {bit lane ctx} (hl : R.EXT_EVT ∈ l) :
    s.Touches (u.extFlag bit lane ctx) l := h.raise (by decide) hl

/-- The contexts of a lane that are in use go to HELD. -/
def State.holdCtxs (s : State) (k : Nat) : State := s.markCtxs (s.ctxsOf k [ctxAssigned, ctxHeld]) ctxHeld

/-- A lost extender, its contexts HELD and its hold time running, before that is flagged. -/
def State.loseExt (s : State) (k : Nat) : State :=
  (s.holdCtxs k).setXt k { (s.xt k).wiped with
    st := xLost, hold := (s.holdCtxs k).gac.now + (s.holdCtxs k).extHold * 1250000000, rxSak := false, txSak := false }

theorem State.touches_extLoss (s : State) (k : Nat) : (s.loseExt k).Touches (s.extLoss k) [R.EXT_EVT] := by
  have he : ∃ l, s.extLoss k = ((s.loseExt k).extFlag 2 k 0xFFFF).forEach l (fun s p => s.extFlag 3 k p) := ⟨_, rfl⟩
  obtain ⟨l, hl⟩ := he
  rw [hl]
  exact State.forEach_inv (P := fun u => (s.loseExt k).Touches u [R.EXT_EVT]) (fun _ _ h => h.extFlag (by simp)) l
    (State.Touches.refl.extFlag (by simp))

/-- What the loss of an extender leaves of it and of its contexts. -/
theorem State.extLoss_spec (s : State) (k : Nat) :
    ((s.extLoss k).xt k).st = xLost ∧ ((s.extLoss k).xt k).rxSak = false ∧
      ((s.extLoss k).xt k).hold = s.gac.now + s.extHold * 1250000000 ∧
      (∀ p, 32 ≤ p → ((s.extLoss k).ctx p).lane = k → ((s.extLoss k).ctx p).st ≠ ctxAssigned) ∧ (s.extLoss k).mem = s.mem := by
  have h := s.touches_extLoss k
  obtain ⟨c, hc⟩ : ∃ c, s.holdCtxs k = { s with ctxs := c } := s.markCtxs_eq _ _
  have hx : (s.extLoss k).xt k = { (s.xt k).wiped with
      st := xLost, hold := s.gac.now + s.extHold * 1250000000, rxSak := false, txSak := false } := by
    rw [h.xt, State.loseExt, State.xt_setXt_self, hc]
    rfl
  refine ⟨by rw [hx], by rw [hx], by rw [hx], fun p hp hl => ?_, ?_⟩
  · rw [h.ctx] at hl ⊢
    exact State.st_markCtxs_ne (by simp) (by decide) (by decide) hp hl
  · rw [h.mem, State.loseExt, hc]
    rfl

theorem lldpTtlExpire_loses (h : (s.xt k).st = xActive) : exec (.lldpTtlExpire k) s = .next (s.extLoss k) := congrArg _ (if_pos h)

theorem mkaPeerTimeout_loses (h : (s.xt k).st = xActive ∨ (s.xt k).st = xSecuring) : exec (.mkaPeerTimeout k) s = .next (s.extLoss k) :=
  if_pos (by simpa using h)

/-- The contexts of a lane that are HELD are quarantined, and that is flagged. -/
def State.quarantine (s : State) (k : Nat) : State := (s.markCtxs (s.ctxsOf k [ctxHeld]) ctxQuarantined).extFlag 4 k 0xFFFF

theorem State.touches_quarantine (s : State) (k : Nat) :
    (s.markCtxs (s.ctxsOf k [ctxHeld]) ctxQuarantined).Touches (s.quarantine k) [R.EXT_EVT] := State.Touches.refl.extFlag (by simp)

theorem State.mem_quarantine (s : State) (k : Nat) : (s.quarantine k).mem = s.mem := by
  obtain ⟨c, hc⟩ := s.markCtxs_eq (s.ctxsOf k [ctxHeld]) ctxQuarantined
  rw [(s.touches_quarantine k).mem, hc]

theorem exec_extHoldExpire (hst : (s.xt k).st = xLost) (hh : (s.xt k).hold ≠ 0) (ht : (s.xt k).taken = []) :
    exec (.extHoldExpire k) s = .next ((s.quarantine k).setXt k { (s.quarantine k).xt k with hold := 0, st := xNone, reused := [] }) := by
  have he : exec (.extHoldExpire k) s = execExtHoldExpire k s := rfl
  simp [he, execExtHoldExpire, hst, hh, ht, State.quarantine, State.markCtxs]

theorem extHoldExpire_ends (hst : (s.xt k).st = xLost) (hh : (s.xt k).hold ≠ 0) (ht : (s.xt k).taken = []) :
    ∃ t, exec (.extHoldExpire k) s = .next t ∧ (t.xt k).st = xNone ∧ (t.xt k).hold = 0 ∧
      (∀ p, 32 ≤ p → (t.ctx p).lane = k.val → (t.ctx p).st ≠ ctxHeld) ∧ t.mem = s.mem := by
  refine ⟨_, exec_extHoldExpire hst hh ht, by rw [State.xt_setXt_self], by rw [State.xt_setXt_self], fun p hp => ?_, s.mem_quarantine k⟩
  have hctx : (s.quarantine k).ctx p = _ := (s.touches_quarantine k).ctx p
  change ((s.quarantine k).ctx p).lane = k.val → ((s.quarantine k).ctx p).st ≠ ctxHeld
  rw [hctx]
  exact State.st_markCtxs_ne (by simp) (by decide) (by decide) hp

end LossLaws

/-- Settles O12: the failure of a verification is `mmVerifyTimer_fails`, an LLDPDU `lldpRx_records`, the loss of an extender
`State.extLoss_spec`, the end of its hold time `extHoldExpire_ends`. -/
theorem mergeAndLoss : Obligations.MergeAndLoss := by
  unfold Obligations.MergeAndLoss
  intro s k
  refine ⟨mmVerifyTimer_next, mmVerifyTimer_fails, mmVerifyRx_ends, fun pre ext => lldpRx_records, fun h => if_pos h, ?_, ?_, extHoldExpire_ends⟩
  · intro h
    obtain ⟨hst, -, hhold, hctx, hmem⟩ := s.extLoss_spec k
    exact ⟨_, lldpTtlExpire_loses h, hst, hhold, hctx, hmem⟩
  · intro h
    obtain ⟨hst, hsak, -, hctx, hmem⟩ := s.extLoss_spec k
    exact ⟨_, mkaPeerTimeout_loses h, hst, hsak, hctx, hmem⟩

end Sys2Proof.Machine

/-! # What an operation leaves alone, part by part -/

namespace Sys2Proof.Machine

-- proofs one after the other: a task for each would take a stack of its own
set_option Elab.async false

section PartLaws

variable {s t u : State} {l m : List StatePart}

theorem State.agree.refl {p : StatePart} : s.agree s p := by cases p <;> exact rfl

theorem State.agree.trans {p : StatePart} (h : s.agree t p) (g : t.agree u p) : s.agree u p := by cases p <;> exact Eq.trans g h

theorem State.onlyIn.refl : s.onlyIn s l := ⟨fun _ _ => .refl, rfl⟩

theorem State.onlyIn.trans (h : s.onlyIn t l) (g : t.onlyIn u l) : s.onlyIn u l :=
  ⟨fun p hp => (h.1 p hp).trans (g.1 p hp), g.2.trans h.2⟩

theorem State.onlyIn.mono (h : s.onlyIn t m) (hm : m ⊆ l) : s.onlyIn t l := ⟨fun p hp => h.1 p fun hq => hp (hm hq), h.2⟩

/-- A further change, in parts of those listed. -/
theorem State.onlyIn.next (h : s.onlyIn t l) (g : t.onlyIn u m) (hm : m ⊆ l := by decide) : s.onlyIn u l := h.trans (g.mono hm)

theorem State.onlyIn.if_ {p : Prop} {_ : Decidable p} (ht : s.onlyIn t l) (hu : s.onlyIn u l) : s.onlyIn (if p then t else u) l := by
  split <;> assumption

theorem State.onlyIn.doIf (h : s.onlyIn u l) {c g} (hg : s.onlyIn (g u) l) : s.onlyIn (u.doIf c g) l :=
  State.doIf_inv (P := fun t => s.onlyIn t l) h hg

theorem State.onlyIn.forEach {α : Type} {g : State → α → State} {xs : List α} (h : s.onlyIn u l)
    (hg : ∀ t a, s.onlyIn t l → s.onlyIn (g t a) l) : s.onlyIn (u.forEach xs g) l :=
  State.forEach_inv (P := fun t => s.onlyIn t l) hg xs h

/-! ### The parts that stay -/

theorem State.onlyIn.keys (h : s.onlyIn t l) (hl : .keys ∉ l := by decide) : t.keys = s.keys := h.1 .keys hl

theorem State.onlyIn.mem (h : s.onlyIn t l) (hl : .mem ∉ l := by decide) : t.mem = s.mem := h.1 .mem hl

theorem State.onlyIn.gac (h : s.onlyIn t l) (hl : .gac ∉ l := by decide) : t.gac = s.gac := h.1 .gac hl

theorem State.onlyIn.cul (h : s.onlyIn t l) (hl : .cul ∉ l := by decide) : t.cul = s.cul := h.1 .cul hl

theorem State.onlyIn.nv (h : s.onlyIn t l) (hl : .nv ∉ l := by decide) : t.nv = s.nv := h.1 .nv hl

theorem State.onlyIn.regs (h : s.onlyIn t l) (hl : .regs ∉ l := by decide) : t.regs = s.regs := h.1 .regs hl

theorem State.onlyIn.ks (h : s.onlyIn t l) (i : Nat) (hl : .keys ∉ l := by decide) : t.ks i = s.ks i := State.ks_congr (h.keys hl) i

/-! ### What each basic operation changes -/

theorem State.onlyIn_regs (s : State) (r : Tbl Word) : s.onlyIn { s with regs := r } [.regs] :=
  ⟨fun p hp => by cases p with | regs => simp at hp | _ => exact rfl, rfl⟩

theorem State.onlyIn_keys (s : State) (k : Keys) : s.onlyIn { s with keys := k } [.keys] :=
  ⟨fun p hp => by cases p with | keys => simp at hp | _ => exact rfl, rfl⟩

theorem State.onlyIn_cul (s : State) (c : Cul) : s.onlyIn { s with cul := c } [.cul] :=
  ⟨fun p hp => by cases p with | cul => simp at hp | _ => exact rfl, rfl⟩

theorem State.onlyIn_ecc (s : State) (e : Ecc) : s.onlyIn { s with ecc := e } [.ecc] :=
  ⟨fun p hp => by cases p with | ecc => simp at hp | _ => exact rfl, rfl⟩

theorem State.onlyIn_out (s : State) (o : List Out) : s.onlyIn { s with out := o } [.out] :=
  ⟨fun p hp => by cases p with | out => simp at hp | _ => exact rfl, rfl⟩

theorem State.onlyIn_free (s : State) (n : Nat) : s.onlyIn { s with free := n } [.free] :=
  ⟨fun p hp => by cases p with | free => simp at hp | _ => exact rfl, rfl⟩

theorem State.onlyIn_rng (s : State) (r : Rng) : s.onlyIn { s with rng := r } [.rng] :=
  ⟨fun p hp => by cases p with | rng => simp at hp | _ => exact rfl, rfl⟩

theorem State.onlyIn_wr (s : State) (a : Nat) (v : Word) : s.onlyIn (s.wr a v) [.regs] := s.onlyIn_regs _

theorem State.onlyIn_setF (s : State) (f : Fld) (x : Nat) : s.onlyIn (s.setF f x) [.regs] := s.onlyIn_regs _

theorem State.onlyIn_emit (s : State) (o : Out) : s.onlyIn (s.emit o) [.out] := s.onlyIn_out _

theorem State.onlyIn_drawBytes (s : State) (n : Nat) : s.onlyIn (s.drawBytes n).2 [.regs, .rng] :=
  (s.onlyIn_regs _).mono (by decide) |>.next (State.onlyIn_rng _ _)

theorem State.Touches.onlyIn {w : List Nat} (h : s.Touches t w) : s.onlyIn t [.regs, .cul, .out] := by
  obtain ⟨r, c, o, rfl⟩ := h.eq
  exact ((s.onlyIn_regs r).mono (by decide)).next (State.onlyIn_cul _ c) |>.next (State.onlyIn_out _ o)

theorem CmdSpec.onlyIn_taken (c : CmdSpec) (sl : Slot) (s : State) : s.onlyIn (c.taken sl s) [.regs, .cul, .out] :=
  (c.touches_taken sl s).onlyIn

theorem CmdSpec.onlyIn_ends (c : CmdSpec) (sl : Slot) (s : State) (r : Reply) (u : State) : u.onlyIn (c.ends sl s r u) [.regs, .cul, .out] :=
  (c.touches_ends sl s r u).onlyIn

end PartLaws

end Sys2Proof.Machine

/-! # Key slots: what a slot reads after each operation -/

namespace Sys2Proof.Machine

-- proofs one after the other: a task for each would take a stack of its own
set_option Elab.async false

section SlotLaws

variable {s t u : State} {i j : Nat} {k : KeySlot}

/-! ### A slot written -/

theorem State.ks_setKs_self (s : State) (i : Nat) (k : KeySlot) : (s.setKs i k).ks i = k := by rw [State.ks_setKs, if_pos rfl]

theorem State.ks_setKs_ne (h : j ≠ i) : (s.setKs i k).ks j = s.ks j := by rw [State.ks_setKs, if_neg h]

theorem State.onlyIn_setKs (s : State) (i : Nat) (k : KeySlot) : s.onlyIn (s.setKs i k) [.keys] := s.onlyIn_keys _

theorem State.putKs_eq (s : State) (i : Nat) (k : KeySlot) : ∃ e, s.putKs i k = { s.setKs i k with ecc := e } :=
  State.forEach_inv (P := fun u => ∃ e, u = { s.setKs i k with ecc := e }) (fun _ _ ⟨_, hu⟩ => hu ▸ ⟨_, rfl⟩) _ ⟨_, rfl⟩

theorem State.keys_putKs (s : State) (i : Nat) (k : KeySlot) : (s.putKs i k).keys = (s.setKs i k).keys := by
  obtain ⟨e, he⟩ := s.putKs_eq i k
  rw [he]

theorem State.ks_putKs (s : State) (i : Nat) (k : KeySlot) (j : Nat) : (s.putKs i k).ks j = if j = i then k else s.ks j :=
  (State.ks_congr (s.keys_putKs i k) j).trans (s.ks_setKs i k j)

theorem State.onlyIn_putKs (s : State) (i : Nat) (k : KeySlot) : s.onlyIn (s.putKs i k) [.keys, .ecc] := by
  obtain ⟨e, he⟩ := s.putKs_eq i k
  rw [he]
  exact ((s.onlyIn_setKs i k).mono (by decide)).next (State.onlyIn_ecc _ e)

theorem State.ks_emptySlot (s : State) (i j : Nat) : (s.emptySlot i).ks j = if j = i then KeySlot.empty else s.ks j := s.ks_putKs i _ j

theorem State.onlyIn_emptySlot (s : State) (i : Nat) : s.onlyIn (s.emptySlot i) [.keys, .ecc] := s.onlyIn_putKs i _

/-- A key that is loaded: what the load gives, no use yet, and the limit of Table FPX-5. -/
theorem State.loadSlot_eq (s : State) (i alg : Nat) (frame : Bool) (m salt : List Byte) (id : Nat) :
    ∃ k : KeySlot, s.loadSlot i alg frame m salt id = (s.drawBytes 12).2.putKs i k ∧ k.state = Ks.loaded ∧ k.alg = alg ∧
      k.material = m ∧ k.id = id ∧ k.limit = 2 ^ 40 ∧ k.warn = 2 ^ 40 ∧ k.use = 0 :=
  ⟨_, rfl, rfl, rfl, rfl, rfl, rfl, rfl, rfl⟩

theorem State.onlyIn_loadSlot (s : State) (i alg : Nat) (frame : Bool) (m salt : List Byte) (id : Nat) :
    s.onlyIn (s.loadSlot i alg frame m salt id) [.regs, .keys, .rng, .ecc] :=
  ((s.onlyIn_drawBytes 12).mono (by decide)).next (State.onlyIn_putKs _ i _)

theorem State.ks_loadSlot_ne {alg : Nat} {frame : Bool} {m salt : List Byte} {id : Nat} (h : j ≠ i) :
    (s.loadSlot i alg frame m salt id).ks j = s.ks j := by
  obtain ⟨k, hk, -⟩ := s.loadSlot_eq i alg frame m salt id
  rw [hk, State.ks_putKs, if_neg h, (s.onlyIn_drawBytes 12).ks]

/-! ### Events of the frame path -/

theorem State.touches_fpxSlotEvt (s : State) (bit slot : Nat) : s.Touches (s.fpxSlotEvt bit slot) [R.FPX_EVT] :=
  State.Touches.refl.raise (by decide) (by simp [fpxEvt])

theorem State.onlyIn_fpxSlotEvt (s : State) (bit slot : Nat) : s.onlyIn (s.fpxSlotEvt bit slot) [.regs, .cul, .out] :=
  (s.touches_fpxSlotEvt bit slot).onlyIn

theorem State.ks_fpxSlotEvt (s : State) (bit slot i : Nat) : (s.fpxSlotEvt bit slot).ks i = s.ks i := (s.onlyIn_fpxSlotEvt bit slot).ks i

/-! ### A slot that becomes ACTIVE -/

/-- The slot as it becomes ACTIVE, WARNED where its use has reached WARN and EXHAUSTED where it has reached LIMIT. -/
def KeySlot.woken (k : KeySlot) : KeySlot :=
  { k with state := if k.limit ≤ k.use then Ks.exhausted else Ks.active, warned := k.warned || (decide (k.warn ≤ k.use) && !k.warned), grace := 0 }

theorem KeySlot.state_woken (h : k.use < k.limit) : k.woken.state = Ks.active := if_neg (Nat.not_le.2 h)

/-- A slot that becomes ACTIVE is written, and events tell of it. -/
theorem State.touches_wakeSlot (s : State) (i : Nat) : (s.setKs i (s.ks i).woken).Touches (s.wakeSlot i) [R.FPX_EVT] := by
  have he : s.wakeSlot i = ((s.setKs i (s.ks i).woken).doIf (decide ((s.ks i).warn ≤ (s.ks i).use) && !(s.ks i).warned) (·.fpxSlotEvt 0 i)).doIf
      (decide ((s.ks i).limit ≤ (s.ks i).use)) (·.fpxSlotEvt 2 i) := by
    simp only [State.wakeSlot, KeySlot.woken, decide_eq_true_eq]
  have hw {v : State} {c : Bool} {b : Nat} : v.Touches (v.doIf c (·.fpxSlotEvt b i)) [R.FPX_EVT] :=
    State.doIf_inv (P := fun t => v.Touches t [R.FPX_EVT]) .refl (v.touches_fpxSlotEvt b i)
  rw [he]
  exact hw.trans hw

theorem State.ks_wakeSlot (s : State) (i j : Nat) : (s.wakeSlot i).ks j = if j = i then (s.ks i).woken else s.ks j :=
  ((s.touches_wakeSlot i).onlyIn.ks j).trans (s.ks_setKs i _ j)

theorem State.onlyIn_wakeSlot (s : State) (i : Nat) : s.onlyIn (s.wakeSlot i) [.regs, .cul, .keys, .out] :=
  ((s.onlyIn_setKs i _).mono (by decide)).next (s.touches_wakeSlot i).onlyIn

/-! ### The SecYs that a slot keys -/

theorem State.onlyIn_secySwitch (s : State) (old new : Nat) : s.onlyIn (s.secySwitch old new) [.regs] := by
  refine State.onlyIn.refl.forEach fun t b ht => ?_
  dsimp only
  refine .if_ ?_ ht
  split
  exacts [ht.next (t.onlyIn_wr _ _), ht]

theorem State.onlyIn_secyDropRx (s : State) (old : Nat) : s.onlyIn (s.secyDropRx old) [.regs] :=
  State.onlyIn.refl.forEach fun _ _ h => h.forEach fun v _ hv => .if_ (hv.next (v.onlyIn_wr _ _)) hv

/-! ### Rollovers -/

theorem State.ks_unpend (s : State) (i j : Nat) :
    (s.unpend i).ks j = if j = i then { s.ks i with rollPend := false, roll := 0, fold := false } else s.ks j := s.ks_setKs i _ j

theorem State.onlyIn_dropRoll (s : State) (r : Roll) : s.onlyIn (s.dropRoll r) [.keys] := s.onlyIn_keys _

/-- The rollovers listed are no part of a slot. -/
theorem State.ks_rolls (s : State) (r : List Roll) (i : Nat) : ({ s with keys := { s.keys with rolls := r } } : State).ks i = s.ks i := rfl

theorem State.ks_dropRoll (s : State) (r : Roll) (i : Nat) : (s.dropRoll r).ks i = s.ks i := s.ks_rolls _ i

end SlotLaws

end Sys2Proof.Machine

/-! # Planned rollovers (O21) -/

namespace Sys2Proof.Machine

-- proofs one after the other: a task for each would take a stack of its own
set_option Elab.async false

section RolloverLaws

variable {s : State} {sl : Slot}

/-! ### The command -/

theorem specKeyRollover_act {h : Held} (hf : bitAt h.flags 3 = false) (hc : s.rollCheck (h.u 0 2) (h.u 2 2) (h.u 8 8) = none) :
    specKeyRollover.act h s = .done (.ok []) (s.rollTake (h.u 0 2) (h.u 2 2) (h.u 8 8) (h.u 4 1) (bitAt (h.u 5 1) 0)) := by
  simp [specKeyRollover, hf, State.rollDo, hc]

theorem exec_keyRollover (h : specKeyRollover.starts sl s = true) (hf : bitAt sl.flags.toNat 3 = false) :
    exec (.cmdKeyRollover sl) s = .next (specKeyRollover.ends sl s (.ok []) ((specKeyRollover.taken sl s).rollTake
      ((specKeyRollover.held sl s).u 0 2) ((specKeyRollover.held sl s).u 2 2) ((specKeyRollover.held sl s).u 8 8)
      ((specKeyRollover.held sl s).u 4 1) (bitAt ((specKeyRollover.held sl s).u 5 1) 0))) := by
  obtain ⟨-, -, hcheck⟩ := CmdSpec.of_starts h
  exact runCmd_done specKeyRollover sl s _ _ h (specKeyRollover_act hf hcheck)

/-- A rollover that is taken links its slots, which are both pending at its cycle, and is listed. -/
theorem State.rollTake_links (s : State) {o n : Nat} (c g : Nat) (fo : Bool) (h : o ≠ n) :
    ((s.rollTake o n c g fo).ks o).succ = some n ∧ ((s.rollTake o n c g fo).ks o).rollPend = true ∧
      ((s.rollTake o n c g fo).ks n).rollPend = true ∧ ((s.rollTake o n c g fo).ks n).roll = c ∧
      (∀ i, i ≠ o → i ≠ n → (s.rollTake o n c g fo).ks i = s.ks i) ∧
      (s.rollTake o n c g fo).keys.rolls = s.keys.rolls ++ [⟨o, n, c, g, fo, false⟩] := by
  have hold : (s.rollTake o n c g fo).ks o = { (s.ks o).pends c fo with succ := some n } := by
    rw [State.ks_rollTake, State.ks_setKs_ne h, State.ks_setKs_self]
  obtain ⟨-, hroll⟩ := s.rollTake_spec (n := c) (grace := g) (fold := fo) h
  refine ⟨by rw [hold], by rw [hold]; rfl, ?_, hroll, fun i ho hn => ?_, rfl⟩
  · rw [State.ks_rollTake, State.ks_setKs_self]
    rfl
  · rw [State.ks_rollTake, State.ks_setKs_ne hn, State.ks_setKs_ne ho]

/-! ### The switch -/

/-- The two slots of a rollover whose switch is made: the new one ACTIVE and no longer pending, the old one DRAINING with its grace. -/
def State.rollMade (s : State) (r : Roll) : State :=
  let u := (s.wakeSlot r.new).unpend r.new
  u.setKs r.old { u.ks r.old with state := Ks.draining, grace := r.grace }

theorem State.ks_rollSwitch {r : Roll} (hn : (s.ks r.new).state = Ks.loaded) (ho : (s.ks r.old).state = Ks.active) (i : Nat) :
    (s.rollSwitch r false).ks i = (s.rollMade r).ks i := by
  have he : s.rollSwitch r false = ((({ s.rollMade r with keys := { (s.rollMade r).keys with
      rolls := (s.rollMade r).keys.rolls.map (fun x => if x = r then { x with switched := true } else x) } } : State).secySwitch
        r.old r.new).fpxSlotEvt 4 r.old) := by
    simp [State.rollSwitch, State.rollMade, hn, ho]
  rw [he, State.ks_fpxSlotEvt, (State.onlyIn_secySwitch _ _ _).ks]
  rfl

theorem State.rollSwitch_made {r : Roll} (hne : r.old ≠ r.new) (hn : (s.ks r.new).state = Ks.loaded)
    (hu : (s.ks r.new).use < (s.ks r.new).limit) (ho : (s.ks r.old).state = Ks.active) :
    ((s.rollSwitch r false).ks r.new).state = Ks.active ∧ ((s.rollSwitch r false).ks r.new).rollPend = false ∧
      ((s.rollSwitch r false).ks r.old).state = Ks.draining ∧ ((s.rollSwitch r false).ks r.old).grace = r.grace ∧
      (∀ i, i ≠ r.old → i ≠ r.new → (s.rollSwitch r false).ks i = s.ks i) := by
  have hnew : (s.rollSwitch r false).ks r.new = { (s.ks r.new).woken with rollPend := false, roll := 0, fold := false } := by
    rw [State.ks_rollSwitch hn ho, State.rollMade, State.ks_setKs_ne hne.symm, State.ks_unpend, if_pos rfl, State.ks_wakeSlot, if_pos rfl]
  have hold : (s.rollSwitch r false).ks r.old = { s.ks r.old with state := Ks.draining, grace := r.grace } := by
    rw [State.ks_rollSwitch hn ho, State.rollMade, State.ks_setKs_self, State.ks_unpend, if_neg hne, State.ks_wakeSlot, if_neg hne]
  refine ⟨by rw [hnew]; exact KeySlot.state_woken hu, by rw [hnew], by rw [hold], by rw [hold], fun i hio hin => ?_⟩
  rw [State.ks_rollSwitch hn ho, State.rollMade, State.ks_setKs_ne hio, State.ks_unpend, if_neg hin, State.ks_wakeSlot, if_neg hin]

/-! ### The end of the grace -/

/-- The switched rollover of an old slot. -/
def State.rollOf (s : State) (i : Nat) : Option Roll := s.keys.rolls.find? (fun r => r.old = i && r.switched)

/-- The rollover of an old slot leaves the list, and the slot keys no receive SA any more. -/
def State.rollOver (s : State) (i : Nat) : State := (match s.rollOf i with | some r => s.dropRoll r | none => s).secyDropRx i

theorem State.onlyIn_rollOver (s : State) (i : Nat) : s.onlyIn (s.rollOver i) [.regs, .keys] := by
  unfold State.rollOver
  split
  · exact ((s.onlyIn_dropRoll _).mono (by decide)).next (State.onlyIn_secyDropRx _ i)
  · exact (s.onlyIn_secyDropRx i).mono (by decide)

theorem State.ks_rollOver (s : State) (i j : Nat) : (s.rollOver i).ks j = s.ks j := by
  unfold State.rollOver
  rw [(State.onlyIn_secyDropRx _ i).ks]
  split <;> rfl

theorem exec_keyGraceEnd {slot : BitVec 15} : exec (.keyGraceEnd slot) s = execKeyGraceEnd slot s := rfl

theorem exec_keyGraceEnd_due {slot : BitVec 15} (hd : (s.ks slot.toNat).state = Ks.draining) (hg : (s.ks slot.toNat).grace = 0) :
    exec (.keyGraceEnd slot) s = .next (s.graceEnd slot.toNat) := by
  simp [exec_keyGraceEnd, execKeyGraceEnd, hd, hg]

/-- Until the grace of the slot has ended, or where it has none, nothing changes. -/
theorem exec_keyGraceEnd_early {slot : BitVec 15}
    (h : ((s.ks slot.toNat).state = Ks.draining ∧ (s.ks slot.toNat).grace ≠ 0) ∨
      ((s.ks slot.toNat).state ≠ Ks.draining ∧ ∀ r ∈ s.keys.rolls, r.old = slot.toNat → r.switched = true → s.cycle < r.cycle + r.grace)) :
    exec (.keyGraceEnd slot) s = .next s := by
  rw [exec_keyGraceEnd]
  rcases h with ⟨hd, hg⟩ | ⟨hd, hr⟩
  · simp [execKeyGraceEnd, hd, hg]
  · have hnone : s.keys.rolls.any (fun r => r.old = slot.toNat && r.switched && decide (r.cycle + r.grace ≤ s.cycle)) = false := by
      simpa [List.any_eq_false] using hr
    simp [execKeyGraceEnd, hd, hnone]

theorem State.graceEnd_unfolded {i : Nat} (hd : (s.ks i).state = Ks.draining) (hf : (s.ks i).fold = false) :
    s.graceEnd i = (s.rollOver i).emptySlot i := by
  simp [State.graceEnd, hd, hf]
  rfl

theorem State.graceEnd_folded {i : Nat} {r : Roll} (hd : (s.ks i).state = Ks.draining) (hf : (s.ks i).fold = true) (hr : s.rollOf i = some r)
    (hn : (s.ks r.new).state = Ks.active) : s.graceEnd i = (s.rollOver i).foldSlot i r.new := by
  have hn' : (((s.dropRoll r).secyDropRx i).ks r.new).state = Ks.active := by
    rw [(State.onlyIn_secyDropRx _ i).ks, State.ks_dropRoll, hn]
  unfold State.rollOf at hr
  simp [State.graceEnd, State.rollOver, State.rollOf, hd, hf, hr, hn']

theorem keyGraceEnd_empties {slot : BitVec 15} (hd : (s.ks slot.toNat).state = Ks.draining) (hg : (s.ks slot.toNat).grace = 0)
    (hf : (s.ks slot.toNat).fold = false) :
    ∃ t, exec (.keyGraceEnd slot) s = .next t ∧ t.ks slot.toNat = KeySlot.empty ∧ (∀ i, i ≠ slot.toNat → t.ks i = s.ks i) ∧
      s.onlyIn t [.regs, .keys, .ecc] := by
  refine ⟨_, (exec_keyGraceEnd_due hd hg).trans (congrArg _ (State.graceEnd_unfolded hd hf)), ?_, fun i hi => ?_, ?_⟩
  · rw [State.ks_emptySlot, if_pos rfl]
  · rw [State.ks_emptySlot, if_neg hi, State.ks_rollOver]
  · exact ((s.onlyIn_rollOver _).mono (by decide)).next (State.onlyIn_emptySlot _ _)

theorem keyGraceEnd_folds {slot : BitVec 15} {r : Roll} (hd : (s.ks slot.toNat).state = Ks.draining) (hg : (s.ks slot.toNat).grace = 0)
    (hf : (s.ks slot.toNat).fold = true) (hr : s.rollOf slot.toNat = some r) (hn : (s.ks r.new).state = Ks.active) (hne : r.new ≠ slot.toNat) :
    ∃ t, exec (.keyGraceEnd slot) s = .next t ∧ (t.ks slot.toNat).state = Ks.active ∧ (t.ks slot.toNat).material = (s.ks r.new).material ∧
      (t.ks slot.toNat).use = (s.ks r.new).use ∧ t.ks r.new = KeySlot.empty ∧ (∀ i, i ≠ slot.toNat → i ≠ r.new → t.ks i = s.ks i) := by
  refine ⟨_, (exec_keyGraceEnd_due hd hg).trans (congrArg _ (State.graceEnd_folded hd hf hr hn)), ?_⟩
  simp only [State.foldSlot, State.ks_emptySlot, State.ks_putKs, State.ks_rollOver, if_neg hne.symm, if_true, true_and]
  exact ⟨hn, fun i hi hir => by rw [if_neg hir, if_neg hi]⟩

end RolloverLaws

/-- Settles O21: the switch is `State.rollSwitch_made`, the end of the grace `keyGraceEnd_empties` and `keyGraceEnd_folds`. -/
theorem rollovers : Obligations.Rollovers := by
  unfold Obligations.Rollovers
  intro s
  exact ⟨fun sl h hf _ => exec_keyRollover h hf, fun o n c g fo h => s.rollTake_links c g fo h, fun r => State.rollSwitch_made,
    fun slot => keyGraceEnd_empties, fun slot r => keyGraceEnd_folds, fun slot => exec_keyGraceEnd_early⟩

end Sys2Proof.Machine

/-! # A use of a slot: what it does to the others -/

namespace Sys2Proof.Machine

-- proofs one after the other: a task for each would take a stack of its own
set_option Elab.async false

section UseLaws

variable {s t u : State} {i j : Nat}

/-- What becomes of the slots when slot `i` is used up: no slot counts a use, and an EMPTY slot stays EMPTY. -/
structure State.Ages (i : Nat) (s t : State) : Prop where
  parts : s.onlyIn t [.regs, .cul, .keys, .out]
  use : ∀ j, (t.ks j).use = (s.ks j).use
  empty : ∀ j, j ≠ i → (s.ks j).state = Ks.empty → (t.ks j).state = Ks.empty

theorem State.Ages.refl : s.Ages i s := ⟨.refl, fun _ => rfl, fun _ _ h => h⟩

theorem State.Ages.trans (h : State.Ages i s t) (g : State.Ages i t u) : State.Ages i s u :=
  ⟨h.parts.trans g.parts, fun j => (g.use j).trans (h.use j), fun j hj he => g.empty j hj (h.empty j hj he)⟩

/-- What leaves every slot as it is. -/
theorem State.Ages.same (h : s.onlyIn t [.regs, .cul, .keys, .out]) (hk : ∀ j, t.ks j = s.ks j) : State.Ages i s t :=
  ⟨h, fun j => by rw [hk], fun j _ he => by rw [hk, he]⟩

theorem State.Ages.events (h : s.Touches t l) : State.Ages i s t := .same (h.onlyIn.mono (by decide)) h.onlyIn.ks

/-- A slot is written: slot `i`, or one that is not EMPTY, or one whose state stays. -/
theorem State.Ages.setKs {k : KeySlot} (hu : k.use = (s.ks j).use)
    (he : j ≠ i → (s.ks j).state = Ks.empty → k.state = Ks.empty) : State.Ages i s (s.setKs j k) := by
  refine ⟨(s.onlyIn_setKs j k).mono (by decide), fun m => ?_, fun m hm hs => ?_⟩
  · by_cases hj : m = j
    · rw [hj, State.ks_setKs_self, hu]
    · rw [State.ks_setKs_ne hj]
  · by_cases hj : m = j
    · subst hj
      rw [State.ks_setKs_self, he hm hs]
    · rw [State.ks_setKs_ne hj, hs]

theorem State.ages_unpend (s : State) (j : Nat) : State.Ages i s (s.unpend j) := .setKs rfl fun _ h => h

theorem State.ages_wakeArmed (s : State) (j : Nat) : State.Ages i s (s.wakeArmed j) := by
  unfold State.wakeArmed
  dsimp only
  split
  · rename_i h
    have hne : (s.ks j).state ≠ Ks.empty := fun he => by simp [he, Ks.empty, Ks.loaded, Ks.draining] at h
    exact State.Ages.trans (.setKs (k := (s.ks j).woken) rfl fun _ he => absurd he hne) (.events (s.touches_wakeSlot j))
  · exact .refl

theorem State.ages_fpxSlotEvt (s : State) (b j : Nat) : State.Ages i s (s.fpxSlotEvt b j) := .events (s.touches_fpxSlotEvt b j)

/-- The slot is EXHAUSTED, and its armed successor serves in its place. -/
def State.spent (s : State) (i : Nat) : State :=
  let has := s.armed (s.ks i)
  let u := s.setKs i { s.ks i with state := Ks.exhausted }
  (if has then u.wakeArmed ((s.ks i).succ.getD 0) else u).fpxSlotEvt (if has then 1 else 2) i

/-- A pending rollover of slot `i` counts as switched. -/
def State.rollSpent (s : State) (i : Nat) (r : Roll) : State :=
  let u := s.unpend r.new
  { u with keys := { u.keys with rolls := u.keys.rolls.map (fun x => if x.old = i && !x.switched then { x with switched := true } else x) } }

theorem State.exhaust_eq (s : State) (i : Nat) : s.exhaust i =
    match (s.spent i).keys.rolls.find? (fun r => r.old = i && !r.switched) with
    | some r => if s.armed (s.ks i) then (((s.spent i).rollSpent i r).secySwitch i r.new).fpxSlotEvt 4 i else (s.spent i).rollSpent i r
    | none => s.spent i := rfl

theorem State.ages_spent (s : State) (i : Nat) : State.Ages i s (s.spent i) := by
  have hset : State.Ages i s (s.setKs i { s.ks i with state := Ks.exhausted }) := .setKs rfl fun h => absurd rfl h
  unfold State.spent
  dsimp only
  split
  · exact (hset.trans (State.ages_wakeArmed _ _)).trans (State.ages_fpxSlotEvt _ _ _)
  · exact hset.trans (State.ages_fpxSlotEvt _ _ _)

theorem State.ages_rollSpent (s : State) (i : Nat) (r : Roll) : State.Ages i s (s.rollSpent i r) :=
  (s.ages_unpend r.new).trans (.same ((State.onlyIn_keys _ _).mono (by decide)) (State.ks_rolls _ _))

theorem State.ages_exhaust (s : State) (i : Nat) : State.Ages i s (s.exhaust i) := by
  rw [State.exhaust_eq]
  split
  · rename_i r _
    have hroll := (s.ages_spent i).trans ((s.spent i).ages_rollSpent i r)
    split
    · have hsw := ((s.spent i).rollSpent i r).onlyIn_secySwitch i r.new
      exact (hroll.trans (.same (hsw.mono (by decide)) hsw.ks)).trans (State.ages_fpxSlotEvt _ _ _)
    · exact hroll
  · exact s.ages_spent i

theorem State.ages_nextInv (s : State) (i : Nat) : State.Ages i s (s.nextInv i) := by
  unfold State.nextInv
  dsimp only
  split
  exacts [s.ages_exhaust i, .setKs rfl fun h => absurd rfl h]

/-- The slot with one more use counted. -/
def KeySlot.used (k : KeySlot) : KeySlot :=
  { k with use := k.use + 1, warned := k.warned || (k.state = Ks.active && k.use + 1 = k.warn) }

/-- A use counts one on its slot; what follows counts none. -/
theorem State.ages_useSlot (s : State) (i : Nat) : State.Ages i (s.setKs i (s.ks i).used) (s.useSlot i) := by
  have hwarn (v : State) (c : Bool) : State.Ages i v (if c then v.fpxSlotEvt 0 i else v) := by
    split
    exacts [v.ages_fpxSlotEvt 0 i, .refl]
  unfold State.useSlot
  dsimp only
  split
  · exact (hwarn _ _).trans (State.ages_exhaust _ i)
  · exact hwarn _ _

theorem State.use_useSlot (s : State) (i : Nat) : ((s.useSlot i).ks i).use = (s.ks i).use + 1 := by
  rw [(s.ages_useSlot i).use, State.ks_setKs_self, KeySlot.used]

theorem State.onlyIn_useSlot (s : State) (i : Nat) : s.onlyIn (s.useSlot i) [.regs, .cul, .keys, .out] :=
  ((s.onlyIn_setKs i _).mono (by decide)).trans (s.ages_useSlot i).parts

theorem State.empty_useSlot (h : j ≠ i) (he : (s.ks j).state = Ks.empty) : ((s.useSlot i).ks j).state = Ks.empty :=
  (s.ages_useSlot i).empty j h (by rw [State.ks_setKs_ne h, he])

end UseLaws

end Sys2Proof.Machine

/-! # What the end of a request or a job changes -/

namespace Sys2Proof.Machine

-- proofs one after the other: a task for each would take a stack of its own
set_option Elab.async false

section EnginePartLaws

variable {s t u : State} {l m : List StatePart}

theorem State.onlyIn_ciq (s : State) (c : Ciq) : s.onlyIn { s with ciq := c } [.ciq] :=
  ⟨fun p hp => by cases p with | ciq => simp at hp | _ => exact rfl, rfl⟩

theorem State.onlyIn_pke (s : State) (p : Pke) : s.onlyIn { s with pke := p } [.pke] :=
  ⟨fun q hq => by cases q with | pke => simp at hq | _ => exact rfl, rfl⟩

theorem State.onlyIn_cxl (s : State) (c : Tbl Byte) : s.onlyIn { s with cxl := c } [.cxl] :=
  ⟨fun p hp => by cases p with | cxl => simp at hp | _ => exact rfl, rfl⟩

theorem State.onlyIn_memWrite (s : State) (a : Nat) (b : List Byte) : s.onlyIn (s.memWrite a b) [.mem, .tags, .ecc] :=
  ⟨fun p hp => by cases p with | mem | tags | ecc => simp at hp | _ => exact rfl, rfl⟩

theorem State.onlyIn_storeBytes (s : State) (a : Nat) (b : List Byte) : s.onlyIn (s.storeBytes a b) [.mem, .tags, .ecc, .cxl, .out] := by
  unfold State.storeBytes
  refine .if_ .refl (.if_ ((s.onlyIn_emit _).mono (by decide)) (.if_ ((s.onlyIn_cxl _).mono (by decide)) ?_))
  exact (s.onlyIn_memWrite a b).mono (by decide)

theorem State.touches_irqAll (s : State) {src : Nat} (h : src < 256) : s.Touches (s.irqAll src) [] := State.Touches.refl.irqAll h

theorem State.touches_finishWait (s : State) (h : Held) (r : Reply) : s.Touches (s.finishWait h r) [] := State.Touches.refl.endWait.finish

/-- The parts that a request or a job that ends may change. -/
abbrev endParts : List StatePart := [.regs, .mem, .tags, .ecc, .cxl, .free, .ciq, .pke, .cul, .out]

theorem State.onlyIn_finishWaits (s : State) (hs : List Held) (r : Reply) :
    s.onlyIn (s.forEach hs (fun s h => s.finishWait h r)) [.regs, .cul, .out] :=
  State.onlyIn.refl.forEach fun t x ht => ht.trans (t.touches_finishWait x r).onlyIn

/-! ### Cipher requests -/

/-- The address of the next completion. -/
def State.ciqAt (s : State) : Nat := sramBase + s.f F.CIQ_CRING_BASE_BASE * 32 + 32 * (s.f F.CIQ_CRING_IDX_TAIL % s.ciqRing)

/-- A completion is written there. -/
theorem State.onlyIn_ciqPut_stored (s : State) (d : CiqDone) : (s.memWrite s.ciqAt d.bytes).onlyIn (s.ciqPut d) [.regs, .cul, .out] := by
  unfold State.ciqPut
  extract_lets x u v
  have hv : u.onlyIn v [.regs, .cul, .out] := ((u.onlyIn_setF _ _).mono (by decide)).next (State.touches_irqAll _ (by decide)).onlyIn
  split
  exacts [hv.trans (v.onlyIn_finishWaits _ _), hv]

theorem State.onlyIn_ciqPut (s : State) (d : CiqDone) : s.onlyIn (s.ciqPut d) [.regs, .mem, .tags, .ecc, .cul, .out] :=
  ((s.onlyIn_memWrite _ _).mono (by decide)).next (s.onlyIn_ciqPut_stored d)

theorem State.onlyIn_ciqEnd (s : State) (d : CiqDone) : s.onlyIn (s.ciqEnd d) endParts :=
  .if_ ((s.onlyIn_ciqPut d).mono (by decide)) ((s.onlyIn_ciq _).mono (by decide))

theorem State.onlyIn_ciqStopOne (s : State) (r : CiqReq) (st : Nat) : s.onlyIn (s.ciqStopOne r st) endParts :=
  (((s.onlyIn_free _).mono (by decide)).next (State.onlyIn_storeBytes _ _ _)).next (State.onlyIn_ciqEnd _ _) (List.Subset.refl _)

theorem State.onlyIn_ciqZeroized (s : State) (p : Nat → Bool) : s.onlyIn (s.ciqZeroized p) endParts := by
  refine State.onlyIn.forEach (State.onlyIn.forEach ((s.onlyIn_ciq _).mono (by decide)) fun t r ht => ?_) fun t r ht => ?_
  exacts [ht.trans (t.onlyIn_ciqStopOne r _), ht.trans (t.onlyIn_ciqEnd _)]

/-! ### Jobs of the public-key engine -/

theorem State.onlyIn_pkePut (s : State) (d : PkeDone) : s.onlyIn (s.pkePut d) endParts :=
  (((s.onlyIn_memWrite _ _).mono (by decide)).next (State.onlyIn_setF _ _ _)).next (State.touches_irqAll _ (by decide)).onlyIn

theorem State.onlyIn_pkeEnd (s : State) (j : PkeJob) (st ok n d : Nat) : s.onlyIn (s.pkeEnd j st ok n d) endParts := by
  unfold State.pkeEnd
  extract_lets v w p x e q
  have hw : s.onlyIn w endParts := State.onlyIn.next (t := v) ((s.onlyIn_setF _ _).mono (by decide)) (v.onlyIn_pke _)
  have hx : s.onlyIn x endParts := by
    unfold x
    split
    exacts [hw.next (w.onlyIn_pke _), hw]
  split
  exacts [hx.trans (x.onlyIn_pkePut _), hx.next (x.onlyIn_pke _)]

theorem State.onlyIn_pkeNext (s : State) : s.onlyIn s.pkeNext endParts := by
  unfold State.pkeNext
  refine .if_ .refl ?_
  split
  exacts [.refl, (s.onlyIn_pke _).mono (by decide)]

theorem State.onlyIn_pkeZeroized (s : State) (p : Nat → Bool) : s.onlyIn (s.pkeZeroized p) endParts :=
  (State.onlyIn.forEach ((s.onlyIn_pke _).mono (by decide)) fun t j ht => ht.trans (t.onlyIn_pkeEnd j _ _ _ _)).trans
    (State.onlyIn_pkeNext _)

theorem State.onlyIn_endHolders (s : State) (p : Nat → Bool) : s.onlyIn (s.endHolders p) endParts :=
  State.onlyIn.refl.forEach fun t w ht => ht.next (t.touches_finishWait w.cmd _).onlyIn

end EnginePartLaws

end Sys2Proof.Machine

/-! # Key commands (O20) -/

namespace Sys2Proof.Machine

-- proofs one after the other: a task for each would take a stack of its own
set_option Elab.async false

section CommandPartLaws

variable {c : CmdSpec} {sl : Slot} {s u : State} {r : Reply} {l m : List StatePart}

/-- A command changes what its effect changes, and registers, the Culvert and outputs. -/
theorem CmdSpec.onlyIn_of_taken (hu : (c.taken sl s).onlyIn u m) (hm : m ⊆ l := by decide) (hl : [.regs, .cul, .out] ⊆ l := by decide) :
    s.onlyIn (c.ends sl s r u) l :=
  (((c.onlyIn_taken sl s).mono hl).next hu hm).next (c.onlyIn_ends sl s r u) hl

theorem CmdSpec.ks_taken (c : CmdSpec) (sl : Slot) (s : State) (i : Nat) : (c.taken sl s).ks i = s.ks i := (c.onlyIn_taken sl s).ks i

theorem CmdSpec.ks_ends (c : CmdSpec) (sl : Slot) (s : State) (r : Reply) (u : State) (i : Nat) : (c.ends sl s r u).ks i = u.ks i :=
  (c.onlyIn_ends sl s r u).ks i

/-- A command whose effect leaves the counter and the Culvert replies. -/
theorem CmdSpec.replied_of_taken {b : List Byte} (h : c.starts sl s = true) (hu : (c.taken sl s).onlyIn u m) (hg : .gac ∉ m := by decide)
    (hc : .cul ∉ m := by decide) : c.replied sl s (.ok b) (c.ends sl s (.ok b) u) :=
  CmdSpec.replied_ends h ((hu.gac hg).trans (c.touches_taken sl s).gac) (by rw [hu.cul hc, (c.touches_taken sl s).bme])

theorem orElse_eq_none {α : Type} {a b : Option α} : (a <|> b) = none ↔ a = none ∧ b = none := by cases a <;> simp

end CommandPartLaws

section KeyCommandLaws

variable {s t u : State} {sl : Slot} {h : Held} {i : Nat}

theorem slotIn_eq_none {l : List Nat} : slotIn s i l = none ↔ (s.ks i).state ∈ l := by simp [slotIn, refuse_eq_none]

/-! ### Loading -/

/-- The key that a CMD_KEY_LOAD unwraps. -/
def Held.unwrapped (h : Held) (s : State) : Option (List Byte) :=
  Config.kwpUnwrap (s.ks (h.u 8 2)).material (sliceB h.params 11 (h.u 10 1))

/-- The bytes that a wrapped key of the command's ALG holds: the key, and a salt where the ALG has one. -/
def Held.wrapLen (h : Held) : Nat := algBytes (h.u 2 1) + (if h.u 2 1 = 2 ∨ h.u 2 1 = 3 then 12 else 0)

theorem specKeyLoad_act_loads {b : List Byte} (hb : h.unwrapped s = some b) (hl : b.length = h.wrapLen) :
    specKeyLoad.act h s = .done (.ok []) ((s.useSlot (h.u 8 2)).loadSlot (h.u 0 2) (h.u 2 1) (bitAt (h.u 3 1) 0)
      (b.take (algBytes (h.u 2 1))) (b.drop (algBytes (h.u 2 1))) (h.u 4 4)) := by
  unfold Held.unwrapped at hb
  unfold Held.wrapLen at hl
  simp [specKeyLoad, hb, hl]

theorem specKeyLoad_act_fails (hb : ∀ b, h.unwrapped s = some b → b.length ≠ h.wrapLen) :
    specKeyLoad.act h s = .done (badField 11) (s.useSlot (h.u 8 2)) := by
  unfold Held.unwrapped at hb
  unfold Held.wrapLen at hb
  simp only [specKeyLoad]
  split
  · rfl
  · rename_i b hp
    exact if_pos (by simpa using hb b hp)

/-- The slot that a CMD_KEY_LOAD loads is EMPTY, and another than the one it unwraps under. -/
theorem specKeyLoad_slots (hc : specKeyLoad.check h s = none) : (s.ks (h.u 0 2)).state = Ks.empty ∧ h.u 0 2 ≠ h.u 8 2 := by
  simp only [specKeyLoad, orElse_eq_none, slotIn_eq_none, List.mem_cons, List.not_mem_nil, or_false] at hc
  obtain ⟨hempty, -, -, hkey, -⟩ := hc
  refine ⟨hempty, fun hsame => ?_⟩
  rw [← hsame, hempty] at hkey
  exact absurd hkey (by decide)

theorem keyLoad_slots (hst : specKeyLoad.starts sl s = true) (hh : specKeyLoad.held sl s = h) :
    (s.ks (h.u 0 2)).state = Ks.empty ∧ h.u 0 2 ≠ h.u 8 2 := by
  obtain ⟨-, -, hc⟩ := CmdSpec.of_starts hst
  rw [hh] at hc
  simpa only [CmdSpec.ks_taken] using specKeyLoad_slots hc

theorem CmdSpec.unwrapped_taken (c : CmdSpec) : h.unwrapped (c.taken sl s) = h.unwrapped s := by rw [Held.unwrapped, CmdSpec.ks_taken, Held.unwrapped]

theorem exec_keyLoad : exec (.cmdKeyLoad sl) s = runCmd specKeyLoad sl s := rfl

theorem keyLoad_loads {b : List Byte} (hst : specKeyLoad.starts sl s = true) (hh : specKeyLoad.held sl s = h) (hb : h.unwrapped s = some b)
    (hl : b.length = h.wrapLen) :
    ∃ t, exec (.cmdKeyLoad sl) s = .next t ∧ s.onlyIn t [.regs, .cul, .keys, .rng, .ecc, .out] ∧ (t.ks (h.u 0 2)).state = Ks.loaded ∧
      (t.ks (h.u 0 2)).alg = h.u 2 1 ∧ (t.ks (h.u 0 2)).material = b.take (algBytes (h.u 2 1)) ∧ (t.ks (h.u 0 2)).id = h.u 4 4 ∧
      (t.ks (h.u 0 2)).limit = 2 ^ 40 ∧ (t.ks (h.u 0 2)).use = 0 ∧ (t.ks (h.u 8 2)).use = (s.ks (h.u 8 2)).use + 1 := by
  obtain ⟨-, hne⟩ := keyLoad_slots hst hh
  have hact := specKeyLoad_act_loads ((specKeyLoad.unwrapped_taken (sl := sl)).trans hb) hl
  rw [← hh] at hact
  have ht := (exec_keyLoad (sl := sl)).trans (runCmd_done specKeyLoad sl s _ _ hst hact)
  rw [hh] at ht
  refine ⟨_, ht, CmdSpec.onlyIn_of_taken (m := [.regs, .cul, .keys, .rng, .ecc, .out])
    (((State.onlyIn_useSlot _ _).mono (by decide)).next (State.onlyIn_loadSlot _ _ _ _ _ _ _)), ?_⟩
  obtain ⟨k, hk, hks⟩ := ((specKeyLoad.taken sl s).useSlot (h.u 8 2)).loadSlot_eq (h.u 0 2) (h.u 2 1) (bitAt (h.u 3 1) 0)
    (b.take (algBytes (h.u 2 1))) (b.drop (algBytes (h.u 2 1))) (h.u 4 4)
  have huse : ((((specKeyLoad.taken sl s).useSlot (h.u 8 2)).loadSlot (h.u 0 2) (h.u 2 1) (bitAt (h.u 3 1) 0) (b.take (algBytes (h.u 2 1)))
      (b.drop (algBytes (h.u 2 1))) (h.u 4 4)).ks (h.u 8 2)).use = (s.ks (h.u 8 2)).use + 1 := by
    rw [State.ks_loadSlot_ne hne.symm, State.use_useSlot, CmdSpec.ks_taken]
  obtain ⟨hstate, halg, hmat, hid, hlim, -, huse0⟩ := hks
  simp only [CmdSpec.ks_ends, huse, and_true]
  rw [hk, State.ks_putKs, if_pos rfl]
  exact ⟨hstate, halg, hmat, hid, hlim, huse0⟩

theorem keyLoad_fails (hst : specKeyLoad.starts sl s = true) (hh : specKeyLoad.held sl s = h)
    (hb : ∀ b, h.unwrapped s = some b → b.length ≠ h.wrapLen) :
    ∃ t, exec (.cmdKeyLoad sl) s = .next t ∧ s.onlyIn t [.regs, .cul, .keys, .rng, .ecc, .out] ∧ (t.ks (h.u 0 2)).state = Ks.empty := by
  obtain ⟨hempty, hne⟩ := keyLoad_slots hst hh
  have hact := specKeyLoad_act_fails (h := h) (s := specKeyLoad.taken sl s) fun b hp => hb b ((specKeyLoad.unwrapped_taken (sl := sl)).symm.trans hp)
  rw [← hh] at hact
  have ht := (exec_keyLoad (sl := sl)).trans (runCmd_done specKeyLoad sl s _ _ hst hact)
  rw [hh] at ht
  refine ⟨_, ht, CmdSpec.onlyIn_of_taken (State.onlyIn_useSlot _ _), ?_⟩
  rw [CmdSpec.ks_ends]
  exact State.empty_useSlot hne (by rw [CmdSpec.ks_taken, hempty])

end KeyCommandLaws

end Sys2Proof.Machine

namespace Sys2Proof.Machine

-- proofs one after the other: a task for each would take a stack of its own
set_option Elab.async false

section SlotCommandLaws

variable {s t u : State} {sl : Slot} {h : Held} {i j : Nat} {b : List Byte}

/-! ### Deriving -/

theorem State.fst_splitKey (s : State) (alg : Nat) (b : List Byte) : (s.splitKey alg b).1 = fitB (algBytes alg) b := by
  unfold State.splitKey
  dsimp only
  split <;> rfl

theorem State.onlyIn_splitKey (s : State) (alg : Nat) (b : List Byte) : s.onlyIn (s.splitKey alg b).2.2 [.free] := by
  unfold State.splitKey
  dsimp only
  split
  exacts [s.onlyIn_free _, .refl]

/-- What a command loads into the slot that it names first. -/
def State.loadNamed (s : State) (h : Held) (m salt : List Byte) : State :=
  s.loadSlot (h.u 0 2) (h.u 2 1) (bitAt (h.u 3 1) 0) m salt (h.u 4 4)

theorem State.onlyIn_loadNamed (s : State) (h : Held) (m salt : List Byte) : s.onlyIn (s.loadNamed h m salt) [.regs, .keys, .rng, .ecc] :=
  s.onlyIn_loadSlot _ _ _ _ _ _

theorem State.loadNamed_spec (s : State) (h : Held) (m salt : List Byte) :
    ((s.loadNamed h m salt).ks (h.u 0 2)).state = Ks.loaded ∧ ((s.loadNamed h m salt).ks (h.u 0 2)).material = m ∧
      (∀ i, i ≠ h.u 0 2 → (s.loadNamed h m salt).ks i = s.ks i) := by
  obtain ⟨k, hk, hstate, -, hmat, -⟩ := s.loadSlot_eq (h.u 0 2) (h.u 2 1) (bitAt (h.u 3 1) 0) m salt (h.u 4 4)
  refine ⟨?_, ?_, fun i hi => State.ks_loadSlot_ne hi⟩
  · rw [State.loadNamed, hk, State.ks_putKs, if_pos rfl, hstate]
  · rw [State.loadNamed, hk, State.ks_putKs, if_pos rfl, hmat]

/-- What CMD_KEY_DERIVE derives from the root. -/
def Held.fromRoot (h : Held) (s : State) (root : List Byte) : List Byte :=
  kdf root (ascii "PW1024 USER " ++ sliceB h.params 10 (h.u 8 1 - 1) ++ [0] ++ s.rootContext) (algBytes (h.u 2 1))

theorem specKeyDerive_act_root (h9 : h.u 9 1 = 0) (hb : s.root = some b) :
    ∃ v salt, specKeyDerive.act h s = .done (.ok []) (State.loadNamed v h (fitB (algBytes (h.u 2 1)) (h.fromRoot s b)) salt) ∧ s.onlyIn v [.free] := by
  refine ⟨_, (s.splitKey (h.u 2 1) (h.fromRoot s b)).2.1, ?_, s.onlyIn_splitKey (h.u 2 1) (h.fromRoot s b)⟩
  simp [specKeyDerive, h9, hb, State.loadNamed, Held.fromRoot, State.fst_splitKey]

theorem specKeyDerive_act_slot (h9 : h.u 9 1 = 1) :
    ∃ v m salt, specKeyDerive.act h s = .done (.ok []) (State.loadNamed v h m salt) ∧ (s.emptySlot (labelSlot h)).onlyIn v [.free] := by
  simp only [specKeyDerive, h9, if_true]
  exact ⟨_, _, _, rfl, State.onlyIn_splitKey _ _ _⟩

theorem exec_keyDerive : exec (.cmdKeyDerive sl) s = runCmd specKeyDerive sl s := rfl

theorem CmdSpec.root_taken (c : CmdSpec) : (c.taken sl s).root = s.root := by rw [State.root, (c.onlyIn_taken sl s).keys, State.root]

theorem CmdSpec.rootContext_taken (c : CmdSpec) : (c.taken sl s).rootContext = s.rootContext := by
  rw [State.rootContext, (c.onlyIn_taken sl s).keys, (c.touches_taken sl s).rd _ (by decide) (by simp), State.rootContext]

theorem keyDerive_root (hst : specKeyDerive.starts sl s = true) (hh : specKeyDerive.held sl s = h) (h9 : h.u 9 1 = 0) (hb : s.root = some b) :
    ∃ t, exec (.cmdKeyDerive sl) s = .next t ∧ s.onlyIn t [.regs, .cul, .keys, .rng, .free, .ecc, .out] ∧ specKeyDerive.replied sl s (.ok []) t ∧
      (t.ks (h.u 0 2)).state = Ks.loaded ∧ (t.ks (h.u 0 2)).material = fitB (algBytes (h.u 2 1)) (h.fromRoot s b) ∧
      (∀ i, i ≠ h.u 0 2 → t.ks i = s.ks i) := by
  obtain ⟨v, salt, hact, hv⟩ := specKeyDerive_act_root (s := specKeyDerive.taken sl s) h9 (specKeyDerive.root_taken.trans hb)
  rw [← hh] at hact
  have ht := (exec_keyDerive (sl := sl)).trans (runCmd_done specKeyDerive sl s _ _ hst hact)
  rw [hh] at ht
  have hu := (hv.mono (l := [.regs, .keys, .rng, .ecc, .free]) (by decide)).next
    (v.onlyIn_loadNamed h (fitB (algBytes (h.u 2 1)) (h.fromRoot (specKeyDerive.taken sl s) b)) salt)
  obtain ⟨hstate, hmat, hother⟩ := v.loadNamed_spec h (fitB (algBytes (h.u 2 1)) (h.fromRoot (specKeyDerive.taken sl s) b)) salt
  refine ⟨_, ht, CmdSpec.onlyIn_of_taken hu, CmdSpec.replied_of_taken hst hu, ?_, ?_, fun i hi => ?_⟩
  · rw [CmdSpec.ks_ends, hstate]
  · rw [CmdSpec.ks_ends, hmat, Held.fromRoot, CmdSpec.rootContext_taken, Held.fromRoot]
  · rw [CmdSpec.ks_ends, hother i hi, hv.ks, CmdSpec.ks_taken]

theorem keyDerive_slot (hst : specKeyDerive.starts sl s = true) (hh : specKeyDerive.held sl s = h) (h9 : h.u 9 1 = 1) :
    ∃ t, exec (.cmdKeyDerive sl) s = .next t ∧ (t.ks (h.u 0 2)).state = Ks.loaded ∧
      (labelSlot h ≠ h.u 0 2 → t.ks (labelSlot h) = KeySlot.empty) := by
  obtain ⟨v, m, salt, hact, hv⟩ := specKeyDerive_act_slot (s := specKeyDerive.taken sl s) h9
  rw [← hh] at hact
  have ht := (exec_keyDerive (sl := sl)).trans (runCmd_done specKeyDerive sl s _ _ hst hact)
  rw [hh] at ht
  obtain ⟨hstate, -, hother⟩ := v.loadNamed_spec h m salt
  refine ⟨_, ht, by rw [CmdSpec.ks_ends, hstate], fun hne => ?_⟩
  rw [CmdSpec.ks_ends, hother _ hne, hv.ks, State.ks_emptySlot, if_pos rfl]

/-! ### One slot -/

theorem exec_keyActivate (hst : specKeyActivate.starts sl s = true) :
    exec (.cmdKeyActivate sl) s = .next (specKeyActivate.ends sl s (.ok [])
      ((specKeyActivate.taken sl s).wakeSlot ((specKeyActivate.held sl s).u 0 2))) :=
  runCmd_done specKeyActivate sl s _ _ hst rfl

theorem State.wakeSlot_active (h : (s.ks i).use < (s.ks i).limit) : ((s.wakeSlot i).ks i).state = Ks.active := by
  rw [State.ks_wakeSlot, if_pos rfl]
  exact KeySlot.state_woken h

theorem exec_keyArm (hst : specKeyArm.starts sl s = true) :
    exec (.cmdKeyArm sl) s = .next (specKeyArm.ends sl s (.ok []) ((specKeyArm.taken sl s).setKs ((specKeyArm.held sl s).u 0 2)
      { s.ks ((specKeyArm.held sl s).u 0 2) with succ := some ((specKeyArm.held sl s).u 2 2) })) := by
  rw [← specKeyArm.ks_taken sl s]
  exact runCmd_done specKeyArm sl s _ _ hst rfl

theorem exec_keyLimit (hst : specKeyLimit.starts sl s = true) :
    exec (.cmdKeyLimit sl) s = .next (specKeyLimit.ends sl s (.ok []) ((specKeyLimit.taken sl s).setKs ((specKeyLimit.held sl s).u 0 2)
      { s.ks ((specKeyLimit.held sl s).u 0 2) with limit := (specKeyLimit.held sl s).u 8 8, warn := (specKeyLimit.held sl s).u 16 8 })) := by
  rw [← specKeyLimit.ks_taken sl s]
  exact runCmd_done specKeyLimit sl s _ _ hst rfl

theorem exec_keyClear (hst : specKeyClear.starts sl s = true) :
    exec (.cmdKeyClear sl) s = .next (specKeyClear.ends sl s (.ok []) ((specKeyClear.taken sl s).emptySlot ((specKeyClear.held sl s).u 0 2))) :=
  runCmd_done specKeyClear sl s _ _ hst rfl

theorem State.slotView_congr (h : t.keys = s.keys) (i : Nat) : t.slotView i = s.slotView i := by
  simp only [State.slotView, State.succWord, State.armed, State.ks_congr h]

theorem exec_keySlotRead (hst : specKeySlotRead.starts sl s = true) :
    exec (.cmdKeySlotRead sl) s = .next (specKeySlotRead.ends sl s
      (.ok ((s.slotView ((specKeySlotRead.held sl s).u 0 2)).flatMap (toLe 4))) (specKeySlotRead.taken sl s)) := by
  rw [← State.slotView_congr (specKeySlotRead.onlyIn_taken sl s).keys]
  exact runCmd_done specKeySlotRead sl s _ _ hst rfl

theorem keyDelete_empties (hst : specKeyDelete.starts sl s = true) (hh : specKeyDelete.held sl s = h) :
    ∃ t, exec (.cmdKeyDelete sl) s = .next t ∧ t.ks (h.u 0 2) = KeySlot.empty ∧ (∀ i, i ≠ h.u 0 2 → t.ks i = s.ks i) ∧
      s.onlyIn t [.regs, .cul, .keys, .ecc, .out] ∧ specKeyDelete.replied sl s (.ok []) t := by
  have ht : exec (.cmdKeyDelete sl) s = .next _ := runCmd_done specKeyDelete sl s _ _ hst rfl
  rw [hh] at ht
  have hu := (((specKeyDelete.taken sl s).onlyIn_keys
    { (specKeyDelete.taken sl s).keys with rolls := (specKeyDelete.taken sl s).keys.rolls.filter (fun r => r.old ≠ h.u 0 2) }).mono
      (l := [.keys, .ecc]) (by decide)).trans (State.onlyIn_emptySlot _ (h.u 0 2))
  refine ⟨_, ht, ?_, fun i hi => ?_, CmdSpec.onlyIn_of_taken hu, CmdSpec.replied_of_taken hst hu⟩
  · rw [CmdSpec.ks_ends, State.ks_emptySlot, if_pos rfl]
  · rw [CmdSpec.ks_ends, State.ks_emptySlot, if_neg hi, State.ks_rolls, CmdSpec.ks_taken]

/-! ### Zeroizing -/

/-- The slot without its material, which a ZEROIZED slot already is. -/
def KeySlot.zeroed (k : KeySlot) : KeySlot :=
  if k.state = Ks.zeroized then k else { k with state := Ks.zeroized, material := [], salt := [], inv := 0 }

theorem KeySlot.state_zeroed (k : KeySlot) : k.zeroed.state = Ks.zeroized := by
  unfold KeySlot.zeroed
  split
  exacts [‹_›, rfl]

theorem KeySlot.zeroed_zeroed (k : KeySlot) : k.zeroed.zeroed = k.zeroed := if_pos k.state_zeroed

theorem State.ks_zeroSlot (s : State) (i j : Nat) : (s.zeroSlot i).ks j = if j = i then (s.ks i).zeroed else s.ks j := by
  unfold State.zeroSlot KeySlot.zeroed
  dsimp only
  by_cases hz : (s.ks i).state = Ks.zeroized
  · rw [if_pos hz, if_pos hz]
    split
    exacts [‹j = i› ▸ rfl, rfl]
  · rw [if_neg hz, if_neg hz, State.ks_putKs]

theorem State.onlyIn_zeroSlot (s : State) (i : Nat) : s.onlyIn (s.zeroSlot i) [.keys, .ecc] := .if_ .refl (s.onlyIn_putKs i _)

theorem State.ks_zeroSlots (l : List Nat) (s : State) (j : Nat) : (s.forEach l State.zeroSlot).ks j = if j ∈ l then (s.ks j).zeroed else s.ks j := by
  induction l generalizing s with
  | nil => rfl
  | cons i l ih =>
    have hcons : s.forEach (i :: l) State.zeroSlot = (s.zeroSlot i).forEach l State.zeroSlot := rfl
    rw [hcons, ih, State.ks_zeroSlot]
    by_cases hj : j = i
    · subst hj
      simp [KeySlot.zeroed_zeroed]
    · simp [hj]

theorem State.ks_zeroizeSlots (s : State) (l : List Nat) (j : Nat) : (s.zeroizeSlots l).ks j = if j ∈ l then (s.ks j).zeroed else s.ks j := by
  unfold State.zeroizeSlots
  extract_lets p u v
  have hu (i : Nat) : u.ks i = s.ks i := by rw [(State.onlyIn_ciqZeroized _ p).ks, (s.onlyIn_pkeZeroized p).ks]
  rw [(v.onlyIn_endHolders p).ks, State.ks_zeroSlots, hu]

theorem State.nv_zeroizeSlots (s : State) (l : List Nat) : (s.zeroizeSlots l).nv = s.nv := by
  unfold State.zeroizeSlots
  extract_lets p u v
  have hv : u.onlyIn v [.keys, .ecc] := State.onlyIn.refl.forEach fun t i ht => ht.trans (t.onlyIn_zeroSlot i)
  rw [(v.onlyIn_endHolders p).nv, hv.nv, (State.onlyIn_ciqZeroized _ p).nv, (s.onlyIn_pkeZeroized p).nv]

theorem mem_rangeFrom {lo n i : Nat} : i ∈ rangeFrom lo n ↔ lo ≤ i ∧ i < lo + n := by
  simp only [rangeFrom, List.mem_map, List.mem_range]
  exact ⟨fun ⟨a, ha, he⟩ => by omega, fun hi => ⟨i - lo, by omega, by omega⟩⟩

/-- The slots that a CMD_KEY_ZEROIZE names. -/
def Held.zeroRange (h : Held) : List Nat := rangeFrom (h.u 0 2) (min (h.u 2 2) (32768 - h.u 0 2))

theorem specKeyZeroize_act (h : Held) (s : State) :
    ∃ r v, specKeyZeroize.act h s = .done r v ∧ (s.zeroizeSlots h.zeroRange).Touches v [R.KEY_EVT] := by
  refine ⟨_, _, rfl, ?_⟩
  split
  exacts [.refl, State.Touches.refl.raise (by decide) (by decide)]

theorem keyZeroize_zeroizes (hst : specKeyZeroize.starts sl s = true) (hh : specKeyZeroize.held sl s = h) :
    ∃ t, exec (.cmdKeyZeroize sl) s = .next t ∧
      (∀ i, h.u 0 2 ≤ i → i < h.u 0 2 + h.u 2 2 → i < 32768 →
        (t.ks i).state = Ks.zeroized ∧ ((s.ks i).state ≠ Ks.zeroized → (t.ks i).material = [] ∧ (t.ks i).salt = [])) ∧
      (∀ i, i < h.u 0 2 ∨ h.u 0 2 + h.u 2 2 ≤ i → t.ks i = s.ks i) ∧ t.nv = s.nv := by
  obtain ⟨r, v, hact, hv⟩ := specKeyZeroize_act h (specKeyZeroize.taken sl s)
  rw [← hh] at hact
  have ht : exec (.cmdKeyZeroize sl) s = .next _ := runCmd_done specKeyZeroize sl s _ _ hst hact
  have hks (i : Nat) : (specKeyZeroize.ends sl s r v).ks i = if i ∈ h.zeroRange then (s.ks i).zeroed else s.ks i := by
    rw [CmdSpec.ks_ends, hv.onlyIn.ks, State.ks_zeroizeSlots, CmdSpec.ks_taken]
  refine ⟨_, ht, fun i hlo hhi hmax => ?_, fun i hi => ?_, ?_⟩
  · have hmem : i ∈ h.zeroRange := mem_rangeFrom.2 (by omega)
    rw [hks, if_pos hmem]
    refine ⟨(s.ks i).state_zeroed, fun hz => ?_⟩
    rw [KeySlot.zeroed, if_neg hz]
    exact ⟨rfl, rfl⟩
  · rw [hks, if_neg fun hmem => ?_]
    have := mem_rangeFrom.1 hmem
    omega
  · rw [(specKeyZeroize.onlyIn_ends sl s r v).nv, hv.onlyIn.nv, State.nv_zeroizeSlots, (specKeyZeroize.onlyIn_taken sl s).nv]

end SlotCommandLaws

/-- Settles O20: each command's effect on its slot, and what it leaves of the others. -/
theorem keyCommands : Obligations.KeyCommands := by
  unfold Obligations.KeyCommands
  intro sl s
  refine ⟨fun p hst hp => ?_, fun b hst h9 hb => keyDerive_root hst rfl h9 hb, fun hst h9 => keyDerive_slot hst rfl h9,
    fun hst => ⟨exec_keyActivate hst, fun hu => State.wakeSlot_active ?_⟩, exec_keyArm, exec_keyLimit, fun hst => keyDelete_empties hst rfl,
    fun hst => ⟨exec_keyClear hst, ?_⟩, fun hst => keyZeroize_zeroizes hst rfl, exec_keySlotRead⟩
  · by_cases hb : ∃ b, p = some b ∧ b.length = (specKeyLoad.held sl s).wrapLen
    · obtain ⟨b, rfl, hl⟩ := hb
      obtain ⟨t, ht, hparts, hloaded⟩ := keyLoad_loads hst rfl hp hl
      exact ⟨t, ht, hparts, fun b' hb' _ => Option.some.inj hb' ▸ hloaded, fun hnone => nomatch hnone⟩
    · obtain ⟨t, ht, hparts, hempty⟩ := keyLoad_fails hst rfl fun b hb' hl => hb ⟨b, hp.symm.trans hb', hl⟩
      exact ⟨t, ht, hparts, fun b hpb hl => absurd ⟨b, hpb, hl⟩ hb, fun _ => hempty⟩
  · rwa [CmdSpec.ks_taken]
  · rw [State.ks_emptySlot, if_pos rfl]

end Sys2Proof.Machine

/-! # What an event or a reply leaves of the Culvert -/

namespace Sys2Proof.Machine

-- proofs one after the other: a task for each would take a stack of its own
set_option Elab.async false

/-- The window's control register and the state of the root pair, which stand among the registers that events write. -/
def heldReg (a : Nat) : Bool := decide (a = R.CUL_WIN_CTL) || decide (a = R.DEV_PAIR_STS 0)

/-- From `s` to `t` no byte for the host leaves, no command starts to wait, and the sessions, the commands at a cycle, the window's
control register and the root pair's state stay. -/
structure State.Signals (s t : State) : Prop where
  host : ∀ o n, Out.hostWrite o n ∈ t.out → Out.hostWrite o n ∈ s.out
  waits : t.cul.waits ⊆ s.cul.waits
  sessions : t.cul.sessions = s.cul.sessions
  atCycle : t.cul.atCycle = s.cul.atCycle
  rd : ∀ a, heldReg a = true → t.rd a = s.rd a

section SignalLaws

variable {s t u : State}

theorem State.Signals.refl : s.Signals s := ⟨fun _ _ h => h, List.Subset.refl _, rfl, rfl, fun _ _ => rfl⟩

theorem State.Signals.trans (h : s.Signals t) (g : t.Signals u) : s.Signals u :=
  ⟨fun o n hm => h.host o n (g.host o n hm), List.Subset.trans g.waits h.waits, g.sessions.trans h.sessions, g.atCycle.trans h.atCycle,
    fun a ha => (g.rd a ha).trans (h.rd a ha)⟩

/-- What changes neither registers, nor the Culvert, nor what has left the device. -/
theorem State.Signals.keep (h : s.Signals u) (hr : t.regs = u.regs) (hc : t.cul = u.cul) (ho : t.out = u.out) : s.Signals t :=
  h.trans ⟨fun _ _ hm => ho ▸ hm, by rw [hc]; exact List.Subset.refl _, by rw [hc], by rw [hc], fun _ _ => State.rd_congr hr⟩

theorem State.Signals.of_onlyIn {l : List StatePart} (h : s.Signals u) (hu : u.onlyIn t l) (hr : .regs ∉ l := by decide)
    (hc : .cul ∉ l := by decide) (ho : .out ∉ l := by decide) : s.Signals t := h.keep (hu.regs hr) (hu.cul hc) (hu.1 .out ho)

theorem State.Signals.if_ {p : Prop} {_ : Decidable p} (ht : s.Signals t) (hu : s.Signals u) : s.Signals (if p then t else u) := by
  split <;> assumption

theorem State.Signals.wr (h : s.Signals u) {a v} (ha : heldReg a = false := by decide) : s.Signals (u.wr a v) := by
  refine h.trans ⟨fun _ _ hm => hm, List.Subset.refl _, rfl, rfl, fun b hb => u.rd_wr_ne v ?_⟩
  rintro rfl
  exact absurd (ha.symm.trans hb) (by decide)

theorem State.Signals.setF (h : s.Signals u) {f x} (hf : heldReg f.addr = false := by decide) : s.Signals (u.setF f x) := h.wr hf

theorem State.Signals.emit (h : s.Signals u) {x : Out} (hx : ∀ o n, x ≠ .hostWrite o n := by intros; nofun) : s.Signals (u.emit x) :=
  h.trans ⟨fun o n hm => (List.mem_cons.1 hm).resolve_left (hx o n).symm, List.Subset.refl _, rfl, rfl, fun _ _ => rfl⟩

/-- The events held and lost, the vectors armed and the replies owed are none of these. -/
theorem State.Signals.setCul (h : s.Signals u) {c : Cul} (hw : c.waits ⊆ u.cul.waits) (hs : c.sessions = u.cul.sessions)
    (ha : c.atCycle = u.cul.atCycle) : s.Signals { u with cul := c } := h.trans ⟨fun _ _ hm => hm, hw, hs, ha, fun _ _ => rfl⟩

theorem State.Signals.forEach {α : Type} (h : s.Signals u) {g : State → α → State} {l : List α} (hg : ∀ t a, s.Signals t → s.Signals (g t a)) :
    s.Signals (u.forEach l g) := State.forEach_inv (P := fun t => s.Signals t) hg l h

theorem heldReg_eq_false_iff {a : Nat} : heldReg a = false ↔ a ≠ 0xD0000 ∧ a ≠ 0x3204 := by
  simp only [heldReg, Bool.or_eq_false_iff, decide_eq_false_iff_not]
  exact Iff.rfl

theorem heldReg_irqPend {p src : Nat} (hp : p < 5) (hs : src < 256) : heldReg (R.DEV_IRQ_PEND (p * 8 + src / 32)) = false := by
  rw [heldReg_eq_false_iff]
  unfold R.DEV_IRQ_PEND
  omega

theorem State.Signals.irqAll (h : s.Signals u) {src} (hs : src < 256 := by decide) : s.Signals (u.irqAll src) :=
  have hq (p : Nat) (hp : p < 5) := heldReg_irqPend hp hs
  ((((h.wr (hq 0 (by decide))).wr (hq 1 (by decide))).wr (hq 2 (by decide))).wr (hq 3 (by decide))).wr (hq 4 (by decide))

theorem State.Signals.msix (h : s.Signals u) {v} : s.Signals (u.msix v) := by
  refine .if_ (h.wr ?_) h.emit
  rw [heldReg_eq_false_iff]
  unfold R.MSIX_PBA
  omega

theorem State.Signals.signalArmed (h : s.Signals u) {v} : s.Signals (u.signalArmed v) := by
  have hc : s.Signals { u with cul := { u.cul with armed := u.cul.armed.filter (· ≠ v) } } := h.setCul (List.Subset.refl _) rfl rfl
  exact .if_ hc.msix h

theorem State.Signals.putEntry (h : s.Signals u) {e ev} : s.Signals (u.putEntry e ev) := by
  refine (h.emit.setF ?_).signalArmed
  rw [heldReg_eq_false_iff]
  simp only [F.CUL_ERING_IDX_TAIL]
  omega

theorem State.Signals.drainEv (h : s.Signals u) {n e} : s.Signals (State.drainEv n e u) := by
  induction n generalizing u with
  | zero => exact h
  | succ n ih =>
    have hl : s.Signals (u.setLostNow e 0) := h.setCul (List.Subset.refl _) rfl rfl
    unfold State.drainEv
    refine .if_ h (.if_ (ih hl.putEntry) ?_)
    split
    next => exact h
    next ev t _ =>
      have hh : s.Signals (u.setHeldEv e t) := h.setCul (List.Subset.refl _) rfl rfl
      exact ih hh.putEntry

theorem State.Signals.postTo (h : s.Signals u) {e ev} : s.Signals (u.postTo e ev) := by
  have hh : s.Signals (u.setHeldEv e (u.heldEv e ++ [ev])) := h.setCul (List.Subset.refl _) rfl rfl
  have hl : s.Signals (u.setLostNow e (u.lostNow e + 1)) := h.setCul (List.Subset.refl _) rfl rfl
  refine .if_ hh.drainEv (hl.setF ?_)
  rw [heldReg_eq_false_iff]
  simp only [F.CUL_ERING_LOST_COUNT]
  omega

theorem State.Signals.post (h : s.Signals u) {ev} (hc : ev.cls < 16 := by decide) : s.Signals (u.post ev) :=
  have hi : s.Signals (u.irqAll (32 + ev.cls)) := h.irqAll (by omega)
  .if_ hi.setF hi.postTo

theorem State.Signals.raise (h : s.Signals u) {src bit data} (hc : src.cls < 16 := by decide) (he : heldReg src.evt = false := by decide) :
    s.Signals (u.raise src bit data) := .if_ ((h.wr he).post hc) (h.wr he)

theorem State.Signals.putReply (h : s.Signals u) {x r g} : s.Signals (u.putReply x r g) :=
  .if_ h (.if_ (h.setCul (List.Subset.refl _) rfl rfl) (.if_ h.emit.signalArmed h.emit))

theorem State.Signals.complete (h : s.Signals u) {x r late} : s.Signals (u.complete x r late) :=
  .if_ h (.if_ h.irqAll.postTo h.irqAll.setF)

theorem State.Signals.finish (h : s.Signals u) {x r late} : s.Signals (u.finish x r late) := by
  unfold State.finish
  extract_lets t
  have ht : s.Signals t := .if_ (h.post (show 13 < 16 by decide)) h
  exact .if_ ht.complete ht.putReply

theorem State.Signals.endWait (h : s.Signals u) {x} : s.Signals (u.endWait x) := h.setCul List.filter_sublist.subset rfl rfl

theorem State.Signals.finishWait (h : s.Signals u) {x r} : s.Signals (u.finishWait x r) := h.endWait.finish

end SignalLaws

end Sys2Proof.Machine

/-! # The cipher request queue (O26) -/

namespace Sys2Proof.Machine

-- proofs one after the other: a task for each would take a stack of its own
set_option Elab.async false

section RequestLaws

variable {s t u : State}

/-! ### A domain that wakes -/

theorem State.onlyIn_pwr (s : State) (p : Pwr) : s.onlyIn { s with pwr := p } [.pwr] :=
  ⟨fun q hq => by cases q with | pwr => simp at hq | _ => exact rfl, rfl⟩

theorem State.onlyIn_dropTrans (s : State) (d : Nat) : s.onlyIn (s.dropTrans d) [.pwr] := s.onlyIn_pwr _

theorem State.onlyIn_setDom (s : State) (d st : Nat) : s.onlyIn (s.setDom d st) [.regs] := s.onlyIn_setF _ _

theorem State.onlyIn_domMove (s : State) (d src dst : Nat) : s.onlyIn (s.domMove d src dst) [.regs, .pwr] :=
  (((s.onlyIn_dropTrans d).mono (by decide)).next (State.onlyIn_setDom _ d dsMove)).next (State.onlyIn_pwr _ _)

theorem State.onlyIn_domWake1 (s : State) (d : Nat) : s.onlyIn (s.domWake1 d) [.regs, .pwr] := by
  unfold State.domWake1
  split
  · refine .if_ .refl ?_
    dsimp only
    have hr := (s.onlyIn_setF (F.PWR_CTL_RESULT d) 0x30).mono (l := [.regs, .pwr]) (by decide)
    exact .if_ ((hr.next (State.onlyIn_dropTrans _ d)).next (State.onlyIn_setDom _ d dsOn)) (hr.trans (State.onlyIn_domMove _ d _ dsOn))
  · exact .if_ .refl (s.onlyIn_domMove d _ dsOn)

theorem State.onlyIn_domWake (s : State) (d : Nat) : s.onlyIn (s.domWake d) [.regs, .pwr] := by
  have hw {u : State} (h : s.onlyIn u [.regs, .pwr]) (d : Nat) : s.onlyIn (u.domWake1 d) [.regs, .pwr] := h.trans (u.onlyIn_domWake1 d)
  unfold State.domWake
  exact hw (.doIf (.doIf .refl (hw (hw .refl _) _)) (hw (.doIf .refl (hw (hw .refl _) _)) _)) _

/-! ### Submission -/

theorem State.onlyIn_ciqAdd (s : State) (r : CiqReq) : s.onlyIn (s.ciqAdd r) [.regs, .pwr, .ciq] := by
  unfold State.ciqAdd
  refine .if_ .refl (.if_ ((s.onlyIn_setF _ _).mono (by decide)) ?_)
  exact ((s.onlyIn_ciq _).mono (by decide)).next (State.onlyIn_domWake _ dCipher) |>.next (State.onlyIn_domWake _ dKeys)

/-- A request joins the tail of its queue while that has room. -/
theorem State.ciq_ciqAdd {r : CiqReq} (hq : s.fb F.CIQ_STS_QUIESCED = false) (hl : (s.ciq.queues.getD r.queue []).length < 256) :
    (s.ciqAdd r).ciq = { s.ciq with queues := s.ciq.queues.set r.queue (s.ciq.queues.getD r.queue [] ++ [r]) } := by
  have hw (v : State) (d : Nat) : (v.domWake d).ciq = v.ciq := (v.onlyIn_domWake d).1 .ciq (by decide)
  rw [State.ciqAdd, if_neg (by simp [hq])]
  dsimp only
  rw [if_neg (Nat.not_le.2 hl), hw, hw]

/-- A full queue discards it. -/
theorem State.ciqAdd_full {r : CiqReq} (hq : s.fb F.CIQ_STS_QUIESCED = false) (hl : 256 ≤ (s.ciq.queues.getD r.queue []).length) :
    s.ciqAdd r = s.setF F.CIQ_STS_FULL (s.f F.CIQ_STS_FULL ||| 2 ^ r.queue) := by
  rw [State.ciqAdd, if_neg (by simp [hq])]
  exact if_pos hl

/-- The state in which the sixteenth word has been taken. -/
def State.wordsTaken (s : State) (q : Nat) : State := { s with ciq := { s.ciq with words := s.ciq.words.set q [] } }

theorem exec_descriptorSubmit {q : Fin 4} {v : Word} (h : (s.ciq.words.getD q.val []).length = 15) :
    exec (.ciqDescriptorSubmit q v) s = .next ((s.wordsTaken q.val).ciqAdd (ciqOfWords q.val (s.ciq.words.getD q.val [] ++ [v]))) := by
  have he : exec (.ciqDescriptorSubmit q v) s = execCiqDescriptorSubmit q v s := rfl
  have hl : (s.ciq.words.getD q.val [] ++ [v]).length = 16 := by rw [List.length_append, h]; rfl
  rw [he, execCiqDescriptorSubmit, if_pos h, State.ciqWord]
  dsimp only
  rw [if_neg (by rw [hl]; decide), State.wordsTaken]

theorem getD_set_self {α : Type} {l : List α} {i : Nat} {a d : α} (h : i < l.length) : (l.set i a).getD i d = a := by
  simp [List.getD_eq_getElem?_getD, h]

theorem getD_set_ne {α : Type} {l : List α} {i j : Nat} {a d : α} (h : i ≠ j) : (l.set i a).getD j d = l.getD j d := by
  simp [List.getD_eq_getElem?_getD, h]

theorem ciqDescriptorSubmit_queues {q : Fin 4} {v : Word} (hqs : s.ciq.queues.length = 4) (hws : s.ciq.words.length = 4)
    (h15 : (s.ciq.words.getD q.val []).length = 15) (hq : s.fb F.CIQ_STS_QUIESCED = false) :
    ∃ t, exec (.ciqDescriptorSubmit q v) s = .next t ∧ t.ciq.words.getD q.val [] = [] ∧ t.mem = s.mem ∧ t.keys = s.keys ∧
      ((s.ciq.queues.getD q.val []).length < 256 →
        t.ciq.queues.getD q.val [] = s.ciq.queues.getD q.val [] ++ [ciqOfWords q.val (s.ciq.words.getD q.val [] ++ [v])]) ∧
      (256 ≤ (s.ciq.queues.getD q.val []).length → t.ciq.queues = s.ciq.queues ∧ bitAt (t.f F.CIQ_STS_FULL) q.val = true) ∧
      (∀ p, p ≠ q.val → t.ciq.queues.getD p [] = s.ciq.queues.getD p []) := by
  have hparts := ((s.onlyIn_ciq { s.ciq with words := s.ciq.words.set q.val [] }).mono (l := [.regs, .pwr, .ciq]) (by decide)).trans
    (State.onlyIn_ciqAdd (s.wordsTaken q.val) (ciqOfWords q.val (s.ciq.words.getD q.val [] ++ [v])))
  have hword : (s.ciq.words.set q.val []).getD q.val [] = [] := getD_set_self (by omega)
  refine ⟨_, exec_descriptorSubmit h15, ?_⟩
  rcases Nat.lt_or_ge (s.ciq.queues.getD q.val []).length 256 with hl | hl
  · have hciq := State.ciq_ciqAdd (s := s.wordsTaken q.val) (r := ciqOfWords q.val (s.ciq.words.getD q.val [] ++ [v])) hq hl
    refine ⟨by rw [hciq]; exact hword, hparts.mem, hparts.keys, fun _ => ?_, fun h => absurd hl (Nat.not_lt.2 h), fun p hp => ?_⟩
    · rw [hciq]
      exact getD_set_self (by rw [show (s.wordsTaken q.val).ciq.queues = s.ciq.queues from rfl, hqs]; exact q.isLt)
    · rw [hciq]
      exact getD_set_ne hp.symm
  · have hfull := State.ciqAdd_full (s := s.wordsTaken q.val) (r := ciqOfWords q.val (s.ciq.words.getD q.val [] ++ [v])) hq hl
    have hciq : ((s.wordsTaken q.val).ciqAdd (ciqOfWords q.val (s.ciq.words.getD q.val [] ++ [v]))).ciq = (s.wordsTaken q.val).ciq := by
      rw [hfull]
      exact (State.onlyIn_setF _ _ _).1 .ciq (by decide)
    refine ⟨by rw [hciq]; exact hword, hparts.mem, hparts.keys, fun h => absurd h (Nat.not_lt.2 hl), fun _ => ⟨by rw [hciq]; rfl, ?_⟩,
      fun _ _ => by rw [hciq]; rfl⟩
    rw [hfull, State.f_setF_self _ _ _ (by decide), bitAt, Nat.testBit_mod_two_pow, Nat.testBit_or]
    simp [ciqOfWords, F.CIQ_STS_FULL, q.isLt]

/-! ### Start -/

theorem State.ages_ciqIv (s : State) (r : CiqReq) (i : Nat) : State.Ages i s (s.ciqIv r i).2 := by
  unfold State.ciqIv
  dsimp only
  split
  · exact s.ages_nextInv i
  · split
    exacts [s.ages_nextInv i, .refl]

/-- The state in which a core has taken a request from its queue. -/
def State.headTaken (s : State) (r : CiqReq) : State :=
  { s with ciq := { s.ciq with queues := s.ciq.queues.set r.queue ((s.ciq.queues.getD r.queue []).drop 1) } }

/-- The core can take a request. -/
def State.coreFree (s : State) (core : Nat) : Bool :=
  bitAt (s.f F.FPX_CORE_STS_INSVC) core && !s.ciq.running.any (fun r => r.core = core)
    && !s.ciq.waiting.any (fun d => d.req.core = core) && s.fb F.CIQ_CTL_EN && s.domOn dCipher && !(s.cal.testing.any (fun t => t.1 = core))

/-- The request as it runs, under the key and the IV of slot `i`. -/
def State.ciqRun (s : State) (r : CiqReq) (core i : Nat) (aad inp tag : List Byte) : CiqReq :=
  { r with core := core, iv := (s.ciqIv { r with core := core } i).1, key := (s.ks i).material, alg := (s.ks i).alg,
           dipped := ((s.ciqIv { r with core := core } i).2.useSlot i).berm.dipping || ((s.ciqIv { r with core := core } i).2.useSlot i).berm.settling,
           hAad := if r.host.isSome then r.hAad else aad, hInp := if r.host.isSome then r.hInp else inp,
           tagIn := if r.host.isSome then r.tagIn else tag }

theorem State.fst_ciqIv_headTaken (s : State) (r q : CiqReq) (i : Nat) : ((s.headTaken r).ciqIv q i).1 = (s.ciqIv q i).1 := by
  simp only [State.ciqIv, apply_ite Prod.fst]
  rfl

/-- The state in which the slot has given the request its nonce and counted a use. -/
def State.ciqUsed (s : State) (r : CiqReq) (core : Nat) : State :=
  ((s.headTaken r).ciqIv { r with core := core } (s.effSlot r.slot)).2.useSlot (s.effSlot r.slot)

theorem State.ciqUsed_spec (s : State) (r : CiqReq) (core : Nat) :
    (s.ciqUsed r core).ciq.running = s.ciq.running ∧ (s.ciqUsed r core).mem = s.mem ∧
      ((s.ciqUsed r core).ks (s.effSlot r.slot)).use = (s.ks (s.effSlot r.slot)).use + 1 := by
  have hiv := (s.headTaken r).ages_ciqIv { r with core := core } (s.effSlot r.slot)
  have huse := ((s.headTaken r).ciqIv { r with core := core } (s.effSlot r.slot)).2.onlyIn_useSlot (s.effSlot r.slot)
  refine ⟨?_, ?_, ?_⟩
  · have hciq : (s.ciqUsed r core).ciq = (s.headTaken r).ciq := (hiv.parts.trans huse).1 .ciq (by decide)
    rw [hciq]
    rfl
  · exact (hiv.parts.trans huse).mem
  · rw [State.ciqUsed, State.use_useSlot, hiv.use]
    rfl

theorem exec_requestStart {core : Fin 12} {aad inp tag : List Byte} {r : CiqReq} (hr : s.ciqHead = some r) (hf : s.coreFree core.val = true)
    (hc : s.ciqCheck { r with core := core.val } = none) (hp : s.slotPoison [s.effSlot r.slot] = none) :
    exec (.ciqRequestStart core aad inp tag none) s = .next { s.ciqUsed r core.val with ciq :=
      { (s.ciqUsed r core.val).ciq with running := (s.ciqUsed r core.val).ciq.running ++
        [(s.headTaken r).ciqRun r core.val (s.effSlot r.slot) aad inp tag] } } := by
  have he : exec (.ciqRequestStart core aad inp tag none) s = execCiqRequestStart core aad inp tag none s := rfl
  have hc' : (s.headTaken r).ciqCheck { r with core := core.val } = none := hc
  have hp' : (s.headTaken r).slotPoison [(s.headTaken r).effSlot r.slot] = none := hp
  unfold State.coreFree at hf
  unfold State.headTaken at hc' hp'
  rw [he]
  simp only [execCiqRequestStart, hr, hf, hc', hp', Bool.not_true, Bool.false_eq_true, if_false, Option.filter_none, State.eccRead]
  rfl

end RequestLaws

end Sys2Proof.Machine

namespace Sys2Proof.Machine

-- proofs one after the other: a task for each would take a stack of its own
set_option Elab.async false

section CompletionLaws

variable {s t u : State}

/-! ### What a request that differs raises -/

theorem State.signals_blaze (s : State) (rg a k : Nat) : s.Signals (s.blaze rg a k) := by
  unfold State.blaze
  refine .if_ (State.Signals.refl.of_onlyIn (State.onlyIn_ecc _ _)) (.if_ ?_ (State.Signals.refl.of_onlyIn (State.onlyIn_ecc _ _)))
  extract_lets first v e w
  have hw : s.Signals w := State.Signals.of_onlyIn (u := v) State.Signals.refl.setF (v.onlyIn_ecc _)
  exact .if_ hw.raise hw

/-- An entry of the stored-data record changes the record, and may raise its overflow. -/
theorem State.blaze_touches (s : State) (rg a k : Nat) :
    ∃ e, State.Touches { s with ecc := e } (s.blaze rg a k) [F.BLZ_LOST_COUNT.addr, R.ECC_EVT] := by
  unfold State.blaze
  split
  · exact ⟨_, .refl⟩
  · split
    · refine ⟨{ s.ecc with fullSeen := true }, ?_⟩
      extract_lets first v e w
      have hw : State.Touches { s with ecc := { s.ecc with fullSeen := true } } w [F.BLZ_LOST_COUNT.addr, R.ECC_EVT] :=
        State.Touches.refl.setF (f := F.BLZ_LOST_COUNT) (.inr (List.mem_cons_self ..))
      exact .if_ (hw.raise (by decide) (by simp [eccEvt])) hw
    · exact ⟨_, .refl⟩

/-- A tag comparison that disagrees: an error beyond correction, and an entry of the record (R105). -/
def State.ciqDisagrees (s : State) (core : Nat) : State := (s.addF (F.ECC_UNCORR_COUNT 13) 1).blaze 13 core 4

theorem State.onlyIn_ciqDisagrees (s : State) (core : Nat) : s.onlyIn (s.ciqDisagrees core) [.regs, .ecc, .cul, .out] := by
  obtain ⟨e, he⟩ := (s.addF (F.ECC_UNCORR_COUNT 13) 1).blaze_touches 13 core 4
  exact (((s.onlyIn_setF _ _).mono (by decide)).next (State.onlyIn_ecc _ e)).next he.onlyIn

theorem State.rd_ciqDisagrees {core a : Nat} (hf : evtFree a = true) (ha : a ∉ [(F.ECC_UNCORR_COUNT 13).addr, F.BLZ_LOST_COUNT.addr, R.ECC_EVT]) :
    (s.ciqDisagrees core).rd a = s.rd a := by
  obtain ⟨e, he⟩ := (s.addF (F.ECC_UNCORR_COUNT 13) 1).blaze_touches 13 core 4
  simp only [List.mem_cons, not_or] at ha
  exact (he.rd a hf (by simpa using ha.2)).trans (s.rd_setF_ne _ ha.1)

theorem State.signals_ciqDisagrees (s : State) (core : Nat) : s.Signals (s.ciqDisagrees core) :=
  (State.Signals.refl.setF : s.Signals (s.addF (F.ECC_UNCORR_COUNT 13) 1)).trans (State.signals_blaze _ _ _ _)

/-! ### The completion -/

theorem CiqDone.length_bytes (d : CiqDone) : d.bytes.length = 32 := by simp [CiqDone.bytes]

/-- OK is the seventh byte. -/
theorem CiqDone.byteAt_ok (d : CiqDone) : byteAt d.bytes 6 = BitVec.ofNat 8 d.ok := by simp [CiqDone.bytes, byteAt, toLe]

theorem State.memB_ciqPut (s : State) (d : CiqDone) (a : Nat) :
    (s.ciqPut d).memB a = if s.ciqAt ≤ a ∧ a < s.ciqAt + 32 then byteAt d.bytes (a - s.ciqAt) else s.memB a := by
  rw [← d.length_bytes, ← State.memB_memWrite, State.memB, (s.onlyIn_ciqPut_stored d).mem, State.memB]

theorem State.signals_ciqPut (s : State) (d : CiqDone) : s.Signals (s.ciqPut d) := by
  unfold State.ciqPut
  extract_lets x u v
  have hv : s.Signals v := (State.Signals.refl.of_onlyIn (s.onlyIn_memWrite _ _) : s.Signals u).setF.irqAll
  split
  exacts [hv.forEach fun _ _ ht => ht.finishWait, hv]

theorem State.ciqEnd_put {d : CiqDone} (hw : s.ciq.waiting = []) (hf : s.ciqFull = false) : s.ciqEnd d = s.ciqPut d := by
  rw [State.ciqEnd, if_pos (by simp [hw, hf])]

/-- The ring of completions is where its registers say. -/
theorem State.ciqRing_congr (hc : t.rd F.CIQ_CTL_SIZE.addr = s.rd F.CIQ_CTL_SIZE.addr) : t.ciqRing = s.ciqRing := by
  rw [State.ciqRing, State.ciqRing, State.f, hc, State.f]

theorem State.ciqAt_congr (hc : t.rd F.CIQ_CTL_SIZE.addr = s.rd F.CIQ_CTL_SIZE.addr) (hb : t.rd R.CIQ_CRING_BASE = s.rd R.CIQ_CRING_BASE)
    (hi : t.rd R.CIQ_CRING_IDX = s.rd R.CIQ_CRING_IDX) : t.ciqAt = s.ciqAt := by
  have hbase : t.f F.CIQ_CRING_BASE_BASE = s.f F.CIQ_CRING_BASE_BASE := congrArg (fun v : Word => bitsOf v.toNat _ _) hb
  have htail : t.f F.CIQ_CRING_IDX_TAIL = s.f F.CIQ_CRING_IDX_TAIL := congrArg (fun v : Word => bitsOf v.toNat _ _) hi
  rw [State.ciqAt, State.ciqAt, State.ciqRing_congr hc, hbase, htail]

theorem State.ciqFull_congr (hc : t.rd F.CIQ_CTL_SIZE.addr = s.rd F.CIQ_CTL_SIZE.addr) (hi : t.rd R.CIQ_CRING_IDX = s.rd R.CIQ_CRING_IDX) :
    t.ciqFull = s.ciqFull := by
  have htail : t.f F.CIQ_CRING_IDX_TAIL = s.f F.CIQ_CRING_IDX_TAIL := congrArg (fun v : Word => bitsOf v.toNat _ _) hi
  have hhead : t.f F.CIQ_CRING_IDX_HEAD = s.f F.CIQ_CRING_IDX_HEAD := congrArg (fun v : Word => bitsOf v.toNat _ _) hi
  rw [State.ciqFull, State.ciqFull, State.ciqRing_congr hc, htail, hhead]

/-! ### The end of a request -/

/-- The core has left its request. -/
def State.coreLeft (s : State) (core : Nat) (r : CiqReq) : State :=
  { s with ciq := { s.ciq with running := s.ciq.running.filter (fun x => x.core ≠ core),
                               blocks := (s.ciq.blocks + ceilDiv r.aadLen 16 + ceilDiv r.inLen 16) % 2 ^ 64 } }

/-- The request is not discarded for a supply dip (R353). -/
def State.undipped (s : State) (r : CiqReq) : Prop := 3 < r.op ∨ (r.dipped = false ∧ s.berm.dipping = false ∧ s.berm.settling = false)

theorem State.undipped_iff {r : CiqReq} :
    s.undipped r ↔ ¬ (decide (r.op ≤ 3) && (r.dipped || s.berm.dipping || s.berm.settling)) = true := by
  simp only [State.undipped, Bool.and_eq_true, Bool.or_eq_true, decide_eq_true_eq, not_and, not_or, Bool.not_eq_true]
  refine ⟨fun h hop => ?_, fun h => ?_⟩
  · exact (and_assoc.2 (h.resolve_left (Nat.not_lt.2 hop)))
  · exact (Nat.lt_or_ge 3 r.op).imp_right fun hop => and_assoc.1 (h hop)

/-- The state in which a tag that does not verify is found. -/
def State.ciqUnverified (s : State) (core : Nat) (r : CiqReq) (agree : Bool) : State :=
  if agree then s.coreLeft core r else (s.coreLeft core r).ciqDisagrees core

theorem exec_requestDone_unverified {core : Fin 12} {p : Option Nat} {agree : Bool} {r : CiqReq}
    (hr : s.ciq.running.find? (fun r => r.core = core.val) = some r) (hp : s.ciqPoison r p = none) (hv : ciqVerifies r.op = true)
    (hd : s.undipped r) (ha : agree = false ∨ r.tagOk s = false) :
    exec (.ciqRequestDone core p agree []) s = .next ((s.ciqUnverified core.val r agree).ciqEnd ⟨r, St.done, 0, 0, 0, []⟩) := by
  have he : exec (.ciqRequestDone core p agree []) s = execCiqRequestDone core p agree [] s := rfl
  have hp' : (s.coreLeft core.val r).ciqPoison r p = none := hp
  have hd' := State.undipped_iff.1 (show (s.coreLeft core.val r).undipped r from hd)
  rw [he]
  unfold State.coreLeft at hp' hd'
  simp only [execCiqRequestDone, hr, State.eccSpan_nil, hp', if_neg hd', hv, if_true]
  cases agree with
  | false => rfl
  | true =>
    have htag : r.tagOk (s.coreLeft core.val r) = false := ha.resolve_left (by decide)
    exact if_neg (ne_of_eq_of_ne htag (by decide))

theorem State.ciqUnverified_spec (s : State) (core : Nat) (r : CiqReq) (agree : Bool) :
    s.onlyIn (s.ciqUnverified core r agree) [.regs, .ciq, .ecc, .cul, .out] ∧ s.Signals (s.ciqUnverified core r agree) ∧
      (s.ciqUnverified core r agree).ciq = (s.coreLeft core r).ciq ∧
      (∀ a, evtFree a = true → a ∉ [(F.ECC_UNCORR_COUNT 13).addr, F.BLZ_LOST_COUNT.addr, R.ECC_EVT] →
        (s.ciqUnverified core r agree).rd a = s.rd a) := by
  have hleft : s.onlyIn (s.coreLeft core r) [.ciq] := s.onlyIn_ciq _
  have hsig : s.Signals (s.coreLeft core r) := State.Signals.refl.of_onlyIn hleft
  unfold State.ciqUnverified
  split
  · exact ⟨hleft.mono (by decide), hsig, rfl, fun _ _ _ => rfl⟩
  · have hdis := (s.coreLeft core r).onlyIn_ciqDisagrees core
    exact ⟨(hleft.mono (by decide)).next hdis, hsig.trans (State.signals_ciqDisagrees _ core), hdis.1 .ciq (by decide),
      fun a hf ha => State.rd_ciqDisagrees hf ha⟩

theorem requestDone_unverified {core : Fin 12} {p : Option Nat} {agree : Bool} {r : CiqReq}
    (hr : s.ciq.running.find? (fun r => r.core = core.val) = some r) (hp : s.ciqPoison r p = none) (hv : ciqVerifies r.op = true)
    (hd : s.undipped r) (hw : s.ciq.waiting = []) (hf : s.ciqFull = false) (ha : agree = false ∨ r.tagOk s = false) :
    ∃ t, exec (.ciqRequestDone core p agree []) s = .next t ∧ (∀ x ∈ t.ciq.running, x.core ≠ core.val) ∧
      (∀ a, a < s.ciqAt ∨ s.ciqAt + 32 ≤ a → t.memB a = s.memB a) ∧ (∀ o n, .hostWrite o n ∈ t.out → .hostWrite o n ∈ s.out) ∧
      t.memB (s.ciqAt + 6) = 0 ∧ t.cxl = s.cxl ∧ t.keys = s.keys := by
  obtain ⟨hparts, hsig, hciq, hrd⟩ := s.ciqUnverified_spec core.val r agree
  have hctl := hrd F.CIQ_CTL_SIZE.addr (by decide) (by decide)
  have hidx := hrd R.CIQ_CRING_IDX (by decide) (by decide)
  have hat := State.ciqAt_congr hctl (hrd R.CIQ_CRING_BASE (by decide) (by decide)) hidx
  have hput : (s.ciqUnverified core.val r agree).ciqEnd ⟨r, St.done, 0, 0, 0, []⟩ =
      (s.ciqUnverified core.val r agree).ciqPut ⟨r, St.done, 0, 0, 0, []⟩ :=
    State.ciqEnd_put (by rw [hciq]; exact hw) ((State.ciqFull_congr hctl hidx).trans hf)
  have hdone := (s.ciqUnverified core.val r agree).onlyIn_ciqPut ⟨r, St.done, 0, 0, 0, []⟩
  refine ⟨_, (exec_requestDone_unverified hr hp hv hd ha).trans (congrArg _ hput), fun x hx => ?_, fun a houtside => ?_,
    (hsig.trans (State.signals_ciqPut _ _)).host, ?_, (State.agree.trans (hparts.1 .cxl (by decide)) (hdone.1 .cxl (by decide)) :),
    hdone.keys.trans hparts.keys⟩
  · rw [(hdone.1 .ciq (by decide) : _ = _), hciq] at hx
    simpa using (List.mem_filter.1 hx).2
  · rw [State.memB_ciqPut, hat, if_neg (by omega), State.memB, hparts.mem, State.memB]
  · rw [State.memB_ciqPut, hat, if_pos (by omega), Nat.add_sub_cancel_left]
    exact CiqDone.byteAt_ok _

/-- The state in which an operation that verifies no tag has written what it computes. -/
def State.ciqComputed (s : State) (core : Nat) (r : CiqReq) : State :=
  let u := (s.coreLeft core r).ciqWrite r (if ciqHasOut r.op then r.inLen else 0)
  if r.op ≤ 5 && r.host.isNone then u.storeBytes r.tagp (fitB 16 (r.tagBytes (s.coreLeft core r))) else u

theorem State.keys_ciqComputed (s : State) (core : Nat) (r : CiqReq) : (s.ciqComputed core r).keys = s.keys := by
  unfold State.ciqComputed
  extract_lets u
  have hu : u.keys = s.keys := ((s.coreLeft core r).onlyIn_storeBytes _ _).keys
  split
  exacts [(u.onlyIn_storeBytes _ _).keys.trans hu, hu]

theorem exec_requestDone_computed {core : Fin 12} {p : Option Nat} {r : CiqReq}
    (hr : s.ciq.running.find? (fun r => r.core = core.val) = some r) (hp : s.ciqPoison r p = none) (hv : ciqVerifies r.op = false)
    (hd : s.undipped r) :
    exec (.ciqRequestDone core p true []) s = .next ((s.ciqComputed core.val r).ciqEnd
      ⟨r, St.done, 1, 0, if ciqHasOut r.op then r.inLen else 0, if r.op ≤ 5 then fitB 16 (r.tagBytes s) else []⟩) := by
  have he : exec (.ciqRequestDone core p true []) s = execCiqRequestDone core p true [] s := rfl
  have hp' : (s.coreLeft core.val r).ciqPoison r p = none := hp
  have hd' := State.undipped_iff.1 (show (s.coreLeft core.val r).undipped r from hd)
  rw [he]
  unfold State.coreLeft at hp' hd'
  simp only [execCiqRequestDone, hr, State.eccSpan_nil, hp', if_neg hd', hv, Bool.false_eq_true, if_false]
  rfl

/-! ### The head of the ring -/

theorem State.ciq_ciqPut (s : State) (d : CiqDone) : (s.ciqPut d).ciq = s.ciq := (s.onlyIn_ciqPut d).1 .ciq (by decide)

theorem State.waiting_ciqDrain (n : Nat) (s : State) : (State.ciqDrain n s).ciq.waiting.length ≤ s.ciq.waiting.length := by
  induction n generalizing s with
  | zero => exact Nat.le_refl _
  | succ n ih =>
    unfold State.ciqDrain
    split
    next d l h =>
      split
      · exact Nat.le_refl _
      · refine (ih _).trans ?_
        rw [State.ciq_ciqPut, h]
        exact Nat.le_succ _
    next => exact Nat.le_refl _

theorem exec_headWrite {head : BitVec 16} :
    exec (.ciqCringHeadWrite head) s = .next (State.ciqDrain s.ciq.waiting.length (s.setF F.CIQ_CRING_IDX_HEAD head.toNat)) := rfl

theorem ciqDrain_first {d : CiqDone} {l : List CiqDone} (hw : s.ciq.waiting = d :: l) (hf : s.ciqFull = false) (n : Nat) :
    (State.ciqDrain (n + 1) s).ciq.waiting.length ≤ l.length := by
  simp only [State.ciqDrain, hw, hf, Bool.false_eq_true, if_false]
  refine (State.waiting_ciqDrain n _).trans ?_
  rw [State.ciq_ciqPut]

/-! ### Commands -/

section Commands

variable {c : CmdSpec} {sl : Slot} {h : Held}

theorem CmdSpec.busy_of_starts (hst : c.starts sl s = true) : c.busy (c.held sl s) (c.taken sl s) = none := by
  simp only [CmdSpec.starts, Bool.and_eq_true, Option.isNone_iff_eq_none] at hst
  obtain ⟨-, hfull⟩ := hst
  simp only [fullCheck, Option.orElse_eq_none] at hfull
  obtain ⟨-, -, -, -, -, hbusy, -⟩ := hfull
  exact hbusy

/-- The request of a CMD_CIQ_SUBMIT, under the next tag. -/
def Held.ciqReq (h : Held) (t : Nat) : CiqReq :=
  { queue := h.u 1 1, op := h.u 0 1, tlen := h.u 60 1, slot := h.u 2 2, rtag := t, aad := culvertBase + (h.buf 4).1,
    aadLen := if decide (h.u 0 1 ≤ 3) then (h.buf 4).2 else 0, inLen := (h.buf 12).2, inp := culvertBase + (h.buf 12).1,
    out := culvertBase + (h.buf 20).1, iv := sliceB h.params 28 16, tagp := 0, core := 12, host := some (h.ring, h.idx),
    tagIn := sliceB h.params 44 16, key := [], alg := 0, hAad := h.inp 0 4, hInp := h.inp 1 12, dipped := false }

/-- The state in which the tag is taken. -/
def State.tagTaken (s : State) : State := { s with ciq := { s.ciq with nextTag := (s.ciq.nextTag + 1) % 2 ^ 32 } }

theorem specCiqSubmit_act (h : Held) (s : State) :
    specCiqSubmit.act h s = .later (.ciq s.ciq.nextTag) (s.tagTaken.ciqAdd (h.ciqReq s.ciq.nextTag)) := rfl

theorem specCiqSubmit_room (hb : specCiqSubmit.busy h s = none) :
    s.fb F.CIQ_STS_QUIESCED = false ∧ (s.ciq.queues.getD (h.u 1 1) []).length < 256 := by
  simp only [specCiqSubmit, orElse_eq_none, refuse_eq_none, decide_eq_false_iff_not, Nat.not_le] at hb
  exact hb

theorem specCiqSubmit_queue (hp : specCiqSubmit.pre h = none) : h.u 1 1 < 4 := by
  simp only [specCiqSubmit, orElse_eq_none, refuse_eq_none, decide_eq_false_iff_not] at hp
  obtain ⟨-, hq, -⟩ := hp
  omega

theorem ciqSubmit_waits (hst : specCiqSubmit.starts sl s = true) (hh : specCiqSubmit.held sl s = h) :
    ∃ u, exec (.cmdCiqSubmit sl) s = .next (specCiqSubmit.waits sl s (.ciq s.ciq.nextTag) u) ∧ u.mem = s.mem ∧ u.keys = s.keys ∧
      u.ciq.nextTag = (s.ciq.nextTag + 1) % 2 ^ 32 ∧
      (s.ciq.queues.length = 4 → ∃ r, u.ciq.queues.getD (h.u 1 1) [] = s.ciq.queues.getD (h.u 1 1) [] ++ [r] ∧
        r.rtag = s.ciq.nextTag ∧ r.slot = h.u 2 2 ∧ r.op = h.u 0 1 ∧ r.host = some (sl.ring.val, h.idx)) := by
  obtain ⟨hq, hroom⟩ := specCiqSubmit_room (CmdSpec.busy_of_starts hst)
  have hlt := specCiqSubmit_queue (CmdSpec.pre_of_starts hst)
  have htaken := specCiqSubmit.onlyIn_taken sl s
  have hciq : (specCiqSubmit.taken sl s).ciq = s.ciq := htaken.1 .ciq (by decide)
  have hring : h.ring = sl.ring.val := by rw [← hh]; rfl
  rw [hh] at hroom hlt
  have hexec := runCmd_later specCiqSubmit sl s _ _ hst (specCiqSubmit_act _ _)
  rw [hh, hciq] at hexec
  have hparts := (((specCiqSubmit.taken sl s).onlyIn_ciq _).mono (l := [.regs, .pwr, .ciq]) (by decide)).trans
    (State.onlyIn_ciqAdd (specCiqSubmit.taken sl s).tagTaken (h.ciqReq s.ciq.nextTag))
  have hadd := State.ciq_ciqAdd (s := (specCiqSubmit.taken sl s).tagTaken) (r := h.ciqReq s.ciq.nextTag) hq hroom
  refine ⟨_, hexec, hparts.mem.trans htaken.mem, hparts.keys.trans htaken.keys, ?_, fun hlen => ⟨h.ciqReq s.ciq.nextTag, ?_, rfl, rfl, rfl, ?_⟩⟩
  · rw [hadd, ← hciq]
    rfl
  · rw [hadd]
    have hset := getD_set_self (d := []) (a := s.ciq.queues.getD (h.u 1 1) [] ++ [h.ciqReq s.ciq.nextTag]) (hlen.symm ▸ hlt : h.u 1 1 < s.ciq.queues.length)
    rw [← hciq] at hset ⊢
    exact hset
  · rw [← hring]
    rfl

theorem exec_ciqStatus (hst : specCiqStatus.starts sl s = true) :
    exec (.cmdCiqStatus sl) s = .next (specCiqStatus.ends sl s (.ok ((s.ciq.queues.flatMap (fun q => toLe 2 q.length)) ++ toLe 8 s.ciq.blocks))
      (specCiqStatus.taken sl s)) := by
  have hciq : (specCiqStatus.taken sl s).ciq = s.ciq := (specCiqStatus.onlyIn_taken sl s).1 .ciq (by decide)
  rw [← hciq]
  exact runCmd_done specCiqStatus sl s _ _ hst rfl

end Commands

end CompletionLaws

/-- Settles O26: submission, start, end, the ring of completions and the two commands. -/
theorem cipherRequests : Obligations.CipherRequests := by
  unfold Obligations.CipherRequests
  intro s
  refine ⟨fun q v hqs hws h15 hq => ciqDescriptorSubmit_queues hqs hws h15 hq, ?_, fun core p agree r hr hp hv hd hw hf ha =>
    requestDone_unverified hr hp hv hd hw hf ha, fun core p r hr hp hv hd => ?_, fun head hw => ?_, fun head d l hw hf _ => ?_,
    fun sl hst => ciqSubmit_waits hst rfl, fun sl => exec_ciqStatus⟩
  · intro core aad inp tag r hhead hc hsvc hrun hwait hen hdom htest hp
    have hfree : s.coreFree core.val = true := by
      simp only [State.coreFree, hsvc, hen, hdom, Bool.and_eq_true, Bool.not_eq_true', List.any_eq_false, decide_eq_true_eq, and_true, true_and]
      refine ⟨⟨hrun, hwait⟩, ?_⟩
      cases hx : s.cal.testing with
      | none => rfl
      | some x => exact decide_eq_false (htest x hx)
    obtain ⟨hr, hm, hu⟩ := s.ciqUsed_spec r core.val
    refine ⟨_, (s.headTaken r).ciqRun r core.val (s.effSlot r.slot) aad inp tag, exec_requestStart hhead hfree hc hp, ?_, rfl, rfl, rfl,
      s.fst_ciqIv_headTaken r _ _, hu, hm⟩
    rw [← hr]
  · refine ⟨if r.op ≤ 5 then fitB 16 (r.tagBytes s) else [], _, exec_requestDone_computed hr hp hv hd, s.keys_ciqComputed core.val r,
      fun h => if_neg (Nat.not_le.2 h), fun h => if_pos h⟩
  · rw [exec_headWrite, hw]
    rfl
  · rw [exec_headWrite, hw]
    exact ⟨_, rfl, ciqDrain_first (s := s.setF F.CIQ_CRING_IDX_HEAD head.toNat) hw hf l.length⟩

end Sys2Proof.Machine

/-! # The end of a handshake, SAKs and group keys (O14) -/

namespace Sys2Proof.Machine

-- proofs one after the other: a task for each would take a stack of its own
set_option Elab.async false

section LaneHandshakeLaws

variable {s u : State} {k : Fin 32} {p : List Byte}

/-! ### A message on a lane -/

/-- The clock strobes of a lane are no state of it. -/
theorem State.laneUp_calReceive (s : State) (k : Fin 32) : (s.calReceive k).laneUp k = s.laneUp k := by
  obtain ⟨n, c, h⟩ := s.touches_calReceive k
  rw [State.laneUp, State.laneSt, h.f]
  · rfl
  · refine evtFree_of_lane ?_ ?_ <;> simp only [F.LNE_LANE_STS_STATE] <;> omega
  · simp only [strobeRegs, F.LNE_LANE_STS_STATE, R.CAL_TS_TX_OFS, R.CAL_TS_RX_OFS, R.CAL_TS_STS, R.CAL_EVT, List.mem_cons,
      List.not_mem_nil, or_false]
    omega

theorem State.heard_up (h : s.laneUp k = true) : s.heard k = s.calReceive k := if_pos (by simp [h, k.isLt])

/-- The twin link is no lane. -/
theorem State.heard_twin (s : State) : s.heard 32 = s := if_neg (by simp)

theorem lane_ne_twin (k : Fin 32) : k.val ≠ 32 := k.isLt.ne

theorem exec_doneRx_lane (hup : s.laneUp k = true) (hp : hsIs false 4 p = true) :
    exec (.doneRx (k.castLE (by decide)) p) s = .next ((s.calReceive k).extDone k p) := by
  have he : exec (.doneRx (k.castLE (by decide)) p) s = execDoneRx (k.castLE (by decide)) p s := rfl
  rw [he, execDoneRx]
  simp only [Fin.val_castLE, s.heard_up hup, if_neg (lane_ne_twin k), State.laneUp_calReceive, hup, hp, Bool.and_self, if_true]

theorem exec_offerRx_lane : exec (.offerRx (k.castLE (by decide)) p) s = .next (s.heard k) := by
  have he : exec (.offerRx (k.castLE (by decide)) p) s = execOfferRx (k.castLE (by decide)) p s := rfl
  rw [he, execOfferRx]
  simp [lane_ne_twin k]

theorem exec_confirmRx_lane : exec (.confirmRx (k.castLE (by decide)) p) s = .next (s.heard k) := by
  have he : exec (.confirmRx (k.castLE (by decide)) p) s = execConfirmRx (k.castLE (by decide)) p s := rfl
  rw [he, execConfirmRx]
  simp [lane_ne_twin k]

/-! ### DONE -/

/-- What CONF_E of a handshake covers. -/
def Extender.script (x : Extender) : List Byte := x.offer ++ x.accept ++ x.confirm.take (x.confirm.length - 16)

/-- The CAK of a lane enters its slot. -/
def State.cakPut (s : State) (place : Option Nat) (cak : List Byte) (id : Nat) : State :=
  match place with
  | some i =>
    let u := (s.emptySlot i).loadSlot i 9 false cak [] id
    u.setKs i { u.ks i with aeduf := true }
  | none => s

theorem State.mem_cakPut (s : State) (place : Option Nat) (cak : List Byte) (id : Nat) : (s.cakPut place cak id).mem = s.mem := by
  cases place with
  | none => rfl
  | some i =>
    exact (State.onlyIn_setKs _ i _).mem.trans (((s.emptySlot i).onlyIn_loadSlot i 9 false cak [] id).mem.trans (s.onlyIn_emptySlot i).mem)

/-- The extender of a lane that is keyed. -/
def Extender.secured (x : Extender) (place : Option Nat) : Extender :=
  { x.wiped with st := xSecuring, backoff := 0, cakSlot := place, cak := x.km.take 32, ckn := sliceB x.km 32 16, taken := x.taken,
                 reused := x.reused, rxSak := false, txSak := false }

section Done

variable {k : Nat} (hst : (u.xt k).st = xEnrolling) (hcf : (u.xt k).confirm ≠ []) (hses : hsSession p = (u.xt k).session)
include hst hcf hses

theorem State.extDone_good (hl : p.length = 24) (hv : byteAt p 1 = 1) (hc : p.drop 8 = hsConf (u.xt k).km 0x45 (u.xt k).script) :
    u.extDone k p = (u.cakPut (u.cakPlace (u.xt k).cakSlot) ((u.xt k).km.take 32) (beNat ((sliceB (u.xt k).km 32 16).take 4))).setXt k
      ((u.xt k).secured (u.cakPlace (u.xt k).cakSlot)) := by
  unfold Extender.script at hc
  simp only [State.extDone, hst, hcf, hses, hl, hv, ← hc, ne_eq, not_true_eq_false, decide_false, Bool.or_self, Bool.false_eq_true, if_false]
  rfl

/-- A DONE with the right confirmation secures the lane under the CAK of the handshake. -/
theorem State.extDone_secures (hl : p.length = 24) (hv : byteAt p 1 = 1) (hc : p.drop 8 = hsConf (u.xt k).km 0x45 (u.xt k).script) :
    ((u.extDone k p).xt k).st = xSecuring ∧ ((u.extDone k p).xt k).cak = (u.xt k).km.take 32 ∧ ((u.extDone k p).xt k).km = [] ∧
      ((u.extDone k p).xt k).backoff = 0 ∧ (u.extDone k p).mem = u.mem := by
  rw [State.extDone_good hst hcf hses hl hv hc, State.xt_setXt_self]
  exact ⟨rfl, rfl, rfl, rfl, u.mem_cakPut _ _ _⟩

theorem State.extDone_version (hv : byteAt p 1 ≠ 1) : u.extDone k p = (u.hsReject false k (u.xt k).session 4).hsFail k 4 := by
  simp only [State.extDone, hst, hcf, hses, hv, ne_eq, not_true_eq_false, not_false_eq_true, decide_false, Bool.or_self, Bool.false_eq_true,
    if_false, if_true]

end Done

/-- A handshake that fails shows its cause and is wiped. -/
theorem State.hsFail_spec (s : State) {k : Nat} (hk : k < 32) (c : Nat) :
    (s.hsFail k c).f (F.EXT_LANE_FAIL_CAUSE k) = c % 2 ^ 16 ∧ ((s.hsFail k c).xt k).km = [] ∧
      (((s.hsFail k c).xt k).st = xAnnounced ∨ ((s.hsFail k c).xt k).st = xLost) := by
  unfold State.hsFail
  extract_lets x v w back st
  have hw : w.regs = v.regs :=
    State.forEach_inv (g := fun s p => s.setCtx p Ctx.free) (P := fun t => t.regs = v.regs) (fun _ _ ht => ht) x.taken rfl
  have hflag := State.Touches.extFlag (s := w.setXt k { x.wiped with st := st, backoff := back }) (bit := 0) (lane := k) (ctx := 0xFFFF)
    (l := [R.EXT_EVT]) .refl (List.mem_cons_self ..)
  refine ⟨?_, by rw [hflag.xt, State.xt_setXt_self]; rfl, ?_⟩
  · rw [hflag.f]
    · exact (State.f_congr hw).trans (State.f_setF_self _ _ _ (show (0 : Nat) + 16 ≤ 32 by decide))
    · refine evtFree_of_lane ?_ ?_ <;> simp only [F.EXT_LANE_FAIL_CAUSE] <;> omega
    · simp only [F.EXT_LANE_FAIL_CAUSE, R.EXT_EVT, List.mem_cons, List.not_mem_nil, or_false]
      omega
  · rw [hflag.xt, State.xt_setXt_self]
    show st = xAnnounced ∨ st = xLost
    unfold st
    split
    exacts [.inl rfl, .inr rfl]

theorem doneRx_lane (hu : u = s.calReceive k) (hup : s.laneUp k = true) (hp : hsIs false 4 p = true) (hst : (u.xt k).st = xEnrolling)
    (hcf : (u.xt k).confirm ≠ []) (hses : hsSession p = (u.xt k).session) (hl : p.length = 24) :
    ∃ t, exec (.doneRx (k.castLE (by decide)) p) s = .next t ∧
      (byteAt p 1 = 1 → p.drop 8 = hsConf (u.xt k).km 0x45 (u.xt k).script →
        (t.xt k).st = xSecuring ∧ (t.xt k).cak = (u.xt k).km.take 32 ∧ (t.xt k).km = [] ∧ (t.xt k).backoff = 0 ∧ t.mem = s.mem) ∧
      (byteAt p 1 ≠ 1 → t.f (F.EXT_LANE_FAIL_CAUSE k) = 4 ∧ (t.xt k).km = [] ∧ ((t.xt k).st = xAnnounced ∨ (t.xt k).st = xLost)) := by
  subst hu
  refine ⟨_, exec_doneRx_lane hup hp, fun hv hc => ?_, fun hv => ?_⟩
  · rw [← State.mem_calReceive s (k := k)]
    exact State.extDone_secures hst hcf hses hl hv hc
  · rw [State.extDone_version hst hcf hses hv]
    exact State.hsFail_spec _ k.isLt 4

end LaneHandshakeLaws

section TwinHandshakeLaws

variable {s : State} {p : List Byte}

/-! ### OFFER on the twin link -/

theorem exec_offerRx_twin (hup : s.twinLaneUp = true) (hen : s.fb F.TWN_CTL_EN = true) (hp : hsIs true 1 p = true) :
    exec (.offerRx 32 p) s = .next (s.twinOfferRx p) := by
  have he : exec (.offerRx 32 p) s = execOfferRx 32 p s := rfl
  rw [he, execOfferRx]
  simp [s.heard_twin, hup, hen, hp]

theorem State.twinOfferRx_rejects (hph : s.ths.phase = 0) (hcred : s.twin.cred = none) :
    s.twinOfferRx p = s.hsReject true 32 (hsSession p) 2 := by
  simp [State.twinOfferRx, State.twinOfferCause, hph, hcred]

theorem State.twinOfferRx_repeated (hph : s.ths.phase = 2) (hses : s.ths.session = hsSession p) :
    s.twinOfferRx p = s.emit (.twin s.ths.accept) := by
  simp [State.twinOfferRx, State.hsSend, hph, hses]

theorem State.onlyIn_sign (s : State) (alg : Nat) (key msg : List Byte) : s.onlyIn (s.sign alg key msg).2 [.free] := s.onlyIn_free _

theorem hsHead_append (twin : Bool) (msg ses : Nat) (l : List Byte) : (hsHead twin msg ses ++ l).take 8 = hsHead twin msg ses :=
  List.take_left' (by simp [hsHead])

/-- A good OFFER of the device of the lower identity digest is answered with ACCEPT (R278). -/
theorem State.twinOfferRx_accepts {key cred : List Byte} (hnew : ¬ (s.ths.phase = 2 ∧ s.ths.session = hsSession p)) (hok : s.twinOfferCause p = none)
    (hlow : beNat (sha384 (sliceB p 141 97)) < beNat s.ownDigest) (hkey : s.identity = some key) (hcred : s.twin.cred = some cred)
    (hrng : s.rngDown = false) :
    ∃ (v : State) (e km l : List Byte), s.onlyIn v [.regs, .rng, .free] ∧ s.twinOfferRx p = (v.emit (.twin (hsHead true 2 (hsSession p) ++ l))).setThs
      { TwinHs.none_ with phase := 2, session := hsSession p, eph := e, offer := p, accept := hsHead true 2 (hsSession p) ++ l, sends := 1,
                          peerPub := sliceB p 141 97, km := km } := by
  have hnew' : (decide (s.ths.phase = 2) && decide (s.ths.session = hsSession p)) = false := by simpa using hnew
  simp only [State.twinOfferRx, hnew', hok, if_neg (Nat.not_le.2 hlow), hkey, hcred, hrng, Bool.false_eq_true, if_false, State.hsSend,
    Nat.lt_irrefl, List.append_assoc]
  refine ⟨_, _, _, _, ?_, rfl⟩
  exact .doIf (((s.onlyIn_drawBytes 96).mono (by decide)).next (State.onlyIn_sign _ _ _ _))
    ((((s.onlyIn_drawBytes 96).mono (by decide)).next (State.onlyIn_sign _ _ _ _)).next (State.onlyIn_setF _ _ _))

theorem offerRx_twin_accepts {key cred : List Byte} (hup : s.twinLaneUp = true) (hen : s.fb F.TWN_CTL_EN = true) (hp : hsIs true 1 p = true)
    (hnew : ¬ (s.ths.phase = 2 ∧ s.ths.session = hsSession p)) (hok : s.twinOfferCause p = none)
    (hlow : beNat (sha384 (sliceB p 141 97)) < beNat s.ownDigest) (hkey : s.identity = some key) (hcred : s.twin.cred = some cred)
    (hrng : s.rngDown = false) :
    ∃ t, exec (.offerRx 32 p) s = .next t ∧ t.out = .twin t.ths.accept :: s.out ∧ t.ths.phase = 2 ∧ t.ths.session = hsSession p ∧
      t.ths.offer = p ∧ t.ths.peerPub = sliceB p 141 97 ∧ t.ths.accept.take 8 = hsHead true 2 (hsSession p) ∧ t.keys = s.keys ∧ t.mem = s.mem := by
  obtain ⟨v, e, km, l, hv, he⟩ := State.twinOfferRx_accepts hnew hok hlow hkey hcred hrng
  refine ⟨_, (exec_offerRx_twin hup hen hp).trans (congrArg _ he), ?_, rfl, rfl, rfl, rfl, hsHead_append _ _ _ _, hv.keys, hv.mem⟩
  exact congrArg (_ :: ·) (hv.1 .out (by decide))

/-! ### CONFIRM and DONE on the twin link -/

theorem exec_confirmRx_twin (hup : s.twinLaneUp = true) (hp : hsIs true 3 p = true) : exec (.confirmRx 32 p) s = .next (s.twinConfirm p) := by
  have he : exec (.confirmRx 32 p) s = execConfirmRx 32 p s := rfl
  rw [he, execConfirmRx]
  simp [s.heard_twin, hup, hp]

theorem exec_doneRx_twin (hup : s.twinLaneUp = true) (hp : hsIs true 4 p = true) : exec (.doneRx 32 p) s = .next (s.twinDone p) := by
  have he : exec (.doneRx 32 p) s = execDoneRx 32 p s := rfl
  rw [he, execDoneRx]
  simp [s.heard_twin, hup, hp]

/-- The CAK of the handshake becomes the twin's, and the handshake is over. -/
theorem State.twinKeyable_spec (s : State) : s.twinKeyable.ths.phase = 0 ∧ s.twinKeyable.twin.cak = s.ths.km.take 32 ∧
    s.twinKeyable.twin.peerDigest = sha384 s.ths.peerPub ∧ s.twinKeyable.mem = s.mem := ⟨rfl, rfl, rfl, rfl⟩

/-- The transcript of a twin handshake through the head of CONFIRM. -/
def TwinHs.confirmScript (h : TwinHs) (p : List Byte) : List Byte := h.offer ++ h.accept.take 495 ++ p.take 8

/-- The first failing check of a CONFIRM. -/
def TwinHs.confirmCause (h : TwinHs) (p : List Byte) : Option Nat :=
  if byteAt p 1 ≠ 1 then some 4 else if p.length ≠ 120 then some 5
  else if !verifies 2 h.peerPub (h.confirmScript p) (sliceB p 8 96) then some 1
  else if p.drop 104 ≠ hsConf h.km 0x44 (h.confirmScript p ++ sliceB p 8 96) then some 6 else none

theorem State.twinConfirm_eq (hph : s.ths.phase = 2) (hses : hsSession p = s.ths.session) :
    s.twinConfirm p = match s.ths.confirmCause p with
      | some c => (s.hsReject true 32 s.ths.session c).twinHsFail
      | none => (s.hsSend 32 (hsHead true 4 s.ths.session ++ hsConf s.ths.km 0x45 (s.ths.confirmScript p ++ sliceB p 8 96))).twinKeyable := by
  simp only [State.twinConfirm, hph, hses, ne_eq, not_true_eq_false, decide_false, Bool.or_self, Bool.false_eq_true, if_false]
  rfl

theorem TwinHs.confirmCause_none {h : TwinHs} (hl : p.length = 120) (hv : byteAt p 1 = 1)
    (hsig : verifies 2 h.peerPub (h.confirmScript p) (sliceB p 8 96) = true)
    (hc : p.drop 104 = hsConf h.km 0x44 (h.confirmScript p ++ sliceB p 8 96)) : h.confirmCause p = none := by
  simp only [TwinHs.confirmCause, hl, hv, hsig, hc, ne_eq, not_true_eq_false, Bool.not_true, Bool.false_eq_true, if_false]

theorem confirmRx_twin (hup : s.twinLaneUp = true) (hp : hsIs true 3 p = true) (hph : s.ths.phase = 2) (hses : hsSession p = s.ths.session)
    (hl : p.length = 120) :
    ∃ t, exec (.confirmRx 32 p) s = .next t ∧ t.ths.phase = 0 ∧ t.mem = s.mem ∧
      (byteAt p 1 = 1 → verifies 2 s.ths.peerPub (s.ths.confirmScript p) (sliceB p 8 96) = true →
        p.drop 104 = hsConf s.ths.km 0x44 (s.ths.confirmScript p ++ sliceB p 8 96) →
        t.twin.cak = s.ths.km.take 32 ∧ t.twin.peerDigest = sha384 s.ths.peerPub) := by
  have he := (exec_confirmRx_twin hup hp).trans (congrArg _ (State.twinConfirm_eq hph hses))
  cases hc : s.ths.confirmCause p with
  | some c =>
    rw [hc] at he
    refine ⟨_, he, rfl, rfl, fun hv hsig hconf => ?_⟩
    exact nomatch (TwinHs.confirmCause_none hl hv hsig hconf).symm.trans hc
  | none =>
    rw [hc] at he
    obtain ⟨hphase, hcak, hdig, hmem⟩ := State.twinKeyable_spec
      (s.hsSend 32 (hsHead true 4 s.ths.session ++ hsConf s.ths.km 0x45 (s.ths.confirmScript p ++ sliceB p 8 96)))
    exact ⟨_, he, hphase, hmem, fun _ _ _ => ⟨hcak, hdig⟩⟩

/-- What CONF_E of a twin handshake covers. -/
def TwinHs.doneScript (h : TwinHs) : List Byte := h.offer ++ h.accept ++ h.confirm.take (h.confirm.length - 16)

theorem doneRx_twin (hup : s.twinLaneUp = true) (hp : hsIs true 4 p = true) (hph : s.ths.phase = 3) (hses : hsSession p = s.ths.session)
    (hl : p.length = 24) (hv : byteAt p 1 = 1) (hc : p.drop 8 = hsConf s.ths.km 0x45 s.ths.doneScript) :
    ∃ t, exec (.doneRx 32 p) s = .next t ∧ t.ths.phase = 0 ∧ t.twin.cak = s.ths.km.take 32 ∧ t.twin.peerDigest = sha384 s.ths.peerPub ∧
      t.mem = s.mem := by
  have he : s.twinDone p = s.twinKeyable := by
    unfold TwinHs.doneScript at hc
    simp only [State.twinDone, hph, hses, hl, hv, ← hc, ne_eq, not_true_eq_false, decide_false, Bool.or_self, Bool.false_eq_true, if_false]
  exact ⟨_, (exec_doneRx_twin hup hp).trans (congrArg _ he), s.twinKeyable_spec⟩

end TwinHandshakeLaws

end Sys2Proof.Machine

namespace Sys2Proof.Machine

-- proofs one after the other: a task for each would take a stack of its own
set_option Elab.async false

/-! ### The SecYs that have been configured -/

section SecyLaws

variable {s t : State} {a b an slot : Nat}

/-- A write lists no key but its own. -/
theorem Tbl.mem_insert {α : Type} {m : Tbl α} {k : Nat} {v : α} {e : Nat × α} (h : e ∈ Tbl.insert m k v) : e.1 = k ∨ e ∈ m := by
  induction m with
  | nil =>
    rw [Tbl.insert, List.mem_singleton] at h
    exact .inl (congrArg Prod.fst h)
  | cons x m ih =>
    unfold Tbl.insert at h
    split at h
    · rcases List.mem_cons.1 h with h | h
      exacts [.inl (congrArg Prod.fst h), .inr h]
    · rcases List.mem_cons.1 h with h | h
      · exact .inr (h ▸ List.mem_cons_self ..)
      · exact (ih h).imp_right (List.mem_cons_of_mem _)

theorem Tbl.mem_set {α : Type} [DecidableEq α] {d : Nat → α} {m : Tbl α} {k : Nat} {v : α} {e : Nat × α} (h : e ∈ Tbl.set d m k v) :
    e.1 = k ∨ e ∈ m := by
  unfold Tbl.set at h
  dsimp only at h
  split at h
  · exact .inr (List.mem_of_mem_filter h)
  · exact (Tbl.mem_insert h).imp_right List.mem_of_mem_filter

/-- The control register of a SecY of a port or of a lane. -/
def isSecyCtl (a : Nat) : Bool :=
  (decide (0x200180 ≤ a) && decide (a < 0x400000) && (a - 0x200180) % 0x800 = 0)
    || (decide (0x61000 ≤ a) && decide (a < 0x65000) && (a - 0x61000) % 0x200 = 0)

theorem State.mem_secys : b ∈ s.secys ↔ isSecyCtl b = true ∧ ∃ v, (b, v) ∈ s.regs := by
  simp only [State.secys, List.mem_filterMap, isSecyCtl]
  constructor
  · rintro ⟨e, he, hb⟩
    split at hb
    next hc =>
      obtain rfl := Option.some.inj hb
      exact ⟨by rw [hc, Bool.true_or], e.2, he⟩
    next =>
      split at hb
      next hc =>
        obtain rfl := Option.some.inj hb
        exact ⟨by rw [hc, Bool.or_true], e.2, he⟩
      next => exact nomatch hb
  · rintro ⟨hc, v, hv⟩
    refine ⟨(b, v), hv, ?_⟩
    simp only [Bool.and_eq_true, Bool.or_eq_true, decide_eq_true_eq] at hc ⊢
    split
    · rfl
    · rw [if_pos (by omega)]

/-- A register that is no SecY's is written: the SecYs listed were listed. -/
theorem State.secys_wr {v : Word} (h : isSecyCtl a = false) (hb : b ∈ (s.wr a v).secys) : b ∈ s.secys := by
  obtain ⟨hc, w, hw⟩ := State.mem_secys.1 hb
  have hne : b ≠ a := fun he => by rw [he, h] at hc; exact absurd hc (by decide)
  exact State.mem_secys.2 ⟨hc, w, (Tbl.mem_set hw).resolve_left hne⟩

/-- Below the SecYs of the ports and outside those of the lanes no transmit SA stands. -/
theorem txCtl_ne {n : Nat} (hb : isSecyCtl b = true) (hn : n < 4) (ha : a < 0x61000 ∨ (0x65800 ≤ a ∧ a < 0x200000)) : txCtl b n ≠ a := by
  simp only [isSecyCtl, Bool.and_eq_true, Bool.or_eq_true, decide_eq_true_eq] at hb
  unfold txCtl
  omega

theorem State.txElsewhere_wr {v : Word} (ha : a < 0x61000 ∨ (0x65800 ≤ a ∧ a < 0x200000)) (h : s.txElsewhere b an slot = false) :
    (s.wr a v).txElsewhere b an slot = false := by
  have hctl : isSecyCtl a = false := by
    simp only [isSecyCtl, Bool.or_eq_false_iff, Bool.and_eq_false_iff, decide_eq_false_iff_not]
    omega
  simp only [State.txElsewhere, List.any_eq_false, Bool.not_eq_true] at h ⊢
  intro b' hb' n hn
  have hn4 : n < 4 := by
    simp only [List.mem_cons, List.not_mem_nil, or_false] at hn
    omega
  have hne := txCtl_ne (State.mem_secys.1 hb').1 hn4 ha
  rw [State.rd_wr_ne _ _ hne]
  exact h b' (State.secys_wr hctl hb') n hn

theorem State.txElsewhere_congr (h : t.regs = s.regs) : t.txElsewhere b an slot = s.txElsewhere b an slot := by
  simp only [State.txElsewhere, State.secys, h, State.rd_congr h]

end SecyLaws

/-! ### A SAK that is bound -/

section SakLaws

variable {s u v : State} {b an slot : Nat}

/-- A receive SA is keyed by a slot. -/
def State.rxBound (s : State) (b an : Nat) (v ssci : Word) : State :=
  (((s.wr (rxCtl b an) v).wr64 (lpnA b an) 1).wr (rxCtl b an + 0xC) ssci).wr64 (hpnA b an) 0

/-- A transmit SA is keyed by a slot. -/
def State.txBound (s : State) (b an : Nat) (v ssci : Word) : State :=
  ((s.wr (txCtl b an) v).wr64 (npnA b an) 1).wr (txCtl b an + 0xC) ssci

/-- The association number that a SecY transmits with. -/
def State.txUsed (s : State) (b an : Nat) : State := s.wr b (BitVec.ofNat 32 (putBits (s.rd b).toNat 16 2 an))

theorem State.onlyIn_rxBound (s : State) (b an : Nat) (v x : Word) : s.onlyIn (s.rxBound b an v x) [.regs] := s.onlyIn_regs _

theorem State.onlyIn_txBound (s : State) (b an : Nat) (v x : Word) : s.onlyIn (s.txBound b an v x) [.regs] := s.onlyIn_regs _

theorem State.onlyIn_txUsed (s : State) (b an : Nat) : s.onlyIn (s.txUsed b an) [.regs] := s.onlyIn_regs _

theorem State.rd_txCtl_rxBound (s : State) (b an : Nat) (v x : Word) :
    (s.rxBound b an v x).rd (txCtl b an) = s.rd (txCtl b an) := by
  unfold State.rxBound lpnA hpnA rxCtl txCtl
  rw [State.rd_wr64_ne _ (by omega) (by omega), State.rd_wr_ne _ _ (by omega), State.rd_wr64_ne _ (by omega) (by omega), State.rd_wr_ne _ _ (by omega)]

/-- What the registers of a SecY read once both directions are bound. -/
theorem State.bound_spec (s : State) (b an : Nat) (v x y : Word) :
    let t := ((s.rxBound b an v x).txBound b an v y).txUsed b an
    t.rd (rxCtl b an) = v ∧ t.rd64 (lpnA b an) = 1 ∧ t.rd (txCtl b an) = v ∧ t.rd64 (npnA b an) = 1 := by
  unfold State.txUsed State.txBound State.rxBound lpnA npnA hpnA rxCtl txCtl State.rd64 State.wr64
  simp (disch := omega) only [State.rd_wr_ne, State.rd_wr_self, true_and]
  exact ⟨rfl, rfl⟩

theorem State.doIf_pos {c : Bool} {g : State → State} (h : c = true) : s.doIf c g = g s := if_pos h

/-- The binding of a SAK in use, in steps. -/
theorem State.sakBind_steps {v x y : Word} (hv : v = BitVec.ofNat 32 (2 ^ 31 + slot)) (he : s.txElsewhere b an slot = false) :
    s.sakBind b an slot true true true x y =
      let r := s.doIf (decide (s.rd (rxCtl b an) ≠ v)) (·.rxBound b an v x)
      let t := (r.doIf (decide (r.rd (txCtl b an) ≠ v)) (·.txBound b an v y)).txUsed b an
      t.doIf (decide ((t.ks slot).state = Ks.loaded)) (·.wakeSlot slot) := by
  subst hv
  unfold State.sakBind
  rw [he]
  rfl

/-- A SAK in use is bound in both directions, and its LOADED slot becomes ACTIVE. -/
theorem State.sakBind_eq {v x y : Word} (hv : v = BitVec.ofNat 32 (2 ^ 31 + slot)) (he : s.txElsewhere b an slot = false)
    (hr : s.rd (rxCtl b an) ≠ v) (ht : s.rd (txCtl b an) ≠ v) (hl : (s.ks slot).state = Ks.loaded) :
    s.sakBind b an slot true true true x y = (((s.rxBound b an v x).txBound b an v y).txUsed b an).wakeSlot slot := by
  have hks : (((s.rxBound b an v x).txBound b an v y).txUsed b an).ks slot = s.ks slot := by
    rw [(State.onlyIn_txUsed _ _ _).ks, (State.onlyIn_txBound _ _ _ _ _).ks, (s.onlyIn_rxBound _ _ _ _).ks]
  rw [State.sakBind_steps hv he]
  dsimp only
  rw [State.doIf_pos (s := s) (decide_eq_true hr), State.doIf_pos (s := s.rxBound b an v x) (decide_eq_true (by rwa [State.rd_txCtl_rxBound])),
    State.doIf_pos (decide_eq_true (by rw [hks, hl]))]

/-- A SAK enters an EMPTY slot: LOADED, and Aeduf's (R340). -/
def State.sakLoaded (s : State) (slot alg : Nat) (key salt : List Byte) (id : Nat) : State :=
  let u := s.loadSlot slot alg true (fitB (algBytes alg) key) salt id
  u.setKs slot { u.ks slot with aeduf := true }

theorem State.sakLoad_empty {alg id : Nat} {key salt : List Byte} (h : (s.ks slot).state = Ks.empty) :
    s.sakLoad slot alg key salt id = (s.sakLoaded slot alg key salt id, true) := if_pos h

theorem State.sakLoaded_spec (s : State) (slot alg : Nat) (key salt : List Byte) (id : Nat) :
    ∃ k : KeySlot, (∀ i, (s.sakLoaded slot alg key salt id).ks i = if i = slot then k else s.ks i) ∧ k.state = Ks.loaded ∧ k.aeduf = true ∧
      k.id = id ∧ k.material = fitB (algBytes alg) key ∧ k.alg = alg ∧ k.use < k.limit := by
  obtain ⟨k, hk, hstate, halg, hmat, hid, hlim, -, huse⟩ := s.loadSlot_eq slot alg true (fitB (algBytes alg) key) salt id
  refine ⟨{ k with aeduf := true }, fun i => ?_, hstate, rfl, hid, hmat, halg, ?_⟩
  · rw [State.sakLoaded, State.ks_setKs, hk, State.ks_putKs, State.ks_putKs, if_pos rfl, (s.onlyIn_drawBytes 12).ks]
    split <;> rfl
  · rw [hlim, huse]
    decide

theorem State.onlyIn_sakLoaded (s : State) (slot alg : Nat) (key salt : List Byte) (id : Nat) :
    s.onlyIn (s.sakLoaded slot alg key salt id) [.regs, .keys, .rng, .ecc] :=
  (s.onlyIn_loadSlot slot alg true _ salt id).next (State.onlyIn_setKs _ slot _)

/-- Of the registers it changes the count of random bits alone. -/
theorem State.regs_sakLoaded (s : State) (slot alg : Nat) (key salt : List Byte) (id : Nat) :
    ∃ w, (s.sakLoaded slot alg key salt id).regs = (s.wr F.RNG_STS_REQUESTS.addr w).regs := by
  obtain ⟨k, hk, -⟩ := s.loadSlot_eq slot alg true (fitB (algBytes alg) key) salt id
  have hdraw : ∃ w, (s.drawBytes 12).2.regs = (s.wr F.RNG_STS_REQUESTS.addr w).regs := ⟨_, rfl⟩
  rwa [State.sakLoaded, (State.onlyIn_setKs _ slot _).regs, hk, (State.onlyIn_putKs _ slot k).regs]

theorem exec_mkaRx_sak {p : Fin 32} {an : Fin 4} {slot : BitVec 15} {key salt : List Byte} {id x y : Word} (hu : u = s.heard p)
    (hup : u.laneUp p = true) (hext : u.isExt p = false) (he : (u.ks slot.toNat).state = Ks.empty) :
    exec (.mkaRx (.port p) (.sak an slot key salt id true true true x y)) s =
      .next ((u.sakLoaded slot.toNat (bitsOf (u.rd (R.FPX_SECY_CTL p)).toNat 28 2) key salt id.toNat).sakBind (R.FPX_SECY_CTL p) an slot.toNat
        true true true x y) := by
  have hx : exec (.mkaRx (.port p) (.sak an slot key salt id true true true x y)) s =
      execMkaRx (.port p) (.sak an slot key salt id true true true x y) s := rfl
  rw [hx, execMkaRx]
  have hh : s.heard (mkaLink (.port p)) = u := hu.symm
  have hlive : u.mkaLive (.port p) = true := by simp [State.mkaLive, hup, hext]
  simp only [hh, hlive, secyBase, State.sakLoad_empty he, Bool.not_true, Bool.false_eq_true, if_false]
  rfl

theorem mkaRx_binds {p : Fin 32} {an : Fin 4} {slot : BitVec 15} {key salt : List Byte} {id x y : Word} (hu : u = s.heard p)
    (hup : u.laneUp p = true) (hext : u.isExt p = false) (he : (u.ks slot.toNat).state = Ks.empty)
    (htx : u.txElsewhere (R.FPX_SECY_CTL p) an slot.toNat = false) (hr : u.rd (rxCtl (R.FPX_SECY_CTL p) an) ≠ BitVec.ofNat 32 (2 ^ 31 + slot.toNat))
    (ht : u.rd (txCtl (R.FPX_SECY_CTL p) an) ≠ BitVec.ofNat 32 (2 ^ 31 + slot.toNat)) :
    ∃ t, exec (.mkaRx (.port p) (.sak an slot key salt id true true true x y)) s = .next t ∧
      (t.ks slot.toNat).state = Ks.active ∧ (t.ks slot.toNat).aeduf = true ∧ (t.ks slot.toNat).id = id.toNat ∧
      (t.ks slot.toNat).material = fitB (algBytes (bitsOf (u.rd (R.FPX_SECY_CTL p)).toNat 28 2)) key ∧
      (∀ i, i ≠ slot.toNat → t.ks i = u.ks i) ∧
      t.rd (rxCtl (R.FPX_SECY_CTL p) an) = BitVec.ofNat 32 (2 ^ 31 + slot.toNat) ∧ t.rd64 (lpnA (R.FPX_SECY_CTL p) an) = 1 ∧
      t.rd (txCtl (R.FPX_SECY_CTL p) an) = BitVec.ofNat 32 (2 ^ 31 + slot.toNat) ∧ t.rd64 (npnA (R.FPX_SECY_CTL p) an) = 1 ∧ t.mem = u.mem := by
  obtain ⟨k, hk, hstate, haed, hid, hmat, -, huse⟩ := u.sakLoaded_spec slot.toNat (bitsOf (u.rd (R.FPX_SECY_CTL p)).toNat 28 2) key salt id.toNat
  obtain ⟨w, hw⟩ := u.regs_sakLoaded slot.toNat (bitsOf (u.rd (R.FPX_SECY_CTL p)).toNat 28 2) key salt id.toNat
  have hload := u.onlyIn_sakLoaded slot.toNat (bitsOf (u.rd (R.FPX_SECY_CTL p)).toNat 28 2) key salt id.toNat
  have hexec := exec_mkaRx_sak (an := an) (key := key) (salt := salt) (id := id) (x := x) (y := y) hu hup hext he
  generalize u.sakLoaded slot.toNat (bitsOf (u.rd (R.FPX_SECY_CTL p)).toNat 28 2) key salt id.toNat = l at hk hw hload hexec
  have hrd {a : Nat} (ha : 0x200000 ≤ a) : l.rd a = u.rd a := by
    rw [State.rd_congr hw, State.rd_wr_ne]
    simp only [F.RNG_STS_REQUESTS]
    omega
  have hbase : 0x200000 ≤ R.FPX_SECY_CTL p ∧ R.FPX_SECY_CTL p < 0x220000 := by
    unfold R.FPX_SECY_CTL
    omega
  have helse : l.txElsewhere (R.FPX_SECY_CTL p) an slot.toNat = false :=
    (State.txElsewhere_congr hw).trans (State.txElsewhere_wr (by decide) htx)
  have hr' : l.rd (rxCtl (R.FPX_SECY_CTL p) an) = u.rd (rxCtl (R.FPX_SECY_CTL p) an) := hrd (by unfold rxCtl; omega)
  have ht' : l.rd (txCtl (R.FPX_SECY_CTL p) an) = u.rd (txCtl (R.FPX_SECY_CTL p) an) := hrd (by unfold txCtl; omega)
  rw [State.sakBind_eq rfl helse (hr' ▸ hr) (ht' ▸ ht) (by rw [hk, if_pos rfl, hstate])] at hexec
  obtain ⟨hrx, hlpn, htxc, hnpn⟩ := l.bound_spec (R.FPX_SECY_CTL p) an (BitVec.ofNat 32 (2 ^ 31 + slot.toNat)) x y
  have hbound : l.onlyIn (((l.rxBound (R.FPX_SECY_CTL p) an (BitVec.ofNat 32 (2 ^ 31 + slot.toNat)) x).txBound (R.FPX_SECY_CTL p) an
      (BitVec.ofNat 32 (2 ^ 31 + slot.toNat)) y).txUsed (R.FPX_SECY_CTL p) an) [.regs] :=
    ((l.onlyIn_rxBound _ _ _ _).trans (State.onlyIn_txBound _ _ _ _ _)).trans (State.onlyIn_txUsed _ _ _)
  generalize ((l.rxBound (R.FPX_SECY_CTL p) an (BitVec.ofNat 32 (2 ^ 31 + slot.toNat)) x).txBound (R.FPX_SECY_CTL p) an
      (BitVec.ofNat 32 (2 ^ 31 + slot.toNat)) y).txUsed (R.FPX_SECY_CTL p) an = b at hexec hrx hlpn htxc hnpn hbound
  have hwake {a : Nat} (ha : R.FPX_SECY_CTL p ≤ a) (hn : a < R.FPX_SECY_CTL p + 0x800) : (b.wakeSlot slot.toNat).rd a = b.rd a :=
    (b.touches_wakeSlot slot.toNat).rd a (by simp [evtFree]; omega) (by simp [R.FPX_EVT]; omega)
  have hslot : (b.wakeSlot slot.toNat).ks slot.toNat = k.woken := by
    rw [State.ks_wakeSlot, if_pos rfl, hbound.ks, hk, if_pos rfl]
  refine ⟨_, hexec, ?_, ?_, ?_, ?_, fun i hi => ?_, ?_, ?_, ?_, ?_, ?_⟩
  · rw [hslot]
    exact KeySlot.state_woken huse
  · rw [hslot]
    exact haed
  · rw [hslot]
    exact hid
  · rw [hslot]
    exact hmat
  · rw [State.ks_wakeSlot, if_neg hi, hbound.ks, hk, if_neg hi]
  · rw [hwake (by unfold rxCtl; omega) (by unfold rxCtl; omega), hrx]
  · rw [State.rd64, hwake (by unfold lpnA rxCtl; omega) (by unfold lpnA rxCtl; omega), hwake (by unfold lpnA rxCtl; omega)
      (by unfold lpnA rxCtl; omega)]
    exact hlpn
  · rw [hwake (by unfold txCtl; omega) (by unfold txCtl; omega), htxc]
  · rw [State.rd64, hwake (by unfold npnA txCtl; omega) (by unfold npnA txCtl; omega), hwake (by unfold npnA txCtl; omega)
      (by unfold npnA txCtl; omega)]
    exact hnpn
  · rw [(b.onlyIn_wakeSlot slot.toNat).mem, hbound.mem, hload.mem]

/-! ### MKPDUs and group keys -/

theorem exec_mkaTxInterval_port {p : Fin 32} (hup : s.laneUp p = true) (hext : s.isExt p = false) :
    exec (.mkaTxInterval (.port p) none) s = .next (s.emit (.control p kMka [])) := by
  have he : exec (.mkaTxInterval (.port p) none) s = execMkaTxInterval (.port p) none s := rfl
  have hlive : s.mkaLive (.port p) = true := by simp [State.mkaLive, hup, hext]
  rw [he, execMkaTxInterval]
  simp only [hlive, Bool.not_true, Bool.false_eq_true, if_false]
  rfl

theorem exec_gdoiLoad {slot : BitVec 15} {key : List Byte} {spi : Word} (h : (s.ks slot.toNat).state = Ks.empty) :
    exec (.gdoiMessageRx (.load slot false key spi)) s = .next (s.sakLoaded slot.toNat 4 key [] spi.toNat) := by
  have he : exec (.gdoiMessageRx (.load slot false key spi)) s = execGdoiMessageRx (.load slot false key spi) s := rfl
  rw [he, execGdoiMessageRx]
  simp only [h, ne_eq, not_true_eq_false, if_false]
  rfl

theorem exec_gdoiActivate {slot : BitVec 15} (h : (s.ks slot.toNat).state = Ks.loaded) :
    exec (.gdoiMessageRx (.activate slot)) s = .next (s.wakeSlot slot.toNat) := if_pos h

end SakLaws

/-- Settles O14: DONE on a lane is `doneRx_lane`, the twin link's messages `offerRx_twin_accepts`, `confirmRx_twin` and `doneRx_twin`, and a
SAK that is bound `mkaRx_binds`. -/
theorem keyAgreement : Obligations.KeyAgreement := by
  unfold Obligations.KeyAgreement
  intro s
  refine ⟨fun k p u hu hup hp hst hcf hses hl => doneRx_lane hu hup hp hst hcf hses hl, fun p hup hen hp hph hcred => ?_,
    fun p hup hen hp hph hses => ?_, fun p key cred hup hen hp hnew hok hlow hkey hcred hrng =>
      offerRx_twin_accepts hup hen hp hnew hok hlow hkey hcred hrng, fun k p => ⟨exec_offerRx_lane, exec_confirmRx_lane⟩,
    fun p hup hp hph hses hl => confirmRx_twin hup hp hph hses hl, fun p hup hp hph hses hl hv hc => doneRx_twin hup hp hph hses hl hv hc,
    fun p an slot key salt id sr st u hu hup hext he htx hr ht => mkaRx_binds hu hup hext he htx hr ht, fun p => exec_mkaTxInterval_port,
    fun slot key spi he => ?_, fun slot hl hu => ⟨exec_gdoiActivate hl, State.wakeSlot_active hu⟩⟩
  · rw [exec_offerRx_twin hup hen hp, State.twinOfferRx_rejects hph hcred]
  · rw [exec_offerRx_twin hup hen hp, State.twinOfferRx_repeated hph hses]
  · obtain ⟨k, hk, hstate, -, hid, hmat, halg, -⟩ := s.sakLoaded_spec slot.toNat 4 key [] spi.toNat
    refine ⟨_, exec_gdoiLoad he, ?_⟩
    simp only [hk, if_true]
    exact ⟨hstate, halg, hmat, hid, fun i hi => if_neg hi, (s.onlyIn_sakLoaded slot.toNat 4 key [] spi.toNat).mem⟩

end Sys2Proof.Machine

/-! # What a reset source leaves: power-on, the rails and the loss of main power (O32) -/

namespace Sys2Proof.Machine

-- proofs one after the other: a task for each would take a stack of its own
set_option Elab.async false

section PowerLaws

variable {s t u : State} {l m : List StatePart}

theorem State.onlyIn_nv (s : State) (n : Nv) : s.onlyIn { s with nv := n } [.nv] :=
  ⟨fun p hp => by cases p with | nv => simp at hp | _ => exact rfl, rfl⟩

theorem State.onlyIn_berm (s : State) (b : Berm) : s.onlyIn { s with berm := b } [.berm] :=
  ⟨fun p hp => by cases p with | berm => simp at hp | _ => exact rfl, rfl⟩

theorem State.onlyIn_boot (s : State) (b : Boot) : s.onlyIn { s with boot := b } [.boot] :=
  ⟨fun p hp => by cases p with | boot => simp at hp | _ => exact rfl, rfl⟩

theorem State.onlyIn_gac (s : State) (g : Gac) : s.onlyIn { s with gac := g } [.gac] :=
  ⟨fun p hp => by cases p with | gac => simp at hp | _ => exact rfl, rfl⟩

theorem State.onlyIn_fld (s : State) (f : FieldIf) : s.onlyIn { s with fld := f } [.fld] :=
  ⟨fun p hp => by cases p with | fld => simp at hp | _ => exact rfl, rfl⟩

theorem State.onlyIn_resetRegs (s : State) (p : Nat → Bool) : s.onlyIn (s.resetRegs p) [.regs, .regBad] :=
  ⟨fun p hp => by cases p with | regs | regBad => simp at hp | _ => exact rfl, rfl⟩

/-- What holds at the start and is kept by the effect of each element holds at the end. -/
theorem State.forEach_mem {α : Type} {P : State → Prop} {l : List α} {g : State → α → State} (h : P s) (hg : ∀ u a, a ∈ l → P u → P (g u a)) :
    P (s.forEach l g) := by
  induction l generalizing s with
  | nil => exact h
  | cons a l ih => exact ih (hg _ _ List.mem_cons_self h) fun u b hb => hg u b (List.mem_cons_of_mem _ hb)

/-! ### The NV array -/

theorem State.onlyIn_nvWrite (s : State) (a : Nat) (b : List Byte) : s.onlyIn (s.nvWrite a b) [.nv] :=
  State.onlyIn.refl.forEach fun t _ ht => ht.trans (t.onlyIn_nv _)

theorem State.onlyIn_nvErase (s : State) (x : Nat) : s.onlyIn (s.nvErase x) [.nv] := s.onlyIn_nv _

theorem State.onlyIn_nvCut (s : State) (o : NvOp) : s.onlyIn (s.nvCut o) [.nv, .free] := by
  have hw {v : State} {a b} (h : s.onlyIn v [.nv, .free]) : s.onlyIn (v.nvWrite a b) [.nv, .free] := h.next (v.onlyIn_nvWrite a b)
  unfold State.nvCut
  extract_lets a n
  have ho : s.onlyIn (s.openBytes n).2 [.nv, .free] := (s.onlyIn_free _).mono (by decide)
  exact hw (.if_ (ho.next (State.onlyIn_nvErase _ _)) ho)

/-! ### Every domain but the Berm loses what it holds -/

/-- The state in which the NV unit under way has been cut off. -/
def State.cutOff (s : State) : State := match s.nv.op with | some o => s.nvCut o | none => s

theorem State.onlyIn_cutOff (s : State) : s.onlyIn s.cutOff [.nv, .free] := by
  unfold State.cutOff
  split
  exacts [s.onlyIn_nvCut _, .refl]

theorem State.rd_unpower (s : State) (k e : Bool) (a : Nat) : (s.unpower k e).rd a = if keptReg k e a then s.rd a else regReset a := by
  have h : (s.unpower k e).rd a = Tbl.get regReset (Tbl.clear s.cutOff.regs fun a => !keptReg k e a) a := rfl
  rw [h, Tbl.get_clear, s.onlyIn_cutOff.regs, State.rd]
  cases keptReg k e a <;> rfl

theorem State.rd_unpower_kept {k e : Bool} {a : Nat} (h : keptReg k e a = true) : (s.unpower k e).rd a = s.rd a := by
  rw [State.rd_unpower, if_pos h]

theorem State.rd_unpower_lost {k e : Bool} {a : Nat} (h : keptReg k e a = false) : (s.unpower k e).rd a = regReset a := by
  rw [State.rd_unpower, h]
  rfl

theorem State.gac_unpower (s : State) (k e : Bool) : (s.unpower k e).gac = s.gac := s.onlyIn_cutOff.gac

theorem State.berm_unpower (s : State) (k e : Bool) : (s.unpower k e).berm = { s.berm with dipping := false, settling := false } := by
  have h : (s.unpower k e).berm = { s.cutOff.berm with dipping := false, settling := false } := rfl
  rw [h, s.onlyIn_cutOff.1 .berm (by decide)]

theorem State.slots_unpower (s : State) (k e : Bool) : (s.unpower k e).keys.slots = if k then s.keys.slots else [] := by
  cases k
  · rfl
  · have h : (s.unpower true e).keys.slots = s.cutOff.keys.slots := rfl
    rw [h, s.onlyIn_cutOff.keys]
    rfl

theorem State.nvBytes_unpower {k e : Bool} (h : s.nv.op = none) : (s.unpower k e).nv.bytes = s.nv.bytes := by
  have hc : (s.unpower k e).nv.bytes = s.cutOff.nv.bytes := rfl
  rw [hc, State.cutOff, h]

/-! ### Stage B1 and the reset cause -/

theorem State.onlyIn_b1 (s : State) : s.onlyIn s.b1 [.regs] :=
  ((s.onlyIn_wr _ _).next (State.onlyIn_setF _ _ _)).forEach fun t _ ht => ht.next (t.onlyIn_wr _ _)

/-- The grants of Aeduf's channels are the last registers that B1 writes. -/
theorem State.rd_grants (s : State) {a : Nat} (ha : a < 0xE1000 ∨ 0xF0000 ≤ a) :
    (s.forEach (List.range 16) (fun s n => s.wr (R.DMA_GRANT n) 0x800FFFFF)).rd a = s.rd a := by
  simp only [State.forEach, List.range, List.range.loop, List.foldl]
  have hg (v : State) {n : Nat} (w : Word) (hn : n < 16 := by decide) : (v.wr (R.DMA_GRANT n) w).rd a = v.rd a :=
    v.rd_wr_ne w (by unfold R.DMA_GRANT; omega)
  rw [hg, hg, hg, hg, hg, hg, hg, hg, hg, hg, hg, hg, hg, hg, hg, hg]

theorem State.rd_b1 (s : State) {a : Nat} (ha : a < 0xE1000 ∨ 0xF0000 ≤ a) (hp : a ≠ R.PWR_STS_LO) (hs : a ≠ 0x3204) : s.b1.rd a = s.rd a :=
  (State.rd_grants _ ha).trans ((State.rd_setF_ne _ _ hs).trans (State.rd_wr_ne _ _ hp))

theorem State.pwr_b1 (s : State) : s.b1.rd R.PWR_STS_LO = 0xAA :=
  (State.rd_grants _ (by decide)).trans ((State.rd_setF_ne _ _ (by decide)).trans (State.rd_wr_self _ _ _))

theorem State.pairSt_b1 (s : State) : s.b1.pairSt 0 = pRunning := by
  have h : s.b1.pairSt 0 = ((s.wr R.PWR_STS_LO 0xAA).setF (F.DEV_PAIR_STS_STATE 0) pRunning).f (F.DEV_PAIR_STS_STATE 0) := by
    rw [State.pairSt, State.f, State.b1, State.rd_grants _ (by decide)]
    rfl
  rw [h, State.f_setF_self _ _ _ (by decide)]
  rfl

theorem State.onlyIn_resetCause (s : State) (c : Nat) : s.onlyIn (s.resetCause c) [.regs] :=
  (s.onlyIn_wr _ _).next (State.onlyIn_setF _ _ _) |>.next (State.onlyIn_setF _ _ _)

theorem State.rd_resetCause (s : State) (c : Nat) {a : Nat} (hs : a ≠ R.RST_STS) (hc : a ≠ R.RST_CAUSE) (hn : a ≠ R.RST_COUNT) :
    (s.resetCause c).rd a = s.rd a :=
  (State.rd_setF_ne _ _ hs).trans ((State.rd_setF_ne _ _ hn).trans (State.rd_wr_ne _ _ hc))

theorem State.cause_resetCause (s : State) {c : Nat} (h : c < 256) : (s.resetCause c).f F.RST_STS_CAUSE = c := by
  rw [State.resetCause, State.f_setF_self _ _ _ (by decide)]
  exact Nat.mod_eq_of_lt h

theorem State.f_resetCause_sts (s : State) (c : Nat) {g : Fld} (hg : g.addr = R.RST_STS) (ha : F.RST_STS_CAUSE.apart g = true) :
    (s.resetCause c).f g = s.f g := by
  rw [State.resetCause, State.f_setF_ne _ _ (by decide) ha, State.f, State.f, State.addF, State.rd_setF_ne _ _ (by rw [hg]; decide),
    State.rd_wr_ne _ _ (by rw [hg]; decide)]

theorem State.bit_resetCause (s : State) {c : Nat} (h : c < 32) : bitAt ((s.resetCause c).rd R.RST_CAUSE).toNat c = true := by
  rw [State.resetCause, State.rd_setF_ne _ _ (by decide), State.addF, State.rd_setF_ne _ _ (by decide), State.rd_wr_self, bitAt,
    BitVec.toNat_or, Nat.testBit_or, BitVec.toNat_ofNat, Nat.testBit_mod_two_pow]
  simp [h]

/-- The boot report starts again, with room for the reset cause. -/
theorem State.onlyIn_causeEntry (s : State) (c : Nat) : s.onlyIn (s.causeEntry c) [.boot] := (s.onlyIn_boot _).trans (State.onlyIn_boot _ _)

/-! ### The GAC at power-on -/

theorem State.onlyIn_coldStart (s : State) : s.onlyIn s.coldStart [.regs, .regBad, .gac, .berm] :=
  ⟨fun p hp => by cases p with | regs | regBad | gac | berm => simp at hp | _ => exact rfl, rfl⟩

/-- The registers that a cold start resets. -/
def coldReg (a : Nat) : Bool := inRange 0x20000 0x10000 a || inRange R.TMP_STS 0x10000 a || a = R.RST_CAUSE || a = R.RST_COUNT

theorem State.rd_coldStart (s : State) (a : Nat) : s.coldStart.rd a = if coldReg a then regReset a else s.rd a := s.rd_resetRegs coldReg a

/-- The fields of the GAC that power-on clears. -/
def gacLocks : List Fld :=
  [F.GAC_STATUS_ACQ, F.GAC_STATUS_MREF_VALID, F.GAC_STATUS_PHASOR_VALID, F.GAC_STATUS_PTP_LOCK, F.GAC_STATUS_HOLD_LEFT,
    F.GAC_STATUS_CYCLE_SET, F.GAC_PTP_STATUS_LOCK, F.GAC_ZERO_SEQ_TAI_OK]

/-- The state in which the GAC shows FREE and no lock. -/
def State.gacShownFree (s : State) : State :=
  ((gacLocks.foldl (fun s f => s.setF f 0) s).setF F.GAC_STATUS_STATE gFree).setF F.GAC_PTP_STATUS_CLASS 255

theorem State.gacPowerOn_eq (s : State) : ∃ u : State, s.gacPowerOn = u.showSlew ∧ u.regs = s.gacShownFree.regs := by
  unfold State.gacPowerOn
  extract_lets v w
  have hw : w = s.gacShownFree := rfl
  exact ⟨_, rfl, by dsimp only; rw [hw]⟩

theorem State.rd_clearFields {fs : List Fld} {a : Nat} (h : ∀ f ∈ fs, a ≠ f.addr) : (fs.foldl (fun s f => s.setF f 0) s).rd a = s.rd a := by
  induction fs generalizing s with
  | nil => rfl
  | cons f fs ih =>
    exact (ih fun g hg => h g (List.mem_cons_of_mem _ hg)).trans (s.rd_setF_ne 0 (h f List.mem_cons_self))

theorem State.onlyIn_gacPowerOn (s : State) : s.onlyIn s.gacPowerOn [.regs, .gac] :=
  have h (v : State) {f x} (hv : s.onlyIn v [.regs, .gac]) : s.onlyIn (v.setF f x) [.regs, .gac] := hv.next (v.onlyIn_setF f x)
  h _ ((h _ (h _ (State.onlyIn.refl.forEach fun _ _ hv => h _ hv))).next (State.onlyIn_gac _ _))

theorem State.cycle_gacPowerOn (s : State) : s.gacPowerOn.gac.cycle = s.gac.cycle := rfl

theorem State.acc_gacPowerOn (s : State) : s.gacPowerOn.gac.acc = s.gac.acc := rfl

theorem State.rd_gacPowerOn (s : State) {a : Nat} (ha : a < 0x20000 ∨ 0x30000 ≤ a) : s.gacPowerOn.rd a = s.rd a := by
  have hl : ∀ f ∈ gacLocks, 0x20000 ≤ f.addr ∧ f.addr < 0x30000 := by decide
  have hf (v : State) {f : Fld} {x : Nat} (h : 0x20000 ≤ f.addr ∧ f.addr < 0x30000) : (v.setF f x).rd a = v.rd a := v.rd_setF_ne x (by omega)
  obtain ⟨u, hu, hr⟩ := s.gacPowerOn_eq
  calc s.gacPowerOn.rd a
      = u.rd a := by rw [hu]; exact State.rd_showSlew _ (show a ≠ 0x20004 by omega)
    _ = s.gacShownFree.rd a := State.rd_congr hr
    _ = (gacLocks.foldl (fun s f => s.setF f 0) s).rd a := (hf _ (by decide)).trans (hf _ (by decide))
    _ = s.rd a := State.rd_clearFields fun f h => by have := hl f h; omega

end PowerLaws

end Sys2Proof.Machine

/-! # Power-on, the rails and the loss of main power (O32) -/

namespace Sys2Proof.Machine

-- proofs one after the other: a task for each would take a stack of its own
set_option Elab.async false

section PowerRows

variable {s t u : State}

/-! ### Stage B1 after a reset -/

/-- Stage B1 under a reset cause, whose boot report starts again. -/
def State.startB1 (s : State) (c : Nat) : State := (s.b1.resetCause c).causeEntry c

theorem State.onlyIn_startB1 (s : State) (c : Nat) : s.onlyIn (s.startB1 c) [.regs, .boot] :=
  ((s.onlyIn_b1.next (State.onlyIn_resetCause _ c)).mono (by decide)).next (State.onlyIn_causeEntry _ c)

theorem State.rd_startB1_of_resetCause (s : State) (c a : Nat) : (s.startB1 c).rd a = (s.b1.resetCause c).rd a :=
  State.rd_congr (State.onlyIn_causeEntry _ c).regs

theorem State.rd_startB1 (s : State) (c : Nat) {a : Nat} (ha : 0x20000 ≤ a) (hb : a < 0xE1000 ∨ 0xF0000 ≤ a) : (s.startB1 c).rd a = s.rd a := by
  rw [State.rd_startB1_of_resetCause, State.rd_resetCause _ _ (by rintro rfl; exact absurd ha (by decide)) (by rintro rfl; exact absurd ha (by decide))
      (by rintro rfl; exact absurd ha (by decide)),
    State.rd_b1 _ hb (by rintro rfl; exact absurd ha (by decide)) (by omega)]

theorem State.cause_startB1 (s : State) {c : Nat} (h : c < 256) : (s.startB1 c).f F.RST_STS_CAUSE = c := by
  rw [State.f, State.rd_startB1_of_resetCause]
  exact State.cause_resetCause _ h

theorem State.stage_startB1 (s : State) (c : Nat) : (s.startB1 c).f F.RST_STS_STAGE = s.f F.RST_STS_STAGE := by
  have h : (s.startB1 c).f F.RST_STS_STAGE = (s.b1.resetCause c).f F.RST_STS_STAGE := by rw [State.f, State.f, State.rd_startB1_of_resetCause]
  rw [h, State.f_resetCause_sts _ _ rfl (by decide), State.f, State.rd_b1 _ (by decide) (by decide) (by decide)]
  rfl

theorem State.bit_startB1 (s : State) {c : Nat} (h : c < 32) : bitAt ((s.startB1 c).rd R.RST_CAUSE).toNat c = true := by
  rw [State.rd_startB1_of_resetCause]
  exact State.bit_resetCause _ h

theorem State.pwr_startB1 (s : State) (c : Nat) : (s.startB1 c).rd R.PWR_STS_LO = 0xAA := by
  rw [State.rd_startB1_of_resetCause, State.rd_resetCause _ _ (by decide) (by decide) (by decide), State.pwr_b1]

theorem State.pairSt_startB1 (s : State) (c : Nat) : (s.startB1 c).pairSt 0 = pRunning := by
  have h : (s.startB1 c).pairSt 0 = s.b1.pairSt 0 := by
    rw [State.pairSt, State.pairSt, State.f, State.f, State.rd_startB1_of_resetCause, State.rd_resetCause _ _ (by decide) (by decide) (by decide)]
  rw [h, s.pairSt_b1]

/-- No reset that takes the power from RST_STS keeps a stage beyond B1. -/
theorem State.stage_unpower (s : State) (k e : Bool) : (s.unpower k e).f F.RST_STS_STAGE = 1 := by
  have h : (s.unpower k e).rd R.RST_STS = regReset R.RST_STS := State.rd_unpower_lost (by cases k <;> cases e <;> decide)
  rw [State.f, show F.RST_STS_STAGE.addr = R.RST_STS from rfl, h]
  decide

theorem State.level_unpower (s : State) (k e : Bool) : (s.unpower k e).level = s.level := by
  have h : (s.unpower k e).rd R.TMP_STS = s.rd R.TMP_STS := State.rd_unpower_kept (by cases k <;> cases e <;> decide)
  rw [State.level, State.level, State.f, State.f, show F.TMP_STS_LEVEL.addr = R.TMP_STS from rfl, h]

/-! ### RAIL_RESET -/

theorem railReset_leaves (s : State) (b : Bool) :
    ∃ t, exec (.railReset b) s = .next t ∧ t.f F.RST_STS_STAGE = 1 ∧ t.f F.RST_STS_CAUSE = 2 ∧ t.gac = s.gac ∧ t.berm.log = s.berm.log ∧ t.level = s.level ∧
      t.cul.sessions = [] ∧ t.mem = [] ∧ (b = false → t.keys.slots = s.keys.slots) ∧ (b = true → t.keys.slots = []) := by
  have he : exec (.railReset b) s = .next ((s.unpower (!b) true).startB1 2) := rfl
  have hp := (s.unpower (!b) true).onlyIn_startB1 2
  refine ⟨_, he, (State.stage_startB1 _ _).trans (s.stage_unpower _ _), State.cause_startB1 _ (by decide), hp.gac.trans (s.gac_unpower _ _), ?_, ?_, ?_, hp.mem, ?_, ?_⟩
  · rw [hp.1 .berm (by decide), State.berm_unpower]
  · rw [State.level, State.f, State.rd_startB1 _ _ (by decide) (by decide)]
    exact s.level_unpower _ _
  · rw [hp.cul]
    rfl
  · rintro rfl
    rw [hp.keys]
    exact s.slots_unpower true true
  · rintro rfl
    rw [hp.keys]
    exact s.slots_unpower false true

/-! ### The field interface, which goes on -/

/-- The field interface's registers are those of another state. -/
def State.fldCopied (t u : State) : State := t.forEach (List.range 11) (fun s i => s.wr (R.FLD_CTL + 4 * i) (u.rd (R.FLD_CTL + 4 * i)))

theorem State.onlyIn_fieldFrom (t u : State) (h : Bool) : t.onlyIn (t.fieldFrom u h) [.regs, .fld] :=
  (((State.onlyIn.refl.forEach fun v _ hv => hv.next (v.onlyIn_wr _ _)).next (State.onlyIn_setF _ _ _)).mono (m := [.regs]) (by decide)).next (State.onlyIn_fld _ _)

theorem State.regs_fieldFrom (t u : State) (h : Bool) : (t.fieldFrom u h).regs = ((t.fldCopied u).setB F.FLD_STS_HARVESTED h).regs := by
  unfold State.fieldFrom State.fldCopied
  dsimp only

theorem State.rd_fldCopied_ne (t u : State) {a : Nat} (ha : a < 0x130000 ∨ 0x13002C ≤ a) : (t.fldCopied u).rd a = t.rd a := by
  refine State.forEach_mem (P := fun v => v.rd a = t.rd a) rfl fun v i hi hv => (v.rd_wr_ne _ ?_).trans hv
  have := List.mem_range.1 hi
  unfold R.FLD_CTL
  omega

theorem State.sts_fldCopied (t u : State) : (t.fldCopied u).rd 0x130004 = u.rd 0x130004 := by
  simp only [State.fldCopied, State.forEach, List.range, List.range.loop, List.foldl, State.rd_wr, R.FLD_CTL]
  rfl

theorem State.rd_fieldFrom (t u : State) (h : Bool) {a : Nat} (ha : a < 0x130000 ∨ 0x13002C ≤ a) : (t.fieldFrom u h).rd a = t.rd a := by
  rw [State.rd_congr (t.regs_fieldFrom u h), State.setB, State.rd_setF_ne _ _ (show a ≠ 0x130004 by omega), State.rd_fldCopied_ne _ _ ha]

theorem State.tag_fieldFrom (t u : State) (h : Bool) : (t.fieldFrom u h).tag = u.tag := by
  rw [State.tag, State.tag, State.f_congr (t.regs_fieldFrom u h), State.setB, State.f_setF_ne _ _ (by decide) (by decide), State.f, State.f,
    show F.FLD_STS_TAG_STATE.addr = 0x130004 from rfl, State.sts_fldCopied]

theorem State.harvested_fieldFrom (t u : State) (h : Bool) : (t.fieldFrom u h).fb F.FLD_STS_HARVESTED = h := by
  rw [State.fb, State.f_congr (t.regs_fieldFrom u h), State.setB, State.f_setF_self _ _ _ (by decide)]
  cases h <;> rfl

/-! ### POWER_ON -/

/-- What power-on finds of the part that the Berm has held, or not. -/
def State.bermStart (s : State) : State := if (s.unpower false false).berm.coldNext then (s.unpower false false).coldStart else s.unpower false false

/-- The Berm is off the backup cell. -/
def State.bermOn (s : State) : State := { s.bermStart with berm := { s.bermStart.berm with backup := false } }

/-- The device on main power, before the field interface goes on. -/
def State.poweredOn (s : State) : State := s.bermOn.gacPowerOn.startB1 1

theorem exec_powerOn (s : State) :
    exec .powerOn s = .next (s.poweredOn.doIf (s.fb F.FLD_STS_HARVESTED) (fun t => (t.fieldFrom s false).setDom dField dsOn)) := rfl

theorem State.bermStart_warm (h : s.berm.coldNext = false) : s.bermStart = s.unpower false false := by
  rw [State.bermStart, if_neg (by rw [State.berm_unpower]; simp [h])]

theorem State.bermStart_cold (h : s.berm.coldNext = true) : s.bermStart = (s.unpower false false).coldStart := by
  rw [State.bermStart, if_pos (by rw [State.berm_unpower]; exact h)]

theorem State.onlyIn_bermStart (s : State) : (s.unpower false false).onlyIn s.bermStart [.regs, .regBad, .gac, .berm] :=
  .if_ (State.onlyIn_coldStart _) .refl

theorem State.onlyIn_poweredOn (s : State) : (s.unpower false false).onlyIn s.poweredOn [.regs, .regBad, .gac, .berm, .boot] :=
  (((s.onlyIn_bermStart.mono (by decide)).next (State.onlyIn_berm _ _)).next (State.onlyIn_gacPowerOn _)).next (State.onlyIn_startB1 _ 1)

theorem State.rd_poweredOn (s : State) {a : Nat} (ha : 0x30000 ≤ a) (hb : a < 0xE1000 ∨ 0xF0000 ≤ a) : s.poweredOn.rd a = s.bermStart.rd a := by
  rw [State.poweredOn, State.rd_startB1 _ _ (by omega) hb, State.rd_gacPowerOn _ (Or.inr ha)]
  rfl

theorem State.stage_poweredOn (s : State) : s.poweredOn.f F.RST_STS_STAGE = 1 := by
  have hb : s.bermStart.rd R.RST_STS = (s.unpower false false).rd R.RST_STS := by
    rcases Bool.eq_false_or_eq_true s.berm.coldNext with h | h
    · rw [State.bermStart_cold h, State.rd_coldStart, if_neg (by decide)]
    · rw [State.bermStart_warm h]
  have hg : s.poweredOn.f F.RST_STS_STAGE = s.bermStart.f F.RST_STS_STAGE := by
    rw [State.poweredOn, State.stage_startB1, State.f, State.rd_gacPowerOn _ (by decide)]
    rfl
  rw [hg, State.f, show F.RST_STS_STAGE.addr = R.RST_STS from rfl, hb]
  exact s.stage_unpower _ _

end PowerRows

end Sys2Proof.Machine

/-! # Power-on and the loss of main power: what holds after them (O32) -/

namespace Sys2Proof.Machine

-- proofs one after the other: a task for each would take a stack of its own
set_option Elab.async false

section PowerRows

variable {s t u : State}

/-- The field interface goes on, in its domain. -/
def State.fieldOn (t u : State) : State := (t.fieldFrom u false).setDom dField dsOn

theorem State.onlyIn_fieldOn (t u : State) (c : Bool) : t.onlyIn (t.doIf c (·.fieldOn u)) [.regs, .fld] :=
  State.onlyIn.refl.doIf ((t.onlyIn_fieldFrom u false).next (State.onlyIn_setDom _ dField dsOn))

theorem State.rd_fieldOn (t u : State) (c : Bool) {a : Nat} (ha : a < 0x130000 ∨ 0x13002C ≤ a) (hp : a ≠ R.PWR_STS_HI) :
    (t.doIf c (·.fieldOn u)).rd a = t.rd a :=
  State.doIf_inv (P := fun v => v.rd a = t.rd a) rfl ((State.rd_setF_ne _ _ hp).trans (t.rd_fieldFrom u false ha))

theorem State.fld_fieldFrom (t u : State) (h : Bool) : (t.fieldFrom u h).fld = u.fld := by
  unfold State.fieldFrom
  dsimp only

theorem State.fieldOn_harvested (t u : State) :
    (t.fieldOn u).fld = u.fld ∧ (t.fieldOn u).tag = u.tag ∧ (t.fieldOn u).fb F.FLD_STS_HARVESTED = false ∧ (t.fieldOn u).domOn dField = true := by
  have hr {g : Fld} (hg : g.addr ≠ R.PWR_STS_HI) : (t.fieldOn u).f g = (t.fieldFrom u false).f g := by
    rw [State.f, State.f, State.fieldOn, State.setDom, State.rd_setF_ne _ _ hg]
  have hd : (t.fieldFrom u false).onlyIn (t.fieldOn u) [.regs] := State.onlyIn_setDom _ dField dsOn
  have hf : (t.fieldOn u).fld = (t.fieldFrom u false).fld := hd.1 .fld (by decide)
  refine ⟨hf.trans (t.fld_fieldFrom u false), ?_, ?_, ?_⟩
  · rw [State.tag, hr (by decide)]
    exact t.tag_fieldFrom u false
  · rw [State.fb, hr (by decide)]
    exact t.harvested_fieldFrom u false
  · rw [State.domOn, State.domSt, State.fieldOn, State.setDom, State.f_setF_self _ _ _ (by decide)]
    rfl

/-! ### POWER_ON -/

theorem State.gac_poweredOn (s : State) : s.poweredOn.gac.cycle = s.bermStart.gac.cycle ∧ s.poweredOn.gac.acc = s.bermStart.gac.acc := by
  have hg : s.poweredOn.gac = s.bermOn.gacPowerOn.gac := (State.onlyIn_startB1 _ 1).gac
  rw [hg]
  exact ⟨s.bermOn.cycle_gacPowerOn, s.bermOn.acc_gacPowerOn⟩

theorem State.berm_poweredOn (s : State) : s.poweredOn.berm = { s.bermStart.berm with backup := false } := by
  have hb : s.poweredOn.berm = s.bermOn.gacPowerOn.berm := (State.onlyIn_startB1 s.bermOn.gacPowerOn 1).1 .berm (by decide)
  have hg : s.bermOn.gacPowerOn.berm = s.bermOn.berm := s.bermOn.onlyIn_gacPowerOn.1 .berm (by decide)
  rw [hb, hg, State.bermOn]

/-- What the Berm held is as before, without a cold start. -/
theorem State.poweredOn_warm (h : s.berm.coldNext = false) :
    s.poweredOn.gac.cycle = s.gac.cycle ∧ s.poweredOn.gac.acc = s.gac.acc ∧ s.poweredOn.berm.log = s.berm.log ∧ s.poweredOn.level = s.level := by
  obtain ⟨hc, ha⟩ := s.gac_poweredOn
  rw [hc, ha, State.berm_poweredOn, State.level, State.f, State.rd_poweredOn _ (by decide) (by decide), State.bermStart_warm h, State.gac_unpower,
    State.berm_unpower]
  exact ⟨rfl, rfl, rfl, s.level_unpower _ _⟩

/-- A cold start leaves no cycle number and an empty log. -/
theorem State.poweredOn_cold (h : s.berm.coldNext = true) :
    s.poweredOn.gac.cycle = 0 ∧ s.poweredOn.berm.log = [] ∧ s.poweredOn.f F.TMP_LOG_COUNT = 0 := by
  have hl : (s.unpower false false).coldStart.rd R.TMP_LOG = regReset R.TMP_LOG := by rw [State.rd_coldStart, if_pos (by decide)]
  rw [s.gac_poweredOn.1, State.berm_poweredOn, State.f, State.rd_poweredOn _ (by decide) (by decide), State.bermStart_cold h,
    show F.TMP_LOG_COUNT.addr = R.TMP_LOG from rfl, hl]
  exact ⟨rfl, rfl, by decide⟩

theorem powerOn_leaves (s : State) :
    ∃ t, exec .powerOn s = .next t ∧ t.f F.RST_STS_STAGE = 1 ∧ t.f F.RST_STS_CAUSE = 1 ∧ bitAt (t.rd R.RST_CAUSE).toNat 1 = true ∧ (∀ i, t.ks i = KeySlot.empty) ∧
      t.mem = [] ∧ t.cul.sessions = [] ∧ t.berm.backup = false ∧ t.pairSt 0 = pRunning ∧ t.domOn dRoot = true ∧ t.domSt dPipe0 = dsOff ∧
      (s.nv.op = none → t.nv.bytes = s.nv.bytes) ∧ (s.berm.coldNext = false → t.gac.cycle = s.gac.cycle ∧ t.gac.acc = s.gac.acc ∧ t.berm.log = s.berm.log ∧ t.level = s.level) ∧
      (s.berm.coldNext = true → t.gac.cycle = 0 ∧ t.berm.log = [] ∧ t.f F.TMP_LOG_COUNT = 0) ∧
      (s.fb F.FLD_STS_HARVESTED = true → t.fld = s.fld ∧ t.tag = s.tag ∧ t.fb F.FLD_STS_HARVESTED = false ∧ t.domOn dField = true) := by
  generalize hc : s.fb F.FLD_STS_HARVESTED = c
  have hf := s.poweredOn.onlyIn_fieldOn s c
  have hp : (s.unpower false false).onlyIn (s.poweredOn.doIf c (·.fieldOn s)) [.regs, .regBad, .gac, .berm, .boot, .fld] :=
    (s.onlyIn_poweredOn.mono (by decide)).next hf
  have hd {a : Nat} (ha : a < 0x130000 ∨ 0x13002C ≤ a := by decide) (hn : a ≠ R.PWR_STS_HI := by decide) :
      (s.poweredOn.doIf c (·.fieldOn s)).rd a = s.poweredOn.rd a := s.poweredOn.rd_fieldOn s c ha hn
  have hr {g : Fld} (ha : g.addr < 0x130000 ∨ 0x13002C ≤ g.addr := by decide) (hn : g.addr ≠ R.PWR_STS_HI := by decide) :
      (s.poweredOn.doIf c (·.fieldOn s)).f g = s.poweredOn.f g := congrArg (fun w : Word => bitsOf w.toNat g.lo g.w) (hd ha hn)
  have hb : (s.poweredOn.doIf c (·.fieldOn s)).berm = s.poweredOn.berm := hf.1 .berm (by decide)
  have hpwr : s.poweredOn.rd R.PWR_STS_LO = 0xAA := State.pwr_startB1 _ 1
  refine ⟨s.poweredOn.doIf c (·.fieldOn s), by rw [exec_powerOn, hc]; rfl, (hr).trans s.stage_poweredOn, (hr).trans (State.cause_startB1 _ (by decide)), ?_, ?_, hp.mem,
    ?_, ?_, (hr).trans (State.pairSt_startB1 _ 1), ?_, ?_, ?_, ?_, ?_, ?_⟩
  · rw [hd]
    exact State.bit_startB1 _ (by decide)
  · intro i
    rw [hp.ks]
    rfl
  · rw [hp.cul]
    rfl
  · rw [hb, State.berm_poweredOn]
  · rw [State.domOn, State.domSt, hr, State.f, show (domFld dRoot).addr = R.PWR_STS_LO from rfl, hpwr]
    decide
  · rw [State.domSt, hr, State.f, show (domFld dPipe0).addr = R.PWR_STS_LO from rfl, hpwr]
    decide
  · intro hop
    rw [hp.nv]
    exact State.nvBytes_unpower hop
  · intro hcold
    rw [hf.gac, hb, State.level, hr]
    exact State.poweredOn_warm hcold
  · intro hcold
    rw [hf.gac, hb, hr]
    exact State.poweredOn_cold hcold
  · rintro rfl
    exact s.poweredOn.fieldOn_harvested s

/-! ### The loss of main power -/

/-- What the Berm holds on the backup cell. -/
def State.bermHeld (s : State) (vbat : Bool) : Berm :=
  { s.berm with backup := true, lossGac := s.gacNow, lossTai := s.taiNs, lossPtp := s.ptpLocked, counted := 0,
                coldNext := s.berm.coldNext || !vbat, dipping := false, settling := false }

/-- The device without main power, before the field interface goes on. -/
def State.poweredOff (s : State) (vbat : Bool) : State :=
  (({ s.unsealField.unpower false false with berm := s.bermHeld vbat } : State).wr R.PWR_STS_LO 2).setB F.TMP_STS_BACKUP_SEEN vbat

theorem exec_mainPowerLoss {v w : Bool} (h : s.berm.backup = false) :
    exec (.mainPowerLoss v w) s =
      .next ((s.poweredOff v).doIf (w && s.fb F.FLD_STS_FIELD) (fun t => t.fieldFrom s.unsealField true)) := by
  have he : exec (.mainPowerLoss v w) s = execMainPowerLoss v w s := rfl
  rw [he, execMainPowerLoss, if_neg (by rw [h]; decide)]
  rfl

theorem State.onlyIn_unsealField (s : State) : s.onlyIn s.unsealField [.regs, .keys, .fld] :=
  have hu : s.onlyIn s.unseal [.regs, .keys, .fld] :=
    (((s.onlyIn_fld _).mono (by decide)).next (State.onlyIn_setF _ _ _)).next (State.onlyIn_keys _ _)
  .doIf hu (hu.next (State.onlyIn_setF _ _ _))

theorem State.rd_unseal (s : State) {a : Nat} (ha : a ≠ 0x130004) : s.unseal.rd a = s.rd a := by
  have hr : s.unseal.regs = ((s.setFld fun x => { x with hs := none, seq := 0, role := 0 }).setF F.FLD_STS_KEY_INDEX 0).regs := by
    unfold State.unseal
    dsimp only
  rw [State.rd_congr hr, State.rd_setF_ne _ _ ha, State.setFld]
  exact State.rd_congr (s.onlyIn_fld _).regs

theorem State.rd_unsealField (s : State) {a : Nat} (ha : a ≠ 0x130004) : s.unsealField.rd a = s.rd a :=
  State.doIf_inv (P := fun v => v.rd a = s.rd a) (s.rd_unseal ha) ((State.rd_setF_ne _ _ ha).trans (s.rd_unseal ha))

theorem State.onlyIn_poweredOff (s : State) (v : Bool) : (s.unsealField.unpower false false).onlyIn (s.poweredOff v) [.regs, .berm] :=
  (((State.onlyIn_berm _ _).mono (by decide)).next (State.onlyIn_wr _ _ _)).next (State.onlyIn_setF _ _ _)

theorem mainPowerLoss_leaves (s : State) (v w : Bool) (h : s.berm.backup = false) :
    ∃ t, exec (.mainPowerLoss v w) s = .next t ∧ t.berm.backup = true ∧ t.berm.lossGac = s.gacNow ∧ t.berm.lossTai = s.taiNs ∧ t.berm.log = s.berm.log ∧ t.level = s.level ∧
      (∀ i, t.ks i = KeySlot.empty) ∧ t.mem = [] ∧ t.gac = s.gac ∧ (v = false → t.berm.coldNext = true) ∧ (v = true → t.berm.coldNext = s.berm.coldNext) := by
  generalize hw : (w && s.fb F.FLD_STS_FIELD) = c
  have hf : (s.poweredOff v).onlyIn ((s.poweredOff v).doIf c (fun t => t.fieldFrom s.unsealField true)) [.regs, .fld] :=
    State.onlyIn.refl.doIf (State.onlyIn_fieldFrom _ _ _)
  have hb : ((s.poweredOff v).doIf c (fun t => t.fieldFrom s.unsealField true)).berm = s.bermHeld v := hf.1 .berm (by decide)
  have hl : ((s.poweredOff v).doIf c (fun t => t.fieldFrom s.unsealField true)).level = s.level := by
    have hd : ((s.poweredOff v).doIf c (fun t => t.fieldFrom s.unsealField true)).rd R.TMP_STS = (s.poweredOff v).rd R.TMP_STS :=
      State.doIf_inv (P := fun t => t.rd R.TMP_STS = (s.poweredOff v).rd R.TMP_STS) rfl (State.rd_fieldFrom _ _ _ (by decide))
    have hu : (s.poweredOff v).level = (s.unsealField.unpower false false).level := by
      rw [State.level, State.poweredOff, State.setB, State.f_setF_ne _ _ (by decide) (by decide), State.f_wr_ne _ _ (by decide)]
      rfl
    calc _ = (s.poweredOff v).level := congrArg (fun w : Word => bitsOf w.toNat 29 3) hd
      _ = s.unsealField.level := hu.trans (State.level_unpower _ _ _)
      _ = s.level := congrArg (fun w : Word => bitsOf w.toNat 29 3) (s.rd_unsealField (by decide))
  refine ⟨_, (exec_mainPowerLoss h).trans (by rw [hw]), ?_, ?_, ?_, ?_, hl, ?_, hf.mem, ?_, ?_, ?_⟩
  · rw [hb]
    rfl
  · rw [hb]
    rfl
  · rw [hb]
    rfl
  · rw [hb]
    rfl
  · intro i
    rw [hf.ks, (s.onlyIn_poweredOff v).ks]
    rfl
  · rw [hf.gac, (s.onlyIn_poweredOff v).gac, State.gac_unpower, s.onlyIn_unsealField.gac]
  · rintro rfl
    rw [hb]
    exact Bool.or_true _
  · rintro rfl
    rw [hb]
    exact Bool.or_false _

end PowerRows

end Sys2Proof.Machine

/-! # What a block that goes down leaves (O32) -/

namespace Sys2Proof.Machine

-- proofs one after the other: a task for each would take a stack of its own
set_option Elab.async false

/-- RST_STS, the states of the domains and the window's control register, which no block that goes down writes; it writes only the
service level and the count of lost reports in RST_STS. -/
def calmReg (a : Nat) : Bool := decide (a = R.RST_STS) || decide (a = R.PWR_STS_LO) || decide (a = R.PWR_STS_HI) || decide (a = R.CUL_WIN_CTL)

/-- The parts that a block that goes down may change. -/
abbrev subsideParts : List StatePart :=
  [.regs, .regBad, .ctrs, .free, .cul, .nv, .dma, .grv, .fp, .slu, .lanes, .ctxs, .ext, .cal, .cfg, .boot, .twin, .fld, .crd, .out]

/-- From `s` to `t` blocks go down: keys, memory, the GAC and the domains stay, the active set and the contents of the NV array too;
no session opens, no command starts to wait, and no shadow set appears. -/
structure State.Subsides (s t : State) : Prop where
  parts : s.onlyIn t subsideParts
  active : t.cfg.active = s.cfg.active
  shadow : s.cfg.shadow = none → t.cfg.shadow = none
  bytes : t.nv.bytes = s.nv.bytes
  closed : ∀ n, s.session n = none → t.session n = none
  waits : t.cul.waits ⊆ s.cul.waits
  atCycle : t.cul.atCycle ⊆ s.cul.atCycle
  rd : ∀ a, calmReg a = true → a ≠ R.RST_STS → t.rd a = s.rd a
  stage : t.f F.RST_STS_STAGE = s.f F.RST_STS_STAGE
  cause : t.f F.RST_STS_CAUSE = s.f F.RST_STS_CAUSE

section SubsideLaws

variable {s t u : State}

theorem State.Subsides.refl : s.Subsides s :=
  ⟨.refl, rfl, id, rfl, fun _ => id, List.Subset.refl _, List.Subset.refl _, fun _ _ _ => rfl, rfl, rfl⟩

theorem State.Subsides.trans (h : s.Subsides t) (g : t.Subsides u) : s.Subsides u where
  parts := h.parts.trans g.parts
  active := g.active.trans h.active
  shadow := g.shadow ∘ h.shadow
  bytes := g.bytes.trans h.bytes
  closed n := g.closed n ∘ h.closed n
  waits := List.Subset.trans g.waits h.waits
  atCycle := List.Subset.trans g.atCycle h.atCycle
  rd a ha hn := (g.rd a ha hn).trans (h.rd a ha hn)
  stage := g.stage.trans h.stage
  cause := g.cause.trans h.cause

theorem State.Subsides.if_ {p : Prop} {_ : Decidable p} (ht : s.Subsides t) (hu : s.Subsides u) : s.Subsides (if p then t else u) := by
  split <;> assumption

theorem State.Subsides.doIf (h : s.Subsides u) {c g} (hg : s.Subsides (g u)) : s.Subsides (u.doIf c g) :=
  State.doIf_inv (P := fun t => s.Subsides t) h hg

theorem State.Subsides.forEach {α : Type} (h : s.Subsides u) {g : State → α → State} {l : List α}
    (hg : ∀ t a, a ∈ l → s.Subsides t → s.Subsides (g t a)) : s.Subsides (u.forEach l g) :=
  State.forEach_mem (P := fun t => s.Subsides t) h hg

/-- What changes none of the registers, the Culvert, the NV array and the configuration. -/
theorem State.Subsides.of_onlyIn {l : List StatePart} (h : s.Subsides u) (hu : u.onlyIn t l) (hl : l ⊆ subsideParts := by decide)
    (hr : .regs ∉ l := by decide) (hc : .cul ∉ l := by decide) (hf : .cfg ∉ l := by decide) (hn : .nv ∉ l := by decide) : s.Subsides t := by
  have hcfg : t.cfg = u.cfg := hu.1 .cfg hf
  have hcul := hu.cul hc
  refine h.trans ⟨hu.mono hl, by rw [hcfg], by rw [hcfg]; exact id, by rw [hu.nv hn], fun n hs => ?_, by rw [hcul]; exact List.Subset.refl _,
    by rw [hcul]; exact List.Subset.refl _, fun _ _ _ => State.rd_congr (hu.regs hr), State.f_congr (hu.regs hr), State.f_congr (hu.regs hr)⟩
  rw [State.session, hcul]
  exact hs

/-- Registers change, none of them calm. -/
theorem State.Subsides.regs (h : s.Subsides u) {l : List StatePart} (hu : u.onlyIn t l) (hl : l ⊆ [.regs, .regBad])
    (hrd : ∀ a, calmReg a = true → t.rd a = u.rd a) : s.Subsides t := by
  have hn {p : StatePart} (hp : p ∉ [StatePart.regs, .regBad]) : p ∉ l := fun hm => hp (hl hm)
  have hcfg : t.cfg = u.cfg := hu.1 .cfg (hn (by decide))
  have hcul := hu.cul (hn (by decide))
  have hsts {g : Fld} (hg : g.addr = R.RST_STS) : t.f g = u.f g := by
    rw [State.f, State.f, hg, hrd _ (by decide)]
  refine h.trans ⟨hu.mono (List.Subset.trans hl (by decide)), by rw [hcfg], by rw [hcfg]; exact id, by rw [hu.nv (hn (by decide))], fun n hs => ?_,
    by rw [hcul]; exact List.Subset.refl _, by rw [hcul]; exact List.Subset.refl _, fun a ha _ => hrd a ha, hsts rfl, hsts rfl⟩
  rw [State.session, hcul]
  exact hs

theorem calmReg_eq_false_iff {a : Nat} : calmReg a = false ↔ a ≠ 0x10000 ∧ a ≠ 0x10400 ∧ a ≠ 0x10404 ∧ a ≠ 0xD0000 := by
  simp only [calmReg, Bool.or_eq_false_iff, decide_eq_false_iff_not, and_assoc]
  exact Iff.rfl

theorem State.Subsides.wr (h : s.Subsides u) {a v} (ha : calmReg a = false := by decide) : s.Subsides (u.wr a v) := by
  refine h.regs (u.onlyIn_wr a v) (by decide) fun b hb => u.rd_wr_ne v ?_
  rintro rfl
  exact absurd (ha.symm.trans hb) (by decide)

theorem State.Subsides.setF (h : s.Subsides u) {f x} (hf : calmReg f.addr = false := by decide) : s.Subsides (u.setF f x) := h.wr hf

theorem State.Subsides.setB (h : s.Subsides u) {f x} (hf : calmReg f.addr = false := by decide) : s.Subsides (u.setB f x) := h.wr hf

theorem State.Subsides.resetRegs (h : s.Subsides u) {p : Nat → Bool} (hp : ∀ a, calmReg a = true → p a = false) : s.Subsides (u.resetRegs p) := by
  refine h.regs (u.onlyIn_resetRegs p) (by decide) fun a ha => ?_
  rw [State.rd_resetRegs, hp a ha]
  rfl

/-- A field of RST_STS beside the stage and the cause. -/
theorem State.Subsides.sts (h : s.Subsides u) {f x} (hf : f.addr = R.RST_STS := by rfl) (hw : f.lo + f.w ≤ 32 := by decide)
    (hs : f.apart F.RST_STS_STAGE = true := by decide) (hc : f.apart F.RST_STS_CAUSE = true := by decide) : s.Subsides (u.setF f x) :=
  h.trans ⟨(u.onlyIn_setF f x).mono (by decide), rfl, id, rfl, fun _ => id, List.Subset.refl _, List.Subset.refl _,
    fun _ _ hn => u.rd_setF_ne x (by rw [hf]; exact hn), u.f_setF_ne x hw hs, u.f_setF_ne x hw hc⟩

/-- Events and replies. -/
theorem State.Subsides.signals (h : s.Subsides u) {l : List Nat} (ht : u.Touches t l) (hs : u.Signals t) (hl : ∀ a ∈ l, calmReg a = false) :
    s.Subsides t := by
  have hr {a : Nat} (ha : calmReg a = true) : t.rd a = u.rd a := by
    have hn : a ∉ l := fun hm => absurd ((hl a hm).symm.trans ha) (by decide)
    by_cases hw : a = R.CUL_WIN_CTL
    · exact hs.rd a (by rw [hw]; decide)
    · refine ht.rd a ?_ hn
      simp only [calmReg, Bool.or_eq_true, decide_eq_true_eq] at ha
      rcases ha with ((rfl | rfl) | rfl) | hw'
      exacts [rfl, rfl, rfl, absurd hw' hw]
  have ho := ht.onlyIn
  have hcfg : t.cfg = u.cfg := ho.1 .cfg (by decide)
  have hsts {g : Fld} (hg : g.addr = R.RST_STS) : t.f g = u.f g := by
    rw [State.f, State.f, hg, hr (by decide)]
  refine h.trans ⟨ho.mono (by decide), by rw [hcfg], by rw [hcfg]; exact id, by rw [ho.nv], fun n hn => ?_, hs.waits, by rw [hs.atCycle]; exact List.Subset.refl _,
    fun a ha _ => hr ha, hsts rfl, hsts rfl⟩
  rw [State.session, hs.sessions]
  exact hn

theorem State.Subsides.raise (h : s.Subsides u) {src bit data} (hc : src.cls < 16 := by decide) (hh : heldReg src.evt = false := by decide)
    (hl : calmReg src.evt = false := by decide) : s.Subsides (u.raise src bit data) :=
  h.signals (State.Touches.refl.raise hc List.mem_cons_self) (State.Signals.refl.raise hc hh) (l := [src.evt]) (by simpa using hl)

theorem State.Subsides.postCode (h : s.Subsides u) {cls code bit data} (hc : cls < 16 := by decide) : s.Subsides (u.postCode cls code bit data) :=
  h.signals (l := []) (State.Touches.refl.post hc) (State.Signals.refl.post hc) (by simp)

theorem State.Subsides.finish (h : s.Subsides u) {x r late} : s.Subsides (u.finish x r late) :=
  h.signals (l := []) State.Touches.refl.finish State.Signals.refl.finish (by simp)

theorem State.Subsides.finishWait (h : s.Subsides u) {x r} : s.Subsides (u.finishWait x r) :=
  h.signals (l := []) State.Touches.refl.endWait.finish State.Signals.refl.finishWait (by simp)

theorem State.Subsides.emit (h : s.Subsides u) {o} : s.Subsides (u.emit o) := h.of_onlyIn (u.onlyIn_emit o)

theorem State.Subsides.setBoot (h : s.Subsides u) {b} : s.Subsides { u with boot := b } := h.of_onlyIn (u.onlyIn_boot b)

theorem State.Subsides.bootEntry (h : s.Subsides u) {code bit data} : s.Subsides (u.bootEntry code bit data) :=
  .if_ h.postCode (.if_ h.sts h.setBoot)

theorem State.Subsides.rstFlag (h : s.Subsides u) {bit data} : s.Subsides (u.rstFlag bit data) := (h.wr (a := R.RST_EVT)).bootEntry

theorem State.Subsides.updService (h : s.Subsides u) : s.Subsides u.updService := .if_ h h.setBoot.sts.rstFlag

end SubsideLaws

end Sys2Proof.Machine

/-! # The DMA channels, the shadow set, the sessions and the lanes as they go down (O32) -/

namespace Sys2Proof.Machine

-- proofs one after the other: a task for each would take a stack of its own
set_option Elab.async false

section SubsideOps

variable {s t u : State}

theorem calmReg_above {a : Nat} (h : 0xD0000 < a) : calmReg a = false := by
  rw [calmReg_eq_false_iff]
  omega

theorem calmReg_add {b k : Nat} (h : 0xD0000 < b := by decide) : calmReg (b + k) = false := calmReg_above (Nat.lt_of_lt_of_le h (Nat.le_add_right b k))

/-! ### DMA channels -/

theorem State.onlyIn_dma (s : State) (d : Tbl DmaCh) : s.onlyIn { s with dma := d } [.dma] :=
  ⟨fun p hp => by cases p with | dma => simp at hp | _ => exact rfl, rfl⟩

theorem State.Subsides.setCh (h : s.Subsides u) {n c} : s.Subsides (u.setCh n c) := h.of_onlyIn (u.onlyIn_dma _)

/-- A pair's pending bits of the sources 128 to 191 lie at 0x10 and 0x14 of its block. -/
theorem State.Subsides.dmaIrq (h : s.Subsides u) {n} (hn : n < 64) : s.Subsides (u.dmaIrq n) := by
  refine h.wr ?_
  rw [calmReg_eq_false_iff]
  unfold R.DEV_IRQ_PEND
  have : (128 + n) / 32 = 4 ∨ (128 + n) / 32 = 5 := by omega
  omega

theorem State.Subsides.dmaMsix (h : s.Subsides u) {n} : s.Subsides (u.dmaMsix n) := .if_ (h.wr calmReg_add) h.emit

theorem State.Subsides.dmaShow (h : s.Subsides u) {n st} : s.Subsides (u.dmaShow n st) := by
  unfold State.dmaShow
  extract_lets c v w
  have hv : s.Subsides v := (h.setF calmReg_add).setB calmReg_add
  have hw : s.Subsides w := by
    unfold w
    split
    exacts [hv.setF calmReg_add, hv]
  split
  exacts [hw.setF calmReg_add, hw]

theorem State.Subsides.dmaHalt (h : s.Subsides u) {n cause core host} (hn : n < 64) : s.Subsides (u.dmaHalt n cause core host) := by
  unfold State.dmaHalt
  extract_lets c v w x y
  have hv : s.Subsides v := by
    unfold v
    split
    exacts [h.setF calmReg_add, h]
  have hx : s.Subsides x := ((hv.setCh.setF calmReg_add).setF calmReg_add).dmaShow
  have hy : s.Subsides y := .doIf hx (hx.dmaIrq hn)
  exact .doIf hy hy.dmaMsix

theorem State.Subsides.dmaBack (h : s.Subsides u) {n d st dn r x} : s.Subsides (u.dmaBack n d st dn r x) := (h.emit.setF calmReg_add).setF calmReg_add

theorem State.Subsides.dmaFetch (h : s.Subsides u) {n} : s.Subsides (u.dmaFetch n []) := h.dmaShow

theorem State.Subsides.dmaEnd (h : s.Subsides u) {n d st dn r x} (hn : n < 64) : s.Subsides (u.dmaEnd n d st dn r x []) := by
  unfold State.dmaEnd
  extract_lets v core host w y
  have hv : s.Subsides v := h.dmaBack
  have hw : s.Subsides (v.doIf core (·.dmaIrq n)) := .doIf hv (hv.dmaIrq hn)
  have hy : s.Subsides y := (State.Subsides.doIf hw hw.dmaMsix).setCh.setF calmReg_add
  exact .if_ (hv.dmaHalt hn) (.if_ hy.dmaShow.dmaFetch hy.dmaShow.dmaFetch)

theorem State.Subsides.dmaWindowLost (h : s.Subsides u) : s.Subsides u.dmaWindowLost :=
  h.forEach fun _ _ ha ht => ht.dmaHalt (List.mem_range.1 (List.mem_filter.1 ha).1)

theorem State.Subsides.dmaCxlLost (h : s.Subsides u) : s.Subsides u.dmaCxlLost := by
  refine h.forEach fun t n hn ht => ?_
  split
  · exact .if_ (ht.dmaEnd (List.mem_range.1 hn)) ht
  · exact ht

/-! ### The shadow set -/

theorem State.onlyIn_grv (s : State) (g : Grove) : s.onlyIn { s with grv := g } [.grv] :=
  ⟨fun p hp => by cases p with | grv => simp at hp | _ => exact rfl, rfl⟩

theorem State.onlyIn_slu_cfg (s : State) (w : Slu) (c : Cfg) : s.onlyIn { s with slu := w, cfg := c } [.slu, .cfg] :=
  ⟨fun p hp => by cases p with | slu | cfg => simp at hp | _ => exact rfl, rfl⟩

theorem State.Subsides.setGrv (h : s.Subsides u) {g} : s.Subsides { u with grv := g } := h.of_onlyIn (u.onlyIn_grv g)

/-- The configuration changes beside its active set, and no shadow set appears; tables of the set that is dropped go with it. -/
theorem State.Subsides.setCfg (h : s.Subsides u) {w : Slu} {c : Cfg} (ha : c.active = u.cfg.active) (hs : u.cfg.shadow = none → c.shadow = none) :
    s.Subsides { u with slu := w, cfg := c } :=
  h.trans ⟨(u.onlyIn_slu_cfg w c).mono (by decide), ha, hs, rfl, fun _ => id, List.Subset.refl _, List.Subset.refl _, fun _ _ _ => rfl, rfl, rfl⟩

theorem State.Subsides.setNv (h : s.Subsides u) {n : Nv} (hn : n.bytes = u.nv.bytes) : s.Subsides { u with nv := n } :=
  h.trans ⟨(u.onlyIn_nv n).mono (by decide), rfl, id, hn, fun _ => id, List.Subset.refl _, List.Subset.refl _, fun _ _ _ => rfl, rfl, rfl⟩

theorem State.Subsides.dropShadow (h : s.Subsides u) : s.Subsides u.dropShadow := (State.Subsides.setGrv h).setCfg rfl fun _ => rfl

theorem State.Subsides.showShadow (h : s.Subsides u) : s.Subsides u.showShadow := h.setF.setF.setF

theorem State.Subsides.wr64 (h : s.Subsides u) {a v} (ha : 0xD0000 < a) : s.Subsides (u.wr64 a v) :=
  (h.wr (calmReg_above ha)).wr (calmReg_above (Nat.lt_add_right 4 ha))

theorem State.Subsides.commitFail (h : s.Subsides u) {r} : s.Subsides (u.commitFail r) := by
  have hc : s.Subsides { u with cfg := { u.cfg with commit := none } } := h.setCfg rfl id
  exact (hc.showShadow.wr64 (by decide)).forEach fun _ _ _ ht => ht.finishWait

/-- The state in which a commit under way has failed. -/
def State.commitStopped (s : State) : State := if s.cfg.commit.isSome then s.commitFail (badState 0) else s

/-- The shadow set and the writes of its body are gone. -/
def State.shadowGone (s : State) : State :=
  { s.dropShadow with nv := { s.nv with queue := s.nv.queue.filter (fun (o : NvOp) => o.user ≠ NvUser.cfgBody) } }

theorem State.dropShadowAll_eq (s : State) : s.dropShadowAll = s.commitStopped.shadowGone.showShadow := rfl

theorem State.Subsides.shadowGone (h : s.Subsides u) : s.Subsides u.shadowGone := h.dropShadow.setNv rfl

theorem State.Subsides.dropShadowAll (h : s.Subsides u) : s.Subsides u.dropShadowAll := by
  rw [State.dropShadowAll_eq]
  have hc : s.Subsides u.commitStopped := .if_ h.commitFail h
  exact hc.shadowGone.showShadow

theorem State.onlyIn_showShadow (s : State) : s.onlyIn s.showShadow [.regs] :=
  ((s.onlyIn_setF _ _).next (State.onlyIn_setF _ _ _)).next (State.onlyIn_setF _ _ _)

theorem State.shadow_dropShadowAll (s : State) : s.dropShadowAll.cfg.shadow = none := by
  have hs : s.commitStopped.shadowGone.showShadow.cfg = s.commitStopped.shadowGone.cfg := (State.onlyIn_showShadow _).1 .cfg (by decide)
  rw [State.dropShadowAll_eq, hs]
  rfl

theorem State.Subsides.cfgFlag (h : s.Subsides u) {bit seq cycle} : s.Subsides (u.cfgFlag bit seq cycle) := h.raise

theorem State.Subsides.sessionShadow (h : s.Subsides u) {i} : s.Subsides (u.sessionShadow i) := by
  unfold State.sessionShadow
  split
  exacts [.if_ h.dropShadowAll.cfgFlag h, h]

/-! ### Sessions -/

theorem State.Subsides.setCul (h : s.Subsides u) {c : Cul} (hs : ∀ n, u.session n = none → Tbl.get (fun _ => none) c.sessions n = none)
    (hw : c.waits ⊆ u.cul.waits) (ha : c.atCycle ⊆ u.cul.atCycle) : s.Subsides { u with cul := c } :=
  h.trans ⟨(u.onlyIn_cul c).mono (by decide), rfl, id, rfl, hs, hw, ha, fun _ _ _ => rfl, rfl, rfl⟩

theorem State.Subsides.cancelAtCycle (h : s.Subsides u) {i} : s.Subsides (u.cancelAtCycle i) := by
  have hc : s.Subsides { u with cul := { u.cul with atCycle := u.cul.atCycle.filter (fun (h : Held) => h.session ≠ i) } } :=
    h.setCul (fun _ => id) (List.Subset.refl _) List.filter_sublist.subset
  exact hc.forEach fun _ _ _ ht => ht.finish

theorem State.session_setSession (s : State) (i : Nat) (x : Option Session) (n : Nat) :
    (s.setSession i x).session n = if n = i then x else s.session n := Tbl.get_set _ _ _ _ _

theorem State.Subsides.setSession (h : s.Subsides u) {i} : s.Subsides (u.setSession i none) :=
  h.setCul (fun n hn => by rw [Tbl.get_set]; exact ite_eq_left_iff.2 fun _ => hn) (List.Subset.refl _) (List.Subset.refl _)

theorem State.Subsides.closeSession (h : s.Subsides u) {i r} : s.Subsides (u.closeSession i r) := by
  unfold State.closeSession
  split
  · exact h
  · have hs : s.Subsides (((u.cancelAtCycle i).sessionShadow i).setSession i none) := h.cancelAtCycle.sessionShadow.setSession
    split
    exacts [hs.postCode, hs]

theorem State.Subsides.closeSessions (h : s.Subsides u) {p r} : s.Subsides (u.closeSessions p r) := h.forEach fun _ _ _ ht => ht.closeSession

theorem State.session_closeSession (s : State) (i : Nat) (r : Option Nat) : (s.closeSession i r).session i = none := by
  unfold State.closeSession
  split
  next h => exact h
  next x _ =>
    have hs : (((s.cancelAtCycle i).sessionShadow i).setSession i none).session i = none := by rw [State.session_setSession, if_pos rfl]
    split
    · exact (State.Subsides.refl.postCode (cls := 13)).closed i hs
    · exact hs

/-- Every session that is closed in turn stays closed. -/
theorem State.session_closeEach (l : List (Nat × Session)) (r : Nat) (n : Nat) (h : s.session n = none ∨ n ∈ l.map (·.1)) :
    (s.forEach l fun s e => s.closeSession e.1 (some r)).session n = none := by
  induction l generalizing s with
  | nil => exact h.resolve_right (by simp)
  | cons e l ih =>
    refine ih (s := s.closeSession e.1 (some r)) ?_
    rcases h with h | h
    · exact .inl (State.Subsides.refl.closeSession.closed n h)
    · rcases List.mem_cons.1 h with rfl | h
      exacts [.inl (s.session_closeSession e.1 _), .inr h]

theorem State.mem_openSessions {n : Nat} {x : Session} (h : s.session n = some x) : (n, x) ∈ s.openSessions := by
  rw [State.session] at h
  have hm := Tbl.get_mem (d := fun _ => (none : Option Session)) (m := s.cul.sessions) (k := n) (by rw [h]; exact nofun)
  rw [h] at hm
  exact List.mem_filterMap.2 ⟨_, hm, rfl⟩

/-- No session is left where all are closed. -/
theorem State.session_closeAll (s : State) (r n : Nat) : (s.closeSessions (fun _ => true) r).session n = none := by
  refine State.session_closeEach _ r n ?_
  cases h : s.session n with
  | none => exact .inl rfl
  | some x => exact .inr (List.mem_map.2 ⟨(n, x), List.mem_filter.2 ⟨State.mem_openSessions h, rfl⟩, rfl⟩)

/-! ### The window -/

/-- The window's registers are reset, nothing is owed to the host, and the commands under way go mute. -/
def State.muted (s : State) : State :=
  { s.resetRegs culReset with cul :=
    { s.cul with stalled := [], heldEv := [], lostNow := [], armed := [], owed := [],
                 waits := s.cul.waits.map (fun (w : Waiting) => { w with cmd := { w.cmd with mute := true } }),
                 atCycle := s.cul.atCycle.map (fun (h : Held) => { h with mute := true }) } }

theorem State.windowLoss_eq (s : State) : s.windowLoss = (s.muted.closeSessions (fun _ => true) 2).dmaWindowLost := rfl

theorem State.subsides_windowLoss (s : State) : s.muted.Subsides s.windowLoss := by
  rw [State.windowLoss_eq]
  exact State.Subsides.refl.closeSessions.dmaWindowLost

theorem State.session_windowLoss (s : State) (n : Nat) : s.windowLoss.session n = none := by
  rw [State.windowLoss_eq]
  exact State.Subsides.refl.dmaWindowLost.closed n (s.muted.session_closeAll 2 n)

theorem State.onlyIn_muted (s : State) : s.onlyIn s.muted [.regs, .regBad, .cul] :=
  ((s.onlyIn_resetRegs culReset).mono (by decide)).next (State.onlyIn_cul _ _)

theorem State.rd_muted (s : State) (a : Nat) : s.muted.rd a = if culReset a then regReset a else s.rd a := by
  rw [← State.rd_resetRegs]
  exact State.rd_congr (State.onlyIn_cul _ _).regs

theorem State.onlyIn_windowLoss (s : State) : s.onlyIn s.windowLoss subsideParts :=
  (s.onlyIn_muted.mono (by decide)).trans s.subsides_windowLoss.parts

theorem State.cause_windowLoss (s : State) : s.windowLoss.f F.RST_STS_CAUSE = s.f F.RST_STS_CAUSE := by
  rw [s.subsides_windowLoss.cause, State.f, State.rd_muted, if_neg (by decide)]
  rfl

theorem State.ctl_windowLoss (s : State) : s.windowLoss.fb F.CUL_WIN_CTL_EN = false := by
  have h : s.windowLoss.rd R.CUL_WIN_CTL = regReset R.CUL_WIN_CTL := by
    rw [s.subsides_windowLoss.rd _ (by decide) (by decide), State.rd_muted, if_pos (by decide)]
  rw [State.fb, State.f, show F.CUL_WIN_CTL_EN.addr = R.CUL_WIN_CTL from rfl, h]
  decide

end SubsideOps

end Sys2Proof.Machine

/-! # PERST, and the resumption of the root pair (O32) -/

namespace Sys2Proof.Machine

-- proofs one after the other: a task for each would take a stack of its own
set_option Elab.async false

section ResumeLaws

variable {s t u : State}

theorem perst_leaves (s : State) :
    ∃ t, exec .perst s = .next t ∧ t.f F.RST_STS_CAUSE = 5 ∧ (∀ n, t.session n = none) ∧ t.fb F.CUL_WIN_CTL_EN = false ∧ t.cul.bme = false ∧
      t.keys = s.keys ∧ t.gac = s.gac ∧ t.mem = s.mem := by
  have hb : (s.resetCause 5).Subsides ((s.resetCause 5).bootEntry 2 0 5) := State.Subsides.refl.bootEntry
  have hp : s.onlyIn ((s.resetCause 5).bootEntry 2 0 5).windowLoss subsideParts :=
    (((s.onlyIn_resetCause 5).mono (by decide)).trans hb.parts).trans (State.onlyIn_windowLoss _)
  have he : exec .perst s = .next { ((s.resetCause 5).bootEntry 2 0 5).windowLoss with
    cul := { ((s.resetCause 5).bootEntry 2 0 5).windowLoss.cul with bme := false } } := rfl
  have hc := (State.cause_windowLoss ((s.resetCause 5).bootEntry 2 0 5)).trans (hb.cause.trans (s.cause_resetCause (by decide)))
  have hn := State.session_windowLoss ((s.resetCause 5).bootEntry 2 0 5)
  have hw := State.ctl_windowLoss ((s.resetCause 5).bootEntry 2 0 5)
  rw [he]
  generalize ((s.resetCause 5).bootEntry 2 0 5).windowLoss = w at *
  exact ⟨_, rfl, hc, hn, hw, rfl, hp.keys, hp.gac, hp.mem⟩

/-! ### The resumption -/

/-- The shadow set of the Aeduf that is no more is discarded. -/
def State.shadowLeft (s : State) : State :=
  match s.cfg.shadow with
  | some sh => s.dropShadowAll.cfgFlag 3 sh.set.seq 0
  | none => s

/-- The commands that wait, in the order of their answers. -/
def State.waitOrder (s : State) : List Held :=
  (s.cul.waits.map (·.cmd)).mergeSort (fun a b => decide (a.ring < b.ring) || (a.ring = b.ring && decide (a.idx ≤ b.idx)))

/-- Every waiting command is answered. -/
def State.answerWaits (s : State) : State := s.forEach s.waitOrder (fun s h => s.finishWait h (coded St.internal Dt.none 0))

/-- Every command at a cycle is cancelled. -/
def State.cancelCycles (s : State) : State :=
  ({ s with cul := { s.cul with atCycle := [] } } : State).forEach s.cul.atCycle (fun s h => s.finish h (coded St.noAuthority Dt.cancelled 0) false)

/-- Aeduf's channels run again. -/
def State.dmaResumed (s : State) : State := s.forEach (List.range 16) (fun s n => (s.setF (F.DMA_CTL_EN n) 1).dmaShow n dmaWaiting)

/-- The state in which the restarted Aeduf has taken up its work. -/
def State.resumed (s : State) : State := (s.shadowLeft.closeSessions (fun _ => true) 6).answerWaits.cancelCycles.protectBoot.dmaResumed.wdtStart

theorem exec_rootResume (hs : 3 ≤ s.f F.RST_STS_STAGE) (hw : s.fb F.RST_WDT_EN = false) (hr : s.boot.atRom = false)
    (hb : s.fb F.RST_STS_BOOT_HOLD = false) (hp : s.pairSt 0 = pRunning) (hd : s.fb F.CFG_STATUS_DEFAULTS = true) :
    exec .rootResume s = .next s.resumed := by
  have he : exec .rootResume s = execRootResume s := rfl
  have hs' : ¬ s.f F.RST_STS_STAGE < 3 := Nat.not_lt.2 hs
  rw [he, execRootResume, if_neg (by simp [hs', hw, hr, hb, hp])]
  extract_lets n
  rw [if_neg (by simp [hd])]
  rfl

theorem State.Subsides.shadowLeft (h : s.Subsides u) : s.Subsides u.shadowLeft := by
  unfold State.shadowLeft
  split
  exacts [h.dropShadowAll.cfgFlag, h]

theorem State.shadow_shadowLeft (s : State) : s.shadowLeft.cfg.shadow = none := by
  unfold State.shadowLeft
  split
  next => exact State.Subsides.refl.cfgFlag.shadow s.shadow_dropShadowAll
  next h => exact h

theorem State.Subsides.answerWaits (h : s.Subsides u) : s.Subsides u.answerWaits := h.forEach fun _ _ _ ht => ht.finishWait

theorem State.waits_finishWait (s : State) (h : Held) (r : Reply) {w : Waiting} (hw : w ∈ (s.finishWait h r).cul.waits) :
    w ∈ s.cul.waits ∧ w.cmd ≠ h := by
  have hm : w ∈ (s.endWait h).cul.waits := (State.Signals.refl (s := s.endWait h)).finish.waits hw
  obtain ⟨hin, hne⟩ := List.mem_filter.1 hm
  refine ⟨hin, ?_⟩
  rintro rfl
  simp at hne

theorem State.waits_finishEach (l : List Held) (r : Reply) {w : Waiting} (hw : w ∈ (s.forEach l fun s h => s.finishWait h r).cul.waits) :
    w ∈ s.cul.waits ∧ w.cmd ∉ l := by
  induction l generalizing s with
  | nil => exact ⟨hw, List.not_mem_nil⟩
  | cons h l ih =>
    obtain ⟨hin, hl⟩ := ih (s := s.finishWait h r) hw
    obtain ⟨hs, hne⟩ := s.waits_finishWait h r hin
    exact ⟨hs, by simp [hne, hl]⟩

theorem State.waits_answerWaits (s : State) : s.answerWaits.cul.waits = [] := by
  refine List.eq_nil_iff_forall_not_mem.2 fun w hw => ?_
  obtain ⟨hin, hne⟩ := State.waits_finishEach _ _ hw
  exact hne (List.mem_mergeSort.2 (List.mem_map.2 ⟨w, hin, rfl⟩))

theorem State.Subsides.cancelCycles (h : s.Subsides u) : s.Subsides u.cancelCycles := by
  have hc : s.Subsides { u with cul := { u.cul with atCycle := [] } } := h.setCul (fun _ => id) (List.Subset.refl _) (List.nil_subset _)
  exact hc.forEach fun _ _ _ ht => ht.finish

theorem State.atCycle_cancelCycles (s : State) : s.cancelCycles.cul.atCycle = [] :=
  List.subset_nil.1 ((State.Subsides.refl (s := { s with cul := { s.cul with atCycle := [] } })).forEach (fun _ _ _ ht => ht.finish)).atCycle

theorem State.Subsides.protectBoot (h : s.Subsides u) : s.Subsides u.protectBoot := h.forEach fun _ _ _ ht => ht.wr calmReg_add

theorem State.Subsides.dmaResumed (h : s.Subsides u) : s.Subsides u.dmaResumed := h.forEach fun _ _ _ ht => (ht.setF calmReg_add).dmaShow

theorem State.Subsides.wdtStart (h : s.Subsides u) : s.Subsides u.wdtStart := h.setB.setBoot

theorem State.wdt_wdtStart (s : State) : s.wdtStart.fb F.RST_WDT_EN = true := by
  have hr : s.wdtStart.f F.RST_WDT_EN = (s.setF F.RST_WDT_EN 1).f F.RST_WDT_EN := State.f_congr (State.onlyIn_boot _ _).regs
  rw [State.fb, hr, State.f_setF_self _ _ _ (by decide)]
  rfl

theorem rootResume_leaves (s : State) (hs : 3 ≤ s.f F.RST_STS_STAGE) (hw : s.fb F.RST_WDT_EN = false) (hr : s.boot.atRom = false)
    (hb : s.fb F.RST_STS_BOOT_HOLD = false) (hp : s.pairSt 0 = pRunning) (hd : s.fb F.CFG_STATUS_DEFAULTS = true) :
    ∃ t, exec .rootResume s = .next t ∧ t.cfg.shadow = none ∧ (∀ n, t.session n = none) ∧ t.cul.waits = [] ∧ t.cul.atCycle = [] ∧
      t.fb F.RST_WDT_EN = true ∧ t.keys.slots = s.keys.slots ∧ t.gac = s.gac := by
  have hend {v : State} (h : s.Subsides v) : s.Subsides v.protectBoot.dmaResumed.wdtStart := h.protectBoot.dmaResumed.wdtStart
  have hclosed := State.Subsides.refl (s := s) |>.shadowLeft.closeSessions (p := fun _ => true) (r := 6)
  have hall := hend hclosed.answerWaits.cancelCycles
  have hdone (v : State) : v.Subsides v.protectBoot.dmaResumed.wdtStart := State.Subsides.refl.protectBoot.dmaResumed.wdtStart
  refine ⟨_, exec_rootResume hs hw hr hb hp hd, ?_, fun n => ?_, ?_, ?_, State.wdt_wdtStart _, by rw [State.resumed, hall.parts.keys], hall.parts.gac⟩
  · exact (State.Subsides.refl.closeSessions.answerWaits.cancelCycles.protectBoot.dmaResumed.wdtStart).shadow s.shadow_shadowLeft
  · exact (State.Subsides.refl.answerWaits.cancelCycles.protectBoot.dmaResumed.wdtStart).closed n (s.shadowLeft.session_closeAll 6 n)
  · refine List.subset_nil.1 (List.Subset.trans (State.Subsides.refl.cancelCycles.protectBoot.dmaResumed.wdtStart).waits ?_)
    rw [State.waits_answerWaits]
    exact List.Subset.refl _
  · refine List.subset_nil.1 (List.Subset.trans (hdone _).atCycle ?_)
    rw [State.atCycle_cancelCycles]
    exact List.Subset.refl _

end ResumeLaws

end Sys2Proof.Machine

/-! # The fall of the I/O rail (O32) -/

namespace Sys2Proof.Machine

-- proofs one after the other: a task for each would take a stack of its own
set_option Elab.async false

section IoRailLaws

variable {s t u : State}

/-- From `s` to `t` the key slots, the GAC, the memory and the reset cause stay. -/
structure State.Spares (s t : State) : Prop where
  slots : t.keys.slots = s.keys.slots
  gac : t.gac = s.gac
  mem : t.mem = s.mem
  cause : t.f F.RST_STS_CAUSE = s.f F.RST_STS_CAUSE

theorem State.Subsides.spares (h : s.Subsides t) : s.Spares t := ⟨by rw [h.parts.keys], h.parts.gac, h.parts.mem, h.cause⟩

theorem State.Spares.trans (h : s.Spares t) (g : t.Spares u) : s.Spares u :=
  ⟨g.slots.trans h.slots, g.gac.trans h.gac, g.mem.trans h.mem, g.cause.trans h.cause⟩

theorem State.Subsides.setFld (h : s.Subsides u) {g} : s.Subsides (u.setFld g) := h.of_onlyIn (u.onlyIn_fld _)

theorem State.spares_unseal (s : State) : s.Spares s.unseal := by
  have h : s.Subsides ((s.setFld fun x => { x with hs := none, seq := 0, role := 0 }).setF F.FLD_STS_KEY_INDEX 0) :=
    State.Subsides.refl.setFld.setF
  have hk := State.onlyIn_keys ((s.setFld fun x => { x with hs := none, seq := 0, role := 0 }).setF F.FLD_STS_KEY_INDEX 0)
    { ((s.setFld fun x => { x with hs := none, seq := 0, role := 0 }).setF F.FLD_STS_KEY_INDEX 0).keys with fldKeys := none }
  exact h.spares.trans ⟨rfl, hk.gac, hk.mem, State.f_congr hk.regs⟩

theorem State.spares_endSession (s : State) : s.Spares s.endSession := by
  unfold State.endSession
  split
  · have hf : s.Subsides (s.fldFlag 3) := State.Subsides.refl.raise
    exact (hf.spares.trans (State.spares_unseal _)).trans (State.Subsides.refl.setF.setFld).spares
  · exact s.spares_unseal

theorem State.spares_fieldGone (s : State) : s.Spares s.fieldGone := by
  unfold State.fieldGone
  split
  · exact State.Subsides.refl.spares
  · have hf : s.endSession.Subsides (s.endSession.fldFlag 1) := State.Subsides.refl.raise
    exact s.spares_endSession.trans hf.setF.setF.setF.spares

theorem State.onlyIn_crd (s : State) (c : Crd) : s.onlyIn { s with crd := c } [.crd] :=
  ⟨fun p hp => by cases p with | crd => simp at hp | _ => exact rfl, rfl⟩

theorem State.Subsides.cardGone (h : s.Subsides u) {b} : s.Subsides (u.cardGone b) := by
  have hv : s.Subsides ((((((u.setF F.CRD_STS_STATE cdEmpty).setF F.CRD_STS_MODE 0).setB F.CRD_STS_V18 false).setF F.CRD_CAP_BLOCKS 0).setF
    F.CRD_LOST_ADDR_ADDR b)) := h.setF.setF.setB.setF.setF
  have hc := hv.of_onlyIn (State.onlyIn_crd _ { u.crd with off := true })
  exact hc.raise

theorem State.Subsides.cardWaits (h : s.Subsides u) {o b} : s.Subsides (u.cardWaits o b) := h.forEach fun _ _ _ ht => ht.finishWait

/-- A card in the port is lost. -/
def State.cardLeft (s : State) : State := if s.f F.CRD_STS_STATE = cdEmpty then s else (s.cardGone 0xFFFFFFFF).cardWaits .card 0xFFFFFFFF

/-- The card and the field are gone, and what waited for them is answered. -/
def State.ioLost (s : State) : State := s.cardLeft.fieldGone.cardWaits .smartCard 0xFFFFFFFF

theorem State.spares_ioLost (s : State) : s.Spares s.ioLost := by
  have h : s.Subsides s.cardLeft := .if_ .refl State.Subsides.refl.cardGone.cardWaits
  exact (h.spares.trans s.cardLeft.spares_fieldGone).trans State.Subsides.refl.cardWaits.spares

theorem io33Rail_leaves (s : State) :
    ∃ t, exec .io33RailReset s = .next t ∧ t.f F.RST_STS_CAUSE = 4 ∧ (∀ a, 0x130000 ≤ a → a < 0x150000 → t.rd a = regReset a) ∧
      t.keys.slots = s.keys.slots ∧ t.gac = s.gac ∧ t.mem = s.mem := by
  have he : exec .io33RailReset s = .next (((s.resetCause 4).bootEntry 2 0 4).ioLost.resetRegs (fun a => inRange 0x130000 0x20000 a)) := rfl
  have hs := s.onlyIn_resetCause 4
  have hb : (s.resetCause 4).Subsides ((s.resetCause 4).bootEntry 2 0 4) := State.Subsides.refl.bootEntry
  have hx := hb.spares.trans (State.spares_ioLost _)
  rw [he]
  generalize ((s.resetCause 4).bootEntry 2 0 4).ioLost = x at *
  have hr := x.onlyIn_resetRegs (fun a => inRange 0x130000 0x20000 a)
  refine ⟨_, rfl, ?_, fun a hl hu => ?_, ?_, ?_, ?_⟩
  · rw [State.f, State.rd_resetRegs, if_neg (by decide)]
    exact hx.cause.trans (s.cause_resetCause (by decide))
  · rw [State.rd_resetRegs, if_pos (by simp only [inRange, Bool.and_eq_true, decide_eq_true_eq]; omega)]
  · rw [hr.keys, hx.slots, hs.keys]
  · rw [hr.gac, hx.gac, hs.gac]
  · rw [hr.mem, hx.mem, hs.mem]

end IoRailLaws

end Sys2Proof.Machine

/-! # The fall of the SerDes rail (O32) -/

namespace Sys2Proof.Machine

-- proofs one after the other: a task for each would take a stack of its own
set_option Elab.async false

section SerdesLaws

variable {s t u : State}

/-! ### Frames, lanes and extenders -/

theorem State.onlyIn_ctrs (s : State) (c : Tbl Nat) : s.onlyIn { s with ctrs := c } [.ctrs] :=
  ⟨fun p hp => by cases p with | ctrs => simp at hp | _ => exact rfl, rfl⟩

theorem State.onlyIn_fp (s : State) (f : FPath) : s.onlyIn { s with fp := f } [.fp] :=
  ⟨fun p hp => by cases p with | fp => simp at hp | _ => exact rfl, rfl⟩

theorem State.onlyIn_lanes (s : State) (l : Tbl Lane) : s.onlyIn { s with lanes := l } [.lanes] :=
  ⟨fun p hp => by cases p with | lanes => simp at hp | _ => exact rfl, rfl⟩

theorem State.onlyIn_ctxs (s : State) (c : Tbl Ctx) : s.onlyIn { s with ctxs := c } [.ctxs] :=
  ⟨fun p hp => by cases p with | ctxs => simp at hp | _ => exact rfl, rfl⟩

theorem State.onlyIn_ext (s : State) (x : Tbl Extender) : s.onlyIn { s with ext := x } [.ext] :=
  ⟨fun p hp => by cases p with | ext => simp at hp | _ => exact rfl, rfl⟩

theorem State.onlyIn_cal (s : State) (c : Cal) : s.onlyIn { s with cal := c } [.cal] :=
  ⟨fun p hp => by cases p with | cal => simp at hp | _ => exact rfl, rfl⟩

theorem State.onlyIn_twin (s : State) (w : Twin) : s.onlyIn { s with twin := w } [.twin] :=
  ⟨fun p hp => by cases p with | twin => simp at hp | _ => exact rfl, rfl⟩

theorem State.Subsides.setFp (h : s.Subsides u) {f} : s.Subsides { u with fp := f } := h.of_onlyIn (u.onlyIn_fp f)

theorem State.Subsides.bump (h : s.Subsides u) {a n} : s.Subsides (u.bump a n) := h.of_onlyIn (u.onlyIn_ctrs _)

theorem State.Subsides.pc (h : s.Subsides u) {p off} : s.Subsides (u.pc p off) := .if_ h.bump h

theorem State.Subsides.setFrame (h : s.Subsides u) {f} : s.Subsides (u.setFrame f) := h.setFp

theorem State.Subsides.freeFrame (h : s.Subsides u) {id} : s.Subsides (u.freeFrame id) := h.setFp

theorem State.Subsides.countStream (h : s.Subsides u) {e off n} : s.Subsides (u.countStream e off n) := by
  unfold State.countStream
  split
  exacts [.if_ h h.bump, h]

theorem State.Subsides.countDiscard (h : s.Subsides u) {f} : s.Subsides (u.countDiscard f) := by
  unfold State.countDiscard
  split
  exacts [.if_ h h.setFrame.countStream, h]

theorem State.Subsides.dropAt (h : s.Subsides u) {f off} : s.Subsides (u.dropAt f off) := h.countDiscard.freeFrame.pc

theorem State.Subsides.settleFrame (h : s.Subsides u) {id} : s.Subsides (u.settleFrame id) := by
  unfold State.settleFrame
  split
  exacts [.if_ h.freeFrame h, h]

theorem State.Subsides.removeCopies (h : s.Subsides u) {id p} : s.Subsides (u.removeCopies id p) := by
  unfold State.removeCopies
  split
  exacts [h.setFrame.settleFrame, h]

theorem State.Subsides.flushCopy (h : s.Subsides u) {c} : s.Subsides (u.flushCopy c) := by
  unfold State.flushCopy
  split
  exacts [h.pc, .if_ (h.wr calmReg_add) h]

theorem calmReg_mmSts (k : Nat) : calmReg (0x50404 + 8 * k) = false := by
  rw [calmReg_eq_false_iff]
  omega

theorem calmReg_laneSts (k : Nat) : calmReg (0x30104 + 0x20 * k) = false := by
  rw [calmReg_eq_false_iff]
  omega

theorem State.Subsides.mmStop (h : s.Subsides u) {k} : s.Subsides (u.mmStop k) := by
  have hl : s.Subsides (((u.setF (F.SLU_MM_STS_ACTIVE k) 0).setF (F.SLU_MM_STS_VSTATE k) 0).setLane k
      { ((u.setF (F.SLU_MM_STS_ACTIVE k) 0).setF (F.SLU_MM_STS_VSTATE k) 0).lane k with verifies := 0, partner := false }) :=
    ((h.setF (calmReg_mmSts k)).setF (calmReg_mmSts k)).of_onlyIn (State.onlyIn_lanes _ _)
  exact .if_ (.if_ hl.raise hl) hl

theorem State.Subsides.linkDownRule (h : s.Subsides u) {k} : s.Subsides (u.linkDownRule k) :=
  ((h.forEach fun _ _ _ ht => ht.flushCopy).forEach fun _ _ _ ht => ht.removeCopies).mmStop

theorem State.Subsides.extFlag (h : s.Subsides u) {bit lane ctx} : s.Subsides (u.extFlag bit lane ctx) := h.raise

theorem State.Subsides.extLoss (h : s.Subsides u) {k} : s.Subsides (u.extLoss k) := by
  unfold State.extLoss
  extract_lets x cs v wiped w y
  have hv : s.Subsides v := h.forEach fun t _ _ ht => ht.of_onlyIn (t.onlyIn_ctxs _)
  have hw : s.Subsides w := hv.of_onlyIn (v.onlyIn_ext _)
  have hy : s.Subsides y := hw.extFlag
  exact hy.forEach fun _ _ _ ht => ht.extFlag

theorem State.Subsides.laneTo (h : s.Subsides u) {k st} : s.Subsides (u.laneTo k st) :=
  have hl : s.Subsides (u.leaveUp k) := .if_ (.if_ h.linkDownRule.extLoss h.linkDownRule) h
  ((hl.setF (calmReg_laneSts k)).setF (calmReg_laneSts k)).setF (calmReg_laneSts k)

theorem State.Subsides.lanePowerOff (h : s.Subsides u) {k} : s.Subsides (u.lanePower k false) := by
  unfold State.lanePower
  rw [if_neg (by decide)]
  exact .if_ h h.laneTo

/-! ### The twin link and the CXL links -/

theorem State.Subsides.setTwin (h : s.Subsides u) {w} : s.Subsides { u with twin := w } := h.of_onlyIn (u.onlyIn_twin w)

theorem State.Subsides.twinLinkDown (h : s.Subsides u) : s.Subsides u.twinLinkDown := by
  unfold State.twinLinkDown
  extract_lets was v none_ src w
  have hv : s.Subsides v := h.setF.wr
  have hw : s.Subsides w := hv.setTwin
  exact .doIf hw hw.raise

theorem State.Subsides.setTl (h : s.Subsides u) {j st} : s.Subsides (u.setTl j st) := by
  unfold State.setTl
  extract_lets was src v
  have hf : calmReg (if j = 0 then F.TWN_LINK_STS_TL0 else F.TWN_LINK_STS_TL1).addr = false := by split <;> decide
  have hv : s.Subsides v := (State.Subsides.setTwin h).setB hf
  exact .doIf hv hv.twinLinkDown

theorem State.Subsides.mapWays (h : s.Subsides u) {g} : s.Subsides (u.mapWays g) := h.setGrv

theorem State.Subsides.lossRule (h : s.Subsides u) : s.Subsides u.lossRule := by
  unfold State.lossRule
  extract_lets v src w lost x
  have hv : s.Subsides v := h.forEach fun _ _ _ ht => ht.dropAt
  have hw : s.Subsides w := hv.setGrv
  have hx : s.Subsides x := hw.setF
  exact hx.mapWays

theorem State.Subsides.grvLose (h : s.Subsides u) {link} : s.Subsides (u.grvLose link) := by
  have hl : s.Subsides { u.lossRule with grv := { u.lossRule.grv with mig := none, lines := [] } } := h.lossRule.setGrv
  exact .if_ (hl.setF.setF.raise).updService h

theorem State.Subsides.cxlLost (h : s.Subsides u) {j} : s.Subsides (u.cxlLost j) := by
  unfold State.cxlLost
  extract_lets l v
  have hv : s.Subsides v := h.setGrv
  have hg : s.Subsides (v.doIf l.holds (·.grvLose j)) := .doIf hv hv.grvLose
  exact .if_ h (.doIf hg hg.dmaCxlLost)

end SerdesLaws

end Sys2Proof.Machine

/-! # The domains that restart as from OFF (O32) -/

namespace Sys2Proof.Machine

-- proofs one after the other: a task for each would take a stack of its own
set_option Elab.async false

section RestartLaws

variable {s t u : State}

/-! ### What a domain loses -/

theorem calmReg_ne {a b : Nat} (ha : calmReg a = true) (hb : calmReg b = false) : a ≠ b := by
  rintro rfl
  exact absurd (hb.symm.trans ha) (by decide)

theorem State.Subsides.domLoses_tract (h : s.Subsides u) {d : Nat} (hl : dTract0 ≤ d) (hu : d < dTwin) : s.Subsides (u.domLoses d true) := by
  have hd : 12 ≤ d := hl
  unfold State.domLoses
  have hnva : d ≠ dNva := by unfold dNva; omega
  have hpair : ¬ (decide (4 ≤ d) && decide (d ≤ 7)) = true := by rw [Bool.and_eq_true, decide_eq_true_eq, decide_eq_true_eq]; omega
  have hpipe : ¬ (decide (d = dPipe0) || decide (d = dPipe1)) = true := by
    rw [Bool.or_eq_true, decide_eq_true_eq, decide_eq_true_eq, dPipe0, dPipe1]
    omega
  have hcipher : d ≠ dCipher := by unfold dCipher; omega
  have hpke : d ≠ dPke := by unfold dPke; omega
  rw [if_neg hnva, if_neg hpair, if_neg hpipe, if_neg hcipher, if_neg hpke, if_pos (by simp [hl, hu])]
  refine h.forEach fun t k _ ht => ?_
  extract_lets coef v src w
  have hv : s.Subsides v := ht.lanePowerOff.resetRegs fun a ha => by
    simp [calmReg_ne ha (calmReg_laneSts k), calmReg_ne ha (calmReg_add (b := 0x150104) (k := 0x10 * k)),
      calmReg_ne ha (calmReg_add (b := 0x15010C) (k := 0x10 * k)), R.LNE_LANE_STS, R.CAL_LANE_STS, R.CAL_LANE_EYE]
  have hw : s.Subsides w := .if_ (hv.of_onlyIn (v.onlyIn_cal _)) (hv.wr calmReg_add)
  exact hw.setF (calmReg_laneSts k)

theorem State.Subsides.domLoses_twin (h : s.Subsides u) : s.Subsides (u.domLoses dTwin true) := h.setTl.setTl

theorem State.Subsides.domLoses_host (h : s.Subsides u) : s.Subsides (u.domLoses dHost true) := h

theorem State.Subsides.domLoses_cxl (h : s.Subsides u) : s.Subsides (u.domLoses dCxl true) := h.setGrv

/-- The domains on the SerDes rail. -/
def serdesDoms : List Nat := rangeFrom dTract0 8 ++ [dTwin, dHost, dCxl]

theorem mem_serdesDoms {d : Nat} (h : d ∈ serdesDoms) : (dTract0 ≤ d ∧ d < dTwin) ∨ d = dTwin ∨ d = dHost ∨ d = dCxl := by
  rcases List.mem_append.1 h with h | h
  · exact .inl (mem_rangeFrom.1 h)
  · exact .inr (by simpa using h)

theorem State.Subsides.domLoses (h : s.Subsides u) {d : Nat} (hd : d ∈ serdesDoms) : s.Subsides (u.domLoses d true) := by
  rcases mem_serdesDoms hd with ⟨hl, hu⟩ | rfl | rfl | rfl
  exacts [h.domLoses_tract hl hu, h.domLoses_twin, h.domLoses_host, h.domLoses_cxl]

/-! ### A domain that moves -/

theorem fits_domFld {d : Nat} (h : d < 32) : (domFld d).lo + (domFld d).w ≤ 32 := by
  unfold domFld
  split
  · change 2 * d + 2 ≤ 32
    omega
  · change 2 * (d - 16) + 2 ≤ 32
    omega

theorem apart_domFld {d e : Nat} (h : d ≠ e) : (domFld d).apart (domFld e) = true := by
  have hp : R.PWR_STS_LO ≠ R.PWR_STS_HI := by decide
  unfold domFld Fld.apart
  split <;> split <;> simp [hp, hp.symm]
  all_goals omega

theorem State.domSt_setDom_self (s : State) {d st : Nat} (hd : d < 32) (hs : st < 4) : (s.setDom d st).domSt d = st := by
  have hw : (domFld d).w = 2 := by
    unfold domFld
    split <;> rfl
  rw [State.domSt, State.setDom, State.f_setF_self _ _ _ (fits_domFld hd), hw]
  exact Nat.mod_eq_of_lt hs

theorem State.domSt_setDom_ne (s : State) {d e st : Nat} (hd : d < 32) (h : d ≠ e) : (s.setDom d st).domSt e = s.domSt e :=
  s.f_setF_ne st (fits_domFld hd) (apart_domFld h)

theorem State.domTrans_dropTrans_ne (s : State) {d e : Nat} (h : d ≠ e) : (s.dropTrans d).domTrans e = s.domTrans e := by
  rw [State.domTrans, State.domTrans, State.dropTrans, List.find?_filter]
  congr 1
  funext x
  by_cases hx : x.dom = e <;> simp [hx, h.symm]

theorem State.pwr_domMove (s : State) (d src dst : Nat) : (s.domMove d src dst).pwr.trans = (s.dropTrans d).pwr.trans ++ [⟨d, src, dst⟩] := rfl

theorem State.domTrans_domMove_self (s : State) (d src dst : Nat) : (s.domMove d src dst).domTrans d = some ⟨d, src, dst⟩ := by
  have hn : (s.dropTrans d).pwr.trans.find? (fun t => t.dom = d) = none := by
    rw [List.find?_eq_none]
    intro x hx
    have := (List.mem_filter.1 hx).2
    simpa using this
  rw [State.domTrans, State.pwr_domMove, List.find?_append, hn]
  simp

theorem State.domTrans_domMove_ne (s : State) {d e src dst : Nat} (h : d ≠ e) : (s.domMove d src dst).domTrans e = s.domTrans e := by
  rw [State.domTrans, State.pwr_domMove, List.find?_append, ← s.domTrans_dropTrans_ne h, State.domTrans]
  simp [h]

theorem State.rd_domMove (s : State) (d src dst a : Nat) : (s.domMove d src dst).rd a = (s.setDom d dsMove).rd a := by
  have h : (s.domMove d src dst).regs = ((s.dropTrans d).setDom d dsMove).regs := by
    unfold State.domMove
    dsimp only
  rw [State.rd_congr h]
  rfl

/-- The domain moves to ON. -/
def State.comesOn (s : State) (d : Nat) : Prop := (∃ x, s.domTrans d = some x ∧ x.dst = dsOn) ∧ s.domSt d = dsMove

/-- From `s` to `t` domains restart: what a block that goes down leaves stays, but for the states of the domains and the stage. -/
structure State.Restarts (s t : State) : Prop where
  parts : s.onlyIn t (.pwr :: subsideParts)
  active : t.cfg.active = s.cfg.active
  bytes : t.nv.bytes = s.nv.bytes
  closed : ∀ n, s.session n = none → t.session n = none
  ctl : t.rd R.CUL_WIN_CTL = s.rd R.CUL_WIN_CTL
  cause : t.f F.RST_STS_CAUSE = s.f F.RST_STS_CAUSE

theorem State.Subsides.restarts (h : s.Subsides t) : s.Restarts t :=
  ⟨h.parts.mono (List.subset_cons_self _ _), h.active, h.bytes, h.closed, h.rd _ (by decide) (by decide), h.cause⟩

theorem State.Restarts.trans (h : s.Restarts t) (g : t.Restarts u) : s.Restarts u :=
  ⟨h.parts.trans g.parts, g.active.trans h.active, g.bytes.trans h.bytes, fun n => g.closed n ∘ h.closed n, g.ctl.trans h.ctl, g.cause.trans h.cause⟩

theorem addr_domFld (d : Nat) : (domFld d).addr = R.PWR_STS_LO ∨ (domFld d).addr = R.PWR_STS_HI := by
  unfold domFld
  split
  exacts [.inl rfl, .inr rfl]

theorem State.Restarts.of_pwr {p : List StatePart} (hp : s.onlyIn t p) (hl : p ⊆ [.regs, .pwr])
    (hr : ∀ a, a ≠ R.PWR_STS_LO → a ≠ R.PWR_STS_HI → t.rd a = s.rd a) : s.Restarts t := by
  have hn {q : StatePart} (hq : q ∉ [StatePart.regs, .pwr]) : q ∉ p := fun hm => hq (hl hm)
  have hcfg : t.cfg = s.cfg := hp.1 .cfg (hn (by decide))
  refine ⟨hp.mono (List.Subset.trans hl (by decide)), by rw [hcfg], by rw [hp.nv (hn (by decide))], fun n h => ?_, hr _ (by decide) (by decide), ?_⟩
  · rw [State.session, hp.cul (hn (by decide))]
    exact h
  · rw [State.f, State.f, show F.RST_STS_CAUSE.addr = R.RST_STS from rfl, hr _ (by decide) (by decide)]

theorem State.rd_setDom (s : State) (d st : Nat) {a : Nat} (hl : a ≠ R.PWR_STS_LO) (hh : a ≠ R.PWR_STS_HI) : (s.setDom d st).rd a = s.rd a := by
  refine s.rd_setF_ne st ?_
  rcases addr_domFld d with h | h <;> rw [h] <;> assumption

/-- The state in which the domain is OFF. -/
def State.domFell (s : State) (d : Nat) : State := (s.dropTrans d).setDom d dsOff

theorem State.restartDom_eq (s : State) (d : Nat) : s.restartDom d = ((s.domFell d).domLoses d true).domMove d dsOff dsOn := rfl

theorem State.restarts_domFell (s : State) (d : Nat) : s.Restarts (s.domFell d) :=
  .of_pwr (p := [.regs, .pwr]) (((s.onlyIn_dropTrans d).mono (by decide)).next (State.onlyIn_setDom _ d dsOff)) (List.Subset.refl _)
    fun _ hl hh => (State.rd_setDom _ _ _ hl hh).trans (State.rd_congr rfl)

theorem State.restarts_domMove (s : State) (d src dst : Nat) : s.Restarts (s.domMove d src dst) :=
  .of_pwr (s.onlyIn_domMove d src dst) (List.Subset.refl _) fun a hl hh => (s.rd_domMove d src dst a).trans (s.rd_setDom _ _ hl hh)

theorem State.restarts_restartDom (s : State) {d : Nat} (hd : d ∈ serdesDoms) : s.Restarts (s.restartDom d) := by
  rw [State.restartDom_eq]
  exact ((s.restarts_domFell d).trans (State.Subsides.refl.domLoses hd).restarts).trans (State.restarts_domMove _ _ _ _)

theorem lt_of_mem_serdesDoms {d : Nat} (h : d ∈ serdesDoms) : d < 32 := by
  have : ∀ d ∈ serdesDoms, d < 32 := by decide
  exact this d h

theorem State.comesOn_restartDom_self (s : State) {d : Nat} (hd : d ∈ serdesDoms) : (s.restartDom d).comesOn d := by
  rw [State.restartDom_eq]
  generalize (s.domFell d).domLoses d true = v
  refine ⟨⟨_, v.domTrans_domMove_self d _ _, rfl⟩, ?_⟩
  rw [State.domSt, State.f, State.rd_domMove]
  exact v.domSt_setDom_self (lt_of_mem_serdesDoms hd) (by decide)

/-- Another domain's restart leaves a domain as it is. -/
theorem State.comesOn_restartDom_ne {d e : Nat} (hd : d ∈ serdesDoms) (hn : d ≠ e) (h : s.comesOn e) : (s.restartDom d).comesOn e := by
  have hlt := lt_of_mem_serdesDoms hd
  have hs : (s.domFell d).Subsides ((s.domFell d).domLoses d true) := State.Subsides.refl.domLoses hd
  have hpwr : ((s.domFell d).domLoses d true).pwr = (s.domFell d).pwr := hs.parts.1 .pwr (by decide)
  have htr : ((s.domFell d).domLoses d true).domTrans e = s.domTrans e := by
    rw [State.domTrans, hpwr]
    exact s.domTrans_dropTrans_ne hn
  have hst : ((s.domFell d).domLoses d true).domSt e = s.domSt e := by
    have ha : ((s.domFell d).domLoses d true).domSt e = (s.domFell d).domSt e := by
      rw [State.domSt, State.domSt, State.f, State.f]
      rcases addr_domFld e with h | h <;> rw [h, hs.rd _ (by decide) (by decide)]
    exact ha.trans ((s.dropTrans d).domSt_setDom_ne hlt hn)
  rw [State.restartDom_eq]
  generalize (s.domFell d).domLoses d true = v at *
  obtain ⟨⟨x, hx, hon⟩, hm⟩ := h
  refine ⟨⟨x, ?_, hon⟩, ?_⟩
  · rw [v.domTrans_domMove_ne hn, htr, hx]
  · rw [State.domSt, State.f, State.rd_domMove]
    exact (v.domSt_setDom_ne hlt hn).trans (hst.trans hm)

theorem State.comesOn_restartEach {l : List Nat} (hl : l ⊆ serdesDoms) {e : Nat} (h : s.comesOn e ∨ e ∈ l) :
    (s.forEach l State.restartDom).comesOn e := by
  induction l generalizing s with
  | nil => exact h.resolve_right List.not_mem_nil
  | cons d l ih =>
    obtain ⟨hd, hl⟩ := List.cons_subset.1 hl
    refine ih hl (s := s.restartDom d) ?_
    rcases eq_or_ne d e with rfl | hn
    · exact .inl (s.comesOn_restartDom_self hd)
    · rcases h with h | h
      · exact .inl (State.comesOn_restartDom_ne hd hn h)
      · exact .inr ((List.mem_cons.1 h).resolve_left hn.symm)

theorem State.restarts_restartAll (s : State) : s.Restarts (s.forEach serdesDoms State.restartDom) :=
  State.forEach_mem (P := fun t => s.Restarts t) State.Subsides.refl.restarts fun u _ hd hu => hu.trans (u.restarts_restartDom hd)

end RestartLaws

end Sys2Proof.Machine

/-! # What the fall of the SerDes rail leaves (O32) -/

namespace Sys2Proof.Machine

-- proofs one after the other: a task for each would take a stack of its own
set_option Elab.async false

section SerdesRow

variable {s t u : State}

theorem State.onlyIn_hostLoses (s : State) : s.onlyIn s.hostLoses subsideParts :=
  (s.onlyIn_windowLoss.next (State.onlyIn_resetRegs _ _)).next (State.onlyIn_cul _ _)

theorem State.session_hostLoses (s : State) (n : Nat) : s.hostLoses.session n = none := by
  have h : s.hostLoses.session n = s.windowLoss.session n := by
    unfold State.hostLoses State.session
    dsimp only [State.cul_resetRegs]
  rw [h, State.session_windowLoss]

theorem State.rd_hostLoses (s : State) (a : Nat) : s.hostLoses.rd a = (s.windowLoss.resetRegs (fun a => inRange 0xD0000 0x10000 a)).rd a :=
  State.rd_congr (State.onlyIn_cul _ _).regs

theorem State.cause_hostLoses (s : State) : s.hostLoses.f F.RST_STS_CAUSE = s.f F.RST_STS_CAUSE := by
  rw [State.f, State.rd_hostLoses, State.rd_resetRegs, if_neg (by decide)]
  exact s.cause_windowLoss

theorem State.ctl_hostLoses (s : State) : s.hostLoses.rd R.CUL_WIN_CTL = regReset R.CUL_WIN_CTL := by
  rw [State.rd_hostLoses, State.rd_resetRegs, if_pos (by decide)]

theorem State.kept_hostLoses (s : State) : s.hostLoses.cfg.active = s.cfg.active ∧ s.hostLoses.nv.bytes = s.nv.bytes := by
  have hw : s.hostLoses.cfg = s.windowLoss.cfg ∧ s.hostLoses.nv = s.windowLoss.nv := by
    unfold State.hostLoses
    dsimp only [State.cfg_resetRegs, State.nv_resetRegs]
    exact ⟨rfl, rfl⟩
  have hm : s.muted.cfg = s.cfg := s.onlyIn_muted.1 .cfg (by decide)
  rw [hw.1, hw.2, s.subsides_windowLoss.active, s.subsides_windowLoss.bytes, hm, s.onlyIn_muted.nv]
  exact ⟨rfl, rfl⟩

/-- The HOST domain has lost its window, and the domains of the rail restart. -/
def State.serdesRestart (s : State) : State := s.hostLoses.forEach serdesDoms State.restartDom

theorem State.restarts_serdesRestart (s : State) : s.hostLoses.Restarts s.serdesRestart := s.hostLoses.restarts_restartAll

theorem State.ctl_serdesRestart (s : State) : s.serdesRestart.fb F.CUL_WIN_CTL_EN = false := by
  have h : s.serdesRestart.rd R.CUL_WIN_CTL = regReset R.CUL_WIN_CTL := s.restarts_serdesRestart.ctl.trans s.ctl_hostLoses
  rw [State.fb, State.f, show F.CUL_WIN_CTL_EN.addr = R.CUL_WIN_CTL from rfl, h]
  decide

theorem State.comesOn_serdesRestart (s : State) {d : Nat} (hd : d ∈ serdesDoms) : s.serdesRestart.comesOn d :=
  State.comesOn_restartEach (List.Subset.refl _) (.inr hd)

/-- The CXL links are down, and the reset is recorded. -/
def State.serdesCause (s : State) : State := (((s.resetCause 3).bootEntry 2 0 3).cxlLost 0).cxlLost 1

theorem State.subsides_serdesCause (s : State) : (s.resetCause 3).Subsides s.serdesCause := State.Subsides.refl.bootEntry.cxlLost.cxlLost

theorem exec_serdesRailReset (s : State) : exec .serdesRailReset s = .next s.serdesCause.serdesRestart := rfl

theorem serdesRail_leaves (s : State) :
    ∃ t, exec .serdesRailReset s = .next t ∧ t.f F.RST_STS_CAUSE = 3 ∧ (∀ n, t.session n = none) ∧ t.fb F.CUL_WIN_CTL_EN = false ∧
      t.keys.slots = s.keys.slots ∧ t.nv.bytes = s.nv.bytes ∧ t.gac = s.gac ∧ t.cfg.active = s.cfg.active ∧
      (∀ d, d ∈ rangeFrom dTract0 8 ++ [dTwin, dHost, dCxl] → ∃ x, t.domTrans d = some x ∧ x.dst = dsOn ∧ t.domSt d = dsMove) := by
  have hc := s.onlyIn_resetCause 3
  have hcause := s.cause_resetCause (c := 3) (by decide)
  have hcfg : (s.resetCause 3).cfg = s.cfg := hc.1 .cfg (by decide)
  have hb := s.subsides_serdesCause
  have hh := s.serdesCause.onlyIn_hostLoses
  have hr := s.serdesCause.restarts_serdesRestart
  obtain ⟨hactive, hbytes⟩ := s.serdesCause.kept_hostLoses
  refine ⟨_, exec_serdesRailReset s, ?_, fun n => hr.closed n (State.session_hostLoses _ n), State.ctl_serdesRestart _, ?_, ?_, ?_, ?_, fun d hd => ?_⟩
  · rw [hr.cause, State.cause_hostLoses, hb.cause, hcause]
  · rw [hr.parts.keys, hh.keys, hb.parts.keys, hc.keys]
  · rw [hr.bytes, hbytes, hb.bytes, hc.nv]
  · rw [hr.parts.gac, hh.gac, hb.parts.gac, hc.gac]
  · rw [hr.active, hactive, hb.active, hcfg]
  · obtain ⟨⟨x, hx, hon⟩, hm⟩ := s.serdesCause.comesOn_serdesRestart hd
    exact ⟨x, hx, hon, hm⟩

end SerdesRow

end Sys2Proof.Machine

/-! # The restart of the root pair: what the boot ROM leaves (O32) -/

namespace Sys2Proof.Machine

-- proofs one after the other: a task for each would take a stack of its own
set_option Elab.async false

/-- The parts that the boot ROM may change. -/
abbrev romParts : List StatePart := [.regs, .nv, .berm, .keys, .rng, .boot, .cul, .out]

/-- From `s` to `t` the boot ROM works: the key slots stay, the random bit source does not go live, and the pair, the stage and the reset
cause stay as they are. -/
structure State.Boots (s t : State) : Prop where
  parts : s.onlyIn t romParts
  slots : t.keys.slots = s.keys.slots
  live : t.rng.live = s.rng.live
  pair : t.rd (R.DEV_PAIR_STS 0) = s.rd (R.DEV_PAIR_STS 0)
  stage : t.f F.RST_STS_STAGE = s.f F.RST_STS_STAGE
  cause : t.f F.RST_STS_CAUSE = s.f F.RST_STS_CAUSE

section BootLaws

variable {s t u : State}

theorem State.Boots.refl : s.Boots s := ⟨.refl, rfl, rfl, rfl, rfl, rfl⟩

theorem State.Boots.trans (h : s.Boots t) (g : t.Boots u) : s.Boots u :=
  ⟨h.parts.trans g.parts, g.slots.trans h.slots, g.live.trans h.live, g.pair.trans h.pair, g.stage.trans h.stage, g.cause.trans h.cause⟩

theorem State.Boots.if_ {p : Prop} {_ : Decidable p} (ht : s.Boots t) (hu : s.Boots u) : s.Boots (if p then t else u) := by
  split <;> assumption

theorem State.Boots.doIf (h : s.Boots u) {c g} (hg : s.Boots (g u)) : s.Boots (u.doIf c g) := State.doIf_inv (P := fun t => s.Boots t) h hg

theorem State.Boots.forEach {α : Type} (h : s.Boots u) {g : State → α → State} {l : List α} (hg : ∀ t a, s.Boots t → s.Boots (g t a)) :
    s.Boots (u.forEach l g) := State.forEach_inv (P := fun t => s.Boots t) hg l h

/-- What changes neither registers, nor keys, nor the random bit source. -/
theorem State.Boots.of_onlyIn {l : List StatePart} (h : s.Boots u) (hu : u.onlyIn t l) (hl : l ⊆ romParts := by decide)
    (hr : .regs ∉ l := by decide) (hk : .keys ∉ l := by decide) (hg : .rng ∉ l := by decide) : s.Boots t := by
  have hrng : t.rng = u.rng := hu.1 .rng hg
  exact h.trans ⟨hu.mono hl, by rw [hu.keys hk], by rw [hrng], State.rd_congr (hu.regs hr), State.f_congr (hu.regs hr), State.f_congr (hu.regs hr)⟩

theorem State.Boots.setNv (h : s.Boots u) {n} : s.Boots { u with nv := n } := h.of_onlyIn (u.onlyIn_nv n)

theorem State.Boots.setBerm (h : s.Boots u) {b} : s.Boots { u with berm := b } := h.of_onlyIn (u.onlyIn_berm b)

theorem State.Boots.setBoot (h : s.Boots u) {b} : s.Boots { u with boot := b } := h.of_onlyIn (u.onlyIn_boot b)

theorem State.Boots.setKeys (h : s.Boots u) {k : Keys} (hk : k.slots = u.keys.slots) : s.Boots { u with keys := k } :=
  h.trans ⟨(u.onlyIn_keys k).mono (by decide), hk, rfl, rfl, rfl, rfl⟩

theorem State.Boots.setRng (h : s.Boots u) {r : Rng} (hr : r.live = u.rng.live) : s.Boots { u with rng := r } :=
  h.trans ⟨(u.onlyIn_rng r).mono (by decide), rfl, hr, rfl, rfl, rfl⟩

theorem State.Boots.wr (h : s.Boots u) {a v} (hs : a ≠ R.RST_STS := by decide) (hp : a ≠ R.DEV_PAIR_STS 0 := by decide) : s.Boots (u.wr a v) :=
  h.trans ⟨(u.onlyIn_wr a v).mono (by decide), rfl, rfl, u.rd_wr_ne v hp.symm, u.f_wr_ne v hs.symm, u.f_wr_ne v hs.symm⟩

theorem State.Boots.setF (h : s.Boots u) {f x} (hs : f.addr ≠ R.RST_STS := by decide) (hp : f.addr ≠ R.DEV_PAIR_STS 0 := by decide) :
    s.Boots (u.setF f x) := h.wr hs hp

theorem State.Boots.setB (h : s.Boots u) {f x} (hs : f.addr ≠ R.RST_STS := by decide) (hp : f.addr ≠ R.DEV_PAIR_STS 0 := by decide) :
    s.Boots (u.setB f x) := h.wr hs hp

theorem State.Boots.sts (h : s.Boots u) {f x} (hf : f.addr ≠ R.DEV_PAIR_STS 0 := by decide) (hw : f.lo + f.w ≤ 32 := by decide)
    (hs : f.apart F.RST_STS_STAGE = true := by decide) (hc : f.apart F.RST_STS_CAUSE = true := by decide) : s.Boots (u.setF f x) :=
  h.trans ⟨(u.onlyIn_setF f x).mono (by decide), rfl, rfl, u.rd_setF_ne x hf.symm, u.f_setF_ne x hw hs, u.f_setF_ne x hw hc⟩

/-- Events. -/
theorem State.Boots.signals (h : s.Boots u) {l : List Nat} (ht : u.Touches t l) (hs : u.Signals t) (hl : R.RST_STS ∉ l) : s.Boots t := by
  have ho := ht.onlyIn
  have hrng : t.rng = u.rng := ho.1 .rng (by decide)
  exact h.trans ⟨ho.mono (by decide), by rw [ho.keys], by rw [hrng], hs.rd _ (by decide), ht.f rfl hl, ht.f rfl hl⟩

theorem State.Boots.raise (h : s.Boots u) {src bit data} (hc : src.cls < 16 := by decide) (hh : heldReg src.evt = false := by decide)
    (hl : R.RST_STS ∉ [src.evt] := by decide) : s.Boots (u.raise src bit data) :=
  h.signals (l := [src.evt]) (State.Touches.refl.raise hc List.mem_cons_self) (State.Signals.refl.raise hc hh) hl

theorem State.Boots.post (h : s.Boots u) {ev} (hc : ev.cls < 16 := by decide) : s.Boots (u.post ev) :=
  h.signals (l := []) (State.Touches.refl.post hc) (State.Signals.refl.post hc) List.not_mem_nil

theorem State.Boots.bootEntry (h : s.Boots u) {code bit data} : s.Boots (u.bootEntry code bit data) := .if_ (h.post (show 8 < 16 by decide)) (.if_ h.sts h.setBoot)

theorem State.Boots.rstFlag (h : s.Boots u) {bit data} : s.Boots (u.rstFlag bit data) := (h.wr (a := R.RST_EVT)).bootEntry

theorem State.Boots.romDone (h : s.Boots u) {a b} : s.Boots (u.romDone a b) := h.setBoot

/-! ### The tamper log -/

theorem State.Boots.tmpFlag (h : s.Boots u) {bit src} : s.Boots (u.tmpFlag bit src) := .if_ h.wr h.raise

theorem State.Boots.tmpLogAt (h : s.Boots u) {src lvl data g} : s.Boots (u.tmpLogAt src lvl data g) := by
  unfold State.tmpLogAt
  extract_lets n i seq ok e src v w
  have hv : s.Boots v := h.setBerm
  have hw : s.Boots w := hv.setF.setF.setF
  exact .doIf hw hw.tmpFlag

theorem State.Boots.alarmAt (h : s.Boots u) {src lvl data g} : s.Boots (u.alarmAt src lvl data g) := by
  have hl : s.Boots ((u.raiseLevel lvl src).tmpLogAt src lvl data g) := (State.Boots.if_ h.setF.tmpFlag h).tmpLogAt
  exact .if_ (hl.post (show 7 < 16 by decide)) hl

theorem State.Boots.notify (h : s.Boots u) {src} : s.Boots (u.notify src) := h.alarmAt

/-! ### The NV array and the root -/

theorem State.Boots.nvWrite (h : s.Boots u) {a b} : s.Boots (u.nvWrite a b) := h.of_onlyIn (u.onlyIn_nvWrite a b)

theorem State.Boots.nvErase (h : s.Boots u) {x} : s.Boots (u.nvErase x) := h.setNv

theorem State.Boots.journal (h : s.Boots u) {kind sector arg} : s.Boots (u.journal kind sector arg) := (State.Boots.setNv h).setF

theorem State.Boots.nvEraseJ (h : s.Boots u) {x} : s.Boots (u.nvEraseJ x) := h.journal.nvErase.journal

theorem State.Boots.journalRedo (h : s.Boots u) : s.Boots u.journalRedo := by
  unfold State.journalRedo
  extract_lets last redo head nv v w x
  have hv : s.Boots v := h.setNv
  have hw : s.Boots w := hv.forEach fun _ _ ht => ht.nvErase.journal
  have hx : s.Boots x := hw.setF
  exact .doIf hx hx.raise

theorem State.Boots.badLoad (h : s.Boots u) : s.Boots u.badLoad := by
  refine h.forEach fun t i ht => ?_
  extract_lets a b wa wb w v sp nv
  have hd : s.Boots (t.doIf (!badEntry wa) (·.nvWrite a w)) := .doIf ht ht.nvWrite
  have hv : s.Boots v := .doIf hd hd.nvWrite
  exact .if_ ht hv.setNv

theorem State.Boots.drawBytes (h : s.Boots u) {n} : s.Boots (u.drawBytes n).2 := (State.Boots.setF h (f := F.RNG_STS_REQUESTS)).setRng rfl

theorem State.Boots.rootNew (h : s.Boots u) : s.Boots u.rootNew := h.drawBytes.setKeys rfl

theorem State.Boots.showRoot (h : s.Boots u) : s.Boots u.showRoot := by
  unfold State.showRoot
  extract_lets v w
  have hv : s.Boots v := h.setB.setF
  have hw : s.Boots w := hv.setB
  split
  exacts [hw.setKeys rfl, hw]

theorem State.Boots.breachRelease (h : s.Boots u) : s.Boots u.breachRelease := .if_ (State.Boots.setBerm h).setF h

theorem State.Boots.bootImage (h : s.Boots u) {n fb img} : s.Boots (u.bootImage n fb img) := by
  unfold State.bootImage
  extract_lets v w x src y z
  have hx : s.Boots x := (h.setB.setB.setB.setF.setF).wr
  have hy : s.Boots y := hx.setNv
  have hz : s.Boots z := .doIf hy (hy.forEach fun _ _ ht => ht.nvEraseJ).nvWrite
  exact .doIf hz hz.rstFlag

theorem State.Boots.bootRom (h : s.Boots u) {a b} : s.Boots (u.bootRom a b).2 := by
  -- with the projection opaque, nothing unfolds the ROM's run while its stages are named
  obtain ⟨second, hsecond⟩ := exists_eq' (a' := @Prod.snd Bool State)
  unfold State.bootRom
  rw [hsecond]
  extract_lets v w x y
  have hv : s.Boots v := .doIf h (State.Boots.setBerm h).setB.notify
  have hw : s.Boots w := hv.journalRedo.badLoad
  have hx : s.Boots x := .if_ hw.rootNew hw
  have hy : s.Boots y := hx.showRoot.breachRelease
  rw [← hsecond]
  split
  exacts [hy.sts.bootImage, hy.sts]

end BootLaws

end Sys2Proof.Machine

/-! # The restart of the root pair (O32) -/

namespace Sys2Proof.Machine

-- proofs one after the other: a task for each would take a stack of its own
set_option Elab.async false

section RestartRow

variable {s t u : State}

theorem State.onlyIn_pairs (s : State) (p : Tbl Pair) : s.onlyIn { s with pairs := p } [.pairs] :=
  ⟨fun p hp => by cases p with | pairs => simp at hp | _ => exact rfl, rfl⟩

theorem State.onlyIn_memZero (s : State) (a n : Nat) : s.onlyIn (s.memZero a n) [.mem, .tags, .ecc] :=
  ⟨fun p hp => by cases p with | mem | tags | ecc => simp at hp | _ => exact rfl, rfl⟩

theorem State.pr_congr (h : t.pairs = s.pairs) (k : Nat) : t.pr k = s.pr k := by rw [State.pr, State.pr, h]

/-! ### What falls with the root pair -/

/-- The pair and its memory, and the pair running again with the reason it stopped for. -/
def State.pairFell (s : State) : State :=
  (((s.pairReset 0).memZero (tcmBase 0) 0x80000).setF (F.DEV_PAIR_STS_REASON 0) (s.f (F.DEV_PAIR_STS_REASON 0))).setF (F.DEV_PAIR_STS_STATE 0) pRunning

/-- Aeduf's channels. -/
def State.channelsFell (s : State) : State :=
  s.forEach (List.range 16) (fun s n => (s.setCh n DmaCh.idle).resetRegs (fun a =>
    inRange (R.DMA_CTL n) 0x40 a && decide (a ∉ [R.DMA_GRANT n, R.DMA_SRAM_LO n, R.DMA_SRAM_HI n])))

/-- The random bit source. -/
def State.rngFell (s : State) : State := { s.resetRegs (fun a => inRange R.RNG_STS 0x10000 a) with rng := { Rng.reset with draws := s.rng.draws } }

/-- The write-protect bits. -/
def State.protFell (s : State) : State := s.resetRegs (fun a => inRange (R.NVA_WPROT 0) 0x200 a)

/-- The registers of the reset unit, but for the stage, the service level and the record of the resets. -/
def State.rstRegsFell (s : State) : State :=
  ((s.resetRegs (fun a => inRange R.RST_STS 0x400 a && decide (a ∉ [R.RST_CAUSE, R.RST_COUNT, R.RST_FUSE]))).setF F.RST_STS_STAGE
    (s.f F.RST_STS_STAGE)).setF F.RST_STS_SERVICE (s.f F.RST_STS_SERVICE)

/-- All of it, under the reset cause. -/
def State.rootFell (s : State) : State := s.pairFell.channelsFell.rngFell.protFell.rstRegsFell.resetCause 6

/-- The boot ROM runs, or waits. -/
def State.romRuns (s : State) (a b : List Byte) : State :=
  if s.romHolds then s.romDone false true else (s.bootRom a b).2.romDone (s.bootRom a b).1 true

theorem State.rootRestart_eq (s : State) (a b : List Byte) : s.rootRestart a b = ((s.rootFell.bootEntry 2 0 6).rstFlag 4 6).romRuns a b := rfl

/-- The parts that fall with the root pair. -/
abbrev rootParts : List StatePart := [.regs, .regBad, .pairs, .mem, .tags, .ecc, .dma, .rng]

theorem State.onlyIn_pairFell (s : State) : s.onlyIn s.pairFell rootParts :=
  (((((s.onlyIn_pairs _).mono (by decide)).next (State.onlyIn_resetRegs _ _)).next (State.onlyIn_memZero _ _ _)).next (State.onlyIn_setF _ _ _)).next
    (State.onlyIn_setF _ _ _)

theorem State.onlyIn_channelsFell (s : State) : s.onlyIn s.channelsFell [.regs, .regBad, .dma] :=
  State.onlyIn.refl.forEach fun v _ hv => (hv.next (v.onlyIn_dma _)).next (State.onlyIn_resetRegs _ _)

theorem State.onlyIn_rngFell (s : State) : s.onlyIn s.rngFell [.regs, .regBad, .rng] :=
  ((s.onlyIn_resetRegs _).mono (by decide)).next (State.onlyIn_rng _ _)

theorem State.onlyIn_rstRegsFell (s : State) : s.onlyIn s.rstRegsFell [.regs, .regBad] :=
  ((s.onlyIn_resetRegs _).next (State.onlyIn_setF _ _ _)).next (State.onlyIn_setF _ _ _)

theorem State.onlyIn_afterPair (s : State) : s.pairFell.onlyIn s.rootFell [.regs, .regBad, .dma, .rng] :=
  (((((State.onlyIn_channelsFell _).mono (by decide)).next (State.onlyIn_rngFell _)).next (State.onlyIn_resetRegs _ _)).next
    (State.onlyIn_rstRegsFell _)).next (State.onlyIn_resetCause _ 6)

theorem State.onlyIn_rootFell (s : State) : s.onlyIn s.rootFell rootParts := s.onlyIn_pairFell.next s.onlyIn_afterPair

theorem State.live_rootFell (s : State) : s.rootFell.rng.live = false := by
  have h : s.pairFell.channelsFell.rngFell.onlyIn s.rootFell [.regs, .regBad] :=
    ((State.onlyIn_resetRegs _ _).next (State.onlyIn_rstRegsFell _)).next (State.onlyIn_resetCause _ 6)
  have hr : s.rootFell.rng = s.pairFell.channelsFell.rngFell.rng := h.1 .rng (by decide)
  rw [hr]
  rfl

theorem State.pr_rootFell (s : State) {k : Nat} (h : 1 ≤ k) : s.rootFell.pr k = s.pr k := by
  have hp : s.rootFell.pairs = s.pairFell.pairs := s.onlyIn_afterPair.1 .pairs (by decide)
  have hk : (s.setPr 0 Pair.reset).onlyIn s.pairFell [.regs, .regBad, .mem, .tags, .ecc] :=
    ((((State.onlyIn_resetRegs _ _).mono (by decide)).next (State.onlyIn_memZero _ _ _)).next (State.onlyIn_setF _ _ _)).next (State.onlyIn_setF _ _ _)
  have hpairs : s.pairFell.pairs = (s.setPr 0 Pair.reset).pairs := hk.1 .pairs (by decide)
  rw [State.pr_congr hp, State.pr_congr hpairs]
  rw [State.pr_setPr, if_neg (by omega)]

/-! ### The registers -/

theorem State.rd_channelsFell (s : State) {a : Nat} (ha : a < 0xE1000) : s.channelsFell.rd a = s.rd a := by
  refine State.forEach_inv (P := fun v => v.rd a = s.rd a) (fun v n hv => ?_) _ rfl
  rw [State.rd_resetRegs, if_neg]
  · exact hv
  · have hn : inRange (R.DMA_CTL n) 0x40 a = false := by
      unfold inRange R.DMA_CTL
      rw [Bool.and_eq_false_iff, decide_eq_false_iff_not]
      exact .inl (by omega)
    simp [hn]

theorem State.rd_rngFell (s : State) (a : Nat) : s.rngFell.rd a = (s.resetRegs (fun a => inRange R.RNG_STS 0x10000 a)).rd a :=
  State.rd_congr (State.onlyIn_rng _ _).regs

/-- Neither the channels, nor the random bit source, nor the write-protect bits stand at a low address. -/
theorem State.rd_protFell (s : State) {a : Nat} (ha : a < 0x20000) : s.channelsFell.rngFell.protFell.rd a = s.rd a := by
  have hr : inRange R.RNG_STS 0x10000 a = false := by
    unfold inRange R.RNG_STS
    rw [Bool.and_eq_false_iff, decide_eq_false_iff_not]
    exact .inl (by omega)
  have hp : inRange (R.NVA_WPROT 0) 0x200 a = false := by
    unfold inRange R.NVA_WPROT
    rw [Bool.and_eq_false_iff, decide_eq_false_iff_not]
    exact .inl (by omega)
  rw [State.protFell, State.rd_resetRegs, hp, if_neg Bool.false_ne_true, State.rd_rngFell, State.rd_resetRegs, hr, if_neg Bool.false_ne_true,
    s.rd_channelsFell (by omega)]

/-- A register that the reset of pair 0 leaves alone. -/
theorem State.rd_pairFell (s : State) {a : Nat} (ha : 0x4000 ≤ a) : s.pairFell.rd a = s.rd a := by
  have hp : s.onlyIn (s.setPr 0 Pair.reset) [.pairs] := s.onlyIn_pairs _
  have hz := State.onlyIn_memZero (s.pairReset 0) (tcmBase 0) 0x80000
  have hsts : a ≠ 0x3204 := by omega
  have hr : (s.pairReset 0).rd a = (s.setPr 0 Pair.reset).rd a := by
    rw [State.pairReset, State.pairRegsReset, State.rd_resetRegs, if_neg]
    simp only [Bool.or_eq_true, Bool.and_eq_true, decide_eq_true_eq]
    unfold R.DEV_IRQ_CFG R.DEV_IRQ_PEND R.DEV_IRQ_CUR R.DEV_PAIR_STS R.DEV_PAIR_CAUSE
    omega
  have hf (v : State) (x y : Nat) : ((v.setF (F.DEV_PAIR_STS_REASON 0) x).setF (F.DEV_PAIR_STS_STATE 0) y).rd a = v.rd a :=
    (State.rd_setF_ne _ _ hsts).trans (State.rd_setF_ne _ _ hsts)
  rw [State.pairFell, hf, State.rd_congr hz.regs, hr, State.rd_congr hp.regs]

theorem State.stage_pairFell (s : State) : s.pairFell.f F.RST_STS_STAGE = s.f F.RST_STS_STAGE := by
  rw [State.f, State.f, State.rd_pairFell _ (by decide)]

theorem State.pairSt_pairFell (s : State) : s.pairFell.pairSt 0 = pRunning := by
  rw [State.pairSt, State.pairFell, State.f_setF_self _ _ _ (by decide)]
  rfl

theorem State.stage_rstRegsFell (s : State) : s.rstRegsFell.f F.RST_STS_STAGE = s.f F.RST_STS_STAGE := by
  rw [State.rstRegsFell, State.f_setF_ne _ _ (by decide) (by decide), State.f_setF_self _ _ _ (by decide)]
  exact Nat.mod_eq_of_lt (s.f_lt F.RST_STS_STAGE)

theorem State.rd_rstRegsFell (s : State) {a : Nat} (ha : a < 0x10000) : s.rstRegsFell.rd a = s.rd a := by
  have hr : inRange R.RST_STS 0x400 a = false := by
    unfold inRange R.RST_STS
    rw [Bool.and_eq_false_iff, decide_eq_false_iff_not]
    exact .inl (by omega)
  rw [State.rstRegsFell, State.rd_setF_ne _ _ (Nat.ne_of_lt ha), State.rd_setF_ne _ _ (Nat.ne_of_lt ha), State.rd_resetRegs, hr]
  rfl

theorem State.stage_rootFell (s : State) : s.rootFell.f F.RST_STS_STAGE = s.f F.RST_STS_STAGE := by
  rw [State.rootFell, State.f_resetCause_sts _ _ rfl (by decide), State.stage_rstRegsFell, State.f, State.rd_protFell _ (by decide)]
  exact s.stage_pairFell

theorem State.pairSt_rootFell (s : State) : s.rootFell.pairSt 0 = pRunning := by
  have h : s.rootFell.rd (R.DEV_PAIR_STS 0) = s.pairFell.rd (R.DEV_PAIR_STS 0) := by
    rw [State.rootFell, State.rd_resetCause _ _ (by decide) (by decide) (by decide), State.rd_rstRegsFell _ (by decide), State.rd_protFell _ (by decide)]
  rw [State.pairSt, State.f, show (F.DEV_PAIR_STS_STATE 0).addr = R.DEV_PAIR_STS 0 from rfl, h]
  exact s.pairSt_pairFell

/-! ### The restart -/

theorem State.Boots.romRuns (h : s.Boots u) {a b} : s.Boots (u.romRuns a b) := .if_ h.romDone h.bootRom.romDone

theorem State.boots_rootRestart (s : State) (a b : List Byte) : s.rootFell.Boots (s.rootRestart a b) := by
  rw [State.rootRestart_eq]
  exact State.Boots.refl.bootEntry.rstFlag.romRuns

theorem rootRestart_leaves (s : State) (a b : List Byte) :
    (s.pairSt 0 = pHalted → exec (.rootRestart a b) s = .next (s.rootRestart a b)) ∧
      (s.fb F.RST_WDT_EN = true → exec (.watchdogExpire a b) s = .next (s.rootRestart a b)) ∧
      (s.rootRestart a b).f F.RST_STS_STAGE = s.f F.RST_STS_STAGE ∧ (s.rootRestart a b).f F.RST_STS_CAUSE = 6 ∧ (s.rootRestart a b).keys.slots = s.keys.slots ∧
      (s.rootRestart a b).cfg.active = s.cfg.active ∧ (s.rootRestart a b).gac = s.gac ∧ (s.rootRestart a b).lanes = s.lanes ∧ (s.rootRestart a b).grv = s.grv ∧
      (s.rootRestart a b).slu = s.slu ∧ (s.rootRestart a b).pairSt 0 = pRunning ∧ (s.rootRestart a b).rng.live = false ∧
      (∀ k, 1 ≤ k → k < 5 → (s.rootRestart a b).pr k = s.pr k) := by
  have hb := s.boots_rootRestart a b
  have hf := s.onlyIn_rootFell
  have hall : s.onlyIn (s.rootRestart a b) (rootParts ++ romParts) :=
    (hf.mono (List.subset_append_left _ _)).trans (hb.parts.mono (List.subset_append_right _ _))
  have hcfg : (s.rootRestart a b).cfg = s.cfg := hall.1 .cfg (by decide)
  have hpairs : (s.rootRestart a b).pairs = s.rootFell.pairs := hb.parts.1 .pairs (by decide)
  refine ⟨fun h => ?_, fun h => ?_, hb.stage.trans s.stage_rootFell, hb.cause.trans (State.cause_resetCause _ (by decide)), ?_, by rw [hcfg], hall.gac,
    hall.1 .lanes (by decide), hall.1 .grv (by decide), hall.1 .slu (by decide), ?_, hb.live.trans s.live_rootFell,
    fun k hk _ => (State.pr_congr hpairs k).trans (s.pr_rootFell hk)⟩
  · have he : exec (.rootRestart a b) s = execRootRestart a b s := rfl
    rw [he, execRootRestart, if_pos h]
  · have he : exec (.watchdogExpire a b) s = execWatchdogExpire a b s := rfl
    rw [he, execWatchdogExpire, if_pos h]
  · rw [hb.slots, hf.keys]
  · rw [State.pairSt, State.f, show (F.DEV_PAIR_STS_STATE 0).addr = R.DEV_PAIR_STS 0 from rfl, hb.pair]
    exact s.pairSt_rootFell

end RestartRow

/-- Settles O32: each source is followed through what it resets and what it stops. Blocks that go down leave the keys, the memory and
the GAC (`State.Subsides`), and the boot ROM leaves the key slots, the pair and the stage (`State.Boots`). -/
theorem resetSources : Obligations.ResetSources := by
  intro s
  exact ⟨powerOn_leaves s, railReset_leaves s, serdesRail_leaves s, io33Rail_leaves s, perst_leaves s, rootRestart_leaves s, rootResume_leaves s,
    fun _ => rfl, mainPowerLoss_leaves s⟩

end Sys2Proof.Machine
